-- ==== Sys2Proof/Word.lean ====
section
/-! DEFINITION. The word types of the block (R4, R5) and the type of the sparse tables that State is made of. -/

namespace Sys2Proof

/-- The 32-bit little-endian word of every Obric structure (R5). -/
abbrev Word := BitVec 32

/-- One byte. -/
abbrev Byte := BitVec 8

/-- A sparse table: entries by key, in the order in which the keys were first written. -/
abbrev Map (κ α : Type) := List (κ × α)

end Sys2Proof
end

