-- ==== Sys2Proof/Operand.lean ====
section
/-! DEFINITION. The data types that commands of the block carry as operands. -/

namespace Sys2Proof

/-- Where a command packet comes from: the command queue of a pair, or the fabric on one side (R60). -/
inductive Src where
  | pair (n : Nat)
  | inband (side : Nat)
deriving DecidableEq, Repr

/-- What the world outside the block does while a packet is served: whether each access to host memory
succeeds, whether what the command writes into the boot flash (`flashOk`) or the on-package NOR (`norOk`) verifies when it
is read back, the bytes at the data descriptor, what an outside device or sensor answers, which units stay silent, and the step of an epoch
advance or of an erase of the recorder after which both feeds are lost (`cut`, R329, R495). -/
structure Outside where
  fetchOk : Bool := true
  dataOk : Bool := true
  resultOk : Bool := true
  replyOk : Bool := true
  flashOk : Bool := true
  norOk : Bool := true
  data : List Byte := []
  answers : List Nat := []
  silent : Bool := false
  silentUnits : List (Nat × Nat × Nat) := []
  cut : Option Nat := none
deriving DecidableEq, Repr

/-- A setting of INBAND_CONFIG (R78), with the bytes of the key under which a packet's trailer has verified (R60). -/
structure InbandSet where
  enable : Bool := false
  sideA : Bool := false
  sideB : Bool := false
  slot : Nat := 0
  groups : Nat := 0
  key : List Byte := []
deriving DecidableEq, Repr

/-- A command packet (Table 2.3) without its OPCODE, which the command that carries it names. `params` are
the words after the header: the descriptors of R45 and then the command's own words. `inband` is what the block notes on an
in-band packet: the setting in force when its first cell arrived (R78) and the key of its trailer (R60); a sender does not
choose it. -/
structure Packet where
  src : Src := .pair 0
  tag : BitVec 16 := 0
  length : BitVec 16 := 8
  flags : BitVec 16 := 0
  cplx : Byte := 0
  unit : Byte := 0
  inst : BitVec 16 := 0
  world : BitVec 16 := 0x0100#16
  rsv3 : BitVec 16 := 0
  epochExp : BitVec 16 := 0
  rsv4 : BitVec 16 := 0
  seq : BitVec 64 := 0
  rsv7 : Word := 0
  params : List Word := []
  trailer : BitVec 128 := 0
  inband : InbandSet := {}
  env : Outside := {}
deriving DecidableEq, Repr

/-- A packet with its OPCODE. -/
structure Written where
  op : Nat
  pkt : Packet
deriving DecidableEq, Repr

/-- What Hide finds when it accesses a line (Table 11.10): nothing wrong; one symbol in error; more than one, or a
tag mismatch; a counter node of a level (1 to 4) that fails; a parity error of the root register; or a ring line written whole and
in order, but in the pass given (R370). -/
inductive LineCheck where
  | good | symbol | mismatch
  | replayed (pass : Nat)
  | node (level : Nat)
  | root
deriving DecidableEq, Repr

/-- An access of MGMT or DEBUG to HBM: 1 a raw read, 2 a plaintext read, 3 a plaintext write, and what Hide finds in the line (R375, R379,
R382). -/
structure MasterAccess where
  code : Nat
  check : LineCheck := .good
deriving DecidableEq, Repr

/-- A macro of the retention banks, by its number 0 to 1,823, that reads back wrong: the bits that differ, as the bytes from the
first wrong one to the last (R458). -/
structure Upset where
  place : Nat
  bytes : List Byte
deriving DecidableEq, Repr

/-- An XGEM frame as it stands in an allocation's payload: whether its header's HEC passes, whether an uncorrectable codeword
overlaps it, its port, key index, LF, whether it is idle, its word position, and its payload as received. -/
structure XgemRx where
  hecOk : Bool := true
  bad : Bool := false
  port : Nat := 0
  key : Nat := 0
  last : Bool := true
  idle : Bool := false
  pos : Nat := 0
  bytes : List Byte := []
deriving DecidableEq, Repr

/-- What a burst carries for an allocation: its data words, its DBRu with whether the CRC-8 checks, and its XGEM frames. -/
structure AllocRx where
  alloc : Nat
  words : Nat := 0
  dbru : Option (Nat × Bool) := none
  frames : List XgemRx := []
deriving DecidableEq, Repr

/-- What the burst receiver and the BPM converter find where a burst is granted: whether clock recovery locks within its lock
window, the bit errors of the word that comes nearest to the delimiter, if any does, with its offset in 1/16 UI from the expected
position, the header's HEC and ONU-ID, the BPM codes from the opening of the averaging window on,
codewords corrected and uncorrectable, bit errors, whether it carries Dying_Gasp and whether the MIC of that message is good, whether its header says that more PLOAM
messages wait, whether the ingress buffer has room, and the content by allocation. `granted` tells apart the terminals that a map grants
bursts at one word (R552). -/
structure BurstRx where
  locked : Bool := true
  delimiter : Option Nat := some 0
  offset : Int := 0
  hecOk : Bool := true
  onu : Nat := 0
  codes : List Nat := []
  corrected : Nat := 0
  uncorrectable : Nat := 0
  bip : Nat := 0
  dying : Bool := false
  dyingMic : Bool := true
  more : Bool := false
  fits : Bool := true
  parts : List AllocRx := []
  granted : Option Nat := none
deriving DecidableEq, Repr

/-- What Patina measures of a rail: the largest monitor loss in 0.1 %, and the slack in 0.1 ps at the present offset, at the
neighbouring one (10 mV off), one step below, and at the offset that the plan then takes (R478, R480). -/
structure RailScan where
  rail : Nat
  ageing : Nat
  s0 : Int
  s1 : Int
  sLow : Int
  sPlan : Int
deriving DecidableEq, Repr

/-- What Patina's coarse scan of a lane measures: the smallest HEIGHT in mV and LEFT + RIGHT in 1/64 UI (R481). -/
structure LaneScan where
  lane : Nat
  height : Nat
  width : Nat
deriving DecidableEq, Repr

/-- Whose a PLOAMu message that the PLOAM engine owns is, and whether its MIC verifies under the terminal's key (R120). -/
structure PloamFrom where
  terminal : Nat
  mic : Bool
deriving DecidableEq, Repr

/-- Where an XGEM frame stands: the upstream frame of its burst's map, and its word position there (R99). -/
structure XgemPlace where
  frame : Nat
  word : Nat
deriving DecidableEq, Repr

/-- A serial-number response: its octets, and whether its MIC verifies (R120, R143). -/
structure SnMessage where
  octets : List Byte
  mic : Bool
deriving DecidableEq, Repr

end Sys2Proof
end

