-- ==== Sys2Proof/Syntax.lean ====
section
/-! DEFINITION. The commands of the block: one constructor per row of spec/opcode_table.json. An Obric command
carries its packet; an event carries what happens outside the block. -/

namespace Sys2Proof

/-- The commands of the block, in the order of the table. -/
inductive Instr where
  /-- CQ_TAIL, R547. Host writes the command queue doorbell; the pair fetches whole packets from CQ_HEAD up to CQ_TAIL. -/
  | cqTail (fn pair tail : Nat) (packets : List Written)
  /-- RQ_HEAD, R548. Host advances the reply doorbell, freeing reply entries so that waiting replies and notifications are written. -/
  | rqHead (fn pair value : Nat)
  /-- QP_ENABLE, R547. Write of ENABLE in a queue pair starts or stops fetching, clears ERROR or sets ERROR 4. -/
  | qpEnable (fn pair : Nat) (value : Word)
  /-- PENDING, R42. W1C write to the interrupt block clears pending bits of queue pairs. -/
  | pending (fn : Nat) (bits : BitVec 64)
  /-- HIQ_TAIL, R85. Host writes an injection queue TAIL doorbell; a value beyond the ring sets ERROR 2 and disables the queue. -/
  | hiqTail (fn queue value : Nat)
  /-- HRQ_HEAD, R85. Host writes a receive queue HEAD doorbell, freeing slots for new records. -/
  | hrqHead (fn queue value : Nat)
  /-- REGISTER_WRITE, R7. Write to a register with no behaviour of its own, acting as its access code states. -/
  | registerWrite (fn offset : Nat) (value : Word)
  /-- NOP, R55. Command that does nothing. -/
  | nop (p : Packet)
  /-- IDENTIFY, R43. Returns identity block words 0 to 11. -/
  | identify (p : Packet)
  /-- STATUS_READ, R43. Returns status block words 0 to 5. -/
  | statusRead (p : Packet)
  /-- EPOCH_STAGE, R544. Stages epoch E, which must be current + 1, from state NONE. -/
  | epochStage (p : Packet)
  /-- EPOCH_PREPARE, R73. Asks every unit with staged content to check and reserve; OK gives PREPARED, a failure gives PREPARE_FAILED and discards the content. -/
  | epochPrepare (p : Packet)
  /-- EPOCH_PREPARE_TIMEOUT, R73. A unit does not answer a prepare within 1 ms and counts as failing with UNIT_TIMEOUT. -/
  | epochPrepareTimeout
  /-- EPOCH_ACTIVATE, R70. Arms a prepared epoch at a superframe count or time from 500 µs to 60 s ahead. -/
  | epochActivate (p : Packet)
  /-- EPOCH_ABORT, R74. Discards a staged, prepared or armed epoch, or returns TOO_LATE. -/
  | epochAbort (p : Packet)
  /-- EPOCH_ACTIVATION_TICK, R32. At the first tick at or after the activation point every ingress unit stamps the new epoch, units without banks swap staged copies, and the state becomes DRAINING. -/
  | epochActivationTick
  /-- EPOCH_DRAINED, R33. The previous epoch's in-flight count reaches zero; its banks are released, EPOCH_DRAINED is sent and the state becomes NONE. -/
  | epochDrained
  /-- EPOCH_DRAIN_LATE, R75. The previous epoch is not drained 1 ms after activation; its frames are dropped in DROP_EPOCH and its banks released. -/
  | epochDrainLate
  /-- QUEUE_BIND, R77. Binds or unbinds a queue pair to a function, world and MSI-X vector and resets its pointers. -/
  | queueBind (p : Packet)
  /-- IMAGE_WRITE, R67. Checks an image and writes it into the invalid or older copy of its kind, header last, then verifies it. -/
  | imageWrite (p : Packet)
  /-- IMAGE_STATUS, R80. Returns sequence, length and state of each of the four boot copies. -/
  | imageStatus (p : Packet)
  /-- SETTINGS_STATUS, R80. Returns the validity and sequence of each runtime settings record. -/
  | settingsStatus (p : Packet)
  /-- MODULE_RESET, R81. Replies, then performs a firmware restart or a full module reset. -/
  | moduleReset (p : Packet)
  /-- FIRMWARE_RESTART_COMPLETE, R81. The reloaded firmware serves QP_0 again and sends STATE_CHANGE 0x0C01. -/
  | firmwareRestartComplete
  /-- INBAND_CONFIG, R78. Sets enable, fabric sides, CMAC key slot and permitted opcode groups of in-band commands. -/
  | inbandConfig (p : Packet)
  /-- NOTIFY_MASK, R79. Sets the mask that suppresses notifications. -/
  | notifyMask (p : Packet)
  /-- HOSTQ_CONFIG, R82. Configures, enables or disables a host receive or injection queue. -/
  | hostqConfig (p : Packet)
  /-- PORT_CONFIG, R94. Sets a PON port's mode, pairing and burst, loss, BPM and levelling parameters. -/
  | portConfig (p : Packet)
  /-- PORT_DISABLE_COMPLETE, R90. After Deactivate_ONU-ID in three PON frames, TXDIS is asserted and the mode-0 PORT_CONFIG completes. -/
  | portDisableComplete (port : Nat)
  /-- PORT_STATE, R136. Returns a port's configuration, state, defects, ToD latch and counters. -/
  | portState (p : Packet)
  /-- TERMINAL_ADD, R132. Creates a terminal record in PENDING with its serial number, world and key slots. -/
  | terminalAdd (p : Packet)
  /-- TERMINAL_REMOVE, R132. Deletes a terminal record, deactivating the terminal and releasing its slot bindings. -/
  | terminalRemove (p : Packet)
  /-- PLOAM_SEND, R133. Queues a host PLOAM message for a terminal. -/
  | ploamSend (p : Packet)
  /-- BPM_READ, R134. Returns a terminal's burst power values and clears its minimum and maximum. -/
  | bpmRead (p : Packet)
  /-- OPTICS_ACCESS, R128. Performs a two-wire transaction to a port's optics on its management bus. -/
  | opticsAccess (p : Packet)
  /-- OMCI_BIND, R135. Binds or unbinds a port's OMCI traffic to a host receive queue. -/
  | omciBind (p : Packet)
  /-- DISCOVERY_CONFIG, R138. Sets reach, Awl enable and classic window spacing of a tree. -/
  | discoveryConfig (p : Packet)
  /-- RANGING_READ, R161. Returns a terminal's ranging state, EQD, RTD, drift and counts. -/
  | rangingRead (p : Packet)
  /-- TERMINAL_RERANGE, R155. Moves an operating terminal to RERANGING with a full-reach grant, or a HELD terminal to PENDING. -/
  | terminalRerange (p : Packet)
  /-- ALLOC_WRITE, R166. Writes or rewrites an allocation context. -/
  | allocWrite (p : Packet)
  /-- ALLOC_READ, R168. Returns an allocation context image. -/
  | allocRead (p : Packet)
  /-- ALLOC_DELETE, R168. Deletes an allocation context from the next map. -/
  | allocDelete (p : Packet)
  /-- SCHEDULE_HINT, R186. Stores, replaces or cancels a hint for one of the next four maps of an allocation. -/
  | scheduleHint (p : Packet)
  /-- CINCH_BUDGET, R187. Sets the module upstream budget and per-tree weights. -/
  | cinchBudget (p : Packet)
  /-- WEAVER_STATS, R198. Returns Weaver counters of a lane or tree. -/
  | weaverStats (p : Packet)
  /-- UPSTREAM_GATE_LOAD, R195. Loads a tree's upstream gate list. -/
  | upstreamGateLoad (p : Packet)
  /-- PARSE_GRAPH_LOAD, R202. Loads a staged parse graph image with its selectors. -/
  | parseGraphLoad (p : Packet)
  /-- RULE_TREE_LOAD, R212. Loads a whole rule tree image into the open rule version. -/
  | ruleTreeLoad (p : Packet)
  /-- RULE_UPDATE, R219. Applies rule additions, deletions and action replacements to the open version, all or none. -/
  | ruleUpdate (p : Packet)
  /-- RULE_VERSION_COMMIT, R221. Makes the open rule version current, changing ingress stamping on one tick. -/
  | ruleVersionCommit (p : Packet)
  /-- RULE_VERSION_STATUS, R223. Returns the state and in-flight count of each rule version. -/
  | ruleVersionStatus (p : Packet)
  /-- RULE_VERSION_RETIRED, R220. A draining rule version's in-flight count reaches zero; it becomes FREE and is notified. -/
  | ruleVersionRetired (v : Nat)
  /-- RVER_DRAIN_LATE, R220. A rule version stays draining for 1 ms; its frames are dropped in DROP_RVER and it becomes FREE. -/
  | rverDrainLate (v : Nat)
  /-- EXCEPTION_CONFIG, R206. Sets an exception's disposition, rate, host queue and action for a source. -/
  | exceptionConfig (p : Packet)
  /-- MAC_STATIC_ADD, R237. Installs a static MAC entry in all four slices or none. -/
  | macStaticAdd (p : Packet)
  /-- MAC_DELETE, R237. Removes a keyed MAC entry from one or all slices. -/
  | macDelete (p : Packet)
  /-- MAC_LOOKUP, R239. Returns a slice's MAC entry for a key. -/
  | macLookup (p : Packet)
  /-- MAC_FLUSH, R239. Removes learned MAC entries by scope and returns their number. -/
  | macFlush (p : Packet)
  /-- AGEING_CONFIG, R236. Sets learning enable, limit, age time and scan interval. -/
  | ageingConfig (p : Packet)
  /-- LPM_ADD, R244. Adds or replaces a prefix in a world's LPM table. -/
  | lpmAdd (p : Packet)
  /-- LPM_DELETE, R244. Deletes a prefix from a world's LPM table. -/
  | lpmDelete (p : Packet)
  /-- LPM_LOAD, R245. Replaces a world's whole LPM table from an image. -/
  | lpmLoad (p : Packet)
  /-- STITCH_CONFIG, R247. Enables or disables Stitch reordering for a source. -/
  | stitchConfig (p : Packet)
  /-- QUEUE_CONFIG, R254. Writes a queue, drop profile, world quota, replication group or mirror session. -/
  | queueConfig (p : Packet)
  /-- SCHED_NODE_CONFIG, R259. Writes a scheduler node's enable, priority, weights, parent and default settings. -/
  | schedNodeConfig (p : Packet)
  /-- SHAPER_CONFIG, R263. Writes the shaper of a tenant or terminal node and restarts its buckets. -/
  | shaperConfig (p : Packet)
  /-- GATE_LIST_LOAD, R266. Loads a gate list for an uplink port or tree downstream. -/
  | gateListLoad (p : Packet)
  /-- GATE_LIST_START, R267. A pending gate list reaches its start S and takes over from the previous list. -/
  | gateListStart (target : Nat)
  /-- QUEUE_STATS, R271. Returns a queue's depth, delays and counts and clears its maxima. -/
  | queueStats (p : Packet)
  /-- SAMPLE_RING_CONFIG, R272. Gives a world a sample ring in host memory, or removes it. -/
  | sampleRingConfig (p : Packet)
  /-- SAMPLE_RING_READ, R274. Returns a sample ring's consumed point, tail and lost count, optionally setting the consumed point. -/
  | sampleRingRead (p : Packet)
  /-- SC_CONFIG, R291. Writes, rewrites or deletes a secure channel. -/
  | scConfig (p : Packet)
  /-- SA_CONFIG, R293. Installs, replaces or removes a secure association. -/
  | saConfig (p : Packet)
  /-- SA_ACTIVATE, R304. Makes an association the encoding or latest AN of its channel. -/
  | saActivate (p : Packet)
  /-- PON_KEY_SWITCH, R100. Schedules a terminal's downstream key index switch at a superframe count. -/
  | ponKeySwitch (p : Packet)
  /-- KEY_GENERATE, R337. Generates, derives, reserves or unwraps a key into a slot, or derives one to the result. -/
  | keyGenerate (p : Packet)
  /-- KEY_WRAP, R340. Returns a slot's key wrapped under a key-encryption slot. -/
  | keyWrap (p : Packet)
  /-- SHEDAR_UPDATE, R326. Checks and applies a signed Shedar message to a slot, MSK or life-cycle state. -/
  | shedarUpdate (p : Packet)
  /-- SLOT_ERASE, R341. Empties a slot, aborting frames that use it, and optionally resets its attributes. -/
  | slotErase (p : Packet)
  /-- SLOT_INFO, R342. Returns a slot's attributes, flags and generation. -/
  | slotInfo (p : Packet)
  /-- ATTEST_OPERATOR, R343. Writes a signed operator statement and certificate chain. -/
  | attestOperator (p : Packet)
  /-- ATTEST_TENANT, R344. Writes a tenant statement, endorsement and certificate chain for a tenant slot. -/
  | attestTenant (p : Packet)
  /-- ENC_RESERVE, R286. Secures or unsecures a MACsec point in one direction and reserves pipe capacity. -/
  | encReserve (p : Packet)
  /-- UPDATE_EPOCH_ADVANCE, R329. Burns the next update epoch row with a new update authority key. -/
  | updateEpochAdvance (p : Packet)
  /-- ALARM_STATUS, R349. Returns alarm sensor states and history and clears the history. -/
  | alarmStatus (p : Packet)
  /-- POOL_CONFIG, R354. Configures an HBM pool and rebuilds its free ring. -/
  | poolConfig (p : Packet)
  /-- POOL_STATS, R363. Returns a pool's free, cached and withdrawn cells and counts. -/
  | poolStats (p : Packet)
  /-- HIDE_KEY_CHANGE, R374. Generates a new Hide key, sweeps every line under it, flushes and erases the old key. -/
  | hideKeyChange (p : Packet)
  /-- HIDE_STATUS, R384. Returns Hide key identifiers, sweep progress, poison state and counters. -/
  | hideStatus (p : Packet)
  /-- REGION_REINIT, R377. Re-initialises a region's poisoned subtrees and withdrawn cells. -/
  | regionReinit (p : Packet)
  /-- RIGHTS_WRITE, R381. Writes an entry of the HBM rights table of MGMT or DEBUG. -/
  | rightsWrite (p : Packet)
  /-- UPLINK_CONFIG, R420. Sets an uplink MAC group's port arrangement, enables and FEC. -/
  | uplinkConfig (p : Packet)
  /-- LANE_CONFIG, R389. Sets a lane's equalization, idle policy, precoding and transmitter settings. -/
  | laneConfig (p : Packet)
  /-- LANE_STATUS, R401. Returns a lane's state, defects, equalization and counters. -/
  | laneStatus (p : Packet)
  /-- PLAIT_CONFIG, R415. Sets a fabric side's mode, width, alignment, error, trace, pause and card settings. -/
  | plaitConfig (p : Packet)
  /-- PROTECTION_COMMAND, R417. Issues clear, manual or force to the protection selector and sets its parameters. -/
  | protectionCommand (p : Packet)
  /-- LANE_EYE_SCAN, R402. Measures a lane's eyes with the auxiliary sampler. -/
  | laneEyeScan (p : Packet)
  /-- TIME_READ, R424. Returns the time counter and servo state on the fast path. -/
  | timeRead (p : Packet)
  /-- TIME_SET, R434. Sets, offsets, accepts a refused offset or feeds a measurement to the time counter. -/
  | timeSet (p : Packet)
  /-- PTP_CONFIG, R429. Configures the PTP clock or one uplink port's PTP mode. -/
  | ptpConfig (p : Packet)
  /-- ASYMMETRY_SET, R431. Writes a port's time-stamp delays, asymmetry or refractive-index ratio. -/
  | asymmetrySet (p : Packet)
  /-- SYNCE_CONFIG, R437. Sets SyncE source priorities, quality levels, timers and recovered clock outputs. -/
  | synceConfig (p : Packet)
  /-- TS_QUEUE_READ, R436. Returns and removes the oldest host-mode transmit time-stamps of a group. -/
  | tsQueueRead (p : Packet)
  /-- HALTER_ENTER, R453. Begins entry to Halter through stages S1 to S5. -/
  | halterEnter (p : Packet)
  /-- HALTER_EXIT, R456. Requests the end of Halter, or of Halter entry, as a wake event. -/
  | halterExit (p : Packet)
  /-- DOMAIN_CONTROL, R442. Powers or gates a power domain where permitted. -/
  | domainControl (p : Packet)
  /-- FEED_CONFIG, R511. Sets the preferred feed and return time. -/
  | feedConfig (p : Packet)
  /-- POWER_STATUS, R523. Returns feed, power and temperature status and clears PEAK_POWER. -/
  | powerStatus (p : Packet)
  /-- FAULT_READ, R474. Returns a fault table entry or the whole table. -/
  | faultRead (p : Packet)
  /-- FAULT_CLEAR, R474. Frees an inactive fault entry or retries recovery of a unit kept out of service. -/
  | faultClear (p : Packet)
  /-- RECORDER_READ, R493. Writes records from a snapshot of the event recorder to the result buffer. -/
  | recorderRead (p : Packet)
  /-- RECORDER_ERASE, R495. Checks an erase authorisation and erases the recorder, keeping records above THROUGH_SEQ. -/
  | recorderErase (p : Packet)
  /-- COUNTER_CONFIG, R498. Sets a programmable counter's enable, event and world, optionally clearing it. -/
  | counterConfig (p : Packet)
  /-- COUNTER_READ, R501. Returns a cycle, programmable or named counter on the fast path. -/
  | counterRead (p : Packet)
  /-- PATINA_SCAN, R484. Measures rails and lanes and, with APPLY, re-plans their margins. -/
  | patinaScan (p : Packet)
  /-- PATINA_STATUS, R484. Returns the Patina plan in force. -/
  | patinaStatus (p : Packet)
  /-- VF_COUNTER_GRANT, R502. Grants or withdraws a virtual function's counter access. -/
  | vfCounterGrant (p : Packet)
  /-- VENDOR_DIAGNOSTICS, R56. Vendor diagnostic opcodes, accepted only from DEBUG outside DEPLOYED. -/
  | vendorDiagnostics (n : Nat) (p : Packet)
  /-- INBAND_PACKET, R58. An in-band command packet arrives from the fabric and is authenticated, sequence-checked and queued. -/
  | inbandPacket (side op : Nat) (p : Packet)
  /-- FEED_VALIDATED, R508. A feed stays within thresholds for 10 ms, or recovers within 20 µs, and becomes valid. -/
  | feedValidated (feed volts : Nat)
  /-- FEED_INVALID, R508. A feed crosses the falling lockout or overvoltage limit and becomes invalid after 0.5 µs. -/
  | feedInvalid (feed volts cause : Nat)
  /-- FEED_VOLTAGE_CROSSING, R509. The feed voltages cross a switch or return margin, possibly changing the chosen feed. -/
  | feedVoltageCrossing (voltsA voltsB : Nat)
  /-- RETURN_MS_EXPIRY, R509. The preferred feed has been valid and within the return margin for RETURN_MS; the stage returns to it. -/
  | returnMsExpiry
  /-- FEED_FLAP_CLEAR, R513. 60 s without a switch-over clears FEED_FLAP and restores the preference. -/
  | feedFlapClear
  /-- SOFT_START_COMPLETE, R510. 20 ms after soft start the rails are in regulation, PWR_OK is released and the keeper and secure islands leave reset. -/
  | softStartComplete
  /-- RIDE_EXPIRY, R510. 20 µs in RIDE without a valid feed powers the module down. -/
  | rideExpiry
  /-- FEED_OVERCURRENT, R512. A feed at its current limit for 5 ms is opened and treated as invalid for 1 s. -/
  | feedOvercurrent (feed : Nat)
  /-- FEED_OVERCURRENT_RELEASE, R512. The 1 s exclusion after overcurrent ends and the feed is validated afresh. -/
  | feedOvercurrentRelease (feed : Nat)
  /-- ORING_FAIL, R512. Reverse current above 100 mA for 10 µs opens and excludes the feed. -/
  | oringFail (feed : Nat)
  /-- CARD_SEATED, R515. CARD_SEATED_L low for 10 ms seats the card and enables fabric lanes. -/
  | cardSeated
  /-- CARD_UNSEATED, R515. CARD_SEATED_L going high unseats the card and disables every fabric lane. -/
  | cardUnseated
  /-- PERST_L_ASSERT, R517. A low of at least 1 µs on PERST_L is a module reset, and boot runs from its deassertion. -/
  | perstLAssert (ns : Nat)
  /-- ROM_BOOT, R64. The ROM reads the four headers, verifies and selects firmware and configuration, or enters RECOVERY. -/
  | romBoot (flash : List (List Byte))
  /-- FIRMWARE_START_TIMEOUT, R64. Firmware does not reach command-ready in 5 s; the copy is marked failed and boot restarts with the other. -/
  | firmwareStartTimeout
  /-- CONFIGURATION_APPLIED, R66. Beymbin applies the configuration, the status block shows READY and QP_0 is served. -/
  | configurationApplied (config : List Written)
  /-- TEMP_HIGH, R524. A junction sensor reaches 105 °C, or all fall below 100 °C, raising or clearing TEMP_HIGH. -/
  | tempHigh (rail : Nat) (junction tcase : Int)
  /-- THERMAL_SHUTDOWN, R524. A sensor at 120 °C for 1 ms is recorded and every rail but the always-on one turns off. -/
  | thermalShutdown (rail : Nat) (junction : Int)
  /-- REF_LOS, R521. A reference absent for 1 µs or off frequency for 100 µs is lost, and its units fall back. -/
  | refLos (ref : Nat)
  /-- REF_RESTORE, R521. A reference valid for 10 s clears REF_LOS, and a fabric side may return to it. -/
  | refRestore (ref : Nat)
  /-- TIME_TICK, R18. Every 12.8 ns the time counter advances in every island and shapers are credited. -/
  | timeTick (ticks : Nat)
  /-- MODULE_FRAME_BOUNDARY, R19. Every 125 µs the module superframe count rises and every port begins a PON frame. -/
  | moduleFrameBoundary (energy : List (Nat × List Nat))
  /-- SAMPLING_INSTANT, R270. Every 10 µs the sampler samples every queue and writes period units to sample rings. -/
  | samplingInstant (inTime : Bool)
  /-- BURST_RECEIVED, R105. A granted upstream burst passes and is judged good, failed or missing and its content handled. -/
  | burstReceived (port map start : Nat) (rx : BurstRx)
  /-- DEACT_TIMEOUT, R116. A terminal loss defect lasting DEACT_MS deactivates the terminal and returns it to discovery. -/
  | deactTimeout (terminal : Nat)
  /-- TERMINAL_DELAY_CHANGE, R432. The time complex computes a terminal's one-way delay change and notifies 0x0904 beyond TERM_STEP_TH. -/
  | terminalDelayChange (terminal : Nat)
  /-- REASSEMBLY_TIMEOUT_PON, R108. An upstream fragmented frame not completed within 16 PON frames is dropped in DROP_PON_FRAG. -/
  | reassemblyTimeoutPon (terminal alloc : Nat)
  /-- SERIAL_NUMBER_ONU, R143. A serial-number response in a window assigns an ONU-ID, is discarded as duplicate, or is passed to the host. -/
  | serialNumberOnu (port : Nat) (sn0 sn1 : Word) (arrival : Int) (message : SnMessage)
  /-- RANGING_BURST, R154. A good ranging burst gives RTD and sends Ranging_Time, or holds the terminal out of reach. -/
  | rangingBurst (sender : PloamFrom) (rtd : Int)
  /-- ACKNOWLEDGE, R154. A terminal's Acknowledge of Ranging_Time applies the EQD and moves it to OPERATING. -/
  | acknowledge (sender : PloamFrom)
  /-- RANGING_TIME_TIMEOUT, R154. A Ranging_Time without Acknowledge in 4 PON frames is resent, or after three sends the terminal returns to PENDING. -/
  | rangingTimeTimeout (terminal : Nat)
  /-- EXT_ACCEPT, R121. A terminal's EXT_ACCEPT draws EXT_CONFIRM enabling the offered extensions. -/
  | extAccept (sender : PloamFrom) (accept : Nat)
  /-- FORECAST_ACK, R184. A FORECAST_ACK updates tree statistics and may set an allocation's PERIOD. -/
  | forecastAck (sender : PloamFrom) (alloc received used period : Nat)
  /-- KEY_REPORT, R309. A terminal's returned key travels to the secure island for its PON slot. -/
  | keyReport (terminal frag : Nat) (body : List Byte) (mic : Bool)
  /-- PON_KEY_WRITE, R309. The secure island decrypts a returned key into the requested PON slot and raises its generation. -/
  | ponKeyWrite
  /-- KEY_REQUEST, R309. The PLOAM engine sends Key_Control requesting a new key at OPERATING or 8 frames after a switch. -/
  | keyRequest (terminal : Nat)
  /-- KEY_REQUEST_TIMEOUT, R309. An unanswered key request is repeated after 4 PON frames, or abandoned after three with KEY_EXCHANGE_FAIL. -/
  | keyRequestTimeout (terminal : Nat)
  /-- PLOAMU_MESSAGE, R120. An upstream PLOAM message of a type the engine does not own has its MIC checked and goes to the host. -/
  | ploamuMessage (terminal : Nat) (message : List Byte) (mic : Bool)
  /-- UPSTREAM_OMCI_FRAME, R124. An upstream OMCI frame has its MIC checked and is delivered to the bound queue or dropped. -/
  | upstreamOmciFrame (terminal key : Nat) (pos : XgemPlace) (bytes : List Byte) (mic : Bool)
  /-- SN_WINDOW_OPEN, R142. After SPACING_MS, or every 20 ms in an Awl pause, a serial-number window is placed. -/
  | snWindowOpen (port : Nat)
  /-- AWL_CYCLE_BOUNDARY, R149. An Awl cycle begins; the correlator takes the next pending codes and the crowd measurement is judged. -/
  | awlCycleBoundary (port : Nat) (level : Option Nat)
  /-- AWL_PAUSE_END, R151. The 1 s Awl pause ends and Awl resumes. -/
  | awlPauseEnd (port : Nat)
  /-- AWL_DETECTION, R150. The correlator reports a code; Assign_ONU-ID is sent and a directed ranging grant requested. -/
  | awlDetection (port terminal : Nat) (rtd : Int)
  /-- PON_TX_PLL_UNLOCK, R101. A port's transmit PLL loses lock; TXDIS is asserted and LOL_TX raised. -/
  | ponTxPllUnlock (port : Nat)
  /-- OPTICS_REMOVED, R130. PRES_L goes high on an enabled port; TXDIS is asserted, NO_OPTICS raised and Awl stopped. -/
  | opticsRemoved (port : Nat)
  /-- OPTICS_INSERTED, R130. PRES_L goes low again and the 100 ms release timer starts. -/
  | opticsInserted (port : Nat)
  /-- OPTICS_TXDIS_RELEASE, R130. 100 ms after optics return TXDIS is released and framing resumes. -/
  | opticsTxdisRelease (port : Nat)
  /-- OPTICS_POLL, R129. Every second the alarm and warning flags of each present optic are read. -/
  | opticsPoll (port outcome : Nat) (released : Bool)
  /-- OPTICS_BUS_RECOVERY, R129. Once per second a stuck optics bus is sent nine clocks and a stop. -/
  | opticsBusRecovery (bus : Nat) (released : Bool)
  /-- MAP_CUTOFF, R174. A map's cutoff starts the sweep of every context and advances hint slots. -/
  | mapCutoff (lane : Nat)
  /-- REPORT_ABSORB, R172. The absorber applies a report to its allocation's demand and candidate entry. -/
  | reportAbsorb (lane : Nat)
  /-- RESOLVE_PASSES, R178. At the report cutoff the lane runs the contract passes for each port. -/
  | resolvePasses (lane : Nat)
  /-- CINCH_FILL, R188. Cinch computes tree caps from the lanes' aggregates. -/
  | cinchFill
  /-- CINCH_STALE, R190. Aggregates missing at −32 µs are replaced by the previous map's. -/
  | cinchStale (lane : Nat)
  /-- CAPS_LATE, R190. Caps missing at a lane by −30 µs are replaced by the previous map's. -/
  | capsLate (lane : Nat)
  /-- CAPPED_RERUN, R189. A lane reruns the non-assured and best-effort passes of a capped tree. -/
  | cappedRerun (lane : Nat)
  /-- PLACEMENT, R191. The lane places blocked spans, gated bursts and other bursts and builds structures. -/
  | placement (lane : Nat)
  /-- MAP_HANDOFF, R196. At the hand-off deadline a port takes its map, or resends the previous map. -/
  | mapHandoff (port : Nat)
  /-- FRAME_INGRESS, R30. A frame becomes complete at its ingress unit and is stamped, or dropped. -/
  | frameIngress (source card : Nat) (bytes : List Byte) (fits : Bool)
  /-- MACSEC_RECEIVE, R298. A frame at a secured receive point is judged by its SecTAG and decrypted. -/
  | macsecReceive (frame : Nat)
  /-- MACSEC_VERDICT, R301. The ICV verdict of a held or cut-through frame arrives and the frame is released, freed or ended poisoned. -/
  | macsecVerdict (frame : Nat)
  /-- DISTRIBUTOR_SPRAY, R224. The distributor assigns SEQ and sends a frame to the next enabled slice. -/
  | distributorSpray (frame : Nat)
  /-- PARSE_WALK, R200. The parse unit walks the graph, builds the key and may raise an exception. -/
  | parseWalk (frame : Nat)
  /-- CLASSIFY, R210. The classify unit walks operator and tenant trees and merges their actions. -/
  | classify (frame : Nat)
  /-- FORWARD_LOOKUP, R228. The forward unit routes, looks up the destination and source, and sets DEST. -/
  | forwardLookup (frame : Nat)
  /-- LEARN_REQUEST, R235. A queued learn request is inserted, refused or taken as a hit by the learning unit. -/
  | learnRequest (slice : Nat)
  /-- AGEING_SCAN, R241. The learning unit scans entries and queues compare-and-delete for aged ones. -/
  | ageingScan (slice : Nat)
  /-- COMPARE_AND_DELETE, R241. An aged entry is deleted if unchanged since it was read. -/
  | compareAndDelete (slice : Nat)
  /-- STITCH_ARRIVAL, R246. A frame or void reaches Stitch and is released, held or dropped late. -/
  | stitchArrival (frame : Nat)
  /-- STITCH_TIMEOUT, R246. A held entry waits 8 µs and missing SEQs before it are skipped. -/
  | stitchTimeout (frame : Nat)
  /-- ENQUEUE, R252. The traffic manager resolves a frame's queue, makes copies and admits or drops it. -/
  | enqueue (frame : Nat) (room : Bool)
  /-- REIN_DECISION, R260. Rein descends a port's or egress's hierarchy and chooses the next frame to send. -/
  | reinDecision (side index : Nat)
  /-- HOSTQ_RECORD_WRITE, R83. A frame or copy is written as a record to a host receive queue and the vector sent. -/
  | hostqRecordWrite (queue : Nat) (ok : Bool)
  /-- HOSTQ_MODERATION_EXPIRY, R83. The MOD_US interval ends and records written during it are signalled. -/
  | hostqModerationExpiry (queue : Nat)
  /-- INJECTION_FETCH, R84. The TZ64 fetches an injection record when its frame can be placed and handles it by KIND. -/
  | injectionFetch (words : List Word) (bytes : List Byte) (fits ok : Bool)
  /-- MACSEC_TRANSMIT, R295. A frame for a secured transmit point is admitted, tagged and protected. -/
  | macsecTransmit (point : Nat)
  /-- RETIRING_COPY_RELEASE, R283. Frames latched with a retiring key leave and the retiring copy is cleared. -/
  | retiringCopyRelease
  /-- ALARM, R345. A sensor raises an alarm of its class, with its effects, record and notification. -/
  | alarm (sensor : Nat) (present : Bool)
  /-- ZEROISATION_RELEASE, R313. The secure island releases the admission hold after at least 10 µs with sensors in range. -/
  | zeroisationRelease
  /-- DEBUG_TOKEN, R331. A Shedar DEBUG_TOKEN at the debug port switches to the test root after clearing keys. -/
  | debugToken (message : List Byte)
  /-- DEBUG_ACCESS, R381. A MGMT or DEBUG access to HBM is served or refused under the rights table. -/
  | debugAccess (master addr : Nat) (kind : MasterAccess) (data : List Byte)
  /-- OSIER_CACHE_REFILL, R358. A pool cache at 1,024 handles or fewer reads 1,024 handles from its ring. -/
  | osierCacheRefill (pool bad : Nat)
  /-- OSIER_CACHE_SPILL, R358. A pool cache at 3,072 handles or more writes 1,024 handles to its ring. -/
  | osierCacheSpill (pool : Nat)
  /-- CELL_FREE, R361. A holder frees or releases a frame's cells, or is refused. -/
  | cellFree (pool handle : Nat) (isRelease : Bool)
  /-- HIDE_LINE_ACCESS, R365. Hide reads or writes a line, encrypting, tagging, correcting and checking it. -/
  | hideLineAccess (engine addr : Nat) (write : Bool) (data : List Byte) (check : LineCheck)
  /-- COUNTER_CACHE_EVICT, R369. A dirty counter node is written back on eviction and its parent entry raised. -/
  | counterCacheEvict (level index : Nat)
  /-- COUNTER_PATROL, R369. Hourly, Hide reads every node of the counter store. -/
  | counterPatrol (corrected : Nat) (failing : List (Nat × Nat))
  /-- HIDE_INIT, R372. Hide generates a key and initialises every line, node and ring. -/
  | hideInit
  /-- PLAIT_FRAME_RECEIVE, R409. A received Plait frame drives alignment, pointer, trace, BIP and protection bytes and its cells. -/
  | plaitFrameReceive (side : Nat) (bytes : List Byte) (skewOk : Bool) (fill : Nat) (fits : Bool) (env : Outside)
  /-- REASSEMBLY_TIMEOUT, R408. A context without cells for 10 µs is closed and its frame dropped. -/
  | reassemblyTimeout (side src ctx kind : Nat)
  /-- PLAIT_FRAME_TRANSMIT, R407. A Plait frame is sent with its overhead and cells of open contexts or idle cells. -/
  | plaitFrameTransmit (side : Nat)
  /-- EXC_WINDOW, R412. Each 100 µs window's error-marked count raises or clears EXC. -/
  | excWindow (side : Nat)
  /-- PAUSE_STUCK, R414. A card's bit set for PAUSE_MS discards its frames and raises PAUSE_STUCK. -/
  | pauseStuck (side card : Nat)
  /-- PROTECTION_HOLD_OFF, R418. An SF persisting for HOLD_OFF is acted on by the selector. -/
  | protectionHoldOff (side : Nat)
  /-- WTR_EXPIRY, R418. The wait-to-restore timer expires and the preferred side is selected. -/
  | wtrExpiry
  /-- SWITCH_TRANSITION_END, R419. 200 µs after a non-SF move, the old side becomes standby. -/
  | switchTransitionEnd
  /-- WIDTH_CHANGE, R416. A side changes its lane group width at MFI 0 after announcing it. -/
  | widthChange (side : Nat)
  /-- UPLINK_FAULT_CHANGE, R421. Local or remote fault of an uplink port starts or ends. -/
  | uplinkFaultChange (port : Nat) (localFault remoteFault : Bool)
  /-- UPLINK_PORT_UP, R421. 10 ms without fault brings an uplink port up. -/
  | uplinkPortUp (port : Nat)
  /-- UPLINK_FRAME_RECEIVE, R421. An uplink frame is received, with bad FCS and PAUSE frames dropped and PTP frames recognised. -/
  | uplinkFrameReceive (port : Nat) (bytes : List Byte) (fits : Bool)
  /-- LANE_TRAINING_COMPLETE, R394. Training completes with CDR locked and the lane goes ACTIVE. -/
  | laneTrainingComplete (lane peak : Nat) (freq : Int) (taps : List Int) (post pre swing : Nat) (precode : Bool)
  /-- LANE_TRAINING_TIMEOUT, R394. Training not complete in 100 ms is counted, the transmitter idles 100 ms, and training restarts. -/
  | laneTrainingTimeout (lane : Nat)
  /-- LANE_IDLE_REQUEST, R394. The owner requests idle and the lane enters IDLE after the current codeword. -/
  | laneIdleRequest (lane : Nat)
  /-- LANE_EXIT_REQUEST, R394. The owner requests exit or the partner's signal returns, and the lane enters EXIT. -/
  | laneExitRequest (lane : Nat)
  /-- LANE_IDLE_STALE, R394. 100 ms in IDLE marks the receiver state stale. -/
  | laneIdleStale (lane : Nat)
  /-- FAST_EXIT_TIMEOUT, R395. An exit ends in ACTIVE when aligned within 1 µs, otherwise in TRAINING. -/
  | fastExitTimeout (lane : Nat) (aligned : Bool)
  /-- LANE_ENABLE_CHANGE, R394. A lane becomes enabled or not and moves to TRAINING or DISABLED. -/
  | laneEnableChange (lane : Nat)
  /-- LANE_LOS, R396. Amplitude below 60 mV for 1 µs raises LOS, above 100 mV for 10 µs clears it. -/
  | laneLos (lane : Nat) (above : Bool)
  /-- LANE_LOL, R396. CDR unlock for 1 µs raises LOL and retrains; lock for 100 µs clears it. -/
  | laneLol (lane : Nat) (locked : Bool) (freq : Int)
  /-- LANE_FLAP_HOLD_END, R397. The 1 s LANE_FLAP hold ends and the lane is enabled again. -/
  | laneFlapHoldEnd (lane : Nat)
  /-- TX_FAULT, R397. Driver overcurrent holds the transmitter idle and takes the lane out of service. -/
  | txFault (lane : Nat)
  /-- PEAKING_REEVALUATE, R392. Every 100 ms an active lane re-evaluates its peaking step within the window. -/
  | peakingReevaluate (lane move : Nat)
  /-- PEAKING_STEP, R391. Every 10 µs peaking moves one step toward a new fixed value or window. -/
  | peakingStep (lane : Nat)
  /-- EYE_SCAN_COMPLETE, R402. An eye scan finishes or ends ABORTED. -/
  | eyeScanComplete (lane : Nat) (results : List Word)
  /-- PTP_FRAME_RECEIVE, R428. A recognised PTP frame is time-stamped and sent to Beymbin or the host queue. -/
  | ptpFrameReceive (port : Nat) (bytes : List Byte)
  /-- PTP_FRAME_TRANSMIT, R430. A PTP frame is sent with its time-stamp written in or queued. -/
  | ptpFrameTransmit (port : Nat) (bytes : List Byte)
  /-- SERVO_MEASUREMENT, R433. An offset measurement is corrected by frequency or step, refused, or triggers a path step. -/
  | servoMeasurement (port : Nat) (isDelay : Bool) (value : Int)
  /-- SERVO_MEASUREMENT_LAPSE, R433. No measurement for 4 s moves LOCKED to HOLDOVER. -/
  | servoMeasurementLapse
  /-- PPS_IN_EDGE, R439. A PPS_IN rising edge is time-stamped for pairing with TOD_IN. -/
  | ppsInEdge
  /-- TOD_IN_MESSAGE, R439. A TOD_IN message pairs with its edge into one measurement, or counts an error. -/
  | todInMessage (second : Nat) (checksum : Bool)
  /-- PPS_IN_MISSING, R439. PPS_IN absent for 2 s is counted. -/
  | ppsInMissing
  /-- PPS_OUT_EDGE, R438. PPS_OUT rises before each second and TOD_OUT sends its message 1 ms later. -/
  | ppsOutEdge
  /-- SYNCE_SOURCE_CHANGE, R437. A SyncE source fails after HOLDOFF or returns after WTR_M, and the EEC reselects. -/
  | synceSourceChange (source : Nat) (esmc : Option Nat)
  /-- ESMC_LAPSE, R437. ESMC lapsing for 5 s makes a source ineligible. -/
  | esmcLapse (port : Nat)
  /-- HALTER_STAGE_END, R453. An entry stage completes at its abort point, continuing or rewinding. -/
  | halterStageEnd (failing : List Upset)
  /-- HALTER_S3_TIMEOUT, R453. Frames still queued 5 ms into S3 are dropped in DROP_HALTER. -/
  | halterS3Timeout
  /-- HALTER_WAKE, R460. A wake event in Halter powers domains, restores banks and returns to the normal path. -/
  | halterWake (failing : List Upset)
  /-- DOMAIN_RESTORE, R458. A gated domain is powered and its retention macros checked. -/
  | domainRestore (domain : Nat) (failing : List Upset)
  /-- KEEPER_FRAME, R447. The keeper parses a frame in Halter and forwards it by cache hit, or wakes on a miss. -/
  | keeperFrame (frame : Nat)
  /-- PRX_POWER_CYCLE, R445. A PON receive path is powered before a granted upstream frame and gated after it. -/
  | prxPowerCycle (port : Nat) (on : Bool)
  /-- FAULT_REPORT, R466. A collector sends an error to the fault manager, latching class 2 and 3 errors. -/
  | faultReport (cplx unit inst res code cls : Nat) (detail : Word) (frame : Option Nat)
  /-- STICKY_POLL, R466. At least each millisecond the fault manager reads sticky registers and queues latched errors. -/
  | stickyPoll
  /-- FAULT_HANDLING, R467. The fault manager handles a pending error by class, updating the table and notifying. -/
  | faultHandling
  /-- UNIT_RECOVERY, R469. An isolated unit is reset, reloaded, self-tested and returned to service. -/
  | unitRecovery (cplx unit inst : Nat) (selfTest : Bool)
  /-- SAFE_STATE_ENTRY, R470. The sequencer freezes configuration, shows SAFE, notifies and records the trigger. -/
  | safeStateEntry
  /-- HANDLER_FAIL, R470. An exception, overlong handling or uncorrectable error in the fault manager triggers the safe state. -/
  | handlerFail
  /-- RECORD_WRITE, R490. A queued event record is programmed and read back, or dropped when the queue is full. -/
  | recordWrite (torn : Bool)
  /-- OPERATING_SECOND, R487. Operating seconds rise by 1 each second while a feed is valid. -/
  | operatingSecond
  /-- OPERATING_SECONDS_PERSIST, R488. Every 60 s operating seconds are written to the rotating log. -/
  | operatingSecondsPersist
  /-- PATINA_PERIODIC_PLAN, R480. After 1,000 operating hours Patina measures and re-plans rails and lanes. -/
  | patinaPeriodicPlan (rails : List RailScan) (lanes : List LaneScan)
  /-- PATINA_PLAN_WRITE, R482. A plan record is read back and its offsets and windows applied, or SETTINGS_WRITE_FAIL. -/
  | patinaPlanWrite (verified : Bool)
  /-- RAIL_OFFSET_STEP, R479. A rail offset moves one 5 mV step per millisecond toward its plan. -/
  | railOffsetStep (rail : Nat)
  /-- SETTINGS_RECORD_WRITE, R68. A runtime settings record is written to the other copy and read back. -/
  | settingsRecordWrite (record : Nat) (verified : Bool)
  /-- FUNCTION_LEVEL_RESET, R41. A PCIe function-level reset of a virtual function disables its queue pairs; executing commands complete and their replies are discarded, and bindings remain. -/
  | functionLevelReset (fn : Nat)
  /-- UNIT_TIMEOUT, R53. A target unit does not reply within the command's limit; the command ends with UNIT_TIMEOUT and the unit is treated as unit-fatal. -/
  | unitTimeout (queue : Nat)
  /-- PERST_L_DEASSERT, R517. Deassertion of PERST_L starts PCIe link training and, after a module reset, the boot timeline counted from that edge. -/
  | perstLDeassert
  /-- RAW_DETECTOR_STATE_CHANGE, R396. A lane's raw loss-of-signal or loss-of-lock detector changes and reaches its owner within 50 ns, before qualification, driving Plait alignment and protection. -/
  | rawDetectorStateChange (lane : Nat) (los lol : Bool)
  /-- HIDE_SWEEP_COMPLETE, R374. The key-change sweep reaches the end of the ring region; the flush follows, the retiring register is cleared, the old key slot erased and HIDE_KEY_CHANGE replies. -/
  | hideSweepComplete
  /-- PATINA_SCAN_COMPLETE, R484. A PATINA_SCAN finishes its measurements, returns its results and frees the scanner for another scan. -/
  | patinaScanComplete (rails : List RailScan) (lanes : List LaneScan)
  /-- ABKOUX_SERVICE_MESSAGE, R321. A message of the Abkoux service authority moves the life-cycle from RETURNED to PROVISIONED, burning a new epoch row, or to SCRAPPED. -/
  | abkouxServiceMessage (row : Nat) (toScrapped : Bool) (owner signature : List Byte)
deriving DecidableEq, Repr

end Sys2Proof
end

