-- ==== Sys2Proof/Machine/StPacket.lean ====
section
/-! DEFINITION. Frames inside the block and where they are between ingress and enqueue (chapters 1, 6 and 7). -/

namespace Sys2Proof.Machine

/-- A frame with its descriptor (Table 1.4). `world` is the frame's world (R23), `bytes` the frame as it stands, FCS
included. `pool`, `cells` and `lists` are where it lies: its data cells and list cells. `num` is the number that it had
in flight, `wait` says that its tag check is still to come (R301), and `session` is the mirror session of a copy (R258). -/
structure Frame where
  epoch : Nat := 0
  rver : Nat := 0
  cls : Nat := 0
  colour : Nat := 0
  poison : Bool := false
  secured : Bool := false
  mirror : Bool := false
  except : Bool := false
  cut : Bool := false
  world : Nat := 0x0100
  source : Nat := 84
  exc : Nat := 0
  seq : Nat := 0
  len : Nat := 0
  queue : Nat := 0
  dir : Nat := 0
  slice : Nat := 0
  term : Option Nat := none
  card : Nat := 0
  pool : Nat := 0
  cells : List Nat := []
  lists : List Nat := []
  num : Nat := 0
  wait : Bool := false
  session : Option Nat := none
  bytes : List Byte := []
deriving DecidableEq, Repr

/-- An action (Table 6.9). -/
structure Action where
  w0 : Word := 0
  w1 : Word := 0
deriving DecidableEq, Repr

/-- The classification key (Table 6.7) as its fields and its slots. `excAct` says that the exception action takes the
place of the walks (R205). -/
structure Key where
  source : Nat := 0
  dir : Nat := 0
  tenant : Nat := 0
  tenantV : Bool := false
  pflags : Nat := 0
  visits : Nat := 0
  depthX : Bool := false
  len : Nat := 0
  lastNode : Nat := 0
  excAct : Bool := false
  slots : List Word := []
deriving DecidableEq, Repr

/-- Merged action (R215): what classification decided. -/
structure Merged where
  op : Nat := 0
  hostq : Nat := 0
  cls : Nat := 0
  colour : Nat := 0
  queue : Option (Nat × Bool) := none
  mirrors : List Nat := []
deriving DecidableEq, Repr

/-- Where a frame is on its way to enqueue. -/
inductive Place where
  | held | array | ingress | sprayed | parsed | classified | out | stitch | released
deriving DecidableEq, Repr

/-- A frame in flight: its place, its key and merged action once they are known, the start offsets and nodes of
its walk (R201), its DEST, whether it has become a void (R226), the instant at which it came to its place, whether its
rule version still counts it (R222), its receive channel (R302) and whether it passes no lookup (R84, KIND 1). -/
structure Flight where
  frame : Frame
  place : Place := .ingress
  key : Key := {}
  walk : List (Nat × Nat) := []
  act : Merged := {}
  dest : Word := 0
  void : Bool := false
  at_ : Nat := 0
  counted : Bool := true
  chan : Option Nat := none
  direct : Bool := false
deriving DecidableEq, Repr

/-- A learn request (R235): the key, the DEST and the second of the frame's source lookup. -/
structure LearnReq where
  world : Nat
  vid : Nat
  mac : Nat
  dest : Word
deriving DecidableEq, Repr

/-- The frames in flight by number, and those that Stitch has released, in that order (R246). -/
structure PacketSt where
  flights : Map Nat Flight := []
  next : Nat := 0
  order : List Nat := []
deriving DecidableEq, Repr

end Sys2Proof.Machine
end

