-- ==== Sys2Proof/Machine/StRules.lean ====
section
/-! DEFINITION. State of the parse graph, the exceptions, the rule store and the forwarding tables (chapters 6 and 7). -/

namespace Sys2Proof.Machine

/-- A parse graph (Tables 6.1 to 6.3): its nodes of 16 words and its selector words. -/
structure Graph where
  nodes : List (List Word) := []
  sourceSel : List Word := []
  tenantSel : List Word := []
deriving DecidableEq, Repr

/-- The setting of an exception for one source (Table 6.5). -/
structure ExcCfg where
  disp : Nat
  rate : Nat := 100
  hostq : Nat := 0
  act : Action := {}
deriving DecidableEq, Repr

/-- AGEING_CONFIG for one world (Table 7.5). -/
structure LearnCfg where
  enable : Bool := true
  limit : Nat := 524288
deriving DecidableEq, Repr

/-- The epoch configuration that units consult between ingress and enqueue: one bank (R31). A graph of none is the
built-in graph (R204). Exceptions are by code * 256 + source. -/
structure Bank where
  graph : Option Graph := none
  exc : Map Nat ExcCfg := []
  learn : Map Nat LearnCfg := []
  ageS : Nat := 300
  scanS : Nat := 30
  stitch : Map Nat Bool := []
deriving DecidableEq, Repr

/-- A rule record (Table 6.10): value and mask words by PRESENT bit, and ranges as field, low and high. -/
structure Rule where
  id : Nat
  prio : Nat
  present : Nat
  cmp : List (Word × Word)
  r0 : Option (Nat × Nat × Nat)
  r1 : Option (Nat × Nat × Nat)
  act : Action
deriving DecidableEq, Repr

/-- A tree as one version holds it (Table 6.8, R219). `world` is the WORLD of its image, `image` is the number of the load that brought it, `size` the
bytes of that image. Each leaf has the number of the copy that it is (0: as loaded). `side` are the side entries that
carry this version's mark, by entry number. -/
structure Tree where
  world : Nat := 0x0100
  image : Nat := 0
  size : Nat := 0
  nodes : List (Word × Word) := []
  children : List Word := []
  leaves : List (Nat × List Rule) := []
  default : Action := {}
  side : List (Nat × Rule) := []
deriving DecidableEq, Repr

/-- The states of a rule version (Table 6.11). -/
inductive VerState where
  | free | opened | current | draining
deriving DecidableEq, Repr

/-- A rule version: state, trees, in-flight count and since when it drains. -/
structure Version where
  st : VerState := .free
  trees : Map Nat Tree := []
  inFlight : Nat := 0
  since : Nat := 0
deriving DecidableEq, Repr

/-- A MAC table entry (Table 7.2). -/
structure MacEntry where
  world : Nat
  vid : Nat
  mac : Nat
  static : Bool
  age : Nat
  dest : Word
deriving DecidableEq, Repr

/-- One slice's MAC table (R229): the buckets, the stash, the buckets whose OVF and whose MOVE is set, the learn queue,
the compare-and-deletes that the ageing scan has queued, and when the last scan began (R241). -/
structure MacTable where
  buckets : Map Nat (List MacEntry) := []
  stash : List MacEntry := []
  ovf : List Nat := []
  move : List Nat := []
  scanAt : Nat := 0
  learns : List LearnReq := []
  deletes : List MacEntry := []
deriving DecidableEq, Repr

/-- A prefix of an LPM table and its result (Table 7.7). -/
structure Prefix where
  v6 : Bool
  len : Nat
  addr : Nat
  nhMac : Nat
  nhVid : Nat
deriving DecidableEq, Repr

/-- One world's LPM table (R243). -/
structure Lpm where
  routerMac : Nat
  prefixes : List Prefix := []
deriving DecidableEq, Repr

/-- The classification and forwarding state. `bank` is the current epoch's and `prev` the previous epoch's; `worlds`
are the worlds of the trees; `tokens` the exception buckets, as scaled tokens and the instant; `spray` and `nextSeq`
the distributor's pointer and next SEQ by source, `releaseAt` Stitch's release point, and `passedTo` the one past the highest SEQ that a
source without reordering has passed while frames of the previous epoch are still reordered (R31, R247). -/
structure RulesSt where
  bank : Bank := {}
  prev : Bank := {}
  worlds : Map Nat Nat := []
  versions : Map Nat Version := [(0, { st := .current })]
  current : Nat := 0
  images : Nat := 0
  copies : Nat := 0
  sides : Nat := 0
  tokens : Map Nat (Nat × Nat) := []
  mac : Map Nat MacTable := []
  lpm : Map Nat Lpm := []
  spray : Map Nat Nat := []
  nextSeq : Map Nat Nat := []
  releaseAt : Map Nat Nat := []
  passedTo : Map Nat Nat := []
deriving DecidableEq, Repr

end Sys2Proof.Machine
end

