-- ==== Sys2Proof/Machine/StTraffic.lean ====
section
/-! DEFINITION. State of the traffic manager (chapter 8). -/

namespace Sys2Proof.Machine

/-- A frame in a queue and the instant of its enqueue. -/
structure Held where
  frame : Frame
  at_ : Nat
deriving DecidableEq, Repr

/-- A queue (Table 8.2): its context, the frames it holds, the two maxima of R270, its counts (Table 8.7), and whether
it was nonempty at the last sampling instant. WORLD and PARENT are those of a network queue. -/
structure Queue where
  enable : Bool := false
  sample : Bool := false
  enc : Bool := false
  gateClass : Nat := 0
  profile : Nat := 0
  xgemPort : Nat := 0
  world : Nat := 0x0100
  parent : Nat := 0
  held : List Held := []
  maxDepth : Nat := 0
  maxHol : Nat := 0
  enq : Nat := 0
  deq : Nat := 0
  drop : Nat := 0
  was : Bool := false
deriving DecidableEq, Repr

/-- A drop profile (Table 8.2). -/
structure Profile where
  green : Nat := 0x4000
  yellow : Nat := 0x4000
  red : Nat := 0x4000
  ondieOnly : Bool := false
deriving DecidableEq, Repr

/-- A world quota (Table 8.2); HBM_CELLS is none until it is written (R355). -/
structure Quota where
  ondie : Nat := 524288
  hbm : Option Nat := none
deriving DecidableEq, Repr

/-- A replication group (R257). -/
structure Group where
  world : Nat
  members : List Word
deriving DecidableEq, Repr

/-- A mirror session (R258). -/
structure Session where
  dest : Word := 0x50000000#32
  world : Nat := 0x0100
deriving DecidableEq, Repr

/-- A shaper (Table 8.5); the buckets are in units of 2^-32 byte (R264). -/
structure Shaper where
  overhead : Int := 0
  cir : Nat := 0
  pir : Nat := 0
  cbs : Nat := 16384
  pbs : Nat := 16384
  cTok : Int := 0
  pTok : Int := 0
deriving DecidableEq, Repr

/-- The name of a scheduler node: side (0 downstream, 1 network), level and index (Table 8.1). -/
structure NodeId where
  side : Nat
  level : Nat
  index : Nat
deriving DecidableEq, Repr

/-- A scheduler node (Table 8.4) with its deficits and its shaper. -/
structure Node where
  enable : Bool
  dflt : Bool := false
  prio : Nat := 0
  parent : Nat := 0
  weight : Nat := 1
  excWeight : Nat := 1
  world : Nat := 0x0100
  defq : Nat := 0
  defC : Int := 0
  defE : Int := 0
  shaper : Option Shaper := none
deriving DecidableEq, Repr

/-- A gate list: base instant and cycle in ns, and its entries as mask and interval. -/
structure GateList where
  base : Nat
  cycle : Nat
  entries : List (Nat × Nat)
deriving DecidableEq, Repr

/-- The gate lists of a target: the active one, and the pending one with its start S in ns (R267). -/
structure GateSt where
  active : Option GateList := none
  pending : Option (GateList × Nat) := none
deriving DecidableEq, Repr

/-- A sample ring (R272 to R274). `written` are the records written since it was configured, and `consumed` how many of
them the host has consumed, once it has said so. -/
structure Ring where
  fn : Nat
  addr : Nat
  size : Nat
  consumed : Option Nat := none
  written : Nat := 0
  lost : Nat := 0
  lostAll : Nat := 0
deriving DecidableEq, Repr

/-- The traffic manager. Queues are by NodeId of level 4; `pointers` are the round robin pointers by node, prio and
phase, as the child index where it stands; `gates` are by KIND * 64 + INDEX; `busy` is the instant until which a
port or egress has frames chosen; `xgem` frames wait for their port's PON frame and `egress` ones for their point.
`lastSample` is the 10 µs interval of the last sampling instant, none where the next tick is one. -/
structure TrafficSt where
  queues : Map NodeId Queue := []
  profiles : Map Nat Profile := []
  quotas : Map Nat Quota := []
  groups : Map Nat Group := []
  sessions : Map Nat Session := []
  nodes : Map NodeId Node := []
  pointers : Map (NodeId × Nat × Nat) Nat := []
  gates : Map Nat GateSt := []
  rings : Map Nat Ring := []
  busy : Map NodeId Nat := []
  egress : Map Nat (List Frame) := []
  lastSample : Option Nat := none
deriving DecidableEq, Repr

end Sys2Proof.Machine
end

