-- ==== Sys2Proof/Machine/StBanks.lean ====
section
/-! DEFINITION. What the retention banks hold (Table 15.3). -/

namespace Sys2Proof.Machine

/-- The content of a retention bank: a slice's MAC table; the LPM tables; the rule versions with their trees and side tables; both
banks of the parse graph, selectors and packet settings; or the contexts of the traffic manager. -/
inductive BankContent where
  | mac (table : MacTable)
  | lpm (tables : Map Nat Lpm)
  | rule (versions : Map Nat Version)
  | pktCfg (bank prev : Bank)
  | tmCtx (queues : Map NodeId Queue) (profiles : Map Nat Profile) (quotas : Map Nat Quota) (groups : Map Nat Group)
      (nodes : Map NodeId Node) (gates : Map Nat GateSt)
deriving DecidableEq, Repr

end Sys2Proof.Machine
end

