-- ==== Sys2Proof/Config.lean ====
section
/-! DEFINITION. What one part fixes for itself and what the spec leaves open: constants and functions without a
body. Nothing in Lean can evaluate them, so a claim holds whatever they are. -/

namespace Sys2Proof

/-- The 128-bit device identity (R43). -/
opaque Config.deviceId : BitVec 128

/-- The silicon step, word 4 of the identity block (R43). -/
opaque Config.siliconStep : Word

/-- Whether the part is the E grade (R3, R43). -/
opaque Config.gradeE : Bool

/-- The ROM build, word 6 of the identity block (R43). -/
opaque Config.romBuild : Word

/-- A free value: a number that the spec leaves open, applied to the state's count of free values. -/
opaque Config.freeNat : Nat → Nat

/-- How often an event that the model does not see occurs: island, event, world and two instants (Table 17.6). -/
opaque Config.openCount : List Nat → Nat

/-- The bytes of a 64 KiB macro of a retention bank, by the macro's number in the bank: the spec gives no layout of the banks
(Table 15.3), so they are an open function of what the bank holds. -/
opaque Config.macroImage : Machine.BankContent → Nat → List Byte

/-- Whether a record that the block writes of its own accord verifies when it is read back (R68), by the state's count of free values. -/
opaque Config.readsBack : Nat → Bool

/-- Free bytes: bytes that the spec leaves open, as many as asked for. -/
opaque Config.freeByte : Nat → Nat → Byte

/-- Codes that the spec leaves open: 0 the record's CODE of R34, 1 the fault code of R83's host memory
fault, 2 the number of the cause DYING_GASP in a loss defect's detail (R116), 3 the world that the status block shows a virtual
function without a bound pair (R38, R43). -/
opaque Config.openCode : Nat → Nat

/-- What a field of a width holds of a value too large for it, where the spec does not say: width and value. -/
opaque Config.narrow : Nat → Nat → Nat

/-- AES-CMAC over bytes under a key (NIST SP 800-38B), R58, R68. -/
opaque Config.cmac : List Byte → List Byte → BitVec 128

/-- Verification of an ECDSA P-384 signature with SHA-384: public key, message, signature (R62, R63, R326). -/
opaque Config.verify : List Byte → List Byte → List Byte → Bool

/-- The public key of the Abkoux firmware authority, whose hash is fused (R63). -/
opaque Config.firmwareAuthority : List Byte

/-- SHA-384 (R62, R342). -/
opaque Config.sha384 : List Byte → List Byte

/-- The secure island's CTR_DRBG (R338): the 32 bytes of a request, by the state's count of free values. -/
opaque Config.drbg : Nat → List Byte

/-- The KDF of IEEE 802.1X-2020 clause 6.2.1: parent key, label, context and output bits (R338). -/
opaque Config.kdf : List Byte → List Byte → List Byte → Nat → List Byte

/-- RFC 3394 key wrap: key-encryption key and key (R340). -/
opaque Config.wrap : List Byte → List Byte → List Byte

/-- RFC 3394 key unwrap with its integrity check: key-encryption key and wrapped key (R338). -/
opaque Config.unwrap : List Byte → List Byte → Option (List Byte)

/-- HMAC-SHA-384: key and message (R330). -/
opaque Config.hmac384 : List Byte → List Byte → List Byte

/-- The counter-mode KDF of NIST SP 800-108 with HMAC-SHA-384: key, label, context and output bytes (R332). -/
opaque Config.kdf108 : List Byte → List Byte → List Byte → Nat → List Byte

/-- The response of the secure island's PUF, the helper data in the fuses, and the error correction that gives the 384-bit PUF key (R330). -/
opaque Config.pufResponse : List Byte
opaque Config.helperData : List Byte
opaque Config.pufCorrect : List Byte → List Byte → List Byte

/-- The fuse secret (R330). -/
opaque Config.fuseSecret : List Byte

/-- The test root, one 384-bit constant (R331). -/
opaque Config.testRoot : List Byte

/-- A P-384 private key from 64 bytes of KDF output (FIPS 186-5), and its public key, uncompressed (R332). -/
opaque Config.ecPrivate : List Byte → List Byte
opaque Config.ecPublic : List Byte → List Byte

/-- ECDH over P-384: public key and private key (R324). -/
opaque Config.ecdh : List Byte → List Byte → List Byte

/-- ECDSA P-384 with SHA-384: private key and message (R343, R344). -/
opaque Config.ecdsaSign : List Byte → List Byte → List Byte

/-- The update authority's public key that provisioning installed (R321, R328). -/
opaque Config.firstAuthority : List Byte

/-- The certificate chain of R343 for the test root or the production root. -/
opaque Config.certificates : Bool → List Byte

/-- The public key of the Abkoux service authority (R321). -/
opaque Config.serviceAuthority : List Byte

/-- Whether burning an OTP epoch row verifies (R329), by the row's number. -/
opaque Config.rowBurns : Nat → Bool

/-- Whether burning an OTP life-cycle row verifies (R322), by the row's number. -/
opaque Config.lifeRowBurns : Nat → Bool

/-- AES-GCM of IEEE 802.1AE (R295): key, nonce, additional data and plaintext give ciphertext and tag. -/
opaque Config.gcmSeal : List Byte → List Byte → List Byte → List Byte → List Byte × List Byte

/-- AES-GCM decryption (R298): key, nonce, additional data and ciphertext give the plaintext. -/
opaque Config.gcmPlain : List Byte → List Byte → List Byte → List Byte → List Byte

/-- Whether a GCM tag verifies (R298): key, nonce, additional data, ciphertext and tag. -/
opaque Config.gcmValid : List Byte → List Byte → List Byte → List Byte → List Byte → Bool

/-- RS(544,514) of IEEE 802.3 (R387): the 5,140 bits of a message give the 5,440 of its codeword. -/
opaque Config.rsCode : List Bool → List Bool

/-- The time event message of ITU-T G.8271 annex A that names a second (R438). -/
opaque Config.todMessage : Nat → List Byte

/-- GHASH as GCM defines it (R365): H, additional data and ciphertext give 16 bytes. -/
opaque Config.ghash : List Byte → List Byte → List Byte → List Byte

/-- The two check symbols of Hide's symbol code over a line's 64 stored bytes and its tag (R365). -/
opaque Config.symbolCode : List Byte → List Byte → List Byte

/-- AES-CTR keystream (R99, R307, R364): key, counter block and length. -/
opaque Config.ctr : List Byte → List Byte → Nat → List Byte

/-- The counter block of an XGEM frame, from the direction, the superframe count and the frame's word position, as the
standard defines it (R99). -/
opaque Config.xgemCounter : Bool → Nat → Nat → List Byte

/-- The bytes of a 50G-PON downstream PON frame that its LDPC code protects, as G.9804.3 places it (Table 3.5). -/
opaque Config.ldpcBytes : Nat

/-- The FEC encoding of a downstream PON frame of a port of a kind, from its superframe count and its XGEM frames by word position, idle frames
elsewhere; the standard gives the code (R24, Table 3.5). -/
opaque Config.fecEncode : Nat → Nat → List (Nat × List Byte) → List Byte

/-- The bytes that the framing sublayer's header and a bandwidth map of so many allocation structures take (G.9807.1 and
G.9804.3, R96). -/
opaque Config.mapBytes : Nat → Nat

/-- The options field of a downstream XGEM header, as the standard defines it (R98). -/
opaque Config.xgemOptions : Nat

/-- The HEC of an XGEM header, from its other 51 bits, as the standard defines it (R98). -/
opaque Config.xgemHec : Nat → Nat

/-- The content octets 5 to 40 of a standard PLOAM message, as G.9807.1 lays them out: message type and parameters (R87, R121). -/
opaque Config.ploamBody : Nat → List Nat → List Byte

/-- The sequence number of a PLOAMd, as the standard counts it: ONU-ID, PON frame and message type (R121, R133). -/
opaque Config.ploamSeq : Nat → Nat → Nat → Nat

/-- The MIC of a PLOAM message: the keys, none for a broadcast, and octets 1 to 40 (R120, R336). -/
opaque Config.ploamMic : List Byte → List Byte → List Byte

/-- The PON frames modulo 8 in which Weaver grants a terminal with a loss defect its keep-alive burst: terminal, and the PON frame in which the
defect arose (R116). -/
opaque Config.keepAlivePhase : Nat → Nat → Nat

/-- The start time of an allocation structure, as the standard of a port's upstream kind expresses it: kind, the burst's header position in
words, and the words of the burst's earlier structures (R193). -/
opaque Config.startTime : Nat → Nat → Nat → Nat

/-- The broadcast identifier that serial-number grants carry in a port's upstream kind (R163). -/
opaque Config.broadcastAlloc : Nat → Nat

/-- What a slot of world S shows (R315): bits [5:0] LIFE, [6] MGMT, [7] ENGINE, [11:8] USAGE, [12] NEVER_EXPORT, [13] PERSIST, [15:14] KTYPE,
[31:16] the generation. -/
opaque Config.moduleSlot : Nat → Word

/-- The body of a slot of world S. -/
opaque Config.moduleBody : Nat → List Byte

/-- SHA-256 (FIPS 180-4), R145. -/
opaque Config.sha256 : List Byte → List Byte

/-- Where an optic keeps its alarm and warning flags: device address, register and number of bytes (R129). -/
opaque Config.opticsFlags : Nat × Nat × Nat

/-- A terminal's key-encryption and integrity keys, from the MSK that a message set, the serial number and the PON-ID, as
G.9807.1 derives them (R336). -/
opaque Config.ponKeys : Option (List Byte) → BitVec 32 → BitVec 32 → BitVec 32 → List Byte

/-- The MIC of an OMCI message under a terminal's keys (R125). -/
opaque Config.omciMic : List Byte → List Byte → List Byte

/-- The key that a terminal returned, decrypted under its keys (R309). -/
opaque Config.ponUnwrap : List Byte → List Byte → List Byte

/-- Whether a power that is no whole number of 0.01 dBm is reported as the next one above: numerator and denominator of the
power in mW (R110). -/
opaque Config.roundUp : Nat → Nat → Bool

end Sys2Proof
end

