-- ==== Sys2Proof/Machine/Bits.lean ====
section
/-! DEFINITION. Bit fields, byte order and the checks computed over bytes (R4, R5, R6). -/

namespace Sys2Proof.Machine

/-- The field `name[hi:lo]` of a word, as a number. -/
def fld (w : Word) (hi lo : Nat) : Nat := w.toNat / 2 ^ lo % 2 ^ (hi + 1 - lo)

/-- One bit of a word. -/
def bit (w : Word) (i : Nat) : Bool := w.getLsbD i

/-- A number as a word. -/
def wd (n : Nat) : Word := BitVec.ofNat 32 n

/-- A Bool as a number. -/
def b2n (b : Bool) : Nat := if b then 1 else 0

/-- A word made of fields, each given as its value, its width and its lowest bit. -/
def pack (fs : List (Nat × Nat × Nat)) : Word :=
  wd (fs.foldl (fun a f => a + f.1 % 2 ^ f.2.1 * 2 ^ f.2.2) 0)

/-- Bits [31:0] of a number. -/
def lo32 (n : Nat) : Word := wd n

/-- Bits [63:32] of a number. -/
def hi32 (n : Nat) : Word := wd (n / 2 ^ 32)

/-- The number whose low word comes first. -/
def join64 (lo hi : Word) : Nat := lo.toNat + hi.toNat * 2 ^ 32

/-- A two's-complement field of `n` bits read as an integer. -/
def signed (n v : Nat) : Int := if v < 2 ^ (n - 1) then (v : Int) else (v : Int) - (2 ^ n : Nat)

/-- An integer as a two's-complement field of `n` bits. -/
def unsigned (n : Nat) (v : Int) : Nat := (v % ((2 ^ n : Nat) : Int)).toNat

/-- An integer held within a range. -/
def satInt (lo hi v : Int) : Int := if v < lo then lo else if hi < v then hi else v

/-- A counter that stops at its highest value. -/
def satAdd (top a b : Nat) : Nat := min top (a + b)

/-- A number rounded up to a multiple. -/
def roundUp (m n : Nat) : Nat := (n + m - 1) / m * m

/-- The quotient rounded up. -/
def ceilDiv (a b : Nat) : Nat := if b = 0 then 0 else (a + b - 1) / b

/-- The number that some little-endian bytes spell (R5). -/
def leNat (bs : List Byte) : Nat :=
  match bs with
  | [] => 0
  | b :: r => b.toNat + 256 * leNat r

/-- The number that some big-endian bytes spell (R6). -/
def beNat (bs : List Byte) : Nat := bs.foldl (fun a b => a * 256 + b.toNat) 0

/-- `n` little-endian bytes of a number. -/
def leBytes (n v : Nat) : List Byte :=
  match n with
  | 0 => []
  | n + 1 => BitVec.ofNat 8 v :: leBytes n (v / 256)

/-- `n` big-endian bytes of a number. -/
def beBytes (n v : Nat) : List Byte := (leBytes n v).reverse

/-- The bytes of little-endian words (R5). -/
def bytesOfWords (ws : List Word) : List Byte := ws.flatMap fun w => leBytes 4 w.toNat

/-- `n` little-endian words read from bytes, missing bytes reading as 0. -/
def wordsOfBytes (n : Nat) (bs : List Byte) : List Word :=
  match n with
  | 0 => []
  | n + 1 => wd (leNat (bs.take 4)) :: wordsOfBytes n (bs.drop 4)

/-- Some bytes of a byte string, from an offset. -/
def slice (bs : List Byte) (off n : Nat) : List Byte := (bs.drop off).take n

/-- A little-endian word of a byte string, by its byte offset. -/
def wordAt (bs : List Byte) (off : Nat) : Word := wd (leNat (slice bs off 4))

/-- The largest number in a range that passes a test that holds up to some point: bisection. -/
def largest (ok : Nat → Bool) (fuel lo hi : Nat) : Nat :=
  match fuel with
  | 0 => lo
  | k + 1 =>
    if hi ≤ lo then lo
    else
      let mid := (lo + hi + 1) / 2
      if ok mid then largest ok k mid hi else largest ok k lo (mid - 1)

/-- A word of a list, 0 beyond its end. -/
def nthW (ws : List Word) (i : Nat) : Word := ws.getD i 0

/-- One byte of a reflected CRC: eight shift steps. -/
def crcByte (poly : Word) (c : Word) (b : Byte) : Word :=
  (List.range 8).foldl (fun c _ => if c.getLsbD 0 then (c >>> 1) ^^^ poly else c >>> 1)
    (c ^^^ b.setWidth 32)

/-- A reflected 32-bit CRC with initial and final value of all ones. -/
def crc32With (poly : Word) (bs : List Byte) : Word :=
  ~~~ (bs.foldl (crcByte poly) 0xFFFFFFFF#32)

/-- CRC-32 of IEEE 802.3, the FCS of frames and the CHECK of records (R485). -/
def crc32 (bs : List Byte) : Word := crc32With 0xEDB88320#32 bs

/-- CRC-32C. -/
def crc32c (bs : List Byte) : Word := crc32With 0x82F63B78#32 bs

/-- The CRC-64 with the polynomial of ECMA-182, most significant bit first, from 0 (R457). -/
def crc64 (bs : List Byte) : BitVec 64 :=
  bs.foldl (fun (c : BitVec 64) (b : Byte) => (List.range 8).foldl
    (fun (c : BitVec 64) _ => if c.getLsbD 63 then (c <<< 1) ^^^ 0x42F0E1EBA9EA3693#64 else c <<< 1) (c ^^^ (b.setWidth 64 <<< 56))) 0#64

/-- XOR of byte strings. -/
def xorBytes (a b : List Byte) : List Byte := (a.zip b).map fun e => e.1 ^^^ e.2

/-- The index of the first word with a bit set that its mask reserves. -/
def reservedAt (masks : List Word) (ws : List Word) : Option Nat :=
  (List.range masks.length).find? fun i => !decide (nthW ws i &&& nthW masks i = 0)

end Sys2Proof.Machine
end

