-- ==== Sys2Proof/Machine/Maps.lean ====
section
/-! DEFINITION. Operations over sparse tables and lists: look up, write, remove, alter in place. -/

namespace Sys2Proof.Machine

variable {κ α β : Type} [DecidableEq κ]

/-- The entry at a key, if there is one. -/
def mget (m : Map κ α) (k : κ) : Option α :=
  match m with
  | [] => none
  | (k', a) :: r => if k' = k then some a else mget r k

/-- The entry at a key, or the default. -/
def mgetD (m : Map κ α) (k : κ) (d : α) : α := (mget m k).getD d

/-- Whether a key has an entry. -/
def mhas (m : Map κ α) (k : κ) : Bool := (mget m k).isSome

/-- Write the entry at a key. -/
def mset (m : Map κ α) (k : κ) (a : α) : Map κ α :=
  match m with
  | [] => [(k, a)]
  | (k', b) :: r => if k' = k then (k, a) :: r else (k', b) :: mset r k a

/-- Remove the entry at a key. -/
def mdel (m : Map κ α) (k : κ) : Map κ α := m.filter fun e => !decide (e.1 = k)

/-- Alter the entry at a key, starting from the default where there is none. -/
def mupd (m : Map κ α) (k : κ) (d : α) (f : α → α) : Map κ α := mset m k (f (mgetD m k d))

/-- Alter every entry. -/
def mmap (m : Map κ α) (f : κ → α → α) : Map κ α := m.map fun e => (e.1, f e.1 e.2)

/-- Keep the entries that pass a test. -/
def mkeep (m : Map κ α) (p : κ → α → Bool) : Map κ α := m.filter fun e => p e.1 e.2

/-- The first entry that passes a test. -/
def mfind (m : Map κ α) (p : κ → α → Bool) : Option (κ × α) := m.find? fun e => p e.1 e.2

/-- Remove the first element equal to the one given. -/
def dropFirst (l : List κ) (a : κ) : List κ :=
  match l with
  | [] => []
  | x :: r => if x = a then r else x :: dropFirst r a

/-- Put an element before the first that it may stand before. -/
def insertBy (le : α → α → Bool) (a : α) (l : List α) : List α :=
  match l with
  | [] => [a]
  | b :: r => if le a b then a :: b :: r else b :: insertBy le a r

/-- A list in the order of `le`; equal elements keep their order. -/
def sortBy (le : α → α → Bool) (l : List α) : List α := l.foldr (insertBy le) []

/-- The smallest of the numbers below `n` that passes the test. -/
def firstBelow (n : Nat) (p : Nat → Bool) : Option Nat := (List.range n).find? p

/-- Fold a state change over the numbers below `n`, in rising order. -/
def forBelow (n : Nat) (f : Nat → β → β) (b : β) : β := (List.range n).foldl (fun b i => f i b) b

/-- Fold a state change over a list, in order. -/
def forEach (l : List α) (f : α → β → β) (b : β) : β := l.foldl (fun b a => f a b) b

end Sys2Proof.Machine
end

