-- ==== Sys2Proof/Machine/Keys.lean ====
section
/-! DEFINITION. The keys that the secure island derives from the root in force (R324, R330 to R332). -/

namespace Sys2Proof.Machine

/-- The bytes of a label. -/
def ascii (t : String) : List Byte := t.toList.map fun c => BitVec.ofNat 8 c.toNat

/-- The device identity as bytes (R43). -/
def deviceBytes : List Byte := beBytes 16 Config.deviceId.toNat

/-- The production root (R330). -/
def productionRoot : List Byte := Config.hmac384 (Config.pufCorrect Config.pufResponse Config.helperData) Config.fuseSecret

/-- The root for the test root in use or not (R331). -/
def rootKey (test : Bool) : List Byte := if test then Config.testRoot else productionRoot

/-- A level-1 key of Table 10.6. -/
def level1 (test : Bool) (label : String) (n : Nat) : List Byte := Config.kdf108 (rootKey test) (ascii label) deviceBytes n

/-- ATTEST and TRANSPORT, as private keys, STORE and MEAS_SEED (Table 10.6). The table gives MEAS_SEED no length: 48 bytes, that of the KDF's hash
(DESIGN CHOICE: log entry 187). -/
def attestKey (test : Bool) : List Byte := Config.ecPrivate (level1 test "TZ-ATTEST" 64)
def transportKey (test : Bool) : List Byte := Config.ecPrivate (level1 test "TZ-SHEDAR" 64)
def storeKey (test : Bool) : List Byte := level1 test "TZ-STORE" 32
def measSeed (test : Bool) : List Byte := level1 test "TZ-MEAS" 48

/-- A level-2 key of Table 10.6, under MEAS_0 and MEAS_1. -/
def level2 (test : Bool) (label meas : List Byte) (n : Nat) : List Byte := Config.kdf108 (measSeed test) label meas n

/-- TENANT_n, as a private key; n is one byte (DEDUCED: log entry 187). -/
def tenantKey (test : Bool) (n : Nat) (meas : List Byte) : List Byte :=
  Config.ecPrivate (level2 test (ascii "TZ-TENANT" ++ beBytes 1 n) meas 64)

/-- HKDF-SHA-384 with 32 bytes of output (RFC 5869): one block serves. -/
def hkdf384 (salt ikm info : List Byte) : List Byte :=
  (Config.hmac384 (Config.hmac384 salt ikm) (info ++ [1])).take 32

/-- The transport key of a Shedar message (R324). -/
def shedarKey (test : Bool) (m : List Byte) : List Byte :=
  hkdf384 deviceBytes (Config.ecdh (slice m 0x030 97) (transportKey test))
    (ascii "SHEDAR" ++ slice m 0x018 6 ++ slice m 0x01E 1 ++ slice m 0x006 2 ++ slice m 0x020 4)

/-- The payload of a Shedar message under AES-256-GCM, with bytes 0x000 to 0x0AF as additional data; none where the tag fails (R324). -/
def shedarOpen (test : Bool) (m : List Byte) : Option (List Byte) :=
  let n := beNat (slice m 0x02C 4)
  let key := shedarKey test m
  let body := slice m 0x0B0 n
  if Config.gcmValid key (slice m 0x0A0 12) (m.take 0x0B0) body (slice m (0x0B0 + n) 16) then
    some (Config.gcmPlain key (slice m 0x0A0 12) (m.take 0x0B0) body)
  else none

end Sys2Proof.Machine
end

