-- ==== Sys2Proof/Machine/StHalter.lean ====
section
/-! DEFINITION. State of the power domains and of Halter (chapter 15). -/

namespace Sys2Proof.Machine

/-- Where the module is in Halter: outside, in an entry stage of Table 15.4, or in Halter. -/
inductive HalterStage where
  | outside | s1 | s2 | s3 | s4 | s5 | halter
deriving DecidableEq, Repr

/-- An outcome that the keeper's cache holds for a key (R446). -/
structure Outcome15 where
  key : List Nat
  world : Nat
  cls : Nat
  colour : Nat
  queue : Nat
  dest : Word
deriving DecidableEq, Repr

/-- A frame in the keeper buffer: its number, bytes, world and, where the cache holds its outcome, that outcome and its
FIFO; without one it waits for the end of entry or of Halter. -/
structure KeeperFrame where
  frame : Nat
  len : Nat
  world : Nat
  hit : Option Outcome15 := none
  fifo : Nat := 0
deriving DecidableEq, Repr

/-- Domains and Halter. `gated` are the domains without power; `stage` and `since` the stage and its start;
`wake` the wake event noted, by cause (Table 15.5); `enteredTc` and `enteredAt` the instants of entry on the time
counter and on `mono`; `cache` the keeper's outcomes; `lost` the banks marked lost; `grantMode` Weaver's Halter grant
mode; `sigs` the keeper's signatures by macro (R457); `sendAt` the instant from which the keeper may send again, by direction (R448);
`before` the domains without power when entry began; `leaving` the slices that DOMAIN_CONTROL is to gate once they
hold no frame; `refresh` says that HBM is in self-refresh and `wl1Stopped` that the clock of Weaver lane 1 is stopped (Table 15.1). -/
structure HalterSt where
  gated : List Nat := []
  stage : HalterStage := .outside
  since : Nat := 0
  wake : Option Nat := none
  enteredTc : Nat := 0
  enteredAt : Nat := 0
  cache : List Outcome15 := []
  buffer : List KeeperFrame := []
  lost : List Nat := []
  sigs : Map Nat (BitVec 64) := []
  sendAt : Map Nat Nat := []
  grantMode : Bool := false
  before : List Nat := []
  leaving : List Nat := []
  refresh : Bool := false
  wl1Stopped : Bool := false
deriving DecidableEq, Repr

end Sys2Proof.Machine
end

