-- ==== Sys2Proof/Machine/StHost.lean ====
section
/-! DEFINITION. State of the host window, the command processor, the epoch commit, boot and runtime settings (chapter 2). -/

namespace Sys2Proof.Machine

/-- A reply entry before it gets its place and PHASE in a reply queue (R47). -/
structure Reply where
  tag : BitVec 16
  status : Nat
  epoch : BitVec 16
  count : Nat
  words : List Word
  seq : BitVec 64
  note : Bool := false
  dmaOk : Bool := true
deriving DecidableEq, Repr

/-- A command that has been fetched and has not completed (R48, R51). `data` are the numbers its completion
needs; `discard` is set by a function-level reset (R41). -/
structure Exec where
  op : Nat
  pkt : Packet
  data : List Nat := []
  discard : Bool := false
deriving DecidableEq, Repr

/-- One queue pair: the registers of Table 2.2, the binding's vector (R77), the reply phase (R47), the SEQ
expectation (R49), what the host has written at and beyond CQ_HEAD, the command in progress and the replies that
wait for room (R548). The registers are `bound`, `world` and so on; `served` says that a binding is in force (R41). -/
structure Pair where
  cqBaseLo : Word := 0
  cqBaseHi : Word := 0
  rqBaseLo : Word := 0
  rqBaseHi : Word := 0
  cqTail : BitVec 12 := 0
  cqHead : BitVec 12 := 0
  rqHead : BitVec 12 := 0
  rqTail : BitVec 12 := 0
  enable : Bool := false
  error : Nat := 0
  bound : Nat := 0
  world : Nat := 0
  served : Bool := false
  vector : Nat := 0
  phase : Bool := true
  seqExp : Option (BitVec 64) := none
  written : List Written := []
  executing : Option Exec := none
  held : List Reply := []
deriving DecidableEq, Repr

/-- A frame record that a host receive queue has to signal, and one host queue with its registers
(Table 2.18) and its HOSTQ_CONFIG setting (Table 2.15). `lastVec` is the instant of the last vector (R83), and `waiting`
are the frames delivered to it that are still to be written, with their extension words. -/
structure HostQ where
  head : Nat := 0
  tail : Nat := 0
  drops : Nat := 0
  error : Nat := 0
  bound : Nat := 0xFF
  world : Nat := 0
  enable : Bool := false
  vector : Nat := 0
  slotSize : Nat := 3
  slots : Nat := 0
  ringLo : Word := 0
  ringHi : Word := 0
  modUs : Nat := 0
  phase : Bool := true
  lastVec : Option Nat := none
  unsignalled : Bool := false
  waiting : List (Frame × List Word) := []
deriving DecidableEq, Repr

/-- The module states of the status block, word 0 (R43). -/
inductive ModState where
  | booting | ready | safe | halter | recovery
deriving DecidableEq, Repr

/-- The epoch states of the status block, word 2 (R43). -/
inductive EpochPhase where
  | none | staged | prepared | armed | draining
deriving DecidableEq, Repr

/-- One staged command as accepted (R545): its opcode and packet, the objects it writes and its charge in bytes. -/
structure StagedCmd where
  op : Nat
  pkt : Packet
  objs : List (Nat × Nat)
  charge : Nat
deriving DecidableEq, Repr

/-- The epoch commit (R70 to R76) and the in-flight counts of R33. `point` is the activation point: KIND, then
the superframe count or the instant on the time counter. `mark` is the instant of the activation tick. -/
structure EpochSt where
  current : BitVec 16 := 0
  phase : EpochPhase := .none
  staged : BitVec 16 := 0
  cmds : List StagedCmd := []
  kind : Nat := 0
  point : Nat := 0
  previous : Option (BitVec 16) := none
  inFlight : Nat := 0
  inFlightPrev : Nat := 0
  mark : Nat := 0
deriving DecidableEq, Repr

/-- One of the four boot copies of R61, as R63 judges it. -/
structure Copy where
  valid : Bool := false
  sequence : Nat := 0
  len : Nat := 0
  failed : Bool := false
  selected : Bool := false
  body : List Byte := []
deriving DecidableEq, Repr

/-- One copy of a runtime settings record (R68), with the measurements under whose key it was written (R334). -/
structure SetCopy where
  valid : Bool := false
  sequence : Nat := 0
  content : List Word := []
  meas : List Byte := []
deriving DecidableEq, Repr

/-- One runtime settings record: its two copies. -/
structure SetRec where
  a : SetCopy := {}
  b : SetCopy := {}
deriving DecidableEq, Repr

/-- The host window: queue pairs (key 64 stands for the in-band queue of R60), interrupt block, notifications,
in-band settings, host queues, the injection queue that the round robin comes to next, and the queues whose first packet is
held back while an EPOCH_PREPARE executes, in the order in which those packets arrived (R48). -/
structure HostSt where
  pairs : Map Nat Pair := [(0, { served := true, world := 0x0100 })]
  pending : BitVec 64 := 0
  mask : BitVec 64 := BitVec.allOnes 64
  notifyMask : Word := 0
  inEnable : Bool := false
  inSideA : Bool := false
  inSideB : Bool := false
  inSlot : Nat := 0
  inGroups : Nat := 0
  inHigh : Nat := 0
  inMark : Nat := 0
  hrq : Map Nat HostQ := []
  hiq : Map Nat HostQ := []
  injNext : Nat := 0
  heldOrder : List Nat := []
deriving DecidableEq, Repr

/-- The stages of the boot timeline of Table 2.10. -/
inductive BootPhase where
  | off | softStart | rom | firmware | up
deriving DecidableEq, Repr

/-- Boot, the module state and the runtime settings (R61 to R69, R81). `copies` are firmware A, firmware B,
configuration A and configuration B. `settings` are the records of R68 in its order, `debugSettings` those
of the debug settings area (R335). `zero` is the instant from which Table 2.10 counts, `ahead` what its offsets are reduced by
(R66, R517), and `started` the instant at which the firmware was started or restarted (R64, R81). -/
structure BootSt where
  state : ModState := .booting
  phase : BootPhase := .off
  cause : Nat := 1
  restarting : Bool := false
  copies : Map Nat Copy := []
  settings : Map Nat SetRec := []
  debugSettings : Map Nat SetRec := []
  zero : Nat := 0
  ahead : Nat := 0
  started : Nat := 0
deriving DecidableEq, Repr

end Sys2Proof.Machine
end

