-- ==== Sys2Proof/Machine/StLink.lean ====
section
/-! DEFINITION. State of the serial lanes, the Plait framers, the protection selector and the uplink MAC groups
(chapters 12 and 13). -/

namespace Sys2Proof.Machine

/-- The lane states of Table 12.3. -/
inductive LaneState where
  | disabled | training | active | idle | exit
deriving DecidableEq, Repr

/-- A lane's LANE_CONFIG setting (Table 12.2). -/
structure LaneCfg where
  peakAuto : Bool := true
  peak : Nat := 16
  peakMin : Nat := 0
  peakMax : Nat := 31
  dfe : Nat := 0
  idle : Nat := 0
  precode : Bool := false
  txTrain : Bool := false
  txPost : Nat := 10
  txPre : Nat := 5
  txSwing : Nat := 80
deriving DecidableEq, Repr

/-- The coder of a lane's transmitter: its scrambler, the bits that wait for a codeword, and the symbol sent last (R387). -/
structure LaneCoder where
  scr : BitVec 58 := 0
  bits : List Bool := []
  last : Nat := 0
deriving DecidableEq, Repr

/-- A lane: setting, state and since when, defects, raw detectors, what LANE_STATUS shows (Table 12.6), the stale
mark, consecutive failed trainings, the LOS raisings of the last second, whether an eye scan runs, and since when the DFE taps ramp to
0 (R391). `taps` are its 12 DFE taps, `lastMove` the last step of a change of setting and `evalAt` the last re-evaluation (R391, R392), `exitAt`
the last exit request (R395), and `scanned` the good bursts that a PON lane's scan has met (R402). -/
structure Lane where
  cfg : LaneCfg := {}
  st : LaneState := .disabled
  since : Nat := 0
  los : Bool := false
  lol : Bool := false
  trainFail : Bool := false
  flap : Bool := false
  txFault : Bool := false
  rawLos : Bool := false
  rawLol : Bool := false
  signal : Bool := false
  precodeOn : Bool := false
  peakNow : Nat := 16
  planMin : Nat := 0
  planMax : Nat := 31
  freq : Int := 0
  taps : List Int := List.replicate 12 0
  txPostNow : Nat := 10
  txPreNow : Nat := 5
  txSwingNow : Nat := 80
  symErrors : Nat := 0
  uncorrectable : Nat := 0
  losEvents : Nat := 0
  lolEvents : Nat := 0
  fastExits : Nat := 0
  fastExitFail : Nat := 0
  stale : Bool := false
  fails : Nat := 0
  losTimes : List Nat := []
  flapAt : Option Nat := none
  lastMove : Nat := 0
  scanning : Bool := false
  rampAt : Option Nat := none
  evalAt : Nat := 0
  exitAt : Option Nat := none
  scanned : Nat := 0
  coder : LaneCoder := {}
deriving DecidableEq, Repr

/-- The aligner states of Table 13.4. -/
inductive AlignState where
  | hunt | presync | sync
deriving DecidableEq, Repr

/-- A frame in reassembly from cells (R408): its bytes, the next CELL_SEQ and the instant of its last cell. -/
structure Reasm where
  bytes : List Byte
  next : Nat
  last : Nat
  inband : InbandSet := {}
deriving DecidableEq, Repr

/-- A frame that a framer sends in cells (R407): TYPE, destination card, PRI, bytes, cells sent, its context once it
is open, whether its end is to be poisoned, and whether its last cell waits for a verdict (R301). `frame` is the
frame's number. -/
structure TxFrame where
  kind : Nat
  card : Nat
  pri : Nat
  bytes : List Byte
  sent : Nat := 0
  ctx : Option Nat := none
  poison : Bool := false
  held : Bool := false
  frame : Nat := 0
deriving DecidableEq, Repr

/-- One fabric side: PLAIT_CONFIG (Table 13.6), aligner, pointer, trace, error windows, defects, received and sent
overhead, contexts, backpressure and the frames to send; `told` is the width that NEXT_WIDTH announces and `announced` for how many frames. A context's key is SRC_CARD * 256 + CTX * 4 + kind. -/
structure Side where
  mode : Nat := 0
  width : Nat := 0
  timAct : Bool := true
  enable : Bool := true
  n : Nat := 3
  m : Nat := 4
  excTh : Nat := 48
  txTrace : List Word := []
  expTrace : List Word := []
  align : AlignState := .hunt
  k : Nat := 0
  errored : Nat := 0
  pointer : Nat := 0
  ptrSeen : Nat := 0
  ptrRun : Nat := 0
  ptrOff : Nat := 0
  sinceStuff : Nat := 4
  carry : List Byte := []
  trace : Map Nat Nat := []
  lastTrace : List Nat := []
  traceRun : Nat := 0
  accepted : List Nat := []
  bipSeen : Option Nat := none
  marked : Nat := 0
  windowAt : Nat := 0
  goodWindows : Nat := 0
  rdiRun : Nat := 0
  loa : Bool := true
  lop : Bool := false
  tim : Bool := false
  exc : Bool := false
  rdi : Bool := false
  pauseStuck : Bool := false
  rxWidth : Nat := 0
  rxNext : Nat := 0
  ctxs : Map Nat Reasm := []
  back : Nat := 0
  backSince : Map Nat Nat := []
  stuck : List Nat := []
  askBack : Bool := false
  txMfi : Nat := 0
  txWidth : Nat := 0
  announced : Nat := 0
  told : Nat := 0
  txBip : Nat := 0
  rr : Nat := 0
  queue : List TxFrame := []
  fill : Nat := 0
deriving DecidableEq, Repr

/-- The selector states of Table 13.8. -/
inductive SelState where
  | nr | fs | ms | sf | wtr
deriving DecidableEq, Repr

/-- The protection selector: state, selected side (0 A, 1 B), settings of PROTECTION_COMMAND, since when each side
is in signal fail, the wait-to-restore timer's start, and the move in transition (R419). `acted` are the sides whose
SF has persisted for HOLD_OFF. -/
structure Selector where
  st : SelState := .nr
  side : Nat := 0
  pref : Nat := 0
  revertive : Bool := false
  holdOff : Nat := 0
  wtrS : Nat := 300
  sfSince : Map Nat Nat := []
  acted : List Nat := []
  wtrAt : Nat := 0
  both : Bool := false
  transition : Option Nat := none
deriving DecidableEq, Repr

/-- An uplink MAC group (Table 13.9). -/
structure UplinkGroup where
  portEn : Nat := 0
  fec : Nat := 0
  arrange : Nat := 0
deriving DecidableEq, Repr

/-- An uplink port: its faults, since when it has had none, and whether it is up (R421). -/
structure UplinkPort where
  localFault : Bool := true
  remoteFault : Bool := false
  clearSince : Nat := 0
  up : Bool := false
deriving DecidableEq, Repr

/-- The link complex. -/
structure LinkSt where
  lanes : Map Nat Lane := []
  a : Side := {}
  b : Side := {}
  card : Nat := 0
  pauseMs : Nat := 10
  sel : Selector := {}
  uplinks : Map Nat UplinkGroup := []
  ports : Map Nat UplinkPort := []
deriving DecidableEq, Repr

end Sys2Proof.Machine
end

