-- ==== Sys2Proof/Machine/StMemory.lean ====
section
/-! DEFINITION. State of HBM, Osier and Hide (chapter 11). -/

namespace Sys2Proof.Machine

/-- A buffer pool (Table 11.3) with its free ring (R357): HEAD and TAIL as entry counts, and the free handles in ring
order and in the cache as runs of a first handle and a length. `spent` are the handles last read from the ring, whose entries still
stand in HBM until the ring comes round again (R370). `withdrawn` are the cells of R362, and `gone` the ring counts whose handles a failing
line has lost (R359). -/
structure Pool where
  enable : Bool := false
  world : Nat := 0x0100
  first : Nat := 0
  regions : Nat := 0
  head : Nat := 0
  tail : Nat := 0
  ring : List (Nat × Nat) := []
  spent : List (Nat × Nat) := []
  cache : List (Nat × Nat) := []
  withdrawn : List Nat := []
  allocated : Nat := 0
  lost : Nat := 0
  gone : List Nat := []
deriving DecidableEq, Repr

/-- A rights table entry (Table 11.13). -/
structure Right where
  base : Nat := 0
  pages : Nat := 0
  mode : Nat := 0
deriving DecidableEq, Repr

/-- A poisoned subtree: level 0 L1 to 3 L4, and node index (R375). -/
structure Poison where
  level : Nat
  index : Nat
deriving DecidableEq, Repr

/-- The areas of Table 11.1: the protected region, a counter level, the ring region, or none. -/
inductive Area where
  | guarded | counters (level : Nat) | rings | none
deriving DecidableEq, Repr

/-- A counter-store or page counter (Table 11.8): MAJOR and the minor counters that are not 0. -/
structure Counters where
  major : Nat := 0
  minors : Map Nat Nat := []
deriving DecidableEq, Repr

/-- A subtree that REGION_REINIT wrote afresh: its top node, level 1 to 4 and index, and the first MAJOR of its pages and
nodes (R371, R377). -/
structure Renewal where
  level : Nat
  index : Nat
  base : Nat
deriving DecidableEq, Repr

/-- The memory complex. `cells` is the plaintext of HBM as address and byte pairs in canonical form, an unlisted
address reading 0 (R372); `tree` are the counter blocks by level * 2^23 + node, level 1 to 4, and `renewed` gives those of re-initialised subtrees that it does not list; `roots` the root
registers; `cached` and `dirty` the counter cache, and `stored` what HBM holds of the dirty nodes (R369); `owners` the owner records by first cell (R360); `ondie` the cells
of the on-die pool in use by world, and `hbm` those of HBM; `bad` the cells with a failed line; `lost` says that an alarm has erased the Hide
key and HBM is still to be initialised (R378). -/
structure MemSt where
  cells : List Host.Cell := []
  pools : Map Nat Pool := []
  owners : Map Nat Nat := []
  ondie : Map Nat Nat := []
  hbm : Map Nat Nat := []
  keyId : Nat := 0
  retiring : Option Nat := none
  sweep : Nat := 0
  majorHwm : Nat := 0
  roots : Map Nat Nat := []
  tree : Map Nat Counters := []
  renewed : List Renewal := []
  cached : List Nat := []
  dirty : List Nat := []
  stored : Map Nat Counters := []
  poison : List Poison := []
  regionPoison : List Nat := []
  treePoison : Nat := 0
  poisonAccess : Nat := 0
  bad : List Nat := []
  rights : Map Nat Right := []
  initialised : Bool := false
  lost : Bool := false
deriving DecidableEq, Repr

end Sys2Proof.Machine
end

