-- ==== Sys2Proof/Machine/StWeaver.lean ====
section
/-! DEFINITION. State of Weaver (chapter 5). -/

namespace Sys2Proof.Machine

/-- A rate or scaled size: mantissa and shift (R164). -/
structure Rate where
  m : Nat := 0
  s : Nat := 0
deriving DecidableEq, Repr

/-- An allocation context (Table 5.2), with the arrivals accumulated since the last sweep, the upstream frame of the
last burst that carried a report counted in them, and the PON frame of the last loss of privilege (R183). Hints are
by the number of maps ahead. -/
structure Alloc where
  terminal : Nat := 0
  world : Nat := 0x0100
  cls : Nat := 0
  prio : Nat := 0
  fixed : Rate := {}
  assured : Rate := {}
  nonassured : Rate := {}
  besteffort : Rate := {}
  maximum : Rate := {}
  fcast : Rate := {}
  weight : Nat := 1
  gated : Bool := false
  hintEn : Bool := false
  fcEn : Bool := false
  fcPriv : Bool := false
  gateClass : Nat := 0
  period : Nat := 0
  lastArr : Nat := 0
  conf : Nat := 0
  unusedRun : Nat := 0
  privLosses : Nat := 0
  ewma : Nat := 0
  peak : Nat := 0
  hints : Map Nat Nat := []
  repAge : Nat := 255
  lastReport : Nat := 0
  grantBits : Nat := 0
  inflight : Nat := 0
  arrivals : Nat := 0
  arrFrame : Nat := 0
  lostAt : Option Nat := none
deriving DecidableEq, Repr

/-- A candidate of a map (R173): its allocation, the context as the cutoff finds it, and the demand; `kind` is 0 for
no pre-booked part, 1 for a forecast and 2 for a hint. -/
structure Cand where
  id : Nat
  ctx : Alloc
  rep : Nat
  pre : Nat
  kind : Nat
deriving DecidableEq, Repr

/-- What the passes have given an allocation, by part (R178), with its terminal and whether it is gated and polled. -/
structure Grant5 where
  id : Nat
  term : Nat
  gated : Bool
  fixed : Nat := 0
  assured : Nat := 0
  na : Nat := 0
  be : Nat := 0
  polled : Bool := false
deriving DecidableEq, Repr

/-- The kinds of a window or span (R192). -/
inductive WinKind where
  | sn | classic | directed | full
deriving DecidableEq, Repr

/-- A window or span of a tree (R552): the map and word of its grant, and where it lies in sixteenths of a UI from the
boundary of PON frame 0. -/
structure Window where
  kind : WinKind
  term : Nat
  map : Nat
  word : Nat
  start : Int
  fin : Int
deriving DecidableEq, Repr

/-- One allocation's part of a burst: its grant, the pre-booked part of it, that part's kind, the report-demand part,
and whether a DBRu is requested. -/
structure Share where
  id : Nat
  grant : Nat
  pre : Nat := 0
  kind : Nat := 0
  dbru : Bool := false
deriving DecidableEq, Repr

/-- A burst of a map: terminal (none for a serial-number grant), start and length in words, the allocations' parts,
whether a PLOAMu is requested, its window, its gate class, whether it is a keep-alive, whether its terminal was in OPERATING when the
map was built, and once it has passed its verdict (1 good, 2 missing, 3 failed with energy, 4 failed without) and whether it had energy. -/
structure Burst5 where
  term : Option Nat
  start : Nat
  len : Nat
  shares : List Share := []
  ploamu : Bool := false
  window : Option WinKind := none
  gate : Option Nat := none
  keep : Bool := false
  oper : Bool := false
  verdict : Nat := 0
  energy : Bool := false
deriving DecidableEq, Repr

/-- A bandwidth map. -/
structure BwMap where
  num : Nat
  bursts : List Burst5
deriving DecidableEq, Repr

/-- An allocation structure of a map as the port sends it: identifier, start time, words of grant, and whether a DBRu and a PLOAMu are
requested (R193). -/
structure AllocStruct where
  id : Nat
  start : Nat
  size : Nat
  dbru : Bool
  ploamu : Bool
deriving DecidableEq, Repr

/-- What the cutoff of a map closes for a port: the map, the candidates, the terminals that a PLOAMu is asked of, those of
them on keep-alive, and the tree's gate lists (R174, R176). -/
structure Closed where
  map : Nat
  cands : List Cand := []
  ask : List Nat := []
  keep : List Nat := []
  gates : GateSt := {}
deriving DecidableEq, Repr

/-- The resolve stage's work on one port's map: what was closed, the words that may be used (R178), the terminals given a
PLOAMu, the grants, the words and structures used, the data words that a limit leaves (R189), the losses to count, what the
passes that a capped tree runs again start from, and the limit that Cinch set. -/
structure Work where
  inp : Closed
  cap : Nat := 0
  blocked : Bool := false
  ploamu : List Nat := []
  grants : List Grant5 := []
  used : Nat := 0
  structs : Nat := 0
  left : Option Nat := none
  losses : List (Nat × Nat × Nat) := []
  base : List Grant5 := []
  baseUsed : Nat := 0
  baseStructs : Nat := 0
  capped : Option Nat := none
deriving DecidableEq, Repr

/-- A report on its way to a lane (R106): tree, allocation, value, data words received and upstream frame. -/
structure Report where
  tree : Nat
  id : Nat
  value : Nat
  rx : Nat
  frame : Nat
deriving DecidableEq, Repr

/-- A lane: the map whose cutoff came last, its report channel with the marker and overflow count (R15), the
aggregates of its trees for this map and for the previous one, and the caps with whether they have come. -/
structure Lane5 where
  cutoff : Nat := 0
  reports : List Report := []
  marker : Bool := false
  lost : Nat := 0
  aggs : Map Nat (Nat × Nat) := []
  given : Bool := false
  prevAggs : Map Nat (Nat × Nat) := []
  caps : Map Nat Nat := []
  capsIn : Bool := false
  prevCaps : Map Nat Nat := []
deriving DecidableEq, Repr

/-- One port's maps: what the last cutoff closed, the work of the map, the map built, the map last handed off with its
number and the run of misses (R196, R197), the maps whose bursts have not all passed, and the words that the last 16 maps granted
(R114). -/
structure PortMaps where
  closed : Option Closed := none
  work : Option Work := none
  built : Option BwMap := none
  last : Option BwMap := none
  missed : Nat := 0
  out : List BwMap := []
  handed : Nat := 0
  spans : List (Nat × List (Nat × Nat)) := []
deriving DecidableEq, Repr

/-- Weaver. Allocations are by TREE * 16384 + ALLOC_ID; `weights` are the weights that CINCH_BUDGET wrote;
the last two fields are the budget and weights in force at the last cutoff (R176). -/
structure WeaverSt where
  allocs : Map Nat Alloc := []
  lanes : Map Nat Lane5 := []
  ports : Map Nat PortMaps := []
  budget : Nat := 0
  weights : Map Nat Nat := []
  budgetIn : Nat := 0
  weightsIn : Map Nat Nat := []
deriving DecidableEq, Repr

end Sys2Proof.Machine
end

