-- ==== Sys2Proof/Machine/StPon.lean ====
section
/-! DEFINITION. State of the PON ports, terminals, ranging and discovery (chapters 3 and 4). -/

namespace Sys2Proof.Machine

/-- A PLOAM message that goes down. Standard messages are given by their content; the vendor messages are those
of Table 3.10; `host` is a message of PLOAM_SEND with its type and content. -/
inductive Ploam where
  | assignOnuId (onu : Nat) (sn0 sn1 : Word)
  | rangingTime (eqd : Nat)
  | burstProfile (guard preamble : Nat)
  | keyControl (index : Nat)
  | powerLevel (raise : Bool)
  | deactivate
  | extOffer (bits : Nat) (running : Bool)
  | extConfirm (bits : Nat)
  | host (type : Nat) (content : List Byte)
deriving DecidableEq, Repr

/-- The states of Table 4.4. -/
inductive RState where
  | pending | assigned | operating | reranging | held
deriving DecidableEq, Repr

/-- PORT_CONFIG (Table 3.4), word 0's fields but for PORT, then words 1 to 7. -/
structure PortCfg where
  mode : Nat := 0
  fcast : Bool := false
  aes256 : Bool := false
  upFec : Bool := true
  guard : Nat := 0
  preamble : Nat := 0
  deactMs : Nat := 1000
  losFrames : Nat := 3
  lobN : Nat := 4
  energyTh : Nat := 0x0100
  dropStep : Nat := 30
  gain : Nat := 0
  offset : Nat := 0
  levHigh : Nat := 0
  levLow : Nat := 0
  ponId : Word := 0
deriving DecidableEq, Repr

/-- DISCOVERY_CONFIG (Table 4.1). -/
structure Disc where
  diff : Nat := 20
  near : Nat := 0
  awl : Bool := false
  spacing : Nat := 1000
deriving DecidableEq, Repr

/-- A key request that waits for its answer (R309): index, PON frame of the last send, sends, and the fragments of a
256-bit key that have arrived (R122). -/
structure KeyReq where
  index : Nat
  sent : Nat
  tries : Nat
  frags : Map Nat (List Byte) := []
deriving DecidableEq, Repr

/-- A Ranging_Time that waits for its Acknowledge: the delay it carries, the PON frame of the last send, the sends;
for a ranging, the RTD measured; for a correction, C (R154, R157). -/
structure RtWait where
  eqd : Int
  sent : Nat
  sends : Nat
  rtd : Option Int
  corr : Int
deriving DecidableEq, Repr

/-- A fragmented upstream frame in reassembly (R108): its bytes, the PON frame of its first fragment, and the burst
frame of its last one. -/
structure UpFrag where
  bytes : List Byte
  started : Nat
  last : Nat
  port : Nat
deriving DecidableEq, Repr

/-- A terminal record: TERMINAL_ADD's parameters (Table 3.11), its port, its PLOAMd queues (R97), keys (R99, R100,
R309), extensions (R121), burst power (R111 to R113; `seen` says that a burst has been measured since TERMINAL_ADD), losses (R115, R116) and ranging (Table 4.5, R154 to R160). -/
structure Terminal where
  world : Nat
  sn0 : Word
  sn1 : Word
  slot1 : Nat
  slot2 : Nat
  upFec : Nat
  port : Nat
  own : List Ploam := []
  hostMsgs : List Ploam := []
  keyIndex : Nat := 1
  switch : Option (Nat × Nat) := none
  switched : Option (Nat × Nat) := none
  keyReq : Option KeyReq := none
  ext : Nat := 0
  confirm : Option Nat := none
  lastCode : Nat := 0
  mean : Nat := 0
  minCode : Option Nat := none
  maxCode : Option Nat := none
  ref : Option Nat := none
  measured : Nat := 0
  short : Bool := false
  seen : Bool := false
  levels : Nat := 0
  levelAt : Option Nat := none
  levelDefect : Bool := false
  dropAt : Option Nat := none
  dropDefect : Bool := false
  dropTold : Bool := false
  bad : Nat := 0
  good : Nat := 0
  los : Bool := false
  lol : Bool := false
  lossAt : Nat := 0
  lossFrame : Nat := 0
  asked : Bool := false
  reported : Bool := false
  dying : Bool := false
  st : RState := .pending
  method : Nat := 0
  eqd : Int := 0
  rtd : Int := 0
  drift : Int := 0
  lastCorr : Int := 0
  steps : Nat := 0
  corrs : Nat := 0
  lastStep : Int := 0
  cand : Option Int := none
  lastOffset : Int := 0
  wait : Option RtWait := none
  tries : Nat := 0
  window : Option (WinKind × Int × Int) := none
  energyFails : Nat := 0
  lastGood : Option Nat := none
  cause : Nat := 0
  rtdBefore : Int := 0
  delayDue : Bool := false
  frags : Map Nat UpFrag := []
deriving DecidableEq, Repr

/-- An XGEM frame that waits for a PON frame of its port (R98): terminal, XGEM port ID, whether its queue context
marks it encrypted, the bytes left to send, whether a part of it has been sent, whether it is an OMCI message, the number
that its frame had in flight, and whether a channel has poisoned it (R16). -/
structure XgemTx where
  term : Nat
  xgemPort : Nat
  enc : Bool
  bytes : List Byte
  world : Nat
  begun : Bool := false
  omci : Bool := false
  num : Nat := 0
  poison : Bool := false
deriving DecidableEq, Repr

/-- A port unit. `cfgGuard` and `cfgPre` are the burst profile of the oldest map whose bursts have not all passed, `nextProfile` those that apply from the
map of a PON frame on, in its order (R95). `prevSn` is what `lastSn` was before the window fixed last (R139, R142), and `fs` the XGEM frames of the PON frame in progress by word position, which its FEC
encoder takes (R24). `stopping` is the first PON frame of the sequence of R90, `goodbyes`
are ONU-IDs of removed records to deactivate (R154); `release` is the instant from
which the 100 ms of R130 run. The runs are those of R114 and R117. Awl: `offering` and
`running` are bit 0 and octet 10 in effect, `tail` the PON frames left of R146, `pause` the start of a pause,
`search` where the correlator goes on, `codes` the terminals that it searches with their codes (R145), `crowd` the cycles beyond the level. -/
structure Port where
  cfg : PortCfg := {}
  disc : Disc := {}
  framing : Bool := false
  starting : Bool := false
  stopping : Option Nat := none
  goodbyes : List Nat := []
  pres : Bool := true
  txdis : Bool := true
  release : Option Nat := none
  cfgGuard : Nat := 0
  cfgPre : Nat := 0
  nextProfile : List (Nat × Nat × Nat) := []
  los : Bool := false
  lol : Bool := false
  lolTx : Bool := false
  rogue : Bool := false
  noOptics : Bool := false
  treeDrop : Bool := false
  awlCrowd : Bool := false
  losRun : Nat := 0
  lolRun : Nat := 0
  rogueRun : Nat := 0
  cleanRun : Nat := 0
  offering : Bool := false
  running : Bool := false
  tail : Nat := 0
  pause : Option Nat := none
  search : Nat := 0
  codes : List (Nat × List Byte) := []
  crowd : Nat := 0
  lastSn : Option Nat := none
  prevSn : Option Nat := none
  windows : List Window := []
  snSeen : Map Nat Nat := []
  omci : Option Nat := none
  omciTx : List (Nat × List Byte) := []
  txq : List XgemTx := []
  fs : List (Nat × List Byte) := []
  tod : Nat × Nat := (0, 0)
deriving DecidableEq, Repr

/-- The PON ports by number, the terminal records by index, the stuck optics buses with the instant of the last
recovery attempt, the polls of the optics by port, and the returned keys on their way to the secure island (R309). -/
structure PonSt where
  ports : Map Nat Port := []
  terms : Map Nat Terminal := []
  stuck : Map Nat Nat := []
  polled : Map Nat Nat := []
  keysIn : List (Nat × Nat × List Byte) := []
deriving DecidableEq, Repr

end Sys2Proof.Machine
end

