-- ==== Sys2Proof/Machine/StOut.lean ====
section
/-! DEFINITION. What leaves the block: the model's own log of its outputs. -/

namespace Sys2Proof.Machine

/-- One output of the block. -/
inductive Out where
  /-- A reply entry or notification of 16 words at a slot of a pair's reply queue (R47). -/
  | reply (pair slot : Nat) (words : List Word)
  /-- A reply on a fabric side, with its trailer (R60). -/
  | inbandReply (side : Nat) (words : List Word) (trailer : BitVec 128)
  /-- An MSI-X vector of a function (R42, R83). -/
  | msix (fn vector : Nat)
  /-- Bytes written to host memory, as the function and at the address given (R27, R47, R83). -/
  | dma (fn addr : Nat) (bytes : List Byte)
  /-- A PLOAM message in a downstream PON frame of a port: ONU-ID, message, and its 48 octets (R97, R121). -/
  | ploam (port onu : Nat) (msg : Ploam) (octets : List Byte)
  /-- An XGEM frame of a downstream PON frame: the 64 bits of its header, and its payload (R98). -/
  | xgem (port header : Nat) (bytes : List Byte)
  /-- Idle XGEM frames fill so many bytes at the end of a PON frame's payload (R98). -/
  | xgemIdle (port bytes : Nat)
  /-- The content of a PON frame of a port after its FEC encoder (R24). -/
  | fecFrame (port sfc : Nat) (bytes : List Byte)
  /-- A pulse on PON_n.BRST as the guard of a granted burst begins: the word of the map at which it starts, and its length in words (R104). -/
  | burstReset (port map start words : Nat)
  /-- The bandwidth map that a port's PON frame carries, and its allocation structures in order (R193, R196). -/
  | map (port : Nat) (m : BwMap) (structs : List AllocStruct)
  /-- A PON frame of a port begins: the superframe count and the PON-ID of its PSBd (R94, R96). -/
  | ponFrame (port sfc : Nat) (ponId : Word)
  /-- A frame leaves at an uplink port. -/
  | uplink (port : Nat) (bytes : List Byte)
  /-- A pin changes: its name's number in the list of the pin and its level. -/
  | pin (name : String) (index level : Nat)
  /-- A transaction on a port's optics bus: device, register, the bytes written, and the number read (R128). -/
  | optics (bus dev reg : Nat) (bytes : List Byte) (reads : Nat)
  /-- Nine clock pulses and a stop condition on an optics bus (R129). -/
  | opticsRecovery (bus : Nat)
  /-- A write of the boot flash: an address, and the bytes programmed there, or none for the erasure of the copy that begins
  there (R61, R67). -/
  | flash (addr : Nat) (bytes : Option (List Byte))
  /-- What an access to HBM delivers: the bytes, or none for a bus error (R365, R375, R381). -/
  | line (addr : Nat) (bytes : Option (List Byte))
  /-- A Plait frame of 8,192 bytes on a fabric side (R405). -/
  | plait (side : Nat) (bytes : List Byte)
  /-- The PAM4 symbols of whole codewords that a fabric lane sends (R387). -/
  | symbols (lane : Nat) (syms : List Nat)
  /-- What a fabric lane asks of its partner's transmitter in training: coefficients and precoding (R388). -/
  | training (lane request : Nat)
  /-- An uplink port begins or ends sending remote fault in place of its stream (R421). -/
  | remoteFault (port : Nat) (on : Bool)
  /-- A message on TOD_OUT: the second that it names, and its bytes (R438). -/
  | tod (second : Nat) (bytes : List Byte)
  /-- RCLK_0 or RCLK_1 outputs the recovered clock of an uplink port, or is off (Table 14.7). -/
  | recovered (clock : Nat) (port : Option Nat)
  /-- An ESMC message of an uplink port: its quality level (R437). -/
  | esmc (port ql : Nat)
deriving DecidableEq, Repr

end Sys2Proof.Machine
end

