-- ==== Sys2Proof/Machine/StPower.lean ====
section
/-! DEFINITION. State of the power stage, the pins and the reference inputs (chapter 18). -/

namespace Sys2Proof.Machine

/-- The power stage states of Table 18.4. -/
inductive Stage where
  | off | softStart | run | ride
deriving DecidableEq, Repr

/-- One feed: its voltage and current as last sampled (10 mV, 10 mA), whether it is valid or excluded (R508,
R512), since when overcurrent keeps it out, and since when it has been
valid and within the return margin (R509). `overVolt` is set from the overvoltage limit's rising to its falling threshold (Table 18.3), and
`fault` is the cause of the feed's FEED_INVALID while that is raised. -/
structure Feed where
  volts : Nat := 0
  amps : Nat := 0
  valid : Bool := false
  excluded : Bool := false
  outSince : Option Nat := none
  goodSince : Option Nat := none
  overVolt : Bool := false
  fault : Option Nat := none
deriving DecidableEq, Repr

/-- A reference input: whether it is valid (R521). -/
structure RefIn where
  valid : Bool := true
deriving DecidableEq, Repr

/-- The power stage, the seating contact, PERST_L, the temperatures and the references. `active` is the feed in
use; `recent` are the instants of the switch-overs of the last second. `fallback` are the fabric sides on REF_3. `testMode` is
the level of TEST_MODE, which the card ties low (R507). -/
structure PowerSt where
  stage : Stage := .off
  entered : Nat := 0
  active : Nat := 0
  a : Feed := {}
  b : Feed := {}
  pref : Nat := 0
  returnMs : Nat := 100
  switchovers : Nat := 0
  brownouts : Nat := 0
  peak : Nat := 0
  inputPower : Nat := 0
  flap : Bool := false
  recent : List Nat := []
  lastSwitch : Nat := 0
  pwrOk : Bool := false
  alert : Bool := false
  seated : Bool := false
  perstLow : Bool := false
  testMode : Bool := false
  tjMax : Int := 25
  tjSensor : Nat := 0
  tCase : Int := 25
  tempHigh : Bool := false
  shutdown : Bool := false
  refs : Map Nat RefIn := []
  fallback : List Nat := []
deriving DecidableEq, Repr

end Sys2Proof.Machine
end

