-- ==== Sys2Proof/Machine/StRecord.lean ====
section
/-! DEFINITION. State of the fault manager, Patina, the event recorder and the counters (chapters 16 and 17). -/

namespace Sys2Proof.Machine

/-- An error as a collector sends it (R466): the unit's target path, the resource, the fault code, the class,
the code's detail and the island's copy of the time counter. `clear` marks the event that clears a defect. -/
structure Err where
  cplx : Nat
  unit : Nat
  inst : Nat
  res : Nat
  code : Nat
  cls : Nat
  detail : Word := 0
  clear : Bool := false
  esc : Bool := false
  world : Nat := 0x0100
  tc : Nat := 0
deriving DecidableEq, Repr

/-- A fault entry (Table 16.2). -/
structure FaultEntry where
  cls : Nat := 0
  active : Bool := false
  esc : Bool := false
  safe : Bool := false
  cplx : Nat := 0
  unit : Nat := 0
  inst : Nat := 0
  res : Nat := 0
  code : Nat := 0
  count : Nat := 0
  recSeq : Nat := 0
  firstS : Word := 0
  firstNs : Word := 0
  lastS : Word := 0
  detail : Word := 0
  outOfService : Bool := false
deriving DecidableEq, Repr

/-- The fault manager (R464 to R476). `sticky` are the latched class 2 and 3 errors, `channels` the event
channels and `overflow` their lost events by collector (the island of Table 17.4, 0x4E for the power stage), `queue` the pending queue and
`handling` the error under handling (R467), `failed` the units out of service, `fatals` the instants of their unit-fatal errors, `window` the second and number of class-0 notifications. `cause` is the error that took the
safe state, `frozen` the freeze of R470. -/
structure FaultSt where
  sticky : List Err := []
  channels : Map Nat (List Err) := []
  overflow : Map Nat Nat := []
  queue : List Err := []
  handling : Option Err := none
  table : Map Nat FaultEntry := []
  failed : List (Nat × Nat × Nat) := []
  fatals : Map (Nat × Nat × Nat) (List Nat) := []
  frozen : Bool := false
  safeRecords : Nat := 0
  cause : Nat := 0
  window : Nat := 0
  windowCount : Nat := 0
deriving DecidableEq, Repr

/-- A rail as Patina plans it (R478 to R480, Table 16.6); offsets and k in the units of the table. -/
structure Rail where
  now : Int := 0
  offset : Int := 0
  ageing : Nat := 0
  slack : Int := 0
  rate : Nat := 0
  sens : Nat := 0
  skipped : Bool := false
  low : Bool := false
  floor : Bool := false
deriving DecidableEq, Repr

/-- A lane as Patina plans it (R481, Table 16.6). -/
structure LanePlan where
  winMin : Nat := 0
  winMax : Nat := 31
  skipped : Bool := false
  height : Nat := 0
  width : Nat := 0
  floor : Bool := false
deriving DecidableEq, Repr

/-- One plan: rails, lanes and the words of Table 16.5. -/
structure Plan where
  sequence : Nat := 0
  hours : Nat := 0
  isDefault : Bool := true
  rails : Map Nat Rail := []
  lanes : Map Nat LanePlan := []
  toFloor : Nat := 0xFFFFFFFF
deriving DecidableEq, Repr

/-- Patina: the plan in force, the plan being written, the next plan's hours and the scan running, with whether a periodic plan was already
due as it began; `due` is a periodic plan that fell due in Halter, `windows` the lanes whose windows wait for the rails (R482), and
`movedAt` the instants of the rails' last steps (R479). -/
structure PatinaSt where
  plan : Plan := {}
  written : Option Plan := none
  nextHours : Nat := 1000
  scanning : Bool := false
  due : Bool := false
  early : Bool := false
  windows : List Nat := []
  movedAt : Map Nat Nat := []
deriving DecidableEq, Repr

/-- An event record (Table 17.1): its 32 words, and whether its read-back is done. -/
structure Record where
  seq : Nat
  words : List Word
  torn : Bool := false
deriving DecidableEq, Repr

/-- The event recorder (R485 to R495): the store, the write queue, the mark of a gap, and its counts. `opSec`
are the operating seconds, `persisted` the last persisted value and `clean` its mark (R488). -/
structure RecSt where
  store : List Record := []
  queue : List Record := []
  gap : Bool := false
  nextSeq : Nat := 1
  eraseCount : Nat := 0
  full : Bool := false
  opSec : Nat := 0
  persisted : Nat := 0
  clean : Bool := false
  powerCycles : Nat := 0
  unaccounted : Bool := false
deriving DecidableEq, Repr

/-- A programmable counter (Table 17.5), and the instant of its setting. -/
structure ProgCtr where
  enable : Bool := false
  event : Nat := 0
  world : Nat := 0x0100
  value : Nat := 0
  wraps : Nat := 0
  at_ : Nat := 0
deriving DecidableEq, Repr

/-- Where a named counter is kept: its CID (R500), the SCOPE and INDEX of Table 17.8, and the world
(0xFFFF where it is not kept per world). -/
structure CKey where
  cid : Nat
  scope : Nat := 0
  idx : Nat := 0
  world : Nat := 0xFFFF
deriving DecidableEq, Repr

/-- A cycle counter and its DISC count (R496, R497): its value at an instant, since which it runs, or, while its clock is
stopped, the value it holds and the time counter at the stop. `fast` is a port's rate: 777.6 MHz. -/
structure CycleCtr where
  value : Nat := 0
  at_ : Nat := 0
  disc : Nat := 0
  fast : Bool := false
  stopped : Option Nat := none
deriving DecidableEq, Repr

/-- A grant of VF_COUNTER_GRANT (R502). -/
structure Grant where
  named : Bool := false
  mask : Nat := 0
deriving DecidableEq, Repr

/-- The counters: cycle counters and programmable counters by island (programmable ones by island * 8 + index),
named counters, and the grants by function; `start` is the instant of the last reset. -/
structure CounterSt where
  start : Nat := 0
  cycles : Map Nat CycleCtr := []
  prog : Map Nat ProgCtr := []
  named : Map CKey Nat := []
  grants : Map Nat Grant := []
deriving DecidableEq, Repr

end Sys2Proof.Machine
end

