-- ==== Sys2Proof/Machine/StTime.lean ====
section
/-! DEFINITION. State of the time complex (chapter 14). -/

namespace Sys2Proof.Machine

/-- The servo states of Table 14.5. -/
inductive Servo where
  | unset | acquiring | locked | holdover | freerun
deriving DecidableEq, Repr

/-- One uplink port's PTP setting (Table 14.3, KIND 1), and whether the protocol engine has it in slave state. -/
structure PtpPort where
  mode : Nat := 0
  twoStep : Bool := false
  notSlave : Bool := false
  hostq : Nat := 0
  localPrio : Nat := 128
deriving DecidableEq, Repr

/-- ASYMMETRY_SET of one port (Table 14.4). -/
structure Asym where
  txDelay : Int := 0
  rxDelay : Int := 0
  asym : Int := 0
  ratio : Nat := 0x40000000
deriving DecidableEq, Repr

/-- A time-stamp queue entry (Table 14.8): the stamp is in units of 2^-40 ns of the time counter. -/
structure TsEntry where
  msgType : Nat
  port : Nat
  id : Nat
  stamp : Nat
deriving DecidableEq, Repr

/-- One SyncE source (R437): whether it is available now, since when it failed or returned, its quality level,
whether ESMC has lapsed, and the instant at which ESMC was last heard. -/
structure SyncSrc where
  good : Bool := false
  eligible : Bool := false
  since : Nat := 0
  ql : Nat := 0
  lapsed : Bool := false
  heard : Nat := 0
deriving DecidableEq, Repr

/-- A step that TIME_SET ordered for the next tick (R425, R434): to a value in units of 2^-40 ns, or by a difference in
1/65,536 ns, with the cause that its record gives. -/
structure StepDue where
  absolute : Bool
  value : Int
  cause : Nat
deriving DecidableEq, Repr

/-- A setting of ASYMMETRY_SET that the next tick brings into force (R431): of a PON port or of an uplink port. -/
structure AsymDue where
  pon : Bool
  port : Nat
  value : Asym
deriving DecidableEq, Repr

/-- The time complex. `tc` is the time counter in units of 2^-40 ns (R423), `corr` the frequency correction per
tick in the same unit, `due` the steps that the next tick takes. `sfc` is the module superframe count (R76) and
`sfcAt` the instant of its boundary. `stepped` is the sum of the steps taken, in the unit of the counter, and `frames` how many multiples of
125 µs of the counter without steps have begun a PON frame (R19, R426). Measurements, in 1/65,536 ns: `good` consecutive ones
within 100 ns, `beyond` consecutive ones beyond STEP_TH, `pathRun` consecutive mean paths off the accepted one, `ok`
consecutive acceptable ones in HOLDOVER, `refused` the last refused offset, `lastMeas` the instant of the last one;
`meanPath` is the accepted mean path, `lastPath` the first one after an ASYMMETRY_SET, which `asymDue` says is still to
come, `notified` the one last notified, `down` the last t2 - t1 of the slave port and `pathNow` the last mean path. `oldCorr` are the corrections of the last 62 s with the instants from which
they held, the latest first. `ppsEdge` is the PPS_IN edge that waits for its message, as its stamp and its instant,
`ppsEdgeAt` the instant of the last edge, `ppsMissAt` that of the last absence counted, and `todSecond` the second of the last message.
`asymNext` are the settings that the next tick brings into force, and `todDue` the TOD_OUT messages still to start, as the instant of the edge
and its second. -/
structure TimeSt where
  tc : Nat := 0
  corr : Int := 0
  isSet : Bool := false
  due : List StepDue := []
  sfc : Nat := 0
  servo : Servo := .unset
  good : Nat := 0
  beyond : Nat := 0
  pathRun : Nat := 0
  sfcAt : Nat := 0
  stepped : Int := 0
  frames : Nat := 0
  ok : Nat := 0
  asymDue : Bool := false
  refused : Int := 0
  meanPath : Option Int := none
  lastPath : Option Int := none
  notified : Option Int := none
  down : Option Int := none
  pathNow : Option Int := none
  lastMeas : Nat := 0
  oldCorr : List (Nat × Int) := []
  slave : Option Nat := none
  source : Nat := 0
  domain : Nat := 24
  ppsWidth : Nat := 100
  stepTh : Nat := 1000
  pathStepTh : Nat := 500
  termStepTh : Nat := 10
  ppsOutDelay : Int := 0
  ppsInDelay : Int := 0
  ptp : Map Nat PtpPort := []
  asymUp : Map Nat Asym := []
  asymPon : Map Nat Asym := []
  tsq : Map Nat (List TsEntry) := []
  rclk0 : Nat := 0xFF
  rclk1 : Nat := 0xFF
  qlEn : Bool := true
  option2 : Bool := false
  holdoff : Nat := 5
  wtrM : Nat := 5
  prioPort : Nat := 0
  prioRef : Nat := 0x000F
  qlRef : Nat := 0
  sources : Map Nat SyncSrc := []
  selected : Option Nat := none
  ppsHigh : Bool := false
  ppsOutAt : Nat := 0
  ppsEdge : Option (Nat × Nat) := none
  todSecond : Option Nat := none
  ppsEdgeAt : Option Nat := none
  ppsMissAt : Nat := 0
  asymNext : List AsymDue := []
  todDue : List (Nat × Nat) := []
deriving DecidableEq, Repr

end Sys2Proof.Machine
end

