-- ==== Sys2Proof/Machine/StVault.lean ====
section
/-! DEFINITION. State of the Tack store and the secure island (chapter 10) and of the cipher array (chapter 9). -/

namespace Sys2Proof.Machine

/-- The life-cycle states of Table 10.3. -/
inductive Life where
  | blank | provisioned | deployed | fieldDebug | returned | scrapped
deriving DecidableEq, Repr

/-- Slot attributes (Table 10.2). -/
structure Attr where
  world : Nat := 0x0100
  life : Nat := 0
  masters : Nat := 0
  usage : Nat := 0
  neverExport : Bool := false
  persist : Bool := false
  ktype : Nat := 0
  origin : Nat := 0
deriving DecidableEq, Repr

/-- A slot (R316): its attributes, body, generation and flags. `old` is the retiring copy of R283: the body and
generation that frames in flight still use. -/
structure Slot where
  attr : Attr := {}
  body : List Byte := []
  gen : Nat := 0
  valid : Bool := false
  stored : Bool := false
  exported : Bool := false
  old : Option (List Byte × Nat) := none
deriving DecidableEq, Repr

/-- An OTP life-cycle row: its code and whether its check value is valid (R322). -/
structure LifeRow where
  code : Life
  ok : Bool
deriving DecidableEq, Repr

/-- An OTP epoch row: whether its check value is valid, and the SHA-384 of an update authority's public key that it holds (R328). -/
structure EpochRow where
  ok : Bool
  hash : List Byte
deriving DecidableEq, Repr

/-- A copy of a persistent slot's record in the on-package NOR: its sequence, the slot as it was written, and the bytes that stand there
for its body, wrapped under the STORE key (R320). -/
structure NorCopy where
  sequence : Nat
  slot : Slot
  wrapped : List Byte
deriving DecidableEq, Repr

/-- The two copies of a persistent slot's record; none for a copy that is not valid (R68, R320). -/
structure NorRec where
  a : Option NorCopy := none
  b : Option NorCopy := none
deriving DecidableEq, Repr

/-- A slot operation that waits for the release of a retiring copy (R283, R319): the command in progress of a
queue, a PON key write for a terminal and index, a message at the debug port, or one of the Abkoux service authority. -/
inductive SlotWait where
  | command (q : Nat)
  | ponKey (terminal index : Nat) (body : List Byte)
  | token (message : List Byte)
  | service (row : Nat) (toScrapped : Bool) (owner signature : List Byte)
deriving DecidableEq, Repr

/-- The secure island. `nor` are the records of the persistent slots (R320); `lifeRows` and `epochRows` are the OTP rows burned so far, `counter` the
counter record (epoch, counter) of R327 and `debugCounter` that of the debug area; `pendingKey` the pending update authority of R329;
`provisioning` says that the module was BLANK when it booted (Table 10.3); `msk` are the terminal MSKs that a
message set (R336), `registered` the terminals whose derived keys stand in the terminal key table, and `built` those of the set MSKs that the
keys were derived from; `present` the
sensors out of range now, `raised` those since the last ALARM_STATUS, `counts` the alarms by class (R349);
`hold` the instant of the alarm that holds admission (R313); `hideTimes` the HIDE conditions counted for
HIDE_BURST; `under` says that both feeds are below the lockout (R347); `scrapPending` is the OTP bit of class 3; `keysS` tells which module keys of world S an alarm has left: 0 all,
1 the persistent ones, 2 none (Table 10.11). -/
structure VaultSt where
  slots : Map Nat Slot := []
  nor : Map Nat NorRec := []
  lifeRows : Map Nat LifeRow := [(0, ⟨.provisioned, true⟩)]
  epochRows : List EpochRow := []
  counter : Nat × Nat := (0, 0)
  debugCounter : Nat × Nat := (0, 0)
  pendingKey : Option (List Byte) := none
  provisioning : Bool := false
  meas0 : List Byte := []
  meas1 : List Byte := []
  token : Bool := false
  tokenFails : Nat := 0
  tokensRefused : Bool := false
  msk : Map Nat (List Byte) := []
  registered : List Nat := []
  built : Map Nat (List Byte) := []
  keysS : Nat := 0
  present : Nat := 0
  raised : Nat := 0
  counts : Map Nat Nat := []
  hold : Option Nat := none
  hideTimes : List Nat := []
  under : Bool := true
  scrapPending : Bool := false
  waiting : List SlotWait := []
  wasDebug : Bool := false
deriving DecidableEq, Repr

/-- The life-cycle state: the code of the highest row whose check value is valid, BLANK where there is none (R322). -/
def lifeOf (rows : Map Nat LifeRow) : Life :=
  (List.range 32).foldl (fun l k => match mget rows k with | some r => if r.ok then r.code else l | none => l) .blank

/-- The life-cycle state of the secure island. -/
def VaultSt.life (v : VaultSt) : Life := lifeOf v.lifeRows

/-- A secure channel (Table 9.5). -/
structure Channel where
  point : Nat
  rx : Bool
  offset : Nat := 0
  suite : Nat
  world : Nat
  validate : Nat := 2
  replay : Bool := true
  conf : Bool := true
  implicit : Bool := false
  scTag : Bool := true
  es : Bool := false
  scb : Bool := false
  sciLo : Word := 0
  sciHi : Word := 0
  an : Option Nat := none
  lowest : Nat := 0
  window : Nat := 0
deriving DecidableEq, Repr

/-- A secure association (Table 9.6), its order of installation (R299), and whether its warning and its
exhaustion have been given (R296). -/
structure Assoc where
  slot : Nat
  gen : Nat := 0
  nextPn : Nat := 1
  ssci : Word := 0
  salt0 : Word := 0
  salt1 : Word := 0
  salt2 : Word := 0
  pnWarn : Nat := 0
  order : Nat := 0
  warned : Bool := false
  exhausted : Bool := false
deriving DecidableEq, Repr

/-- A point's reservation in one direction (Table 9.3): RATE in 0.1 Gb/s, 0 for an unsecured point, and CUT. -/
structure Reserve where
  rate : Nat := 0
  cut : Bool := false
deriving DecidableEq, Repr

/-- The kinds of traffic of Table 9.2. -/
inductive Traffic where
  | txUplink (port : Nat) | txCard (card kind : Nat) | rxHeld | rxCut | ponDown (port terminal : Nat)
deriving DecidableEq, Repr

/-- A frame in the array: what it is, the latched slot and generation (R282), when it was admitted, its channel
and, for a frame that leaves the module, the bytes that leave. `frame` is the number of a received frame, `plain` what
it becomes, `assoc` and `pn` its association and PN, `valid` whether its ICV passes, `validate` and `cbit` the channel's
VALIDATE and the tag's C, `low` the lowest acceptable PN, `point` its receive point, and `order` its association's installation. `pos` is a PON frame's word
position, `octets` what a transmit channel protects, and `poison` says that a channel has poisoned it (R16). -/
structure Admitted where
  traffic : Traffic
  slot : Nat
  gen : Nat
  at_ : Nat
  chan : Nat
  world : Nat
  frame : Nat := 0
  bytes : List Byte := []
  xgemPort : Nat := 0
  keyIndex : Nat := 0
  last : Bool := true
  plain : List Byte := []
  assoc : Nat := 0
  pn : Nat := 0
  valid : Bool := true
  validate : Nat := 2
  cbit : Bool := true
  low : Nat := 0
  point : Nat := 0
  order : Nat := 0
  pos : Nat := 0
  octets : Nat := 0
  poison : Bool := false
deriving DecidableEq, Repr

/-- A configuration bank of the array: channels, associations by channel * 4 + AN, and reservations by point * 2 + direction. -/
structure CipherBank where
  channels : Map Nat Channel := []
  assocs : Map Nat Assoc := []
  reserve : Map Nat Reserve := []
deriving DecidableEq, Repr

/-- The cipher array: its current configuration, the previous epoch's while that drains, under which frames of that epoch are received (R31), the
frames in the pipes, and the count of installations. -/
structure CipherSt where
  channels : Map Nat Channel := []
  assocs : Map Nat Assoc := []
  reserve : Map Nat Reserve := []
  prev : CipherBank := {}
  inPipes : List Admitted := []
  installs : Nat := 0
deriving DecidableEq, Repr

end Sys2Proof.Machine
end

