-- ==== Sys2Proof/Machine/State.lean ====
section
/-! DEFINITION. The state of the block, the reasons a command can stop, and the state after reset. -/

namespace Sys2Proof.Machine

/-- The state of the block. `pending` are the commands that wait, first in, first out. `out` is the model's own
log of outputs, `mono` the picoseconds since a feed became valid, `free` the model's own count of free values. -/
structure State where
  pending : List Instr := []
  out : List Out := []
  mono : Nat := 0
  free : Nat := 0
  host : HostSt := {}
  epoch : EpochSt := {}
  boot : BootSt := {}
  time : TimeSt := {}
  flt : FaultSt := {}
  pat : PatinaSt := {}
  evr : RecSt := {}
  ctr : CounterSt := {}
  vault : VaultSt := {}
  cipher : CipherSt := {}
  power : PowerSt := {}
  link : LinkSt := {}
  halter : HalterSt := {}
  pon : PonSt := {}
  weaver : WeaverSt := {}
  pkt : PacketSt := {}
  rules : RulesSt := {}
  tm : TrafficSt := {}
  mem : MemSt := {}
deriving DecidableEq, Repr

/-- Why a command faults. -/
inductive Fault where
  /-- Raised by an event that names an object the part does not have, such as port 64. The hardware cannot be
  given such an event. Safe: nothing is claimed of it. -/
  | noSuchObject
deriving DecidableEq, Repr

/-- Why a command is refused by the model. -/
inductive Refusal where
  /-- Raised by an arm of exec for a command without a meaning. Safe. -/
  | notModelled (mnemonic : String)
deriving DecidableEq, Repr

/-- UPDATE_AUTHORITY as provisioning left it (R321, R328). -/
def provisionedAuthority : Slot :=
  { attr := { world := 0x0200, ktype := 2, persist := true, life := 63 }, valid := true, stored := true,
    body := Config.firstAuthority.take 97 ++ List.replicate (128 - (Config.firstAuthority.take 97).length) 0 }

/-- The block right after reset: no feed is valid, nothing is configured, and no command waits. The module is provisioned: the first update
authority's key stands in UPDATE_AUTHORITY and its hash in epoch row 0 (DESIGN CHOICE: log entry 187). -/
def State.reset : State :=
  { vault :=
      { slots := [(0x20000, provisionedAuthority)], epochRows := [⟨true, Config.sha384 Config.firstAuthority⟩]
        nor := [(0x20000, { a := some ⟨1, provisionedAuthority, Config.wrap (storeKey false) provisionedAuthority.body⟩ })] } }

end Sys2Proof.Machine
end

