-- ==== Sys2Proof/Machine/Ops.lean ====
section
/-! DEFINITION. The named operations over the state that every family shares: outputs, counters, event records,
notifications, errors and replies. -/

namespace Sys2Proof.Machine

/-- What a command answers. -/
abbrev Res := Host.Outcome State Fault Refusal

/-- An event that names an object the part has; otherwise the fault noSuchObject. -/
def onObject (ok : Bool) (s : State) : Res := if ok then .next s else .fault .noSuchObject

/-- An event that happens only where its condition holds; elsewhere nothing happens. -/
def whenever (c : Bool) (f : State → State) (s : State) : State := if c then f s else s

/-! ## Outputs and free values -/

/-- Append an output to the log. -/
def emit (o : Out) (s : State) : State := { s with out := s.out ++ [o] }

/-- Take a free value: advance the count that the opaque values are applied to. -/
def takeFree (s : State) : State := { s with free := s.free + 1 }

/-! ## The time counter (R423) -/

/-- One nanosecond in the units of the time counter. -/
def nsUnit : Nat := 2 ^ 40

/-- The time counter's seconds. -/
def tcSec (s : State) : Nat := s.time.tc / (1000000000 * nsUnit)

/-- The time counter's nanoseconds. -/
def tcNs (s : State) : Nat := s.time.tc / nsUnit % 1000000000

/-- The time counter's fractional nanoseconds in units of 1/65,536 ns. -/
def tcFrac (s : State) : Nat := s.time.tc % nsUnit / 2 ^ 24

/-- The time counter with the steps that it has taken left out (R426). -/
def tcSteady (s : State) : Nat := ((s.time.tc : Int) - s.time.stepped).toNat

/-- One PON frame of 125 µs in the units of the time counter. -/
def frameUnits : Nat := 125000 * nsUnit

/-- The module frame boundary is due: the counter without steps has reached a further multiple of 125 µs (R19, R426). -/
def boundaryDue (s : State) : Bool := (s.time.frames + 1) * frameUnits ≤ tcSteady s

/-- One microsecond of `mono`. -/
def us : Nat := 1000000

/-- One millisecond of `mono`. -/
def ms : Nat := 1000000000

/-- One second of `mono`. -/
def sec : Nat := 1000000000000

/-- Whether a time has passed since an instant. -/
def passed (s : State) (since dur : Nat) : Bool := since + dur ≤ s.mono

/-! ## Counters -/

/-- The CID of a named counter: chapter, table and position (R500). -/
def cid (ch tbl pos : Nat) : Nat := ch * 1024 + tbl * 64 + pos

/-- Raise a named counter at one place by `n`, modulo 2^48 (R500). -/
def bumpBy (k : CKey) (n : Nat) (s : State) : State :=
  { s with ctr := { s.ctr with named := mupd s.ctr.named k 0 (fun v => (v + n) % 2 ^ 48) } }

/-- Raise a named counter of an object by 1. -/
def bump (c scope idx : Nat) (s : State) : State := bumpBy { cid := c, scope := scope, idx := idx } 1 s

/-- Raise a named counter of an object and a world by 1. -/
def bumpW (c scope idx world : Nat) (s : State) : State :=
  bumpBy { cid := c, scope := scope, idx := idx, world := world } 1 s

/-- The value of a named counter at one place. -/
def counterAt (s : State) (k : CKey) : Nat := mgetD s.ctr.named k 0

/-- Set every counter of an object to 0, as the creation of an object at its index does (R501). -/
def clearCounters (scope idx : Nat) (s : State) : State :=
  { s with ctr := { s.ctr with named := mkeep s.ctr.named fun k _ => !(k.scope = scope && k.idx = idx) } }

/-- An event of a programmable counter's island, tagged with a world (R499). -/
def countEvent (island ev world n : Nat) (s : State) : State :=
  { s with ctr := { s.ctr with prog := mmap s.ctr.prog fun k c =>
      if k / 8 = island && c.enable && c.event = ev && (c.world = 0x0100 || c.world = world) then
        { c with value := (c.value + n) % 2 ^ 64, wraps := (c.wraps + (c.value + n) / 2 ^ 64) % 256 }
      else c } }

/-- A frame of some bytes enters an island: events 0x004 and 0x005 (Table 17.6). -/
def frameIn (island world len : Nat) (s : State) : State :=
  countEvent island 4 world 1 (countEvent island 5 world ((len + 63) / 64) s)

/-! ## Event records (R485, R486, R490) -/

/-- The counter RECORDS_DROPPED of Table 17.7. -/
def cRecordsDropped : Nat := cid 17 7 11

/-- The words of a record before its CHECK. -/
def recordWords (s : State) (seq typ code cplx unit inst world : Nat) (una : Bool) (detail : List Word) : List Word :=
  [ wd seq, wd s.evr.opSec, pack [(min s.evr.powerCycles 0xFFFFFF, 24, 8), (s.evr.opSec / 2 ^ 32, 8, 0)],
    pack [(b2n una, 1, 31), (b2n (s.time.servo ≠ .unset), 1, 30), (b2n (s.boot.state = .safe), 1, 29),
      (b2n (s.boot.state = .halter), 1, 28), (b2n s.evr.gap, 1, 27), (typ, 16, 0)],
    wd (tcNs s), lo32 (tcSec s), hi32 (tcSec s), pack [(cplx, 8, 24), (unit, 8, 16), (inst, 16, 0)],
    pack [(code, 16, 16), (world, 16, 0)] ] ++ (detail ++ List.replicate 21 0).take 21 ++ [0]

/-- Make an event record. A full store or a full write queue drops it, counts it and leaves the mark that the
next record carries as GAP (R490, R492). -/
def recordWith (una : Bool) (typ code cplx unit inst world : Nat) (detail : List Word) (s : State) : State :=
  if s.evr.full || 256 ≤ s.evr.queue.length then
    bump cRecordsDropped 0 0 { s with evr := { s.evr with gap := true } }
  else
    let ws := recordWords s s.evr.nextSeq typ code cplx unit inst world una detail
    { s with evr := { s.evr with
        queue := s.evr.queue ++ [{ seq := s.evr.nextSeq, words := ws ++ [crc32 (bytesOfWords ws)] }],
        gap := false, nextSeq := s.evr.nextSeq + 1 } }

/-- Make an event record of Table 17.2. -/
def recordEv (typ code cplx unit inst world : Nat) (detail : List Word) (s : State) : State :=
  recordWith false typ code cplx unit inst world detail s

/-! ## Queue pairs and replies (R39, R42, R47, R548) -/

/-- The setting of INBAND_CONFIG in force (R78). -/
def inbandNow (s : State) : InbandSet :=
  { enable := s.host.inEnable, sideA := s.host.inSideA, sideB := s.host.inSideB, slot := s.host.inSlot, groups := s.host.inGroups }

/-- A queue pair's state; key 64 is the queue of in-band commands (R60). -/
def pairAt (s : State) (q : Nat) : Pair := mgetD s.host.pairs q {}

/-- Alter a queue pair. -/
def updPair (q : Nat) (f : Pair → Pair) (s : State) : State :=
  { s with host := { s.host with pairs := mset s.host.pairs q (f (pairAt s q)) } }

/-- A reply queue is full when RQ_TAIL + 1 equals RQ_HEAD (R548). -/
def rqFull (p : Pair) : Bool := p.rqTail + 1 == p.rqHead

/-- The 16 words of a reply entry (R47). -/
def replyWords (r : Reply) (phase : Bool) : List Word :=
  [pack [(r.tag.toNat, 16, 16), (r.status, 16, 0)],
   pack [(b2n phase, 1, 31), (r.epoch.toNat, 16, 8), (r.count, 5, 0)]]
  ++ (r.words ++ List.replicate 13 0).take 13 ++ [lo32 r.seq.toNat]

/-- Write a reply entry into a queue with room: RQ_TAIL moves on, PHASE inverts at the wrap, PENDING is set and
the vector sent if it is not masked (R42, R47). A failed write sets ERROR 3 and the reply is lost (R547). The vector is that of the pair's
binding; QP_0, which QUEUE_BIND never binds, uses entry 0 (DESIGN CHOICE: log entry 185). -/
def writeReply (q : Nat) (r : Reply) (s : State) : State :=
  let p := pairAt s q
  if r.dmaOk then
    let s1 := emit (.reply q p.rqTail.toNat (replyWords r p.phase)) s
    let s2 := updPair q (fun p => { p with rqTail := p.rqTail + 1,
                                            phase := if p.rqTail + 1 = 0 then !p.phase else p.phase }) s1
    let s3 := { s2 with host := { s2.host with pending := s2.host.pending ||| (1#64 <<< q) } }
    if s3.host.mask.getLsbD q then s3 else emit (.msix p.bound p.vector) s3
  else updPair q (fun p => { p with error := 3 }) s

/-- The counter NOTIFY_DROPPED of Table 17.7. -/
def cNotifyDropped : Nat := cid 17 7 14

/-- Post a reply entry: it is written at once where the reply queue has room and nothing waits before it;
otherwise it waits, or, as the 257th notification, is dropped and counted (R548). Whether notifications and replies that waited
are written while the pair's ENABLE is 0 or its ERROR is set is not stated, since those stop fetching only; the model writes
them (DESIGN CHOICE: log entry 155). -/
def postReply (q : Nat) (r : Reply) (s : State) : State :=
  let p := pairAt s q
  if p.held.isEmpty && !rqFull p then writeReply q r s
  else if r.note && 256 ≤ (p.held.filter Reply.note).length then bump cNotifyDropped 0 0 s
  else updPair q (fun p => { p with held := p.held ++ [r] }) s

/-- Write the replies that wait while there is room, in their order (R548). -/
def flushHeld (q fuel : Nat) (s : State) : State :=
  match fuel with
  | 0 => s
  | n + 1 =>
    match (pairAt s q).held with
    | [] => s
    | r :: rest =>
      if rqFull (pairAt s q) then s
      else flushHeld q n (writeReply q r (updPair q (fun p => { p with held := rest }) s))

/-! ## Notifications (R47, R79) -/

/-- The events that result word 0 of a notification names (R47). -/
inductive Note where
  | epochDrained | epochCancelled | fault | alarm | ruleVersionRetired | stateChange
deriving DecidableEq, Repr

/-- The code of a notification's event (R47). -/
def noteCode : Note → Nat
  | .epochDrained => 1
  | .epochCancelled => 2
  | .fault => 3
  | .alarm => 4
  | .ruleVersionRetired => 5
  | .stateChange => 6

/-- Send a notification whatever NOTIFY_MASK holds. It belongs to no command, and R47 gives its word 15 (SEQ) no value; the
model writes 0 (DESIGN CHOICE: log entry 155). -/
def notifyForced (n : Note) (ws : List Word) (s : State) : State :=
  countEvent 0x4C 0x102 0x0100 1
    (postReply 0 { tag := 0xFFFF#16, status := 0, epoch := s.epoch.current, count := ws.length + 1,
                   words := wd (noteCode n) :: ws, seq := 0, note := true } s)

/-- Send a notification unless NOTIFY_MASK suppresses it (R79). -/
def notify (n : Note) (ws : List Word) (s : State) : State :=
  if bit s.host.notifyMask (noteCode n) then s else notifyForced n ws s

/-- Send a STATE_CHANGE notification. -/
def stateChange (word1 : Nat) (ws : List Word) (s : State) : State := notify .stateChange (wd word1 :: ws) s

/-! ## Errors (R466, R468) -/

/-- The island of a unit (Tables 2.20 and 17.4); none for the power stage. -/
def unitIsland (cplx unit inst : Nat) : Option Nat :=
  match cplx with
  | 0x01 => some (inst % 64) | 0x02 => some (inst % 64) | 0x03 => some 0x40
  | 0x04 => some (if unit = 0 || unit = 5 then 0x41 else 0x41 + unit) | 0x05 => some (0x42 + inst)
  | 0x06 => some 0x46 | 0x07 => some 0x47 | 0x08 => some 0x48 | 0x09 => some 0x49 | 0x0A => some 0x4A | 0x0B => some 0x4B
  | 0x0C => some 0x4C | 0x0D => some 0x4D | _ => none

/-- The collector that sends a unit's errors, one for each island, and one for the power stage, whose number follows theirs (R466). -/
def collectorOf (e : Err) : Nat := (unitIsland e.cplx e.unit e.inst).getD 0x4E

/-- The unit that names a collector's island: its complex, unit and instance (Tables 2.20 and 17.4). -/
def collectorUnit (k : Nat) : Nat × Nat × Nat :=
  if k < 0x40 then (1, 0, k)
  else if 0x42 ≤ k && k < 0x46 then (4, k - 0x41, 0)
  else if k = 0x40 then (3, 0, 0)
  else if k = 0x41 then (4, 0, 0)
  else (k - 0x40, 0, 0)

/-- The overflow marker of a collector's event channel as the fault manager receives it: a corrected error (R15). -/
def overflowErr (k count : Nat) : Err :=
  let (cplx, unit, inst) := collectorUnit k
  { cplx := cplx, unit := unit, inst := inst, res := 0, code := cplx * 256 + 0x05, cls := 0, detail := wd count }

/-- The same complex, unit, instance and resource (R468). -/
def sameSource (a b : Err) : Bool := a.cplx = b.cplx && a.unit = b.unit && a.inst = b.inst && a.res = b.res

/-- The counter FAULT_ESCALATED of Table 16.3. -/
def cFaultEscalated : Nat := cid 16 3 2

/-- A unit whose loss would stop all traffic in one direction. -/
def critical (cplx unit : Nat) : Bool :=
  (cplx = 0x04 && (unit = 0 || unit = 5)) || cplx = 0x06 || cplx = 0x09 || (cplx = 0x0B && unit = 0) || (cplx = 0x0C && unit = 0)

/-- An error with the class that R465 gives it. -/
def classed (e : Err) : Err := if e.cls = 2 && critical e.cplx e.unit then { e with cls := 3 } else e

/-- The pending entry that is handled next: the highest class first, in arrival order within a class (R467). -/
def nextErr (q : List Err) : Option Err :=
  q.foldl (fun a e => match a with | some b => if b.cls < e.cls then some e else a | none => some e) none

/-- Staged content and reservations are discarded, and the state returns to NONE (R73, R74). -/
def discardEpoch (s : State) : State :=
  { s with epoch := { s.epoch with phase := .none, staged := 0, cmds := [], kind := 0, point := 0 } }

/-- The picoseconds left until the activation point (R74, R76): a superframe count lies 125 µs ahead per count. -/
def epochLeft (s : State) : Int :=
  if s.epoch.kind = 0 then
    ((s.epoch.point : Int) - s.time.sfc) * (125 * us : Nat) - ((s.mono - s.time.sfcAt : Nat) : Int)
  else ((s.epoch.point * nsUnit : Nat) - (s.time.tc : Int)) * 1000 / (nsUnit : Int)

/-- At least 100 µs remain before the activation point. -/
def epochMayAbort (s : State) : Bool := ((100 * us : Nat) : Int) ≤ epochLeft s

/-- A unit-fatal error while an epoch is prepared or armed aborts it where at least 100 µs remain, with its record and
EPOCH_CANCELLED (R74). -/
def cancelEpoch (code : Nat) (s : State) : State :=
  if s.epoch.phase = .prepared || (s.epoch.phase = .armed && epochMayAbort s) then
    let e := s.epoch.staged
    notify .epochCancelled [pack [(e.toNat, 16, 0)], wd code]
      (recordEv 0x0008 2 0x0C 0 0 0x0100 [wd e.toNat, wd code] (discardEpoch s))
  else s

/-- A unit that suffers a unit-fatal error is out of service at once (R469), and the error aborts a prepared or armed epoch
(R74). What the unit's chapter drops follows with the error's handling where the event itself does not do it. -/
def strike (e : Err) (s : State) : State :=
  let u := (e.cplx, e.unit, e.inst)
  let s1 := if s.flt.failed.contains u then s else { s with flt := { s.flt with failed := s.flt.failed ++ [u] } }
  cancelEpoch e.code s1

/-- The unit that an error strikes, if its class in the end is unit-fatal. -/
def strikes (e : Err) (s : State) : State := if (classed e).cls = 2 && !e.clear then strike e s else s

/-- The management cores run the firmware, and with it the fault manager and Patina: once the ROM has started it, not in RECOVERY, where the
ROM serves itself, and not during a restart (R65, R66, R81). Until then errors wait in the pending queue and the event channels, so a boot's
first record is its BOOT record (R489). -/
def managerRuns (s : State) : Bool :=
  (s.boot.phase = .firmware || (s.boot.phase = .up && s.boot.state ≠ .recovery)) && !s.boot.restarting

/-- With no error under handling the next of the pending queue is taken (R467). -/
def takeUp (s : State) : State :=
  if s.flt.handling.isSome then s
  else match nextErr s.flt.queue with
  | none => s
  | some e => { s with flt := { s.flt with handling := some e, queue := dropFirst s.flt.queue e } }

/-- The error names the source of one that waits or is under handling (R468). -/
def escalates (e : Err) (s : State) : Bool :=
  !e.clear && (s.flt.queue.any (fun x => !x.clear && sameSource x e) ||
    (match s.flt.handling with | some x => !x.clear && sameSource x e | none => false))

/-- Put an error in the pending queue, escalated where one from the same source waits or is under handling (R468). -/
def enqueueErr (e : Err) (s : State) : State :=
  if escalates e s then
    let e' := { e with cls := min 3 (e.cls + 1), esc := true }
    let s1 := if e.cls = 2 then s else strikes e' s
    takeUp (bump cFaultEscalated 11 e'.cls { s1 with flt := { s1.flt with queue := s1.flt.queue ++ [e'] } })
  else takeUp { s with flt := { s.flt with queue := s.flt.queue ++ [e] } }

/-- The counter FAULT_LOST of Table 16.3. -/
def cFaultLost : Nat := cid 16 3 1

/-- A collector sends an error (R466): class 2 and 3 are latched; the pending queue takes it if it has room, else the
island's event channel, whose 64th entry is the overflow marker (R15, R467). A latched error is not lost there. -/
def report (e0 : Err) (s0 : State) : State :=
  let e := { e0 with tc := s0.time.tc }
  let s := strikes e s0
  let latched := 2 ≤ e.cls && !e.clear
  let s1 := if latched then { s with flt := { s.flt with sticky := s.flt.sticky ++ [e] } } else s
  let ch := mgetD s1.flt.channels (collectorOf e) []
  if s1.flt.queue.length < 64 && ch.isEmpty then enqueueErr e s1
  else if ch.length < 63 then
    { s1 with flt := { s1.flt with channels := mset s1.flt.channels (collectorOf e) (ch ++ [e]) } }
  else
    let s2 := { s1 with flt := { s1.flt with overflow := mupd s1.flt.overflow (collectorOf e) 0 (· + 1) } }
    if latched then s2 else bump cFaultLost 11 e.cls s2

/-- Report an error of a unit with a code of Table 16.4. -/
def raise (cplx unit inst res code cls : Nat) (detail : Word) (s : State) : State :=
  report { cplx := cplx, unit := unit, inst := inst, res := res, code := code, cls := cls, detail := detail } s

/-- Report the clearing of a defect. -/
def lower (cplx unit inst res code cls : Nat) (s : State) : State :=
  report { cplx := cplx, unit := unit, inst := inst, res := res, code := code, cls := cls, clear := true } s

/-- Whether a unit is out of service (R469). -/
def unitFailed (s : State) (cplx unit inst : Nat) : Bool := s.flt.failed.contains (cplx, unit, inst)

/-! ## Runtime settings (R68) -/

/-- Whether the test root is in use (R331): a module provisioned since it booted keeps it until the next boot (Table 10.3). -/
def testRoot (s : State) : Bool :=
  s.vault.life = .blank || s.vault.life = .returned || s.vault.life = .fieldDebug || s.vault.token || s.vault.provisioning

/-- The copy of a record that a read takes: the valid one with the higher sequence; true for B. -/
def selectedB (r : SetRec) : Bool := r.b.valid && (!r.a.valid || r.a.sequence < r.b.sequence)

/-- Write a record: the copy that is not selected takes sequence + 1 and the content, under the measurements given (R68, R334). -/
def writeRec (r : SetRec) (content : List Word) (meas : List Byte) : SetRec :=
  if r.a.valid && !selectedB r then
    { r with b := { valid := true, sequence := r.a.sequence + 1, content := content, meas := meas } }
  else { r with a := { valid := true, sequence := (if r.b.valid then r.b.sequence else 0) + 1, content := content, meas := meas } }

/-- Write the runtime settings record of a number in the order of R68: in the debug settings area while the test
root is in use (R335). After entry to RIDE no setting is written (R514). -/
def writeSetting (i : Nat) (content : List Word) (s : State) : State :=
  let m := s.vault.meas0 ++ s.vault.meas1
  if s.power.stage = .ride then s
  else if testRoot s then
    { s with boot := { s.boot with debugSettings := mupd s.boot.debugSettings i {} (fun r => writeRec r content m) } }
  else { s with boot := { s.boot with settings := mupd s.boot.settings i {} (fun r => writeRec r content m) } }

/-- A record's write whose read-back does not verify leaves the copy written invalid; the other copy stands (R69). -/
def tornRec (r : SetRec) : SetRec :=
  if r.a.valid && !selectedB r then { r with b := { r.b with valid := false } } else { r with a := { r.a with valid := false } }

/-- A settings write that fails to verify. -/
def tornSetting (i : Nat) (s : State) : State :=
  if testRoot s then { s with boot := { s.boot with debugSettings := mupd s.boot.debugSettings i {} tornRec } }
  else { s with boot := { s.boot with settings := mupd s.boot.settings i {} tornRec } }

/-- SETTINGS_WRITE_FAIL of a record. -/
def settingFault (i : Nat) (s : State) : State := raise 0x0C 0 0 i 0x0C11 1 (wd i) s

/-- Write a runtime settings record and read it back: it counts as done only where it verifies (R68). After entry to RIDE no setting is
written (R514). -/
def storeSetting (i : Nat) (content : List Word) (ok : Bool) (s : State) : State :=
  if ok || s.power.stage = .ride then writeSetting i content s else settingFault i (tornSetting i s)

/-- Whether the record that the block writes next of its own accord reads back: what the NOR does is open, a free value. -/
def readsBack (s : State) : Bool := Config.readsBack s.free

/-- Write a runtime settings record of the block's own accord, and read it back (R68). -/
def ownSetting (i : Nat) (content : List Word) (s : State) : State := storeSetting i content (readsBack s) (takeFree s)

/-- A runtime settings record by its number in the order of R68. -/
def settingRec (s : State) (i : Nat) : SetRec :=
  if testRoot s then mgetD s.boot.debugSettings i {} else mgetD s.boot.settings i {}

/-- The copy of a record that a read takes. -/
def settingCopy (r : SetRec) : SetCopy := if selectedB r then r.b else r.a

/-- The content of a record, if a copy is valid. -/
def readSetting (s : State) (i : Nat) : Option (List Word) :=
  let c := settingCopy (settingRec s i)
  if c.valid then some c.content else none

/-! ## Halter -/

/-- From the start of S2 to the end of Halter new frames pass to the keeper (Table 15.4). -/
def keeperPath (s : State) : Bool := s.halter.stage ≠ .outside && s.halter.stage ≠ .s1

/-- The macros of 64 KiB in the retention banks 0 to 7 (Table 15.3). -/
def bankMacros : List Nat := [128, 128, 128, 128, 384, 384, 32, 512]

/-- The first macro of a bank; 1,824 past the last (R457). -/
def macroBase (b : Nat) : Nat := (bankMacros.take b).foldl (· + ·) 0

/-- The bank of a macro. -/
def macroBank (m : Nat) : Nat := ((List.range 8).find? fun b => m < macroBase (b + 1)).getD 8

/-- What a retention bank holds (Table 15.3). -/
def bankContent (s : State) (b : Nat) : BankContent :=
  if b < 4 then .mac (mgetD s.rules.mac b {})
  else match b with
  | 4 => .lpm s.rules.lpm
  | 5 => .rule s.rules.versions
  | 6 => .pktCfg s.rules.bank s.rules.prev
  | _ => .tmCtx s.tm.queues s.tm.profiles s.tm.quotas s.tm.groups s.tm.nodes s.tm.gates

/-- The signature of a macro: the CRC-64 over its contents (R457). -/
def macroSig (s : State) (m : Nat) : BitVec 64 :=
  crc64 ((Config.macroImage (bankContent s (macroBank m)) (m - macroBase (macroBank m))).take 65536)

/-- The keeper holds the signature of every macro (R457, R459). -/
def signAll (s : State) : State :=
  { s with halter := { s.halter with sigs := (List.range 1824).map fun m => (m, macroSig s m) } }

/-- A wake event is noted, the first one counting; in Halter its instant is kept (R454). -/
def noteWake (cause : Nat) (s : State) : State :=
  if s.halter.stage = .outside || s.halter.wake.isSome then s
  else { s with halter := { s.halter with wake := some cause, since := if s.halter.stage = .halter then s.mono else s.halter.since } }

/-! ## Slots -/

/-- The ranges of slot numbers (Table 10.1). -/
def isGeneral (n : Nat) : Bool := n < 0x10000
def isPonSlot (n : Nat) : Bool := 0x10000 ≤ n && n < 0x20000
def isControl (n : Nat) : Bool := 0x20000 ≤ n && n < 0x20400
def isHideSlot (n : Nat) : Bool := 0x20100 ≤ n && n < 0x20200
def isWorldS (n : Nat) : Bool := 0x20200 ≤ n && n < 0x20400
def inRange (n : Nat) : Bool := n < 0x20400

/-- A slot of world S, which holds a module key. Which key stands at which number, and what the slot shows of it but its WORLD, its ORIGIN and that
only MGMT and ENGINE reach it, the spec leaves open: free values (R315, R318; log entry 161). -/
def moduleSlot (n : Nat) : Slot :=
  let m := Config.moduleSlot n
  { attr := { world := 0x0200, life := fld m 5 0, masters := 8 * fld m 6 6 + 32 * fld m 7 7, usage := fld m 11 8, neverExport := bit m 12,
              persist := bit m 13, ktype := fld m 15 14, origin := 6 },
    gen := fld m 31 16, valid := true, body := Config.moduleBody n }

/-- A slot whose key is erased: the generation rises with a key, and the attributes stay but for ORIGIN (R316, R319). EXPORTED stays until the
slot is next written (R340). -/
def emptySlot (x : Slot) : Slot :=
  { x with body := [], gen := if x.valid then (x.gen + 1) % 65536 else x.gen, valid := false, old := none,
           attr := { x.attr with origin := 0 } }

/-- A slot of world S after what alarms have erased (Table 10.11). -/
def moduleNow (keys n : Nat) : Slot :=
  if keys = 0 || (keys = 1 && (moduleSlot n).attr.persist) then moduleSlot n else { emptySlot (moduleSlot n) with stored := false }

/-- A slot, empty with the reset attributes where nothing has been written (R316). -/
def slotAt (s : State) (n : Nat) : Slot := mgetD s.vault.slots n (if isWorldS n then moduleNow s.vault.keysS n else {})

/-- A slot is persistent: its attributes say so, or it is one of the control slots 0x20000 to 0x200FF (R320). -/
def isPersistent (n : Nat) (a : Attr) : Bool := a.persist || (0x20000 ≤ n && n < 0x20100)

/-- The copy of a record that a read takes: the valid one with the higher sequence (R68). -/
def norCopy (r : NorRec) : Option NorCopy :=
  match r.a, r.b with
  | some x, some y => if x.sequence < y.sequence then some y else some x
  | some x, none => some x
  | none, y => y

/-- Write a slot's record: the copy that a read does not take gets sequence + 1 and the slot, its body wrapped under the STORE key; where it does
not verify, that copy is not valid (R68, R320). -/
def writeNor (x : Slot) (ok : Bool) (r : NorRec) : NorRec :=
  let c : Option NorCopy :=
    if ok then some ⟨((norCopy r).map NorCopy.sequence).getD 0 + 1, { x with old := none }, Config.wrap (storeKey false) x.body⟩ else none
  if norCopy r = r.a && r.a.isSome then { r with b := c } else { r with a := c }

/-- Whether what is written into a slot takes effect: a persistent slot's record must read back, which `ok` says; under the test root no record is
written (R320, R331). -/
def lands (s : State) (n : Nat) (a : Attr) (ok : Bool) : Bool := !isPersistent n a || testRoot s || ok

/-- Put a slot's new content, with its record where it is persistent: without read-back the previous content stays (R320). -/
def keepSlot (n : Nat) (x : Slot) (ok : Bool) (s : State) : State :=
  let records := isPersistent n x.attr && !testRoot s
  let nor := if records then mset s.vault.nor n (writeNor x ok (mgetD s.vault.nor n {})) else s.vault.nor
  let slots := if lands s n x.attr ok then mset s.vault.slots n { x with stored := (mget nor n).isSome } else s.vault.slots
  { s with vault := { s.vault with slots := slots, nor := nor } }

/-- Alter a slot. -/
def updSlot (n : Nat) (f : Slot → Slot) (s : State) : State :=
  { s with vault := { s.vault with slots := mset s.vault.slots n (f (slotAt s n)) } }

/-- The key that a slot's body holds: bits [127:0] for KTYPE 0, the 97 bytes of a public key, else bits [255:0]; in a control slot the first
bytes of the body (R316, Table 10.2). -/
def slotBytes (s : State) (n : Nat) : List Byte :=
  let x := slotAt s n
  let k := if x.attr.ktype = 0 then 16 else if x.attr.ktype = 2 then 97 else 32
  if isControl n then x.body.take k else x.body.drop (x.body.length - k)

/-! ## Fabric sides -/

/-- Put a frame in a side's queue of frames to send in cells. -/
def queueCells (side : Nat) (t : TxFrame) (s : State) : State :=
  if side = 0 then { s with link := { s.link with a := { s.link.a with queue := s.link.a.queue ++ [t] } } }
  else { s with link := { s.link with b := { s.link.b with queue := s.link.b.queue ++ [t] } } }

end Sys2Proof.Machine
end

