-- ==== Sys2Proof/Machine/Reset.lean ====
section
/-! DEFINITION. Module reset and power-down: what each keeps (R320, R331, R487, R490, R511, R514, R517). -/

namespace Sys2Proof.Machine

/-- The slots after a reset: persistent slots are restored from their records, unless the test root is in use; the others are empty and keep
their attributes, and generations stand (R320, R331). -/
def slotsAfterReset (test : Bool) (nor : Map Nat NorRec) (m : Map Nat Slot) : Map Nat Slot :=
  mmap m fun n x =>
    match norCopy (mgetD nor n {}) with
    | some c => if test then { x with body := [], valid := false, old := none, attr := { x.attr with origin := 0 } }
        else { c.slot with stored := true, exported := x.exported && x.gen = c.slot.gen }
    | none => { x with body := [], valid := false, old := none, stored := false, attr := { x.attr with origin := 0 } }

/-- The test root is in use after a reset (R331). -/
def rootAfter (powerUp : Bool) (v : VaultSt) : Bool :=
  v.life = .blank || v.life = .returned || v.life = .fieldDebug || (!powerUp && v.token)

/-- The secure island after a reset. OTP rows, the counter records, terminal MSKs, the pending authority and
the alarm counts are persistent; a debug token lasts until the next power-up (R331). -/
def vaultAfterReset (powerUp : Bool) (v : VaultSt) : VaultSt :=
  { slots := slotsAfterReset (rootAfter powerUp v) v.nor v.slots, nor := v.nor, lifeRows := v.lifeRows, epochRows := v.epochRows,
    counter := v.counter, debugCounter := v.debugCounter, pendingKey := v.pendingKey, msk := v.msk,
    counts := v.counts, scrapPending := v.scrapPending, under := powerUp,
    keysS := if v.life = .scrapped then 2 else 0,
    token := !powerUp && v.token, tokensRefused := !powerUp && v.tokensRefused, wasDebug := v.wasDebug,
    tokenFails := if powerUp then 0 else v.tokenFails }

/-- The counter TORN_SLOTS. -/
def cTornSlots : Nat := cid 17 7 12

/-- The counters after a reset: the torn slots are found again as the store is read (R491). -/
def countersAfterReset (s : State) : CounterSt :=
  let n := (s.evr.store.filter Record.torn).length
  { start := s.mono, named := if n = 0 then [] else [({ cid := cTornSlots }, n)] }

/-- The content of a runtime settings record as it stands in an area of the NOR: the debug settings area or the production
records (R68, R335); no words where neither copy is valid. -/
def storedSetting (b : BootSt) (debug : Bool) (i : Nat) : List Word :=
  let c := settingCopy (mgetD (if debug then b.debugSettings else b.settings) i {})
  if c.valid then c.content else []

/-- A counter record as it is stored (R327). -/
def storedCounterRec (ws : List Word) : Nat × Nat := ((nthW ws 0).toNat, join64 (nthW ws 1) (nthW ws 2))

/-- The secure island's values that are runtime settings, read back from their records: the counter records and the alarm counts
(R68, R69, R349). -/
def rereadVault (b : BootSt) (debug : Bool) (v : VaultSt) : VaultSt :=
  let counts := storedSetting b debug 5
  { v with counter := storedCounterRec (storedSetting b false 1), debugCounter := storedCounterRec (storedSetting b true 1),
           counts := (List.range counts.length).map fun k => (k, (nthW counts k).toNat) }

/-- The recorder's values that are runtime settings, read back from their records: the persisted operating seconds with their
mark, the power cycles and the erase count (R68, R488, R489, R495). -/
def rereadRecorder (b : BootSt) (debug : Bool) (e : RecSt) : RecSt :=
  let secs := storedSetting b debug 6
  { e with persisted := join64 (nthW secs 0) (nthW secs 1), clean := bit (nthW secs 2) 0,
           powerCycles := (nthW (storedSetting b debug 7) 0).toNat, eraseCount := (nthW (storedSetting b debug 8) 0).toNat,
           queue := [], gap := false }

/-- The failure marks of the boot copies as their record holds them (R64, R68, R80). -/
def rereadMarks (b : BootSt) (debug : Bool) : Map Nat Copy :=
  mmap b.copies fun k x => { x with failed := (nthW (storedSetting b debug 4) 0).getLsbD k }

/-- What every reset keeps: the log of outputs and the commands that wait, the stored records, settings and image
copies, the OTP rows and the persistent slots. What is a runtime setting is read back from its record. Everything else takes its
reset value. -/
def keepStored (powerUp : Bool) (s : State) : State :=
  { pending := s.pending, out := s.out, mono := s.mono, free := s.free,
    boot := { copies := rereadMarks s.boot (rootAfter powerUp s.vault), settings := s.boot.settings, debugSettings := s.boot.debugSettings,
              cause := s.boot.cause, zero := s.mono, ahead := 20 * ms, phase := .off, state := .booting },
    evr := rereadRecorder s.boot (rootAfter powerUp s.vault) s.evr,
    vault := rereadVault s.boot (rootAfter powerUp s.vault) (vaultAfterReset powerUp s.vault),
    pat := { nextHours := s.pat.nextHours },
    ctr := countersAfterReset s,
    power := s.power }

/-- The outputs of the islands take their reset states; PWR_OK is the power stage's (R519, Table 18.8). -/
def pinsReset (s : State) : State := forBelow 64 (fun n s => emit (.pin "TXDIS" n 1) s) (emit (.pin "ALERT_L" 0 1) s)

/-- Report an error of a unit, where its condition stands. -/
def reportIf (on : Bool) (inst res code : Nat) (detail : Word) (s : State) : State :=
  if on then raise (code / 256) 0 inst res code 1 detail s else s

/-- The DETAIL of TEMP_HIGH: rail and temperature. -/
def tempDetail (p : PowerSt) : Word := pack [(p.tjSensor, 16, 16), (unsigned 16 p.tjMax, 16, 0)]

/-- The faults of the power stage and the references that stand are reported to the fault manager that a reset has emptied.
DESIGN CHOICE: log entry 168. -/
def standingFaults (s : State) : State :=
  let p := s.power
  let feed (f : Nat) (x : Feed) (s : State) : State :=
    reportIf x.fault.isSome 0 f 0x0E10 (pack [(f, 16, 16), (x.fault.getD 0, 16, 0)]) <|
      reportIf x.outSince.isSome 0 f 0x0E12 (wd f) (reportIf x.excluded 0 f 0x0E13 (wd f) s)
  forBelow 4 (fun r s => reportIf (!(mgetD p.refs r {}).valid) r 0 0x0B20 (wd r) s) <|
    reportIf p.tempHigh 0 0 0x0E16 (tempDetail p) (reportIf p.flap 0 0 0x0E14 (wd p.recent.length) (feed 1 p.b (feed 0 p.a s)))

/-- A module reset: every island but the keeper island and the power stage is reset, and boot runs from the ROM's
row of Table 2.10, its offsets reduced by 20 ms, with the cause given (R81, R517). A high TEST_MODE holds the islands in
reset (R507). -/
def moduleReset (cause : Nat) (s : State) : State :=
  let r := keepStored false s
  standingFaults (pinsReset { r with
    boot := { r.boot with cause := cause, phase := if s.power.testMode then .off else .rom },
    power := { r.power with alert := false } })

/-- The pins take their unpowered states (R519, Table 18.8). -/
def pinsUnpowered (s : State) : State := pinsReset (emit (.pin "PWR_OK" 0 0) s)

/-- Power-down (R514): the rails go off, PWR_OK is pulled low and the outputs take their unpowered states. The
power stage starts again from its reset values but for the feeds' own voltages and validity (R511). -/
def powerDown (s : State) : State :=
  let r := keepStored true s
  pinsUnpowered { r with
    power := { stage := .off, a := { s.power.a with excluded := false, outSince := none, goodSince := none, fault := none },
               b := { s.power.b with excluded := false, outSince := none, goodSince := none, fault := none },
               seated := s.power.seated, perstLow := s.power.perstLow, testMode := s.power.testMode, refs := s.power.refs,
               tjMax := s.power.tjMax, tjSensor := s.power.tjSensor, tCase := s.power.tCase, entered := s.mono,
               shutdown := s.power.shutdown }
    evr := { r.evr with unaccounted := !r.evr.clean } }

end Sys2Proof.Machine
end

