-- ==== Sys2Proof/Machine/Obric.lean ====
section
/-! DEFINITION. The Obric command processor: fetching, the order of refusals (R549), staging, execution and
replies. What each opcode does is its family's handler, given here as an argument. -/

namespace Sys2Proof.Machine

/-- The status codes of Table 2.8. -/
inductive Status where
  | ok | badOpcode | badLength | badTarget | badParam | badReserved | badWorld | notPermitted | noSpace
  | notFound | exists | badSequence | staleEpoch | epochBusy | prepareFailed | stageConflict | actTooSoon
  | tooLate | busySafe | queueActive | dmaError | unitTimeout | unitFailed | imageInvalid | imageOld
  | badSignature | badCounter | badDevice | counterEnd | locked | noBandwidth | versionBusy | aborted
deriving DecidableEq, Repr

/-- The code of a status (Table 2.8). -/
def statusCode : Status → Nat
  | .ok => 0x00 | .badOpcode => 0x01 | .badLength => 0x02 | .badTarget => 0x03 | .badParam => 0x04
  | .badReserved => 0x05 | .badWorld => 0x06 | .notPermitted => 0x07 | .noSpace => 0x08 | .notFound => 0x09
  | .exists => 0x0A | .badSequence => 0x0B | .staleEpoch => 0x0C | .epochBusy => 0x0D | .prepareFailed => 0x0E
  | .stageConflict => 0x0F | .actTooSoon => 0x10 | .tooLate => 0x11 | .busySafe => 0x12 | .queueActive => 0x13
  | .dmaError => 0x14 | .unitTimeout => 0x15 | .unitFailed => 0x16 | .imageInvalid => 0x17 | .imageOld => 0x18
  | .badSignature => 0x19 | .badCounter => 0x1A | .badDevice => 0x1B | .counterEnd => 0x1C | .locked => 0x1D
  | .noBandwidth => 0x1E | .versionBusy => 0x1F | .aborted => 0x20

/-- The masters of Table 0.7 that can send a command packet. -/
inductive Master where
  | pf | vf (n : Nat) | inband
deriving DecidableEq, Repr

/-- What a handler sees of an accepted command. `words` are the command's own parameter words, `atPrepare` says
that a staged command is being accepted, not applied: what R73 leaves to EPOCH_PREPARE is then not judged. `again` says that a staged
command that was accepted runs again. -/
structure Ctx where
  q : Nat
  master : Master
  world : Nat
  inst : Nat
  unit : Nat
  words : List Word
  data : List Byte := []
  hasData : Bool := false
  hasBuf : Bool := false
  bufLen : Nat := 0
  answers : List Nat := []
  accepting : Bool := false
  again : Bool := false
  pkt : Packet := {}
deriving DecidableEq, Repr

/-- A parameter word, 0 beyond the last (R44). -/
def Ctx.w (c : Ctx) (i : Nat) : Word := nthW c.words i

/-- What follows a reply: the resets of R81 and Table 10.3. -/
inductive AfterReply where
  | firmwareRestart
  | moduleReset (cause : Nat)
deriving DecidableEq, Repr

/-- What a handler answers: a refusal without effect; success with result words, and with data for the result
buffer; an end with another status that keeps its effect; a reply followed by a reset (`force` writes it whatever
NO_REPLY holds); or a command that goes on until an event ends it. -/
inductive HRes where
  | refuse (st : Status) (words : List Word)
  | done (s : State) (words : List Word)
  | doneBuf (s : State) (words : List Word) (data : List Byte)
  | ended (s : State) (st : Status) (words : List Word)
  | last (s : State) (words : List Word) (after : AfterReply) (force : Bool)
  | wait (s : State) (data : List Nat)

/-- Refuse on a ground, else go on. -/
def refuseIf (c : Bool) (st : Status) (ws : List Word) (k : HRes) : HRes := if c then .refuse st ws else k

/-- How an opcode meets FLAGS.STAGED (R72): it writes configuration that can be staged; it must be staged; it is
refused with it; or it writes no configuration, so that the flag is checked and changes nothing. -/
inductive StageRule where
  | stageable | only | refused | plain
deriving DecidableEq, Repr

/-- An opcode of Table 2.7: its code and column VF; whether it writes configuration (R48) and whether it reaches
objects of world O only (R10, R50); the complex and unit that execute it and the other nonzero units that do (R46, R546);
the instance that the parameters name where INSTANCE is ignored, and whether INSTANCE may name all; its LENGTH (R44), as a test of its parameter words; the reserved
fields of its parameters (R8), as the index of the first word that breaks them; its objects (R72), its handler. -/
structure OpSpec where
  code : Nat
  vf : Bool := false
  fast : Bool := false
  writes : Bool := true
  oWorld : Bool := false
  home : Nat × Nat
  units : List (Nat × Nat) := []
  instOf : Option (List Word → Nat) := none
  instAll : Bool := false
  len : List Word → Bool
  rsv : List Word → Option Nat := fun _ => none
  stage : StageRule := .plain
  objs : List Word → List (Nat × Nat) := fun _ => []
  run : Ctx → State → HRes

/-- A LENGTH of exactly `n` parameter words. -/
def exactly (n : Nat) (ws : List Word) : Bool := ws.length = n

/-- Reserved fields given by one mask for each word. -/
def masks (ms : List Word) (ws : List Word) : Option Nat := reservedAt ms ws

/-! ## The header -/

def flagEpochCheck (p : Packet) : Bool := p.flags.getLsbD 0
def flagNoReply (p : Packet) : Bool := p.flags.getLsbD 1
def flagData (p : Packet) : Bool := p.flags.getLsbD 2
def flagResultBuf (p : Packet) : Bool := p.flags.getLsbD 3
def flagStaged (p : Packet) : Bool := p.flags.getLsbD 4
def flagInbandMac (p : Packet) : Bool := p.flags.getLsbD 5

/-- The words that the descriptors occupy (R45). -/
def descWords (p : Packet) : Nat := 4 * (b2n (flagData p) + b2n (flagResultBuf p))

/-- The parameter words that LENGTH counts. -/
def paramWords (p : Packet) : List Word := p.params.take (p.length.toNat - 8)

/-- The command's own parameter words. -/
def ownWords (p : Packet) : List Word := (paramWords p).drop (descWords p)

/-- The queue that a packet travels in: its pair, or 64 for the in-band queue (R60). -/
def queueOf (p : Packet) : Nat := match p.src with | .pair n => n | .inband _ => 64

/-- The master of a packet (Table 0.7). -/
def masterOf (p : Packet) (s : State) : Master :=
  match p.src with
  | .inband _ => .inband
  | .pair n => if (pairAt s n).bound = 0 then .pf else .vf (pairAt s n).bound

/-- The eight header words as bytes, with the OPCODE (Table 2.3). -/
def headerWords (op : Nat) (p : Packet) : List Word :=
  [pack [(p.tag.toNat, 16, 16), (op, 16, 0)], pack [(p.flags.toNat, 16, 16), (p.length.toNat, 16, 0)],
   pack [(p.inst.toNat, 16, 16), (p.unit.toNat, 8, 8), (p.cplx.toNat, 8, 0)],
   pack [(p.rsv3.toNat, 16, 16), (p.world.toNat, 16, 0)], pack [(p.rsv4.toNat, 16, 16), (p.epochExp.toNat, 16, 0)],
   lo32 p.seq.toNat, hi32 p.seq.toNat, p.rsv7]

/-- The opcode group of an opcode. -/
def groupOf (op : Nat) : Nat := op / 4096

/-- The opcode groups that a complex executes (Table 2.5). -/
def groupsOf (cplx : Nat) : List Nat :=
  match cplx with
  | 0x01 => [1] | 0x02 => [1] | 0x03 => [2] | 0x04 => [3, 4] | 0x05 => [4] | 0x06 => [5] | 0x07 => [6]
  | 0x08 => [6] | 0x09 => [7] | 0x0A => [8] | 0x0B => [9] | 0x0C => [0x0, 0xB, 0xF] | 0x0D => [0xA]
  | 0x0E => [0xA] | _ => []

/-- The range of INSTANCE for a complex and unit (Table 2.20). -/
def instOk (cplx unit inst : Nat) : Bool :=
  match cplx with
  | 0x01 => inst < 64
  | 0x02 => inst < 64
  | 0x03 => if unit = 0 then inst < 8 else inst = 0
  | 0x04 => if unit = 0 || unit = 5 then inst = 0 else inst < 4
  | 0x05 => inst < 4
  | 0x07 => inst < 4
  | 0x0A => if unit = 0 then inst < 80 || (128 ≤ inst && inst < 192) else if unit = 1 then inst < 4 else inst < 2
  | _ => inst = 0

/-- The complex that a command reaches: COMPLEX, or the home of its opcode (Table 2.3, R46). -/
def complexOf (op : OpSpec) (p : Packet) : Nat := if p.cplx = 0 then op.home.1 else p.cplx.toNat

/-- The unit that executes the command: UNIT, or its opcode's own (R546). -/
def unitOf (op : OpSpec) (p : Packet) : Nat :=
  if p.unit ≠ 0 then p.unit.toNat else if complexOf op p = op.home.1 then op.home.2 else 0

/-- The slices FS_0 to FS_3 as units (Table 2.20). -/
def sliceUnits : List (Nat × Nat) := [(0x04, 1), (0x04, 2), (0x04, 3), (0x04, 4)]

/-- The target path fits the opcode (R46, R546). -/
def targetOk (op : OpSpec) (p : Packet) : Bool :=
  (p.cplx = 0 || (groupsOf p.cplx.toNat).contains (groupOf op.code))
  && (p.unit = 0 || (complexOf op p, p.unit.toNat) = op.home || op.units.contains (complexOf op p, p.unit.toNat))
  && (op.instOf.isSome || (op.instAll && p.inst = 0xFFFF#16) || instOk (complexOf op p) (unitOf op p) p.inst.toNat)

/-- A world code that a command may name: O or a tenant (Table 2.5). -/
def worldCode (w : Nat) : Bool := w ≤ 0xFF || w = 0x0100

/-- The WORLD of the packet is permitted to its queue (R50, R60). -/
def worldOk (op : OpSpec) (p : Packet) (s : State) : Bool :=
  worldCode p.world.toNat
  && (match masterOf p s with | .vf _ => p.world.toNat = (pairAt s (queueOf p)).world | _ => true)
  && (!op.oWorld || p.world.toNat = 0x0100)

/-- The opcodes of R54 that run in the safe state. -/
def safeOps : List Nat := [0xB006, 0x5005, 0x9001, 0x0003, 0x0002, 0xB001, 0xB003]

/-- The opcodes that the ROM serves in RECOVERY (R65). -/
def recoveryOps : List Nat := [0x0002, 0x0003, 0x000A, 0x0009, 0x000C]

/-- The opcodes that a part in SCRAPPED accepts (R322). -/
def scrappedOps : List Nat := [0x0002, 0x0003, 0x600E, 0xB003]

/-- The opcode groups of INBAND under a setting: never 0x6 and 0xF, group 0x0 only NOP, IDENTIFY and STATUS_READ (R60). -/
def inbandMay (op : Nat) (set : InbandSet) : Bool :=
  set.groups.testBit (groupOf op) && groupOf op ≠ 6 && groupOf op ≠ 15 && (groupOf op ≠ 0 || op ≤ 3)

/-- Step 2 of R549: SEQ. -/
def seqGround (p : Packet) (s : State) : Option (Status × List Word) :=
  match p.src with
  | .pair n =>
    match (pairAt s n).seqExp with
    | some e => if p.seq = e then none else some (.badSequence, [lo32 e.toNat, hi32 e.toNat])
    | none => none
  | .inband _ =>
    if p.seq.toNat ≤ s.host.inHigh then some (.badCounter, [lo32 s.host.inHigh, hi32 s.host.inHigh]) else none

/-- Step 3 of R549: the first reserved header word that is not 0 (Tables 2.3 and 2.4). -/
def headerGround (p : Packet) : Option Nat :=
  if p.flags.toNat / 64 ≠ 0 || (flagInbandMac p && (match p.src with | .pair _ => true | .inband _ => false)) then some 1
  else if p.rsv3 ≠ 0 then some 3
  else if p.rsv4 ≠ 0 then some 4
  else if p.rsv7 ≠ 0 then some 7
  else none

/-- Step 6 of R549: the opcode and the master or the life-cycle state (R50, R54, R56, R60, R65, R322). No packet of Table
0.7's masters comes from DEBUG, so that a vendor opcode outside DEPLOYED is never permitted. R65 names no status for a command
that the ROM does not serve in RECOVERY; the model answers NOT_PERMITTED (DESIGN CHOICE: log entry 155). -/
def masterGround (op : OpSpec) (p : Packet) (s : State) : Option (Status × List Word) :=
  if s.vault.life = .scrapped && !scrappedOps.contains op.code then some (.locked, [])
  else if 0xF000 ≤ op.code then some (if s.vault.life = .deployed then .locked else .notPermitted, [])
  else if s.boot.state = .recovery && !recoveryOps.contains op.code then some (.notPermitted, [])
  else match masterOf p s with
    | .pf => none
    | .vf _ => if op.vf then none else some (.notPermitted, [])
    | .inband => if inbandMay op.code p.inband then none else some (.notPermitted, [])

/-- The epoch states' codes (R43). -/
def phaseCode : EpochPhase → Nat
  | .none => 0 | .staged => 1 | .prepared => 2 | .armed => 3 | .draining => 4

/-- An epoch is staged, prepared or armed. -/
def committing (s : State) : Bool :=
  s.epoch.phase = .staged || s.epoch.phase = .prepared || s.epoch.phase = .armed

/-- Step 10 of R549: FLAGS.EPOCH_CHECK and FLAGS.STAGED (R72). -/
def epochGround (p : Packet) (s : State) : Option (Status × List Word) :=
  if flagEpochCheck p && p.epochExp ≠ s.epoch.current then
    some (.staleEpoch, [pack [(s.epoch.current.toNat, 16, 0)]])
  else if flagStaged p then
    if !committing s || p.epochExp ≠ s.epoch.staged then
      some (.staleEpoch, [pack [(if committing s then s.epoch.staged.toNat else 0, 16, 16), (s.epoch.current.toNat, 16, 0)],
        wd (phaseCode s.epoch.phase)])
    else if s.epoch.phase ≠ .staged then some (.epochBusy, [])
    else none
  else none

/-- Step 11 of R549: the reserved words of the descriptors and of the parameters; the index counts from the
header's first word. -/
def paramGround (op : OpSpec) (p : Packet) : Option Nat :=
  let d := descWords p
  if 4 ≤ d && nthW (paramWords p) 3 ≠ 0 then some 11
  else if 8 ≤ d && nthW (paramWords p) 7 ≠ 0 then some 15
  else (op.rsv (ownWords p)).map (· + (8 + d))

/-- The bytes of a packet's result buffer. -/
def bufLenOf (p : Packet) : Nat :=
  if flagResultBuf p then (nthW (paramWords p) (if flagData p then 6 else 2)).toNat else 0

/-- What a packet's descriptors and header give a handler. -/
def ctxOf (op : OpSpec) (p : Packet) (s : State) : Ctx :=
  let ws := paramWords p
  { q := queueOf p, master := masterOf p s, world := p.world.toNat, inst := p.inst.toNat, unit := unitOf op p,
    words := ownWords p,
    data := if flagData p then p.env.data.take (nthW ws 2).toNat else [],
    hasData := flagData p, hasBuf := flagResultBuf p,
    bufLen := bufLenOf p,
    answers := p.env.answers, pkt := p }

/-- Every slice executes the command: it names none. -/
def everySlice (op : OpSpec) (p : Packet) : Bool := op.home = (0x04, 1) && p.unit = 0

/-- The instances that a packet names: the one that its parameters name where INSTANCE is ignored, else INSTANCE, or all of the unit's. -/
def instsOf (op : OpSpec) (p : Packet) : List Nat :=
  match op.instOf with
  | some f => [f (ownWords p)]
  | none =>
    if p.inst = 0xFFFF#16 then (List.range 256).filter (instOk (complexOf op p) (unitOf op p)) else [p.inst.toNat]

/-- The units that execute a packet, each as COMPLEX, UNIT and INSTANCE (R46, R546). -/
def unitsOf (op : OpSpec) (p : Packet) : List (Nat × Nat × Nat) :=
  (if everySlice op p then sliceUnits else [(complexOf op p, unitOf op p)]).flatMap fun u => (instsOf op p).map fun i => (u.1, u.2, i)

/-- The command is addressed to a unit out of service (R46, R469). A command that every slice executes, and that names none, is not. -/
def toFailed (op : OpSpec) (p : Packet) (s : State) : Bool :=
  !everySlice op p && (unitsOf op p).any s.flt.failed.contains

/-- Steps 1 to 12 of R549 and the units out of service (R469): the first ground for refusal. -/
def judge (op : OpSpec) (p : Packet) (s : State) : Option (Status × List Word) :=
  if p.length.toNat < 8 || 4096 < p.length.toNat then some (.badLength, [])
  else match seqGround p s with
  | some g => some g
  | none =>
    match headerGround p with
    | some i => some (.badReserved, [wd i])
    | none =>
      if (paramWords p).length < descWords p || !op.len (ownWords p) then some (.badLength, [])
      else match masterGround op p s with
      | some g => some g
      | none =>
        if !worldOk op p s then some (.badWorld, [])
        else if (s.boot.state = .safe || s.flt.frozen || s.boot.restarting) && !safeOps.contains op.code then
          some (.busySafe, [])
        else if !targetOk op p then some (.badTarget, [])
        else match epochGround p s with
        | some g => some g
        | none =>
          match paramGround op p with
          | some i => some (.badReserved, [wd i])
          | none =>
            if flagData p && !p.env.dataOk then some (.dmaError, [wd 0])
            else if toFailed op p s then some (.unitFailed, [])
            else none

/-! ## Replies -/

/-- The reply to a packet. A reply with status OK is left out under FLAGS.NO_REPLY. An in-band reply leaves in cells on
the side of its command, with a trailer under the key of its packet's (R60, R407). It enters no reply queue, and the spec gives
its PHASE no meaning; the model sets it (DESIGN CHOICE: log entry 155). -/
def replyTo (p : Packet) (st : Status) (ws : List Word) (count : Nat) (s : State) : State :=
  if st = .ok && flagNoReply p then s
  else
    let r : Reply := { tag := p.tag, status := statusCode st, epoch := s.epoch.current, count := count, words := ws,
                       seq := p.seq, dmaOk := p.env.replyOk }
    match p.src with
    | .pair n => postReply n r s
    | .inband side =>
      let body := replyWords r true
      let mac := Config.cmac p.inband.key (bytesOfWords body)
      queueCells side { kind := 3, card := s.link.card, pri := 0, bytes := bytesOfWords body ++ beBytes 16 mac.toNat }
        (emit (.inbandReply side body mac) s)

/-- The host address of the result descriptor. -/
def resultAddr (p : Packet) : Nat :=
  let i := if flagData p then 4 else 0
  join64 (nthW (paramWords p) i) (nthW (paramWords p) (i + 1))

/-- Write bytes to the result buffer with the requester of the packet. -/
def toBuffer (p : Packet) (bs : List Byte) (s : State) : State :=
  emit (.dma (match masterOf p s with | .vf n => n | _ => 0) (resultAddr p) bs) s

/-- The reset that follows a reply (R81): a firmware restart shows BOOTING while every other island keeps its state. -/
def afterReply (a : AfterReply) (s : State) : State :=
  match a with
  | .firmwareRestart => { s with boot := { s.boot with state := .booting, restarting := true, started := s.mono } }
  | .moduleReset cause => moduleReset cause s

/-- The answer of a handler turned into the reply and its effect (R47, R57). A failed write of the result buffer
ends the command with DMA_ERROR and the index of the descriptor; the command has then been executed, and what it did stands, since R57 takes
the effect from a refused command only (DESIGN CHOICE: log entry 185). Where the buffer is too small for data and not for result
words, R47 gives NO_SPACE no result word 0; the model gives the data's length in words (DESIGN CHOICE: log entry 155). -/
def answer (p : Packet) (hasBuf : Bool) (bufLen : Nat) (r : HRes) (s : State) : State :=
  let bufIdx := wd (b2n (flagData p))
  match r with
  | .refuse st ws => replyTo p st ws (min 13 ws.length) s
  | .ended s' st ws => replyTo p st ws (min 13 ws.length) s'
  | .done s' ws =>
    if ws.length ≤ 13 then replyTo p .ok ws ws.length s'
    else if !hasBuf || bufLen < 4 * ws.length then replyTo p .noSpace [wd ws.length] 1 s
    else if !p.env.resultOk then replyTo p .dmaError [bufIdx] 1 s'
    else replyTo p .ok [] (min 31 ws.length) (toBuffer p (bytesOfWords ws) s')
  | .doneBuf s' ws bs =>
    if !hasBuf || bufLen < bs.length then replyTo p .noSpace [wd (ceilDiv bs.length 4)] 1 s
    else if !p.env.resultOk then replyTo p .dmaError [bufIdx] 1 s'
    else replyTo p .ok ws ws.length (toBuffer p bs s')
  | .last s' ws a force =>
    afterReply a (replyTo (if force then { p with flags := p.flags &&& 0xFFFD#16 } else p) .ok ws ws.length s')
  | .wait s' _ => s'

/-- The state that a handler's answer leaves, the reply apart. -/
def HRes.left (s : State) (r : HRes) : State :=
  match r with
  | .refuse _ _ => s
  | .done s' _ => s'
  | .doneBuf s' _ _ => s'
  | .ended s' _ _ => s'
  | .last s' _ _ _ => s'
  | .wait s' _ => s'

/-- The command in progress of a queue ends with what `r` says, or goes on with new numbers; a function-level reset discards
its reply (R41). -/
def finish (q : Nat) (r : State → HRes) (s : State) : State :=
  match (pairAt s q).executing with
  | none => s
  | some x =>
    let s1 := updPair q (fun p => { p with executing := none }) s
    match r s1 with
    | .wait s2 data => updPair q (fun p => { p with executing := some { x with data := data } }) s2
    | a => if x.discard then a.left s1 else answer x.pkt (flagResultBuf x.pkt) (bufLenOf x.pkt) a s1

/-- The queues with a command in progress of an opcode whose numbers pass a test. -/
def executingQ (s : State) (op : Nat) (ok : List Nat → Bool) : List Nat :=
  (s.host.pairs.filter fun e => match e.2.executing with | some x => x.op = op && ok x.data | none => false).map Prod.fst

/-- Every command in progress of an opcode ends, but for those of units that do not answer. -/
def finishAll (op : Nat) (r : State → HRes) (s : State) : State :=
  forEach (executingQ s op fun d => d.length ≠ 4) (fun q s => finish q r s) s

/-! ## Staging (R72, R545) -/

/-- The bytes that a staged command is charged (R545). -/
def stageCharge (p : Packet) : Nat :=
  roundUp 64 (4 * (ownWords p).length) + (if flagData p then roundUp 64 (nthW (paramWords p) 2).toNat else 0)

/-- The staging area of 4 MiB (Table 2.11). -/
def stageArea : Nat := 4194304

/-- The staged commands of which no object is written again by the objects given. -/
def stageKeep (objs : List (Nat × Nat)) (cs : List StagedCmd) : Nat :=
  (cs.map fun c => if c.objs.any objs.contains then 0 else c.charge).foldl (· + ·) 0

/-- Accept a staged command: it is judged, charged and kept for the activation. -/
def stageCommand (op : OpSpec) (p : Packet) (shadow : State) (s : State) : HRes :=
  let c := { ctxOf op p s with accepting := true }
  match op.run c shadow with
  | .refuse st ws => .refuse st ws
  | _ =>
    let objs := op.objs c.words
    if stageArea < stageKeep objs s.epoch.cmds + stageCharge p then .refuse .noSpace []
    else
      let kept := s.epoch.cmds.map fun x => if x.objs.any objs.contains then { x with charge := 0 } else x
      let new : StagedCmd := { op := op.code, pkt := p, objs := objs, charge := stageCharge p }
      .done { s with epoch := { s.epoch with cmds := kept ++ [new] } } []

/-- A write without FLAGS.STAGED to an object that the staged content writes is refused (R72). -/
def stageConflict (op : OpSpec) (p : Packet) (s : State) : Bool :=
  committing s && s.epoch.cmds.any fun x => x.objs.any (op.objs (ownWords p)).contains

/-- The opcodes whose write in Halter clears the keeper's cache beside those that can be staged: MAC, LPM and queue
commands (R449). -/
def clearsCache (op : OpSpec) : Bool :=
  op.writes && (op.stage = .stageable || [0x4001, 0x4002, 0x4004, 0x4006, 0x4007, 0x4008].contains op.code || groupOf op.code = 5)

/-- A handler has answered with success. -/
def HRes.success (r : HRes) : Bool := match r with | .refuse _ _ => false | .ended _ _ _ => false | _ => true

/-- The same answer with its state altered. -/
def HRes.mapState (f : State → State) (r : HRes) : HRes :=
  match r with
  | .refuse st ws => .refuse st ws
  | .done s ws => .done (f s) ws
  | .doneBuf s ws d => .doneBuf (f s) ws d
  | .ended s st ws => .ended (f s) st ws
  | .last s ws a force => .last (f s) ws a force
  | .wait s data => .wait (f s) data

/-- Clear the keeper's cache (R449). -/
def dropCache (s : State) : State := { s with halter := { s.halter with cache := [] } }

/-- What a successful command leaves beside its effect: in Halter and on its way there a table write clears the keeper's cache (R449), and
in Halter a write updates the signatures (R452). -/
def kept (op : OpSpec) (s t : State) : State :=
  let t1 := if clearsCache op && s.halter.stage ≠ .outside then dropCache t else t
  if op.writes && s.halter.stage = .halter then signAll t1 else t1

/-- The reservations of a prepared epoch (R73): with the write applied, the staged content still fits. `shadow` gives the state
with the staged content applied, and whether all of it was accepted. -/
def keepsReserve (shadow : State → State × Bool) (s s1 : State) : Bool :=
  !(s.epoch.phase = .prepared || s.epoch.phase = .armed) || !(shadow s).2 || (shadow s1).2

/-- Run a command on the current configuration. -/
def performNow (op : OpSpec) (p : Packet) (shadow : State → State × Bool) (s : State) : HRes :=
  let r := op.run (ctxOf op p s) s
  if r.success then
    if op.stage = .stageable && !keepsReserve shadow s (r.left s) then .refuse .noSpace []
    else r.mapState (kept op s)
  else r

/-- What the command processor refuses for FLAGS.STAGED or for the staged content, before any unit takes part (R72). -/
def stageGround (op : OpSpec) (p : Packet) (s : State) : Option Status :=
  if flagStaged p then (if op.stage = .refused then some .notPermitted else none)
  else if op.stage = .only then some .notPermitted
  else if op.stage = .stageable && stageConflict op p s then some .stageConflict
  else none

/-- Run an accepted command: into the staged content, or on the current configuration. -/
def perform (op : OpSpec) (p : Packet) (shadow : State → State × Bool) (s : State) : HRes :=
  match stageGround op p s with
  | some st => .refuse st []
  | none =>
    if flagStaged p && (op.stage = .stageable || op.stage = .only) then stageCommand op p (shadow s).1 s
    else performNow op p shadow s

/-! ## Fetching (R40, R41, R48, R49, R547, R548) -/

/-- The entries that a packet occupies (R40). -/
def entriesOf (p : Packet) : Nat := max 1 (ceilDiv (4 * p.length.toNat) 64)

/-- The module serves commands on a queue: every queue in READY, SAFE and HALTER, QP_0 in RECOVERY (R65), and the
commands of R54 during a firmware restart (R81). From the freeze until the status block shows SAFE nothing is fetched (R54). -/
def serving (q : Nat) (s : State) : Bool :=
  !(s.flt.frozen && s.boot.state ≠ .safe) && !s.power.testMode &&
  match s.boot.state with
  | .recovery => q = 0
  | .booting => s.boot.restarting
  | _ => true

/-- An EPOCH_PREPARE is executing (R48). -/
def preparing (s : State) : Bool := s.host.pairs.any fun e => match e.2.executing with | some x => x.op = 0x0005 | none => false

/-- The epoch commands that execute one at a time (R48). -/
def epochOp (op : Nat) : Bool := op = 0x0004 || op = 0x0005 || op = 0x0006 || op = 0x0007

/-- A pair may fetch: it is enabled, bound, without ERROR, with room for replies, and with no command in progress
(R41, R48, R547, R548). The in-band queue has no registers. -/
def canFetch (q : Nat) (s : State) : Bool :=
  let p := pairAt s q
  serving q s && p.executing.isNone &&
    (q = 64 || (p.enable && p.served && p.error = 0 && p.held.isEmpty && !rqFull p))

/-- A command is held back while an EPOCH_PREPARE executes: it writes configuration or is an epoch command (R48). -/
def heldBack (op : OpSpec) (s : State) : Bool := preparing s && (op.writes || epochOp op.code)

/-- The persistent mark after an accepted SEQ has reached it: raised by 65,536 until it lies above that SEQ (R59).
DEDUCED: log entry 60. -/
def raisedMark (mark seq : Nat) : Nat := mark + ((seq - mark) / 65536 + 1) * 65536

/-- The SEQ of an in-band packet reaches the persistent mark, whose record fails to verify when it is raised: the command does
not take effect (R59, R69). -/
def markTorn (p : Packet) (s : State) : Bool :=
  match p.src with
  | .pair _ => false
  | .inband _ => s.host.inHigh < p.seq.toNat && s.host.inMark ≤ p.seq.toNat && !p.env.norOk

/-- Take a packet out of its queue: CQ_HEAD moves on and SEQ + 1 is expected next (R40, R49). An in-band SEQ that
is accepted becomes the highest, and raises the persistent mark where it reaches it (R59), once the mark's record verifies (R69). -/
def takePacket (p : Packet) (s : State) : State :=
  match p.src with
  | .pair n => updPair n (fun x => { x with cqHead := x.cqHead + BitVec.ofNat 12 (entriesOf p), seqExp := some (p.seq + 1) }) s
  | .inband _ =>
    if s.host.inHigh < p.seq.toNat then
      if s.host.inMark ≤ p.seq.toNat then
        let m := raisedMark s.host.inMark p.seq.toNat
        storeSetting 3 [lo32 m, hi32 m] p.env.norOk
          (if p.env.norOk then { s with host := { s.host with inHigh := p.seq.toNat, inMark := m } } else s)
      else { s with host := { s.host with inHigh := p.seq.toNat } }
    else s

/-- Put a command in progress into its queue's state. -/
def setExecuting (p : Packet) (op : Nat) (data : List Nat) (s : State) : State :=
  updPair (queueOf p) (fun x => { x with executing := some { op := op, pkt := p, data := data } }) s

/-- What a command in progress notes of the unit that does not answer (R53): the first of those that execute it. -/
def silentData (op : OpSpec) (p : Packet) : List Nat :=
  let u := (unitsOf op p).headD (complexOf op p, unitOf op p, p.inst.toNat)
  [0, u.1, u.2.1, u.2.2]

/-- Execute a fetched packet: judge it, run its handler and reply. A target unit that does not answer leaves the
command in progress until UNIT_TIMEOUT (R53); what the command processor itself refuses needs no unit. A packet whose in-band
mark is torn ends with ABORTED, since R69 names no status (DESIGN CHOICE: log entry 156). -/
def execute (op : OpSpec) (shadow : State → State × Bool) (p : Packet) (s : State) : State :=
  let s0 := countEvent 0x4C 0x100 p.world.toNat 1 (if op.fast then countEvent 0x4C 0x101 p.world.toNat 1 s else s)
  match judge op p s with
  | some (st, ws) => replyTo p st ws (min 13 ws.length) (takePacket p s0)
  | none =>
    let s1 := takePacket p s0
    if markTorn p s0 then replyTo p .aborted [] 0 s1
    else if p.env.silent && (stageGround op p s1).isNone then
      setExecuting p op.code (silentData op p) s1
    else
      let c := ctxOf op p s1
      match perform op p shadow s1 with
      | .wait s2 data => setExecuting p op.code data s2
      | r => answer p c.hasBuf c.bufLen r s1

/-! ## The configuration freeze (R54, R470) -/

/-- A command in progress has taken effect: a port's sequence, a Hide key change, and Halter (R54). -/
def tookEffect (x : Exec) : Bool :=
  (x.op = 0x1001 && x.data.getD 1 1 = 0) || (x.op = 0x7003 && x.data ≠ []) || x.op = 0xA001 || x.op = 0xA002

/-- The command in progress of a queue ends with ABORTED where it has not taken effect. -/
def abortIdle (q : Nat) (s : State) : State :=
  match (pairAt s q).executing with
  | none => s
  | some x => if tookEffect x then s else finish q (fun s => .ended s .aborted []) s

/-- Scans end and slot operations no longer wait. -/
def dropWaits (s : State) : State :=
  { s with pat := { s.pat with scanning := false }
           link := { s.link with lanes := mmap s.link.lanes fun _ x => { x with scanning := false } }
           vault := { s.vault with waiting := s.vault.waiting.filter fun w => match w with | .command _ => false | _ => true } }

/-- The configuration freeze: fetching stops, and the commands in progress that have not taken effect end with ABORTED (R54). -/
def freeze (s : State) : State :=
  dropWaits (forEach (s.host.pairs.map Prod.fst) abortIdle { s with flt := { s.flt with frozen := true } })

/-- Put a packet behind those that its queue already holds. -/
def appendWritten (op : Nat) (p : Packet) (s : State) : State :=
  updPair (queueOf p) (fun x => { x with written := x.written ++ [{ op := op, pkt := p }] }) s

/-- A read of a queue's first packet fails: ERROR 2, and the packet stays at CQ_HEAD; read again after a restart, it is there
(R547). -/
def fetchFault (q : Nat) (s : State) : State :=
  updPair q (fun x => { x with error := 2, written := x.written.modifyHead fun w => { w with pkt := { w.pkt with env := { w.pkt.env with fetchOk := true } } } }) s

/-- A queue whose first packet is held back takes its place among those that wait for the end of the EPOCH_PREPARE (R48). -/
def holdBack (q : Nat) (s : State) : State :=
  if s.host.heldOrder.contains q then s else { s with host := { s.host with heldOrder := s.host.heldOrder ++ [q] } }

/-- One Obric command as a command of the block: the host has written the packet and its doorbell, or the packet
has arrived in-band and passed R58. It is served at once where its queue may fetch and nothing waits before it;
otherwise it waits in its queue. -/
def serve (op : OpSpec) (shadow : State → State × Bool) (p : Packet) (s : State) : State :=
  let q := queueOf p
  let s1 := match p.src with
    | .pair n => updPair n (fun x => { x with cqTail := x.cqTail + BitVec.ofNat 12 (entriesOf p) }) s
    | .inband _ => s
  if canFetch q s1 && (pairAt s1 q).written.isEmpty then
    if !p.env.fetchOk then fetchFault q (appendWritten op.code p s1)
    else if heldBack op s1 then holdBack q (appendWritten op.code p s1)
    else execute op shadow p s1
  else appendWritten op.code p s1

end Sys2Proof.Machine
end

