-- ==== Sys2Proof/Machine/Counters.lean ====
section
/-! DEFINITION. Cycle counters, programmable counters and named counters, and the counter commands (R496 to R503). -/

namespace Sys2Proof.Machine

/-! ## Cycle counters (R496, R497, R461) -/

/-- An island of Table 17.4. -/
def isIsland (i : Nat) : Bool := i ≤ 0x4D

/-- The clock of an island in Hz; a port's is that of its downstream transmit PLL divided by 64. -/
def islandHz (i : Nat) (fast : Bool) : Nat :=
  if i < 64 then (if fast then 777600000 else 155520000)
  else match i with
  | 0x40 => 1200000000 | 0x47 => 1600000000 | 0x48 => 800000000 | 0x49 => 1600000000 | 0x4B => 625000000
  | 0x4C => 1000000000 | 0x4D => 400000000 | _ => 1350000000

/-- The number of an island's programmable counters. -/
def islandCounters (i : Nat) : Nat := if i < 64 || i = 0x48 || i = 0x4B || i = 0x4D then 4 else 8

/-- An island's cycle counter as it was last set down. -/
def cycleAt (s : State) (i : Nat) : CycleCtr := mgetD s.ctr.cycles i {}

/-- The clocks of an island over some picoseconds. -/
def clocksIn (hz ps : Nat) : Nat := hz * ps / sec

/-- The value of an island's cycle counter. -/
def cycleNow (s : State) (i : Nat) : Nat :=
  let c := cycleAt s i
  if c.stopped.isSome then c.value
  else (c.value + clocksIn (islandHz i c.fast) (s.mono - max c.at_ s.ctr.start)) % 2 ^ 64

/-- Write an island's cycle counter. -/
def setCycle (i : Nat) (c : CycleCtr) (s : State) : State := { s with ctr := { s.ctr with cycles := mset s.ctr.cycles i c } }

/-- The key of a programmable counter. -/
def progKey (island k : Nat) : Nat := island * 8 + k

/-- A programmable counter. -/
def progAt (s : State) (island k : Nat) : ProgCtr := mgetD s.ctr.prog (progKey island k) {}

/-- Events whose occurrences the model does not see: stalled channels, Weaver's resolve clocks, the cipher array's held clocks and
the vendor diagnostics (Table 17.6; log 102). -/
def openEvent (island ev : Nat) : Bool :=
  ev = 0x002 || ev = 0x003 || ((island = 0x40 || island = 0x47) && ev = 0x103) || 0xF00 ≤ ev

/-- What a counter counts by time: the clocks since its setting (event 0x001), which concern no tenant, or an open number, which for
an event that counts clocks is at most theirs (log 102). -/
def timeCount (s : State) (island : Nat) (c : ProgCtr) : Nat :=
  let clocks := clocksIn (islandHz island (cycleAt s island).fast) (s.mono - c.at_)
  if c.event = 0x001 then (if c.world = 0x0100 then clocks else 0)
  else if openEvent island c.event then
    let n := Config.openCount [island, c.event, c.world, c.at_, s.mono]
    if c.event < 0xF00 then min n clocks else n
  else 0

/-- A programmable counter with what it has counted since its setting; nothing is counted while the island's clock is stopped. -/
def progNow (s : State) (island k : Nat) : ProgCtr :=
  let c := progAt s island k
  if c.enable && (cycleAt s island).stopped.isNone then
    let n := c.value + timeCount s island c
    { c with value := n % 2 ^ 64, wraps := (c.wraps + n / 2 ^ 64) % 256 }
  else c

/-- Set down the programmable counters of an island whose clock stops or starts: they keep their values meanwhile (R461). -/
def settleProg (i : Nat) (s : State) : State :=
  { s with ctr := { s.ctr with prog := mmap s.ctr.prog fun k c =>
      if k / 8 = i then { progNow s i (k % 8) with at_ := s.mono } else c } }

/-- An island's clock stops: the counter holds its value. -/
def stopCycle (i : Nat) (s : State) : State :=
  if (cycleAt s i).stopped.isSome then s
  else setCycle i { cycleAt s i with value := cycleNow s i, stopped := some s.time.tc } (settleProg i s)

/-- An island's clock restarts: the counter is advanced by the elapsed time on the time counter times the nominal frequency,
rounded down, and DISC rises (R461, R497). -/
def startCycle (i : Nat) (s : State) : State :=
  let c := cycleAt s i
  match c.stopped with
  | none => s
  | some t =>
    setCycle i { c with value := (c.value + islandHz i c.fast * (s.time.tc - t) / (nsUnit * 1000000000)) % 2 ^ 64, at_ := s.mono,
                        stopped := none, disc := (c.disc + 1) % 65536 } (settleProg i s)

/-- A port's downstream rate changes: its clock stops while the PLL relocks (R496). -/
def relockPort (p : Nat) (fast : Bool) (s : State) : State :=
  if (cycleAt s p).fast = fast then s
  else
    let s1 := startCycle p (stopCycle p s)
    setCycle p { cycleAt s1 p with fast := fast } s1

/-! ## Programmable counters (R498, R499) -/

/-- The highest event that an island implements beyond those of all islands (Table 17.6). -/
def lastEvent (i : Nat) : Nat :=
  if 0x42 ≤ i && i ≤ 0x45 then 0x104
  else if i = 0x4C then 0x102
  else if i = 0x48 || i = 0x4B || i = 0x4D then 0x101
  else if i = 0x41 then 0xFF
  else 0x103

/-- An event that an island implements; the vendor diagnostics are taken outside DEPLOYED (log 102). -/
def eventOk (i ev : Nat) : Bool := ev ≤ 0x006 || (0x100 ≤ ev && ev ≤ lastEvent i) || 0xF00 ≤ ev

/-! ## COUNTER_CONFIG -/

/-- The function of a requester; in-band commands count as the physical function's. -/
def fnOf (m : Master) : Nat := match m with | .vf n => n | _ => 0

/-- The function that a programmable counter is granted to. -/
def grantee (s : State) (k : Nat) : Option Nat := (mfind s.ctr.grants fun _ g => g.mask.testBit k).map Prod.fst

/-- COUNTER_CONFIG (R498, R499). -/
def runCounterConfig (c : Ctx) (s : State) : HRes :=
  let island := fld (c.w 0) 23 16
  let k := fld (c.w 0) 2 0
  let ev := fld (c.w 1) 27 16
  let world := fld (c.w 1) 15 0
  let fn := fnOf c.master
  refuseIf (!isIsland island || islandCounters island ≤ k) .badTarget [] <|
  refuseIf (0xF00 ≤ ev && s.vault.life = .deployed) .locked [] <|
  refuseIf (!eventOk island ev) .badParam [1] <|
  refuseIf (match grantee s k with | some f => f ≠ fn | none => fn ≠ 0) .notPermitted [] <|
  refuseIf (fn ≠ 0 && world ≠ c.world) .badWorld [] <|
  refuseIf (!worldCode world) .badParam [1] <|
  let old := progNow s island k
  let kept := if bit (c.w 0) 30 then { old with value := 0, wraps := 0 } else old
  let new := { kept with enable := bit (c.w 0) 31, event := ev, world := world, at_ := s.mono }
  .done { s with ctr := { s.ctr with prog := mset s.ctr.prog (progKey island k) new } } []

def opCounterConfig : OpSpec :=
  { code := 0xB005, vf := true, writes := true, home := (0x0C, 4), len := exactly 2, rsv := masks [0x3F00FFF8#32, 0xF0000000#32],
    stage := .stageable, objs := fun ws => [(0xB005, progKey (fld (nthW ws 0) 23 16) (fld (nthW ws 0) 2 0))],
    run := runCounterConfig }

/-! ## Named counters (R500, R501) -/

/-- Where a named counter is kept: each SCOPE with whether it is kept there for each world, and the scopes that SCOPE 0 adds up. -/
structure Kept where
  scopes : List (Nat × Bool)
  sum : List Nat

/-- A counter kept at one scope only. -/
def keptAt1 (scope : Nat) (worlds : Bool) : Kept := { scopes := [(scope, worlds)], sum := [scope] }

/-- Where the counters of the spec's tables are kept, by chapter, table and position. -/
def keptRow (ch tbl pos : Nat) : Option Kept :=
  match ch, tbl with
  | 3, 9 => if pos < 16 then some { scopes := [(1, false), (2, true)], sum := [1] } else none
  | 5, 8 => if pos < 17 then some { scopes := [(7, true), (8, true), (1, false)], sum := [7] } else none
  | 6, 6 => if pos < 10 then some (keptAt1 5 true) else none
  | 7, 9 => if pos < 11 then some (keptAt1 10 true) else if pos = 11 then some (keptAt1 5 false)
            else if pos = 12 then some (keptAt1 5 false) else none
  | 8, 9 => if pos = 3 || pos = 7 || pos = 10 || pos = 11 || pos = 12 then some (keptAt1 0 true)
            else if pos = 9 then some { scopes := [(1, false), (8, false)], sum := [1, 8] }
            else if pos < 13 then some (keptAt1 3 true) else none
  | 9, 10 => if 21 ≤ pos && pos < 24 then some (keptAt1 2 true)
             else if pos < 24 then some { scopes := [(4, true), (1, true)], sum := [4, 1] } else none
  | 11, 5 => if pos = 4 || pos = 5 then some (keptAt1 6 true) else none
  | 11, 14 => if 7 ≤ pos && pos < 13 then some (keptAt1 0 false) else none
  | 13, 10 => if pos < 21 then some (keptAt1 1 false) else none
  | 14, 9 => if pos = 0 || pos = 7 || pos = 8 then some (keptAt1 1 false) else if pos < 9 then some (keptAt1 0 false) else none
  | 15, 8 => if pos < 9 then some (keptAt1 0 (pos = 2 || pos = 4)) else none
  | 16, 3 => if pos < 3 then some (keptAt1 11 false) else if pos < 6 then some (keptAt1 0 false) else none
  | 17, 7 =>
    match pos with
    | 0 => some (keptAt1 9 true)
    | 1 => some { scopes := [(5, true), (1, true)], sum := [5] }
    | 2 => some (keptAt1 5 true)
    | 3 => some (keptAt1 0 true)
    | 4 => some (keptAt1 0 true)
    | 5 => some (keptAt1 1 false)
    | 6 => some (keptAt1 1 false)
    | 7 => some (keptAt1 1 false)
    | 8 => some (keptAt1 2 true)
    | 9 => some (keptAt1 2 true)
    | 10 => some (keptAt1 3 true)
    | 11 => some (keptAt1 0 false)
    | 12 => some (keptAt1 0 false)
    | 13 => some (keptAt1 3 true)
    | 14 => some (keptAt1 0 false)
    | _ => none
  | _, _ => none

/-- Where a counter is kept, by its CID. -/
def keptOf (c : Nat) : Option Kept := keptRow (c / 1024) (c / 64 % 16) (c % 64)

/-- The range of INDEX within a SCOPE for a counter: SCOPE 1 names ports, uplink ports or fabric sides by the counter. -/
def indexOk (c scope idx : Nat) : Bool :=
  match scope with
  | 0 => idx = 0
  | 1 =>
    let ch := c / 1024
    if ch = 13 then (if c % 64 < 18 then idx < 2 else idx < 16)
    else if ch = 8 || ch = 14 then idx < 16
    else if ch = 9 then idx < 80
    else if ch = 17 && c % 64 = 5 then idx < 2
    else idx < 64
  | 2 => idx < 32768
  | 3 => idx < 262144 || (0x800000 ≤ idx && idx < 0x800000 + 65536)
  | 4 => idx < 32768
  | 5 => idx < 96
  | 6 => idx < 16
  | 7 => idx < 8
  | 8 => idx < 64
  | 9 => isIsland idx
  | 10 => idx < 4
  | 11 => idx < 4
  | _ => false

/-- The sum of a counter over the places that a test accepts, for a world or, for 0xFFFF, over all worlds. -/
def namedSum (s : State) (c world : Nat) (at_ : Nat → Nat → Bool) : Nat :=
  (s.ctr.named.foldl (fun a e =>
    if e.1.cid = c && at_ e.1.scope e.1.idx && (world = 0xFFFF || e.1.world = world) then a + e.2 else a) 0) % 2 ^ 48

/-- TREE_POISON and POISON_ACCESS, which Hide keeps (Table 11.14). -/
def hideCount (s : State) (c : Nat) : Option Nat :=
  if c = cid 11 14 11 then some s.mem.treePoison else if c = cid 11 14 12 then some s.mem.poisonAccess else none

/-- The scope at which the counts of a SCOPE are stored: DROP_INGRESS of a port is that of its SOURCE. -/
def storedScope (c scope : Nat) : Nat := if c = cid 17 7 1 && scope = 1 then 5 else scope

/-- A named counter as COUNTER_READ names it; none where it is not kept there (R501). -/
def namedRead (s : State) (c scope idx world : Nat) : Option Nat :=
  match keptOf c with
  | none => none
  | some k =>
    if scope = 0 then
      let sums := if world = 0xFFFF then k.sum else (k.scopes.filter Prod.snd).map Prod.fst |>.take 1
      if sums.isEmpty || !indexOk c 0 idx then none else some ((hideCount s c).getD (namedSum s c world fun sc _ => sums.contains sc))
    else
      match k.scopes.find? (fun e => e.1 = scope) with
      | none => none
      | some (_, worlds) =>
        if !indexOk c scope idx || (world ≠ 0xFFFF && !worlds) then none
        else some (namedSum s c world fun sc i => sc = storedScope c scope && i = idx)

/-! ## COUNTER_READ (R501, R503) -/

/-- The object that SCOPE and INDEX name is of a world: a terminal, a queue (a downstream one is its terminal's) or a secure
channel. The other objects are the module's, which keep a copy for each world (R503). -/
def objectOf (s : State) (world scope idx : Nat) : Bool :=
  let term (i : Nat) : Bool := (mget s.pon.terms i).any fun t => t.world = world
  match scope with
  | 2 => term idx
  | 3 => if idx < 2 ^ 23 then term (idx / 8) else (mgetD s.tm.queues ⟨1, 4, idx - 2 ^ 23⟩ {}).world = world
  | 4 => (mget s.cipher.channels idx).any fun x => x.world = world
  | _ => true

/-- The ground on which a counter read is refused to its requester (R503). -/
def readGround (s : State) (c : Ctx) : Option Status :=
  let kind := fld (c.w 0) 31 30
  let world := fld (c.w 1) 31 16
  let grant := mgetD s.ctr.grants (fnOf c.master) {}
  let foreign := kind = 2 && c.world ≠ 0x0100 && world ≠ c.world
  match c.master with
  | .vf _ =>
    let may := if kind = 0 then grant.named || grant.mask ≠ 0
               else if kind = 1 then grant.mask.testBit (fld (c.w 0) 2 0)
               else grant.named && (foreign || objectOf s c.world (fld (c.w 2) 31 28) (fld (c.w 2) 23 0))
    if !may then some .notPermitted else if foreign then some .badWorld else none
  | _ => if foreign then some .badWorld else none

/-- COUNTER_READ. -/
def runCounterRead (c : Ctx) (s : State) : HRes :=
  let kind := fld (c.w 0) 31 30
  let island := fld (c.w 0) 23 16
  let k := fld (c.w 0) 2 0
  refuseIf (kind = 3) .badParam [0] <|
  refuseIf (kind = 2 && 12 ≤ fld (c.w 2) 31 28) .badParam [2] <|
  refuseIf (kind ≠ 2 && (!isIsland island || (kind = 1 && islandCounters island ≤ k))) .badTarget [] <|
  let named := if kind = 2 then namedRead s (fld (c.w 1) 15 0) (fld (c.w 2) 31 28) (fld (c.w 2) 23 0) (fld (c.w 1) 31 16) else some 0
  match named, readGround s c with
  | none, _ => .refuse .notFound []
  | some _, some st => .refuse st []
  | some v, none =>
    if kind = 0 then
      let v := cycleNow s island
      .done s [lo32 v, hi32 v, pack [((cycleAt s island).disc, 16, 16)], 0]
    else if kind = 1 then
      let x := progNow s island k
      .done s [lo32 x.value, hi32 x.value, pack [(x.wraps, 8, 8)], pack [(x.event, 12, 16), (x.world, 16, 0)]]
    else .done s [lo32 v, hi32 v, 0, 0]

/-- The reserved fields of COUNTER_READ, those that its KIND does not use included (R550). -/
def counterReadRsv (ws : List Word) : Option Nat :=
  match fld (nthW ws 0) 31 30 with
  | 0 => masks [0x3F00FFFF#32, 0xFFFFFFFF#32, 0xFFFFFFFF#32] ws
  | 1 => masks [0x3F00FFF8#32, 0xFFFFFFFF#32, 0xFFFFFFFF#32] ws
  | 2 => masks [0x3FFFFFFF#32, 0, 0x0F000000#32] ws
  | _ => masks [0x3F00FFF8#32, 0, 0x0F000000#32] ws

def opCounterRead : OpSpec :=
  { code := 0xB006, vf := true, fast := true, writes := false, home := (0x0C, 4), len := exactly 3,
    rsv := counterReadRsv, run := runCounterRead }

/-! ## Grants (R502) -/

/-- A counter that a grant withdraws is disabled and cleared in every island. -/
def clearProg (mask : Nat) (s : State) : State :=
  { s with ctr := { s.ctr with prog := mkeep s.ctr.prog fun k _ => !mask.testBit (k % 8) } }

/-- Every grant of a function is withdrawn. -/
def withdrawGrants (fn : Nat) (s : State) : State :=
  let g := mgetD s.ctr.grants fn {}
  let s1 := clearProg g.mask s
  { s1 with ctr := { s1.ctr with grants := mdel s1.ctr.grants fn } }

/-- The counters of an old grant that a new one leaves out. -/
def withdrawn (old new : Nat) : Nat := (List.range 8).foldl (fun a k => if old.testBit k && !new.testBit k then a + 2 ^ k else a) 0

/-- VF_COUNTER_GRANT. -/
def runVfCounterGrant (c : Ctx) (s : State) : HRes :=
  let fn := fld (c.w 0) 13 8
  let mask := fld (c.w 0) 7 0
  refuseIf (fn = 0) .badParam [0] <|
  refuseIf ((List.range 8).any fun k => mask.testBit k && (match grantee s k with | some f => f ≠ fn | none => false)) .exists [] <|
  let old := (mgetD s.ctr.grants fn {}).mask
  let s1 := clearProg (withdrawn old mask) s
  .done { s1 with ctr := { s1.ctr with grants := mset s1.ctr.grants fn { named := bit (c.w 0) 31, mask := mask } } } []

def opVfCounterGrant : OpSpec :=
  { code := 0xB009, oWorld := true, home := (0x0C, 4), len := exactly 1, rsv := masks [0x7FFFC000#32],
    stage := .stageable, objs := fun ws => [(0xB009, fld (nthW ws 0) 13 8)], run := runVfCounterGrant }

end Sys2Proof.Machine
end

