-- ==== Sys2Proof/Machine/Hierarchy.lean ====
section
/-! DEFINITION. The objects of the traffic manager's hierarchies: queues, nodes, their places and worlds, and what a queue that becomes
empty does to them (R249 to R251, R261). -/

namespace Sys2Proof.Machine

/-- A terminal record. -/
def termAt (s : State) (i : Nat) : Option Terminal := mget s.pon.terms i

/-- The ONU-ID of a terminal (R93). -/
def onuId (i : Nat) : Nat := i % 512

/-! ## Objects -/

/-- A queue; key of a network queue has side 1. -/
def queueAt (s : State) (n : NodeId) : Queue := mgetD s.tm.queues n {}

/-- Alter a queue. -/
def updQueue (n : NodeId) (f : Queue → Queue) (s : State) : State :=
  { s with tm := { s.tm with queues := mset s.tm.queues n (f (queueAt s n)) } }

/-- A downstream or network queue by index. -/
def downQueue (i : Nat) : NodeId := ⟨0, 4, i⟩
def netQueue (i : Nat) : NodeId := ⟨1, 4, i⟩

/-- A node as reset leaves it (Table 8.4). -/
def nodeReset (n : NodeId) : Node := { enable := n.level = 0 || n.level = 3 || n.level = 4 }

/-- A scheduler node. -/
def nodeAt8 (s : State) (n : NodeId) : Node := mgetD s.tm.nodes n (nodeReset n)

/-- Alter a scheduler node. -/
def updNode (n : NodeId) (f : Node → Node) (s : State) : State :=
  { s with tm := { s.tm with nodes := mset s.tm.nodes n (f (nodeAt8 s n)) } }

/-- The nodes of a level (Table 8.1). -/
def nodeCount (side level : Nat) : Nat :=
  match side, level with
  | 0, 0 => 64 | 0, 1 => 1024 | 0, 2 => 16384 | 0, 3 => 32768 | 0, 4 => 262144
  | 1, 0 => 17 | 1, 1 => 256 | 1, 2 => 4096 | 1, 4 => 65536
  | _, _ => 0

/-- The parent of a node (R250); none for a root and for a terminal node without a terminal. -/
def parentOf (s : State) (n : NodeId) : Option NodeId :=
  if n.side = 0 then
    match n.level with
    | 1 => some ⟨0, 0, n.index / 16⟩
    | 2 => some ⟨0, 1, n.index / 256 * 16 + (nodeAt8 s n).parent % 16⟩
    | 3 => (termAt s n.index).map fun t => ⟨0, 2, t.port * 256 + (nodeAt8 s n).parent % 256⟩
    | 4 => some ⟨0, 3, n.index / 8⟩
    | _ => none
  else
    match n.level with
    | 1 => some ⟨1, 0, (nodeAt8 s n).parent⟩
    | 2 => some ⟨1, 1, (nodeAt8 s n).parent⟩
    | 4 => some ⟨1, 2, (queueAt s n).parent⟩
    | _ => none

/-- The nodes above a node, from the root down to it. -/
def pathUp (s : State) (fuel : Nat) (n : NodeId) (below : List NodeId) : List NodeId :=
  match fuel with
  | 0 => n :: below
  | k + 1 => match parentOf s n with | some p => pathUp s k p (n :: below) | none => n :: below

/-- The path from its root to a queue. -/
def pathOf (s : State) (q : NodeId) : List NodeId := pathUp s 4 q []

/-- The root that a queue hangs under; a path that does not reach level 0 has none. -/
def rootOf (s : State) (q : NodeId) : Option NodeId :=
  match pathOf s q with
  | r :: _ => if r.level = 0 then some r else none
  | [] => none

/-- The world of a node or queue (R251). -/
def nodeWorld (s : State) (n : NodeId) : Nat :=
  if n.side = 0 then
    match n.level with
    | 3 => ((termAt s n.index).map Terminal.world).getD 0x0100
    | 4 => ((termAt s (n.index / 8)).map Terminal.world).getD 0x0100
    | 0 => 0x0100
    | _ => (nodeAt8 s n).world
  else if n.level = 4 then (queueAt s n).world
  else if n.level = 0 then 0x0100 else (nodeAt8 s n).world

/-- The INDEX of a queue as a counter's object (Table 17.8). -/
def queueIdx (n : NodeId) : Nat := n.side * 2 ^ 23 + n.index

/-! ## Empty queues (R261) -/

/-- A queue's whole subtree below a node is empty. -/
def subtreeEmpty (s : State) (n : NodeId) : Bool :=
  s.tm.queues.all fun e => e.2.held.isEmpty || !(pathOf s e.1).contains n

/-- The nodes of a path whose subtree is empty lose both deficits (R261). -/
def settle (path : List NodeId) (s : State) : State :=
  forEach path (fun n s => if subtreeEmpty s n then updNode n (fun x => { x with defC := 0, defE := 0 }) s else s) s

/-- A queue that has become empty, or that leaves a place of the hierarchy: the deficits on that path (R261). -/
def settleQueue (q : NodeId) (s : State) : State := settle (pathOf s q) s

/-- Every queue that is empty, and every node above it whose subtree is. -/
def settleAll (s : State) : State := forEach s.tm.queues (fun e s => if e.2.held.isEmpty then settleQueue e.1 s else s) s

end Sys2Proof.Machine
end

