-- ==== Sys2Proof/Machine/Pools.lean ====
section
/-! DEFINITION. Bytes of HBM, Osier's pools and free rings, and owner records (chapter 11). -/

namespace Sys2Proof.Machine

/-! ## Bytes of HBM -/

/-- The byte at an address; an unlisted address reads 0 (R372). -/
def memRead (cells : List Host.Cell) (a : Nat) : Byte :=
  match cells with
  | [] => 0
  | (k, b) :: r => if k = a then b else memRead r a

/-- Write a byte, keeping the canonical form: addresses rise and no listed byte is 0. -/
def memWrite (cells : List Host.Cell) (a : Nat) (b : Byte) : List Host.Cell :=
  match cells with
  | [] => if b = 0 then [] else [(a, b)]
  | (k, c) :: r =>
    if a < k then (if b = 0 then (k, c) :: r else (a, b) :: (k, c) :: r)
    else if a = k then (if b = 0 then r else (a, b) :: r)
    else (k, c) :: memWrite r a b

/-- The canonical form above a bound. -/
def memWfFrom (lo : Nat) (cells : List Host.Cell) : Bool :=
  match cells with
  | [] => true
  | (k, b) :: r => lo ≤ k && b != 0 && memWfFrom (k + 1) r

/-- The canonical form: addresses rise strictly and no entry is what an unlisted address reads as. -/
def Memory.wf (cells : List Host.Cell) : Bool := memWfFrom 0 cells

/-- `n` bytes from an address. -/
def memReadN (cells : List Host.Cell) (a n : Nat) : List Byte := (List.range n).map fun i => memRead cells (a + i)

/-- Write bytes from an address. -/
def memWriteN (cells : List Host.Cell) (a : Nat) (bs : List Byte) : List Host.Cell :=
  match bs with
  | [] => cells
  | b :: r => memWriteN (memWrite cells a b) (a + 1) r

/-! ## Pools (R352 to R363) -/

/-- The cells of an HBM region. -/
def regionCells : Nat := 8388608

/-- A pool as reset and boot leave it (R352, R354). -/
def poolReset (p : Nat) : Pool :=
  if p = 0 then { enable := true, tail := 524288, ring := [(0, 524288)] }
  else if p = 1 then { enable := true, regions := 32, tail := 32 * regionCells, ring := [(0, 32 * regionCells)] }
  else {}

/-- A pool. -/
def poolAt (s : State) (p : Nat) : Pool := mgetD s.mem.pools p (poolReset p)

/-- Alter a pool. -/
def updPool (p : Nat) (f : Pool → Pool) (s : State) : State :=
  { s with mem := { s.mem with pools := mset s.mem.pools p (f (poolAt s p)) } }

/-- The handles in a list of runs. -/
def runLen (rs : List (Nat × Nat)) : Nat := (rs.map Prod.snd).foldl (· + ·) 0

/-- Take at most `n` handles from the front of some runs: the runs taken and those left. -/
def takeRuns (n : Nat) (rs : List (Nat × Nat)) : List (Nat × Nat) × List (Nat × Nat) :=
  match rs with
  | [] => ([], [])
  | (h, k) :: r =>
    if n = 0 then ([], (h, k) :: r)
    else if k ≤ n then
      let (a, b) := takeRuns (n - k) r
      ((h, k) :: a, b)
    else ([(h, n)], (h + n, k - n) :: r)

/-- The handles of some runs, one by one. -/
def runList (rs : List (Nat × Nat)) : List Nat := rs.flatMap fun r => (List.range r.2).map (r.1 + ·)

/-- The free cells of a pool: those in its ring and its cache (R358), but for those that a failing ring line has lost (R359). -/
def freeCells (x : Pool) : Nat := runLen x.ring - x.gone.length + runLen x.cache

/-- A handle lies in a pool's regions (R354). -/
def inPool (x : Pool) (h : Nat) : Bool := x.first * regionCells ≤ h && h < (x.first + x.regions) * regionCells

/-- The cells of a pool (R352, R354). -/
def poolCells (p : Nat) (x : Pool) : Nat := if p = 0 then 524288 else x.regions * regionCells

/-- The cells under a node of a level 0 (L1) to 3 (L4) (Table 11.9). -/
def nodeCells (level : Nat) : Nat := 32 * 64 ^ level

/-- The data cells of a frame. -/
def dataCells (len : Nat) : Nat := ceilDiv len 128

/-- A cell lies in a poisoned subtree or region (R375). -/
def poisonedCell (s : State) (h : Nat) : Bool :=
  s.mem.regionPoison.contains (h / regionCells) || s.mem.poison.any fun x => h / nodeCells x.level = x.index

/-- A cell is withdrawn when it is freed (R362). -/
def withdraws (s : State) (h : Nat) : Bool := poisonedCell s h || s.mem.bad.contains h

/-- The free ring of a pool holds as many entries as the pool has cells: what it wrote over is no longer spent (R357). -/
def trimSpent (p : Nat) (x : Pool) : Pool :=
  { x with spent := (takeRuns (runLen x.spent + runLen x.ring - poolCells p x) x.spent).2 }

/-- The handles of runs that stand at a ring count and after it, without those that a failing line has lost (R359). -/
def keptRuns (x : Pool) (got : List (Nat × Nat)) : List (Nat × Nat) :=
  if x.gone.isEmpty then got
  else ((runList got).zipIdx.filter fun e => !x.gone.contains (x.head + e.2)).map fun e => (e.1, 1)

/-- Read up to `n` handles from HEAD: those read, and the pool with HEAD past them (R357). -/
def readRing (p n : Nat) (x : Pool) : List (Nat × Nat) × Pool :=
  let (got, left) := takeRuns n x.ring
  let h := x.head + runLen got
  (keptRuns x got, trimSpent p { x with head := h, ring := left, spent := x.spent ++ got, gone := x.gone.filter (h ≤ ·) })

/-- The pass of a ring count: how often the ring has come round before it (R357). -/
def passOf (p : Nat) (x : Pool) (count : Nat) : Nat := count / poolCells p x

/-- The ring count that last wrote a position of the ring, where any has. -/
def lastCount (p : Nat) (x : Pool) (pos : Nat) : Option Nat :=
  if x.tail ≤ pos then none else some (pos + (x.tail - 1 - pos) / poolCells p x * poolCells p x)

/-- The handle at a place in some runs. -/
def runNth (rs : List (Nat × Nat)) (i : Nat) : Option Nat :=
  match rs with
  | [] => none
  | (h, k) :: r => if i < k then some (h + i) else runNth r (i - k)

/-- The entry that stands at a position of a free ring (Table 11.4); one that nothing has written reads 0 (R372). -/
def ringEntry (p : Nat) (x : Pool) (pos : Nat) : Word :=
  let first := x.head - runLen x.spent
  match (lastCount p x pos).bind fun c => if c < first then none else runNth (x.spent ++ x.ring) (c - first) with
  | some h => pack [(p, 4, 28), (h, 28, 0)]
  | none => 0

/-- The 16 entries of a line of a free ring. -/
def ringLine (p : Nat) (x : Pool) (line : Nat) : List Byte :=
  bytesOfWords ((List.range 16).map fun i => ringEntry p x (line * 16 + i))

/-- Read up to `n` handles from HEAD into the cache; handles inside a poisoned subtree are withdrawn (R358, R359). -/
def refill (p n : Nat) (s : State) : State :=
  let (got, y) := readRing p n (poolAt s p)
  if s.mem.poison.isEmpty && s.mem.regionPoison.isEmpty || p = 0 then
    updPool p (fun _ => { y with cache := y.cache ++ got }) s
  else
    let good := (runList got).filter fun h => !poisonedCell s h
    let gone := (runList got).filter (poisonedCell s)
    updPool p (fun _ => { y with cache := y.cache ++ good.map (fun h => (h, 1)), withdrawn := y.withdrawn ++ gone }) s

/-- Write up to `n` handles from the cache at TAIL (R358). -/
def spill (p n : Nat) (s : State) : State :=
  updPool p (fun x =>
    let (out, keep) := takeRuns n x.cache
    trimSpent p { x with tail := x.tail + runLen out, ring := x.ring ++ out, cache := keep }) s

/-- Refill a cache until it holds `n` handles or the ring is empty (R358). -/
def refillFor (fuel p n : Nat) (s : State) : State :=
  match fuel with
  | 0 => s
  | k + 1 => if n ≤ runLen (poolAt s p).cache || (poolAt s p).ring.isEmpty then s else refillFor k p n (refill p (max 1024 n) s)

/-- Take `n` cells from a pool's cache, refilled while it runs short (R358); none where the pool has too few: a read takes 1,024 handles, so
the fuel lasts until the ring is empty. A cell that failed a check while it was free is no longer marked: it is written whole (R352, R362). -/
def takeCells (p n : Nat) (s : State) : Option (List Nat × State) :=
  let s1 := refillFor (runLen (poolAt s p).ring / 1024 + 1) p n s
  if runLen (poolAt s1 p).cache < n then none
  else
    let (got, left) := takeRuns n (poolAt s1 p).cache
    some (runList got, updPool p (fun x => { x with cache := left, allocated := x.allocated + n })
      (if p = 0 then s1 else { s1 with mem := { s1.mem with bad := s1.mem.bad.filter fun h => !(runList got).contains h } }))

/-- A cache that would hold more than its 4,096 handles has written 1,024 of them (R358). -/
def keepCache (p : Nat) (s : State) : State :=
  if 4096 < runLen (poolAt s p).cache then spill p 1024 s else s

/-- Return cells to a pool's cache; cells that R362 names are withdrawn instead. -/
def giveCells (p : Nat) (hs : List Nat) (s : State) : State :=
  let good := if p = 0 then hs else hs.filter fun h => !withdraws s h
  let gone := if p = 0 then [] else hs.filter (withdraws s)
  keepCache p (updPool p (fun x => { x with
    cache := x.cache ++ good.map (fun h => (h, 1)), withdrawn := x.withdrawn ++ gone, allocated := x.allocated - hs.length }) s)

/-- The counters of Tables 11.5 and 11.14. -/
def cRefusedFrees : Nat := cid 11 5 4
def cDropPool : Nat := cid 11 5 5
def cCorrected : Nat := cid 11 14 7
def cCheckFail : Nat := cid 11 14 8
def cPageReencrypt : Nat := cid 11 14 9
def cRightsRefused : Nat := cid 11 14 10

/-- The counter DROP_POISON, per queue and world (Table 17.7, R384). -/
def cDropPoison : Nat := cid 17 7 10

/-! ## Owner records (R360, R361) -/

/-- Refuse an attempt to give up cells (R361). -/
def refuseFree (p h : Nat) (s : State) : State :=
  raise 0x09 0 0 p 0x0912 0 (wd h) (bump cRefusedFrees 6 p s)

/-- A holder gives up a frame's cells: FREE of an unshared chain, or RELEASE of a shared one, whose last owner frees
the chain and the record (R361). `n` are the cells of the chain. -/
def release (world p : Nat) (cells : List Nat) (s : State) : State :=
  let first := cells.headD 0
  let free (s : State) : State :=
    let s1 := giveCells p cells s
    if p = 0 then { s1 with mem := { s1.mem with ondie := mupd s1.mem.ondie world 0 (· - cells.length) } }
    else { s1 with mem := { s1.mem with hbm := mupd s1.mem.hbm world 0 (· - cells.length) } }
  if cells.isEmpty then s
  else if p ≠ 0 then free s
  else match mget s.mem.owners first with
  | none => free s
  | some n =>
    if n ≤ 1 then free { s with mem := { s.mem with owners := mdel s.mem.owners first } }
    else { s with mem := { s.mem with owners := mset s.mem.owners first (n - 1) } }

/-- Another copy of a frame takes hold of its cells: the owner record rises, or is made where one is free (R360). -/
def share (cells : List Nat) (s : State) : Option State :=
  let first := cells.headD 0
  match mget s.mem.owners first with
  | some n => some { s with mem := { s.mem with owners := mset s.mem.owners first (n + 1) } }
  | none =>
    if 65536 ≤ s.mem.owners.length then none
    else some { s with mem := { s.mem with owners := mset s.mem.owners first 2 } }

end Sys2Proof.Machine
end

