-- ==== Sys2Proof/Machine/Packet.lean ====
section
/-! DEFINITION. Frames in flight: their descriptor and world, the in-flight counts, drops and voids, and delivery to host
queues (chapters 1, 6 and 7, R83, R207). -/

namespace Sys2Proof.Machine

/-! ## Descriptors and worlds -/

/-- The 160 bits of a descriptor (Table 1.4), without POOL and HANDLE (R21). -/
def descriptorBits (f : Frame) : Nat :=
  f.epoch * 2 ^ 144 + f.rver * 2 ^ 141 + f.cls * 2 ^ 135 + f.colour * 2 ^ 133 + b2n f.poison * 2 ^ 132
    + b2n f.secured * 2 ^ 131 + b2n f.mirror * 2 ^ 130 + b2n f.except * 2 ^ 129 + b2n f.cut * 2 ^ 128
    + (if f.world ≤ 0xFF then f.world else 0) * 2 ^ 120 + f.source * 2 ^ 112 + (if f.except then f.exc else 0) * 2 ^ 104
    + f.seq * 2 ^ 84 + f.len * 2 ^ 70 + f.queue * 2 ^ 52 + f.dir * 2 ^ 50 + f.slice * 2 ^ 48
    + b2n f.term.isSome * 2 ^ 47 + f.term.getD 0 * 2 ^ 32

/-- The five words of a descriptor as a host queue receives it (R21). -/
def descriptorWords (f : Frame) : List Word := (List.range 5).map fun i => wd (descriptorBits f / 2 ^ (32 * i))

/-- An object of a world may serve a frame of a world (R23). -/
def serves (object frame : Nat) : Bool := object = 0x0100 || object = frame

/-- A node, queue or terminal of a world may hang under a node of a world: one of a tenant only under its own world or O (R251). -/
def hangs (parent child : Nat) : Bool := child = 0x0100 || serves parent child

/-- The counters of Table 17.7 that frames meet. -/
def cDropChannel : Nat := cid 17 7 0
def cDropIngress : Nat := cid 17 7 1
def cDropLength : Nat := cid 17 7 2
def cDropWorld : Nat := cid 17 7 3
def cDropEpoch : Nat := cid 17 7 4
def cDropInject : Nat := cid 17 7 13

/-- Count a frame dropped under R23. -/
def countWorldDrop (f : Frame) (s : State) : State := bumpW cDropWorld 0 0 f.world s

/-- Alter a terminal record that exists. -/
def updTerm (i : Nat) (f : Terminal → Terminal) (s : State) : State :=
  match termAt s i with
  | some t => { s with pon := { s.pon with terms := mset s.pon.terms i (f t) } }
  | none => s

/-- A terminal is in OPERATING or RERANGING. -/
def termUp (t : Terminal) : Bool := t.st = .operating || t.st = .reranging

/-! ## In-flight counts (R33, R222) -/

/-- A frame is stamped with an epoch or leaves it (R33). -/
def epochIn (s : State) : State := { s with epoch := { s.epoch with inFlight := s.epoch.inFlight + 1 } }
def epochOut (e : Nat) (s : State) : State :=
  if e = s.epoch.current.toNat then { s with epoch := { s.epoch with inFlight := s.epoch.inFlight - 1 } }
  else { s with epoch := { s.epoch with inFlightPrev := s.epoch.inFlightPrev - 1 } }

/-- A rule version of the store. -/
def versionAt (s : State) (v : Nat) : Version := mgetD s.rules.versions v {}

/-- Alter a rule version. -/
def updVersion (v : Nat) (f : Version → Version) (s : State) : State :=
  { s with rules := { s.rules with versions := mset s.rules.versions v (f (versionAt s v)) } }

/-- The bank that a frame's EPOCH selects (R31). -/
def bankOf (s : State) (f : Frame) : Option Bank :=
  if f.epoch = s.epoch.current.toNat then some s.rules.bank
  else match s.epoch.previous with
  | some e => if f.epoch = e.toNat then some s.rules.prev else none
  | none => none

/-! ## Flights -/

/-- A frame in flight. -/
def flightAt (s : State) (id : Nat) : Option Flight := mget s.pkt.flights id

/-- Write a frame in flight. -/
def setFlight (id : Nat) (x : Flight) (s : State) : State :=
  { s with pkt := { s.pkt with flights := mset s.pkt.flights id x } }

/-- Remove a frame in flight. -/
def endFlight (id : Nat) (s : State) : State := { s with pkt := { s.pkt with flights := mdel s.pkt.flights id, order := s.pkt.order.filter (· ≠ id) } }

/-- Bring a frame into flight: it takes a number, EPOCH and RVER as they are now, and both in-flight counts rise
(R30, R33, R222). -/
def launch (x : Flight) (s : State) : State :=
  let f := { x.frame with epoch := s.epoch.current.toNat, rver := s.rules.current, num := s.pkt.next }
  let s1 := updVersion s.rules.current (fun v => { v with inFlight := v.inFlight + 1 }) (epochIn s)
  { s1 with pkt := { s1.pkt with flights := mset s1.pkt.flights s1.pkt.next { x with frame := f, counted := true, at_ := s.mono },
                                  next := s1.pkt.next + 1 } }

/-- A frame's rule version no longer counts it (R222). -/
def leaveVersion (id : Nat) (s : State) : State :=
  match flightAt s id with
  | some x =>
    if x.counted then
      updVersion x.frame.rver (fun v => { v with inFlight := v.inFlight - 1 }) (setFlight id { x with counted := false } s)
    else s
  | none => s

/-- Whether a frame has its SEQ and has not reached Stitch, so that a void takes its place (R226). -/
def owesVoid (p : Place) : Bool := p = .sprayed || p = .parsed || p = .classified || p = .out

/-- A copy of a frame gives up its hold on its cells. -/
def freeFrame (f : Frame) (s : State) : State := release f.world f.pool (f.cells ++ f.lists) s

/-- A frame in flight is dropped: both counts fall, cells that it holds are given up, and a slice sends a void in its place (R33, R222,
R226). -/
def dropFlight (id : Nat) (s : State) : State :=
  match flightAt s id with
  | some x =>
    if x.void then s
    else
      let s1 := freeFrame x.frame (epochOut x.frame.epoch (leaveVersion id s))
      if owesVoid x.place then
        setFlight id { x with void := true, place := .out, counted := false, frame := { x.frame with bytes := [], cells := [] } } s1
      else endFlight id s1
  | none => s

/-- Drop a frame in flight and count it at an object and its world. -/
def dropCounted (c scope idx id : Nat) (s : State) : State :=
  match flightAt s id with
  | some x => bumpW c scope idx x.frame.world (dropFlight id s)
  | none => s

/-- A frame whose EPOCH matches neither bank is dropped, counted and recorded (R34). The spec names no CODE for the
record: a FAULT_RAISED record with a free CODE and the frame's EPOCH (DESIGN CHOICE, log entry 20). -/
def dropEpoch (id : Nat) (s : State) : State :=
  match flightAt s id with
  | some x => recordEv 0x0002 (Config.openCode 0) 0x04 0 0 x.frame.world [wd x.frame.epoch] (dropCounted cDropEpoch 0 0 id s)
  | none => s

/-! ## The end of a frame in cut-through (R301) -/

/-- The counter IN_POISONED_END, per receive channel and world (Table 9.10). -/
def cPoisonedEnd : Nat := cid 9 10 19

/-- The cells that a framer sends for a frame end as a verdict says: normally, or, on a fail, with a poisoned-end cell if
any cell has been sent, else not at all (R301). The second is true where a poisoned end is owed. -/
def endCells (id : Nat) (pass : Bool) (q : List TxFrame) : List TxFrame × Bool :=
  let mine (f : TxFrame) : Bool := f.held && f.frame = id
  if pass then (q.map fun f => if mine f then { f with held := false } else f, false)
  else
    ((q.filter fun f => !(mine f && f.sent = 0)).map fun f => if mine f then { f with held := false, poison := true } else f,
     q.any fun f => mine f && f.sent ≠ 0)

/-- End the cells of a frame on both sides. -/
def endOnSides (id chan world : Nat) (pass : Bool) (s : State) : State :=
  let (qa, pa) := endCells id pass s.link.a.queue
  let (qb, pb) := endCells id pass s.link.b.queue
  let s1 := { s with link := { s.link with a := { s.link.a with queue := qa }, b := { s.link.b with queue := qb } } }
  if pa || pb then bumpW cPoisonedEnd 4 chan world s1 else s1

/-- The frames of the queues that wait for the verdict of a frame: all go on, or all are freed (R301). -/
def endInQueues (id : Nat) (pass : Bool) (s : State) : State :=
  let mine (f : Frame) : Bool := f.wait && f.num = id
  if pass then
    let clear (h : Held) : Held := if mine h.frame then { h with frame := { h.frame with wait := false } } else h
    { s with tm := { s.tm with queues := mmap s.tm.queues fun _ (x : Queue) => { x with held := x.held.map clear } } }
  else
    let gone := s.tm.queues.flatMap fun e => (e.2.held.filter fun h => mine h.frame).map Held.frame
    let s1 := forEach gone (fun f s => release f.world f.pool (f.cells ++ f.lists) s) s
    settleAll { s1 with tm := { s1.tm with queues := mmap s1.tm.queues fun _ (x : Queue) =>
      { x with held := x.held.filter (fun h => !mine h.frame),
               drop := x.drop + (x.held.filter fun h => mine h.frame).length } } }

/-- The records that wait in host receive queues for the verdict of a frame: all go on, or all are freed (R301). -/
def endInHostQueues (id : Nat) (pass : Bool) (s : State) : State :=
  let mine (e : Frame × List Word) : Bool := e.1.wait && e.1.num = id
  if pass then
    let clear (e : Frame × List Word) : Frame × List Word := if mine e then ({ e.1 with wait := false }, e.2) else e
    { s with host := { s.host with hrq := mmap s.host.hrq fun _ h => { h with waiting := h.waiting.map clear } } }
  else
    let gone := s.host.hrq.flatMap fun e => (e.2.waiting.filter mine).map Prod.fst
    let s1 := forEach gone freeFrame s
    { s1 with host := { s1.host with hrq := mmap s1.host.hrq fun _ h => { h with waiting := h.waiting.filter fun e => !mine e } } }

/-- The verdict of a frame released in cut-through reaches it wherever it is (R301). -/
def cutEnd (id chan world : Nat) (pass : Bool) (s : State) : State :=
  let s1 := endOnSides id chan world pass (endInQueues id pass (endInHostQueues id pass s))
  match flightAt s1 id with
  | some x =>
    if x.frame.wait then
      if pass then setFlight id { x with frame := { x.frame with wait := false } } s1 else dropFlight id s1
    else s1
  | none => s1

/-! ## The XGEM header (R98) -/

/-- The 64 bits of a downstream XGEM header: PLI, key index, XGEM port ID, options, LF and HEC (R98). -/
def xgemHeader (pli key port : Nat) (last : Bool) : Nat :=
  let front := (((pli % 2 ^ 14 * 4 + key) * 2 ^ 16 + port) * 2 ^ 18 + Config.xgemOptions % 2 ^ 18) * 2 + b2n last
  front * 2 ^ 13 + Config.xgemHec front % 2 ^ 13

/-! ## Host receive queues (R83, R207, R252) -/

/-- A host receive queue. -/
def hrqAt (s : State) (q : Nat) : HostQ := mgetD s.host.hrq q {}

/-- Alter a host receive queue. -/
def updHrq (q : Nat) (f : HostQ → HostQ) (s : State) : State :=
  { s with host := { s.host with hrq := mset s.host.hrq q (f (hrqAt s q)) } }

/-- The slots of a ring (Table 2.15). -/
def ringSlots (h : HostQ) : Nat := 2 ^ (6 + h.slots)

/-- The records between HEAD and TAIL. -/
def ringUsed (h : HostQ) : Nat := (h.tail + ringSlots h - h.head) % ringSlots h

/-- A receive queue in service has no room beyond what waits for it. -/
def hrqFull (h : HostQ) : Bool := h.enable && ringSlots h ≤ ringUsed h + h.waiting.length + 1

/-- An XGEM frame of a port takes its place in the PON frame, before the FEC encoder (R24, R98). -/
def emitXgem (p pos header : Nat) (bs : List Byte) (s : State) : State :=
  let x := mgetD s.pon.ports p {}
  emit (.xgem p header bs)
    { s with pon := { s.pon with ports := mset s.pon.ports p { x with fs := x.fs ++ [(pos, beBytes 8 header ++ bs)] } } }

/-- Idle XGEM frames fill bytes of a PON frame's payload (R98). -/
def fillIdle (p cap : Nat) (s : State) : State := if cap = 0 then s else emit (.xgemIdle p cap) s

/-- Hand a frame or copy to a host receive queue, which writes it in the order of arrival (R83, R252); a queue bound to
another world drops it (R23). -/
def toHost (q : Nat) (f : Frame) (ext : List Word) (s : State) : State :=
  let h := hrqAt s q
  if h.bound ≠ 0xFF && !serves h.world f.world then countWorldDrop f (freeFrame f s)
  else updHrq q (fun h => { h with waiting := h.waiting ++ [(f, ext)] }) s

/-- The token bucket of a code and source (R207), in frames times 1 ms: what it holds now. -/
def tokensNow (s : State) (key rate : Nat) : Nat :=
  match mget s.rules.tokens key with
  | some (t, at_) => min (rate * ms) (t + rate * (s.mono - at_))
  | none => rate * ms

/-- The counters EXC_HOST and EXC_HOST_LIMIT (Table 6.6). -/
def cExcHost : Nat := cid 6 6 7
def cExcHostLimit : Nat := cid 6 6 8

/-- The permitted and default dispositions of Table 6.4: the default, and the counter of a drop. -/
def excDefault (code : Nat) : Nat := if code = 1 then 2 else if code = 0x10 || code = 0x11 then 1 else 0
def excCounter (code : Nat) : Nat :=
  if code = 1 || code = 2 then cid 6 6 2 else if code = 3 then cid 6 6 3 else cid 6 6 5

/-- The setting of an exception for a source in a bank (Table 6.5). -/
def excCfg (b : Bank) (code source : Nat) : ExcCfg := mgetD b.exc (code * 256 + source) { disp := excDefault code }

/-- The code of a frame that meets an exception: the one that it has raised, or this one. A frame raises at most one code (R205); what
becomes of one that meets another exception later the spec does not say, and the model acts on it under the code that the frame has (DESIGN
CHOICE: log entry 158). -/
def codeOf (f : Frame) (code : Nat) : Nat := if f.exc = 0 then code else f.exc

/-- A frame in flight that has raised a code (R205). -/
def raisedBy (code : Nat) (x : Flight) : Flight := { x with frame := { x.frame with exc := codeOf x.frame code } }

/-- A frame by exception finds its bucket empty or the queue full (R207). -/
def excBlocked (b : Bank) (code q : Nat) (f : Frame) (s : State) : Bool :=
  tokensNow s (code * 256 + f.source) (excCfg b code f.source).rate < ms || hrqFull (hrqAt s q)

/-- Deliver a frame or copy to a host queue by exception, limited by its bucket and the queue's room (R207); one that the queue's world
drops is not delivered (R23). -/
def excHost (b : Bank) (code q : Nat) (f : Frame) (s : State) : State :=
  let c := codeOf f code
  if excBlocked b c q f s then bumpW cExcHostLimit 5 f.source f.world (freeFrame f s)
  else
    let key := c * 256 + f.source
    let t := tokensNow s key (excCfg b c f.source).rate
    let s1 := { s with rules := { s.rules with tokens := mset s.rules.tokens key (t - ms, s.mono) } }
    let h := hrqAt s q
    let s2 := toHost q { f with except := true, exc := c } [] s1
    if h.bound ≠ 0xFF && !serves h.world f.world then s2 else bumpW cExcHost 5 f.source f.world s2

/-- A frame in flight takes cells of the on-die pool, which its copies share (R207, R360); none where the pool has too few. -/
def giveChain (id : Nat) (x : Flight) (s : State) : Option (Frame × State) :=
  if !x.frame.cells.isEmpty then some (x.frame, s)
  else (takeCells 0 (dataCells x.frame.len) s).map fun (cells, s1) =>
    let f := { x.frame with pool := 0, cells := cells }
    (f, setFlight id { x with frame := f }
      { s1 with mem := { s1.mem with ondie := mupd s1.mem.ondie f.world 0 (· + cells.length) } })

/-- RULE_COPY: the frame goes on, and a copy that shares its cells goes to the host queue. A copy that R207 stops does not affect the
frame, nor does one for which there are no cells or no owner record, which is counted in DROP_POOL (R207, R360). -/
def excCopy (b : Bank) (id q : Nat) (s : State) : State :=
  match flightAt s id with
  | some x =>
    let s0 := setFlight id (raisedBy 0x11 x) s
    let c := codeOf x.frame 0x11
    if excBlocked b c q x.frame s0 then bumpW cExcHostLimit 5 x.frame.source x.frame.world s0
    else match giveChain id (raisedBy 0x11 x) s0 with
    | some (f, s1) =>
      match share f.cells s1 with
      | some s2 => excHost b 0x11 q f s2
      | none => bumpW cDropPool 6 0 f.world s1
    | none => bumpW cDropPool 6 0 x.frame.world s0
  | none => s

/-- A frame meets an exception whose disposition is DROP or HOST. -/
def excEnd (b : Bank) (code id : Nat) (s : State) : State :=
  match flightAt s id with
  | some x =>
    let e := excCfg b code x.frame.source
    if e.disp = 1 then dropFlight id (excHost b code e.hostq { x.frame with cells := [] } s)
    else dropCounted (excCounter (codeOf x.frame code)) 5 x.frame.source id s
  | none => s

end Sys2Proof.Machine
end

