-- ==== Sys2Proof/Machine/Parse.lean ====
section
/-! DEFINITION. The parse units: the parse graph, the walk of R200 and the classification key (chapter 6). -/

namespace Sys2Proof.Machine

/-! ## Nodes (Table 6.1) -/

/-- A bit field of a frame: `w` bits at bit `off` from the byte `start`, in network order (R199). -/
def frameBits (bs : List Byte) (start off w : Nat) : Nat :=
  let first := start + off / 8
  let n := (off % 8 + w + 7) / 8
  beNat (slice bs first n) / 2 ^ (8 * n - off % 8 - w) % 2 ^ w

def selWidth (n : List Word) : Nat := fld (nthW n 0) 20 16
def selOff (n : List Word) : Nat := fld (nthW n 0) 8 0
def flagSet (n : List Word) : Nat := fld (nthW n 0) 31 24
def advMode (n : List Word) : Bool := bit (nthW n 1) 31
def advShift (n : List Word) : Nat := fld (nthW n 1) 30 28
def advWidth (n : List Word) : Nat := fld (nthW n 1) 27 24
def advOff (n : List Word) : Nat := fld (nthW n 1) 23 15
def advFixed (n : List Word) : Nat := fld (nthW n 1) 7 0
def lenEn (n : List Word) : Bool := bit (nthW n 2) 31
def lenShift (n : List Word) : Nat := fld (nthW n 2) 30 29
def lenWidth (n : List Word) : Nat := fld (nthW n 2) 28 24
def lenOff (n : List Word) : Nat := fld (nthW n 2) 23 15
def lenAdd (n : List Word) : Nat := fld (nthW n 2) 6 0

/-- The default successor. -/
def defNext (n : List Word) : Option Nat := if bit (nthW n 3) 8 then some (fld (nthW n 3) 7 0) else none

/-- The successor entries in use, as value and node. -/
def successors (n : List Word) : List (Nat × Nat) :=
  ((n.drop 4).take 8).filterMap fun w => if bit w 24 then some (fld w 15 0, fld w 23 16) else none

/-- The extractions in use, as slot, byte offset and bytes. -/
def extractions (n : List Word) : List (Nat × Nat × Nat) :=
  ((n.drop 12).take 4).filterMap fun w => if bit w 31 then some (fld w 23 20, fld w 5 0, fld w 25 24 + 1) else none

/-- The last byte of a bit field within the node. -/
def lastByte (off w : Nat) : Nat := (off + w - 1) / 8

/-- The fields that a node defines, each by its last byte within the node. -/
def fieldEnds (n : List Word) : List Nat :=
  (if selWidth n ≠ 0 then [lastByte (selOff n) (selWidth n)] else [])
    ++ (if advMode n then [lastByte (advOff n) (advWidth n)] else [])
    ++ (if lenEn n then [lastByte (lenOff n) (lenWidth n)] else [])
    ++ (extractions n).map fun e => e.2.1 + e.2.2 - 1

/-! ## The walk (R200, R201) -/

/-- How a walk has gone so far: the slots, PFLAGS, the nodes visited with their starts, and the exception (0 none,
1 PARSE_DEPTH, 2 LENGTH_INCONSISTENT). -/
structure Walk where
  slots : List Word := List.replicate 16 0
  pflags : Nat := 0
  trail : List (Nat × Nat) := []
  exc : Nat := 0
deriving DecidableEq, Repr

/-- The slots after a node's extractions, in word order. -/
def extract (bs : List Byte) (start : Nat) (n : List Word) (slots : List Word) : List Word :=
  (extractions n).foldl (fun sl e => sl.set e.1 (wd (beNat (slice bs (start + e.2.1) e.2.2)))) slots

/-- The successor of a node. -/
def nextNode (bs : List Byte) (start : Nat) (n : List Word) : Option Nat :=
  if selWidth n = 0 then defNext n
  else
    match (successors n).find? fun e => e.1 = frameBits bs start (selOff n) (selWidth n) with
    | some e => some e.2
    | none => defNext n

/-- The advance of a node. -/
def advance (bs : List Byte) (start : Nat) (n : List Word) : Nat :=
  advFixed n + if advMode n then frameBits bs start (advOff n) (advWidth n) * 2 ^ advShift n else 0

/-- The loop of R200; `fuel` are the visits left, of 12. -/
def walkLoop (g : Graph) (bs : List Byte) (fuel node start rend : Nat) (w : Walk) : Walk :=
  match fuel with
  | 0 => { w with exc := 1 }
  | k + 1 =>
    let n := g.nodes.getD node []
    let ends := (fieldEnds n).map (start + ·)
    let w1 := { w with trail := w.trail ++ [(start, node)] }
    if ends.any (rend ≤ ·) then { w1 with exc := 2 }
    else if ends.any (127 < ·) then { w1 with exc := 1 }
    else
      let w2 := { w1 with pflags := w1.pflags ||| flagSet n, slots := extract bs start n w1.slots }
      let r := start + lenAdd n + frameBits bs start (lenOff n) (lenWidth n) * 2 ^ lenShift n
      if lenEn n && rend < r then { w2 with exc := 2 }
      else
        let rend' := if lenEn n then r else rend
        match nextNode bs start n with
        | none => w2
        | some m =>
          let a := advance bs start n
          if a = 0 then { w2 with exc := 2 } else walkLoop g bs k m (start + a) rend' w2

/-- The walk of a frame from a root (R200). -/
def walkGraph (g : Graph) (root : Nat) (bs : List Byte) (len : Nat) : Walk := walkLoop g bs 12 root 0 (len - 4) {}

/-! ## The built-in graph (R204) -/

/-- A parse node written as its fields. -/
def mkNode (flags : Nat) (sel : Nat × Nat) (adv : Nat) (advf : Option (Nat × Nat × Nat)) (len : Option (Nat × Nat × Nat))
    (succ : List (Nat × Nat)) (ext : List (Nat × Nat × Nat)) : List Word :=
  let w1 := match advf with
    | some (off, width, shift) => pack [(1, 1, 31), (shift, 3, 28), (width, 4, 24), (off, 9, 15), (adv, 8, 0)]
    | none => pack [(adv, 8, 0)]
  let w2 := match len with
    | some (off, width, add) => pack [(1, 1, 31), (width, 5, 24), (off, 9, 15), (add, 7, 0)]
    | none => 0
  [pack [(flags, 8, 24), (sel.2, 5, 16), (sel.1, 9, 0)], w1, w2, 0]
    ++ ((succ.map fun (e : Nat × Nat) => pack [(1, 1, 24), (e.2, 8, 16), (e.1, 16, 0)]) ++ List.replicate 8 0).take 8
    ++ ((ext.map fun (e : Nat × Nat × Nat) => pack [(1, 1, 31), (e.2.2 - 1, 2, 24), (e.1, 4, 20), (e.2.1, 6, 0)]) ++ List.replicate 4 0).take 4

/-- The IPv6 successors at extension header `k`: UDP, TCP, and the extension headers of the worked parse while fewer
than four have been seen. -/
def v6Succ (k : Nat) : List (Nat × Nat) :=
  [(17, 9), (6, 10)] ++ if k < 4 then [(0, 5 + k), (43, 5 + k), (60, 5 + k)] else []

/-- The built-in graph: Ethernet, two VLAN tags, IPv4, IPv6 with four extension headers, TCP and UDP. Slots and flags
follow Table 7.1 and the worked parse (DEDUCED, log entry 21). -/
def builtInGraph : Graph :=
  let eth := [(0x88A8, 1), (0x8100, 1), (0x0800, 3), (0x86DD, 4)]
  { nodes :=
      [ mkNode 0 (96, 16) 14 none none eth [(0, 0, 4), (1, 4, 2), (2, 6, 4), (3, 10, 2)],
        mkNode 1 (16, 16) 4 none none [(0x8100, 2), (0x0800, 3), (0x86DD, 4)] [(4, 0, 2)],
        mkNode 2 (16, 16) 4 none none [(0x0800, 3), (0x86DD, 4)] [(5, 0, 2)],
        mkNode 0x40 (72, 8) 0 (some (4, 4, 2)) (some (16, 16, 0)) [(17, 9), (6, 10)] [(12, 16, 4), (14, 8, 1)],
        mkNode 0x08 (48, 8) 40 none (some (32, 16, 40)) (v6Succ 0) [(9, 24, 4), (10, 28, 4), (11, 32, 4), (12, 36, 4)],
        mkNode 0x10 (0, 8) 8 (some (8, 8, 3)) none (v6Succ 1) [],
        mkNode 0x10 (0, 8) 8 (some (8, 8, 3)) none (v6Succ 2) [],
        mkNode 0x10 (0, 8) 8 (some (8, 8, 3)) none (v6Succ 3) [],
        mkNode 0x10 (0, 8) 8 (some (8, 8, 3)) none (v6Succ 4) [],
        mkNode 0x20 (0, 0) 0 none (some (32, 16, 0)) [] [(13, 0, 4)],
        mkNode 0x80 (0, 0) 0 none none [] [(13, 0, 4)] ] }

/-- The graph of a bank. -/
def graphOf (b : Bank) : Graph := b.graph.getD builtInGraph

/-! ## The key (R209) -/

/-- The 576 bits of the key (Table 6.7). -/
def keyBits (k : Key) : Nat :=
  k.source * 2 ^ 568 + k.dir * 2 ^ 566 + k.tenant * 2 ^ 558 + b2n k.tenantV * 2 ^ 557 + k.pflags * 2 ^ 549
    + k.visits * 2 ^ 545 + b2n k.depthX * 2 ^ 544 + k.len * 2 ^ 530 + k.lastNode * 2 ^ 522
    + ((List.range 16).map fun i => (nthW k.slots i).toNat * 2 ^ (32 * i)).foldl (· + ·) 0

/-- The key that a walk yields for a frame. TENANT is known before classification for frames that are not
downstream (R210). -/
def keyOf (f : Frame) (w : Walk) : Key :=
  let known := f.dir ≠ 0 && f.world ≤ 0xFF
  { source := f.source, dir := f.dir, tenant := if known then f.world else 0, tenantV := known, pflags := w.pflags,
    visits := w.trail.length, len := f.len, lastNode := (w.trail.getLast?.map Prod.snd).getD 0, slots := w.slots }

/-- A parse unit's walk of a frame, and the exception that it may raise with its disposition (R201, R205). -/
def parsed (id : Nat) (b : Bank) (x : Flight) (s : State) : State :=
  let g := graphOf b
  let w := walkGraph g (fld (nthW g.sourceSel x.frame.source) 7 0) x.frame.bytes x.frame.len
  let k := keyOf x.frame w
  if w.exc = 0 then setFlight id { x with key := k, walk := w.trail, place := .parsed } s
  else
    let s1 := bumpW (cid 6 6 (w.exc - 1)) 5 x.frame.source x.frame.world s
    match (excCfg b w.exc x.frame.source).disp with
    | 2 => setFlight id { raisedBy w.exc x with key := { k with excAct := true }, walk := w.trail, place := .parsed } s1
    | 3 => setFlight id { raisedBy w.exc x with key := { k with depthX := true }, walk := w.trail, place := .parsed } s1
    | _ => excEnd b w.exc id s1

/-- PARSE_WALK: a parse unit walks the graph over a frame of its slice (R200 to R205, R209); one that its
channel has poisoned is dropped there (R16). -/
def execParseWalk (frame : Nat) (s : State) : Res :=
  match flightAt s frame with
  | some x =>
    if x.place ≠ .sprayed || x.void then .next s
    else if x.frame.poison then .next (dropCounted cDropChannel 9 (0x42 + x.frame.slice) frame s)
    else match bankOf s x.frame with
    | some b => .next (parsed frame b x s)
    | none => .next (dropEpoch frame s)
  | none => .fault .noSuchObject

end Sys2Proof.Machine
end

