-- ==== Sys2Proof/Machine/Rules.lean ====
section
/-! DEFINITION. The rule store, the tree walks and the merged action, rule versions and their commands (chapter 6). -/

namespace Sys2Proof.Machine

/-! ## Actions (Table 6.9) -/

def actOp (a : Action) : Nat := fld a.w0 31 29
def actSetClass (a : Action) : Bool := bit a.w0 28
def actSetColour (a : Action) : Bool := bit a.w0 27
def actSetQueue (a : Action) : Bool := bit a.w0 26
def actSetTenant (a : Action) : Bool := bit a.w0 25
def actForce (a : Action) : Bool := bit a.w0 24
def actClass (a : Action) : Nat := fld a.w0 23 18
def actColour (a : Action) : Nat := fld a.w0 17 16
def actTenant (a : Action) : Nat := fld a.w0 15 8
def actHostq (a : Action) : Nat := fld a.w0 7 0
def actMirror (a : Action) : Option Nat := if bit a.w1 31 then some (fld a.w1 30 25) else none
def actQueue (a : Action) : Nat × Bool := (fld a.w1 17 0, bit a.w1 18)

/-- The rank of an OP: DROP above TRAP above COPY above PERMIT (R215). -/
def opRank (op : Nat) : Nat := if op = 1 then 3 else if op = 2 then 2 else if op = 3 then 1 else 0

/-- The two walk results merged into one action (R215). Where both results rank the same, the spec does not say whose
HOSTQ the frame goes to: `tie` decides. -/
def mergeActions (op : Action) (ten : Option Action) (tie : Bool) : Merged :=
  match ten with
  | none =>
    { op := actOp op, hostq := actHostq op, cls := if actSetClass op then actClass op else 0,
      colour := if actSetColour op then actColour op else 0, queue := if actSetQueue op then some (actQueue op) else none,
      mirrors := (actMirror op).toList }
  | some t =>
    let win := if opRank (actOp op) < opRank (actOp t) then t else if opRank (actOp t) < opRank (actOp op) then op
      else if tie then t else op
    let first (sets : Action → Bool) : Option Action :=
      if actForce op && sets op then some op else if sets t then some t else if sets op then some op else none
    { op := actOp win, hostq := actHostq win, cls := ((first actSetClass).map actClass).getD 0,
      colour := max (if actSetColour op then actColour op else 0) (if actSetColour t then actColour t else 0),
      queue := (first actSetQueue).map actQueue,
      mirrors := (actMirror op).toList ++ (actMirror t).toList.filter fun k => some k ≠ actMirror op }

/-! ## Walks (R210 to R213) -/

/-- The key words that PRESENT names, in rising order. -/
def presentBits (p : Nat) : List Nat := (List.range 18).filter p.testBit

/-- A range holds for a key. -/
def rangeHolds (key : Nat) (r : Option (Nat × Nat × Nat)) : Bool :=
  match r with
  | none => true
  | some (f, lo, hi) => lo ≤ key / 2 ^ (16 * f) % 65536 && key / 2 ^ (16 * f) % 65536 ≤ hi

/-- A rule matches a key (R212). -/
def ruleMatches (key : Nat) (r : Rule) : Bool :=
  ((presentBits r.present).zip r.cmp).all (fun e => wd (key / 2 ^ (32 * e.1)) &&& e.2.2 = e.2.1 &&& e.2.2)
    && rangeHolds key r.r0 && rangeHolds key r.r1

/-- The rules of the leaf that a walk reaches (R212). -/
def leafRules (t : Tree) (key fuel node : Nat) : List Rule :=
  match fuel with
  | 0 => []
  | k + 1 =>
    let n := t.nodes.getD node (0, 0)
    let v := key / 2 ^ (fld n.1 25 16) % 2 ^ (fld n.1 31 28)
    let c := t.children.getD (n.2.toNat + v) 0
    match fld c 31 30 with
    | 1 => leafRules t key k (fld c 23 0)
    | 2 => (t.leaves.getD (fld c 23 0) (0, [])).2
    | _ => []

/-- The steps of a walk, which ends at a leaf or at a child that is none (Table 17.6, R212). -/
def walkSteps (t : Tree) (key fuel node : Nat) : Nat :=
  match fuel with
  | 0 => 0
  | k + 1 =>
    let n := t.nodes.getD node (0, 0)
    let c := t.children.getD (n.2.toNat + key / 2 ^ (fld n.1 25 16) % 2 ^ (fld n.1 31 28)) 0
    if fld c 31 30 = 1 then 1 + walkSteps t key k (fld c 23 0) else 1

/-- The better of two rules: the higher PRIORITY, then the lower ID (R213). -/
def betterRule (a b : Rule × Bool) : Rule × Bool :=
  if a.1.prio < b.1.prio || (a.1.prio = b.1.prio && b.1.id < a.1.id) then b else a

/-- The result of a walk: the winner's action, or DEFAULT; and whether the winner came from the side table (R213). -/
def treeResult (t : Tree) (key : Nat) : Action × Bool :=
  let cands := ((leafRules t key 16 0).filter (ruleMatches key)).map (·, false)
    ++ ((t.side.map Prod.snd).filter (ruleMatches key)).map (·, true)
  match cands with
  | [] => (t.default, false)
  | c :: r => let w := r.foldl betterRule c; (w.1.act, w.2)

/-- Why a walk gives no result: NO_TREE, or a tree of another world (R211). -/
inductive NoWalk where
  | noTree | world
deriving DecidableEq, Repr

/-- The operator walk (R211). -/
def operatorWalk (b : Bank) (v : Version) (source key : Nat) : Except NoWalk (Action × Bool) :=
  let w := nthW (graphOf b).sourceSel source
  match bit w 31, mget v.trees (fld w 29 24) with
  | true, some t => if t.world = 0x0100 then .ok (treeResult t key) else .error .world
  | _, _ => .error .noTree

/-- The tenant walk, over UP_TREE or DN_TREE (R210, R211). -/
def tenantWalk (b : Bank) (v : Version) (down : Bool) (world key : Nat) : Except NoWalk (Option (Action × Bool)) :=
  let w := nthW (graphOf b).tenantSel world
  let valid := if down then bit w 15 else bit w 31
  let idx := if down then fld w 13 8 else fld w 29 24
  if 0xFF < world || !valid then .ok none
  else match mget v.trees idx with
  | none => .ok none
  | some t => if t.world = world then .ok (some (treeResult t key)) else .error .world

/-- The world that an operator result gives a downstream frame (R215). -/
def downWorld (a : Action) : Nat := if actSetTenant a then actTenant a else 0x0100

/-- What the classify unit decides: the operator result, the tenant result, the world, and a side hit. -/
def walkBoth (b : Bank) (v : Version) (f : Frame) (k : Key) :
    Except NoWalk (Action × Option Action × Nat × Bool) :=
  if f.dir = 0 then
    match operatorWalk b v f.source (keyBits k) with
    | .error e => .error e
    | .ok (op, h) =>
      let w := downWorld op
      let k2 := if w ≤ 0xFF then { k with tenant := w, tenantV := true } else k
      match tenantWalk b v true w (keyBits k2) with
      | .error e => .error e
      | .ok none => .ok (op, none, w, h)
      | .ok (some (t, h2)) => .ok (op, some t, w, h || h2)
  else
    match tenantWalk b v false f.world (keyBits k) with
    | .error e => .error e
    | .ok t =>
      match operatorWalk b v f.source (keyBits k) with
      | .error e => .error e
      | .ok (op, h) => .ok (op, t.map Prod.fst, f.world, h || (t.map Prod.snd).getD false)

/-- The counters of Table 6.6 by position. -/
def cClass (pos : Nat) : Nat := cid 6 6 pos

/-- Apply the merged action to a frame: its world, DROP, TRAP or COPY, CLASS and COLOUR; the frame leaves the classify
unit (R215, R222, R302). -/
def applyMerged (id : Nat) (b : Bank) (x : Flight) (op : Action) (ten : Option Action) (world : Nat) (s : State) : State :=
  let tie := Config.freeNat s.free % 2 = 1
  let m := mergeActions op ten tie
  let f := { x.frame with world := world, cls := m.cls, colour := m.colour }
  let s1 := setFlight id { x with frame := f, act := m, place := .classified }
    (if ten.isSome then takeFree s else s)
  if (match x.chan with | some w => !serves w world | none => false) then dropCounted cDropWorld 0 0 id s1
  else match m.op with
  | 1 => dropCounted (cClass 4) 5 f.source id s1
  | 2 => dropFlight id (excHost b 0x10 m.hostq { f with cells := [] } s1)
  | 3 => leaveVersion id (excCopy b id m.hostq s1)
  | _ => leaveVersion id s1

/-- The exception action of a code takes the place of the walks (R205). -/
def applyExcAction (id : Nat) (b : Bank) (x : Flight) (code : Nat) (s : State) : State :=
  let a := (excCfg b code x.frame.source).act
  applyMerged id b (raisedBy code x) a none (if x.frame.dir = 0 then downWorld a else x.frame.world) s

/-- The walk steps of a frame: in the operator's tree of its SOURCE, and in its world's tree where that is walked. -/
def stepsOf (b : Bank) (v : Version) (f : Frame) (k : Key) (world : Nat) (tenant : Bool) : Nat :=
  let in_ (idx key : Nat) : Nat := match mget v.trees idx with | some t => walkSteps t key 16 0 | none => 0
  let w := nthW (graphOf b).tenantSel world
  let kt := if f.dir = 0 && world ≤ 0xFF then { k with tenant := world, tenantV := true } else k
  in_ (fld (nthW (graphOf b).sourceSel f.source) 29 24) (keyBits k)
    + (if tenant then in_ (if f.dir = 0 then fld w 13 8 else fld w 29 24) (keyBits kt) else 0)

/-- The world that a frame has when its tenant walk begins: downstream, the one into which the operator walk puts it (R210, R211). -/
def worldWalked (b : Bank) (v : Version) (f : Frame) (k : Key) : Nat :=
  match operatorWalk b v f.source (keyBits k) with
  | .ok (op, _) => if f.dir = 0 then downWorld op else f.world
  | .error _ => f.world

/-- A frame at its classify unit (R210 to R215, R222). -/
def classify (id : Nat) (b : Bank) (x : Flight) (s : State) : State :=
  let v := versionAt s x.frame.rver
  if v.st = .free then dropCounted (cClass 6) 5 x.frame.source id s
  else if x.key.excAct then applyExcAction id b x 1 s
  else match walkBoth b v x.frame x.key with
  | .error .world => bumpW cDropWorld 0 0 (worldWalked b v x.frame x.key) (dropFlight id s)
  | .error .noTree => if (excCfg b 3 x.frame.source).disp = 2 then applyExcAction id b x 3 s else excEnd b 3 id s
  | .ok (op, ten, world, hit) =>
    let steps := stepsOf b v x.frame x.key world ten.isSome
    applyMerged id b x op ten world (countEvent (0x42 + x.frame.slice) 0x100 world steps
      (if hit then bumpW (cClass 9) 5 x.frame.source world s else s))

/-- CLASSIFY: a classify unit takes a parsed frame of its slice. -/
def execClassify (frame : Nat) (s : State) : Res :=
  match flightAt s frame with
  | some x =>
    if x.place ≠ .parsed || x.void then .next s
    else if x.frame.poison then .next (dropCounted cDropChannel 9 (0x42 + x.frame.slice) frame s)
    else match bankOf s x.frame with
    | some b => .next (classify frame b x s)
    | none => .next (dropEpoch frame s)
  | none => .fault .noSuchObject

/-! ## Rule records (R216, R217) -/

/-- The ground on which an action is refused in a tree of a world (R216). An absolute QUEUE lies outside the tree's world only
when it does on both sides; HOSTQ counts for TRAP and COPY, and one bound to no world lies outside (DEDUCED, log entry 22). -/
def actionGround (s : State) (world : Nat) (a : Action) : Option Status :=
  let (q, rel) := actQueue a
  let dw := ((termAt s (q / 8)).map Terminal.world).getD 0x0100
  let nw := (mgetD s.tm.queues ⟨1, 4, q⟩ {}).world
  let h := hrqAt s (actHostq a)
  if 3 < actOp a || actColour a = 3 || fld a.w1 24 19 ≠ 0 || (rel && 8 ≤ q) then some .badParam
  else if world ≠ 0x0100 && (actSetTenant a || actForce a) then some .badParam
  else if actSetQueue a && !rel && dw ≠ world && (65536 ≤ q || nw ≠ world) then some .badWorld
  else if (actOp a = 2 || actOp a = 3) && (h.bound = 0xFF || h.world ≠ world) then some .badWorld
  else if world ≠ 0x0100 && (actMirror a).any fun k => (mgetD s.tm.sessions k {}).world ≠ world then some .badWorld
  else none

/-- The reserved fields of a rule record's first eight words (Tables 6.9 and 6.10); QUEUE[17:3] must be 0 under QUEUE_REL (R550). -/
def recMasks (ws : List Word) : List Word :=
  [0x00FC0000#32, 0xFFF00000#32, 0xFFFC0000#32, 0x40FF40FF#32, 0, 0, 0, if bit (nthW ws 7) 18 then 0x01FBFFF8#32 else 0x01F80000#32]

/-- The first word of a record that adds a rule whose field does not fit (Table 6.10): its WORDS, or the field of a range. -/
def ruleFault (ws : List Word) : Option Nat :=
  let n := 8 + 2 * (presentBits (fld (nthW ws 2) 17 0)).length
  if fld (nthW ws 0) 29 24 ≠ n || ws.length < n then some 0
  else if 35 < fld (nthW ws 3) 13 8 || 35 < fld (nthW ws 3) 29 24 then some 3
  else none

/-- The rule of a record of 8 words or more; none where its WORDS or a field does not fit (Table 6.10). -/
def ruleOf (ws : List Word) : Option Rule :=
  let p := fld (nthW ws 2) 17 0
  let n := (presentBits p).length
  let w3 := nthW ws 3
  let r0 := if bit w3 15 then some (fld w3 13 8, fld (nthW ws 4) 15 0, fld (nthW ws 4) 31 16) else none
  let r1 := if bit w3 31 then some (fld w3 29 24, fld (nthW ws 5) 15 0, fld (nthW ws 5) 31 16) else none
  if (ruleFault ws).isSome then none
  else some { id := fld (nthW ws 0) 17 0, prio := fld (nthW ws 1) 19 0, present := p,
              cmp := (List.range n).map fun i => (nthW ws (8 + 2 * i), nthW ws (9 + 2 * i)),
              r0 := r0, r1 := r1, act := ⟨nthW ws 6, nthW ws 7⟩ }

/-- The records of some words, each with the index of its first word; none where one runs beyond the end (R219). -/
def splitRecs (fuel at_ : Nat) (ws : List Word) : Option (List (Nat × List Word)) :=
  match fuel, ws with
  | _, [] => some []
  | 0, _ => none
  | k + 1, w :: r =>
    let n := max 1 (fld w 29 24)
    if ws.length < n then none
    else (splitRecs k (at_ + n) ((w :: r).drop n)).map ((at_, ws.take n) :: ·)

/-! ## Trees and the store (R218, R219) -/

/-- The rules of a tree, each once. -/
def treeRules (t : Tree) : List Rule :=
  (t.leaves.flatMap Prod.snd ++ t.side.map Prod.snd).foldl
    (fun l r => if l.any fun x => x.id = r.id then l else l ++ [r]) []

/-- The versions that are not retired, with a candidate in place of one. -/
def liveTrees (s : State) (v : Nat) (trees : Map Nat Tree) : List Tree :=
  ((s.rules.versions.filter fun e => e.1 ≠ v && e.2.st ≠ .free).flatMap fun e => e.2.trees.map Prod.snd)
    ++ trees.map Prod.snd

/-- Sum a measure over the distinct numbers of a list. -/
def sumDistinct (l : List (Nat × Nat)) : Nat :=
  (l.foldl (fun (acc : List Nat × Nat) e => if acc.1.contains e.1 then acc else (e.1 :: acc.1, acc.2 + e.2)) ([], 0)).2

/-- The bytes of a rule record. -/
def ruleBytes (r : Rule) : Nat := 4 * (8 + 2 * r.cmp.length)

/-- The bytes that some trees take: images, leaf copies of 32 bytes, and side entries, each once (R218, R219). -/
def storeUsed (ts : List Tree) : Nat :=
  sumDistinct (ts.map fun t => (t.image, t.size))
    + sumDistinct ((ts.flatMap fun t => t.leaves.map fun l => (l.1, 32)).filter fun e => e.1 ≠ 0)
    + sumDistinct (ts.flatMap fun t => t.side.map fun e => (e.1, ruleBytes e.2))

/-- The rule store of 24 MiB (Table 1.10). -/
def storeSize : Nat := 25165824

/-- The distinct side entries of a tree in every version that is not retired (R219). -/
def sideCount (s : State) (v idx : Nat) (t : Tree) : Nat :=
  let others := (s.rules.versions.filter fun e => e.1 ≠ v && e.2.st ≠ .free).flatMap fun e =>
    ((mget e.2.trees idx).map Tree.side).getD []
  sumDistinct ((others ++ t.side).map fun e => (e.1, 1))

/-- The open version, or the one that would open: its number and trees; none where it is not FREE (R220). -/
def openVersion (s : State) : Option (Nat × Map Nat Tree) :=
  match s.rules.versions.find? fun e => e.2.st = .opened with
  | some e => some (e.1, e.2.trees)
  | none =>
    let v := (s.rules.current + 1) % 8
    if (versionAt s v).st = .free then some (v, (versionAt s s.rules.current).trees) else none

/-- The limits of R218 on the trees of a version. -/
def storeFull (s : State) (v : Nat) (trees : Map Nat Tree) : Bool :=
  262144 < ((trees.map fun e => (treeRules e.2).length).foldl (· + ·) 0)
    || storeSize < storeUsed (liveTrees s v trees)

/-- Put trees into the open version, which opens with its first change (R220). -/
def putTrees (v : Nat) (trees : Map Nat Tree) (s : State) : State :=
  updVersion v (fun x => { x with st := .opened, trees := trees }) s

/-- A command of a world may reach a tree; `image` is the WORLD of the image that it loads. A tree enters a world, or another one, only when
the physical function loads an image naming it (R50, R218). -/
def treeGround (c : Ctx) (s : State) (idx : Nat) (image : Option Nat) : Option (Status × List Word) :=
  match mget s.rules.worlds idx with
  | none => if image.isSome && c.master = .pf then none else some (.notFound, [])
  | some w =>
    if (c.world ≠ 0x0100 && w ≠ c.world) || (c.master ≠ .pf && image.any (· ≠ w)) then some (.badWorld, []) else none

/-! ## RULE_TREE_LOAD (R212, R216, R218) -/

/-- A node's longest path fits in a number of internal nodes. -/
def pathFits (nodes : List (Word × Word)) (children : List Word) (fuel node : Nat) : Bool :=
  match fuel with
  | 0 => false
  | k + 1 =>
    let n := nodes.getD node (0, 0)
    (List.range (2 ^ fld n.1 31 28)).all fun v =>
      let c := children.getD (n.2.toNat + v) 0
      fld c 31 30 ≠ 1 || pathFits nodes children k (fld c 23 0)

/-- Pairs of words. -/
def pairWords (ws : List Word) : List (Word × Word) :=
  (List.range (ws.length / 2)).map fun i => (nthW ws (2 * i), nthW ws (2 * i + 1))

/-- The tree that an image holds, or the ground on which the image itself is refused. -/
def treeImage (s : State) (idx : Nat) (d : List Byte) : Except (Status × List Word) Tree :=
  let n (o : Nat) : Nat := (wordAt d o).toNat
  let nc := n 0x14
  let cc := n 0x18
  let lc := n 0x1C
  let rb := n 0x24
  let world := n 0x0C
  if d.length < 64 || wordAt d 0 ≠ 0x44545245#32 || wordAt d 4 ≠ 1 || n 8 ≠ idx || rb % 4 ≠ 0
      || d.length ≠ 64 + 8 * nc + 4 * cc + 32 * lc + rb || crc32 (d.drop 0x34) ≠ wordAt d 0x30 then
    .error (.imageInvalid, [])
  else
    let nodes := pairWords (wordsOfBytes (2 * nc) (d.drop 64))
    let children := wordsOfBytes cc (d.drop (64 + 8 * nc))
    let leafWords := wordsOfBytes (8 * lc) (d.drop (64 + 8 * nc + 4 * cc))
    let area := wordsOfBytes (rb / 4) (d.drop (64 + 8 * nc + 4 * cc + 32 * lc))
    let dflt : Action := ⟨wordAt d 0x28, wordAt d 0x2C⟩
    let nodeBad (e : Word × Word) : Bool :=
      let w := fld e.1 31 28
      fld e.1 27 26 ≠ 0 || fld e.1 15 0 ≠ 0 || w = 0 || 8 < w || 576 < fld e.1 25 16 + w || cc < e.2.toNat + 2 ^ w
    let childBad (e : Word) : Bool :=
      fld e 29 24 ≠ 0 || fld e 31 30 = 3 || (fld e 31 30 = 1 && nc ≤ fld e 23 0) || (fld e 31 30 = 2 && lc ≤ fld e 23 0)
    match splitRecs (area.length + 1) 0 area with
    | none => .error (.imageInvalid, [])
    | some recs =>
      let rules := recs.map fun r => (4 * r.1, if fld (nthW r.2 0) 31 30 = 0 && (reservedAt (recMasks r.2) r.2).isNone then ruleOf r.2 else none)
      let ruleAt (o : Nat) : Option Rule := match rules.find? fun r => r.1 = o with | some r => r.2 | none => none
      let leafOffs := (List.range lc).map fun i => ((leafWords.drop (8 * i)).take 8).filter (· ≠ 0xFFFFFFFF#32)
      let ids := rules.filterMap fun r => r.2.map Rule.id
      let acts := dflt :: rules.filterMap fun r => r.2.map Rule.act
      if recs.length ≠ n 0x10 then .error (.imageInvalid, [])
      else if (slice d 0x34 12).any (· ≠ 0) || nc = 0 || nodes.any nodeBad || children.any childBad
          || rules.any (fun r => r.2.isNone) || ids.eraseDups.length ≠ ids.length
          || leafOffs.any (fun l => l.any fun o => (ruleAt o.toNat).isNone) then .error (.badParam, [0])
      else if n 0x20 = 0 || (n 0x20 ≤ 16 && !pathFits nodes children (n 0x20) 0) then .error (.badParam, [0])
      else match acts.findSome? (actionGround s world) with
      | some .badParam => .error (.badParam, [0])
      | some st => .error (st, [])
      | none =>
        if 16 < n 0x20 then .error (.noSpace, []) else
        .ok { world := world, image := s.rules.images + 1, size := d.length, nodes := nodes, children := children,
              leaves := leafOffs.map fun l => (0, l.filterMap fun o => ruleAt o.toNat), default := dflt }

/-- The number and trees of the version that a load or update would alter; where none may open, the number is none and the trees are the
current version's (R220). -/
def targetVersion (s : State) : Option Nat × Map Nat Tree :=
  match openVersion s with
  | some (v, trees) => (some v, trees)
  | none => (none, (versionAt s s.rules.current).trees)

/-- Put trees that pass the limits of R218 into the open version, if one may open (R220). -/
def commitTrees (v : Option Nat) (trees : Map Nat Tree) (s : State) (k : State → State) : HRes :=
  refuseIf (storeFull s (v.getD 8) trees) .noSpace [] <|
  match v with
  | none => .refuse .versionBusy []
  | some v => .done (k (putTrees v trees s)) []

/-- RULE_TREE_LOAD. What its rules say of the image itself comes first, then its WORLD and its tree. -/
def runRuleTreeLoad (c : Ctx) (s : State) : HRes :=
  let idx := fld (c.w 0) 5 0
  refuseIf (!c.hasData) .badParam [0] <|
  match treeImage s idx c.data with
  | .error (st, ws) => .refuse st ws
  | .ok t =>
    refuseIf (!worldCode t.world || (c.world ≠ 0x0100 && t.world ≠ c.world)) .badWorld [] <|
    match treeGround c s idx (some t.world) with
    | some (st, ws) => .refuse st ws
    | none =>
      let (v, trees) := targetVersion s
      commitTrees v (mset trees idx t) s fun s =>
        { s with rules := { s.rules with worlds := mset s.rules.worlds idx t.world, images := s.rules.images + 1 } }

def opRuleTreeLoad : OpSpec :=
  { code := 0x3002, vf := true, home := (0x04, 1), units := sliceUnits, instAll := true, len := exactly 1, rsv := masks [0xFFFFFFC0#32],
    stage := .refused, objs := fun ws => [(0x3002, fld (nthW ws 0) 5 0)], run := runRuleTreeLoad }

/-! ## RULE_UPDATE (R219) -/

/-- A tree holds a rule in a leaf, or as a side entry. -/
def inLeaves (t : Tree) (id : Nat) : Bool := t.leaves.any fun l => l.2.any fun r => r.id = id
def inSide (t : Tree) (id : Nat) : Bool := t.side.any fun e => e.2.id = id

/-- Copy every leaf that holds a rule, altered; `k` is the number of the last copy so far. -/
def copyLeaves (id : Nat) (f : List Rule → List Rule) (k : Nat) (ls : List (Nat × List Rule)) : List (Nat × List Rule) × Nat :=
  match ls with
  | [] => ([], k)
  | l :: r =>
    if l.2.any fun x => x.id = id then
      let (r', k') := copyLeaves id f (k + 1) r
      ((k + 1, f l.2) :: r', k')
    else
      let (r', k') := copyLeaves id f k r
      (l :: r', k')

/-- Apply one record to a tree of the open version; `at_` is the parameter word at which it begins. A BAD_PARAM names the word of the field at
fault (R550): what an action can break that is not reserved stands in word 6 of its record. -/
def applyRec (s : State) (at_ : Nat) (ws : List Word) (t : Tree) (copies sides : Nat) :
    Except (Status × List Word) (Tree × Nat × Nat) :=
  let id := fld (nthW ws 0) 17 0
  let act : Action := ⟨nthW ws 6, nthW ws 7⟩
  let leaf (f : List Rule → List Rule) : Tree × Nat × Nat :=
    let (ls, k) := copyLeaves id f copies t.leaves
    ({ t with leaves := ls }, k, sides)
  match fld (nthW ws 0) 31 30 with
  | 0 =>
    match ruleOf ws with
    | none => .error (.badParam, [wd (at_ + (ruleFault ws).getD 0)])
    | some r =>
      match actionGround s t.world r.act with
      | some .badParam => .error (.badParam, [wd (at_ + 6)])
      | some st => .error (st, [])
      | none =>
        if inLeaves t id || inSide t id then .error (.exists, [])
        else .ok ({ t with side := t.side ++ [(sides + 1, r)] }, copies, sides + 1)
  | 1 =>
    if fld (nthW ws 0) 29 24 ≠ 1 then .error (.badParam, [wd at_])
    else if inSide t id then .ok ({ t with side := t.side.filter fun e => e.2.id ≠ id }, copies, sides)
    else if inLeaves t id then .ok (leaf fun rs => rs.filter fun r => r.id ≠ id)
    else .error (.notFound, [])
  | 2 =>
    if ws.length ≠ 8 then .error (.badParam, [wd at_])
    else match actionGround s t.world act with
    | some .badParam => .error (.badParam, [wd (at_ + 6)])
    | some st => .error (st, [])
    | none =>
      if inSide t id then
        .ok ({ t with side := t.side.map fun e => if e.2.id = id then (sides + 1, { e.2 with act := act }) else e }, copies, sides + 1)
      else if inLeaves t id then .ok (leaf fun rs => rs.map fun r => if r.id = id then { r with act := act } else r)
      else .error (.notFound, [])
  | _ => .error (.badParam, [wd at_])

/-- Apply the records in order, all or none; a full side table refuses an add (R219). -/
def applyRecs (s : State) (v idx : Nat) (recs : List (Nat × List Word)) (t : Tree) (copies sides : Nat) :
    Except (Status × List Word) (Tree × Nat × Nat) :=
  match recs with
  | [] => .ok (t, copies, sides)
  | r :: rest =>
    match applyRec s r.1 r.2 t copies sides with
    | .error e => .error e
    | .ok (t', k, m) =>
      if sides < m && 256 < sideCount s v idx t' then .error (.noSpace, [])
      else applyRecs s v idx rest t' k m

/-- The records of RULE_UPDATE with the parameter word at which each begins. -/
def updateRecs (ws : List Word) : Option (List (Nat × List Word)) := splitRecs ws.length 1 (ws.drop 1)

/-- The first reserved word of RULE_UPDATE: word 0, and each record's. -/
def updateRsv (ws : List Word) : Option Nat :=
  match masks [0xFFFFFFC0#32] ws with
  | some i => some i
  | none => ((updateRecs ws).getD []).findSome? fun r => (reservedAt (recMasks r.2) r.2).map (· + r.1)

/-- RULE_UPDATE. -/
def runRuleUpdate (c : Ctx) (s : State) : HRes :=
  let idx := fld (c.w 0) 5 0
  match treeGround c s idx none with
  | some (st, ws) => .refuse st ws
  | none =>
    let (v, trees) := targetVersion s
    match mget trees idx with
    | none => .refuse .notFound []
    | some t =>
      match applyRecs s (v.getD 8) idx ((updateRecs c.words).getD []) t s.rules.copies s.rules.sides with
      | .error (st, ws) => .refuse st ws
      | .ok (t', k, m) =>
        commitTrees v (mset trees idx t') s fun s => { s with rules := { s.rules with copies := k, sides := m } }

def opRuleUpdate : OpSpec :=
  { code := 0x3003, vf := true, home := (0x04, 1), units := sliceUnits, instAll := true, rsv := updateRsv,
    len := fun ws => 1 ≤ ws.length && (updateRecs ws).isSome,
    stage := .refused, objs := fun ws => [(0x3002, fld (nthW ws 0) 5 0)], run := runRuleUpdate }

/-! ## Rule versions (R220 to R223) -/

/-- RULE_VERSION_COMMIT (R221). -/
def runRuleVersionCommit (_c : Ctx) (s : State) : HRes :=
  refuseIf (s.halter.stage = .halter) .notPermitted [] <|
  match s.rules.versions.find? fun e => e.2.st = .opened with
  | none => .done s [wd s.rules.current]
  | some e =>
    let s1 := updVersion s.rules.current (fun x => { x with st := .draining, since := s.mono }) s
    let s2 := updVersion e.1 (fun x => { x with st := .current }) s1
    .done { s2 with rules := { s2.rules with current := e.1 } } [wd e.1]

def opRuleVersionCommit : OpSpec :=
  { code := 0x3004, home := (0x04, 1), units := sliceUnits, instAll := true, oWorld := true, len := exactly 0, stage := .refused,
    run := runRuleVersionCommit }

/-- The code of a version state (R223). -/
def verCode : VerState → Nat
  | .free => 0 | .opened => 1 | .current => 2 | .draining => 3

/-- RULE_VERSION_STATUS (R223). -/
def runRuleVersionStatus (c : Ctx) (s : State) : HRes :=
  let cur := (versionAt s s.rules.current).trees
  let mine (t : Tree) : Bool := match c.master with | .vf _ => t.world = c.world | _ => true
  let n := ((cur.filter fun e => mine e.2).map fun e => (treeRules e.2).length).foldl (· + ·) 0
  let free := storeSize - storeUsed (liveTrees s 8 [])
  .done s ((List.range 8).map (fun v => pack [(verCode (versionAt s v).st, 2, 30), ((versionAt s v).inFlight, 30, 0)])
    ++ [pack [(n, 19, 0)], pack [(free / 1024, 15, 0)]])

def opRuleVersionStatus : OpSpec :=
  { code := 0x3005, vf := true, home := (0x04, 1), units := sliceUnits, instAll := true, writes := false, len := exactly 0,
    run := runRuleVersionStatus }

/-- A version becomes FREE with its notification (Table 6.11). -/
def freeVersion (v : Nat) (s : State) : State :=
  notify .ruleVersionRetired [wd v] (updVersion v (fun _ => {}) s)

/-- RULE_VERSION_RETIRED: a draining version whose in-flight count is 0 (R220). -/
def execRuleVersionRetired (v : Nat) (s : State) : Res :=
  onObject (v < 8) <| whenever ((versionAt s v).st = .draining && (versionAt s v).inFlight = 0) (freeVersion v) s

/-- The frames that a version still counts are dropped in DROP_RVER (R220). -/
def dropVersion (v : Nat) (s : State) : State :=
  forEach s.pkt.flights (fun e s =>
    if e.2.counted && e.2.frame.rver = v then dropCounted (cClass 6) 5 e.2.frame.source e.1 s else s) s

/-- RVER_DRAIN_LATE: 1 ms in DRAINING with a nonzero count (R220, fault code 0x0411). -/
def execRverDrainLate (v : Nat) (s : State) : Res :=
  onObject (v < 8) <|
    whenever ((versionAt s v).st = .draining && (versionAt s v).inFlight ≠ 0 && passed s (versionAt s v).since ms)
      (fun s => freeVersion v (recordEv 0x0008 3 0x04 0 0 0x0100 [wd v] (raise 0x04 0 0 0 0x0411 1 (wd v) (dropVersion v s)))) s

/-! ## PARSE_GRAPH_LOAD (R202 to R204) -/

/-- The byte offset within a node of its first faulty field. -/
def nodeFault (n : Nat) (ws : List Word) : Option Nat :=
  let past (off w : Nat) : Bool := 512 < off + w
  let bad : List Bool :=
    [ nthW ws 0 &&& 0x00E0FE00#32 ≠ 0 || 16 < selWidth ws || past (selOff ws) (selWidth ws),
      nthW ws 1 &&& 0x00007F00#32 ≠ 0 || 128 < advFixed ws
        || (advMode ws && (advWidth ws = 0 || 8 < advWidth ws || past (advOff ws) (advWidth ws))),
      nthW ws 2 &&& 0x00007F80#32 ≠ 0 || (lenEn ws && (lenWidth ws = 0 || 16 < lenWidth ws || past (lenOff ws) (lenWidth ws))),
      nthW ws 3 &&& 0xFFFFFE00#32 ≠ 0 || (bit (nthW ws 3) 8 && n ≤ fld (nthW ws 3) 7 0) ]
    ++ ((ws.drop 4).take 8).map (fun w => w &&& 0xFE000000#32 ≠ 0 || (bit w 24 && n ≤ fld w 23 16))
    ++ ((ws.drop 12).take 4).map (fun w => w &&& 0x7C0FFFC0#32 ≠ 0 || (bit w 31 && 64 < fld w 5 0 + fld w 25 24 + 1))
  ((List.range 16).find? fun i => bad.getD i false).map (4 * ·)

/-- The graph that an image holds, or the ground on which it is refused. -/
def graphImage (d : List Byte) : Except (Status × List Word) Graph :=
  let n := (wordAt d 8).toNat
  let nodes := (List.range n).map fun i => wordsOfBytes 16 (d.drop (64 + 64 * i))
  let src := wordsOfBytes 96 (d.drop (64 + 64 * n))
  let ten := wordsOfBytes 256 (d.drop (448 + 64 * n))
  let fault : Option Nat :=
    if n = 0 || 256 < n then some 8
    else match (List.range 12).find? (fun i => wordAt d (16 + 4 * i) ≠ 0) with
    | some i => some (16 + 4 * i)
    | none =>
      match (List.range n).findSome? fun i => (nodeFault n (nodes.getD i [])).map (· + (64 + 64 * i)) with
      | some o => some o
      | none =>
        match (List.range 96).find? fun i =>
            nthW src i &&& 0x40FFFF00#32 ≠ 0 || n ≤ fld (nthW src i) 7 0 || (84 < i && nthW src i ≠ 0) with
        | some i => some (64 + 64 * n + 4 * i)
        | none => ((List.range 256).find? fun i => nthW ten i &&& 0x40FF40FF#32 ≠ 0).map fun i => 448 + 64 * n + 4 * i
  if d.length < 64 || wordAt d 0 ≠ 0x44475250#32 || wordAt d 4 ≠ 1 || d.length ≠ 1472 + 64 * n
      || crc32 (d.drop 0x10) ≠ wordAt d 0x0C then .error (.imageInvalid, [])
  else match fault with
  | some o => .error (.badParam, [0, wd o])
  | none => .ok { nodes := nodes, sourceSel := src, tenantSel := ten }

/-- PARSE_GRAPH_LOAD. -/
def runParseGraphLoad (c : Ctx) (s : State) : HRes :=
  refuseIf (!c.hasData) .badParam [0] <|
  match graphImage c.data with
  | .error (st, ws) => .refuse st ws
  | .ok g => .done { s with rules := { s.rules with bank := { s.rules.bank with graph := some g } } } []

def opParseGraphLoad : OpSpec :=
  { code := 0x3001, home := (0x04, 1), units := sliceUnits, instAll := true, oWorld := true, len := exactly 0, stage := .only,
    objs := fun _ => [(0x3001, 0)], run := runParseGraphLoad }

/-! ## EXCEPTION_CONFIG (R206) -/

/-- The dispositions that a code permits (Table 6.4); none for a reserved code. -/
def excPermitted (code : Nat) : List Nat :=
  match code with
  | 0x01 => [0, 1, 2, 3] | 0x02 => [0, 1] | 0x03 => [0, 1, 2] | 0x10 => [1] | 0x11 => [1] | 0x20 => [0, 1] | 0x21 => [0, 1]
  | _ => []

/-- The sources that SOURCE names. -/
def excSources (source : Nat) : List Nat := if source = 0xFF then List.range 85 else [source]

/-- EXCEPTION_CONFIG. -/
def runExceptionConfig (c : Ctx) (s : State) : HRes :=
  let code := fld (c.w 0) 23 16
  let source := fld (c.w 0) 7 0
  let disp := fld (c.w 0) 25 24
  let rate := fld (c.w 1) 31 16
  let q := fld (c.w 1) 7 0
  let a : Action := ⟨c.w 2, c.w 3⟩
  refuseIf (!(excPermitted code).contains disp || (84 < source && source ≠ 0xFF)) .badParam [0] <|
  refuseIf (rate = 0) .badParam [1] <|
  refuseIf ((hrqAt s q).bound = 0xFF || (hrqAt s q).world ≠ 0x0100) .badWorld [] <|
  refuseIf (1 < actOp a || actForce a || actColour a = 3) .badParam [2] <|
  let e : ExcCfg := { disp := disp, rate := rate, hostq := q, act := a }
  let exc := (excSources source).foldl (fun m i => mset m (code * 256 + i) e) s.rules.bank.exc
  .done { s with rules := { s.rules with bank := { s.rules.bank with exc := exc } } } []

/-- The reserved fields of EXCEPTION_CONFIG: with QUEUE_REL, QUEUE[17:3] must be 0 as well (Table 6.9, R550). -/
def exceptionRsv (ws : List Word) : Option Nat :=
  masks [0xFC00FF00#32, 0x0000FF00#32, 0, if bit (nthW ws 3) 18 then 0x01FBFFF8#32 else 0x01F80000#32] ws

def opExceptionConfig : OpSpec :=
  { code := 0x3006, home := (0x04, 1), units := sliceUnits, instAll := true, oWorld := true, len := exactly 4,
    rsv := exceptionRsv, stage := .stageable,
    objs := fun ws => (excSources (fld (nthW ws 0) 7 0)).map fun i => (0x3006, fld (nthW ws 0) 23 16 * 256 + i),
    run := runExceptionConfig }

end Sys2Proof.Machine
end

