-- ==== Sys2Proof/Machine/Vault.lean ====
section
/-! DEFINITION. The Tack store: slots and their uses, Shedar messages, the life-cycle, statements and alarms (chapter 10). -/

namespace Sys2Proof.Machine

/-! ## Slot ranges and attributes (R315 to R318) -/

/-- The code of a life-cycle state (Table 10.3). -/
def lifeCode : Life → Nat
  | .blank => 0 | .provisioned => 1 | .deployed => 2 | .fieldDebug => 3 | .returned => 4 | .scrapped => 5

/-- Attributes from their 64-bit value (Table 10.2). ORIGIN is read only and reads 0 here. -/
def attrOf (n : Nat) : Attr :=
  { world := n / 2 ^ 48 % 2 ^ 16, life := n / 2 ^ 42 % 2 ^ 6, masters := n / 2 ^ 36 % 2 ^ 6,
    usage := n / 2 ^ 32 % 2 ^ 4, neverExport := n.testBit 31, persist := n.testBit 30, ktype := n / 2 ^ 28 % 4 }

/-- The 64-bit value of attributes (Table 10.2). -/
def attrBits (a : Attr) : Nat :=
  a.world * 2 ^ 48 + a.life * 2 ^ 42 + a.masters * 2 ^ 36 + a.usage * 2 ^ 32 + b2n a.neverExport * 2 ^ 31
    + b2n a.persist * 2 ^ 30 + a.ktype * 2 ^ 28 + a.origin * 2 ^ 24

/-- The bits of MASTERS and of USAGE (Table 10.2). -/
def engineBit : Nat := 5
def masterBit : Master → Nat
  | .pf => 0 | .vf _ => 1 | .inband => 2
def useEncrypt : Nat := 0
def useDecrypt : Nat := 1
def useWrap : Nat := 2
def useDerive : Nat := 3

/-- The attributes of a slot permit a master, a world and a use in the present life-cycle state (R318). -/
def permits (s : State) (a : Attr) (mbit world : Nat) (use : Option Nat) : Bool :=
  a.life.testBit (lifeCode s.vault.life) && a.masters.testBit mbit && a.world = world
    && (match use with | some u => a.usage.testBit u | none => true)

/-- A use of a slot that holds a key (R318). -/
def mayUse (s : State) (n mbit world use : Nat) : Bool :=
  (slotAt s n).valid && permits s (slotAt s n).attr mbit world (some use)

/-- An engine may use a slot's key for an object of a world; a 256-bit use needs a key of 256 bits (R318). -/
def engineUse (s : State) (n world use : Nat) (wide : Bool) : Bool :=
  mayUse s n engineBit world use && (!wide || (slotAt s n).attr.ktype ≠ 0)

/-- The slots of the general and PON ranges that carry PERSIST 1 (R320). -/
def persistCount (s : State) : Nat := (s.vault.slots.filter fun e => e.1 < 0x20000 && e.2.attr.persist).length

/-- Giving a slot PERSIST 1 would pass the limit of R320. -/
def persistFull (s : State) (n : Nat) (persist : Bool) : Bool :=
  persist && n < 0x20000 && !(slotAt s n).attr.persist && 8192 ≤ persistCount s

/-- A slot operation waits behind the retiring copy that stands in its way, or behind one that waits (R283, R319). -/
def waitSlot (c : Ctx) (s : State) : HRes :=
  .wait { s with vault := { s.vault with waiting := s.vault.waiting ++ [.command c.q] } } []

/-! ## Writing and erasing slots (R283, R284, R319, R320) -/

/-- Frames in the array have latched this slot and generation (R282). -/
def latched (s : State) (n gen : Nat) : Bool := s.cipher.inPipes.any fun a => a.slot = n && a.gen = gen

/-- Whether a rewrite of a slot waits for the release of a retiring copy (R283). -/
def mustWait (s : State) (n : Nat) : Bool := !s.vault.waiting.isEmpty || (slotAt s n).old.isSome

/-- Whether a slot operation waits behind one that waits (R319). -/
def opsWait (s : State) : Bool := !s.vault.waiting.isEmpty

/-- A slot's body for a key: 256 bits, the key in the lowest, or the 1,024 bits of a control slot, the key first (R316). -/
def bodyOf (n : Nat) (key : List Byte) : List Byte :=
  if isControl n then (key ++ List.replicate 128 0).take 128 else List.replicate (32 - key.length) 0 ++ key.take 32

/-- Write a key into a slot: the generation rises, EXPORTED falls, and a key that frames in flight have latched is
kept as the retiring copy (R283, R319, R340). A persistent slot whose record is not read back keeps its content, which `ok` says (R320). -/
def writeKey (n : Nat) (a : Attr) (origin : Nat) (body : List Byte) (ok : Bool) (s : State) : State :=
  let x := slotAt s n
  keepSlot n { attr := { a with origin := origin }, body := bodyOf n body, gen := (x.gen + 1) % 65536, valid := true, exported := false,
               old := if x.valid && latched s n x.gen then some (x.body, x.gen) else x.old } ok s

/-- A frame's bytes with its FCS inverted. -/
def invertFcs (bs : List Byte) : List Byte := bs.take (bs.length - 4) ++ (bs.drop (bs.length - 4)).map (~~~ ·)

/-- A frame aborted in the array ends as Table 9.2 states. How much of a begun frame has gone when it ends is left out:
the log shows its bytes with the inverted FCS, or, for a card, with the mark of a poisoned end. -/
def abortFrame (a : Admitted) (s : State) : State :=
  let begun := a.at_ < s.mono
  match a.traffic with
  | .txUplink port =>
    let s1 := bumpW (cid 9 10 6) 4 a.chan a.world s
    if begun then emit (.uplink port (invertFcs a.bytes)) s1 else s1
  | .txCard card kind =>
    let s1 := bumpW (cid 9 10 6) 4 a.chan a.world s
    if begun then queueCells s1.link.sel.side { kind := 1, card := card, pri := kind, bytes := a.bytes, poison := true } s1
    else s1
  | .rxHeld => dropFlight a.frame (bumpW (cid 9 10 20) 4 a.chan a.world s)
  | .rxCut => cutEnd a.frame a.chan a.world false (bumpW (cid 9 10 20) 4 a.chan a.world s)
  | .ponDown port terminal => fillIdle port (8 + roundUp 4 a.bytes.length) (bumpW (cid 9 10 21) 2 terminal a.world s)

/-- Abort every admitted frame that a test picks (R284, R313). -/
def abortWhere (p : Admitted → Bool) (s : State) : State :=
  forEach (s.cipher.inPipes.filter p) abortFrame
    { s with cipher := { s.cipher with inPipes := s.cipher.inPipes.filter fun a => !p a } }

/-- The quarter whose pipes serve a kind of traffic: MACsec in CQ_0, PON payload in CQ_1 (Table 1.9). -/
def quarterOf (t : Traffic) : Nat := match t with | .ponDown _ _ => 1 | _ => 0

/-- A quarter of the array is powered and in service; its loss touches the functions of Table 1.9 that it serves alone. -/
def quarterUp (s : State) (q : Nat) : Bool := !s.flt.failed.contains (0x07, 0, q) && !s.halter.gated.contains (0x10 + q)

/-- A quarter admits frames: it is up, and no alarm holds admission (R28, R313). -/
def admits (s : State) (q : Nat) : Bool := quarterUp s q && s.vault.hold.isNone

/-- Empty a slot: frames latched with it are aborted, the generation rises, its NOR record goes (R284, R319, R341). EXPORTED stays until the
slot is next written (R340). -/
def eraseSlot (n : Nat) (resetAttr : Bool) (s : State) : State :=
  let s1 := abortWhere (fun a => a.slot = n) s
  let s2 := { s1 with vault := { s1.vault with nor := mdel s1.vault.nor n } }
  updSlot n (fun x => { attr := if resetAttr then {} else { x.attr with origin := 0 }, body := [],
                        gen := (x.gen + 1) % 65536, valid := false, stored := false, exported := x.exported, old := none }) s2

/-- The secure island executes a slot operation (R319, Table 17.6); the slot's world tags it. -/
def slotOp (n : Nat) (s : State) : State := countEvent 0x48 0x100 (slotAt s n).attr.world 1 s

/-! ## Alarms (R345 to R349) -/

/-- The class of a sensor (Table 10.12). -/
def alarmClass (sensor : Nat) : Nat :=
  match sensor with
  | 0 => 1 | 1 => 1 | 2 => 2 | 3 => 3 | 4 => 3 | 5 => 1 | 6 => 2 | 10 => 1 | _ => 0

/-- Clear every key stage, abort admitted frames and hold admission (R313, R345 class 1). -/
def alarmHold (s : State) : State :=
  let s1 := abortWhere (fun _ => true) s
  { s1 with vault := { s1.vault with hold := some s1.mono } }

/-- A slot operation that an alarm interrupts ends with ABORTED (R348). -/
def abortSlotOps (s : State) : State :=
  let s1 := forEach s.vault.waiting (fun w s =>
    match w with
    | .command q =>
      match (pairAt s q).executing with
      | some x => updPair q (fun p => { p with executing := none })
          (if x.discard then s else replyTo x.pkt .aborted [] 0 s)
      | none => s
    | _ => s) s
  { s1 with vault := { s1.vault with waiting := [] } }

/-- A HIDE_KEY_CHANGE in progress ends with ABORTED, and Hide is to initialise (R374, R378). -/
def hideLost (s : State) : State :=
  let s1 := forEach s.host.pairs (fun e s =>
    match e.2.executing with
    | some x => if x.op = 0x7003 then updPair e.1 (fun p => { p with executing := none })
                  (if x.discard then s else replyTo x.pkt .aborted [] 0 s) else s
    | none => s) s
  { s1 with mem := { s1.mem with initialised := false, lost := true, retiring := none, sweep := 0 } }

/-- Empty every volatile slot and the terminal key table, and clear retiring copies (R345 class 2). -/
def alarmEmpty (s : State) : State :=
  let s1 := hideLost (abortSlotOps s)
  { s1 with vault := { s1.vault with registered := [], built := [], keysS := max 1 s1.vault.keysS, slots := mmap s1.vault.slots fun _ x =>
      if x.attr.persist then { x with old := none } else emptySlot x } }

/-- The life-cycle row that a transition burns next: the one above the highest that is used, 31 where only that one is free (R322). -/
def nextLifeRow (s : State) : Nat :=
  ((List.range 31).filter fun k => mhas s.vault.lifeRows k).foldl (fun _ k => k + 1) 0

/-- Burn a life-cycle row. -/
def burnRow (k : Nat) (l : Life) (ok : Bool) (s : State) : State :=
  { s with vault := { s.vault with lifeRows := mset s.vault.lifeRows k ⟨l, ok⟩ } }

/-- Burn the next life-cycle row with its check value; whether it verifies is open (R322). -/
def burnLife (l : Life) (s : State) : State := burnRow (nextLifeRow s) l (Config.lifeRowBurns (nextLifeRow s)) s

/-- Erase every slot, NOR record and terminal MSK (R321 to RETURNED; R345 class 3). -/
def eraseAll (s : State) : State :=
  let s1 := alarmEmpty (abortWhere (fun _ => true) s)
  { s1 with vault := { s1.vault with msk := [], nor := [], keysS := 2, slots := mmap s1.vault.slots fun _ x => { emptySlot x with stored := false } } }

/-- Class 3 once the scrap-pending bit is burned: every key erased, row 31 burned, SCRAPPED (R345). -/
def scrapRest (s : State) : State := burnRow 31 .scrapped true (eraseAll s)

/-- Class 3: the scrap-pending bit, and the rest (R345). While both feeds are below the lockout the loss of power cuts it: the bit stays burned,
and the next power-up, or the power stage's return from RIDE to RUN, completes the rest (R347; DESIGN CHOICE: log entry 187). -/
def scrap (s : State) : State :=
  let s1 := { s with vault := { s.vault with scrapPending := true } }
  if s.vault.under then s1 else scrapRest s1

/-- A class 3 alarm that power loss interrupted is completed before any image is read (R347). -/
def completeScrap (s : State) : State := if s.vault.scrapPending && s.vault.life ≠ .scrapped then scrapRest s else s

/-- The effects of an alarm's class, each including those below it (Table 10.11). -/
def alarmEffects (cls : Nat) (s : State) : State :=
  let s1 := if 1 ≤ cls then alarmHold s else s
  let s2 := if 2 ≤ cls then countEvent 0x48 0x100 0x0100 1 s1 else s1
  if cls = 2 then alarmEmpty s2 else if cls = 3 then scrap s2 else s2

/-- Word 0 of ALARM_STATUS: the present state of the sensors (R349). -/
def sensorWord (s : State) : Word := wd (s.vault.present % 128 + b2n s.vault.tokensRefused * 128)

/-- The alarm counts' record: the counts of classes 0 to 3 (R349). -/
def alarmCounts (m : Map Nat Nat) : List Word := (List.range 4).map fun k => wd (mgetD m k 0)

/-- An alarm of any class extends a hold of admission (R348). -/
def extendHold (s : State) : State :=
  { s with vault := { s.vault with hold := s.vault.hold.map fun _ => s.mono } }

/-- An alarm: its effects, its record and its notification (R345, R348, R349). -/
def alarm (sensor : Nat) (s : State) : State :=
  let cls := alarmClass sensor
  let s1 := alarmEffects cls (extendHold { s with vault := { s.vault with raised := s.vault.raised ||| 2 ^ sensor } })
  let n := satAdd 0xFFFFFFFF (mgetD s1.vault.counts cls 0) 1
  let counts := mset s1.vault.counts cls n
  let s2 := ownSetting 5 (alarmCounts counts) { s1 with vault := { s1.vault with counts := counts } }
  notify .alarm [wd sensor, wd cls] (recordEv 0x0004 sensor 0x08 3 0 0x0100 [wd cls, sensorWord s2] s2)

/-- A HIDE condition raises sensor 9, and the sixteenth within 1 s sensor 10, after which the count starts afresh
(Table 10.12). -/
def hideCondition (s : State) : State :=
  let times := (s.vault.hideTimes.filter fun t => s.mono < t + sec) ++ [s.mono]
  let s1 := alarm 9 { s with vault := { s.vault with hideTimes := times } }
  if 16 ≤ times.length then alarm 10 { s1 with vault := { s1.vault with hideTimes := [] } } else s1

/-- ALARM: a sensor's condition. Sensors 0 to 6 stand present until ZEROISATION_RELEASE or an ALARM with `present`
false shows them in range. Sensors 0 and 1 are ignored while both feeds are below the lockout (R347). -/
def execAlarm (sensor : Nat) (present : Bool) (s : State) : Res :=
  onObject (sensor < 7) <|
    if !present then { s with vault := { s.vault with present := s.vault.present &&& (127 ^^^ 2 ^ sensor) } }
    else if s.vault.under && sensor ≤ 1 then s
    else alarm sensor { s with vault := { s.vault with present := s.vault.present ||| 2 ^ sensor } }

/-- ZEROISATION_RELEASE: no earlier than 10 µs after the alarm, with the sensors in range and, after a class 2 alarm, with HBM initialised again,
admission opens (R313, R378). -/
def execZeroisationRelease (s : State) : Res :=
  .next (whenever ((match s.vault.hold with | some t => passed s t (10 * us) | none => false) && s.vault.present % 128 = 0 && !s.mem.lost)
    (fun s => { s with vault := { s.vault with hold := none } }) s)

/-- ALARM_STATUS (R349). -/
def runAlarmStatus (_c : Ctx) (s : State) : HRes :=
  .done { s with vault := { s.vault with raised := 0 } }
    ([sensorWord s, wd s.vault.raised] ++ (List.range 4).map (fun k => wd (mgetD s.vault.counts k 0))
      ++ [pack [(b2n (testRoot s), 1, 1), (b2n s.vault.hold.isSome, 1, 0)]])

def opAlarmStatus : OpSpec :=
  { code := 0x600E, home := (0x08, 3), writes := false, oWorld := true, len := exactly 0, run := runAlarmStatus }

/-! ## KEY_GENERATE, KEY_WRAP, SLOT_ERASE, SLOT_INFO -/

/-- The key bytes of a KTYPE (Table 10.2). -/
def keyLen (ktype : Nat) : Nat := if ktype = 0 then 16 else 32

/-- LENGTH of KEY_GENERATE (R337). -/
def keyGenLen (ws : List Word) : Bool :=
  5 ≤ ws.length && ws.length ≤ 25 &&
    (let lab := fld (nthW ws 4) 15 8
     let ctx := fld (nthW ws 4) 7 0
     5 + ceilDiv (min 16 lab) 4 ≤ ws.length && (ctx = 0 || 9 + ceilDiv (min 64 ctx) 4 ≤ ws.length))

/-- The reserved fields of KEY_GENERATE, those that its MODE does not use included (R550, Table 10.7). -/
def keyGenRsv (ws : List Word) : Option Nat :=
  let mode := fld (nthW ws 0) 31 29
  let unused := mode = 0 || mode = 2
  let all : Word := 0xFFFFFFFF#32
  masks ([0x1FFC0000#32, 0x00FFFFFF#32, 0, if unused then all else 0xFFFC0000#32,
          if unused then all else if mode = 3 then 0xFFFFFF00#32 else 0xFFFF0000#32]
    ++ List.replicate 4 (if unused || mode = 3 then all else 0) ++ List.replicate 16 (if unused then all else 0)) ws

/-- The label and the context of a derivation (Table 10.7). -/
def keyLabel (c : Ctx) : List Byte := (bytesOfWords ((c.words.drop 5).take 4)).take (fld (c.w 4) 15 8)
def keyContext (c : Ctx) : List Byte := (bytesOfWords (c.words.drop 9)).take (fld (c.w 4) 7 0)

/-- The attributes that a command's two words give. -/
def attrWords (c : Ctx) : Attr := attrOf (join64 (c.w 1) (c.w 2))

/-- ATTR lies within a slot's reserved attributes (R339). -/
def within (a r : Attr) : Bool :=
  a.world = r.world && a.ktype = r.ktype && a.life ||| r.life = r.life && a.masters ||| r.masters = r.masters
    && a.usage ||| r.usage = r.usage && (!r.neverExport || a.neverExport) && (!a.persist || r.persist)

/-- The same attributes but for ORIGIN. -/
def sameAttr (a b : Attr) : Bool := { a with origin := 0 } = { b with origin := 0 }

/-- The grounds of R339 on the target of modes 0, 1 and 3. -/
def targetGround (c : Ctx) (s : State) (n : Nat) (a : Attr) : Option (Status × List Word) :=
  let x := slotAt s n
  if x.valid then
    if !permits s x.attr (masterBit c.master) c.world none then some (.notPermitted, [])
    else if !sameAttr a x.attr then some (.badParam, [1])
    else none
  else match c.master with
    | .vf _ =>
      if x.attr.world ≠ c.world then some (.badWorld, [])
      else if !permits s x.attr 1 c.world none || !within a x.attr then some (.notPermitted, [])
      else none
    | _ => if c.world ≠ 0x0100 && (x.attr.world ≠ c.world || a.world ≠ c.world) then some (.badWorld, []) else none

/-- The key that a mode gives; none where an unwrap fails its integrity check (R338). -/
def generated (c : Ctx) (s : State) (mode ktype parent : Nat) : Option (List Byte) :=
  match mode with
  | 0 => some ((Config.drbg s.free).take (keyLen ktype))
  | 3 => Config.unwrap (slotBytes s parent) (keyContext c)
  | _ => some ((Config.kdf (slotBytes s parent) (keyLabel c) (keyContext c) (8 * keyLen ktype)).take (keyLen ktype))

/-- KEY_GENERATE (R315, R320, R337 to R339). A persistent slot whose record is not read back keeps its content (R320); the spec names no status for
it, and the command ends with ABORTED (DESIGN CHOICE: log entry 156). -/
def runKeyGenerate (c : Ctx) (s : State) : HRes :=
  let mode := fld (c.w 0) 31 29
  let n := fld (c.w 0) 17 0
  let a := attrWords c
  let parent := fld (c.w 3) 17 0
  let derives := mode = 1 || mode = 3 || mode = 4
  let use := if mode = 3 then useWrap else useDerive
  refuseIf (5 ≤ mode) .badParam [0] <|
  refuseIf (mode ≠ 4 && !inRange n) .badParam [0] <|
  refuseIf (mode ≠ 4 && isControl n) .notPermitted [] <|
  refuseIf ((mode = 0 || mode = 1 || mode = 3) && isPonSlot n) .badParam [0] <|
  refuseIf (derives && (!inRange parent || isPonSlot parent)) .badParam [3] <|
  refuseIf (derives && isWorldS parent) .notPermitted [] <|
  refuseIf (16 < fld (c.w 4) 15 8 || 64 < fld (c.w 4) 7 0) .badParam [4] <|
  refuseIf (a.ktype = 3 || (mode ≠ 2 && a.ktype = 2)) .badParam [1] <|
  refuseIf (mode = 3 && fld (c.w 4) 7 0 ≠ (if a.ktype = 0 then 24 else 40)) .badParam [4] <|
  refuseIf (!worldCode a.world) .badParam [2] <|
  if opsWait s then waitSlot c s else
  refuseIf (derives && !mayUse s parent (masterBit c.master) c.world use) .notPermitted [] <|
  refuseIf (derives && (slotAt s parent).attr.world ≠ a.world) .badWorld [] <|
  if mode = 4 then
    match generated c s 4 a.ktype parent with
    | some k => .done (slotOp parent s) (wd (slotAt s parent).gen :: wordsOfBytes 8 k)
    | none => .refuse .badSignature []
  else if mode = 2 then
    refuseIf (match c.master with | .pf => false | _ => true) .notPermitted [] <|
    refuseIf (c.world ≠ 0x0100 && ((slotAt s n).attr.world ≠ c.world || a.world ≠ c.world)) .badWorld [] <|
    refuseIf (slotAt s n).valid .exists [] <|
    refuseIf (persistFull s n a.persist) .noSpace [] <|
    if !lands s n a c.pkt.env.norOk then .ended (keepSlot n { slotAt s n with attr := a } false s) .aborted [] else
    .done (slotOp n (keepSlot n { slotAt s n with attr := a } c.pkt.env.norOk s)) [wd (slotAt s n).gen]
  else match targetGround c s n a with
    | some (st, ws) => .refuse st ws
    | none =>
      refuseIf (persistFull s n a.persist) .noSpace [] <|
      if mustWait s n then waitSlot c s else
      match generated c s mode a.ktype parent with
      | none => .refuse .badSignature []
      | some k =>
        let s1 := writeKey n a (if mode = 0 then 1 else if mode = 1 then 2 else 3) k c.pkt.env.norOk s
        if !lands s n a c.pkt.env.norOk then .ended s1 .aborted [] else
        .done (slotOp n (if mode = 0 then takeFree s1 else s1)) [wd (slotAt s1 n).gen]

def opKeyGenerate : OpSpec :=
  { code := 0x6005, vf := true, home := (0x08, 0), units := [(0x08, 1)], len := keyGenLen, rsv := keyGenRsv,
    objs := fun ws => [(0x6000, fld (nthW ws 0) 17 0)], run := runKeyGenerate }

/-- KEY_WRAP (R315, R318, R340). -/
def runKeyWrap (c : Ctx) (s : State) : HRes :=
  let n := fld (c.w 0) 17 0
  let k := fld (c.w 1) 17 0
  let m := masterBit c.master
  refuseIf (!inRange n || isPonSlot n) .badParam [0] <|
  refuseIf (!inRange k || isPonSlot k) .badParam [1] <|
  refuseIf (isWorldS n || isWorldS k) .notPermitted [] <|
  if opsWait s then waitSlot c s else
  refuseIf (!mayUse s n m c.world useWrap || (slotAt s n).attr.neverExport || (slotAt s n).attr.ktype = 2) .notPermitted [] <|
  refuseIf (!mayUse s k m c.world useWrap) .notPermitted [] <|
  refuseIf ((slotAt s n).attr.world ≠ (slotAt s k).attr.world) .notPermitted [] <|
  let bytes := keyLen (slotAt s n).attr.ktype
  .done (slotOp n (updSlot n (fun x => { x with exported := true }) s))
    (wordsOfBytes ((bytes + 8) / 4) (Config.wrap (slotBytes s k) ((slotBytes s n).take bytes)))

def opKeyWrap : OpSpec :=
  { code := 0x6006, vf := true, home := (0x08, 0), writes := false, len := exactly 2,
    rsv := masks [0xFFFC0000#32, 0xFFFC0000#32], run := runKeyWrap }

/-- SLOT_ERASE (R315, R341). -/
def runSlotErase (c : Ctx) (s : State) : HRes :=
  let n := fld (c.w 0) 17 0
  let release := bit (c.w 0) 31
  let pf := match c.master with | .pf => true | _ => false
  refuseIf (!inRange n) .badParam [0] <|
  refuseIf (isControl n) .notPermitted [] <|
  refuseIf (release && !pf) .notPermitted [] <|
  if opsWait s then waitSlot c s else
  refuseIf (if pf then c.world ≠ 0x0100 && (slotAt s n).attr.world ≠ c.world else (slotAt s n).attr.world ≠ c.world) .badWorld [] <|
  refuseIf (!pf && !(slotAt s n).attr.masters.testBit 1) .notPermitted [] <|
  .done (eraseSlot n release (slotOp n s)) []

def opSlotErase : OpSpec :=
  { code := 0x6008, vf := true, home := (0x08, 0), len := exactly 1, rsv := masks [0x7FFC0000#32],
    objs := fun ws => [(0x6000, fld (nthW ws 0) 17 0)], run := runSlotErase }

/-- SLOT_INFO (R315, R342). -/
def runSlotInfo (c : Ctx) (s : State) : HRes :=
  let n := fld (c.w 0) 17 0
  let x := slotAt s n
  refuseIf (!inRange n) .badParam [0] <|
  if opsWait s then waitSlot c s else
  refuseIf (if c.world = 0x0100 then false else x.attr.world ≠ c.world) .badWorld [] <|
  let head := [lo32 (attrBits x.attr), hi32 (attrBits x.attr),
    pack [(b2n x.valid, 1, 31), (b2n x.old.isSome, 1, 30), (b2n x.stored, 1, 29), (b2n x.exported, 1, 28), (x.gen, 16, 0)]]
  .done (slotOp n s) (if isControl n && x.attr.ktype = 2 then head ++ wordsOfBytes 12 (Config.sha384 (x.body.take 97)) else head)

def opSlotInfo : OpSpec :=
  { code := 0x6009, vf := true, home := (0x08, 0), writes := false, len := exactly 1, rsv := masks [0xFFFC0000#32],
    run := runSlotInfo }

/-! ## Shedar messages (R323 to R326) -/

/-- The offsets of Table 10.4. -/
def shOp (m : List Byte) : Nat := beNat (slice m 0x006 2)
def shCounter (m : List Byte) : Nat := beNat (slice m 0x018 6)
def shEpoch (m : List Byte) : Nat := beNat (slice m 0x01E 1)
def shSlot (m : List Byte) : Nat := beNat (slice m 0x020 4)
def shAttr (m : List Byte) : Nat := beNat (slice m 0x024 8)
def shLen (m : List Byte) : Nat := beNat (slice m 0x02C 4)

/-- The current epoch: the index of the highest epoch row whose check value is valid (R327). -/
def updateEpoch (s : State) : Nat :=
  ((List.range s.vault.epochRows.length).filter fun i => ((s.vault.epochRows[i]?).map EpochRow.ok).getD false).getLastD 0

/-- The slot UPDATE_AUTHORITY (Table 10.1). -/
def updateAuthority : Nat := 0x20000

/-- The stored counter in force: the debug area's while the test root is in use (R327, R335). -/
def storedCounter (s : State) : Nat := if testRoot s then s.vault.debugCounter.2 else s.vault.counter.2

/-- Write the counter record and read it back (R69, R327): where it does not verify the counter stands. -/
def setCounter (e c : Nat) (ok : Bool) (s : State) : State :=
  let s1 := storeSetting 1 [wd e, lo32 c, hi32 c] ok s
  if !ok then s1
  else if testRoot s then { s1 with vault := { s1.vault with debugCounter := (e, c) } }
  else { s1 with vault := { s1.vault with counter := (e, c) } }

/-- The stored counter as result words (R326). -/
def counterWords (s : State) : List Word := [lo32 (storedCounter s), hi32 (storedCounter s)]

/-- Steps 1 to 4 of Table 10.6a. `bytes` is the message as it came, `padded` allows a last word filled with 0. -/
def shedarHead (m : List Byte) (whole : Bool) (s : State) : Option (Status × List Word) :=
  let n := 0x0B0 + shLen m + 112
  let size := if whole then n else roundUp 4 n
  if beNat (slice m 0 4) ≠ 0x53484452 || beNat (slice m 4 2) ≠ 1 || beNat (slice m 0x01F 1) ≠ 0
      || beNat (slice m 0x091 15) ≠ 0 || beNat (slice m 0x0AC 4) ≠ 0 then some (.badParam, [0])
  else if m.length ≠ size then some (.badLength, [])
  else if !(s.vault.life = .provisioned || s.vault.life = .deployed || s.vault.life = .fieldDebug)
      || ((s.vault.life = .fieldDebug || s.vault.token) && shOp m ≠ 6) then some (.locked, [])
  else if beNat (slice m 8 16) ≠ Config.deviceId.toNat then some (.badDevice, [])
  else if shEpoch m ≠ updateEpoch s
      || ((s.vault.epochRows[shEpoch m]?).map EpochRow.hash) ≠ some (Config.sha384 ((slotBytes s updateAuthority).take 97))
      || !Config.verify ((slotBytes s updateAuthority).take 97) (m.take (n - 96)) (slice m (n - 96) 96) then
    some (.badSignature, [])
  else none

/-- A message that fails step 4 or 7 raises sensor SHEDAR (Table 10.12). -/
def shedarFailed (st : Status) (s : State) : State := if st = .badSignature then alarm 8 s else s

/-- ATTR_RESTRICT only narrows (Table 10.5). -/
def narrows (new old : Attr) : Bool :=
  new.world = old.world && new.ktype = old.ktype && new.persist = old.persist
    && new.life ||| old.life = old.life && new.masters ||| old.masters = old.masters && new.usage ||| old.usage = old.usage
    && (!old.neverExport || new.neverExport)

/-- The payload length of an operation on a slot (Table 10.5). -/
def payloadLen (op slot : Nat) : Option Nat :=
  match op with
  | 1 => some (if isControl slot then 128 else 32)
  | 2 => some (if isControl slot then 128 else 32)
  | 3 => some 0 | 4 => some 0 | 5 => some 16 | 6 => some 4 | 7 => some 4 | 8 => some 97
  | _ => none

/-- A life-cycle transition by Shedar LIFE_CYCLE (Table 10.3); none where it does not exist. -/
def lifeTarget (l : Life) (code : Nat) : Option Life :=
  match l, code with
  | .provisioned, 2 => some .deployed
  | .deployed, 3 => some .fieldDebug
  | .fieldDebug, 2 => some .deployed
  | .provisioned, 4 => some .returned
  | .deployed, 4 => some .returned
  | .fieldDebug, 4 => some .returned
  | _, _ => none

/-- Copy the values of the production records into the debug settings area (R335). -/
def openDebugArea (s : State) : State :=
  { s with boot := { s.boot with debugSettings := s.boot.settings },
           vault := { s.vault with debugCounter := s.vault.counter, wasDebug := true } }

/-- A life-cycle transition with its action but for the module reset (Table 10.3). A row that fails its check value is used up, and the state
stays (R322). -/
def changeLife (l : Life) (s : State) : State :=
  let s1 := burnLife l s
  if s1.vault.life ≠ l then s1
  else match l with
  | .fieldDebug => openDebugArea s1
  | .returned => eraseAll s1
  | _ => s1

/-- The transitions whose action is a module reset (Table 10.3): all but PROVISIONED to DEPLOYED. -/
def lifeResets (old new : Life) : Bool := old ≠ new && !(old = .provisioned && new = .deployed)

/-- A payload is a body of its KTYPE: an AES-128 key has bits [255:128] 0, and a public key is 0x04, X, Y with 0 after it (R316, Table 10.2). A
control slot's body holds the key in its first bytes. -/
def bodyFits (slot ktype : Nat) (p : List Byte) : Bool :=
  match ktype with
  | 0 => if isControl slot then (p.drop 16).all (· = 0) else (p.take 16).all (· = 0)
  | 1 => !isControl slot || (p.drop 32).all (· = 0)
  | _ => p.head? = some 4 && (p.drop 97).all (· = 0)

/-- The fields that an operation does not use are 0, and so are the reserved bits of ATTRIBUTES; KEY_REPLACE ignores ATTRIBUTES (Tables 10.2,
10.4 and 10.5; log 169). -/
def shedarFields (op slot attr : Nat) : Bool :=
  (slot = 0 || op ≤ 5) && (if op = 1 || op = 4 then attr % 2 ^ 24 = 0 else op = 2 || attr = 0)

/-- A Shedar message waits as a slot operation: a write behind the slot's retiring copy, any other behind one that waits (R283, R319). -/
def shedarWaits (m : List Byte) (s : State) : Bool := if shOp m = 1 || shOp m = 2 then mustWait s (shSlot m) else opsWait s

/-- A write of a slot whose record, where the slot is persistent, the secure island reads back of its own accord: whether it verifies is open
(R320). -/
def ownWrite (slot : Nat) (a : Attr) (write : Bool → State → State) (s : State) : State :=
  slotOp slot (write (readsBack s) (if isPersistent slot a then takeFree s else s))

/-- A key that a terminal returned goes into its slot, with ORIGIN 5 (R309, R336). -/
def ponKeyWritten (slot : Nat) (body : List Byte) (s : State) : State :=
  ownWrite slot (slotAt s slot).attr (writeKey slot (slotAt s slot).attr 5 body) s

/-- A Shedar message's write of a slot. Where the record does not verify the slot keeps its content; the spec names no status for it, and the
command ends with ABORTED (DESIGN CHOICE: log entry 156). -/
def slotWritten (slot : Nat) (a : Attr) (write : Bool → State → State) (s : State) : Status × List Word × State :=
  (if lands s slot a (readsBack s) then .ok else .aborted, [], ownWrite slot a write s)

/-- Step 8 of Table 10.6a and the operation's effect: the status and the state. -/
def shedarApply (op slot : Nat) (attrBitsIn : Nat) (payload : List Byte) (s : State) : Status × List Word × State :=
  let x := slotAt s slot
  let a := attrOf attrBitsIn
  if payloadLen op slot ≠ some payload.length || !shedarFields op slot attrBitsIn then (.badParam, [0], s)
  else if op = 5 then
    if slot < 32768 then (.ok, [], { s with vault := { s.vault with msk := mset s.vault.msk slot payload } })
    else (.badParam, [0], s)
  else if op = 6 then
    match lifeTarget s.vault.life (beNat payload) with
    | none => (.badParam, [0], s)
    | some l =>
      if 31 ≤ nextLifeRow s then (.noSpace, [], s)
      else let t := changeLife l s; (if t.vault.life = l then .ok else .unitFailed, [], t)
  else if op = 7 || op = 8 then (.notPermitted, [], s)
  else if !inRange slot then (.badParam, [0], s)
  else if isPonSlot slot && 2 < op then (.badParam, [0], s)
  else if isPonSlot slot || (op ≤ 2 && isHideSlot slot) || isWorldS slot || x.attr.world = 0x0200 then (.notPermitted, [], s)
  else if op ≤ 2 && !bodyFits slot (if op = 1 then a.ktype else x.attr.ktype) payload then (.badParam, [0], s)
  else if op = 1 then
    if x.valid then (.exists, [], s)
    else if a.ktype = 3 || !worldCode a.world || a.ktype = 2 && !isControl slot then (.badParam, [0], s)
    else if persistFull s slot a.persist then (.noSpace, [], s)
    else
      let a := if isControl slot then { a with persist := true } else a
      slotWritten slot a (writeKey slot a 4 payload) s
  else if !x.valid then (.notFound, [], s)
  else if op = 2 then slotWritten slot x.attr (writeKey slot x.attr 4 payload) s
  else if op = 3 then (.ok, [], eraseSlot slot true (slotOp slot s))
  else if narrows a x.attr then slotWritten slot a (keepSlot slot { x with attr := { a with origin := x.attr.origin } }) s
  else (.badParam, [0], s)

/-- Step 7 of Table 10.6a: the payload of a message, or the end of a command whose payload does not verify (R324). -/
def shedarPayload (m : List Byte) (s : State) : Except HRes (List Byte × State) :=
  match shedarOpen (testRoot s) m with
  | none => .error (.ended (shedarFailed .badSignature s) .badSignature [])
  | some p => .ok (p, s)

/-- Steps 5 to 7 of Table 10.6a: the payload with the state after them, or how the command ends. From step 6 on the counter is consumed
(R326); EPOCH_ADVANCE carries COUNTER 0 and skips steps 5 and 6, and another COUNTER fails step 5 (DEDUCED: log entry 188). A counter record
that does not verify lets nothing take effect (R69); Table 10.6a names no status for it, and the command ends with ABORTED (DESIGN CHOICE:
log entry 156). -/
def shedarSteps (m : List Byte) (ok : Bool) (s : State) : Except HRes (List Byte × State) :=
  if shOp m = 8 then
    if shCounter m ≠ 0 then .error (.refuse .badCounter (counterWords s)) else shedarPayload m s
  else if storedCounter s = 0xFFFFFFFFFFFF then .error (.refuse .counterEnd [])
  else if shCounter m ≤ storedCounter s then .error (.refuse .badCounter (counterWords s))
  else
    let s1 := setCounter (updateEpoch s) (shCounter m) ok s
    if ok then shedarPayload m s1 else .error (.ended s1 .aborted [])

/-- Table 10.6a up to step 7 for a command's message, which waits its turn as a slot operation (R319, R326). -/
def shedarChecked (c : Ctx) (s : State) : Except HRes (List Byte × State) :=
  let m := bytesOfWords c.words
  if shedarWaits m s then .error (waitSlot c s)
  else match shedarHead m false s with
  | some (st, ws) => .error (if st = .badSignature then .ended (shedarFailed st s) st ws else .refuse st ws)
  | none => shedarSteps m c.pkt.env.norOk s

/-- SHEDAR_UPDATE: Table 10.6a in its order. -/
def runShedarUpdate (c : Ctx) (s : State) : HRes :=
  let m := bytesOfWords c.words
  match shedarChecked c s with
  | .error r => r
  | .ok (payload, s1) =>
    match shedarApply (shOp m) (shSlot m) (shAttr m) payload s1 with
    | (.ok, _, s2) =>
      let ws := [lo32 (shCounter m), hi32 (shCounter m)]
      if lifeResets s.vault.life s2.vault.life then .last s2 ws (.moduleReset 3) false else .done s2 ws
    | (st, ws, s2) => .ended s2 st ws

def opShedarUpdate : OpSpec :=
  { code := 0x6007, home := (0x08, 0), oWorld := true, len := fun _ => true,
    objs := fun ws => [(0x6000, shSlot (bytesOfWords ws))], run := runShedarUpdate }

/-- UPDATE_AUTHORITY takes a public key (R328). -/
def takeAuthority (p : List Byte) (ok : Bool) (s : State) : State :=
  let a : Attr := { world := 0x0200, ktype := 2, persist := true, life := 63 }
  keepSlot updateAuthority { slotAt s updateAuthority with
    attr := a, body := bodyOf updateAuthority p, valid := true, exported := false, gen := ((slotAt s updateAuthority).gen + 1) % 65536 } ok s

/-- Burn the next epoch row with the hash of a public key (R328). -/
def burnEpoch (p : List Byte) (s : State) : State :=
  { s with vault := { s.vault with epochRows := s.vault.epochRows ++ [⟨Config.rowBurns s.vault.epochRows.length, Config.sha384 p⟩] } }

/-- Steps 1 to 4 of an epoch advance, up to the one after which a loss of power cuts it (R329). -/
def advanceEpoch (p : List Byte) (steps : Nat) (s : State) : State :=
  let s1 := { storeSetting 2 (wordsOfBytes 25 p) true s with vault := { s.vault with pendingKey := some p } }
  if steps ≤ 1 then s1
  else
    let s2 := burnEpoch p s1
    if steps = 2 || !Config.rowBurns s1.vault.epochRows.length then s2
    else
      let s3 := takeAuthority p true s2
      if steps = 3 then s3
      else setCounter (updateEpoch s3) 0 true { s3 with vault := { s3.vault with pendingKey := none } }

/-- UPDATE_EPOCH_ADVANCE (R329): the pending record, the row, the authority and the counter record, in this order. A
row that fails its check value is used up and the epoch stays. Where `env.cut` says that power is lost after a step, the command goes no further
and the loss ends it. -/
def runUpdateEpochAdvance (c : Ctx) (s : State) : HRes :=
  let m := bytesOfWords c.words
  match shedarChecked c s with
  | .error r => r
  | .ok (p, s0) =>
    if shOp m ≠ 8 || p.length ≠ 97 || !shedarFields 8 (shSlot m) (shAttr m) then .ended s0 .badParam [0]
    else if updateEpoch s0 = 63 || 64 ≤ s0.vault.epochRows.length then .ended s0 .noSpace []
    else if !c.pkt.env.norOk then .ended (storeSetting 2 (wordsOfBytes 25 p) false s0) .aborted []
    else match c.pkt.env.cut with
    | some k => .wait (advanceEpoch p k s0) []
    | none =>
      let row := s0.vault.epochRows.length
      let s1 := advanceEpoch p 4 s0
      if Config.rowBurns row then .done (recordEv 0x0008 7 0x08 0 0 0x0100 [wd row] s1) [wd row] else .ended s1 .unitFailed []

def opUpdateEpochAdvance : OpSpec :=
  { code := 0x600D, home := (0x08, 0), oWorld := true, len := fun _ => true, run := runUpdateEpochAdvance }

/-- What Table 10.6a makes of a message at the debug port: the status of the check that fails, none where a token is accepted, and
the state after the steps that have run, the counter written from step 6 on (R326, R331). -/
def tokenChecks (m : List Byte) (s : State) : Option Status × State :=
  match shedarHead m true s with
  | some (st, _) => (some st, shedarFailed st s)
  | none =>
    match shedarSteps m true s with
    | .error (.refuse st _) => (some st, s)
    | .error (.ended s1 st _) => (some st, s1)
    | .error _ => (some .badParam, s)
    | .ok (p, s1) =>
      if shOp m = 7 && p.length = 4 && beNat p = 0 && shedarFields 7 (shSlot m) (shAttr m) then (none, s1)
      else (some .badParam, s1)

/-- A debug token at the debug port (R331): accepted, it clears every key stage, every volatile slot and the terminal key table, and
the test root takes effect. One that fails step 4 or 7 raises sensor SHEDAR, and eight failures in a row sensor DEBUG. It waits its turn as
a slot operation (R319). -/
def debugToken (m : List Byte) (s : State) : State :=
  if s.vault.tokensRefused then s
  else if opsWait s then { s with vault := { s.vault with waiting := s.vault.waiting ++ [.token m] } }
  else
    match tokenChecks m s with
    | (none, s1) =>
      let s2 := openDebugArea (alarmEmpty (alarmHold s1))
      { s2 with vault := { s2.vault with token := true, tokenFails := 0 } }
    | (some _, s1) =>
      let s2 := { s1 with vault := { s1.vault with tokenFails := s1.vault.tokenFails + 1 } }
      if 8 ≤ s2.vault.tokenFails then alarm 7 { s2 with vault := { s2.vault with tokensRefused := true } } else s2

def execDebugToken (message : List Byte) (s : State) : Res := .next (debugToken message s)

/-- A new owner's authority: an epoch row takes its hash, UPDATE_AUTHORITY its key, and the counter goes to 0 (Table 10.3). -/
def newOwner (owner : List Byte) (s : State) : State :=
  let s1 := takeAuthority owner true (burnEpoch owner s)
  setCounter (updateEpoch s1) 0 true s1

/-- A message of the Abkoux service authority (R321): it names the next life-cycle row; RETURNED goes to PROVISIONED
with a new owner's authority and a new epoch row, or any state but SCRAPPED goes to SCRAPPED with the effects of class 3. `owner` is the new
owner's public key. In BLANK it stands for Abkoux's provisioning, after which the test root serves until the next boot (DESIGN CHOICE: log entry 187).
It waits its turn as a slot operation (R319). -/
def serviceMessage (row : Nat) (toScrapped : Bool) (owner signature : List Byte) (s : State) : State :=
  let msg := beBytes 4 row ++ [BitVec.ofNat 8 (b2n toScrapped)] ++ owner
  if opsWait s then { s with vault := { s.vault with waiting := s.vault.waiting ++ [.service row toScrapped owner signature] } }
  else if row ≠ nextLifeRow s || !Config.verify Config.serviceAuthority msg signature then s
  else if toScrapped then if s.vault.life = .scrapped then s else alarmEffects 3 s
  else if 31 ≤ nextLifeRow s || 64 ≤ s.vault.epochRows.length then s
  else if s.vault.life = .returned then newOwner owner (burnLife .provisioned s)
  else if s.vault.life = .blank then
    newOwner owner (burnLife .provisioned { s with vault := { s.vault with provisioning := true } })
  else s

def execAbkouxServiceMessage (row : Nat) (toScrapped : Bool) (owner signature : List Byte) (s : State) : Res :=
  .next (serviceMessage row toScrapped owner signature s)

/-! ## Statements (R343, R344) -/

/-- The grade as identity word 5 gives it (R43). -/
def gradeCode : Nat := if Config.gradeE then 2 else 1

/-- A selected boot copy's SEQUENCE, 0 if none: 0 and 1 are firmware, 2 and 3 configuration (R343). -/
def bootedSequence (s : State) (a b : Nat) : Nat :=
  let x := mgetD s.boot.copies a {}
  let y := mgetD s.boot.copies b {}
  if y.selected && y.valid then y.sequence else if x.selected && x.valid then x.sequence else 0

/-- The certificate chain (R343). -/
def certChain (s : State) : List Byte := Config.certificates (testRoot s)

/-- The measurements, MEAS_0 then MEAS_1, of 48 bytes each (R333). -/
def pad48 (bs : List Byte) : List Byte := (bs ++ List.replicate 48 0).take 48
def measures (s : State) : List Byte := pad48 s.vault.meas0 ++ pad48 s.vault.meas1

/-- The operator statement before its signature (Table 10.8). -/
def operatorBody (nonce : List Byte) (s : State) : List Byte :=
  beBytes 4 0x545A414F ++ beBytes 4 1 ++ beBytes 16 Config.deviceId.toNat ++ nonce
    ++ beBytes 1 (lifeCode s.vault.life) ++ beBytes 1 gradeCode ++ beBytes 1 (b2n (testRoot s)) ++ beBytes 1 (updateEpoch s)
    ++ beBytes 4 Config.siliconStep.toNat ++ beBytes 4 Config.romBuild.toNat
    ++ beBytes 4 (bootedSequence s 0 1) ++ beBytes 4 (bootedSequence s 2 3) ++ beBytes 2 0
    ++ beBytes 6 (storedCounter s) ++ beBytes 4 0 ++ measures s
    ++ (Config.ecPublic (transportKey (testRoot s))).take 97 ++ beBytes 7 0 ++ beBytes 4 (certChain s).length ++ beBytes 12 0

/-- ATTEST_OPERATOR (R343). -/
def runAttestOperator (c : Ctx) (s : State) : HRes :=
  refuseIf (!c.hasBuf) .badParam [0] <|
  let body := operatorBody (bytesOfWords (c.words.take 8)) s
  .doneBuf s [] (body ++ Config.ecdsaSign (attestKey (testRoot s)) body ++ certChain s)

def opAttestOperator : OpSpec :=
  { code := 0x600A, home := (0x08, 2), writes := false, oWorld := true, len := exactly 8, run := runAttestOperator }

/-- The tenant statement before its signature (Table 10.9). -/
def tenantBody (n : Nat) (nonce : List Byte) (s : State) : List Byte :=
  let x := slotAt s n
  beBytes 4 0x545A4154 ++ beBytes 4 1 ++ beBytes 16 Config.deviceId.toNat ++ nonce ++ beBytes 2 x.attr.world
    ++ beBytes 1 (b2n (x.attr.origin = 1) + 2 * b2n (x.attr.neverExport && !x.exported) + 4 * b2n x.attr.persist
        + 8 * b2n (testRoot s))
    ++ beBytes 1 x.attr.origin ++ beBytes 4 n ++ beBytes 2 x.gen ++ beBytes 2 0 ++ beBytes 8 (attrBits x.attr)
    ++ beBytes 4 (certChain s).length

/-- The tenant key endorsement before its signature (Table 10.10). -/
def endorsementBody (world : Nat) (s : State) : List Byte :=
  beBytes 4 0x545A4145 ++ beBytes 2 world ++ beBytes 2 0 ++ beBytes 16 Config.deviceId.toNat ++ measures s
    ++ (Config.ecPublic (tenantKey (testRoot s) world (measures s))).take 97 ++ beBytes 7 0

/-- ATTEST_TENANT (R344), a slot operation in its turn (R319). -/
def runAttestTenant (c : Ctx) (s : State) : HRes :=
  let n := fld (c.w 0) 17 0
  let x := slotAt s n
  refuseIf (!c.hasBuf) .badParam [0] <|
  refuseIf (!inRange n || isPonSlot n) .badParam [0] <|
  refuseIf (isWorldS n) .notPermitted [] <|
  if opsWait s then waitSlot c s else
  refuseIf (255 < x.attr.world || (c.world ≠ 0x0100 && x.attr.world ≠ c.world)) .badWorld [] <|
  refuseIf (!x.valid) .notFound [] <|
  let body := tenantBody n (bytesOfWords ((c.words.drop 1).take 8)) s
  let ends := endorsementBody x.attr.world s
  .doneBuf (slotOp n s) [] (body ++ Config.ecdsaSign (tenantKey (testRoot s) x.attr.world (measures s)) body ++ ends
    ++ Config.ecdsaSign (attestKey (testRoot s)) ends ++ certChain s)

def opAttestTenant : OpSpec :=
  { code := 0x600B, vf := true, home := (0x08, 2), writes := false, len := exactly 9, rsv := masks [0xFFFC0000#32],
    run := runAttestTenant }

end Sys2Proof.Machine
end

