-- ==== Sys2Proof/Machine/Cipher.lean ====
section
/-! DEFINITION. The cipher array's commands: reservations, secure channels and associations (chapter 9). -/

namespace Sys2Proof.Machine

/-! ## Reservations (R286 to R288) -/

/-- A point's reservation: direction 0 is transmit and 1 receive. -/
def reserveAt (s : State) (point dir : Nat) : Reserve := mgetD s.cipher.reserve (point * 2 + dir) {}

/-- A point is secured in a direction (R288). -/
def secured (s : State) (point dir : Nat) : Bool := (reserveAt s point dir).rate ≠ 0

/-- The MAC rate of an uplink port in 0.1 Gb/s as UPLINK_CONFIG sets it (R287, R420); 0 where it is not configured. -/
def uplinkRate (s : State) (port : Nat) : Nat :=
  let g := mgetD s.link.uplinks (port / 4) {}
  if g.arrange = 0 then 0
  else if g.arrange = 2 then if port % 4 = 0 then 4000 else 0
  else 1000

/-- The reserved rate of a point in 0.1 Gb/s (R287). -/
def reservedRate (s : State) (point : Nat) (r : Reserve) : Nat :=
  if r.rate = 0 then 0 else if point < 16 then uplinkRate s point else r.rate

/-- The capacity of one direction in 0.1 Gb/s (R287). -/
def encCapacity : Nat := 32768

/-- The sum of the reserved rates of a direction but for one point. -/
def reservedBut (s : State) (dir point : Nat) : Nat :=
  s.cipher.reserve.foldl (fun a e => if e.1 % 2 = dir && e.1 / 2 ≠ point then a + reservedRate s (e.1 / 2) e.2 else a) 0

/-- The channels of a point and direction. -/
def pointHasChannel (s : State) (point : Nat) (rx : Bool) : Bool :=
  s.cipher.channels.any fun e => e.2.point = point && e.2.rx = rx

/-- ENC_RESERVE (R286, R287). -/
def runEncReserve (c : Ctx) (s : State) : HRes :=
  let dir := fld (c.w 0) 31 31
  let cut := bit (c.w 0) 30
  let point := fld (c.w 0) 7 0
  let rate := fld (c.w 1) 15 0
  refuseIf (79 < point || (cut && dir = 0)) .badParam [0] <|
  refuseIf (point < 16 && uplinkRate s point = 0) .notPermitted [] <|
  refuseIf (rate = 0 && pointHasChannel s point (dir = 1)) .notPermitted [] <|
  let want := reservedRate s point { rate := rate, cut := cut }
  let others := reservedBut s dir point
  if encCapacity < others + want then
    .refuse .noBandwidth [wd (encCapacity - (others + reservedRate s point (reserveAt s point dir)))]
  else
    .done { s with cipher := { s.cipher with reserve := mset s.cipher.reserve (point * 2 + dir) { rate := rate, cut := cut } } }
      [wd (encCapacity - (others + want))]

def opEncReserve : OpSpec :=
  { code := 0x600C, home := (0x07, 0), oWorld := true, len := exactly 2, rsv := masks [0x3FFFFF00#32, 0xFFFF0000#32],
    stage := .stageable, objs := fun ws => [(0x600C, fld (nthW ws 0) 7 0 * 2 + fld (nthW ws 0) 31 31)], run := runEncReserve }

/-! ## Secure channels (R291, R292) -/

/-- An XPN suite has a 64-bit PN (Table 9.4). -/
def isXpn (suite : Nat) : Bool := suite = 2 || suite = 3

/-- A suite uses a 256-bit key (Table 9.4). -/
def wideSuite (suite : Nat) : Bool := suite = 1 || suite = 3

/-- A channel read from its eight words (Table 9.5). -/
def channelOf (c : Ctx) : Channel :=
  { point := fld (c.w 0) 15 8, rx := bit (c.w 0) 7, offset := fld (c.w 0) 5 4, suite := fld (c.w 0) 3 0,
    world := fld (c.w 1) 31 16, validate := fld (c.w 1) 14 13, replay := bit (c.w 1) 12, conf := bit (c.w 1) 4,
    implicit := bit (c.w 1) 3, scTag := bit (c.w 1) 2, es := bit (c.w 1) 1, scb := bit (c.w 1) 0,
    sciLo := c.w 2, sciHi := c.w 3, window := (c.w 7).toNat }

/-- The fields of a channel that a rewrite may not change (R292). -/
def sameFixed (a b : Channel) : Bool :=
  a.point = b.point && a.rx = b.rx && a.offset = b.offset && a.suite = b.suite && a.world = b.world
    && a.implicit = b.implicit && a.sciLo = b.sciLo && a.sciHi = b.sciHi

/-- A second channel of the kind that R292 forbids. -/
def channelClash (s : State) (i : Nat) (x : Channel) : Bool :=
  s.cipher.channels.any fun e => e.1 ≠ i && e.2.point = x.point && e.2.rx = x.rx &&
    ((!x.rx && e.2.world = x.world) || (x.rx && e.2.sciLo = x.sciLo && e.2.sciHi = x.sciHi)
      || (x.rx && x.implicit && e.2.implicit))

/-- SC_CONFIG (R291, R292). ENABLE 0 deletes the channel with its associations; it meets the grounds on POINT and on values that R292 states of any
SC_CONFIG, and none of those that a written channel meets with EXISTS (DEDUCED, log entry 162). -/
def runScConfig (c : Ctx) (s : State) : HRes :=
  let i := fld (c.w 0) 29 16
  let x := channelOf c
  let old := mget s.cipher.channels i
  refuseIf (!worldCode x.world) .badParam [1] <|
  refuseIf (c.world ≠ 0x0100 && (x.world ≠ c.world || (match old with | some o => o.world ≠ c.world | none => false))) .badWorld [] <|
  refuseIf (79 < x.point) .badParam [0] <|
  refuseIf (!secured s x.point (b2n x.rx)) .notPermitted [] <|
  refuseIf (3 < x.suite || x.offset = 3) .badParam [0] <|
  refuseIf (x.validate = 3) .badParam [1] <|
  refuseIf (isXpn x.suite && 2 ^ 30 ≤ x.window) .badParam [7] <|
  if !bit (c.w 0) 6 then
    .done { s with cipher := { s.cipher with channels := mdel s.cipher.channels i,
                                              assocs := mkeep s.cipher.assocs fun k _ => k / 4 ≠ i } } []
  else
  match old with
  | some o =>
    refuseIf (!sameFixed o x) .exists [] <|
    .done { s with cipher := { s.cipher with channels := mset s.cipher.channels i { x with an := o.an, lowest := o.lowest } } } []
  | none =>
    refuseIf (channelClash s i x) .exists [] <|
    .done (clearCounters 4 i { s with cipher := { s.cipher with channels := mset s.cipher.channels i x } }) []

/-- The objects of the array (R72): a channel, and an association. A deletion of a channel writes its associations too, and SA_ACTIVATE
writes the channel. -/
def channelObj (sc : Nat) : Nat × Nat := (0x6001, sc)
def assocObj (sc an : Nat) : Nat × Nat := (0x6002, sc * 4 + an)

/-- The objects that SC_CONFIG writes. -/
def scObjs (ws : List Word) : List (Nat × Nat) :=
  let i := fld (nthW ws 0) 29 16
  channelObj i :: if bit (nthW ws 0) 6 then [] else (List.range 4).map (assocObj i)

def opScConfig : OpSpec :=
  { code := 0x6001, vf := true, home := (0x07, 0), instAll := true, len := exactly 8,
    rsv := masks [0xC0000000#32, 0x00008FE0#32, 0, 0, 0xFFFFFF0C#32], stage := .stageable,
    objs := scObjs, run := runScConfig }

/-! ## Secure associations (R293, R294, R304 to R306) -/

/-- The encoding AN or the latest AN of a channel, 0 where none is named yet. -/
def channelAn (x : Channel) : Nat := x.an.getD 0

/-- An association read from its words (Table 9.6). -/
def assocOf (c : Ctx) (order : Nat) : Assoc :=
  { slot := fld (c.w 1) 16 0, nextPn := join64 (c.w 3) (c.w 4), ssci := c.w 5, salt0 := c.w 6, salt1 := c.w 7,
    salt2 := c.w 8, pnWarn := join64 (c.w 9) (c.w 10), order := order }

/-- SA_CONFIG (R293, R294, R315). -/
def runSaConfig (c : Ctx) (s : State) : HRes :=
  let i := fld (c.w 0) 29 16
  let an := fld (c.w 0) 1 0
  let remove := bit (c.w 0) 4
  let k := i * 4 + an
  let slot := fld (c.w 1) 16 0
  match mget s.cipher.channels i with
  | none => .refuse .notFound []
  | some x =>
    refuseIf (remove && !mhas s.cipher.assocs k) .notFound [] <|
    refuseIf (c.world ≠ 0x0100 && x.world ≠ c.world) .badWorld [] <|
    refuseIf (!remove && isPonSlot slot) .badParam [1] <|
    refuseIf (!remove && !permits s (slotAt s slot).attr engineBit x.world (some (if x.rx then useDecrypt else useEncrypt)))
      .notPermitted [] <|
    refuseIf (!remove && !(slotAt s slot).valid) .notFound [] <|
    refuseIf (!remove && wideSuite x.suite && (slotAt s slot).attr.ktype = 0) .notPermitted [] <|
    refuseIf (!remove && join64 (c.w 3) (c.w 4) = 0) .badParam [3] <|
    refuseIf (!remove && !isXpn x.suite && c.w 4 ≠ 0) .badParam [4] <|
    refuseIf (!x.rx && channelAn x = an && mhas s.cipher.assocs k) .notPermitted [] <|
    if remove then .done { s with cipher := { s.cipher with assocs := mdel s.cipher.assocs k } } []
    else
      let n := s.cipher.installs + 1
      .done { s with cipher := { s.cipher with assocs := mset s.cipher.assocs k (assocOf c n), installs := n } } []

def opSaConfig : OpSpec :=
  { code := 0x6002, vf := true, home := (0x07, 0), instAll := true, len := exactly 16,
    rsv := masks [0xC000FFE4#32, 0xFFFE0000#32, 0xFFFF0000#32, 0, 0, 0, 0, 0, 0, 0, 0, 0xFFFFFFFF#32, 0xFFFFFFFF#32,
                  0xFFFFFFFF#32, 0xFFFFFFFF#32, 0xFFFFFFFF#32],
    stage := .stageable, objs := fun ws => [assocObj (fld (nthW ws 0) 29 16) (fld (nthW ws 0) 1 0)], run := runSaConfig }

/-- SA_ACTIVATE (R304 to R306). -/
def runSaActivate (c : Ctx) (s : State) : HRes :=
  let i := fld (c.w 0) 29 16
  let an := fld (c.w 0) 1 0
  match mget s.cipher.channels i, mget s.cipher.assocs (i * 4 + an) with
  | some x, some a =>
    refuseIf a.exhausted .notPermitted [] <|
    refuseIf (c.world ≠ 0x0100 && x.world ≠ c.world) .badWorld [] <|
    let x' := { x with an := some an, lowest := if x.rx then join64 (c.w 1) (c.w 2) else x.lowest }
    .done { s with cipher := { s.cipher with channels := mset s.cipher.channels i x' } } []
  | _, _ => .refuse .notFound []

def opSaActivate : OpSpec :=
  { code := 0x6003, vf := true, home := (0x07, 0), instAll := true, len := exactly 3, rsv := masks [0xC000FFFC#32],
    stage := .stageable, objs := fun ws => [channelObj (fld (nthW ws 0) 29 16)], run := runSaActivate }

end Sys2Proof.Machine
end

