-- ==== Sys2Proof/Machine/Lanes.lean ====
section
/-! DEFINITION. Fabric sides' defects and the protection selector's moves, and the serial lanes (chapters 12 and 13). -/

namespace Sys2Proof.Machine

/-! ## Sides (R403, R413) -/

/-- A fabric side: 0 is A and 1 is B. -/
def sideAt (s : State) (i : Nat) : Side := if i = 0 then s.link.a else s.link.b

/-- Alter a side. -/
def updSide (i : Nat) (f : Side → Side) (s : State) : State :=
  if i = 0 then { s with link := { s.link with a := f s.link.a } } else { s with link := { s.link with b := f s.link.b } }

/-- The other side. -/
def otherSide (i : Nat) : Nat := if i = 0 then 1 else 0

/-- The lanes of a width code (Table 13.1). -/
def widthLanes (code : Nat) : Nat :=
  match code with
  | 0 => 32 | 1 => 16 | 2 => 8 | _ => 1

/-- Raise or clear a Plait defect of a side, its code being 0x0A20 plus the given number (Table 16.4). -/
def plaitDefect (i k cls : Nat) (raised : Bool) (s : State) : State :=
  if raised then raise 0x0A 2 i i (0x0A20 + k) cls (wd i) s else lower 0x0A 2 i i (0x0A20 + k) cls s

/-- Set LOA of a side (R409). -/
def setLoa (i : Nat) (v : Bool) (s : State) : State :=
  if (sideAt s i).loa = v then s else plaitDefect i 0 1 v (updSide i (fun x => { x with loa := v }) s)

/-- Set LOP of a side (R410). -/
def setLop (i : Nat) (v : Bool) (s : State) : State :=
  if (sideAt s i).lop = v then s else plaitDefect i 1 1 v (updSide i (fun x => { x with lop := v }) s)

/-- Set TIM of a side (R411). -/
def setTim (i : Nat) (v : Bool) (s : State) : State :=
  if (sideAt s i).tim = v then s else plaitDefect i 2 1 v (updSide i (fun x => { x with tim := v }) s)

/-- Set EXC of a side (R412). -/
def setExc (i : Nat) (v : Bool) (s : State) : State :=
  if (sideAt s i).exc = v then s else plaitDefect i 3 1 v (updSide i (fun x => { x with exc := v }) s)

/-- Set RDI of a side (R413). -/
def setRdi (i : Nat) (v : Bool) (s : State) : State :=
  if (sideAt s i).rdi = v then s else plaitDefect i 4 0 v (updSide i (fun x => { x with rdi := v }) s)

/-- Set PAUSE_STUCK of a side (R414). -/
def setStuck (i : Nat) (v : Bool) (s : State) : State :=
  if (sideAt s i).pauseStuck = v then s else plaitDefect i 5 1 v (updSide i (fun x => { x with pauseStuck := v }) s)

/-- Set PROT_BOTH (R413). It is of both sides, so its resource is neither's (DEDUCED: log entry 190). -/
def setBoth (v : Bool) (s : State) : State :=
  if s.link.sel.both = v then s
  else (if v then raise 0x0A 2 0 2 0x0A26 1 0 else lower 0x0A 2 0 2 0x0A26 1) { s with link := { s.link with sel := { s.link.sel with both := v } } }

/-- The Plait counters of Table 13.10 by position. -/
def cPlait (pos : Nat) : Nat := cid 13 10 pos
def cReasmDrop : Nat := cPlait 6

/-- Raise a side's Plait counter by a number. -/
def bumpSide (i pos n : Nat) (s : State) : State := bumpBy { cid := cPlait pos, scope := 1, idx := i } n s

/-- The contexts of TYPE 1 cells close, their frames dropped and counted (R409, R419). All contexts, or TYPE 1 only. -/
def dropContexts (i : Nat) (typeOneOnly : Bool) (s : State) : State :=
  let gone := (sideAt s i).ctxs.filter fun e => !typeOneOnly || e.1 % 4 = 1
  bumpSide i 6 gone.length (updSide i (fun x => { x with ctxs := mkeep x.ctxs fun k _ => typeOneOnly && k % 4 ≠ 1 }) s)

/-! ## Lanes: state (R385, R394) -/

/-- A lane index of Table 12.1. -/
def isLane (i : Nat) : Bool := i < 80 || (128 ≤ i && i < 192)
def isUplinkLane (i : Nat) : Bool := i < 16
def isFabricLane (i : Nat) : Bool := 16 ≤ i && i < 80
def isPonLane (i : Nat) : Bool := 128 ≤ i && i < 192

/-- A lane as reset leaves it (Table 12.2). -/
def laneReset (i : Nat) : Lane :=
  { cfg := { peakAuto := !isPonLane i, dfe := if isPonLane i then 2 else 0, txTrain := isFabricLane i } }

/-- A lane. -/
def laneAt (s : State) (i : Nat) : Lane := mgetD s.link.lanes i (laneReset i)

/-- Alter a lane. -/
def updLane (i : Nat) (f : Lane → Lane) (s : State) : State :=
  { s with link := { s.link with lanes := mset s.link.lanes i (f (laneAt s i)) } }

/-- The side of a fabric lane and the lane's number on it. -/
def laneSide (i : Nat) : Nat := if i < 48 then 0 else 1
def laneOnSide (i : Nat) : Nat := if i < 48 then i - 16 else i - 48

/-- The lane of a side by its number on it. -/
def sideLane (i k : Nat) : Nat := if i = 0 then 16 + k else 48 + k

/-- A power domain has power (R441). -/
def powered (s : State) (d : Nat) : Bool := !s.halter.gated.contains d

/-- The rails are on: the soft start is complete (Table 2.10). -/
def railsOn (s : State) : Bool := s.boot.phase ≠ .off && s.boot.phase ≠ .softStart

/-- An access that needs gated domains powers them (R458); in Halter they stay as Halter has them. -/
def needDomains (ds : List Nat) (s : State) : State :=
  if s.halter.stage ≠ .outside then s
  else { s with halter := { s.halter with gated := s.halter.gated.filter fun d => !ds.contains d } }

/-- A lane is enabled: its owner's domain has power, its port or side is configured and, for a fabric lane, the card
is seated (R394); LANE_FLAP's hold keeps it out (R397). -/
def laneEnabled (s : State) (i : Nat) : Bool :=
  (laneAt s i).flapAt.isNone && railsOn s &&
  (if isUplinkLane i then
    let g := mgetD s.link.uplinks (i / 4) {}
    powered s (0x30 + i / 4) && (g.arrange = 2 && g.portEn.testBit 0 || g.arrange = 1 && g.portEn.testBit (i % 4))
  else if isFabricLane i then powered s (0x40 + laneSide i) && (sideAt s (laneSide i)).enable && s.power.seated
  else false)

/-- The lanes of a side's group (R403). -/
def groupLanes (s : State) (i : Nat) : List Nat := (List.range (widthLanes (sideAt s i).rxWidth)).map (sideLane i)

/-- A side's lanes are DISABLED (R399). -/
def lanesDown (s : State) (i : Nat) : Bool := (groupLanes s i).all fun l => (laneAt s l).st = .disabled

/-! ## Signal fail and the selector (R413, R417 to R419) -/

/-- A side is in signal fail (R413). -/
def sideFails (s : State) (i : Nat) : Bool :=
  let x := sideAt s i
  x.loa || x.lop || (x.tim && x.timAct) || x.exc || !x.enable || lanesDown s i

/-- The counter PROT_SWITCHES is raised and the move recorded; `bySf` tells a move caused by SF (R419). -/
def moveTo (side : Nat) (bySf : Bool) (s : State) : State :=
  let old := s.link.sel.side
  if old = side then s
  else
    let begun := (sideAt s old).queue.filter fun f => f.kind = 3 || f.ctx.isSome
    let fresh := (sideAt s old).queue.filter fun f => f.kind ≠ 3 && f.ctx.isNone
    let s1 := updSide old (fun x => { x with queue := if bySf then begun.map fun f => if f.kind = 3 then f else { f with poison := true } else begun }) s
    let s2 := updSide side (fun x => { x with queue := x.queue ++ fresh }) s1
    let s3 := if bySf then dropContexts old true s2 else s2
    recordEv 0x0008 5 0x0A 2 side 0x0100 [wd old, wd side, wd (b2n bySf)]
      (bumpSide side 16 1 { s3 with link := { s3.link with sel := { s3.link.sel with
        side := side, transition := if bySf then none else some s3.mono } } })

/-- Alter the selector. -/
def updSel (f : Selector → Selector) (s : State) : State := { s with link := { s.link with sel := f s.link.sel } }

/-- One move of Table 13.8 by the SF that has persisted. -/
def selectorMove (s : State) : State :=
  let x := s.link.sel
  let sf (i : Nat) : Bool := x.acted.contains i
  let other := otherSide x.side
  if x.st = .fs then s
  else if sf 0 && sf 1 then s
  else if sf x.side && !sf other && x.st ≠ .sf then moveTo other true (updSel (fun x => { x with st := .sf }) s)
  else match x.st with
    | .wtr => if sf x.pref then updSel (fun x => { x with st := .sf }) s else s
    | .sf =>
      if !sf other then
        if x.revertive && x.side ≠ x.pref then updSel (fun x => { x with st := .wtr, wtrAt := s.mono }) s
        else updSel (fun x => { x with st := .nr }) s
      else s
    | .nr => if x.revertive && x.side ≠ x.pref && !sf x.pref then moveTo x.pref false s else s
    | _ => s

/-- Follow the signal fail of both sides: an SF acts once it has persisted for HOLD_OFF, a clearing at once;
PROT_BOTH follows signal fail on both sides; the selector moves until it rests. -/
def updateSf (s : State) : State :=
  let step (i : Nat) (s : State) : State :=
    if sideFails s i then
      let since := mgetD s.link.sel.sfSince i s.mono
      let due := passed s since (s.link.sel.holdOff * 10 * us)
      updSel (fun x => { x with sfSince := mset x.sfSince i since,
                                acted := if due && !x.acted.contains i then i :: x.acted else x.acted }) s
    else updSel (fun x => { x with sfSince := mdel x.sfSince i, acted := x.acted.filter (· ≠ i) }) s
  let s1 := step 1 (step 0 s)
  let s2 := setBoth (sideFails s1 0 && sideFails s1 1) s1
  selectorMove (selectorMove (selectorMove s2))

/-- A side hunts: what it held of the stream, its trace bytes among it, ends (R409 to R411). -/
def hunting (i : Nat) (s : State) : State :=
  updSide i (fun x => { x with align := .hunt, errored := 0, k := 0, bipSeen := none, carry := [], trace := [], lastTrace := [], traceRun := 0 }) s

/-- The aligner of a side falls to HUNT (R409): LOA, its contexts closed and counted. -/
def alignLost (i : Nat) (s : State) : State :=
  if (sideAt s i).align = .sync then
    updateSf (setLoa i true (dropContexts i false (hunting i s)))
  else updateSf (hunting i s)

/-- A lane that leaves ACTIVE or loses its raw signal makes its side's aligner hunt, if it belongs to the group
(R396, R409). -/
def laneLost (l : Nat) (s : State) : State :=
  if isFabricLane l && (groupLanes s (laneSide l)).contains l then alignLost (laneSide l) s else s

/-! ## Lanes: moves (R394 to R397) -/

/-- The eye scans of a lane end ABORTED (R402). -/
def abortScan (l : Nat) (s : State) : State :=
  if !(laneAt s l).scanning then s
  else
    let s1 := updLane l (fun x => { x with scanning := false }) s
    forEach (executingQ s1 0x8006 (· = [l])) (fun q s => finish q (fun s => .ended s .aborted []) s) s1

/-- Move a lane to a state. A scan of a lane that leaves ACTIVE ends (R402). -/
def laneTo (l : Nat) (st : LaneState) (s : State) : State :=
  let was := (laneAt s l).st
  let s1 := updLane l (fun x => { x with st := st, since := s.mono, stale := false }) s
  if was = .active && st ≠ .active then laneLost l (abortScan l s1)
  else if isFabricLane l then updateSf s1 else s1

/-! ## References of the fabric sides (R521) -/

/-- A reference input: REF_0 to REF_3, and PCIE_REFCLK as 4. -/
def refAt (s : State) (r : Nat) : RefIn := (mget s.power.refs r).getD {}

/-- Set whether a reference is valid. -/
def setRef (r : Nat) (v : Bool) (s : State) : State :=
  { s with power := { s.power with refs := mset s.power.refs r { valid := v } } }

/-- The reference of a fabric side: REF_1 for A and REF_2 for B (Table 18.9). -/
def sideRef (i : Nat) : Nat := i + 1

/-- The lanes of a side retrain: those that are in use leave for TRAINING. -/
def retrainSide (i : Nat) (s : State) : State :=
  forBelow 32 (fun k s =>
    let l := sideLane i k
    if (laneAt s l).st = .disabled then s else laneTo l .training s) s

/-- A lane's transmit clock is there (Table 18.9): a fabric side's own reference, or REF_3 for a side that moved to it. -/
def laneClocked (s : State) (l : Nat) : Bool :=
  !isFabricLane l ||
    (if s.power.fallback.contains (laneSide l) then (refAt s 3).valid else (refAt s (sideRef (laneSide l))).valid)

/-- A side on REF_3 returns to its own valid reference once it is standby or in SF; its lanes retrain. -/
def refReturn (i : Nat) (s : State) : State :=
  if s.power.fallback.contains i && (refAt s (sideRef i)).valid && (s.link.sel.side ≠ i || sideFails s i) then
    retrainSide i { s with power := { s.power with fallback := s.power.fallback.filter (· ≠ i) } }
  else s

/-- The sides that may return to their references do. -/
def followRefs (s : State) : State := refReturn 1 (refReturn 0 s)

/-! ## Defects and enabling -/

/-- Raise a lane defect of Table 12.5: its code is 0x0A10 plus the given number. -/
def laneFault (l k cls : Nat) (raised : Bool) (s : State) : State :=
  if raised then raise 0x0A 0 l l (0x0A10 + k) cls (wd l) s else lower 0x0A 0 l l (0x0A10 + k) cls s

/-- A lane becomes enabled or no longer enabled (R394). -/
def laneFollow (l : Nat) (s : State) : State :=
  let x := laneAt s l
  if laneEnabled s l then if x.st = .disabled && !x.txFault then laneTo l .training s else s
  else if x.st ≠ .disabled then laneTo l .disabled s else s

/-- Every lane follows what enables it. -/
def lanesFollow (s : State) : State := forBelow 80 laneFollow s

def execLaneEnableChange (l : Nat) (s : State) : Res := onObject (l < 80) (laneFollow l s)

/-- The adaptation window of a lane (R393). -/
def laneWindow (x : Lane) : Nat × Nat := (max x.cfg.peakMin x.planMin, min x.cfg.peakMax x.planMax)

/-- A lane enters ACTIVE; one that IDLE_POLICY 2 holds idle goes on to IDLE (R394). -/
def laneUp (l : Nat) (s : State) : State :=
  if (laneAt s l).cfg.idle = 2 then laneTo l .idle (laneTo l .active s) else laneTo l .active s

/-- The 12 DFE taps that a list gives (R392). -/
def twelve (ts : List Int) : List Int := (ts ++ List.replicate 12 0).take 12

/-- Training completes (R392, R394): `peak` is the step that gives the best eyes, which lies in the window, or
PEAK with PEAK_AUTO 0; `post`, `pre` and `swing` are what the partner's requests have set with TX_TRAIN (R388). What the TZ64
has asked of the partner comes from its receiver and is a free value (R388). -/
def trained (l peak : Nat) (freq : Int) (taps : List Int) (post pre swing : Nat) (precode : Bool) (s : State) : State :=
  let x := laneAt s l
  let s1 := laneUp l (updLane l (fun x => { x with
    peakNow := if x.cfg.peakAuto then peak else x.cfg.peak, freq := freq, rampAt := none, taps := if x.cfg.dfe = 2 then List.replicate 12 0 else twelve taps,
    txPostNow := if x.cfg.txTrain then post else x.txPostNow, txPreNow := if x.cfg.txTrain then pre else x.txPreNow,
    txSwingNow := if x.cfg.txTrain then swing else x.txSwingNow,
    precodeOn := if isUplinkLane l then x.cfg.precode else precode, fails := 0, trainFail := false, flap := false }) s)
  let s1 := if isFabricLane l then emit (.training l (Config.freeNat s1.free)) (takeFree s1) else s1
  let s2 := if x.trainFail then laneFault l 2 1 false s1 else s1
  if x.flap then laneFault l 3 1 false s2 else s2

def execLaneTrainingComplete (l peak : Nat) (freq : Int) (taps : List Int) (post pre swing : Nat) (precode : Bool) (s : State) : Res :=
  onObject (l < 80) <| whenever ((laneAt s l).st = .training && laneClocked s l && (laneAt s l).since ≤ s.mono
      && (!(laneAt s l).cfg.peakAuto || ((laneWindow (laneAt s l)).1 ≤ peak && peak ≤ (laneWindow (laneAt s l)).2)))
    (trained l peak freq taps post pre swing precode) s

/-- Training not complete in 100 ms (R394): counted, the transmitter idle for 100 ms, training restarted; the third
in a row raises TRAIN_FAIL. -/
def trainingFailed (l : Nat) (s : State) : State :=
  let s1 := updLane l (fun x => { x with fails := x.fails + 1, since := s.mono + 100 * ms }) s
  if (laneAt s1 l).fails = 3 then laneFault l 2 1 true (updLane l (fun x => { x with trainFail := true }) s1) else s1

def execLaneTrainingTimeout (l : Nat) (s : State) : Res :=
  onObject (l < 80) <| whenever ((laneAt s l).st = .training && passed s (laneAt s l).since (100 * ms)) (trainingFailed l) s

/-- The owner requests idle (R394). -/
def execLaneIdleRequest (l : Nat) (s : State) : Res :=
  onObject (l < 80) <| whenever ((laneAt s l).st = .active && (laneAt s l).cfg.idle = 1) (laneTo l .idle) s

/-- The owner requests exit, or the partner's signal returns (R394). The stale mark is kept for the exit. -/
def laneExit (l : Nat) (s : State) : State :=
  let stale := (laneAt s l).stale
  updLane l (fun x => { x with stale := stale, exitAt := some s.mono }) (laneTo l .exit s)

/-- The owner asks a lane to exit: one in IDLE that IDLE_POLICY 2 does not hold there does (R394). -/
def askExit (l : Nat) (s : State) : State :=
  if (laneAt s l).st = .idle && (laneAt s l).cfg.idle ≠ 2 then laneExit l s else s

def execLaneExitRequest (l : Nat) (s : State) : Res :=
  onObject (l < 80) <| whenever ((laneAt s l).st = .idle && (laneAt s l).cfg.idle ≠ 2) (laneExit l) s

/-- 100 ms in IDLE mark the receiver state stale (R394). -/
def execLaneIdleStale (l : Nat) (s : State) : Res :=
  onObject (l < 80) <| whenever ((laneAt s l).st = .idle && passed s (laneAt s l).since (100 * ms))
    (updLane l fun x => { x with stale := true }) s

/-- The end of an exit (R394, R395): ACTIVE where codeword alignment is regained within 1 µs and the state is not
stale, otherwise TRAINING. -/
def exitEnd (l : Nat) (aligned : Bool) (s : State) : State :=
  if aligned && !(laneAt s l).stale then
    laneUp l (updLane l (fun x => { x with fastExits := satAdd 0xFFFF x.fastExits 1 }) s)
  else laneTo l .training (updLane l (fun x => { x with fastExitFail := satAdd 0xFFFF x.fastExitFail 1 }) s)

def execFastExitTimeout (l : Nat) (aligned : Bool) (s : State) : Res :=
  onObject (l < 80) <| whenever ((laneAt s l).st = .exit
      && (aligned || (laneAt s l).stale || passed s (laneAt s l).since us)) (exitEnd l aligned) s

/-- LOS raised (R396): outside IDLE and DISABLED; the tenth within 1 s raises LANE_FLAP and holds the lane (R397). -/
def losRaised (l : Nat) (s : State) : State :=
  let times := ((laneAt s l).losTimes.filter fun t => s.mono < t + sec) ++ [s.mono]
  let s1 := laneFault l 0 1 true (updLane l (fun x => { x with
    los := true, signal := false, losEvents := satAdd 0xFFFF x.losEvents 1, losTimes := times }) s)
  if 10 ≤ times.length && !(laneAt s1 l).flap then
    laneTo l .disabled (laneFault l 3 1 true (updLane l (fun x => { x with flap := true, flapAt := some s.mono, losTimes := [] }) s1))
  else s1

/-- LOS: `above` tells whether the amplitude lay above 100 mV for 10 µs or below 60 mV for 1 µs. -/
def losChange (l : Nat) (above : Bool) (s : State) : State :=
  let x := laneAt s l
  if above then
    let s1 := updLane l (fun x => { x with los := false, signal := true }) (if x.signal then s else askExit l s)
    if x.los then laneFault l 0 1 false s1 else s1
  else if !x.los && x.st ≠ .idle && x.st ≠ .disabled then losRaised l s
  else updLane l (fun x => { x with signal := false }) s

def execLaneLos (l : Nat) (above : Bool) (s : State) : Res := onObject (l < 80) (losChange l above s)

/-- LOL (R396): `locked` tells whether lock was held for 100 µs or lost, or the offset beyond ±200 ppm, for 1 µs. -/
def lolChange (l : Nat) (locked : Bool) (freq : Int) (s : State) : State :=
  let x := laneAt s l
  let s0 := updLane l (fun x => { x with freq := freq }) s
  if locked then
    let s1 := updLane l (fun x => { x with lol := false }) s0
    if x.lol then laneFault l 1 1 false s1 else s1
  else if !x.lol && !x.los then
    let s1 := laneFault l 1 1 true (updLane l (fun x => { x with lol := true, lolEvents := satAdd 0xFFFF x.lolEvents 1 }) s0)
    if x.st = .active then laneTo l .training s1 else s1
  else s0

def execLaneLol (l : Nat) (locked : Bool) (freq : Int) (s : State) : Res := onObject (l < 80) (lolChange l locked freq s)

/-- The 1 s LANE_FLAP hold ends and the lane is enabled again (R397). -/
def execLaneFlapHoldEnd (l : Nat) (s : State) : Res :=
  onObject (l < 80) <| whenever (match (laneAt s l).flapAt with | some t => passed s t sec | none => false)
    (fun s => laneFollow l (updLane l (fun x => { x with flapAt := none }) s)) s

/-- TX_FAULT: the transmitter is held idle and the lane is out of service for its owner (R396, R397). -/
def execTxFault (l : Nat) (s : State) : Res :=
  onObject (l < 80) <| laneTo l .disabled (laneFault l 4 2 true (updLane l (fun x => { x with txFault := true }) s))

/-- A raw detector change reaches the lane's owner before qualification (R396): raw LOS or LOL of a lane of the
group sends the side's aligner to HUNT. Signal that comes back takes a lane out of IDLE (R394). -/
def rawChange (l : Nat) (los lol : Bool) (s : State) : State :=
  let s1 := updLane l (fun x => { x with rawLos := los, rawLol := lol }) s
  if los || lol then laneLost l s1 else if (laneAt s l).rawLos then askExit l s1 else s1

def execRawDetectorStateChange (l : Nat) (los lol : Bool) (s : State) : Res := onObject (l < 80) (rawChange l los lol s)

/-- Every 100 ms an ACTIVE lane with PEAK_AUTO moves its step by at most one within the window (R392): `move` is
1 down, 2 up, else none. -/
def reevaluate (l move : Nat) (s : State) : State :=
  let (lo, hi) := laneWindow (laneAt s l)
  updLane l (fun x => { x with evalAt := s.mono, peakNow :=
    if move = 1 && lo < x.peakNow then x.peakNow - 1 else if move = 2 && x.peakNow < hi then x.peakNow + 1 else x.peakNow }) s

def execPeakingReevaluate (l move : Nat) (s : State) : Res :=
  onObject (l < 80) <| whenever ((laneAt s l).st = .active && (laneAt s l).cfg.peakAuto
      && passed s (laneAt s l).evalAt (100 * ms)) (reevaluate l move) s

/-- The step that a lane's peaking moves toward: PEAK, or the nearest end of the window (R391). -/
def peakGoal (x : Lane) : Nat :=
  if x.cfg.peakAuto then min (max x.peakNow (laneWindow x).1) (laneWindow x).2 else x.cfg.peak

/-- Every 10 µs peaking moves one step toward a new fixed value or window (R391). -/
def execPeakingStep (l : Nat) (s : State) : Res :=
  onObject (isLane l) <| whenever ((laneAt s l).st = .active && passed s (laneAt s l).lastMove (10 * us))
    (updLane l fun x => { x with
      lastMove := s.mono,
      peakNow := if x.peakNow < peakGoal x then x.peakNow + 1 else if peakGoal x < x.peakNow then x.peakNow - 1 else x.peakNow }) s

/-- Card seating (R515, R399, R516): every change raises SEATED_CHANGE, and the fabric lanes follow. -/
def seat (v : Bool) (s : State) : State :=
  if s.power.seated = v then s
  else
    let s1 := raise 0x0E 0 0 0 0x0E18 0 (wd (b2n v)) { s with power := { s.power with seated := v } }
    updateSf (lanesFollow s1)

def execCardSeated (s : State) : Res := .next (seat true s)
def execCardUnseated (s : State) : Res := .next (seat false s)

/-! ## LANE_CONFIG, LANE_STATUS, LANE_EYE_SCAN -/

/-- A number of some bits read as a signed one. -/
def signedOf (n v : Nat) : Int := (BitVec.ofNat n v).toInt

/-- A lane's taps adapt (R392). -/
def adapting (x : Lane) : Bool := x.st = .active && x.cfg.dfe = 0

/-- The DFE taps as they now are. While they adapt their values are open, and while they ramp to 0 over 100 µs their values between the old
ones and 0 (free values); after that they are 0 (R391). -/
def tapsNow (s : State) (l : Nat) : List Int :=
  let x := laneAt s l
  match x.rampAt with
  | some t =>
    if passed s t (100 * us) then List.replicate 12 0
    else x.taps.mapIdx fun k v => (if v < 0 then -1 else 1) * ((Config.freeNat (s.free + k) % (v.natAbs + 1) : Nat) : Int)
  | none => if adapting x then (List.range 12).map fun k => signedOf 8 (Config.freeNat (s.free + k)) else x.taps

/-- The setting that LANE_CONFIG's words give (Table 12.2). -/
def laneCfgOf (w1 w2 : Word) : LaneCfg :=
  { peakAuto := bit w1 31, peak := fld w1 28 24, peakMin := fld w1 20 16, peakMax := fld w1 12 8, dfe := fld w1 5 4,
    idle := fld w1 3 2, precode := bit w1 0, txTrain := bit w2 31, txPost := fld w2 21 16, txPre := fld w2 12 8,
    txSwing := fld w2 6 0 }

/-- The parameter word whose field R390 refuses. -/
def laneCfgBad (l : Nat) (g : LaneCfg) : Option Nat :=
  if g.peakMax < g.peakMin || g.dfe = 3 || g.idle = 3 || (g.precode && !isUplinkLane l) || (isUplinkLane l && g.idle = 1)
      || (isPonLane l && (g.peakAuto || g.dfe ≠ 2 || g.idle ≠ 0)) then some 1
  else if 40 < g.txPost || 25 < g.txPre || g.txSwing < 40 || 100 < g.txSwing || 50 < g.txPre + g.txPost
      || (g.txTrain && !isFabricLane l) then some 2
  else none

/-- Settings of the receiver differ. -/
def rxDiffers (a b : LaneCfg) : Bool :=
  a.peakAuto ≠ b.peakAuto || a.peak ≠ b.peak || a.peakMin ≠ b.peakMin || a.peakMax ≠ b.peakMax || a.dfe ≠ b.dfe
    || a.precode ≠ b.precode

/-- Taps that are not 0 begin their ramp to 0 as DFE_MODE 2 is written; another mode ends it (R391). -/
def rampOf (s : State) (x : Lane) (dfe : Nat) : Option Nat :=
  if dfe ≠ 2 then none else if x.cfg.dfe = 2 then x.rampAt else some s.mono

/-- A change of PRECODE retrains a lane that is in use (R391). -/
def retrains (st : LaneState) : Bool := st = .active || st = .idle || st = .exit

/-- LANE_CONFIG (R389 to R393, R397). A TX_FAULT stays while the driver's fault is present, which the first answer says (R396). -/
def runLaneConfig (c : Ctx) (s : State) : HRes :=
  let l := fld (c.w 0) 7 0
  let g := laneCfgOf (c.w 1) (c.w 2)
  refuseIf (!isLane l || c.inst ≠ l) .badTarget [] <|
  match laneCfgBad l g with
  | some i => .refuse .badParam [wd i]
  | none =>
    let x := laneAt s l
    let moved := x.cfg.peakMin ≠ g.peakMin || x.cfg.peakMax ≠ g.peakMax
    let faulty := x.txFault && c.answers = [1]
    let s1 := updLane l (fun y => { y with taps := tapsNow s l, rampAt := rampOf s x g.dfe }) { s with free := s.free + 12 }
    let s1 := updLane l (fun x => { x with
      cfg := g, planMin := if moved then g.peakMin else x.planMin, planMax := if moved then g.peakMax else x.planMax,
      txFault := faulty,
      txPostNow := if g.txTrain then x.txPostNow else g.txPost, txPreNow := if g.txTrain then x.txPreNow else g.txPre,
      txSwingNow := if g.txTrain then x.txSwingNow else g.txSwing,
      peakNow := if isPonLane l then g.peak else x.peakNow }) s1
    let s1 := if moved then { s1 with pat := { s1.pat with windows := s1.pat.windows.filter (· ≠ l) } } else s1
    let s2 := if x.txFault && !faulty then laneFollow l (laneFault l 4 2 false s1) else s1
    let s3 := if rxDiffers x.cfg g then abortScan l s2 else s2
    let s4 := if x.cfg.precode ≠ g.precode && retrains (laneAt s3 l).st then laneTo l .training s3 else s3
    .done (if g.idle = 2 && (laneAt s4 l).st = .active then laneTo l .idle s4 else s4) []

def opLaneConfig : OpSpec :=
  { code := 0x8002, home := (0x0A, 0), oWorld := true, len := exactly 3,
    rsv := masks [0xFFFFFF00#32, 0x60E0E0C2#32, 0x7FC0E080#32], stage := .stageable,
    objs := fun ws => [(0x8002, fld (nthW ws 0) 7 0)], run := runLaneConfig }

/-- The code of a lane state (Table 12.6). -/
def laneStateCode : LaneState → Nat
  | .disabled => 0 | .training => 1 | .active => 2 | .idle => 3 | .exit => 4

/-- The words of LANE_STATUS (Table 12.6). -/
def laneWords (l : Nat) (x : Lane) : List Word :=
  let pon := isPonLane l
  [ pack [(laneStateCode x.st, 3, 29), (b2n x.los, 1, 28), (b2n x.lol, 1, 27), (b2n x.trainFail, 1, 26), (b2n x.flap, 1, 25),
      (b2n x.txFault, 1, 24), (b2n x.signal, 1, 23), (b2n x.precodeOn, 1, 22), (x.peakNow, 5, 8), (l, 8, 0)],
    pack [(x.planMin, 5, 27), (x.planMax, 5, 22), (unsigned 16 x.freq, 16, 0)],
    pack [(unsigned 8 (x.taps.headD 0), 8, 24), (x.txPostNow, 8, 16), (x.txPreNow, 8, 8), (x.txSwingNow, 8, 0)],
    if pon then 0 else lo32 x.symErrors, if pon then 0 else wd (x.symErrors / 2 ^ 32 % 65536),
    if pon then 0 else lo32 x.uncorrectable, if pon then 0 else wd (x.uncorrectable / 2 ^ 32 % 65536),
    pack [(x.losEvents, 16, 16), (x.lolEvents, 16, 0)], pack [(x.fastExits, 16, 16), (x.fastExitFail, 16, 0)] ]

/-- What a lane has measured since the last read comes from outside with the command: RS symbols corrected, codewords that failed
correction, and codewords corrected (R401, Table 17.6); three more may follow: in ACTIVE the first tap while it adapts (R391) and the
partner's offset, as LANE_STATUS codes them, and whether the amplitude lies above 100 mV now. -/
def takeErrors (l : Nat) (answers : List Nat) (s : State) : State :=
  match answers with
  | a :: b :: k :: rest => countEvent 0x4A 0x103 0x0100 k (updLane l (fun x =>
      { x with
        symErrors := (x.symErrors + a) % 2 ^ 48, uncorrectable := (x.uncorrectable + b) % 2 ^ 48,
        taps := if adapting x && !rest.isEmpty then signedOf 8 (rest.getD 0 0) :: (tapsNow s l).drop 1 else x.taps,
        freq := if x.st = .active && 2 ≤ rest.length then signedOf 16 (rest.getD 1 0) else x.freq,
        signal := if 3 ≤ rest.length then rest.getD 2 0 = 1 else x.signal }) s)
  | _ => s

/-- The taps that LANE_STATUS shows: the measured ones where the first was given, else as they now are (R401). -/
def tapsShown (l : Nat) (answers : List Nat) (s : State) : List Int :=
  if adapting (laneAt s l) && 4 ≤ answers.length then (laneAt s l).taps else tapsNow s l

/-- LANE_STATUS (R401): the lane is INSTANCE. A virtual function receives word 0. -/
def runLaneStatus (c : Ctx) (s : State) : HRes :=
  let l := fld (c.w 0) 7 0
  refuseIf (!isLane l || c.inst ≠ l) .badTarget [] <|
  let t := takeErrors l c.answers s
  let ws := laneWords l { laneAt t l with taps := tapsShown l c.answers t }
  .done { t with free := t.free + 12 } (match c.master with | .vf _ => ws.take 1 ++ List.replicate 8 0 | _ => ws)

def opLaneStatus : OpSpec :=
  { code := 0x8003, vf := true, home := (0x0A, 0), writes := false, len := exactly 1, rsv := masks [0xFFFFFF00#32],
    run := runLaneStatus }

/-- The scans of a PATINA_SCAN that measures lanes: four, where so many lanes are ACTIVE without a scan (R481). -/
def patinaScans (s : State) : Nat :=
  if (executingQ s 0xB007 fun d => (d.headD 0).testBit 1).isEmpty then 0
  else min 4 ((List.range 80).filter fun l => (laneAt s l).st = .active && !(laneAt s l).scanning).length

/-- The eye scans that run, Patina's included (R402, R481). -/
def scansRunning (s : State) : Nat := (executingQ s 0x8006 fun d => d.length = 1).length + patinaScans s

/-- LANE_EYE_SCAN (R402): it goes on until EYE_SCAN_COMPLETE. A PON lane is ACTIVE while its port is in service. -/
def runLaneEyeScan (c : Ctx) (s : State) : HRes :=
  let l := fld (c.w 0) 7 0
  refuseIf (!isLane l || c.inst ≠ l) .badTarget [] <|
  refuseIf (if isPonLane l then (mgetD s.pon.ports (l - 128) {}).cfg.mode = 0 else (laneAt s l).st ≠ .active) .notPermitted [] <|
  refuseIf (8 ≤ scansRunning s) .noSpace [] <|
  .wait (updLane l (fun x => { x with scanning := true, scanned := 0 }) s) [l]

def opLaneEyeScan : OpSpec :=
  { code := 0x8006, home := (0x0A, 0), writes := false, oWorld := true, len := exactly 1, rsv := masks [0xFFFFFF00#32],
    run := runLaneEyeScan }

end Sys2Proof.Machine
end

