-- ==== Sys2Proof/Machine/LaneCode.lean ====
section
/-! DEFINITION. The coding of a fabric lane: 66-bit blocks, scrambler, FEC codewords and PAM4 symbols (R387, R403). -/

namespace Sys2Proof.Machine

/-- One step of the self-synchronous scrambler x^58 + x^39 + 1 (R387). -/
def scrambleBit (r : BitVec 58) (b : Bool) : BitVec 58 × Bool :=
  let o := b ^^ r.getLsbD 38 ^^ r.getLsbD 57
  ((r <<< 1) ||| (if o then 1#58 else 0#58), o)

/-- The bits of a word of 8 bytes, byte 0 and each byte's bit 0 first, as IEEE 802.3 clause 49 sends them (PRESUMED: log entry 190). -/
def wordBits (bs : List Byte) : List Bool := bs.flatMap fun b => (List.range 8).map b.getLsbD

/-- Bits through the scrambler. -/
def scrambleBits (r : BitVec 58) (bs : List Bool) : BitVec 58 × List Bool :=
  match bs with
  | [] => (r, [])
  | b :: rest =>
    let (r1, o) := scrambleBit r b
    let (r2, os) := scrambleBits r1 rest
    (r2, o :: os)

/-- A data word as a 66-bit block: the sync header of a data block, which is not scrambled, and the scrambled payload (R387, R403). -/
def dataBlock (r : BitVec 58) (w : List Byte) : BitVec 58 × List Bool :=
  let (r1, bs) := scrambleBits r (wordBits w)
  (r1, false :: true :: bs)

/-- Words as the blocks of a lane. -/
def dataBlocks (r : BitVec 58) (ws : List (List Byte)) : BitVec 58 × List Bool :=
  match ws with
  | [] => (r, [])
  | w :: rest =>
    let (r1, b) := dataBlock r w
    let (r2, bs) := dataBlocks r1 rest
    (r2, b ++ bs)

/-- Gray coding of a pair of bits to a PAM4 symbol. -/
def gray (a b : Bool) : Nat := if a then (if b then 2 else 3) else (if b then 1 else 0)

/-- Bits as PAM4 symbols. -/
def pamOf (bs : List Bool) : List Nat :=
  match bs with
  | a :: b :: rest => gray a b :: pamOf rest
  | _ => []

/-- Precoding 1/(1+D) mod 4, from the symbol sent before. -/
def precoded (last : Nat) (ss : List Nat) : List Nat :=
  match ss with
  | [] => []
  | x :: rest => let p := (x + 4 - last % 4) % 4; p :: precoded p rest

/-- Bits cut into the messages of whole RS(544,514) codewords, 514 symbols of 10 bits each, and what is left. -/
def cutMessages (fuel : Nat) (bs : List Bool) : List (List Bool) × List Bool :=
  match fuel with
  | 0 => ([], bs)
  | n + 1 =>
    if bs.length < 5140 then ([], bs)
    else let r := cutMessages n (bs.drop 5140); (bs.take 5140 :: r.1, r.2)

/-- A lane sends words: the codewords that they complete leave as PAM4 symbols (R387). -/
def sendWords (l : Nat) (ws : List (List Byte)) (s : State) : State :=
  let x := laneAt s l
  let (r, bs) := dataBlocks x.coder.scr ws
  let all := x.coder.bits ++ bs
  let (ms, rest) := cutMessages (all.length / 5140) all
  let sent := pamOf (ms.flatMap Config.rsCode)
  let out := if x.precodeOn then precoded x.coder.last sent else sent
  let s1 := updLane l (fun x => { x with coder := { scr := r, bits := rest, last := out.getLastD x.coder.last } }) s
  if out.isEmpty then s1 else emit (.symbols l out) s1

/-- The words of a Plait frame that travel on a lane of a group: word w on lane w mod W (R403). -/
def laneShare (bytes : List Byte) (width k : Nat) : List (List Byte) :=
  (List.range (1024 / width)).map fun j => slice bytes ((j * width + k) * 8) 8

/-- The group's lanes begin their codewords together: where they do not stand alike, as after a lane has trained, they begin anew
(R403; DESIGN CHOICE: log entry 190). -/
def alignCoders (ls : List Nat) (s : State) : State :=
  let n := (laneAt s (ls.headD 0)).coder.bits.length
  if ls.all fun l => (laneAt s l).coder.bits.length = n then s
  else forEach ls (fun l s => updLane l (fun x => { x with coder := { x.coder with bits := [] } }) s) s

/-- A Plait frame leaves on the lanes of a side's transmit group; a lane that is not in ACTIVE carries no data (R387, R394, R403). -/
def sendPlait (i : Nat) (bytes : List Byte) (s : State) : State :=
  let width := widthLanes (sideAt s i).txWidth
  let ls := ((List.range width).map (sideLane i)).filter fun l => (laneAt s l).st = .active
  forEach ls (fun l s => sendWords l (laneShare bytes width (laneOnSide l)) s) (alignCoders ls s)

/-- A lane's owner sends only idle content: from its exit request until two codewords have followed the training burst (R395, Table 12.4). -/
def quietLane (s : State) (l : Nat) : Bool :=
  match (laneAt s l).exitAt with
  | some t => !passed s t 124800
  | none => false

/-- The lanes of an uplink port (Table 12.1, R420). -/
def portLanes (s : State) (p : Nat) : List Nat :=
  if (mgetD s.link.uplinks (p / 4) {}).arrange = 2 then (List.range 4).map (p / 4 * 4 + ·) else [p]

end Sys2Proof.Machine
end

