-- ==== Sys2Proof/Machine/Memory.lean ====
section
/-! DEFINITION. Osier's rows, Hide's lines and counters, and the memory commands (chapter 11). -/

namespace Sys2Proof.Machine

/-! ## Osier's rows (R358, R359, R361) -/

/-- Hide's pipes serve accesses to HBM: with its key stages cleared by an alarm, every access waits until the release (R378), and while HBM is in
self-refresh until its end (Table 15.1). -/
def hbmOpen (s : State) : Bool := (admits s 2 || admits s 3) && !s.halter.refresh

/-- Osier may reach a pool's ring: pool 0's lies on the die (R357). -/
def ringOpen (s : State) (p : Nat) : Bool := p = 0 || hbmOpen s

/-- OSIER_CACHE_SPILL: a cache of 3,072 handles or more writes 1,024 handles at TAIL (R358). -/
def execOsierCacheSpill (pool : Nat) (s : State) : Res :=
  onObject (pool < 16) <| whenever (ringOpen s pool && (poolAt s pool).enable && 3072 ≤ runLen (poolAt s pool).cache) (spill pool 1024) s

/-- OSIER_CACHE_REFILL: a cache of 1,024 handles or fewer reads 1,024 handles from HEAD; the first `bad` of them are
entries whose handle does not belong to the pool, which are discarded and recorded as corrected faults (R358, R359). -/
def refillRow (p bad : Nat) (s : State) : State :=
  let (got, y) := readRing p (min bad 1024) (poolAt s p)
  let gone := runList got
  let s1 := updPool p (fun _ => { y with lost := y.lost + gone.length }) s
  refill p (1024 - min bad 1024) (forEach gone (fun h s => raise 0x09 0 0 p 0x0910 0 (wd h) s) s1)

def execOsierCacheRefill (pool bad : Nat) (s : State) : Res :=
  onObject (pool < 16) <| whenever (ringOpen s pool && (poolAt s pool).enable && runLen (poolAt s pool).cache ≤ 1024) (refillRow pool bad) s

/-- A frame holds the chain that a pool and a handle name: its first list cell where it has list cells, else its first data cell (R353). -/
def isChain (p h : Nat) (f : Frame) : Bool := f.pool = p && (f.lists ++ f.cells).head? = some h

/-- The holder of a chain that gives it up: the first of the queues that hold it, else of the host receive queues. -/
def queueHolder (s : State) (p h : Nat) : Option NodeId :=
  (s.tm.queues.find? fun e => e.2.held.any fun x => isChain p h x.frame).map Prod.fst
def hostHolder (s : State) (p h : Nat) : Option Nat :=
  (s.host.hrq.find? fun e => e.2.waiting.any fun x => isChain p h x.1).map Prod.fst

/-- The copy that the holder of a chain gives up. -/
def heldChain (s : State) (p h : Nat) : Option Frame :=
  match queueHolder s p h, hostHolder s p h with
  | some q, _ => ((queueAt s q).held.find? fun x => isChain p h x.frame).map Held.frame
  | none, some q => ((hrqAt s q).waiting.find? fun x => isChain p h x.1).map Prod.fst
  | none, none => none

/-- The holder of a chain without that copy; every other holder keeps its own. -/
def withoutChain (p h : Nat) (s : State) : State :=
  match queueHolder s p h, hostHolder s p h with
  | some q, _ => settleQueue q (updQueue q (fun x => { x with held := x.held.eraseP fun y => isChain p h y.frame }) s)
  | none, some q => updHrq q (fun x => { x with waiting := x.waiting.eraseP fun y => isChain p h y.1 }) s
  | none, none => s

/-- CELL_FREE: a holder's FREE or RELEASE of a chain named by its handle. It is refused for a FREE of a chain with
an owner record, a RELEASE of one without, and for a handle that is not allocated (R361). -/
def cellFree (p h : Nat) (isRelease : Bool) (s : State) : State :=
  match heldChain s p h with
  | none => refuseFree p h s
  | some f =>
    if isRelease ≠ (p = 0 && mhas s.mem.owners h) then refuseFree p h s
    else release f.world p (f.cells ++ f.lists) (withoutChain p h s)

def execCellFree (pool handle : Nat) (isRelease : Bool) (s : State) : Res :=
  onObject (pool < 16) (cellFree pool handle isRelease s)

/-! ## Counter blocks and the tree (R366 to R371) -/

/-- The key of a counter node: level 1 to 4 and index. -/
def nodeKey (level idx : Nat) : Nat := level * 2 ^ 23 + idx

/-- The nodes of a level in the subtree of a node of level `top`, and of all levels below it (Table 11.9). -/
def nodesAt (top level : Nat) : Nat := 64 ^ (top - level)

/-- The nodes of the levels 1 to `n` in the subtree of a node of level `top`. -/
def nodesTo (top n : Nat) : Nat :=
  match n with
  | 0 => 0
  | k + 1 => nodesTo top k + nodesAt top (k + 1)

/-- A node lies in the subtree of another, each by level 1 to 4 and index. -/
def under (level idx top tidx : Nat) : Bool := level ≤ top && idx / nodesAt top level = tidx

/-- A counter node. One that a re-initialised subtree holds and that nothing has written since has the MAJOR it was
written with: one for each page and node, in rising order from level 1 (R371). -/
def nodeAt (s : State) (level idx : Nat) : Counters :=
  match mget s.mem.tree (nodeKey level idx) with
  | some c => c
  | none =>
    match s.mem.renewed.find? (fun x => under level idx x.level x.index) with
    | some x => { major := x.base + nodesTo x.level (level - 1) + (idx - x.index * nodesAt x.level level) }
    | none => {}

/-- Raise one minor counter of a node by 1; at 127 MAJOR rises and every minor is 0 (R367). -/
def raiseMinor (c : Counters) (i : Nat) : Counters × Bool :=
  if mgetD c.minors i 0 = 127 then ({ major := c.major + 1, minors := [] }, true)
  else ({ c with minors := mset c.minors i (mgetD c.minors i 0 + 1) }, false)

/-- A node as HBM holds it: a dirty node stands there as it was last written (R369). -/
def storedNode (s : State) (level idx : Nat) : Counters :=
  (mget s.mem.stored (nodeKey level idx)).getD (nodeAt s level idx)

/-- Write a counter node in the cache, which becomes dirty (R369). -/
def setNode (level idx : Nat) (c : Counters) (s : State) : State :=
  let k := nodeKey level idx
  { s with mem := { s.mem with
      tree := mset s.mem.tree k c, majorHwm := max s.mem.majorHwm c.major,
      stored := mset s.mem.stored k (storedNode s level idx),
      cached := if s.mem.cached.contains k then s.mem.cached else s.mem.cached ++ [k],
      dirty := if s.mem.dirty.contains k then s.mem.dirty else s.mem.dirty ++ [k] } }

/-- The lines of a page are read, checked and written again under its raised MAJOR, or those of a node page re-tagged; each is counted (R367,
R368). A cell known to have a failed line fails its check again (DESIGN CHOICE: log entry 189). -/
def rewritePage (level idx : Nat) (s : State) : State :=
  let s1 := bump cPageReencrypt 0 0 s
  if level ≠ 1 then s1
  else forEach (s.mem.bad.filter fun h => h / 32 = idx) (fun _ s => hideCondition (bump cCheckFail 0 0 s))
    (countEvent 0x49 0x101 0x0100 63 (countEvent 0x49 0x100 0x0100 64 s1))

/-- An entry of a counter node rises (R367, R369). -/
def raiseEntry (level idx i : Nat) (s : State) : State :=
  let (c, again) := raiseMinor (nodeAt s level idx) i
  whenever again (rewritePage level idx) (setNode level idx c s)

/-- A dirty node is written back: the parent's entry for it rises, or the root register for an L4 node (R368, R369). -/
def writeBack (level idx : Nat) (s : State) : State :=
  let k := nodeKey level idx
  let s1 := { s with mem := { s.mem with dirty := s.mem.dirty.filter (· ≠ k), stored := mdel s.mem.stored k } }
  if !s.mem.dirty.contains k then s
  else if level = 4 then { s1 with mem := { s1.mem with roots := mupd s1.mem.roots idx 0 (· + 1) } }
  else raiseEntry (level + 1) (idx / 64) (idx % 64) s1

/-- A cached node leaves the cache, written back where it is dirty (R369). -/
def evict (level idx : Nat) (s : State) : State :=
  let s1 := writeBack level idx s
  { s1 with mem := { s1.mem with cached := s1.mem.cached.filter (· ≠ nodeKey level idx) } }

/-- The counter cache holds at most 32,768 nodes: further ones are evicted. Which ones is open (a free value). Each eviction may bring one node
of the next level in, so four for each node suffice (R369). -/
def trimCache (fuel : Nat) (s : State) : State :=
  match fuel with
  | 0 => s
  | n + 1 =>
    if s.mem.cached.length ≤ 32768 then s
    else
      let k := s.mem.cached.getD (Config.freeNat s.free % s.mem.cached.length) 0
      trimCache n (evict (k / 2 ^ 23) (k % 2 ^ 23) (takeFree s))
def keepCounters (s : State) : State := trimCache (4 * s.mem.cached.length) s

/-- A whole-line write of the protected region raises the line's minor counter; at 127 the page is re-encrypted under
a raised MAJOR (R367). -/
def lineWritten (addr : Nat) (s : State) : State := keepCounters (raiseEntry 1 (addr / 4096) (addr / 64 % 64) s)

/-- The nodes that a miss fetches: from a page's L1 node up to the first that is cached (R369). -/
def missing (s : State) (level idx fuel : Nat) : List Nat :=
  match fuel with
  | 0 => []
  | n + 1 =>
    if s.mem.cached.contains (nodeKey level idx) then []
    else nodeKey level idx :: missing s (level + 1) (idx / 64) n

/-- The line reads and writes and the counter cache misses of the memory island (Table 17.6). A node that is not cached is
read, its parents first, and is cached (R369). -/
def lineEvents (page writes reads : Nat) (s : State) : State :=
  let ks := missing s 1 page 4
  let s1 := countEvent 0x49 0x102 0x0100 ks.length
    (countEvent 0x49 0x101 0x0100 writes (countEvent 0x49 0x100 0x0100 reads s))
  keepCounters { s1 with mem := { s1.mem with cached := s1.mem.cached ++ ks } }

/-- Write the 128 bytes of a cell: two whole lines (R352, R379). -/
def writeCell (h : Nat) (bs : List Byte) (s : State) : State :=
  let a := h * 128
  let full := (bs ++ List.replicate 128 0).take 128
  lineWritten (a + 64) (lineWritten a
    (lineEvents (a / 4096) 2 0 { s with mem := { s.mem with cells := memWriteN s.mem.cells a full } }))

/-- The nodes of a level (Table 11.9). -/
def levelNodes (level : Nat) : Nat :=
  match level with
  | 1 => 8388608 | 2 => 131072 | 3 => 2048 | 4 => 32 | _ => 0

/-- COUNTER_CACHE_EVICT (R368, R369). -/
def execCounterCacheEvict (level index : Nat) (s : State) : Res :=
  onObject (index < levelNodes level) <|
    whenever (hbmOpen s && s.mem.cached.contains (nodeKey level index)) (fun s => keepCounters (evict level index s)) s

/-! ## Errors (R375) -/

/-- An access to a poisoned subtree is counted and raises no further condition (R375). -/
def poisonHit (s : State) : State :=
  { s with mem := { s.mem with poisonAccess := satAdd 0xFFFF s.mem.poisonAccess 1 } }

/-- A node, level 0 for L1 to 3 for L4, lies in a poisoned subtree or region (R375). -/
def poisonedNode (s : State) (level idx : Nat) : Bool :=
  s.mem.regionPoison.contains (idx * nodeCells level / regionCells) ||
    s.mem.poison.any fun x => level ≤ x.level && idx * nodeCells level / nodeCells x.level = x.index

/-- Poison a subtree: the list takes it, or the whole region where the list is full; it raises a HIDE condition once
(R375). `level` is 0 for L1 to 3 for L4. -/
def poisonNode (level idx : Nat) (s : State) : State :=
  if poisonedNode s level idx then poisonHit s
  else
    let s1 := { s with mem := { s.mem with treePoison := satAdd 0xFFFF s.mem.treePoison 1 } }
    let region := idx * nodeCells level / regionCells
    if 64 ≤ s.mem.poison.length then
      hideCondition { s1 with mem := { s1.mem with regionPoison := s1.mem.regionPoison ++ [region] } }
    else hideCondition { s1 with mem := { s1.mem with poison := s1.mem.poison ++ [⟨level, idx⟩] } }

/-- Poison a whole region (R375, root register parity error). -/
def poisonRegion (r : Nat) (s : State) : State :=
  if s.mem.regionPoison.contains r then poisonHit s
  else hideCondition { s with mem := { s.mem with treePoison := satAdd 0xFFFF s.mem.treePoison 1,
                                                   regionPoison := s.mem.regionPoison ++ [r] } }

/-- The area of an address (Table 11.1). -/
def areaOf (a : Nat) : Area :=
  if a < 0x800000000 then .guarded
  else if a < 0x820000000 then .counters 1
  else if a < 0x820800000 then .counters 2
  else if a < 0x820820000 then .counters 3
  else if a < 0x820820800 then .counters 4
  else if 0x840000000 ≤ a && a < 0x880000000 then .rings
  else .none

/-- The first address of a counter level. -/
def levelBase (level : Nat) : Nat :=
  match level with
  | 1 => 0x800000000 | 2 => 0x820000000 | 3 => 0x820800000 | _ => 0x820820000

/-- The HBM pool whose ring holds an address of the ring region (R357). -/
def ringPool (s : State) (a : Nat) : Option Nat :=
  let r := (a - 0x840000000) / 0x2000000
  (List.range 16).find? fun p => 1 ≤ p && (poolAt s p).enable && (poolAt s p).first ≤ r && r < (poolAt s p).first + (poolAt s p).regions

/-- The line of a pool's ring at an address of the ring region (R357). -/
def ringLineOf (x : Pool) (a : Nat) : Nat := (a - (0x840000000 + x.first * 0x2000000)) / 64

/-- The pass that Osier supplies with an access to its ring: of HEAD for a read, and of TAIL for a write (R370). -/
def suppliedPass (p : Nat) (x : Pool) (write : Bool) : Nat := passOf p x (if write then x.tail else x.head)

/-- The pass under which a line of a ring stands: that of the count which its first entry occupies; 0 where nothing has written it
since HBM was initialised (R370, R372). -/
def linePass (p : Nat) (x : Pool) (line : Nat) : Nat :=
  match lastCount p x (line * 16) with
  | some c => passOf p x c
  | none => 0

/-- The ring counts of the free handles in a line of a ring. -/
def lineCounts (p : Nat) (x : Pool) (line : Nat) : List Nat :=
  (List.range 16).filterMap fun i =>
    (lastCount p x (line * 16 + i)).bind fun c => if x.head ≤ c && !x.gone.contains c then some c else none

/-- A ring line that fails its check loses the handles in it (R359). -/
def ringLineLost (p line : Nat) (s : State) : State :=
  let cs := lineCounts p (poolAt s p) line
  raise 0x09 0 0 p 0x0911 1 (wd p) (updPool p (fun x => { x with gone := x.gone ++ cs, lost := x.lost + cs.length }) s)

/-- A ring line fails its tag: its check says so, or it was written in another pass than Osier supplies (R370). -/
def ringFails (pass : Nat) (check : LineCheck) : Bool :=
  match check with
  | .mismatch => true
  | .replayed written => written ≠ pass
  | _ => false

/-- Osier's access to a line of a ring, under the pass of its HEAD or TAIL (R359, R370). -/
def ringAccess (p a : Nat) (write : Bool) (check : LineCheck) (s : State) : State :=
  let x := poolAt s p
  if ringFails (suppliedPass p x write) check then ringLineLost p (ringLineOf x a) (hideCondition (bump cCheckFail 0 0 s))
  else emit (.line a (some (if write then [] else ringLine p x (ringLineOf x a))))
    (if check = .symbol then bump cCorrected 0 0 s else s)

/-- The fixed rights of the engines: the traffic manager (0) the cells of enabled pools, Osier (1) the rings of enabled
pools, and Hide (2) the counter store (Table 11.12). -/
def engineMay (s : State) (engine addr : Nat) : Bool :=
  match engine, areaOf addr with
  | 0, .guarded => (List.range 16).any fun p => 1 ≤ p && (poolAt s p).enable && inPool (poolAt s p) (addr / 128)
  | 1, .rings => (ringPool s addr).isSome
  | 2, .counters _ => true
  | _, _ => false

/-- An engine's access outside its rights ends in a bus error, which is counted and is a unit-fatal error of the engine:
the enqueue unit of the traffic manager, Osier or Hide (R351, R380). -/
def engineBusError (engine addr : Nat) (s : State) : State :=
  emit (.line addr none) (raise (if engine = 0 then 0x06 else 0x09) (if engine = 2 then 1 else 0) 0 0 0x0913 2
    (wd (addr / 64)) (bump cRightsRefused 0 0 s))

/-- What Hide makes of an access to a line of the protected region by what it finds: whether the access goes on, and the state (R375). -/
def cellFound (a : Nat) (check : LineCheck) (s : State) : Bool × State :=
  let cell := a / 128
  if poisonedCell s cell then (false, poisonHit s)
  else match check with
  | .mismatch => (false, hideCondition (bump cCheckFail 0 0
      { s with mem := { s.mem with bad := if s.mem.bad.contains cell then s.mem.bad else s.mem.bad ++ [cell] } }))
  | .node level => (false, poisonNode (level - 1) (cell / nodeCells (level - 1)) s)
  | .root => (false, poisonRegion (cell / regionCells) s)
  | .symbol => (true, bump cCorrected 0 0 s)
  | _ => (true, s)

/-- The same for a node of the counter store, level 1 to 4 (R375). -/
def nodeFound (level idx : Nat) (check : LineCheck) (s : State) : Bool × State :=
  if poisonedNode s (level - 1) idx then (false, poisonHit s)
  else match check with
  | .good => (true, s)
  | .symbol => (true, bump cCorrected 0 0 s)
  | .root => (false, poisonRegion (idx * nodeCells (level - 1) / regionCells) s)
  | _ => (false, poisonNode (level - 1) idx s)

/-- An engine's access stands: within the rights of Table 11.12, or Hide's reading of a line that the sweep of a key change is about to write
under the new key with its counters unchanged (R374). -/
def accessMay (s : State) (engine a : Nat) (write : Bool) : Bool :=
  engineMay s engine a || (engine = 2 && !write && s.mem.retiring.isSome && areaOf a ≠ .none)

/-- An access to a line by an engine, with what its check finds (R365, R375). A write stores 64 bytes. -/
def lineAccess (engine addr : Nat) (write : Bool) (data : List Byte) (check : LineCheck) (s : State) : State :=
  let a := addr / 64 * 64
  if !accessMay s engine a write then engineBusError engine a s
  else match areaOf a with
  | .none => s
  | .rings =>
    match ringPool s a with
    | some p => ringAccess p a write check s
    | none => s
  | .counters level =>
    let (ok, s1) := nodeFound level ((a - levelBase level) / 64) check s
    emit (.line a (if ok then some [] else none)) s1
  | .guarded =>
    match cellFound a check s with
    | (false, s1) => emit (.line a none) s1
    | (true, s1) =>
      let s2 := lineEvents (a / 4096) (b2n write) (b2n (!write)) s1
      if write then lineWritten a { s2 with mem := { s2.mem with cells := memWriteN s2.mem.cells a data } }
      else emit (.line a (some (memReadN s2.mem.cells a 64))) s2

/-- HIDE_LINE_ACCESS: an engine's access to a line, whole where it writes (R379). With Hide's key stages cleared it waits until the release (R378). -/
def execHideLineAccess (engine addr : Nat) (write : Bool) (data : List Byte) (check : LineCheck) (s : State) : Res :=
  onObject (engine < 3 && (!write || data.length = 64)) <| whenever (hbmOpen s) (lineAccess engine addr write data check) s

/-- COUNTER_PATROL: Hide reads every node of the counter store (R369). `failing` are the nodes that fail, by level 1 to
4 and index, and `corrected` the symbols corrected. The patrol waits as every access does (R378). -/
def execCounterPatrol (corrected : Nat) (failing : List (Nat × Nat)) (s : State) : Res :=
  onObject (failing.all fun f => f.2 < levelNodes f.1) <|
    whenever (hbmOpen s) (fun s => forEach failing (fun f s => poisonNode (f.1 - 1) f.2 s) (bumpBy { cid := cCorrected } corrected s)) s

/-! ## Frames in HBM (R353, R356, R376) -/

/-- The list cells of an HBM frame (R353). -/
def listCells (len : Nat) : Nat := if len ≤ 128 then 0 else ceilDiv (dataCells len) 31

/-- The words of the list cells of a frame (Table 11.2). -/
def listCellBytes (entries next : List Nat) (last : Bool) : List Byte :=
  bytesOfWords ((entries ++ List.replicate 31 0).take 31 |>.map wd)
    ++ bytesOfWords [pack [(b2n last, 1, 31), (if last then 0 else next.headD 0, 28, 0)]]

/-- Write the list cells of a frame in order. -/
def writeLists (lists data : List Nat) (s : State) : State :=
  match lists with
  | [] => s
  | h :: r => writeLists r (data.drop 31) (writeCell h (listCellBytes (data.take 31) r r.isEmpty) s)

/-- Write a frame's bytes into its data cells in order. -/
def writeData (cells : List Nat) (bs : List Byte) (s : State) : State :=
  match cells with
  | [] => s
  | h :: r => writeData r (bs.drop 128) (writeCell h (bs.take 128) s)

/-- The pool that serves a world's HBM frames (R356). -/
def hbmPool (s : State) (world : Nat) : Option Nat :=
  let serves (w p : Nat) : Bool := 1 ≤ p && (poolAt s p).enable && (poolAt s p).world = w
  match (List.range 16).find? (serves world) with
  | some p => some p
  | none => (List.range 16).find? (serves 0x0100)

/-- A frame's bytes, read from its cells where it lies in HBM. -/
def frameBytes (s : State) (f : Frame) : List Byte :=
  if f.pool = 0 then f.bytes else (f.cells.flatMap fun h => memReadN s.mem.cells (h * 128) 128).take f.len

/-- The line reads of a frame that leaves HBM: its data and list cells, each two lines (Table 17.6). -/
def hbmReads (f : Frame) (s : State) : State :=
  if f.pool = 0 then s else forEach (f.cells ++ f.lists) (fun h s => lineEvents (h * 128 / 4096) 0 2 s) s

/-- A frame held in HBM meets a bus error: a cell of it failed or lies in a poisoned subtree (R376). -/
def frameLost (s : State) (f : Frame) : Bool := f.pool ≠ 0 && (f.cells ++ f.lists).any (withdraws s)

/-- The egress's access to a frame that lies under a poisoned subtree is counted (R375). -/
def poisonMet (f : Frame) (s : State) : State := whenever ((f.cells ++ f.lists).any (poisonedCell s)) poisonHit s

/-- Drop the queued frames that a test picks, counting them (R372, R377). -/
def dropHeld (pick : Frame → Bool) (counter : Nat) (s : State) : State :=
  forEach s.tm.queues (fun e s =>
    let gone := e.2.held.filter fun h => pick h.frame
    if gone.isEmpty then s
    else
      let s1 := forEach gone (fun h s => bumpW counter 3 (queueIdx e.1) h.frame.world (freeFrame h.frame s)) s
      let q := { e.2 with held := e.2.held.filter (fun h => !pick h.frame), drop := e.2.drop + gone.length }
      settleQueue e.1 { s1 with tm := { s1.tm with queues := mset s1.tm.queues e.1 q } }) s

/-! ## Initialisation (R372) and the Hide key (R373, R374) -/

/-- The slot of a Hide key identifier (R373). -/
def hideSlot (i : Nat) : Nat := 0x20100 + i

/-- The attributes of a Hide key (R373). -/
def hideAttr : Attr := { world := 0x0200, life := 63, masters := 32, usage := 3 }

/-- The secure island generates a Hide key into its slot (R373). -/
def newHideKey (i : Nat) (s : State) : State := takeFree (writeKey (hideSlot i) hideAttr 1 (Config.drbg s.free) true s)

/-- Runs of handles without those of one run. -/
def cutRun (c : Nat × Nat) (rs : List (Nat × Nat)) : List (Nat × Nat) :=
  rs.flatMap fun r =>
    [(r.1, min c.1 (r.1 + r.2) - r.1), (max r.1 (c.1 + c.2), r.1 + r.2 - max r.1 (c.1 + c.2))].filter fun x => x.2 ≠ 0

/-- The cells under poisoned subtrees and in poisoned regions, as runs (R375). -/
def poisonRuns (s : State) : List (Nat × Nat) :=
  s.mem.regionPoison.map (fun r => (r * regionCells, regionCells))
    ++ s.mem.poison.map fun x => (x.index * nodeCells x.level, nodeCells x.level)

/-- The handles of a run that a pool holds. -/
def runIn (x : Pool) (r : Nat × Nat) : List Nat :=
  let lo := max r.1 (x.first * regionCells)
  (List.range (min (r.1 + r.2) ((x.first + x.regions) * regionCells) - lo)).map (lo + ·)

/-- The handles of a pool that Osier withdraws as it meets them at a rebuild: those already withdrawn, and those that lie under a poisoned
subtree (R358, R362, R375). -/
def withdrawnOf (bad : List (Nat × Nat)) (x : Pool) : List Nat :=
  x.withdrawn ++ ((bad.flatMap (runIn x)).filter fun h => !x.withdrawn.contains h).eraseDups

/-- A ring rebuilt with every handle of the pool in rising order but those withdrawn, among them those of the runs in `bad` (R358). HEAD and
TAIL only rise (R357), so the rebuilt ring begins at the first count, not below TAIL, that a whole number of passes comes before (DESIGN
CHOICE: log entry 165). -/
def rebuild (bad : List (Nat × Nat)) (x : Pool) : Pool :=
  let n := x.regions * regionCells
  let start := ceilDiv x.tail n * n
  let out := withdrawnOf bad x
  { x with head := start, tail := start + (n - (out.filter (inPool x)).length), cache := [], spent := [],
           allocated := 0, lost := 0, gone := [], withdrawn := out,
           ring := out.foldl (fun acc h => cutRun (h, 1) acc) [(x.first * regionCells, n)] }

/-- HIDE_INIT: a working key with identifier 0, root registers and MAJOR_HWM 0, every line zero, every ring rebuilt;
frames in HBM are dropped in DROP_POISON (R372). -/
def hideInit (s : State) : State :=
  let s1 := dropHeld (fun f => f.pool ≠ 0) cDropPoison s
  let s2 := newHideKey 0 s1
  { s2 with mem := { s2.mem with
      cells := [], keyId := 0, retiring := none, sweep := 0, majorHwm := 0, roots := [], tree := [], renewed := [], cached := [], dirty := [],
      stored := [], poison := [], regionPoison := [], bad := [], initialised := true, lost := false, hbm := [],
      pools := (List.range 16).map fun p => (p, if p = 0 then poolAt s2 0 else
        if (poolAt s2 p).enable then rebuild [] (poolAt s2 p) else poolAt s2 p) } }

/-- HIDE_INIT happens at boot and after an alarm of class 2 or above (R372, R378). -/
def execHideInit (s : State) : Res := .next (whenever (!s.mem.initialised) hideInit s)

/-- HIDE_KEY_CHANGE, steps 1 and 2 (R374). The new key's write is a slot operation and waits its turn (R319). -/
def runHideKeyChange (c : Ctx) (s : State) : HRes :=
  refuseIf (s.halter.stage = .halter) .notPermitted [] <|
  refuseIf s.mem.retiring.isSome .noSpace [] <|
  if opsWait s then waitSlot c s else
  let i := (s.mem.keyId + 1) % 256
  let s1 := newHideKey i s
  .wait { s1 with mem := { s1.mem with keyId := i, retiring := some s.mem.keyId, sweep := 0 } } [i]

def opHideKeyChange : OpSpec :=
  { code := 0x7003, home := (0x09, 1), oWorld := true, len := exactly 0, run := runHideKeyChange }

/-- Every dirty node of a level is written back. -/
def flushLevel (s : State) (level : Nat) : State :=
  forEach (s.mem.dirty.filter fun k => k / 2 ^ 23 = level) (fun k s => writeBack level (k % 2 ^ 23) s) s

/-- The flush writes back every dirty node, level by level: what a level's nodes raise stands in the next (R374, step 3). -/
def flushTree (s : State) : State := keepCounters ([1, 2, 3, 4].foldl flushLevel s)

/-- HIDE_SWEEP_COMPLETE: the flush writes back every dirty node, the retiring register clears and the old slot is
erased (R374, steps 3 and 4). -/
def sweepDone (s : State) : State :=
  match s.mem.retiring with
  | none => s
  | some old =>
    let s2 := flushTree s
    eraseSlot (hideSlot old) false { s2 with mem := { s2.mem with retiring := none, sweep := 0 } }

/-! ## Commands -/

/-- The withdrawn cells in a pool's new regions that other pools still list pass to it (R358, R362). -/
def claimWithdrawn (p : Nat) (y : Pool) (s : State) : State :=
  let found := s.mem.pools.flatMap fun e => if e.1 = p then [] else e.2.withdrawn.filter (inPool y)
  updPool p (fun x => { x with withdrawn := x.withdrawn ++ found })
    { s with mem := { s.mem with pools := mmap s.mem.pools fun k x =>
        if k = p then x else { x with withdrawn := x.withdrawn.filter fun h => !inPool y h } } }

/-- A pool as POOL_CONFIG leaves it: its parameters, and its ring rebuilt with every cell free (R354, R355). -/
def setPool (p : Nat) (en : Bool) (world first regs : Nat) (s : State) : State :=
  let s1 := if en then claimWithdrawn p { first := first, regions := regs } s else s
  updPool p (fun x => rebuild (poisonRuns s) { x with enable := en, world := world, first := first, regions := regs }) s1

/-- POOL_CONFIG (R354, R355). -/
def runPoolConfig (c : Ctx) (s : State) : HRes :=
  refuseIf (s.halter.stage = .halter) .notPermitted [] <|
  let p := fld (c.w 0) 19 16
  let en := bit (c.w 0) 31
  let world := fld (c.w 0) 15 0
  let first := fld (c.w 1) 12 8
  let regs := fld (c.w 1) 5 0
  let x := poolAt s p
  let others (t : Pool → Bool) : Bool := (List.range 16).any fun q => 1 ≤ q && q ≠ p && (poolAt s q).enable && t (poolAt s q)
  let covers (r : Right) : Bool := 2 ≤ r.mode && r.pages ≠ 0 &&
    r.base / 262144 < first + regs && first ≤ (r.base + r.pages - 1) / 262144
  refuseIf (p = 0) .badParam [0] <|
  refuseIf (!worldCode world) .badParam [0] <|
  refuseIf (regs = 0 || 32 < regs || 32 < first + regs) .badParam [1] <|
  refuseIf (others fun q => q.first < first + regs && first < q.first + q.regions) .badParam [1] <|
  refuseIf (others fun q => q.world = world) .exists [] <|
  refuseIf (x.enable && 0 < x.allocated) .notPermitted [] <|
  refuseIf (s.mem.rights.any fun e => covers e.2) .notPermitted [] <|
  .done (setPool p en world first regs s) [wd (regs * regionCells)]

def opPoolConfig : OpSpec :=
  { code := 0x7001, home := (0x09, 0), oWorld := true, len := exactly 2, rsv := masks [0x7FF00000#32, 0xFFFFE0C0#32],
    stage := .stageable, objs := fun ws => [(0x7001, fld (nthW ws 0) 19 16)], run := runPoolConfig }

/-- The two words of a 48-bit count. -/
def count48 (n : Nat) : List Word := [lo32 n, wd (n / 2 ^ 32 % 65536)]

/-- The sum of a named counter over worlds at a place. -/
def countOver (s : State) (c scope idx : Nat) : Nat :=
  (s.ctr.named.foldl (fun a e => if e.1.cid = c && e.1.scope = scope && e.1.idx = idx then a + e.2 else a) 0) % 2 ^ 48

/-- POOL_STATS (R363). -/
def runPoolStats (c : Ctx) (s : State) : HRes :=
  let p := fld (c.w 0) 3 0
  let x := poolAt s p
  refuseIf (c.world ≠ 0x0100 && x.world ≠ c.world) .badWorld [] <|
  .done s ([wd (freeCells x), wd (runLen x.cache), wd (x.withdrawn.filter (inPool x)).length, wd s.mem.owners.length]
    ++ count48 (countOver s cRefusedFrees 6 p) ++ count48 (countOver s cDropPool 6 p))

def opPoolStats : OpSpec :=
  { code := 0x7002, vf := true, home := (0x09, 0), writes := false, len := exactly 1, rsv := masks [0xFFFFFFF0#32],
    run := runPoolStats }

/-- A region holds a poisoned subtree or withdrawn cells. -/
def regionAffected (s : State) (r : Nat) : Bool :=
  s.mem.regionPoison.contains r || (s.mem.poison.any fun x => x.index * nodeCells x.level / regionCells = r)
    || s.mem.pools.any fun e => e.2.withdrawn.any fun h => h / regionCells = r

/-- A word with bit r set for each region that passes a test. -/
def regionMask (t : Nat → Bool) : Word := wd ((List.range 32).foldl (fun a r => if t r then a + 2 ^ r else a) 0)

/-- The poison list as HIDE_STATUS writes it (R384). -/
def poisonWords (s : State) : List Word :=
  ((s.mem.poison.map fun (x : Poison) => pack [(x.level, 2, 30), (1, 1, 29), (x.index, 23, 0)]) ++ List.replicate 64 0).take 64

/-- The sweep pointer as it now stands. R374 fixes only its order and its end, so while a key changes it is a free value that never
falls (log entry 166). -/
def sweepOn (s : State) : State :=
  if s.mem.retiring.isSome then
    takeFree { s with mem := { s.mem with sweep := max s.mem.sweep (Config.freeNat s.free % (0x880000000 / 64 + 1)) } }
  else s

/-- HIDE_STATUS (R384). -/
def runHideStatus (c : Ctx) (s0 : State) : HRes :=
  let s := sweepOn s0
  let m := s.mem
  let ws := [pack [(m.keyId, 8, 24), (m.retiring.getD 0, 8, 16), (b2n m.retiring.isSome, 1, 8), (m.poison.length, 8, 0)],
      wd m.sweep, regionMask m.regionPoison.contains, regionMask (regionAffected s)]
    ++ count48 (countOver s cCorrected 0 0) ++ count48 (countOver s cCheckFail 0 0)
    ++ count48 (countOver s cPageReencrypt 0 0) ++ count48 (countOver s cRightsRefused 0 0)
    ++ [pack [(m.treePoison, 16, 16), (m.poisonAccess, 16, 0)]]
  if c.hasBuf then .doneBuf s ws (bytesOfWords (poisonWords s)) else .done s ws

def opHideStatus : OpSpec :=
  { code := 0x7004, home := (0x09, 1), writes := false, oWorld := true, len := exactly 0, run := runHideStatus }

/-- The subtrees of a region that REGION_REINIT writes afresh, by top node: the whole region, or its poisoned ones (R377). -/
def subtrees (s : State) (r : Nat) : List (Nat × Nat) :=
  if s.mem.regionPoison.contains r then [(4, r)]
  else (s.mem.poison.filter fun x => x.index * nodeCells x.level / regionCells = r).map fun x => (x.level + 1, x.index)

/-- A cell lies in the subtree of a node, level 1 to 4. -/
def cellUnder (h : Nat) (t : Nat × Nat) : Bool := h / nodeCells (t.1 - 1) = t.2

/-- Hide writes a subtree afresh: every line with zero data, and each page and node with the next MAJOR above MAJOR_HWM;
the entry of the parent, or the root register, rises (R371, R377). -/
def renew (t : Nat × Nat) (s : State) : State :=
  let inside (k : Nat) : Bool := under (k / 2 ^ 23) (k % 2 ^ 23) t.1 t.2
  let m := s.mem
  let s1 := { s with mem := { m with
    cells := m.cells.filter fun e => !cellUnder (e.1 / 128) t,
    tree := m.tree.filter fun e => !inside e.1,
    renewed := ⟨t.1, t.2, m.majorHwm + 1⟩ :: m.renewed,
    cached := m.cached.filter fun k => !inside k, dirty := m.dirty.filter fun k => !inside k,
    stored := m.stored.filter fun e => !inside e.1,
    bad := m.bad.filter fun h => !cellUnder h t,
    majorHwm := m.majorHwm + nodesTo t.1 t.1 } }
  if t.1 = 4 then { s1 with mem := { s1.mem with roots := mupd s1.mem.roots t.2 0 (· + 1) } }
  else keepCounters (raiseEntry (t.1 + 1) (t.2 / 64) (t.2 % 64) s1)

/-- A withdrawn cell outside those subtrees is written with zero data; its counters can be read, so they rise (R377). -/
def cleanCell (h : Nat) (s : State) : State :=
  let s1 := writeCell h [] s
  { s1 with mem := { s1.mem with bad := s1.mem.bad.filter (· ≠ h) } }

/-- The poison entries of a region clear and its withdrawn handles return to their rings (R377, steps 3 and 4). -/
def clearRegion (r : Nat) (s : State) : State :=
  let inR (h : Nat) : Bool := h / regionCells = r
  { s with mem := { s.mem with
      poison := s.mem.poison.filter (fun x => x.index * nodeCells x.level / regionCells ≠ r),
      regionPoison := s.mem.regionPoison.filter (· ≠ r),
      pools := mmap s.mem.pools fun _ x =>
        let back := x.withdrawn.filter fun h => inR h && inPool x h
        { x with withdrawn := x.withdrawn.filter (fun h => !inR h),
                 ring := x.ring ++ back.map (fun h => (h, 1)), tail := x.tail + back.length } } }

/-- A region re-initialised (R377): frames with a cell in its subtrees are dropped first. -/
def reinit (r : Nat) (s : State) : State :=
  let ts := subtrees s r
  let hit (h : Nat) : Bool := ts.any (cellUnder h)
  let s1 := dropHeld (fun f => f.pool ≠ 0 && (f.cells ++ f.lists).any hit) cDropPoison s
  let gone := s1.mem.pools.flatMap fun e => e.2.withdrawn.filter fun h => h / regionCells = r && !hit h
  clearRegion r (forEach gone cleanCell (forEach ts renew s1))

/-- REGION_REINIT (R377). -/
def runRegionReinit (c : Ctx) (s : State) : HRes :=
  refuseIf (s.halter.stage = .halter) .notPermitted [] <|
  let r := fld (c.w 0) 4 0
  if regionAffected s r then .done (reinit r s) [] else .done s []

def opRegionReinit : OpSpec :=
  { code := 0x7005, home := (0x09, 1), oWorld := true, len := exactly 1, rsv := masks [0xFFFFFFE0#32],
    objs := fun ws => [(0x7005, fld (nthW ws 0) 4 0)], run := runRegionReinit }

/-- A range of pages lies in regions assigned to no enabled pool (R383). -/
def pagesUnpooled (s : State) (base pages : Nat) : Bool :=
  base + pages ≤ 8388608 && (List.range 16).all fun p => p = 0 || !(poolAt s p).enable ||
    (base + pages ≤ (poolAt s p).first * 262144 || ((poolAt s p).first + (poolAt s p).regions) * 262144 ≤ base)

/-- RIGHTS_WRITE (R381, R383). -/
def runRightsWrite (c : Ctx) (s : State) : HRes :=
  let master := fld (c.w 0) 31 29
  let k := master * 16 + fld (c.w 0) 3 0
  let base := fld (c.w 1) 23 0
  let pages := fld (c.w 2) 23 0
  let mode := fld (c.w 3) 1 0
  refuseIf (1 < master) .badParam [0] <|
  refuseIf (pages ≠ 0 && 12582912 < base + pages) .notPermitted [] <|
  refuseIf (pages ≠ 0 && 2 ≤ mode && !pagesUnpooled s base pages) .notPermitted [] <|
  refuseIf (pages ≠ 0 && master = 1 && 2 ≤ mode && s.vault.life = .deployed) .notPermitted [] <|
  let rs := if pages = 0 then mdel s.mem.rights k else mset s.mem.rights k { base := base, pages := pages, mode := mode }
  .done { s with mem := { s.mem with rights := rs } } []

def opRightsWrite : OpSpec :=
  { code := 0x7006, home := (0x09, 1), oWorld := true, len := exactly 4,
    rsv := masks [0x1FFFFFF0#32, 0xFF000000#32, 0xFF000000#32, 0xFFFFFFFC#32],
    stage := .stageable,
    objs := fun ws => [(0x7006, fld (nthW ws 0) 31 29 * 16 + fld (nthW ws 0) 3 0)], run := runRightsWrite }

/-- The mode that a master holds over a page: of the entries that cover it, the highest (R381). -/
def rightOf (s : State) (master page : Nat) : Nat :=
  s.mem.rights.foldl (fun a e => if e.1 / 16 = master && e.2.base ≤ page && page < e.2.base + e.2.pages then max a e.2.mode else a) 0

/-- The area code of a line in Hide's input block (Table 11.6). -/
def areaCode (a : Nat) : Nat := match areaOf a with | .guarded => 0 | .counters _ => 1 | .rings => 2 | .none => 3

/-- The counter block of a node as 64 bytes (Table 11.8). -/
def counterBytes (c : Counters) : List Byte :=
  leBytes 64 (c.major % 2 ^ 64 + (c.minors.map fun e => e.2 % 128 * 2 ^ (64 + 7 * e.1)).foldl (· + ·) 0)

/-- The MAJOR and MINOR under which a line stands in HBM: those of its page; of a counter node those of its parent, or the root
register; of a ring line its pass and 0 (R366, R368, R370). -/
def lineCounter (s : State) (a : Nat) : Nat × Nat :=
  match areaOf a with
  | .guarded => ((nodeAt s 1 (a / 4096)).major, mgetD (nodeAt s 1 (a / 4096)).minors (a / 64 % 64) 0)
  | .counters level =>
    let i := (a - levelBase level) / 64
    if level = 4 then (mgetD s.mem.roots i 0, 0)
    else ((nodeAt s (level + 1) (i / 64)).major, mgetD (nodeAt s (level + 1) (i / 64)).minors (i % 64) 0)
  | .rings =>
    match ringPool s a with
    | some p => (linePass p (poolAt s p) (ringLineOf (poolAt s p) a), 0)
    | none => (0, 0)
  | .none => (0, 0)

/-- What a line holds before encryption: the bytes of the protected region, a counter block, or the entries of a ring. A ring line of
no enabled pool reads as zeros (DESIGN CHOICE: log entry 165). -/
def linePlain (s : State) (a : Nat) : List Byte :=
  match areaOf a with
  | .counters level => counterBytes (storedNode s level ((a - levelBase level) / 64))
  | .rings =>
    match ringPool s a with
    | some p => ringLine p (poolAt s p) (ringLineOf (poolAt s p) a)
    | none => List.replicate 64 0
  | _ => memReadN s.mem.cells a 64

/-- The key identifier under which a line stands: while a key changes, the retiring one from the sweep pointer on (R374). -/
def lineKeyId (s : State) (a : Nat) : Nat :=
  match s.mem.retiring with
  | some old => if a / 64 < s.mem.sweep then s.mem.keyId else old
  | none => s.mem.keyId

/-- The stack of HBM that holds an address, and the byte within the stack: bit 8 of the address selects the stack (R350). -/
def stackOf (a : Nat) : Nat := a / 256 % 2
def stackByte (a : Nat) : Nat := a / 512 * 256 + a % 256

/-- Hide's input block for a line (Table 11.6). -/
def hideBlock (use area line major minor : Nat) : List Byte :=
  beBytes 16 (use * 2 ^ 125 + area * 2 ^ 123 + line * 2 ^ 93 + major % 2 ^ 64 * 2 ^ 29 + minor * 2 ^ 22)

/-- AES of a block. -/
def aesBlock (key block : List Byte) : List Byte := Config.ctr key block 16

/-- The keystream of a line: the blocks of USE 0 to 3 (R364). -/
def hideStream (key : List Byte) (area line major minor : Nat) : List Byte :=
  (List.range 4).flatMap fun u => aesBlock key (hideBlock u area line major minor)

/-- A line's TAG over its stored bytes (R365). -/
def hideTag (key : List Byte) (area line major minor : Nat) (bs : List Byte) : List Byte :=
  let block := hideBlock 4 area line major minor
  xorBytes ((Config.ghash (aesBlock key (List.replicate 16 0)) block bs).drop 12) ((aesBlock key block).drop 12)

/-- The bytes that stand in HBM for a line: the ciphertext, or, in the counter store, the line itself (R365). -/
def storedBytes (key : List Byte) (area line major minor : Nat) (plain : List Byte) : List Byte :=
  if area = 1 then plain else xorBytes plain (hideStream key area line major minor)

/-- The metadata of a line, byte 0 first: CHECK_0, CHECK_1 and TAG (Table 11.7). R365 does not give the symbol code (a free value); it does
not order the bytes of a block or of the metadata: a block's byte 0 holds its bits [127:120], as AES has it, and the metadata are little-endian
(PRESUMED: log entry 189). -/
def hideMeta (tag bs : List Byte) : List Byte := (Config.symbolCode bs tag).take 4 ++ tag.reverse

/-- A line as it stands in HBM, with its metadata (R365, R382). The model keeps HBM as its plaintext and its counters, and computes from them
what the stacks hold. -/
def rawLine (s : State) (a : Nat) : List Byte :=
  let key := slotBytes s (hideSlot (lineKeyId s a))
  let (major, minor) := lineCounter s a
  let bs := storedBytes key (areaCode a) (a / 64) major minor (linePlain s a)
  bs ++ hideMeta (hideTag key (areaCode a) (a / 64) major minor bs) bs

/-- A byte of a stack: 64 of each line's 72 are data (R350). -/
def stackAddress (n k : Nat) : Nat := k / 256 * 512 + n * 256 + k % 256
def stackData (s : State) (n k : Nat) : Byte := (rawLine s (stackAddress n k / 64 * 64)).getD (k % 64) 0

/-- An access of MGMT (0) or DEBUG (1) to a byte address, and what Hide finds in the line that it serves: kind 1 a raw read of the line, 2 a
plaintext read and 3 a plaintext write of bytes within the line, a partial one by reading and checking the line, merging and writing it whole
(R375, R379, R381, R382). -/
def rightsAccess (master addr : Nat) (kind : MasterAccess) (data : List Byte) (s : State) : State :=
  let a := addr / 64 * 64
  let right := rightOf s master (addr / 4096)
  let okay := match kind.code with | 1 => right = 1 || right = 2 || right = 3 | 2 => 2 ≤ right | _ => right = 3
  if areaOf a = .none || !okay then emit (.line addr none) (bump cRightsRefused 0 0 s)
  else if kind.code = 1 then emit (.line a (some (rawLine (sweepOn s) a))) (sweepOn s)
  else match cellFound a kind.check s with
  | (false, s1) => emit (.line addr none) s1
  | (true, s1) =>
    if kind.code = 2 then
      emit (.line addr (some (memReadN s1.mem.cells addr (min data.length (a + 64 - addr))))) (lineEvents (addr / 4096) 0 1 s1)
    else
      let bs := data.take (a + 64 - addr)
      let part := if bs.length < 64 then countEvent 0x49 0x103 0x0100 1 (lineEvents (addr / 4096) 1 1 s1)
                  else lineEvents (addr / 4096) 1 0 s1
      lineWritten a { part with mem := { part.mem with cells := memWriteN part.mem.cells addr bs } }

def execDebugAccess (master addr : Nat) (kind : MasterAccess) (data : List Byte) (s : State) : Res :=
  onObject (master < 2 && 1 ≤ kind.code && kind.code ≤ 3) (whenever (hbmOpen s) (rightsAccess master addr kind data) s)

end Sys2Proof.Machine
end

