-- ==== Sys2Proof/Machine/Traffic.lean ====
section
/-! DEFINITION. The traffic manager: queues, admission, replication, Rein, gate lists and sampling, and its commands
(chapter 8). -/

namespace Sys2Proof.Machine

/-! ## Ports -/

/-- PORT_CONFIG of a port. -/
def portCfgAt (s : State) (p : Nat) : PortCfg := ((mget s.pon.ports p).map Port.cfg).getD {}

/-- A port is one of a coexistence pair: the even port is in mode 4 or 5 (R88). -/
def paired (s : State) (p : Nat) : Bool := 4 ≤ (portCfgAt s (p / 2 * 2)).mode

/-- What a port runs upstream (Tables 3.3 and 3.6): 0 nothing, 1 XGS-PON, 2 50G-PON with 25G upstream, 3 50G-PON with
50G upstream. -/
def upKind (s : State) (p : Nat) : Nat :=
  if paired s p then (if p % 2 = 1 then 1 else (portCfgAt s p).mode - 2)
  else (portCfgAt s p).mode

/-- The tree of a port: in a coexistence pair that of the even port (R12). -/
def treeOf (s : State) (p : Nat) : Nat := if paired s p then p / 2 * 2 else p

/-- A port carries 50G-PON downstream (Table 3.3). -/
def is50G (s : State) (p : Nat) : Bool := 2 ≤ upKind s p

/-! ## Counters of Table 8.9 -/

def cTm (pos : Nat) : Nat := cid 8 9 pos

/-- Count a frame at a queue and its world. -/
def bumpQ (pos : Nat) (q : NodeId) (world : Nat) (s : State) : State := bumpW (cTm pos) 3 (queueIdx q) world s

/-- A frame dropped at a queue: its DROP_FRAMES and a counter of Table 8.9. -/
def dropAt (pos : Nat) (q : NodeId) (world : Nat) (s : State) : State :=
  bumpQ pos q world (updQueue q (fun x => { x with drop := x.drop + 1 }) s)

/-! ## Lengths -/

/-- The bytes that MACsec adds at a point to a frame of a world: SecTAG and ICV (R260, R295); 0 where the point is
unsecured. -/
def txChannel (s : State) (point world : Nat) : Option (Nat × Channel) :=
  let at_ (w : Nat) := mfind s.cipher.channels fun _ (x : Channel) => x.point = point && !x.rx && x.world = w
  match at_ world with
  | some c => some c
  | none => at_ 0x0100

def secBytes (s : State) (point world : Nat) : Nat :=
  if secured s point 0 then
    match txChannel s point world with
    | some (_, c) => 24 + (if c.scTag then 8 else 0)
    | none => 0
  else 0

/-- The secured point that a frame leaves at: an uplink port, or a card's point (R286). -/
def pointOf (root : NodeId) (f : Frame) : Nat := if root.index < 16 then root.index else 16 + f.card

/-- LENGTH as scheduling counts it (R260). -/
def schedLen (s : State) (root : NodeId) (f : Frame) : Nat :=
  if root.side = 0 then f.len else f.len + secBytes s (pointOf root f) f.world

/-! ## Gate lists (R266 to R269) -/

/-- The time counter in ps. -/
def nowPs (s : State) : Nat := s.time.tc * 1000 / nsUnit

/-- The entries of a list from an offset within its cycle, in ps: what is left of the entry at the offset first. -/
def gateFrom (es : List (Nat × Nat)) (off : Nat) : List (Nat × Nat) :=
  match es with
  | [] => []
  | (m, d) :: r => if off < d then (m, d - off) :: r else gateFrom r (off - d)

/-- How long a class stays open over some entries: the sum up to the first that closes it, and whether none does. -/
def openRun (cls : Nat) (es : List (Nat × Nat)) : Nat × Bool :=
  match es with
  | [] => (0, true)
  | (m, d) :: r => if m.testBit cls then let (t, all) := openRun cls r; (d + t, all) else (0, false)

/-- How long a list keeps a class open from an instant in ps: none for ever, 0 for closed. -/
def listOpen (g : GateList) (cls t : Nat) : Option Nat :=
  let es := g.entries.map fun e => (e.1, e.2 * 1000)
  let off := (((t : Int) - g.base * 1000) % (g.cycle * 1000 : Nat)).toNat
  let (n, all) := openRun cls (gateFrom es off ++ es)
  if all then none else some n

/-- How long a target's timeline keeps a class open from an instant, a pending list governing from its S on (R268). -/
def gateOpen (x : GateSt) (cls t : Nat) : Option Nat :=
  let now := match x.active with | some g => listOpen g cls t | none => none
  match x.pending with
  | none => now
  | some (g, start) =>
    let at_ := start * 1000
    if at_ ≤ t then listOpen g cls t
    else match now with
    | some n => if t + n < at_ then some n else (listOpen g cls at_).map fun m => at_ - t + m
    | none => (listOpen g cls at_).map fun m => at_ - t + m

/-- The longest open interval of a class in a list, in ps; none for ever. -/
def longestOpen (g : GateList) (cls : Nat) : Option Nat :=
  let starts := (List.range g.entries.length).map fun i => ((g.entries.take i).map Prod.snd).foldl (· + ·) 0
  if g.entries.all fun e => e.1.testBit cls then none
  else some ((starts.map fun o => (listOpen g cls ((g.base + o) * 1000)).getD 0).foldl max 0)

/-- A target's gate state, by KIND * 64 + INDEX. -/
def gateAt (s : State) (k : Nat) : GateSt := mgetD s.tm.gates k {}

/-- The gates of a port or egress: none on the fabric side (R269). -/
def gateKey (s : State) (root : NodeId) : Option Nat :=
  if root.side = 0 then some (64 + treeOf s root.index) else if root.index < 16 then some root.index else none

/-- The PON frame boundaries in (t, t + d], in ps: the multiples of 125 µs of the counter without its steps, which do not move PON frames
(R268, R426). -/
def boundaries (s : State) (t d : Nat) : Nat :=
  let u : Int := (t : Int) - s.time.stepped * 1000 / (nsUnit : Int)
  ((u + d) / 125000000 - u / 125000000).toNat

/-- The transmit time of a frame in ps, begun at an instant (R268). -/
def txTime (s : State) (root : NodeId) (len t : Nat) : Nat :=
  if root.side = 1 then
    if uplinkRate s root.index = 0 then 0 else ceilDiv ((len + 20) * 8 * 10000) (uplinkRate s root.index)
  else
    let (d0, per) := if is50G s root.index then (ceilDiv ((len + 8) * 8 * 10000000) 420250, 1000000)
                     else (ceilDiv ((len + 8) * 8 * 100000000) 866899, 4600000)
    let d1 := d0 + per * boundaries s t d0
    d0 + per * boundaries s t d1

/-- The instant at which a frame of a root would begin: after the frames already chosen (R268). -/
def startAt (s : State) (root : NodeId) : Nat := nowPs s + (mgetD s.tm.busy root 0 - s.mono)

/-- The head frame of a queue fits into the open interval of its class (R268). -/
def gateFits (s : State) (root q : NodeId) (f : Frame) : Bool :=
  match gateKey s root with
  | none => true
  | some k =>
    let t := startAt s root
    match gateOpen (gateAt s k) (queueAt s q).gateClass t with
    | none => true
    | some n => txTime s root (schedLen s root f) t ≤ n

/-- A frame longer than any open interval of its class, in the active list and in a pending one (R269). -/
def oversize (s : State) (root q : NodeId) (f : Frame) : Bool :=
  match gateKey s root with
  | none => false
  | some k =>
    let d := txTime s root (schedLen s root f) (startAt s root)
    let cls := (queueAt s q).gateClass
    let beyond (g : Option GateList) : Bool :=
      match g with | none => false | some g => (match longestOpen g cls with | none => false | some n => n < d)
    match (gateAt s k).pending with
    | none => beyond (gateAt s k).active
    | some (g, start) => beyond (some g) && (start * 1000 ≤ startAt s root || beyond (gateAt s k).active)

/-! ## Admission (R252 to R258) -/

/-- The cells of the frames that a queue holds. -/
def depthCells (q : Queue) : Nat := (q.held.map fun h => dataCells h.frame.len).foldl (· + ·) 0

/-- A drop profile and a world quota. -/
def profileAt (s : State) (n : Nat) : Profile := mgetD s.tm.profiles n {}
def quotaAt (s : State) (w : Nat) : Quota := mgetD s.tm.quotas w {}

/-- The limit of a colour. -/
def colourLimit (p : Profile) (c : Nat) : Nat := if c = 0 then p.green else if c = 1 then p.yellow else p.red

/-- The HBM cells of a world: its quota, or its pool's size (R355). -/
def hbmLimit (s : State) (w p : Nat) : Nat :=
  match (quotaAt s w).hbm with
  | some n => n
  | none => poolCells p (poolAt s p)

/-- What a frame on its way into a queue meets. -/
inductive Placing where
  | ondie
  | hbm (pool : Nat) (data lists : List Nat) (s : State)
  | noQuota
  | noPool

/-- Find room for a frame (R256, R356); `room` says that Hide's write path has room. -/
def placing (f : Frame) (prof : Profile) (room : Bool) (s : State) : Placing :=
  let q := quotaAt s f.world
  if mgetD s.mem.ondie f.world 0 ≤ q.ondie then .ondie
  else if prof.ondieOnly then .noQuota
  else match hbmPool s f.world with
  | none => .noPool
  | some p =>
    let n := dataCells f.len
    let l := listCells f.len
    if hbmLimit s f.world p < mgetD s.mem.hbm f.world 0 + n + l then .noQuota
    else if !room || !s.mem.initialised then .noPool
    else match takeCells p (n + l) s with
    | none => .noPool
    | some (hs, s1) => .hbm p (hs.drop l) (hs.take l) s1

/-- A frame's move to HBM does not wait: Hide's pipes are open, or the pool's cache has the cells for every copy, whose writes are posted
(R358, R378, Table 11.11). -/
def moveOpen (s : State) (f : Frame) (copies : Nat) : Bool :=
  hbmOpen s || mgetD s.mem.ondie f.world 0 + dataCells f.len ≤ (quotaAt s f.world).ondie ||
    (match hbmPool s f.world with
     | none => true
     | some p => copies * (dataCells f.len + listCells f.len) ≤ runLen (poolAt s p).cache)

/-- Put a frame at the tail of a queue. -/
def putQueue (q : NodeId) (f : Frame) (s : State) : State :=
  countEvent 0x46 0x100 f.world 1
    (updQueue q (fun x => { x with held := x.held ++ [{ frame := f, at_ := s.mono }], enq := (x.enq + 1) % 2 ^ 48 }) s)

/-- Give up a copy's hold on its cells. -/
def loseHold (f : Frame) (s : State) : State := freeFrame f s

/-- Count a mirror copy that is dropped (R258), by session. -/
def mirrorDrop (f : Frame) (session : Option Nat) (s : State) : State :=
  match session with
  | some k => bumpW (cTm 12) 0 k f.world s
  | none => s

/-- Admit a copy, which holds its cells, into a queue, or drop it (R23, R253, R255, R256). -/
def admitFrame (q : NodeId) (f : Frame) (session : Option Nat) (room : Bool) (s : State) : State :=
  let x := queueAt s q
  let prof := profileAt s x.profile
  let drop (t : State → State) : State := mirrorDrop f session (t (loseHold f s))
  if !serves (nodeWorld s q) f.world then drop (fun s => updQueue q (fun x => { x with drop := x.drop + 1 }) (countWorldDrop f s))
  else if q.side = 0 && !((termAt s (q.index / 8)).map termUp).getD false then drop (dropAt 6 q f.world)
  else if !x.enable then drop (dropAt 4 q f.world)
  else if colourLimit prof f.colour < depthCells x + dataCells f.len then drop (dropAt 0 q f.world)
  else match placing f prof room s with
  | .ondie => putQueue q f s
  | .noQuota => drop (dropAt 1 q f.world)
  | .noPool => drop (fun s => bumpW cDropPool 6 ((hbmPool s f.world).getD 0) f.world
      (updQueue q (fun x => { x with drop := x.drop + 1 }) s))
  | .hbm p data lists s1 =>
    if (data ++ lists).any (poisonedCell s1) then
      mirrorDrop f session (bumpW cDropPoison 3 (queueIdx q) f.world (updQueue q (fun x => { x with drop := x.drop + 1 })
        (giveCells p (lists ++ data) (loseHold f (poisonHit s1))))) else
    let s2 := writeLists lists data (writeData data f.bytes s1)
    let s3 := { s2 with mem := { s2.mem with hbm := mupd s2.mem.hbm f.world 0 (· + (data.length + lists.length)) } }
    putQueue q { f with pool := p, cells := data, lists := lists, bytes := [] }
      (countEvent 0x46 0x102 f.world 1 (loseHold f s3))

/-- The KIND and INDEX of a destination word (Table 7.3). -/
def destKind (d : Word) : Nat := fld d 31 28
def destIndex (d : Word) : Nat := fld d 19 0

/-- The INDEX of a destination lies in its KIND's range and its reserved bits are 0 (Table 7.3). -/
def destOk (d : Word) : Bool :=
  fld d 27 20 = 0 &&
    (match destKind d with
     | 0 => destIndex d < 32768 | 1 => destIndex d < 16 | 2 => destIndex d < 64 | 3 => destIndex d < 256
     | 4 => destIndex d < 65536 | 5 => destIndex d = 0 | _ => false)

/-- The default tenant node of a world at an egress (R252). -/
def defaultNode (s : State) (world egress : Nat) : Option Node :=
  (s.tm.nodes.find? fun e => e.1.side = 1 && e.1.level = 2 && e.2.dflt && e.2.world = world
    && rootOf s e.1 = some ⟨1, 0, egress⟩).map Prod.snd

/-- The queue of a copy for an uplink port or card (R252); none where it needs a default node and there is none. -/
def netQueueOf (s : State) (f : Frame) (egress : Nat) (q : Option (Nat × Bool)) : Option (NodeId × Bool) :=
  match q with
  | some (i, false) =>
    let n := netQueue (i % 65536)
    some (n, rootOf s n = some ⟨1, 0, egress⟩ && i < 65536)
  | some (k, true) => (defaultNode s f.world egress).map fun n => (netQueue (n.defq + k % 8), true)
  | none => (defaultNode s f.world egress).map fun n => (netQueue (n.defq + f.cls / 8), true)

/-- Send one copy, which holds its cells, to a destination of KIND 0 to 3 with the queue that its action names
(R252). -/
def sendCopy (dest : Word) (q : Option (Nat × Bool)) (session : Option Nat) (room : Bool) (f : Frame) (s : State) : State :=
  let i := destIndex dest
  let lost (t : State → State) : State := mirrorDrop f session (t (loseHold f s))
  match destKind dest with
  | 0 =>
    let n := match q with | some (k, true) => i * 8 + k % 8 | some (k, false) => k | none => i * 8 + f.cls / 8
    if n / 8 ≠ i then lost (bumpQ 2 (downQueue n) f.world)
    else admitFrame (downQueue n) { f with dir := 0, term := some i, queue := n } session room s
  | 3 =>
    let h := hrqAt s i
    if h.bound ≠ 0xFF && !serves h.world f.world then lost (countWorldDrop f)
    else if hrqFull h then
      lost (fun s => bumpW (cTm 7) 0 0 f.world (updHrq i (fun h => { h with drops := satAdd 0xFFFFFFFF h.drops 1 }) s))
    else toHost i f [] s
  | 1 | 2 =>
    let egress := if destKind dest = 1 then i else 16
    match netQueueOf s f egress q with
    | none => lost (bumpW (cTm 3) 0 0 f.world)
    | some (n, ok) =>
      if !ok then lost (bumpQ 2 n f.world)
      else admitFrame n { f with card := if destKind dest = 2 then i else 0, queue := n.index } session room s
  | _ => loseHold f s

/-- A destination as one of this block's copies: a word, the queue of the action, and the mirror session. -/
abbrev Copy8 := Word × Option (Nat × Bool) × Option Nat

/-- A DEST names a frame's own point of entry (R228). -/
def ownEntry (f : Frame) (srcCard : Nat) (dest : Word) : Bool :=
  match destKind dest with
  | 0 => f.source < 64 && f.term = some (destIndex dest)
  | 1 => 64 ≤ f.source && f.source < 80 && f.source - 64 = destIndex dest
  | 2 => (f.source = 80 || f.source = 81) && srcCard = destIndex dest
  | _ => false

/-- The mirror copies of a frame: those that are made, and the sessions that refuse the frame's world (R258). -/
def mirrorCopies (s : State) (x : Flight) : List Copy8 × List Nat :=
  let ks := x.act.mirrors
  let session (k : Nat) : Session := mgetD s.tm.sessions k {}
  let made := ks.filter fun k => destKind (session k).dest < 4 && serves (session k).world x.frame.world
  let refused := ks.filter fun k => destKind (session k).dest < 4 && !serves (session k).world x.frame.world
  (made.map fun k => ((session k).dest, none, some k), refused)

/-- The copies of the frame itself: its destination, or the members of its group that are not its point of entry
(R257). -/
def mainCopies (s : State) (x : Flight) : List Copy8 :=
  if destKind x.dest = 4 then
    match mget s.tm.groups (destIndex x.dest) with
    | some g => (g.members.filter fun d => x.direct || !ownEntry x.frame x.frame.card d).map fun d => (d, x.act.queue, none)
    | none => []
  else [(x.dest, x.act.queue, none)]

/-- The members of a group that are the frame's point of entry. -/
def filteredMembers (s : State) (x : Flight) : Nat :=
  if destKind x.dest = 4 && !x.direct then
    match mget s.tm.groups (destIndex x.dest) with
    | some g => (g.members.filter (ownEntry x.frame x.frame.card)).length
    | none => 0
  else 0

/-- The group of a frame's DEST belongs to another world (R257). -/
def groupForeign (s : State) (x : Flight) : Bool :=
  destKind x.dest = 4 &&
    (match mget s.tm.groups (destIndex x.dest) with | some g => !serves g.world x.frame.world | none => false)

/-- Take one hold on a chain for each copy beyond the first (R360). -/
def takeHolds (n : Nat) (cells : List Nat) (s : State) : Option State :=
  match n with
  | 0 => some s
  | k + 1 => match share cells s with | some s1 => takeHolds k cells s1 | none => none

/-- Send the copies of a frame that lies in its on-die cells (R257, R258, R360). Where there is no owner record for more than one, the
frame itself goes, and its first destination of several, before any mirror copy. -/
def sendCopies (f : Frame) (cs : List Copy8) (room : Bool) (s : State) : State :=
  let send (c : Copy8) (s : State) : State := sendCopy c.1 c.2.1 c.2.2 room { f with mirror := c.2.2.isSome, session := c.2.2 } s
  match cs with
  | [] => loseHold f s
  | c :: rest =>
    if rest.isEmpty then send c s
    else match takeHolds rest.length f.cells s with
    | some s1 => forEach cs send s1
    | none =>
      let first := (cs.find? fun c => c.2.2.isNone).getD c
      forEach (cs.erase first) (fun c s => mirrorDrop f c.2.2 (bumpW cDropPool 6 0 f.world s)) (send first s)

/-- Count the mirror copies made (R258). -/
def countMirrors (f : Frame) (cs : List Copy8) (s : State) : State :=
  forEach cs (fun c s => match c.2.2 with | some k => bumpW (cTm 11) 0 k f.world s | none => s) s

/-- Whether a frame whose tag check is still to come may go on: only to an unsecured fabric card (R301). -/
def mayRunAhead (s : State) (x : Flight) : Bool :=
  !x.frame.wait || (destKind x.dest = 2 && !secured s (16 + destIndex x.dest) 0 && x.act.mirrors.isEmpty)

/-- Enqueue a frame that Stitch has released (R252 to R258, R303, R356). -/
def enqueue (id : Nat) (room : Bool) (x : Flight) (s : State) : State :=
  let f := x.frame
  if f.poison then dropCounted cDropChannel 9 0x46 id s
  else
    let s1 := frameIn 0x46 f.world f.len (endFlight id (epochOut f.epoch (leaveVersion id s)))
    match if f.cells.isEmpty then takeCells 0 (dataCells f.len) s1 else some (f.cells, s1) with
    | none => bumpW cDropPool 6 0 f.world s1
    | some (cells, s2) =>
      let s3 := if f.cells.isEmpty then { s2 with mem := { s2.mem with ondie := mupd s2.mem.ondie f.world 0 (· + cells.length) } } else s2
      let (made, refused) := mirrorCopies s x
      let s4 := forEach refused (fun k s => bumpW (cTm 12) 0 k f.world s) s3
      let s5 := if groupForeign s x then countWorldDrop f s4
        else bumpBy { cid := cid 7 9 2, scope := 10, idx := f.slice, world := f.world } (filteredMembers s x) s4
      let main := if groupForeign s x then [] else mainCopies s x
      sendCopies { f with pool := 0, cells := cells } (made ++ main) room (countMirrors f made s5)

/-- No frame of the same SOURCE was released before a frame and still waits (R246). -/
def firstReleased (s : State) (id : Nat) (x : Flight) : Bool :=
  let same (i : Nat) : Bool := match flightAt s i with | some y => y.frame.source = x.frame.source | none => false
  s.pkt.order.find? same = some id

/-- ENQUEUE: the traffic manager takes a frame that Stitch has released, in the order of release within a SOURCE. `room`
says that the HBM write path has room. -/
def execEnqueue (frame : Nat) (room : Bool) (s : State) : Res :=
  match flightAt s frame with
  | some x => .next (whenever (x.place = .released && mayRunAhead s x && firstReleased s frame x &&
      moveOpen s x.frame ((mirrorCopies s x).1.length + (mainCopies s x).length)) (enqueue frame room x) s)
  | none => .fault .noSuchObject

/-- Free the frames that a queue holds, counting them at the position given. -/
def flushQueue (pos : Nat) (q : NodeId) (s : State) : State :=
  let hs := (queueAt s q).held
  let s1 := forEach hs (fun h s => bumpQ pos q h.frame.world (freeFrame h.frame s)) s
  settleQueue q (updQueue q (fun x => { x with held := [], drop := x.drop + hs.length }) s1)

/-- The frames in a terminal's queues are freed (R253). -/
def freeTerminalFrames (i : Nat) (s : State) : State :=
  forBelow 8 (fun k s => if (queueAt s (downQueue (i * 8 + k))).held.isEmpty then s
                         else flushQueue 6 (downQueue (i * 8 + k)) s) s

/-! ## Rein (R259 to R265) -/

/-- One byte in the units of a shaper's bucket. -/
def byteUnit : Int := 4294967296

/-- A node is open in some phase: it has no shaper or its peak bucket holds tokens (R260). -/
def openAny (s : State) (n : NodeId) : Bool :=
  match (nodeAt8 s n).shaper with | none => true | some h => 0 < h.pTok

/-- A node is open in the committed phase. -/
def openCommitted (s : State) (n : NodeId) : Bool :=
  match (nodeAt8 s n).shaper with | none => true | some h => 0 < h.cTok && 0 < h.pTok

/-- A node is open in a phase (0 committed, 1 excess). -/
def openIn (s : State) (phase : Nat) (n : NodeId) : Bool :=
  if phase = 0 then openCommitted s n
  else match (nodeAt8 s n).shaper with | none => false | some h => h.cTok ≤ 0 && 0 < h.pTok

/-- The slot of a terminal's key index. -/
def keySlot (t : Terminal) (index : Nat) : Nat := if index = 2 then t.slot2 else t.slot1

/-- A terminal has no key: the slot of its current downstream index is empty, or does not permit the use (R312, R318, Table 8.7). -/
def noKey (s : State) (t : Terminal) : Bool := !engineUse s (keySlot t t.keyIndex) t.world useEncrypt (t.ext.testBit 1)

/-- A queue waits for a key. -/
def keyWait (s : State) (q : NodeId) : Bool :=
  q.side = 0 && (queueAt s q).enc && (match termAt s (q.index / 8) with | some t => noKey s t | none => false)

/-- A queue is ready: its head frame may be sent (R253, R254, R268). -/
def queueReady (s : State) (root q : NodeId) : Bool :=
  match (queueAt s q).held with
  | [] => false
  | h :: _ => (q.side = 1 || ((termAt s (q.index / 8)).map termUp).getD false) && !keyWait s q && gateFits s root q h.frame

/-- The paths, below the root, to the queues through which select could descend (R260). -/
def livePaths (s : State) (root : NodeId) : List (List NodeId) :=
  s.tm.queues.filterMap fun e =>
    match pathOf s e.1 with
    | r :: below =>
      if r = root && queueReady s root e.1 && below.all (fun n => (nodeAt8 s n).enable && openAny s n) then some below else none
    | [] => none

/-- Insert a node into a list in rising index. -/
def insertNode (n : NodeId) (l : List NodeId) : List NodeId :=
  match l with
  | [] => [n]
  | m :: r => if n.index < m.index then n :: m :: r else if n.index = m.index then m :: r else m :: insertNode n r

/-- The first nodes of some paths, in rising index. -/
def heads (ps : List (List NodeId)) : List NodeId :=
  ps.foldl (fun l p => match p with | n :: _ => insertNode n l | [] => l) []

/-- The child at a pointer: the first at or beyond it, else the first. -/
def atPointer (set : List NodeId) (ptr : Nat) : Option NodeId :=
  match set.find? fun n => ptr ≤ n.index with
  | some n => some n
  | none => set.head?

/-- A node's deficit in a phase. -/
def deficit (s : State) (phase : Nat) (n : NodeId) : Int :=
  if phase = 0 then (nodeAt8 s n).defC else (nodeAt8 s n).defE

/-- Add to a node's deficit in a phase. -/
def addDeficit (phase : Nat) (v : Int) (n : NodeId) (s : State) : State :=
  updNode n (fun x => if phase = 0 then { x with defC := x.defC + v } else { x with defE := x.defE + v }) s

/-- dwrr of R260: the child at the pointer, each that is passed gaining its quantum. -/
def dwrr (fuel : Nat) (node : NodeId) (prio phase : Nat) (set : List NodeId) (s : State) : Option (NodeId × State) :=
  match fuel with
  | 0 => none
  | k + 1 =>
    match atPointer set (mgetD s.tm.pointers (node, prio, phase) 0) with
    | none => none
    | some c =>
      if 0 < deficit s phase c then some (c, s)
      else
        let w := if phase = 0 then (nodeAt8 s c).weight else (nodeAt8 s c).excWeight
        let s1 := addDeficit phase (64 * w) c s
        dwrr k node prio phase set { s1 with tm := { s1.tm with pointers := mset s1.tm.pointers (node, prio, phase) (c.index + 1) } }

/-- The phase, priority and set that select finds at a node: committed first, and the highest priority first. -/
def selectSet (s : State) (children : List NodeId) : Option (Nat × Nat × List NodeId) :=
  [0, 1].findSome? fun phase => [7, 6, 5, 4, 3, 2, 1, 0].findSome? fun prio =>
    match children.filter fun c => (nodeAt8 s c).prio = prio && openIn s phase c with
    | [] => none
    | set => some (phase, prio, set)

/-- Descend from a node to a queue: the nodes chosen, each with its parent, priority and phase (R260). -/
def descend (fuel : Nat) (node : NodeId) (ps : List (List NodeId)) (s : State) :
    Option (List (NodeId × NodeId × Nat × Nat) × State) :=
  match fuel with
  | 0 => none
  | k + 1 =>
    match selectSet s (heads ps) with
    | none => none
    | some (phase, prio, set) =>
      match dwrr (256 * set.length) node prio phase set s with
      | none => none
      | some (c, s1) =>
        if c.level = 4 then some ([(c, node, prio, phase)], s1)
        else
          let below := ps.filterMap fun p => match p with | n :: r => if n = c then some r else none | [] => none
          match descend k c below s1 with
          | some (l, s2) => some ((c, node, prio, phase) :: l, s2)
          | none => none

/-- Charge a node of the path: its deficit, the pointer past it when the deficit is no longer positive, and its shaper
(R260, R264). -/
def charge (len : Nat) (e : NodeId × NodeId × Nat × Nat) (s : State) : State :=
  let (c, node, prio, phase) := e
  let s1 := addDeficit phase (-(len : Int)) c s
  let ptr := if 0 < deficit s1 phase c then c.index else c.index + 1
  let s2 := { s1 with tm := { s1.tm with pointers := mset s1.tm.pointers (node, prio, phase) ptr } }
  updNode c (fun x => { x with shaper := x.shaper.map fun h =>
    let d := ((len : Int) + h.overhead) * byteUnit
    { h with pTok := h.pTok - d, cTok := if phase = 0 then h.cTok - d else h.cTok } }) s2

/-- Remove the head frame of a queue. -/
def popQueue (q : NodeId) (sent : Bool) (s : State) : State :=
  updQueue q (fun x => { x with held := x.held.drop 1, deq := if sent then (x.deq + 1) % 2 ^ 48 else x.deq,
                                drop := if sent then x.drop else x.drop + 1 }) s

/-- Drop the head frames that R16, R269 and R376 exclude, of the queues under a root. -/
def dropHeads (fuel : Nat) (root q : NodeId) (s : State) : State :=
  match fuel with
  | 0 => s
  | k + 1 =>
    match (queueAt s q).held with
    | [] => s
    | h :: _ =>
      if h.frame.poison then
        dropHeads k root q (bumpW cDropChannel 9 0x46 h.frame.world (freeFrame h.frame (settleQueue q (popQueue q false s))))
      else if oversize s root q h.frame then
        dropHeads k root q (bumpQ 8 q h.frame.world (freeFrame h.frame (settleQueue q (popQueue q false s))))
      else if hbmOpen s && frameLost s h.frame then
        dropHeads k root q (bumpW cDropPoison 3 (queueIdx q) h.frame.world
          (freeFrame h.frame (settleQueue q (popQueue q false (poisonMet h.frame s)))))
      else s

/-- Drop such heads in every queue under a root. -/
def dropAllHeads (root : NodeId) (s : State) : State :=
  forEach s.tm.queues (fun e s => if rootOf s e.1 = some root then dropHeads e.2.held.length root e.1 s else s) s

/-- The counter DROP_LINK_DOWN (Table 13.10). -/
def cDropLinkDown : Nat := cPlait 18

/-- An uplink port's link. -/
def upPort (s : State) (e : Nat) : UplinkPort := mgetD s.link.ports e {}

/-- A port or egress takes decisions: the node is enabled; a port's framing runs and its transmitter is on (R553); an
uplink port is configured; the fabric egress has room at every secured card (R289) and in the holding buffer (R414). An
egress with a secured point is not ready while the array admits nothing (R313). -/
def rootReady (s : State) (root : NodeId) : Bool :=
  (nodeAt8 s root).enable &&
  (if root.side = 0 then
    (match mget s.pon.ports root.index with | some p => p.framing && !p.txdis | none => false)
   else if root.index < 16 then
    !(secured s root.index 0 && !admits s 0) && uplinkRate s root.index ≠ 0 && (mgetD s.link.uplinks (root.index / 4) {}).portEn.testBit (root.index % 4)
      && !(portLanes s root.index).any (quietLane s)
   else
    !(!admits s 0 && (List.range 64).any fun c => secured s (16 + c) 0)
    && (s.tm.egress.all fun e => e.1 < 16 || (e.2.map Frame.len).foldl (· + ·) 0 < 65536)
    && (((sideAt s s.link.sel.side).queue.map fun t => t.bytes.length).foldl (· + ·) 0) < 1048576)

/-- A frame chosen for the fabric goes to the working side's framer. -/
def toFramer (f : Frame) (bytes : List Byte) (s : State) : State :=
  updSide s.link.sel.side (fun x => { x with queue := x.queue ++
    [{ kind := 1, card := f.card, pri := f.cls / 8, bytes := bytes, held := f.wait, frame := f.num }] }) s

/-- Hand the chosen frame to its port, its uplink, its fabric side, or the cipher array in front of it (R260, R285,
R303, R421). -/
def sendFrame (root q : NodeId) (f : Frame) (s : State) : State :=
  let bytes := frameBytes s f
  let s1 := freeFrame f (hbmReads f s)
  if root.side = 0 then
    let i := q.index / 8
    let x : XgemTx := { term := i, xgemPort := (queueAt s q).xgemPort, enc := (queueAt s q).enc, bytes := bytes, world := f.world, num := f.num }
    match mget s1.pon.ports root.index with
    | some p => { s1 with pon := { s1.pon with ports := mset s1.pon.ports root.index { p with txq := p.txq ++ [x] } } }
    | none => s1
  else if root.index < 16 && !(upPort s root.index).up then bumpBy { cid := cDropLinkDown, scope := 1, idx := root.index } 1 s1
  else if secured s (pointOf root f) 0 then
    { s1 with tm := { s1.tm with egress := mupd s1.tm.egress (pointOf root f) [] (· ++ [{ f with bytes := bytes, pool := 0, cells := [], lists := [] }]) } }
  else if root.index < 16 then emit (.uplink root.index bytes) (frameIn 0x4A f.world bytes.length s1)
  else toFramer f bytes (frameIn 0x4A f.world bytes.length s1)

/-- The chosen path: the charges, the frame leaves its queue, and the port is busy for its time (R260 to R262). -/
def sendChosen (root : NodeId) (path : List (NodeId × NodeId × Nat × Nat)) (s : State) : State :=
  match path.getLast? with
  | none => s
  | some (q, _) =>
    match (queueAt s q).held with
    | [] => s
    | h :: _ =>
      let len := schedLen s root h.frame
      let t := startAt s root
      let d := txTime s root len t
      let nodes := pathOf s q
      let s1 := countEvent 0x46 0x103 h.frame.world 1 (countEvent 0x46 0x101 h.frame.world 1 (forEach path (charge len) s))
      let s2 := sendFrame root q h.frame (popQueue q true s1)
      settle nodes { s2 with tm := { s2.tm with busy := mset s2.tm.busy root (max s.mono (mgetD s.tm.busy root 0) + d) } }

/-- The head frame of the chosen queue lies in HBM, whose accesses wait (R378): the decision waits with them (DESIGN CHOICE: log entry 189). -/
def readWaits (s : State) (path : List (NodeId × NodeId × Nat × Nat)) : Bool :=
  !hbmOpen s && (match path.getLast? with
    | some (q, _) => (queueAt s q).held.head?.any fun h => h.frame.pool ≠ 0
    | none => false)

/-- One decision of a port or egress (R260). -/
def decide8 (root : NodeId) (s : State) : State :=
  if !rootReady s root then s
  else
    let s1 := dropAllHeads root s
    match descend 4 root (livePaths s1 root) s1 with
    | none => s1
    | some (path, s2) => if readWaits s1 path then s1 else sendChosen root path s2

/-- REIN_DECISION of a port (side 0) or an egress (side 1). -/
def execReinDecision (side index : Nat) (s : State) : Res :=
  onObject (side < 2 && index < nodeCount side 0) (decide8 ⟨side, 0, index⟩ s)

/-- The credit of one time tick at a shaper (R264): 12.8 ns at a rate in kb/s is rate * 1.6 / 1,000,000 bytes. -/
def creditShaper (n : Nat) (h : Shaper) : Shaper :=
  let inc (rate : Nat) : Int := ((n * rate * 16 * 4294967296 / 10000000 : Nat) : Int)
  { h with cTok := min (h.cTok + inc h.cir) ((h.cbs : Int) * byteUnit),
           pTok := min (h.pTok + inc h.pir) ((h.pbs : Int) * byteUnit) }

/-- Credit every shaper for some ticks (R264). -/
def creditShapers (n : Nat) (s : State) : State :=
  { s with tm := { s.tm with nodes := mmap s.tm.nodes fun _ x => { x with shaper := x.shaper.map (creditShaper n) } } }

end Sys2Proof.Machine
end

