-- ==== Sys2Proof/Machine/Forward.lean ====
section
/-! DEFINITION. The distributor, the forward unit, MAC tables and learning, LPM tables and Stitch, and their commands
(chapter 7). -/

namespace Sys2Proof.Machine

/-! ## Spraying (R224, R225) -/

/-- The slices that the distributor uses: powered, and no unit of them or of their tables is out of service. -/
def enabledSlices (s : State) : List Nat :=
  (List.range 4).filter fun k => powered s k && !s.flt.failed.any fun u => (u.1 = 0x04 && u.2.1 = k + 1) || (u.1 = 0x05 && u.2.2 = k)

/-- An earlier frame of the same SOURCE has not yet been sprayed. -/
def earlierWaits (s : State) (id source : Nat) : Bool :=
  s.pkt.flights.any fun e => e.1 < id && e.2.frame.source = source && !e.2.void
    && (e.2.place = .ingress || e.2.place = .array || e.2.place = .held)

/-- The distributor sends a frame to the slice at its SOURCE's pointer, with the next SEQ; an injected direct frame
passes on to Stitch (R84, R224). A frame poisoned on a data channel is discarded (R16). -/
def spray (id : Nat) (x : Flight) (s : State) : State :=
  let src := x.frame.source
  let en := enabledSlices s
  let p := mgetD s.rules.spray src 0
  let q := mgetD s.rules.nextSeq src 0
  if x.frame.poison then dropCounted cDropChannel 9 0x41 id s
  else if en.isEmpty then s
  else
    let f := { x.frame with slice := en.getD (p % en.length) 0, seq := q }
    let s0 := frameIn 0x41 f.world f.len s
    let s1 := setFlight id { x with frame := f, place := if x.direct then .out else .sprayed }
      (if x.direct then s0 else frameIn (0x42 + f.slice) f.world f.len s0)
    let s2 := if x.direct then leaveVersion id s1 else s1
    { s2 with rules := { s2.rules with spray := mset s2.rules.spray src (p + 1), nextSeq := mset s2.rules.nextSeq src ((q + 1) % 2 ^ 20) } }

/-- A slice holds no frame. -/
def sliceEmpty (s : State) (k : Nat) : Bool := s.pkt.flights.all fun e => !(e.2.frame.slice = k && owesVoid e.2.place)

/-- A domain's islands (Table 17.4) whose clocks stop with its power. -/
def domainIslands (d : Nat) : List Nat := if d < 4 then [0x42 + d] else if d = 0xF0 then [0x41, 0x46, 0x49] else []

/-- A domain is gated. -/
def gateDomain (d : Nat) (s : State) : State :=
  if !powered s d then s
  else forEach (domainIslands d) stopCycle { s with halter := { s.halter with gated := s.halter.gated ++ [d] } }

/-- DOMAIN_CONTROL gates a domain, which a rewind of an entry in progress leaves so (R442, R455). -/
def gateOff (d : Nat) (s : State) : State :=
  gateDomain d { s with halter := { s.halter with before := s.halter.before ++ [d] } }

/-- A slice that DOMAIN_CONTROL has told off leaves the enabled set once it holds no frame (Table 15.1). -/
def gateLeaving (s : State) : State :=
  forEach (s.halter.leaving.filter (sliceEmpty s))
    (fun k s => gateOff k { s with halter := { s.halter with leaving := s.halter.leaving.filter (· ≠ k) } }) s

/-- DISTRIBUTOR_SPRAY: a frame that is complete at its ingress unit, or released by the array, in its SOURCE's order. From
S2 on the keeper has it instead. -/
def execDistributorSpray (frame : Nat) (s : State) : Res :=
  match flightAt s frame with
  | some x => .next (whenever (x.place = .ingress && !x.void && !earlierWaits s frame x.frame.source && !keeperPath s)
      (fun s => spray frame x (gateLeaving s)) s)
  | none => .fault .noSuchObject

/-! ## MAC tables (R229 to R233) -/

/-- The key of an entry. -/
abbrev MacKey := Nat × Nat × Nat

/-- The key of an entry. -/
def MacEntry.key (e : MacEntry) : MacKey := (e.world, e.vid, e.mac)

/-- The candidate buckets of a key (R231). -/
def macBuckets (k : MacKey) : Nat × Nat :=
  let str := beBytes 2 k.1 ++ beBytes 2 k.2.1 ++ beBytes 6 k.2.2
  let h0 := (crc32c str).toNat % 2 ^ 17
  let h1 := (crc32 str).toNat % 2 ^ 17
  (h0, if h1 = h0 then h0 ^^^ 1 else h1)

/-- A bucket. -/
def bucketAt (t : MacTable) (b : Nat) : List MacEntry := mgetD t.buckets b []

/-- A bucket's OVF or MOVE is set (R229). -/
def flagged (t : MacTable) (b : Nat) : Bool := t.ovf.contains b || t.move.contains b

/-- A lookup: both buckets, and the stash where either has OVF or MOVE set (R231). -/
def macFind (t : MacTable) (k : MacKey) : Option MacEntry :=
  let (h0, h1) := macBuckets k
  (bucketAt t h0 ++ bucketAt t h1 ++ if flagged t h0 || flagged t h1 then t.stash else []).find? fun e => e.key = k

/-- A table with another stash: OVF is set on a bucket while a stash entry whose key maps to it is in use (R231). -/
def withStash (t : MacTable) (l : List MacEntry) : MacTable :=
  { t with stash := l, ovf := l.flatMap fun e => [(macBuckets e.key).1, (macBuckets e.key).2] }

/-- Every entry of a table. -/
def macEntries (t : MacTable) : List MacEntry := t.buckets.flatMap Prod.snd ++ t.stash

/-- Rewrite the entry of a key. -/
def macRewrite (t : MacTable) (k : MacKey) (f : MacEntry → MacEntry) : MacTable :=
  let g (l : List MacEntry) : List MacEntry := l.map fun e => if e.key = k then f e else e
  { t with buckets := mmap t.buckets fun _ l => g l, stash := g t.stash }

/-- Remove the entries that a test picks. -/
def macRemove (t : MacTable) (p : MacEntry → Bool) : MacTable :=
  withStash { t with buckets := (mmap t.buckets fun _ l => l.filter fun e => !p e).filter (fun e => !e.2.isEmpty) }
    (t.stash.filter fun e => !p e)

/-- A relocation of an entry from one bucket to another (R233). -/
abbrev Reloc := MacEntry × Nat × Nat

/-- The relocations that one more step could make from a bucket. -/
def nextRelocs (t : MacTable) (x : Nat × List Reloc) : List (Nat × List Reloc) :=
  (bucketAt t x.1).map fun e =>
    let (h0, h1) := macBuckets e.key
    let other := if h0 = x.1 then h1 else h0
    (other, x.2 ++ [(e, x.1, other)])

/-- The shortest displacement path, found breadth first (R232). -/
def findPath (t : MacTable) (depth : Nat) (front : List (Nat × List Reloc)) : Option (List Reloc) :=
  match depth with
  | 0 => none
  | k + 1 =>
    let next := front.flatMap (nextRelocs t)
    match next.find? fun x => (bucketAt t x.1).length < 4 with
    | some x => some x.2
    | none => findPath t k next

/-- The events of a relocation in the order of Table 7.4: the transit entry and MOVE, the write in the far bucket, the
clearing of the near one, and the end of MOVE and of the transit entry. The slice makes no lookup between them
(DESIGN CHOICE, log entry 159). -/
def relocTransit (r : Reloc) (t : MacTable) : MacTable :=
  { t with stash := t.stash ++ [r.1], move := t.move ++ [r.2.1, r.2.2] }
def relocWrite (r : Reloc) (t : MacTable) : MacTable :=
  { t with buckets := mset t.buckets r.2.2 (bucketAt t r.2.2 ++ [r.1]) }
def relocClear (r : Reloc) (t : MacTable) : MacTable :=
  { t with buckets := mset t.buckets r.2.1 ((bucketAt t r.2.1).filter (· ≠ r.1)) }
def relocFree (t : MacTable) : MacTable :=
  { t with stash := t.stash.dropLast, move := t.move.dropLast.dropLast }

/-- Make one relocation (R233). -/
def relocate (r : Reloc) (t : MacTable) : MacTable := relocFree (relocClear r (relocWrite r (relocTransit r t)))

/-- Insert an entry (R232); none where the insertion fails. -/
def macInsert (t : MacTable) (e : MacEntry) : Option MacTable :=
  let (h0, h1) := macBuckets e.key
  let put (t : MacTable) (b : Nat) : MacTable := { t with buckets := mset t.buckets b (bucketAt t b ++ [e]) }
  if (bucketAt t h0).length < 4 then some (put t h0)
  else if (bucketAt t h1).length < 4 then some (put t h1)
  else match findPath t 8 [(h0, []), (h1, [])] with
  | some path => some (put (forEach path.reverse relocate t) ((path.head?.map fun r => r.2.1).getD h0))
  | none => if t.stash.length < 60 then some (withStash t (t.stash ++ [e])) else none

/-- A slice's table. -/
def macAt (s : State) (k : Nat) : MacTable := mgetD s.rules.mac k {}

/-- Write a slice's table. -/
def setMac (k : Nat) (t : MacTable) (s : State) : State :=
  { s with rules := { s.rules with mac := mset s.rules.mac k t } }

/-- The time counter seconds [15:0]. -/
def ageNow (s : State) : Nat := tcSec s % 65536

/-- The counters of Table 7.9 by position, of a slice and a world. -/
def cFwd (pos : Nat) : Nat := cid 7 9 pos
def bumpSlice (pos slice world : Nat) (s : State) : State := bumpW (cFwd pos) 10 slice world s

/-! ## Learning (R234, R235) -/

/-- AGEING_CONFIG of a world in a bank. -/
def learnCfg (b : Bank) (world : Nat) : LearnCfg := mgetD b.learn world {}

/-- The DEST that a learnable frame is learned under (R234). -/
def learnDest (f : Frame) (srcCard : Nat) : Option Word :=
  if f.source < 64 then f.term.map fun i => pack [(0, 4, 28), (i, 20, 0)]
  else if f.source < 80 then some (pack [(1, 4, 28), (f.source - 64, 20, 0)])
  else if f.source < 82 then some (pack [(2, 4, 28), (srcCard, 20, 0)])
  else none

/-- A hit of a source lookup (R235): a refresh or a move; the second is true for a violation of a static entry. -/
def learnHit (slice : Nat) (k : MacKey) (dest : Word) (e : MacEntry) (s : State) : State × Bool :=
  let t := macAt s slice
  if e.dest = dest then (setMac slice (macRewrite t k fun e => { e with age := ageNow s }) s, false)
  else if e.static then (bumpSlice 10 slice k.1 s, true)
  else (bumpSlice 6 slice k.1 (setMac slice (macRewrite t k fun e => { e with dest := dest, age := ageNow s }) s), false)

/-- A lookup of a slice's MAC table, which finds an entry or not (Table 17.6). -/
def lookedUp (slice world : Nat) (found : Bool) (s : State) : State :=
  countEvent (0x42 + slice) 0x101 world 1 (if found then s else countEvent (0x42 + slice) 0x102 world 1 s)

/-- The source lookup of a frame: the state, and whether the frame is dropped as a violation (R235). -/
def sourceLookup (b : Bank) (f : Frame) (k : MacKey) (s : State) : State × Bool :=
  match learnDest f f.card with
  | none => (s, false)
  | some dest =>
    if k.2.2.testBit 40 || !(learnCfg b k.1).enable then (s, false)
    else match macFind (macAt s f.slice) k with
    | some e => learnHit f.slice k dest e (lookedUp f.slice k.1 true s)
    | none =>
      let s := lookedUp f.slice k.1 false s
      let t := macAt s f.slice
      if 256 ≤ t.learns.length then (bumpSlice 9 f.slice k.1 s, false)
      else (setMac f.slice { t with learns := t.learns ++ [{ world := k.1, vid := k.2.1, mac := k.2.2, dest := dest }] } s, false)

/-- The learned entries of a world in a slice. -/
def learnedOf (t : MacTable) (world : Nat) : Nat := ((macEntries t).filter fun e => !e.static && e.world = world).length

/-- A learn request's turn (R235). -/
def learnOne (slice : Nat) (s : State) : State :=
  let t := macAt s slice
  match t.learns with
  | [] => s
  | r :: rest =>
    let s1 := setMac slice { t with learns := rest } s
    let k : MacKey := (r.world, r.vid, r.mac)
    match macFind t k with
    | some e => (learnHit slice k r.dest e s1).1
    | none =>
      if (learnCfg s.rules.bank r.world).limit ≤ learnedOf t r.world then bumpSlice 7 slice r.world s1
      else match macInsert { t with learns := rest }
          { world := r.world, vid := r.vid, mac := r.mac, static := false, age := ageNow s, dest := r.dest } with
      | some t' => countEvent (0x42 + slice) 0x104 r.world 1 (bumpSlice 4 slice r.world (setMac slice t' s1))
      | none => bumpSlice 8 slice r.world s1

/-- LEARN_REQUEST: the learning unit of a slice takes its next request. -/
def execLearnRequest (slice : Nat) (s : State) : Res := onObject (slice < 4) (whenever (powered s slice) (learnOne slice) s)

/-! ## Ageing (R241, R242) -/

/-- A scan of a slice: a compare-and-delete for every learned entry of AGE_S or more. -/
def scanSlice (slice : Nat) (s : State) : State :=
  let t := macAt s slice
  let old := (macEntries t).filter fun e => !e.static && s.rules.bank.ageS ≤ (ageNow s + 65536 - e.age) % 65536
  setMac slice { t with deletes := t.deletes ++ old, scanAt := s.mono } s

/-- AGEING_SCAN of a slice, SCAN_S seconds after the scan before it began. -/
def execAgeingScan (slice : Nat) (s : State) : Res :=
  onObject (slice < 4) <| whenever (powered s slice && passed s (macAt s slice).scanAt (s.rules.bank.scanS * sec)) (scanSlice slice) s

/-- The next compare-and-delete of a slice: it clears the entry if it still holds the key and the AGE read. -/
def compareDelete (slice : Nat) (s : State) : State :=
  let t := macAt s slice
  match t.deletes with
  | [] => s
  | d :: rest =>
    let t1 := { t with deletes := rest }
    match macFind t1 d.key with
    | some e =>
      if !e.static && e.age = d.age then bumpSlice 5 slice d.world (setMac slice (macRemove t1 fun e => e.key = d.key) s)
      else setMac slice t1 s
    | none => setMac slice t1 s

/-- COMPARE_AND_DELETE: it is held while requests wait in the learning unit's queue (R242). -/
def execCompareAndDelete (slice : Nat) (s : State) : Res :=
  onObject (slice < 4) <| whenever (powered s slice && (macAt s slice).learns.isEmpty) (compareDelete slice) s

/-! ## Longest-prefix match (R243) -/

/-- A prefix covers an address of its family: 32 bits, or the upper 64 of an IPv6 address. -/
def covers (p : Prefix) (v6 : Bool) (addr : Nat) : Bool :=
  let n := if v6 then 64 else 32
  p.v6 = v6 && addr / 2 ^ (n - p.len) = p.addr / 2 ^ (n - p.len)

/-- The longest prefix that covers an address. -/
def lpmFind (t : Lpm) (v6 : Bool) (addr : Nat) : Option Prefix :=
  (t.prefixes.filter fun p => covers p v6 addr).foldl
    (fun (best : Option Prefix) p => match best with | some b => if b.len < p.len then some p else best | none => some p) none

/-! ## The forward unit (R227, R228) -/

/-- The fields of Table 7.1. -/
def keyDst (k : Key) : Nat := (nthW k.slots 0).toNat * 65536 + fld (nthW k.slots 1) 15 0
def keySrc (k : Key) : Nat := (nthW k.slots 2).toNat * 65536 + fld (nthW k.slots 3) 15 0
def keyVid (k : Key) : Nat := fld (nthW k.slots 4) 11 0
def keyV4 (k : Key) : Bool := k.pflags.testBit 6
def keyV6 (k : Key) : Bool := k.pflags.testBit 3
def keyTtl (k : Key) : Nat := fld (nthW k.slots 14) 7 0
def keyAddr (k : Key) : Nat :=
  if keyV4 k then (nthW k.slots 12).toNat else (nthW k.slots 9).toNat * 2 ^ 32 + (nthW k.slots 10).toNat

/-- Replace bytes of a frame from an offset. -/
def putBytes (bs : List Byte) (off : Nat) (new : List Byte) : List Byte :=
  bs.take off ++ new ++ bs.drop (off + new.length)

/-- The frame with its FCS recomputed. -/
def withFcs (bs : List Byte) : List Byte :=
  let body := bs.take (bs.length - 4)
  body ++ leBytes 4 (crc32 body).toNat

/-- The ones' complement sum of 16-bit words of an IPv4 header. -/
def onesSum (ws : List Nat) : Nat :=
  let n := ws.foldl (· + ·) 0
  let m := n % 65536 + n / 65536
  m % 65536 + m / 65536

/-- The header checksum of an IPv4 header with its checksum field taken as 0. -/
def ipv4Checksum (h : List Byte) : Nat :=
  let z := putBytes h 10 [0, 0]
  65535 - onesSum ((List.range (z.length / 2)).map fun i => beNat (slice z (2 * i) 2))

/-- The edit unit's work on a routed frame (R228). The outer tag is the tag after the addresses; an untagged frame has
none. The IP header is at the last visited node whose FLAG_SET has bit 3 or 6. -/
def editRouted (g : Graph) (walk : List (Nat × Nat)) (bs : List Byte) (router nhMac nhVid : Nat) : List Byte :=
  let b1 := putBytes bs 0 (beBytes 6 nhMac ++ beBytes 6 router)
  let tpid := beNat (slice bs 12 2)
  let b2 := if tpid = 0x88A8 || tpid = 0x8100 then
      putBytes b1 14 (beBytes 2 (beNat (slice bs 14 2) / 4096 * 4096 + nhVid)) else b1
  let ip := walk.reverse.find? fun e => (flagSet (g.nodes.getD e.2 [])).testBit 3 || (flagSet (g.nodes.getD e.2 [])).testBit 6
  let b3 := match ip with
    | none => b2
    | some (start, n) =>
      if (flagSet (g.nodes.getD n [])).testBit 6 then
        let c := putBytes b2 (start + 8) [(b2.getD (start + 8) 0) - 1]
        let hl := (c.getD start 0).toNat % 16 * 4
        putBytes c (start + 10) (beBytes 2 (ipv4Checksum (slice c start hl)))
      else putBytes b2 (start + 7) [(b2.getD (start + 7) 0) - 1]
  withFcs b3

/-- Broadcast. -/
def broadcast : Nat := 2 ^ 48 - 1

/-- The destination lookup (R228, step 2): the DEST and whether the frame is flooded. -/
def destLookup (t : MacTable) (world vid mac : Nat) : Option (Word × Bool) :=
  match macFind t (world, vid, mac) with
  | some e => some (e.dest, false)
  | none => (macFind t (world, vid, broadcast)).map fun e => (e.dest, true)

/-- The counters of Table 15.8: the keys that the keeper's cache cannot record. -/
def cKeeperFull : Nat := cid 15 8 3

/-- The keeper's cache key: the key without LENGTH (R446). -/
def keeperKey (k : Key) : List Nat := [keyBits { k with len := 0 }]

/-- The queue that a frame for a terminal or card would take (R446). -/
def outcomeQueue (s : State) (x : Flight) (dest : Word) : Option Nat :=
  let i := destIndex dest
  match destKind dest with
  | 0 =>
    let n := match x.act.queue with | some (k, true) => i * 8 + k % 8 | some (k, false) => k | none => i * 8 + x.frame.cls / 8
    match termAt s i with
    | some t =>
      if upKind s t.port = 0 || n / 8 ≠ i || (gateAt s (64 + treeOf s t.port)).active.isSome
          || (gateAt s (64 + treeOf s t.port)).pending.isSome then none else some n
    | none => none
  | 2 => match netQueueOf s x.frame 16 x.act.queue with | some (n, true) => some n.index | _ => none
  | _ => none

/-- During S1 every slice records the outcome of a distinct key that R446 admits. -/
def keeperRecord (x : Flight) (routed : Bool) (dest : Word) (s : State) : State :=
  if s.halter.stage ≠ .s1 || x.act.op ≠ 0 || !x.act.mirrors.isEmpty || routed || x.key.depthX || x.key.excAct then s
  else match outcomeQueue s x dest with
  | none => s
  | some q =>
    let k := keeperKey x.key
    if s.halter.cache.any fun o => o.key = k then s
    else if 16384 ≤ s.halter.cache.length then bump cKeeperFull 0 0 s
    else { s with halter := { s.halter with cache := s.halter.cache ++
      [{ key := k, world := x.frame.world, cls := x.frame.cls, colour := x.frame.colour, queue := q, dest := dest }] } }

/-- The source lookup of a frame that has been dropped or given to the host by then: it learns, and a violation drops
nothing more (R228, R235). -/
def learnEnded (b : Bank) (x : Flight) (s : State) : State :=
  let k : MacKey := (x.frame.world, keyVid x.key, keySrc x.key)
  let (t, violation) := sourceLookup b x.frame k s
  if violation then lookedUp x.frame.slice k.1 true s else t

/-- The rest of forwarding once the destination address and VID are known: both lookups, the filter and discard. -/
def forwardTo (id : Nat) (b : Bank) (x : Flight) (routed : Bool) (mac vid : Nat) (s : State) : State :=
  let f := x.frame
  let t := macAt s f.slice
  let s := lookedUp f.slice f.world (macFind t (f.world, vid, mac)).isSome s
  match destLookup t f.world vid mac with
  | none => dropCounted (cFwd 1) 10 f.slice id (learnEnded b x (setFlight id x s))
  | some (dest, flooded) =>
    let s1 := if flooded then bumpSlice 0 f.slice f.world s else s
    let (s2, violation) := sourceLookup b f (f.world, keyVid x.key, keySrc x.key) s1
    let y := { x with dest := dest, place := .out,
                      frame := { f with dir := if destKind dest = 0 then 0 else f.dir } }
    if violation then dropFlight id s2
    else if ownEntry f f.card dest then dropCounted (cFwd 2) 10 f.slice id s2
    else if destKind dest = 5 then dropCounted (cFwd 3) 10 f.slice id s2
    else setFlight id y (keeperRecord x routed dest s2)

/-- A frame at its forward unit (R228). -/
def forward (id : Nat) (b : Bank) (x : Flight) (s : State) : State :=
  let k := x.key
  match mget s.rules.lpm x.frame.world with
  | none => forwardTo id b x false (keyDst k) (keyVid k) s
  | some t =>
    if keyDst k ≠ t.routerMac || !(keyV4 k || keyV6 k) then forwardTo id b x false (keyDst k) (keyVid k) s
    else if keyTtl k ≤ 1 then excEnd b 0x21 id (learnEnded b x s)
    else
      let s := countEvent (0x42 + x.frame.slice) 0x103 x.frame.world 1 s
      match lpmFind t (!keyV4 k) (keyAddr k) with
      | none => excEnd b 0x20 id (learnEnded b x s)
      | some p =>
        let bs := editRouted (graphOf b) x.walk x.frame.bytes t.routerMac p.nhMac p.nhVid
        forwardTo id b { x with frame := { x.frame with bytes := bs } } true p.nhMac p.nhVid s

/-- FORWARD_LOOKUP: the forward unit takes a classified frame of its slice. -/
def execForwardLookup (frame : Nat) (s : State) : Res :=
  match flightAt s frame with
  | some x =>
    if x.place ≠ .classified || x.void then .next s
    else if x.frame.poison then .next (dropCounted cDropChannel 9 (0x42 + x.frame.slice) frame s)
    else match bankOf s x.frame with
    | some b => .next (forward frame b x s)
    | none => .next (dropEpoch frame s)
  | none => .fault .noSuchObject

/-! ## Stitch (R246, R247) -/

/-- The number of SEQs from the release point to a SEQ. -/
def seqAhead (r q : Nat) : Nat := (q % 2 ^ 20 + 2 ^ 20 - r % 2 ^ 20) % 2 ^ 20

/-- The release point of a SOURCE. -/
def releasePoint (s : State) (src : Nat) : Nat := mgetD s.rules.releaseAt src 0
def setRelease (src r : Nat) (s : State) : State :=
  { s with rules := { s.rules with releaseAt := mset s.rules.releaseAt src (r % 2 ^ 20) } }

/-- Stitch lets a frame go on to enqueue; a void is consumed. -/
def releaseFrame (id : Nat) (s : State) : State :=
  match flightAt s id with
  | some x =>
    if x.void then endFlight id s
    else
      let s1 := setFlight id { x with place := .released } s
      { s1 with pkt := { s1.pkt with order := s1.pkt.order ++ [id] } }
  | none => s

/-- The held entry of a SOURCE with a SEQ. -/
def heldAt (s : State) (src q : Nat) : Option Nat :=
  (s.pkt.flights.find? fun e => e.2.place = .stitch && e.2.frame.source = src && e.2.frame.seq = q).map Prod.fst

/-- Release every held entry that follows the release point in order. -/
def releaseRun (fuel src : Nat) (s : State) : State :=
  match fuel with
  | 0 => s
  | k + 1 =>
    match heldAt s src (releasePoint s src) with
    | some id => releaseRun k src (releaseFrame id (setRelease src (releasePoint s src + 1) s))
    | none => s

/-- The entries that Stitch holds, for all sources. -/
def stitchHeld (s : State) : Nat := (s.pkt.flights.filter fun e => e.2.place = .stitch).length

/-- Reordering applies to a frame under its bank. The frames that are still in the slices when a SOURCE's ENABLE becomes 1
meet it too, so that they count as behind (R247). -/
def stitchOn (s : State) (b : Bank) (f : Frame) : Bool :=
  mgetD b.stitch f.source true || mgetD s.rules.bank.stitch f.source true

/-- Frames of the previous epoch are still reordered for a SOURCE whose ENABLE the current epoch has turned off: they finish under
their own bank (R31, R72). -/
def stitchLingers (s : State) (src : Nat) : Bool :=
  s.epoch.previous.isSome && mgetD s.rules.prev.stitch src true && !mgetD s.rules.bank.stitch src true

/-- The point that a SEQ passed without reordering leaves: r follows the highest SEQ seen (R247). -/
def followSeq (r q : Nat) : Nat := if seqAhead r q < 2 ^ 19 then (q + 1) % 2 ^ 20 else r

/-- A SEQ is passed without reordering. While frames of the previous epoch are still reordered their release point stands, and the
highest SEQ seen is kept beside it (log entry 184). -/
def seenSeq (src q : Nat) (s : State) : State :=
  if stitchLingers s src then
    { s with rules := { s.rules with passedTo := mset s.rules.passedTo src (followSeq (mgetD s.rules.passedTo src (releasePoint s src)) q) } }
  else setRelease src (followSeq (releasePoint s src) q) s

/-- At the end of a drain r follows the SEQs that passed meanwhile. -/
def settleSeqs (s : State) : State :=
  forEach s.rules.passedTo (fun e s => setRelease e.1 e.2 s) { s with rules := { s.rules with passedTo := [] } }

/-- A frame or void in Stitch under a bank (R246, R247). -/
def stitchTake (id : Nat) (b : Bank) (x : Flight) (s : State) : State :=
  let src := x.frame.source
  let r := releasePoint s src
  let a := seqAhead r x.frame.seq
  if !stitchOn s b x.frame then
    let s1 := releaseFrame id (seenSeq src x.frame.seq s)
    if stitchLingers s src && a = 0 then releaseRun (stitchHeld s + 1) src (setRelease src (r + 1) s1) else s1
  else if a = 0 then releaseRun (stitchHeld s + 1) src (releaseFrame id (setRelease src (r + 1) s))
  else if a < 2 ^ 19 then
    if 8192 ≤ stitchHeld s then s else setFlight id { x with place := .stitch, at_ := s.mono } s
  else if x.void then endFlight id s
  else
    let s1 := setFlight id { x with place := .stitch } s
    bump (cFwd 12) 5 src (dropFlight id s1)

/-- A frame or void reaches Stitch, which discards a poisoned frame (R16) and drops one of neither bank (R34). What it
drops goes on as the void that holds its SEQ. A void takes the bank that its frame had, or the current one. -/
def stitchArrive (id : Nat) (x : Flight) (s : State) : State :=
  if x.frame.poison && !x.void then dropCounted cDropChannel 9 0x41 id s
  else match bankOf s x.frame with
  | some b => stitchTake id b x s
  | none => if x.void then stitchTake id s.rules.bank x s else dropEpoch id s

/-- STITCH_ARRIVAL. -/
def execStitchArrival (frame : Nat) (s : State) : Res :=
  match flightAt s frame with
  | some x => .next (whenever (x.place = .out) (stitchArrive frame x) s)
  | none => .fault .noSuchObject

/-- The held entries of a SOURCE from the release point up to `a` SEQs ahead, in SEQ order. -/
def heldUpTo (s : State) (src a : Nat) : List (Nat × Nat) :=
  let r := releasePoint s src
  (s.pkt.flights.filter fun e => e.2.place = .stitch && e.2.frame.source = src && seqAhead r e.2.frame.seq ≤ a).foldl
    (fun l e =>
      let k := seqAhead r e.2.frame.seq
      (l.filter fun x => x.1 < k) ++ [(k, e.1)] ++ l.filter fun x => k ≤ x.1) []

/-- A held entry has waited 8 µs: every missing SEQ before it is skipped and counted (R246). One that has come to lie behind r, which an
ENABLE written to 1 can set beyond it (R247), is late. -/
def stitchSkip (id : Nat) (x : Flight) (s : State) : State :=
  let src := x.frame.source
  let r := releasePoint s src
  let a := seqAhead r x.frame.seq
  if 2 ^ 19 ≤ a then
    (if x.void then endFlight id s else bump (cFwd 12) 5 src (dropFlight id s))
  else
  let held := heldUpTo s src a
  let s1 := bumpBy { cid := cFwd 11, scope := 5, idx := src } (a + 1 - held.length) s
  let s2 := forEach held (fun e s => releaseFrame e.2 s) (setRelease src (r + a + 1) s1)
  releaseRun (stitchHeld s2 + 1) src s2

/-- STITCH_TIMEOUT of a held entry. -/
def execStitchTimeout (frame : Nat) (s : State) : Res :=
  match flightAt s frame with
  | some x => .next (whenever (x.place = .stitch && passed s x.at_ (8 * us)) (stitchSkip frame x) s)
  | none => .fault .noSuchObject

/-! ## Commands on MAC tables (R236 to R239) -/

/-- The key in words 1 to 3 (Table 7.2). -/
def wordsKey (c : Ctx) : MacKey := (fld (c.w 3) 24 16, fld (c.w 2) 27 16, (c.w 1).toNat + fld (c.w 2) 15 0 * 2 ^ 32)

/-- The reserved fields of the key's words. -/
def keyMasks : List Word := [0, 0xF0000000#32, 0x3E000000#32]

/-- The grounds on which a key is refused; word 0 is judged before it (R549). -/
def keyGround (c : Ctx) : Option (Status × List Word) :=
  let k := wordsKey c
  if 256 < k.1 then some (.badParam, [3])
  else if c.world ≠ 0x0100 && k.1 ≠ c.world then some (.badWorld, [])
  else none

/-- The lost slices that lack a key which is static in every other slice: MAC_STATIC_ADD installs it there (R459). -/
def lostSlices (s : State) (k : MacKey) : List Nat :=
  let static (i : Nat) : Bool := match macFind (macAt s i) k with | some x => x.static | none => false
  let lost := (List.range 4).filter fun i => s.halter.lost.contains i
  if (List.range 4).all (fun i => lost.contains i || static i) && lost.length < 4 then lost.filter fun i => !static i else []

/-- The world of a destination: its terminal's, host queue's or group's; infrastructure where it has none. -/
def destWorld (s : State) (dest : Word) : Nat :=
  match destKind dest with
  | 0 => ((termAt s (destIndex dest)).map Terminal.world).getD 0x0100
  | 3 => if (hrqAt s (destIndex dest)).bound = 0xFF then 0x0100 else (hrqAt s (destIndex dest)).world
  | 4 => ((mget s.tm.groups (destIndex dest)).map Group.world).getD 0x0100
  | _ => 0x0100

/-- The static entry of MAC_STATIC_ADD. -/
def staticEntry (c : Ctx) (s : State) : MacEntry :=
  let k := wordsKey c
  { world := k.1, vid := k.2.1, mac := k.2.2, static := true, age := ageNow s, dest := c.w 0 }

/-- Put an entry in a table, in place of a learned one of its key; none where the insertion fails (R232, R237). -/
def macPut (e : MacEntry) (t : MacTable) : Option MacTable :=
  match macFind t e.key with
  | some _ => some (macRewrite t e.key fun _ => e)
  | none => macInsert t e

/-- Put an entry in some slices, each of which has room for it. -/
def putIn (slices : List Nat) (e : MacEntry) (s : State) : State :=
  forEach slices (fun i t => match macPut e (macAt s i) with | some m => setMac i m t | none => t) s

/-- MAC_STATIC_ADD (R237, R459). -/
def runMacStaticAdd (c : Ctx) (s : State) : HRes :=
  let k := wordsKey c
  let e := staticEntry c s
  refuseIf (!destOk (c.w 0)) .badParam [0] <|
  match keyGround c with
  | some (st, ws) => .refuse st ws
  | none =>
    refuseIf ((match c.master with | .vf _ => !serves (destWorld s (c.w 0)) c.world | _ => false)) .badWorld [] <|
    let lost := lostSlices s k
    let into := if lost.isEmpty then [0, 1, 2, 3] else lost
    refuseIf (lost.isEmpty && (List.range 4).any fun i => (macFind (macAt s i) k).any MacEntry.static) .exists [] <|
    refuseIf (into.any fun i => (macPut e (macAt s i)).isNone) .noSpace [] <|
    .done (putIn into e s) []

def opMacStaticAdd : OpSpec :=
  { code := 0x4001, vf := true, home := (0x05, 0), instAll := true, len := exactly 4, rsv := masks (0x0FF00000#32 :: keyMasks),
    stage := .refused, run := runMacStaticAdd }

/-- The slices that SLICE names. -/
def sliceList (n : Nat) : List Nat := if n = 0xF then [0, 1, 2, 3] else [n]

/-- MAC_DELETE (R237). -/
def runMacDelete (c : Ctx) (s : State) : HRes :=
  let k := wordsKey c
  let n := fld (c.w 0) 3 0
  refuseIf (3 < n && n ≠ 0xF) .badParam [0] <|
  match keyGround c with
  | some (st, ws) => .refuse st ws
  | none =>
    refuseIf ((sliceList n).all fun i => (macFind (macAt s i) k).isNone) .notFound [] <|
    .done (forEach (sliceList n) (fun i s => setMac i (macRemove (macAt s i) fun e => e.key = k) s) s) []

def opMacDelete : OpSpec :=
  { code := 0x4002, vf := true, home := (0x05, 0), instAll := true, len := exactly 4, rsv := masks (0xFFFFFFF0#32 :: keyMasks),
    stage := .refused, run := runMacDelete }

/-- The four words of an entry (Table 7.2). -/
def macWords (e : MacEntry) : List Word :=
  [e.dest, lo32 e.mac, pack [(e.vid, 12, 16), (e.mac / 2 ^ 32, 16, 0)],
   pack [(1, 1, 31), (b2n e.static, 1, 30), (e.world, 9, 16), (e.age, 16, 0)]]

/-- MAC_LOOKUP (R239). -/
def runMacLookup (c : Ctx) (s : State) : HRes :=
  let n := fld (c.w 0) 3 0
  refuseIf (3 < n) .badParam [0] <|
  match keyGround c with
  | some (st, ws) => .refuse st ws
  | none =>
    match macFind (macAt s n) (wordsKey c) with
    | some e => .done s (macWords e)
    | none => .refuse .notFound []

def opMacLookup : OpSpec :=
  { code := 0x4003, vf := true, home := (0x05, 0), instAll := true, writes := false, len := exactly 4,
    rsv := masks (0xFFFFFFF0#32 :: keyMasks), stage := .refused, run := runMacLookup }

/-- The port of a terminal: its record's, or the one that its index belongs to (R91). -/
def termPort (s : State) (i : Nat) : Nat := match termAt s i with | some t => t.port | none => i / 512

/-- A learned entry falls within the scope of MAC_FLUSH (Table 7.10). -/
def flushes (c : Ctx) (s : State) (e : MacEntry) : Bool :=
  let v := fld (c.w 0) 15 0
  !e.static && (c.world = 0x0100 || e.world = c.world) &&
    (match fld (c.w 0) 31 30 with
     | 0 => e.dest = c.w 1
     | 1 => e.world = v
     | 2 => true
     | _ => destKind e.dest = 0 && termPort s (destIndex e.dest) = v)

/-- MAC_FLUSH (R237, R239). -/
def runMacFlush (c : Ctx) (s : State) : HRes :=
  let sc := fld (c.w 0) 31 30
  let v := fld (c.w 0) 15 0
  refuseIf (sc = 0 && !destOk (c.w 1)) .badParam [1] <|
  refuseIf ((sc = 3 && 63 < v) || (sc = 1 && !worldCode v)) .badParam [0] <|
  refuseIf (sc = 1 && c.world ≠ 0x0100 && v ≠ c.world) .badWorld [] <|
  let n := ((List.range 4).map fun i => ((macEntries (macAt s i)).filter (flushes c s)).length).foldl (· + ·) 0
  .done (forBelow 4 (fun i t => setMac i (macRemove (macAt t i) (flushes c s)) t) s) [wd n]

/-- The reserved fields of MAC_FLUSH, those that its SCOPE does not use included (R550). -/
def macFlushRsv (ws : List Word) : Option Nat :=
  let sc := fld (nthW ws 0) 31 30
  masks [if sc = 0 || sc = 2 then 0x3FFFFFFF#32 else 0x3FFF0000#32, if sc = 0 then 0x0FF00000#32 else 0xFFFFFFFF#32] ws

def opMacFlush : OpSpec :=
  { code := 0x4004, vf := true, home := (0x05, 0), instAll := true, len := exactly 2, rsv := macFlushRsv, stage := .refused,
    run := runMacFlush }

/-- AGEING_CONFIG (R236). -/
def runAgeingConfig (c : Ctx) (s : State) : HRes :=
  let world := fld (c.w 0) 15 0
  let a := fld (c.w 2) 31 16
  let sc := fld (c.w 2) 15 0
  let b := s.rules.bank
  let a' := if a = 0 then b.ageS else a
  let sc' := if sc = 0 then b.scanS else sc
  let g : LearnCfg := { enable := bit (c.w 0) 31, limit := fld (c.w 1) 19 0 }
  refuseIf (!worldCode world && world ≠ 0xFFFF) .badParam [0] <|
  refuseIf (524288 < g.limit) .badParam [1] <|
  refuseIf (32767 < a' + sc' || (a ≠ 0 && a < 10)) .badParam [2] <|
  let ws := if world = 0xFFFF then List.range 257 else [world]
  .done { s with rules := { s.rules with bank := { b with
    learn := ws.foldl (fun m w => mset m w g) b.learn, ageS := a', scanS := sc' } } } []

def opAgeingConfig : OpSpec :=
  { code := 0x4005, home := (0x05, 1), instAll := true, oWorld := true, len := exactly 3,
    rsv := masks [0x7FFF0000#32, 0xFFF00000#32], stage := .stageable,
    objs := fun ws => ((if fld (nthW ws 0) 15 0 = 0xFFFF then List.range 257 else [fld (nthW ws 0) 15 0]).map fun w => (0x4005, w))
      ++ (if fld (nthW ws 2) 31 16 = 0 then [] else [(0x4005, 70000)]) ++ (if fld (nthW ws 2) 15 0 = 0 then [] else [(0x4005, 70001)]),
    run := runAgeingConfig }

/-! ## LPM commands (R243 to R245) -/

/-- The units that every table takes (R243). -/
def lpmUnits (m : Map Nat Lpm) : Nat :=
  (m.map fun e => (e.2.prefixes.map fun p => if p.v6 then 2 else 1).foldl (· + ·) 0).foldl (· + ·) 0

/-- The prefix of Table 7.7's words; an error gives the word at fault (R243, R244). -/
def prefixOf (ws : List Word) : Except Nat Prefix :=
  let v6 := bit (nthW ws 0) 0
  let len := fld (nthW ws 0) 15 8
  let addr := if v6 then (nthW ws 1).toNat * 2 ^ 32 + (nthW ws 2).toNat else (nthW ws 1).toNat
  let n := if v6 then 64 else 32
  if n < len then .error 0
  else if addr % 2 ^ (n - len) ≠ 0 then .error (if v6 && addr / 2 ^ 32 % 2 ^ (32 - min 32 len) = 0 then 2 else 1)
  else .ok { v6 := v6, len := len, addr := addr, nhMac := (nthW ws 5).toNat + fld (nthW ws 6) 15 0 * 2 ^ 32,
             nhVid := fld (nthW ws 6) 27 16 }

/-- The same prefix. -/
def samePrefix (a b : Prefix) : Bool := a.v6 = b.v6 && a.len = b.len && a.addr = b.addr

/-- Add a prefix or replace its result. -/
def putPrefix (l : List Prefix) (p : Prefix) : List Prefix :=
  if l.any (samePrefix p) then l.map fun x => if samePrefix p x then p else x else l ++ [p]

/-- LPM_ADD and LPM_DELETE (R244). -/
def runLpm (delete : Bool) (c : Ctx) (s : State) : HRes :=
  let table := fld (c.w 0) 31 16
  refuseIf (!worldCode table) .badParam [0] <|
  refuseIf (c.world ≠ 0x0100 && table ≠ c.world) .badWorld [] <|
  match prefixOf c.words, mget s.rules.lpm table with
  | .error i, _ => .refuse .badParam [wd i]
  | .ok _, none => .refuse .notFound []
  | .ok p, some t =>
    let put (l : List Prefix) : HRes :=
      let m := mset s.rules.lpm table { t with prefixes := l }
      refuseIf (1048576 < lpmUnits m) .noSpace [] <| .done { s with rules := { s.rules with lpm := m } } []
    if delete then
      refuseIf (!t.prefixes.any (samePrefix p)) .notFound [] <| put (t.prefixes.filter fun x => !samePrefix p x)
    else put (putPrefix t.prefixes p)

/-- The reserved fields of Table 7.7; PFX_2 of an IPv4 prefix is unused (R550). -/
def lpmRsv (ws : List Word) : Option Nat :=
  masks [0x000000FE#32, 0, if bit (nthW ws 0) 0 then 0 else 0xFFFFFFFF#32, 0xFFFFFFFF#32, 0xFFFFFFFF#32, 0, 0xF0000000#32] ws

def opLpmAdd : OpSpec :=
  { code := 0x4006, vf := true, home := (0x05, 2), instAll := true, len := exactly 7, rsv := lpmRsv, stage := .refused,
    run := runLpm false }
def opLpmDelete : OpSpec :=
  { code := 0x4007, vf := true, home := (0x05, 2), instAll := true, len := exactly 5, rsv := lpmRsv, stage := .refused,
    run := runLpm true }

/-- The records of an image, or the index of the first that breaks R244. -/
def lpmRecords (table n at_ : Nat) (d : List Byte) (l : List Prefix) : Except Nat (List Prefix) :=
  match n with
  | 0 => .ok l
  | k + 1 =>
    let ws := wordsOfBytes 8 d
    match prefixOf ws with
    | .error _ => .error at_
    | .ok p =>
      if fld (nthW ws 0) 31 16 ≠ table || (lpmRsv ws).isSome || nthW ws 7 ≠ 0 then .error at_
      else lpmRecords table k (at_ + 1) (d.drop 32) (putPrefix l p)

/-- The prefixes that the first `n` records of an image carry, those that break R244 left out. -/
def lpmCarried (n : Nat) (d : List Byte) (l : List Prefix) : List Prefix :=
  match n with
  | 0 => l
  | k + 1 => lpmCarried k (d.drop 32) (match prefixOf (wordsOfBytes 8 d) with | .ok p => putPrefix l p | .error _ => l)

/-- The units that the records of an image would take. -/
def lpmNeed (d : List Byte) : Nat :=
  lpmUnits [(0, { routerMac := 0, prefixes := lpmCarried (min (wordAt d 0x0C).toNat ((d.length - 64) / 32)) (d.drop 64) [] })]

/-- LPM_LOAD (R245). -/
def runLpmLoad (c : Ctx) (s : State) : HRes :=
  let table := fld (c.w 0) 15 0
  let d := c.data
  let n := (wordAt d 0x0C).toNat
  refuseIf (!c.hasData || !worldCode table) .badParam [0] <|
  refuseIf (c.world ≠ 0x0100 && table ≠ c.world) .badWorld [] <|
  refuseIf (1048576 < lpmUnits s.rules.lpm + lpmNeed d) .noSpace [] <|
  refuseIf (d.length < 64 || wordAt d 0 ≠ 0x4C504D54#32 || wordAt d 4 ≠ 1 || (wordAt d 8).toNat ≠ table
    || d.length ≠ 64 + 32 * n || crc32 (d.drop 0x1C) ≠ wordAt d 0x18) .imageInvalid [] <|
  refuseIf (1048576 < n || (slice d 0x1C 36).any (· ≠ 0) || fld (wordAt d 0x14) 31 16 ≠ 0) .badParam [0] <|
  match lpmRecords table n 0 (d.drop 64) [] with
  | .error i => .refuse .badParam [0, wd i]
  | .ok l =>
    let new : Lpm := { routerMac := (wordAt d 0x10).toNat + fld (wordAt d 0x14) 15 0 * 2 ^ 32, prefixes := l }
    .done { s with rules := { s.rules with lpm := mset s.rules.lpm table new } } []

def opLpmLoad : OpSpec :=
  { code := 0x4008, home := (0x05, 2), instAll := true, len := exactly 1, rsv := masks [0xFFFF0000#32], stage := .refused,
    run := runLpmLoad }

/-! ## STITCH_CONFIG (R247) -/

/-- The entries of the current epoch that Stitch holds for a SOURCE, in SEQ order. -/
def heldNow (s : State) (src : Nat) : List (Nat × Nat) :=
  (heldUpTo s src (2 ^ 20)).filter fun e => match flightAt s e.2 with
    | some x => x.frame.epoch = s.epoch.current.toNat
    | none => false

/-- STITCH_CONFIG. A SOURCE whose ENABLE becomes 1 releases from the SEQ that comes next. Where its ENABLE becomes 0 the entries that
Stitch holds for it under the current epoch pass at once, in SEQ order, since R247 passes its frames on arrival and does not say what
becomes of those held (DESIGN CHOICE: log entry 184); those of the previous epoch finish under theirs. -/
def runStitchConfig (c : Ctx) (s : State) : HRes :=
  let src := fld (c.w 0) 7 0
  let en := bit (c.w 0) 31
  refuseIf (84 < src) .badParam [0] <|
  let was := mgetD s.rules.bank.stitch src true
  let s1 := { s with rules := { s.rules with bank := { s.rules.bank with stitch := mset s.rules.bank.stitch src en } } }
  if en && !was then
    .done (setRelease src (mgetD s.rules.nextSeq src 0)
      { s1 with rules := { s1.rules with passedTo := mdel s1.rules.passedTo src } }) []
  else if was && !en then
    .done (forEach (heldNow s src) (fun e t => releaseFrame e.2 (seenSeq src (releasePoint s src + e.1) t)) s1) []
  else .done s1 []

def opStitchConfig : OpSpec :=
  { code := 0x4009, home := (0x04, 5), oWorld := true, len := exactly 1, rsv := masks [0x7FFFFF00#32], stage := .stageable,
    objs := fun ws => [(0x4009, fld (nthW ws 0) 7 0)], run := runStitchConfig }

end Sys2Proof.Machine
end

