-- ==== Sys2Proof/Machine/Epoch.lean ====
section
/-! DEFINITION. The epoch commit but for what applies staged content (R70 to R76, R544): staging, arming, aborting and
draining. -/

namespace Sys2Proof.Machine

/-- The epoch of the commit (R544). -/
def commitEpoch (s : State) : Option (BitVec 16) :=
  match s.epoch.phase with
  | .none => none
  | .draining => some s.epoch.current
  | _ => some s.epoch.staged

/-- The EPOCH of Table 2.12. -/
def epochOf (c : Ctx) : BitVec 16 := BitVec.ofNat 16 (fld (c.w 0) 15 0)

/-- Run an epoch command that names the epoch of the commit (R544, item 3). -/
def onCommit (c : Ctx) (s : State) (k : HRes) : HRes :=
  refuseIf (commitEpoch s ≠ some (epochOf c)) .badParam [0] k

/-- The masks of word 0: KIND is reserved but for EPOCH_ACTIVATE (R550). -/
def epochRsv (ws : List Word) : Option Nat := masks [0xFFFF0000#32] ws

/-- EPOCH_STAGE (R544, items 1 and 2). -/
def runEpochStage (c : Ctx) (s : State) : HRes :=
  refuseIf (s.halter.stage = .halter) .notPermitted [] <|
  refuseIf (s.epoch.phase ≠ .none) .epochBusy [] <|
  refuseIf (epochOf c ≠ s.epoch.current + 1) .badParam [0] <|
  .done { s with epoch := { s.epoch with phase := .staged, staged := epochOf c, cmds := [] } } []

def opEpochStage : OpSpec :=
  { code := 0x0004, writes := false, oWorld := true, home := (0x0C, 0), len := exactly 1, rsv := epochRsv, run := runEpochStage }

/-- The activation point of EPOCH_ACTIVATE: a count, or nanoseconds of the time counter. -/
def actPoint (c : Ctx) : Nat :=
  if bit (c.w 0) 31 then join64 (c.w 1) (c.w 2) * 1000000000 + (c.w 3).toNat else join64 (c.w 1) (c.w 2)

/-- The point lies under 500 µs or over 60 s ahead: for a count, outside 4 to 480,000 counts ahead (R76). -/
def pointOutside (c : Ctx) (s : State) : Bool :=
  if bit (c.w 0) 31 then
    let p := actPoint c * nsUnit
    p < s.time.tc + 500000 * nsUnit || s.time.tc + 60000000000 * nsUnit < p
  else actPoint c < s.time.sfc + 4 || s.time.sfc + 480000 < actPoint c

/-- EPOCH_ACTIVATE (R70, R76, R544). -/
def runEpochActivate (c : Ctx) (s : State) : HRes :=
  refuseIf (s.halter.stage = .halter) .notPermitted [] <|
  onCommit c s <|
  refuseIf (s.epoch.phase ≠ .prepared) .epochBusy [] <|
  refuseIf (bit (c.w 0) 31 && 999999999 < (c.w 3).toNat) .badParam [3] <|
  refuseIf (pointOutside c s) .actTooSoon [] <|
  .done { s with epoch := { s.epoch with phase := .armed, kind := fld (c.w 0) 31 31, point := actPoint c } } []

/-- Word 3 must be 0 for a superframe count (Table 2.12). -/
def activateRsv (ws : List Word) : Option Nat :=
  masks [0x7FFF0000#32, 0, 0, if bit (nthW ws 0) 31 then 0 else BitVec.allOnes 32] ws

def opEpochActivate : OpSpec :=
  { code := 0x0006, writes := false, oWorld := true, home := (0x0C, 0), len := exactly 4, rsv := activateRsv, run := runEpochActivate }

/-- EPOCH_ABORT (R74, R544). -/
def runEpochAbort (c : Ctx) (s : State) : HRes :=
  onCommit c s <|
  refuseIf (s.epoch.phase = .draining || (s.epoch.phase = .armed && !epochMayAbort s)) .tooLate [] <|
  .done (discardEpoch s) []

def opEpochAbort : OpSpec :=
  { code := 0x0007, writes := false, oWorld := true, home := (0x0C, 0), len := exactly 1, rsv := epochRsv, run := runEpochAbort }

/-! ## Draining (R33, R75) -/

/-- The previous epoch is released: its bank goes, EPOCH_DRAINED is sent, and the state returns to NONE. -/
def releaseEpoch (dropped : Nat) (s : State) : State :=
  let prev := (s.epoch.previous.getD 0).toNat
  let s0 := settleSeqs s
  let s1 := { s0 with epoch := { s.epoch with phase := .none, previous := none, inFlightPrev := 0 },
                      rules := { s0.rules with prev := {} }, cipher := { s.cipher with prev := {} } }
  notify .epochDrained [pack [(prev, 16, 16), (s.epoch.current.toNat, 16, 0)], wd (min 0xFFFFFFFF dropped)] s1

/-- EPOCH_DRAINED: the previous epoch's in-flight count is zero. -/
def execEpochDrained (s : State) : Res :=
  .next (whenever (s.epoch.phase = .draining && s.epoch.inFlightPrev = 0) (releaseEpoch 0) s)

/-- EPOCH_DRAIN_LATE: 1 ms after activation frames of the previous epoch remain. They are dropped and counted, a deferred
error is reported, and the epoch is released (R75). -/
def drainLate (s : State) : State :=
  let mine := (s.pkt.flights.filter fun e => !e.2.void && e.2.frame.epoch ≠ s.epoch.current.toNat).map Prod.fst
  let s1 := forEach mine (dropCounted cDropEpoch 0 0) s
  releaseEpoch (max 1 mine.length) (raise 0x04 0 0 0 0x0410 1 (wd mine.length) s1)

def execEpochDrainLate (s : State) : Res :=
  .next (whenever (s.epoch.phase = .draining && s.epoch.inFlightPrev ≠ 0 && passed s s.epoch.mark ms) drainLate s)

end Sys2Proof.Machine
end

