-- ==== Sys2Proof/Machine/Ingress.lean ====
section
/-! DEFINITION. Frames at their ingress units, and MACsec on reception and transmission (chapter 9, R17, R22, R30). -/

namespace Sys2Proof.Machine

/-! ## The ingress unit -/

/-- The secured point at which a frame of a SOURCE is received (R286, R303). -/
def rxPoint (source card : Nat) : Option Nat :=
  if 64 ≤ source && source < 80 then some (source - 64) else if source = 80 || source = 81 then some (16 + card) else none

/-- The EtherType after the addresses. -/
def etherType (bs : List Byte) : Nat := beNat (slice bs 12 2)

/-- The length of the SecTAG of a frame, its EtherType included (R295): 16 with an SCI, else 8. -/
def tagLen (bs : List Byte) : Nat := if (bs.getD 14 0).getLsbD 5 then 16 else 8

/-- A frame arrives tagged at a point that is secured for receive (R297). -/
def taggedAt (s : State) (source card : Nat) (bs : List Byte) : Bool :=
  (match rxPoint source card with | some p => secured s p 1 | none => false) && etherType bs = 0x88E5

/-- The length that R22 judges: at a secured point that of the frame without its SecTAG and ICV. -/
def judgedLen (s : State) (source card : Nat) (bs : List Byte) : Nat :=
  if taggedAt s source card bs then bs.length - (tagLen bs + 16) else bs.length

/-- The array admits a frame: a key fetch, the frame, and its 16-byte blocks (Table 17.6). -/
def arrayWork (world len : Nat) (s : State) : State :=
  countEvent 0x47 0x100 world ((len + 15) / 16) (countEvent 0x47 0x101 world 1 (countEvent 0x47 0x102 world 1 s))

/-- A frame completes at its ingress unit: it is dropped for its length or for want of room, or stamped and sent to the
cipher array or the distributor (R17, R22, R30). `fits` says that the ingress buffer has room for the whole frame. -/
def ingress (x : Flight) (fits : Bool) (s : State) : State :=
  let f := x.frame
  let n := judgedLen s f.source f.card f.bytes
  if n < 64 || 12288 < n then bumpW cDropLength 5 f.source f.world s
  else if !fits then bumpW cDropIngress 5 f.source f.world s
  else
    let sec := match rxPoint f.source f.card with | some p => secured s p 1 | none => false
    launch { x with frame := { f with len := f.bytes.length }, place := if sec then .array else .ingress } s

/-! ## Keys and nonces (R290, R295) -/

/-- The key bytes that a suite uses of a slot: bits [127:0] for a 128-bit suite. -/
def suiteKey (suite : Nat) (body : List Byte) : List Byte :=
  if (suite = 0 || suite = 2) && 16 < body.length then body.drop (body.length - 16) else body

/-- The nonce of a frame: the SCI and the 32-bit PN, or for XPN suites the SSCI and the 64-bit PN XORed with the salt. -/
def nonce (x : Channel) (a : Assoc) (pn : Nat) : List Byte :=
  if isXpn x.suite then
    xorBytes (beBytes 4 a.ssci.toNat ++ beBytes 8 pn)
      (beBytes 4 a.salt2.toNat ++ beBytes 4 a.salt1.toNat ++ beBytes 4 a.salt0.toNat)
  else beBytes 4 x.sciHi.toNat ++ beBytes 4 x.sciLo.toNat ++ beBytes 4 pn

/-- The confidentiality offset in bytes (Table 9.5). -/
def offsetBytes (code : Nat) : Nat := match code with | 1 => 30 | 2 => 50 | _ => 0

/-! ## Receive processing (R297 to R302) -/

/-- The counters of Table 9.10 by position. -/
def cEnc (pos : Nat) : Nat := cid 9 10 pos

/-- The channels of a point on receive. -/
def rxChannelBy (s : State) (point : Nat) (p : Channel → Bool) : Option (Nat × Channel) :=
  mfind s.cipher.channels fun _ x => x.point = point && x.rx && p x

/-- The point's IMPLICIT channel. -/
def implicitChannel (s : State) (point : Nat) : Option (Nat × Channel) := rxChannelBy s point Channel.implicit

/-- The channel of a tagged frame (R297). -/
def rxChannel (s : State) (point : Nat) (bs : List Byte) : Option (Nat × Channel) :=
  let tci := bs.getD 14 0
  let bySci (hi lo : Nat) := rxChannelBy s point fun x => x.sciHi = wd hi && x.sciLo = wd lo
  if tci.getLsbD 5 then bySci (beNat (slice bs 20 4)) (beNat (slice bs 24 4))
  else if tci.getLsbD 6 then bySci (beNat (slice bs 6 4)) (beNat (slice bs 10 2) * 65536 + 1)
  else implicitChannel s point

/-- The VALIDATE under which frames without a channel are judged (R297). -/
def pointValidate (s : State) (point : Nat) : Nat :=
  match implicitChannel s point with | some (_, x) => x.validate | none => 2

/-- The bytes that a SecTAG protects: those between the tag and the ICV. -/
def secureData (bs : List Byte) : List Byte :=
  let n := 12 + tagLen bs
  slice bs n (bs.length - n - 20)

/-- A SecTAG is malformed under the standard's rules (IEEE 802.1AE): V set; SC together with ES or SCB; the upper bits of
SL set; a PN of 0; or a length that SL does not fit. PRESUMED: log entry 30. -/
def badTag (bs : List Byte) : Bool :=
  let tci := bs.getD 14 0
  let sl := (bs.getD 15 0).toNat
  let n := bs.length - (12 + tagLen bs) - 20
  tci.getLsbD 7 || (tci.getLsbD 5 && (tci.getLsbD 6 || tci.getLsbD 4)) || 64 ≤ sl || beNat (slice bs 16 4) = 0
    || bs.length < 12 + tagLen bs + 20 || (sl ≠ 0 && (48 ≤ sl || n ≠ sl)) || (sl = 0 && n < 48)

/-- The frame without its SecTAG and ICV, with data in place of its secure data and a new FCS. -/
def untag (bs data : List Byte) : List Byte := withFcs (bs.take 12 ++ data ++ [0, 0, 0, 0])

/-- The PN of a frame: the tag's 32 bits, or for XPN the 64 bits recovered with NEXT_PN (R299). -/
def framePn (x : Channel) (a : Assoc) (bs : List Byte) : Nat :=
  let lo := beNat (slice bs 16 4)
  if isXpn x.suite then
    let hi := a.nextPn / 2 ^ 32
    (if a.nextPn.testBit 31 && lo < 2 ^ 31 then hi + 1 else hi) * 2 ^ 32 + lo
  else lo

/-- The lowest acceptable PN of an association (R299). -/
def lowestPn (x : Channel) (a : Assoc) (an : Nat) : Nat :=
  let w := max 1 (a.nextPn - x.window)
  if channelAn x = an then max w x.lowest else w

/-- What a frame's ICV says, and its plain bytes (R298). -/
def openFrame (x : Channel) (a : Assoc) (pn : Nat) (key bs : List Byte) : Bool × List Byte :=
  let data := secureData bs
  let head := bs.take (12 + tagLen bs)
  let icv := slice bs (bs.length - 20) 16
  let k := suiteKey x.suite key
  let n := nonce x a pn
  if (bs.getD 14 0).getLsbD 2 then
    let o := offsetBytes x.offset
    let aad := head ++ data.take o
    (Config.gcmValid k n aad (data.drop o) icv, untag bs (data.take o ++ Config.gcmPlain k n aad (data.drop o)))
  else (Config.gcmValid k n (head ++ data) [] icv, untag bs data)

/-- A count of a receive channel, or of the point where the frame has no channel (R314). -/
def bumpRx (pos : Nat) (ch : Option (Nat × Channel)) (point : Nat) (s : State) : State :=
  match ch with
  | some (i, x) => bumpW (cEnc pos) 4 i x.world s
  | none => bump (cEnc pos) 1 point s

/-- Deliver a frame of the array to the distributor. -/
def arrayDeliver (id : Nat) (x : Flight) (bytes : List Byte) (sec : Bool) (s : State) : State :=
  setFlight id { x with place := .ingress, frame := { x.frame with bytes := bytes, len := bytes.length, secured := sec } } s

/-- The constraint that a channel puts on a frame's world (R302). -/
def chanWorld (x : Channel) : Option Nat := if x.world = 0x0100 then none else some x.world

/-- A tagged frame without a channel or association for its AN (Table 9.7, row 3), at a point of VALIDATE `v`. -/
def noAssoc (id point v : Nat) (x : Flight) (ch : Option (Nat × Channel)) (s : State) : State :=
  let bs := x.frame.bytes
  let c := (bs.getD 14 0).getLsbD 2
  if v = 2 || (v = 1 && c) then dropFlight id (bumpRx 14 ch point s)
  else
    let s1 := bumpRx 13 ch point s
    if c then arrayDeliver id x bs false s1 else arrayDeliver id x (untag bs (secureData bs)) true s1

/-- An admission latches the generation of the association's slot, in every bank that holds the installation (Table 9.6). -/
def latchGen (k order gen : Nat) (m : Map Nat Assoc) : Map Nat Assoc :=
  match mget m k with
  | some a => if a.order = order then mset m k { a with gen := gen } else m
  | none => m

/-- Admit a tagged frame (R282, R300, R301): in store-and-forward it is held until its verdict; in cut-through it goes on
with its plain bytes. -/
def admitRx (id point i an : Nat) (cut : Bool) (x : Flight) (c : Channel) (a : Assoc) (s : State) : State :=
  let bs := x.frame.bytes
  let pn := framePn c a bs
  let gen := (slotAt s a.slot).gen
  let (ok, plain) := openFrame c a pn (slotBytes s a.slot) bs
  let y : Admitted :=
    { traffic := if cut then .rxCut else .rxHeld, slot := a.slot, gen := gen, at_ := s.mono, chan := i,
      world := c.world, frame := id, bytes := bs, plain := plain, assoc := i * 4 + an, pn := pn, valid := ok,
      validate := c.validate, cbit := (bs.getD 14 0).getLsbD 2, low := lowestPn c a an, point := point, order := a.order }
  let latch := latchGen (i * 4 + an) a.order gen
  let s0 := { s with cipher := { s.cipher with inPipes := s.cipher.inPipes ++ [y], assocs := latch s.cipher.assocs,
                                                prev := { s.cipher.prev with assocs := latch s.cipher.prev.assocs } } }
  let s1 := arrayWork c.world bs.length (frameIn 0x47 c.world bs.length s0)
  let f := x.frame
  if cut then
    let g := { f with bytes := plain, len := plain.length, secured := true, cut := true, wait := true }
    setFlight id { x with place := .ingress, chan := chanWorld c, frame := g } s1
  else setFlight id { x with place := .held, chan := chanWorld c, frame := { f with secured := true } } s1

/-- The array's receive configuration as a frame's EPOCH selects it (R31): `s` with that bank in place of the current one. -/
def rxView (s : State) (f : Frame) : State :=
  if s.epoch.previous.any fun e => f.epoch = e.toNat then
    { s with cipher := { s.cipher with channels := s.cipher.prev.channels, assocs := s.cipher.prev.assocs, reserve := s.cipher.prev.reserve } }
  else s

/-- A frame at a secured receive point is judged in the order of Table 9.7. -/
def macsecReceive (id point : Nat) (x : Flight) (s : State) : State :=
  let v := rxView s x.frame
  let bs := x.frame.bytes
  if etherType bs ≠ 0x88E5 then
    let ch := implicitChannel v point
    if pointValidate v point = 2 then dropFlight id (bumpRx 15 ch point s)
    else arrayDeliver id { x with chan := (ch.map fun e => chanWorld e.2).getD none } bs false (bumpRx 16 ch point s)
  else
    let ch := rxChannel v point bs
    let an := (bs.getD 14 0).toNat % 4
    if badTag bs then dropFlight id (bumpRx 17 ch point s)
    else match ch with
    | none => noAssoc id point (pointValidate v point) x none s
    | some (i, c) =>
      let y := { x with chan := chanWorld c }
      match mget v.cipher.assocs (i * 4 + an) with
      | none => noAssoc id point c.validate y ch s
      | some a =>
        if !engineUse s a.slot c.world useDecrypt (wideSuite c.suite) then noAssoc id point c.validate y ch s
        else if c.validate ≠ 0 && c.replay && framePn c a bs < lowestPn c a an then dropFlight id (bumpRx 12 ch point s)
        else admitRx id point i an (reserveAt v point 1).cut y c a s

/-- MACSEC_RECEIVE: the array takes a frame of a secured receive point, unless an alarm holds admission (R313). A poisoned frame is
discarded (R16), and one whose EPOCH matches neither bank is dropped (R34). -/
def execMacsecReceive (frame : Nat) (s : State) : Res :=
  match flightAt s frame with
  | some x =>
    match rxPoint x.frame.source x.frame.card with
    | some p => .next (whenever (x.place = .array && admits s 0)
        (if x.frame.poison then dropCounted cDropChannel 9 0x47 frame
         else if (bankOf s x.frame).isNone then dropEpoch frame else macsecReceive frame p x) s)
    | none => .next s
  | none => .fault .noSuchObject

/-- A bank's channels and associations after a frame that passed its ICV: NEXT_PN, and the latest AN. An association that has replaced the frame's own
since its admission is not touched (R294, R299). -/
def acceptIn (y : Admitted) (chs : Map Nat Channel) (as : Map Nat Assoc) : Map Nat Channel × Map Nat Assoc :=
  let an := y.assoc % 4
  match mget as y.assoc, mget chs y.chan with
  | some a, some c =>
    let order (n : Nat) : Nat := ((mget as (y.chan * 4 + n)).map Assoc.order).getD 0
    let c' := if channelAn c ≠ an && order (channelAn c) < a.order then { c with an := some an, lowest := 0 } else c
    if a.order = y.order then (mset chs y.chan c', mset as y.assoc { a with nextPn := max a.nextPn (y.pn + 1) }) else (chs, as)
  | _, _ => (chs, as)

/-- A frame passed its ICV: every bank that holds its association (R31, R299). -/
def acceptPn (y : Admitted) (s : State) : State :=
  let now := acceptIn y s.cipher.channels s.cipher.assocs
  let was := acceptIn y s.cipher.prev.channels s.cipher.prev.assocs
  { s with cipher := { s.cipher with channels := now.1, assocs := now.2,
                                      prev := { s.cipher.prev with channels := was.1, assocs := was.2 } } }

/-- A held frame is delivered with its plain bytes; a frame in cut-through goes on to its normal end. -/
def verdictDeliver (y : Admitted) (s : State) : State :=
  if y.traffic = .rxCut then cutEnd y.frame y.chan y.world true s
  else match flightAt s y.frame with
  | some x => if x.place = .held then arrayDeliver y.frame x y.plain true s else s
  | none => s

/-- The frame's cells are freed, or it ends poisoned. -/
def verdictDrop (y : Admitted) (s : State) : State :=
  if y.traffic = .rxCut then cutEnd y.frame y.chan y.world false s else dropFlight y.frame s

/-- The verdict of an admitted frame (Table 9.7, rows 5 to 7). -/
def verdict (y : Admitted) (s : State) : State :=
  let count (pos : Nat) (s : State) : State := bumpW (cEnc pos) 4 y.chan y.world s
  let octets (s : State) : State :=
    bumpBy { cid := cEnc 18, scope := 4, idx := y.chan, world := y.world } (secureData y.bytes).length s
  if y.validate = 0 then verdictDeliver y (count 8 s)
  else if y.valid then
    let late := y.pn < y.low
    verdictDeliver y (acceptPn y (octets (count (if late then 9 else 7) s)))
  else if y.validate = 2 || y.cbit then verdictDrop y (count 11 s)
  else verdictDeliver y (count 10 s)

/-- Remove a frame from the pipes. -/
def leavePipes (p : Admitted → Bool) (s : State) : State :=
  { s with cipher := { s.cipher with inPipes := s.cipher.inPipes.filter fun a => !p a } }

/-- An admitted frame is a received one. -/
def isRx (y : Admitted) : Bool := y.traffic = .rxHeld || y.traffic = .rxCut

/-- MACSEC_VERDICT of a received frame in the array. -/
def execMacsecVerdict (frame : Nat) (s : State) : Res :=
  match s.cipher.inPipes.find? fun y => isRx y && y.frame = frame with
  | some y => .next (verdict y (leavePipes (fun a => isRx a && a.frame = frame) s))
  | none => .fault .noSuchObject

/-! ## Transmit processing (R295, R296) -/

/-- The SecTAG of a transmit channel for a PN (R295): `n` is the length of the secure data. -/
def secTag (x : Channel) (an pn n : Nat) : List Byte :=
  let tci := b2n x.es * 64 + b2n x.scTag * 32 + b2n x.scb * 16 + b2n x.conf * 12 + an
  beBytes 2 0x88E5 ++ [BitVec.ofNat 8 tci, BitVec.ofNat 8 (if n < 48 then n else 0)] ++ beBytes 4 (pn % 2 ^ 32)
    ++ (if x.scTag then beBytes 4 x.sciHi.toNat ++ beBytes 4 x.sciLo.toNat else [])

/-- The frame that leaves protected (R295). -/
def sealFrame (x : Channel) (a : Assoc) (an : Nat) (key bs : List Byte) : List Byte :=
  let body := bs.take (bs.length - 4)
  let data := body.drop 12
  let head := body.take 12 ++ secTag x an a.nextPn data.length
  let k := suiteKey x.suite key
  let n := nonce x a a.nextPn
  let o := if x.conf then offsetBytes x.offset else data.length
  let (c, icv) := Config.gcmSeal k n (head ++ data.take o) (data.drop o)
  withFcs (head ++ data.take o ++ (if x.conf then c else []) ++ icv ++ [0, 0, 0, 0])

/-- The last PN of a suite. -/
def lastPn (suite : Nat) : Nat := if isXpn suite then 2 ^ 64 - 1 else 2 ^ 32 - 1

/-- The PN at which the warning is given (Table 9.6). -/
def warnPn (x : Channel) (a : Assoc) : Nat :=
  if a.pnWarn ≠ 0 then a.pnWarn else if isXpn x.suite then 0xC000000000000000 else 0xC0000000

/-- NEXT_PN rises by 1: the warning, once, and the stop at the last PN (R296). -/
def raisePn (x : Channel) (k : Nat) (a : Assoc) (s : State) : State :=
  let stop := lastPn x.suite ≤ a.nextPn
  let n := if stop then a.nextPn else a.nextPn + 1
  let warn := !a.warned && warnPn x a ≤ n
  let a' := { a with nextPn := n, warned := a.warned || warn, exhausted := stop }
  let s1 := { s with cipher := { s.cipher with assocs := mset s.cipher.assocs k a' } }
  let s2 := if warn then stateChange 0x0601 [wd k] s1 else s1
  if stop then stateChange 0x0602 [wd k] s2 else s2

/-- Take the next frame of a secured transmit point and protect it (R295). -/
def macsecTransmit (point : Nat) (f : Frame) (s : State) : State :=
  match txChannel s point f.world with
  | none => bumpBy { cid := cEnc 3, scope := 1, idx := point, world := f.world } 1 s
  | some (i, x) =>
    let an := channelAn x
    let k := i * 4 + an
    let count (pos n : Nat) (s : State) : State := bumpBy { cid := cEnc pos, scope := 4, idx := i, world := x.world } n s
    match mget s.cipher.assocs k with
    | none => count 4 1 s
    | some a =>
      if a.exhausted then count 5 1 s
      else if !engineUse s a.slot x.world useEncrypt (wideSuite x.suite) then count 4 1 s
      else
        let gen := (slotAt s a.slot).gen
        let y : Admitted :=
          { traffic := if point < 16 then .txUplink point else .txCard (point - 16) (f.cls / 8), slot := a.slot,
            gen := gen, at_ := s.mono, chan := i, world := x.world, frame := f.num, cbit := x.conf, octets := f.bytes.length - 16,
            bytes := sealFrame x a an (slotBytes s a.slot) f.bytes }
        let s1 := raisePn x k { a with gen := gen } s
        frameIn 0x47 x.world f.bytes.length <| arrayWork x.world f.bytes.length
          { s1 with cipher := { s1.cipher with inPipes := s1.cipher.inPipes ++ [y] } }

/-- MACSEC_TRANSMIT: the array takes the next frame that waits for a point, unless an alarm holds admission (R313). A poisoned frame is
discarded (R16). -/
def execMacsecTransmit (point : Nat) (s : State) : Res :=
  onObject (point < 80) <|
    match mgetD s.tm.egress point [] with
    | [] => s
    | f :: rest =>
      if !admits s 0 then s
      else (if f.poison then bumpW cDropChannel 9 0x47 f.world else macsecTransmit point f)
        { s with tm := { s.tm with egress := mset s.tm.egress point rest } }

/-- A frame of a transmit channel is sent: it is counted with the octets protected (Table 9.10). -/
def countSent (y : Admitted) (s : State) : State :=
  let count (pos n : Nat) (s : State) : State := bumpBy { cid := cEnc pos, scope := 4, idx := y.chan, world := y.world } n s
  count (if y.cbit then 1 else 0) 1 (count 2 y.octets s)

/-- A frame leaves the array for its uplink port, its fabric side or its PON frame; a received one gets its verdict. One that a channel has
poisoned is discarded at that port, side or port unit (R16), where idle frames take its place. -/
def leaveArray (y : Admitted) (s : State) : State :=
  match y.traffic with
  | .txUplink port => if y.poison then bumpW cDropChannel 9 0x4A y.world s else emit (.uplink port y.bytes) (countSent y s)
  | .txCard card pri =>
    if y.poison then bumpW cDropChannel 9 0x4A y.world s
    else queueCells s.link.sel.side { kind := 1, card := card, pri := pri, bytes := y.bytes, frame := y.frame } (countSent y s)
  | .rxHeld => verdict y s
  | .rxCut => verdict y s
  | .ponDown port _ =>
    if y.poison then fillIdle port (8 + roundUp 4 y.bytes.length) (bumpW cDropChannel 9 port y.world s)
    else emitXgem port y.pos (xgemHeader y.bytes.length y.keyIndex y.xgemPort y.last) y.bytes s

/-- The point or port whose frames leave the array in the order in which they entered it (R280). -/
def streamOf (y : Admitted) : Nat × Nat :=
  match y.traffic with
  | .txUplink p => (0, p) | .txCard c _ => (0, 16 + c) | .rxHeld => (1, y.point) | .rxCut => (1, y.point) | .ponDown p _ => (2, p)

/-- The frames that leave where a test picks some: those, and every earlier one of the same point or port; and those that stay. -/
def leaving (p : Admitted → Bool) (l : List Admitted) : List Admitted × List Admitted × List (Nat × Nat) :=
  l.foldr (fun y a => if p y || a.2.2.contains (streamOf y) then (y :: a.1, a.2.1, streamOf y :: a.2.2) else (a.1, y :: a.2.1, a.2.2)) ([], [], [])

/-- The frames that a test picks leave the array, each after the earlier ones of its point or port (R280). -/
def leaveWhere (p : Admitted → Bool) (s : State) : State :=
  let l := leaving p s.cipher.inPipes
  forEach l.1 leaveArray { s with cipher := { s.cipher with inPipes := l.2.1 } }

end Sys2Proof.Machine
end

