-- ==== Sys2Proof/Machine/Time.lean ====
section
/-! DEFINITION. The time complex: the tick, steps, the servo, PTP frames, time-stamp queues, SyncE, 1PPS and ToD, and the
commands of group 0x9 (chapter 14). -/

namespace Sys2Proof.Machine

/-! ## Units -/

/-- One unit of 1/65,536 ns in units of the time counter. -/
def fracUnit : Nat := 2 ^ 24

/-- One second in units of the time counter. -/
def tcSecond : Nat := 1000000000 * nsUnit

/-- Nanoseconds in 1/65,536 ns. -/
def nsFrac (n : Nat) : Int := ((n * 65536 : Nat) : Int)

/-- The three words of a time of the counter: nanoseconds, seconds low and high (Table 14.1). -/
def timeWords (tc : Nat) : List Word :=
  [wd (tc / nsUnit % 1000000000), lo32 (tc / tcSecond), hi32 (tc / tcSecond)]

/-- The counters of Table 14.9 by position. -/
def cTime (pos : Nat) : Nat := cid 14 9 pos

/-! ## Steps (R425) -/

/-- Signed seconds and nanoseconds of a difference, both with its sign, as the words of 0x0905. -/
def stepWords (d : Int) : List Word :=
  let a := d.natAbs
  let sgn (n : Nat) : Int := if d < 0 then -(n : Int) else (n : Int)
  let s64 := unsigned 64 (sgn (a / tcSecond))
  [lo32 s64, hi32 s64, wd (unsigned 32 (sgn (a / nsUnit % 1000000000)))]

/-- Set the counter, as a step with a cause: 1 servo, 2 TIME_SET, 3 acceptance (R425, Table 17.2). A measurement t2 - t1 of
before the step makes no pair with one of after it. -/
def stepTo (new cause : Nat) (s : State) : State :=
  let old := s.time.tc
  let s1 := { s with time := { s.time with tc := new, isSet := true, down := none, stepped := s.time.stepped + ((new : Int) - (old : Int)) },
                     tm := { s.tm with lastSample := none } }
  stateChange 0x0905 (stepWords ((new : Int) - (old : Int)))
    (bump (cTime 3) 0 0 (recordEv 0x0005 cause 0x0B 0 0 0x0100 (timeWords old ++ timeWords new) s1))

/-- Step the counter by a difference in 1/65,536 ns. -/
def stepBy (d : Int) (cause : Nat) (s : State) : State := stepTo ((s.time.tc : Int) + d * (fracUnit : Int)).toNat cause s

/-- Order a step for the next tick. -/
def stepNext (absolute : Bool) (value : Int) (cause : Nat) (s : State) : State :=
  { s with time := { s.time with due := s.time.due ++ [⟨absolute, value, cause⟩] } }

/-! ## The servo (R432, R433) -/

/-- The codes of Table 14.5. -/
def servoCode : Servo → Nat
  | .unset => 0 | .acquiring => 1 | .locked => 2 | .holdover => 3 | .freerun => 4

/-- A change of the servo's state sends 0x0901. Into HOLDOVER the run of mean paths off the accepted one goes on. -/
def setServo (v : Servo) (s : State) : State :=
  let stay := v = .holdover
  let s1 := { s with time := { s.time with
    servo := v, good := 0, beyond := 0, ok := 0, pathRun := if stay then s.time.pathRun else 0,
    notified := if stay then s.time.notified else none } }
  if s.time.servo = v then s1 else stateChange 0x0901 [wd (servoCode v)] s1

/-- The correction range of ±500 ppm, per tick (R423). -/
def corrLimit : Nat := 7036874417

/-- The corrections, the latest first, that held at some time of the last 124 s: the first that began before it still held then. -/
def recentCorr (now : Nat) (l : List (Nat × Int)) : List (Nat × Int) :=
  match l with
  | [] => []
  | e :: r => if now < e.1 + 124 * sec then e :: recentCorr now r else [e]

/-- Set the frequency correction; those before it are kept for the mean of R433. -/
def setCorr (c : Int) (s : State) : State :=
  { s with time := { s.time with corr := c, oldCorr := (s.mono, c) :: recentCorr s.mono s.time.oldCorr } }

/-- A measurement corrected by frequency: the spec does not state the new correction, which is a free value within the
range (log entry 31). -/
def correctFrequency (s : State) : State :=
  setCorr (((Config.freeNat s.free % (2 * corrLimit + 1) : Nat) : Int) - (corrLimit : Int)) (takeFree s)

/-- The integral of the corrections over an interval, from the latest back: each holds from its instant up to the next. -/
def corrIntegral (from_ upto : Nat) (l : List (Nat × Int)) : Int :=
  match l with
  | [] => 0
  | (t, c) :: r =>
    let lo := max t from_
    (if lo < upto then c * ((upto - lo : Nat) : Int) else 0) + corrIntegral from_ (min upto lo) r

/-- The mean correction over the 60 s that ended 2 s before now (R433). -/
def heldCorr (s : State) : Int :=
  let upto := s.mono - 2 * sec
  let from_ := upto - 60 * sec
  if upto ≤ from_ then s.time.corr else (corrIntegral from_ upto s.time.oldCorr).tdiv ((upto - from_ : Nat) : Int)

/-- The correction in HOLDOVER: with SyncE locked the counter runs at the source's frequency, to which the EEC has steered its clock, so there
is none (R433; DEDUCED: log entry 191). -/
def holdoverCorr (s : State) : Int := if s.time.selected.isSome then 0 else heldCorr s

/-- Enter HOLDOVER. -/
def enterHoldover (s : State) : State := setServo .holdover (bump (cTime 4) 0 0 (setCorr (holdoverCorr s) s))

/-- The words of a signed 64-bit value. -/
def words64 (v : Int) : List Word := [lo32 (unsigned 64 v), hi32 (unsigned 64 v)]

/-- A path step is counted and notified with the port and the new mean path (R433). -/
def notePath (port : Nat) (path : Int) (s : State) : State :=
  stateChange 0x0903 (wd port :: words64 path)
    (bump (cTime 2) 0 0 { s with time := { s.time with notified := some path } })

/-- Two values further apart than PATH_STEP_TH. -/
def pathFar (s : State) (a b : Int) : Bool := nsFrac s.time.pathStepTh < ((a - b).natAbs : Int)

/-- Take a mean path. One within PATH_STEP_TH of the accepted one is accepted, but in HOLDOVER; the run counts those beyond it;
the first after an ASYMMETRY_SET is kept. -/
def trackPath (path : Int) (s : State) : State :=
  let acc := s.time.meanPath.getD path
  let far := pathFar s path acc
  { s with time := { s.time with
    meanPath := some (if far || s.time.servo = .holdover then acc else path), pathNow := some path,
    pathRun := if far then s.time.pathRun + 1 else 0,
    lastPath := if s.time.asymDue then some path else s.time.lastPath, asymDue := false } }

/-- A mean path of the slave port (Table 14.5): a path step enters HOLDOVER; in HOLDOVER it is notified once, and again whenever
the mean path moves from the one last notified. -/
def takePath (port : Nat) (path : Int) (s : State) : State :=
  let s1 := trackPath path s
  match s.time.servo with
  | .holdover =>
    if (match s.time.notified with | some n => pathFar s path n | none => 2 ≤ s1.time.pathRun) then notePath port path s1 else s1
  | .acquiring => if 2 ≤ s1.time.pathRun then enterHoldover (notePath port path s1) else s1
  | .locked => if 2 ≤ s1.time.pathRun then enterHoldover (notePath port path s1) else s1
  | _ => s1

/-- An offset that ACQUIRING or LOCKED takes; one beyond 100 ns is corrected by a step on the next tick (R433). -/
def takeOffset (off : Int) (s : State) : State :=
  let a : Int := off.natAbs
  if nsFrac s.time.stepTh < a then
    if 2 ≤ s.time.beyond + 1 then
      enterHoldover (stateChange 0x0902 (words64 off)
        (bump (cTime 1) 0 0 { s with time := { s.time with refused := off } }))
    else { s with time := { s.time with beyond := s.time.beyond + 1, good := 0 } }
  else if a ≤ nsFrac 100 then
    let s1 := correctFrequency { s with time := { s.time with beyond := 0, good := s.time.good + 1 } }
    if s1.time.servo = .acquiring && 16 ≤ s1.time.good then setServo .locked s1 else s1
  else stepNext false (-off) 1 { s with time := { s.time with beyond := 0, good := 0 } }

/-- The measurement that ends UNSET or HOLDOVER is the first of those that ACQUIRING counts. -/
def countFirst (off : Int) (s : State) : State :=
  { s with time := { s.time with good := b2n (decide ((off.natAbs : Int) ≤ nsFrac 100)) } }

/-- A measurement in HOLDOVER: none is applied; the second acceptable one in a row ends the holdover. -/
def holdoverMeasure (off : Int) (path : Option Int) (s : State) : State :=
  let near := match path with
    | some p => !pathFar s p (s.time.meanPath.getD p) || (match s.time.lastPath with | some v => !pathFar s p v | none => false)
    | none => true
  if near && (off.natAbs : Int) ≤ nsFrac s.time.stepTh then
    if 2 ≤ s.time.ok + 1 then
      countFirst off (setServo .acquiring { s with time := { s.time with
        meanPath := match path with | some p => some p | none => s.time.meanPath, lastPath := none } })
    else { s with time := { s.time with ok := s.time.ok + 1 } }
  else { s with time := { s.time with ok := 0 } }

/-- One measurement: an offset and, from a slave port, the mean path it was computed with (R433, Table 14.5). -/
def measure (off : Int) (path : Option Int) (s : State) : State :=
  let s1 := { s with time := { s.time with lastMeas := s.mono } }
  match s.time.servo with
  | .freerun => s
  | .unset => countFirst off (setServo .acquiring (stepNext false (-off) 1 s1))
  | .holdover => holdoverMeasure off path s1
  | _ => takeOffset off s1

/-- The asymmetry setting of an uplink port or a PON port. -/
def asymAt (m : Map Nat Asym) (p : Nat) : Asym := mgetD m p {}

/-- The PTP setting of an uplink port. -/
def ptpAt (s : State) (p : Nat) : PtpPort := mgetD s.time.ptp p {}

/-- The slave port changes by the best master clock algorithm (Table 14.5). -/
def slaveChange (port : Nat) (s : State) : State :=
  let s1 := { s with time := { s.time with slave := some port } }
  match s.time.slave with
  | some p => if p ≠ port && s.time.servo ≠ .unset then
      setServo .acquiring { s1 with time := { s1.time with
        meanPath := none, lastPath := none, down := none, pathNow := none } } else s1
  | none => s1

/-- A Sync of the slave port has given t2 - t1: one offset, with the mean path that the servo has accepted, or in HOLDOVER with
the last one (R432). Without a mean path there is none yet. -/
def syncMeasure (port : Nat) (down : Int) (s : State) : State :=
  let s1 := { s with time := { s.time with down := some down } }
  match (if s.time.servo = .holdover then s.time.pathNow else s.time.meanPath) with
  | none => s1
  | some p => measure (down - p - (asymAt s.time.asymUp port).asym) (some p) s1

/-- A Delay_Req exchange of the slave port has given t4 - t3: one mean path, with the last t2 - t1 (R432). -/
def delayMeasure (port : Nat) (up : Int) (s : State) : State :=
  match s.time.down with
  | none => s
  | some down => takePath port ((down + up).tdiv 2) s

/-- SERVO_MEASUREMENT from a port in slave state: t2 - t1 of a Sync, or t4 - t3 of a Delay_Req exchange, in 1/65,536 ns (R432). -/
def execServoMeasurement (port : Nat) (isDelay : Bool) (value : Int) (s : State) : Res :=
  onObject (port < 16) <|
    whenever (s.time.source = 1 && (ptpAt s port).mode = 1 && !(ptpAt s port).notSlave)
      (fun s => (if isDelay then delayMeasure else syncMeasure) port value (slaveChange port s)) s

/-- SERVO_MEASUREMENT_LAPSE: no measurement for 4 s in LOCKED. -/
def execServoMeasurementLapse (s : State) : Res :=
  .next (whenever (s.time.servo = .locked && passed s s.time.lastMeas (4 * sec)) enterHoldover s)

/-! ## PTP frames (R428, R430, R435) -/

/-- Where the PTP message begins in a frame: after the EtherType, untagged or after one VLAN tag. -/
def ptpOffset (bs : List Byte) : Option Nat :=
  if etherType bs = 0x88F7 then some 14
  else if (etherType bs = 0x8100 || etherType bs = 0x88A8) && beNat (slice bs 16 2) = 0x88F7 then some 18
  else none

/-- A frame is recognised as PTP on a port (R428). -/
def recognised (s : State) (port : Nat) (bs : List Byte) : Bool := (ptpAt s port).mode ≠ 0 && (ptpOffset bs).isSome

/-- The messageType and sequenceId of a PTP message. -/
def ptpType (bs : List Byte) : Nat := (bs.getD ((ptpOffset bs).getD 14) 0).toNat % 16
def ptpSeq (bs : List Byte) : Nat := beNat (slice bs ((ptpOffset bs).getD 14 + 30) 2)

/-- A time-stamp with a delay of 1/65,536 ns added. -/
def stampAt (s : State) (delay : Int) : Nat := ((s.time.tc : Int) + delay * (fracUnit : Int)).toNat

/-- The four words of Table 14.8. -/
def tsWords (e : TsEntry) : List Word :=
  let secs := e.stamp / tcSecond
  [pack [(e.msgType, 4, 24), (e.port, 4, 16), (e.id, 16, 0)], wd (e.stamp / nsUnit % 1000000000), lo32 secs,
   pack [(e.stamp % nsUnit / fracUnit, 16, 16), (secs / 2 ^ 32, 16, 0)]]

/-- A recognised frame is stamped on reception and goes to Beymbin or to HOSTQ (R428, R430). -/
def ptpReceive (port : Nat) (bs : List Byte) (s : State) : State :=
  let s1 := countEvent 0x4B 0x101 0x0100 1 (bump (cTime 7) 1 port s)
  if (ptpAt s port).mode = 2 then
    let e : TsEntry := { msgType := ptpType bs, port := port, id := ptpSeq bs,
                         stamp := stampAt s (-(asymAt s.time.asymUp port).rxDelay) }
    let f : Frame := { epoch := s.epoch.current.toNat, rver := s.rules.current, source := 64 + port, len := bs.length, bytes := bs }
    toHost (ptpAt s port).hostq f (tsWords e) s1
  else s1

/-- PTP_FRAME_RECEIVE on an uplink port. -/
def execPtpFrameReceive (port : Nat) (bytes : List Byte) (s : State) : Res :=
  onObject (port < 16) <| whenever (recognised s port bytes) (ptpReceive port bytes) s

/-- A transmit time-stamp goes to its group's queue, if there is room; entries of ports in MODE 1 are taken by Beymbin at once (R435). -/
def queueStamp (e : TsEntry) (s : State) : State :=
  if (ptpAt s e.port).mode = 0 then s
  else
    let q := mgetD s.time.tsq (e.port / 4) []
    if 64 ≤ q.length then bump (cTime 0) 1 e.port s
    else if (ptpAt s e.port).mode = 1 then s
    else { s with time := { s.time with tsq := mset s.time.tsq (e.port / 4) (q ++ [e]) } }

/-- Send a PTP frame (R430): a one-step Sync carries its time-stamp; a two-step Sync or a Delay_Req leaves it in the queue. -/
def ptpSend (port : Nat) (bs : List Byte) (s : State) : State :=
  let stamp := stampAt s (asymAt s.time.asymUp port).txDelay
  let o := (ptpOffset bs).getD 14
  let secs := stamp / tcSecond
  let oneStep := ptpType bs = 0 && !(ptpAt s port).twoStep
  let bs' := if oneStep then
      withFcs (putBytes bs (o + 34) (beBytes 6 (secs % 2 ^ 48) ++ beBytes 4 (stamp / nsUnit % 1000000000)))
    else bs
  let queued := (ptpType bs = 0 && (ptpAt s port).twoStep) || ptpType bs = 1
  let s1 := if queued then queueStamp { msgType := ptpType bs, port := port, id := ptpSeq bs, stamp := stamp } s else s
  if !(upPort s port).up then bumpBy { cid := cDropLinkDown, scope := 1, idx := port } 1 s
  else emit (.uplink port bs') (countEvent 0x4B 0x101 0x0100 1 (bump (cTime 8) 1 port s1))

/-- PTP_FRAME_TRANSMIT: a PTP frame of the port's protocol engine or of the host leaves at its port. -/
def execPtpFrameTransmit (port : Nat) (bytes : List Byte) (s : State) : Res :=
  onObject (port < 16) <| whenever (recognised s port bytes) (ptpSend port bytes) s

/-! ## 1PPS and ToD (R438, R439) -/

/-- PPS_OUT_EDGE: the pin rises ahead of its second, which the TOD_OUT message 1 ms later names (R438). -/
def ppsOut (s : State) : State :=
  let t := stampAt s s.time.ppsOutDelay
  let secs := (t + tcSecond / 2) / tcSecond
  emit (.pin "PPS_OUT" 0 1)
    { s with time := { s.time with ppsHigh := true, ppsOutAt := s.mono, todDue := s.time.todDue ++ [(s.mono, secs)] } }

/-- The TOD_OUT messages whose edge lies 1 ms back start (R438). -/
def todOut (s : State) : State :=
  forEach (s.time.todDue.filter fun e => passed s e.1 ms) (fun e s => emit (.tod e.2 (Config.todMessage e.2)) s)
    { s with time := { s.time with todDue := s.time.todDue.filter fun e => !passed s e.1 ms } }

/-- A second boundary of the counter, PPS_OUT_DELAY ahead, falls on the present tick; one tick is 12.8 ns, corrected (R423, R438). -/
def ppsDue (s : State) : Bool :=
  !s.time.ppsHigh && ((stampAt s s.time.ppsOutDelay % tcSecond : Nat) : Int) < (14073748835533 : Int) + s.time.corr

def execPpsOutEdge (s : State) : Res := .next (whenever (s.time.servo ≠ .unset && ppsDue s) ppsOut s)

/-- PPS_OUT falls PPS_WIDTH after its edge (R438). -/
def ppsFall (s : State) : State :=
  if s.time.ppsHigh && passed s s.time.ppsOutAt (s.time.ppsWidth * ms) then
    emit (.pin "PPS_OUT" 0 0) { s with time := { s.time with ppsHigh := false } }
  else s

/-- The counters PPS_IN_MISSING and TOD_IN_ERRORS. -/
def cPpsMissing : Nat := cTime 5
def cTodErrors : Nat := cTime 6

/-- PPS_IN_EDGE (R439): an edge within 900 ms of the last is counted and ignored; an earlier edge that got no valid message
is counted. -/
def ppsIn (s : State) : State :=
  match s.time.ppsEdgeAt with
  | some t => if !passed s t (900 * ms) then bump cTodErrors 0 0 s else take s
  | none => take s
where
  take (s : State) : State :=
    let s1 := if s.time.ppsEdge.isSome then bump cTodErrors 0 0 s else s
    { s1 with time := { s1.time with ppsEdge := some (stampAt s (-s.time.ppsInDelay), s.mono), ppsEdgeAt := some s.mono } }

def execPpsInEdge (s : State) : Res := .next (whenever (s.time.source = 2) ppsIn s)

/-- TOD_IN_MESSAGE: a message that arrives between 1 ms and 500 ms after its edge pairs with it; a bad one is counted whenever it arrives
(R439). -/
def todIn (second : Nat) (ok : Bool) (s : State) : State :=
  let follows := match s.time.todSecond with | some p => second = p + 1 | none => true
  let s1 := { s with time := { s.time with todSecond := if ok then some second else s.time.todSecond } }
  let bad := !ok || !follows
  let counted := if bad then bump cTodErrors 0 0 s1 else s1
  match s.time.ppsEdge with
  | some (stamp, at_) =>
    if !passed s at_ ms || s.mono > at_ + 500 * ms then counted
    else
      let s2 := { counted with time := { counted.time with ppsEdge := none } }
      if bad then s2 else measure (((stamp : Int) - ((second * tcSecond : Nat) : Int)).tdiv (fracUnit : Int)) none s2
  | none => counted

def execTodInMessage (second : Nat) (checksum : Bool) (s : State) : Res :=
  .next (whenever (s.time.source = 2) (todIn second checksum) s)

/-- PPS_IN_MISSING: no edge for 2 s (R439). -/
def execPpsInMissing (s : State) : Res :=
  .next (whenever (s.time.source = 2 && passed s (s.time.ppsEdgeAt.getD 0) (2 * sec)
      && passed s s.time.ppsMissAt (2 * sec))
    (fun s => bump cPpsMissing 0 0 { s with time := { s.time with ppsMissAt := s.mono } }) s)

/-! ## Synchronous Ethernet (R437) -/

/-- A SyncE source: an uplink port 0 to 15, or 16 + n for REF_n. It is good while its port is up, its lanes have neither LOS
nor LOL and its ESMC has not lapsed, or while the reference is valid. -/
def sourceGood (s : State) (i : Nat) : Bool :=
  if i < 16 then
    (upPort s i).up && !(laneAt s i).los && !(laneAt s i).lol && !(mgetD s.time.sources i {}).lapsed
  else ((mget s.power.refs (i - 16)).getD {}).valid

/-- The priority of a source (Table 14.7); 0 is not eligible. -/
def sourcePrio (s : State) (i : Nat) : Nat :=
  if i < 16 then s.time.prioPort / 2 ^ (4 * i) % 16 else s.time.prioRef / 2 ^ (4 * (i - 16)) % 16

/-- The quality level of a source: what ESMC gave, or what QL_REF assigns. -/
def sourceQl (s : State) (i : Nat) : Nat :=
  if i < 16 then (mgetD s.time.sources i {}).ql else s.time.qlRef / 2 ^ (4 * (i - 16)) % 16

/-- The rank of an SSM code, the best first; none for a code that may not be used. PRESUMED from ITU-T G.8264 and G.781:
log entry 32. -/
def qlRank (option2 : Bool) (ql : Nat) : Option Nat :=
  let order := if option2 then [1, 0, 7, 4, 13, 10] else [2, 4, 8, 11]
  order.findIdx? (· = ql)

/-- The better of two candidates: rank, then priority, then index. -/
def betterSource (a b : Nat × Nat × Nat) : Nat × Nat × Nat :=
  if b.1 < a.1 || (b.1 = a.1 && b.2.1 < a.2.1) then b else a

/-- The EEC's selection among the eligible sources. -/
def selectSource (s : State) : Option Nat :=
  let cands := (List.range 20).filterMap fun i =>
    if !(mgetD s.time.sources i {}).eligible || sourcePrio s i = 0 then none
    else if s.time.qlEn then (qlRank s.time.option2 (sourceQl s i)).map fun r => (r, sourcePrio s i, i)
    else some (0, sourcePrio s i, i)
  match cands with
  | [] => none
  | c :: r => some (r.foldl betterSource c).2.2

/-- ESMC tells the partners of every uplink port that is up the quality level of the selected source, and "do not use" on the source's own
port; without a source the level is open (R437; the codes of ITU-T G.8264 are PRESUMED: log entry 191). -/
def sendEsmc (s : State) : State :=
  forBelow 16 (fun p s =>
    if !(upPort s p).up then s
    else emit (.esmc p (match s.time.selected with
      | some i => if i = p then 15 else sourceQl s i
      | none => Config.freeNat s.free % 16)) s) s

/-- Reselect. A change of source is told by ESMC, and a servo in HOLDOVER takes the new source's frequency (R433, R437). -/
def reselect (s : State) : State :=
  let s1 := { s with time := { s.time with selected := selectSource s } }
  if s1.time.selected = s.time.selected then s1
  else
    let s2 := takeFree (sendEsmc s1)
    if s2.time.servo = .holdover && s2.time.selected.isSome then setCorr 0 s2 else s2

/-- Alter a source. -/
def updSource (i : Nat) (f : SyncSrc → SyncSrc) (s : State) : State :=
  { s with time := { s.time with sources := mset s.time.sources i (f (mgetD s.time.sources i {})) } }

/-- Note since when each source is good or not. A source that is good for the first time is eligible at once. -/
def trackSources (s : State) : State :=
  forBelow 20 (fun i s =>
    let g := sourceGood s i
    match mget s.time.sources i with
    | none => if g then reselect (updSource i (fun x => { x with good := true, eligible := true, since := s.mono }) s) else s
    | some x => if x.good = g then s else updSource i (fun x => { x with good := g, since := s.mono }) s) s

/-- SYNCE_SOURCE_CHANGE: a failed source is dropped after HOLDOFF, a good one is eligible again after WTR_M, and the EEC
reselects. `esmc` is the quality level that the port's ESMC gives, if any is heard. -/
def synceChange (i : Nat) (esmc : Option Nat) (s : State) : State :=
  let s1 := match esmc with
    | some q => updSource i (fun x => { x with ql := q, lapsed := false, heard := s.mono }) s
    | none => s
  let s2 := trackSources s1
  let x := mgetD s2.time.sources i {}
  let wait := if x.good then s2.time.wtrM * 60 * sec else s2.time.holdoff * 100 * ms
  reselect (if x.good ≠ x.eligible && passed s2 x.since wait then updSource i (fun x => { x with eligible := x.good }) s2 else s2)

def execSynceSourceChange (source : Nat) (esmc : Option Nat) (s : State) : Res :=
  onObject (source < 20) (synceChange source esmc s)

/-- ESMC_LAPSE: no ESMC has been heard on a port for 5 s. -/
def execEsmcLapse (port : Nat) (s : State) : Res :=
  onObject (port < 16) (whenever (passed s (mgetD s.time.sources port {}).heard (5 * sec))
    (fun s => trackSources (updSource port (fun x => { x with lapsed := true }) s)) s)

/-! ## The tick (R18, R264) -/

/-- The increment of the counter for one tick of 12.8 ns, in units of 2^-40 ns (R423). -/
def tickUnits : Nat := 14073748835533

/-- A step is taken; after one that TIME_SET ordered the servo acquires (R425, R433, R434). -/
def takeStep (d : StepDue) (s : State) : State :=
  let t := if d.absolute then stepTo d.value.toNat d.cause s else stepBy d.value d.cause s
  if d.cause = 1 then t else setServo .acquiring t

/-- The steps that are due are taken. -/
def takeSteps (s : State) : State :=
  forEach s.time.due takeStep { s with time := { s.time with due := [] } }

/-- `n` ticks without a step: the counter and `mono` advance, shapers are credited, frames that have been in the array for 10 µs leave
(R283), PPS_OUT falls and TOD_OUT starts in their time, the SyncE sources are tracked, and a fabric side that may returns to its reference (R521). -/
def passTicks (n : Nat) (s : State) : State :=
  let s1 := { s with mono := s.mono + n * 12800,
                     time := { s.time with tc := ((s.time.tc : Int) + (n : Int) * ((tickUnits : Int) + s.time.corr)).toNat } }
  countEvent 0x4B 0x100 0x0100 n <| followRefs <| trackSources (todOut (ppsFall (leaveWhere (fun y => y.at_ + 10 * us ≤ s1.mono) (creditShapers n s1))))

/-- The settings of ASYMMETRY_SET that waited for a tick are in force (R431). -/
def takeAsym (s : State) : State :=
  forEach s.time.asymNext (fun d s =>
    if d.pon then { s with time := { s.time with asymPon := mset s.time.asymPon d.port d.value } }
    else { s with time := { s.time with asymUp := mset s.time.asymUp d.port d.value } })
    { s with time := { s.time with asymNext := [] } }

/-- `n` ticks; a step that is due is taken on the first, which brings the settings of ASYMMETRY_SET into force. -/
def tick (n : Nat) (s0 : State) : State :=
  let s := if n = 0 then s0 else takeAsym s0
  if s.time.due.isEmpty || n = 0 then passTicks n s else passTicks (n - 1) (takeSteps (passTicks 1 s))

/-! ## A terminal's delay (R432) -/

/-- Round to the nearest integer, halves away from zero. -/
def roundDiv (a : Int) (b : Nat) : Int :=
  let q := ((2 * a.natAbs + b) / (2 * b) : Nat)
  if a < 0 then -(q : Int) else (q : Int)

/-- The words of a PON frame upstream (Table 3.6). -/
def frameWords (kind : Nat) : Nat := match kind with | 1 => 38880 | 2 => 97200 | 3 => 194400 | _ => 0

/-- The one-way downstream part of a change of RTD, from 1/16 UI to 1/65,536 ns (R432). -/
def oneWay (s : State) (port : Nat) (diff : Int) : Int :=
  let q := (asymAt s.time.asymPon port).ratio
  let w := frameWords (upKind s port)
  if w = 0 then 0 else roundDiv (diff * ((125000 * 65536 * q : Nat) : Int)) (512 * w * (2 ^ 30 + q))

/-- TERMINAL_DELAY_CHANGE, once for each second range notice of a terminal. -/
def execTerminalDelayChange (terminal : Nat) (s : State) : Res :=
  match termAt s terminal with
  | none => .fault .noSuchObject
  | some t =>
    if !t.delayDue then .next s
    else
      let d := oneWay s t.port t.lastStep
      let s1 := updTerm terminal (fun t => { t with delayDue := false }) s
      .next (if nsFrac s.time.termStepTh ≤ (d.natAbs : Int) then
        stateChange 0x0904 [wd terminal, wd (unsigned 32 d)] s1 else s1)

/-! ## Commands -/

/-- TIME_READ (R424). -/
def runTimeRead (_ : Ctx) (s : State) : HRes :=
  .done s (timeWords s.time.tc ++ [pack [(servoCode s.time.servo, 3, 29), (b2n s.time.isSet, 1, 28), (tcFrac s, 16, 0)]])

def opTimeRead : OpSpec :=
  { code := 0x9001, vf := true, fast := true, writes := false, home := (0x0B, 0), len := exactly 0, run := runTimeRead }

/-- The signed value of KIND 1 and 3 in 1/65,536 ns; an error is the word at fault (R434). -/
def timeValue (c : Ctx) : Except Nat Int :=
  let secs := signed 64 (join64 (c.w 1) (c.w 2))
  let ns := signed 32 (c.w 3).toNat
  if 999999999 < ns.natAbs || (0 < secs && ns < 0) || (secs < 0 && 0 < ns) then .error 3
  else if c.w 4 ≠ 0 then .error 4
  else .ok ((secs * 1000000000 + ns) * 65536)

/-- TIME_SET (R434). -/
def runTimeSet (c : Ctx) (s : State) : HRes :=
  let kind := fld (c.w 0) 1 0
  match kind with
  | 0 =>
    refuseIf (1000000000 ≤ (c.w 3).toNat) .badParam [3] <|
    .done (stepNext true ((join64 (c.w 1) (c.w 2) * 1000000000 + (c.w 3).toNat) * nsUnit + fld (c.w 4) 15 0 * fracUnit : Nat) 2 s) []
  | 2 =>
    refuseIf (s.time.servo ≠ .holdover) .notPermitted [] <|
    .done (stepNext false (-s.time.refused) 3 s) []
  | 1 =>
    match timeValue c with
    | .error i => .refuse .badParam [wd i]
    | .ok v => .done (stepNext false v 2 s) []
  | _ =>
    match timeValue c with
    | .error i => .refuse .badParam [wd i]
    | .ok v => refuseIf (s.time.source ≠ 3) .notPermitted [] <| .done (measure v none s) []

def opTimeSet : OpSpec :=
  { code := 0x9002, writes := false, home := (0x0B, 0), oWorld := true,
    len := fun ws => if fld (nthW ws 0) 1 0 = 2 then ws.length = 1 else ws.length = 5,
    rsv := masks [0xFFFFFFFC#32, 0, 0, 0, 0xFFFF0000#32], run := runTimeSet }

/-- PTP_CONFIG KIND 0: the clock (R429). -/
def ptpClock (c : Ctx) (s : State) : HRes :=
  let src := fld (c.w 0) 30 28
  let dom := fld (c.w 0) 23 16
  let width := fld (c.w 0) 15 0
  let bad (lo hi : Nat) (w : Word) : Bool := w.toNat < lo || hi < w.toNat
  refuseIf (3 < src || dom < 24 || 43 < dom || width = 0 || 500 < width) .badParam [0] <|
  refuseIf (bad 100 1000000 (c.w 1)) .badParam [1] <|
  refuseIf (bad 50 1000000 (c.w 2)) .badParam [2] <|
  refuseIf (fld (c.w 3) 31 16 = 0) .badParam [3] <|
  refuseIf (src = 1 && !s.time.ptp.any fun e => e.2.mode ≠ 0) .notPermitted [] <|
  let s1 := { s with time := { s.time with
    source := src, domain := dom, ppsWidth := width, stepTh := (c.w 1).toNat, pathStepTh := (c.w 2).toNat,
    termStepTh := fld (c.w 3) 31 16, ppsOutDelay := signed 32 (c.w 4).toNat, ppsInDelay := signed 32 (c.w 5).toNat } }
  .done (if src = 0 then setServo .freerun s1
         else if src ≠ s.time.source && s.time.servo ≠ .unset then setServo .acquiring s1 else s1) []

/-- PTP_CONFIG KIND 1: a port (R429). HOSTQ is judged in every MODE, as the rule's words have it (log entry 143). Entries of a port in MODE 1
are Beymbin's (R435). -/
def ptpPort (c : Ctx) (s : State) : HRes :=
  let mode := fld (c.w 0) 30 29
  let q := fld (c.w 0) 23 16
  let prio := fld (c.w 0) 15 8
  refuseIf (mode = 3 || prio = 0) .badParam [0] <|
  refuseIf ((hrqAt s q).bound = 0xFF || (hrqAt s q).world ≠ 0x0100) .badWorld [] <|
  let x : PtpPort := { mode := mode, twoStep := bit (c.w 0) 28, notSlave := bit (c.w 0) 27, hostq := q, localPrio := prio }
  let p := fld (c.w 0) 3 0
  let q1 := if mode = 1 then mmap s.time.tsq fun _ (es : List TsEntry) => es.filter fun e => e.port ≠ p else s.time.tsq
  .done { s with time := { s.time with ptp := mset s.time.ptp p x, tsq := q1 } } []

/-- ASYMMETRY_SET: the values apply to time-stamps taken from the next tick (R431). -/
def runAsymmetrySet (c : Ctx) (s : State) : HRes :=
  let p := fld (c.w 0) 5 0
  let tx := signed 32 (c.w 1).toNat
  let put (y : AsymDue) (due : Bool) : HRes :=
    .done { s with time := { s.time with asymNext := s.time.asymNext ++ [y], asymDue := s.time.asymDue || due } } []
  if bit (c.w 0) 31 then put ⟨true, p, { asymAt s.time.asymPon p with txDelay := tx, ratio := (c.w 4).toNat }⟩ false
  else
    refuseIf (15 < p) .badParam [0] <|
    put ⟨false, p, { txDelay := tx, rxDelay := signed 32 (c.w 2).toNat, asym := signed 32 (c.w 3).toNat }⟩ (s.time.slave = some p)

def opAsymmetrySet : OpSpec :=
  { code := 0x9004, home := (0x0B, 1), oWorld := true, len := exactly 5,
    rsv := fun ws => if bit (nthW ws 0) 31 then masks [0x7FFFFFC0#32, 0, 0xFFFFFFFF#32, 0xFFFFFFFF#32] ws
                     else masks [0x7FFFFFC0#32, 0, 0, 0, 0xFFFFFFFF#32] ws,
    stage := .stageable, objs := fun ws => [(0x9004, fld (nthW ws 0) 31 31 * 64 + fld (nthW ws 0) 5 0)], run := runAsymmetrySet }

/-- RCLK_0 and RCLK_1 output the recovered clocks of ports, divided to 156.25 MHz, or are off (Table 14.7). -/
def clocksOut (r0 r1 : Nat) (s : State) : State :=
  let put (n old new : Nat) (s : State) : State :=
    if old = new then s else emit (.recovered n (if new = 0xFF then none else some new)) s
  put 1 s.time.rclk1 r1 (put 0 s.time.rclk0 r0 s)

/-- SYNCE_CONFIG (R437). -/
def runSynceConfig (c : Ctx) (s : State) : HRes :=
  let r0 := fld (c.w 0) 31 24
  let r1 := fld (c.w 0) 23 16
  let h := fld (c.w 0) 13 8
  let m := fld (c.w 0) 7 0
  refuseIf ((15 < r0 && r0 ≠ 0xFF) || (15 < r1 && r1 ≠ 0xFF) || h < 3 || 18 < h || 12 < m) .badParam [0] <|
  .done (reselect <| { clocksOut r0 r1 s with time := { s.time with
    rclk0 := r0, rclk1 := r1, qlEn := bit (c.w 0) 15, option2 := bit (c.w 0) 14, holdoff := h, wtrM := m,
    prioPort := join64 (c.w 1) (c.w 2), prioRef := fld (c.w 3) 31 16, qlRef := fld (c.w 3) 15 0 } }) []

def opSynceConfig : OpSpec :=
  { code := 0x9005, home := (0x0B, 3), oWorld := true, len := exactly 4, stage := .stageable, objs := fun _ => [(0x9005, 0)],
    run := runSynceConfig }

/-- The oldest entries, at most `n`, that a test picks, and the queue without them. -/
def takeStamps (pick : TsEntry → Bool) (n : Nat) (q : List TsEntry) : List TsEntry × List TsEntry :=
  match q with
  | [] => ([], [])
  | e :: r =>
    if n ≠ 0 && pick e then
      let (a, b) := takeStamps pick (n - 1) r
      (e :: a, b)
    else
      let (a, b) := takeStamps pick n r
      (a, e :: b)

/-- TS_QUEUE_READ (R436): the oldest entries of ports in MODE 2 are returned and removed; without one COUNT is 0. -/
def runTsQueueRead (c : Ctx) (s : State) : HRes :=
  let g := fld (c.w 0) 1 0
  let (got, left) := takeStamps (fun e => (ptpAt s e.port).mode = 2) (if c.hasBuf then 64 else 3) (mgetD s.time.tsq g [])
  let ws := got.flatMap tsWords
  let s1 := { s with time := { s.time with tsq := mset s.time.tsq g left } }
  if c.hasBuf then .doneBuf s1 (if got.isEmpty then [] else [wd got.length]) (bytesOfWords ws) else .done s1 ws

def opTsQueueRead : OpSpec :=
  { code := 0x9006, writes := false, home := (0x0B, 1), oWorld := true, len := exactly 1, rsv := masks [0xFFFFFFFC#32],
    run := runTsQueueRead }

end Sys2Proof.Machine
end

