-- ==== Sys2Proof/Machine/HostQueues.lean ====
section
/-! DEFINITION. Host receive and injection queues and their registers (R82 to R85). -/

namespace Sys2Proof.Machine

/-- An injection queue. -/
def hiqAt (s : State) (q : Nat) : HostQ := mgetD s.host.hiq q {}

/-- Alter an injection queue. -/
def updHiq (q : Nat) (f : HostQ → HostQ) (s : State) : State :=
  { s with host := { s.host with hiq := mset s.host.hiq q (f (hiqAt s q)) } }

/-- A function reaches the registers of a host queue: the physical function all of them, a virtual function those bound
to it (R38). -/
def reachesQueue (fn : Nat) (h : HostQ) : Bool := fn = 0 || h.bound = fn

/-- The host writes a receive queue's HEAD, a slot index modulo the ring (R85). -/
def hrqHeadWrite (fn queue value : Nat) (s : State) : State :=
  whenever (reachesQueue fn (hrqAt s queue)) (updHrq queue (fun h => { h with head := value % 65536 % ringSlots h })) s

/-- HRQ_HEAD. -/
def execHrqHead (fn queue value : Nat) (s : State) : Res :=
  onObject (fn < 64 && queue < 256) (hrqHeadWrite fn queue value s)

/-- The host writes an injection queue's TAIL; a value beyond the ring sets ERROR 2 and disables the queue (R85). What TAIL reads after such
a value is not stated: it stays as it was (DESIGN CHOICE: log entry 185). -/
def hiqTailWrite (fn queue value : Nat) (s : State) : State :=
  whenever (reachesQueue fn (hiqAt s queue))
    (updHiq queue fun h =>
      if ringSlots h ≤ value % 65536 then { h with error := 2, enable := false } else { h with tail := value % 65536 }) s

/-- HIQ_TAIL. -/
def execHiqTail (fn queue value : Nat) (s : State) : Res := onObject (fn < 64 && queue < 64) (hiqTailWrite fn queue value s)

/-! ## Receive records (R83) -/

/-- The bytes of a slot (Table 2.15). -/
def slotBytesOf (h : HostQ) : Nat := 2048 * 2 ^ h.slotSize

/-- The address of a slot. -/
def slotAddr (h : HostQ) (i : Nat) : Nat := join64 h.ringLo h.ringHi + i * slotBytesOf h

/-- The counter DROP_HOSTQ (Table 8.9), kept for the module and each world: no SCOPE of Table 17.8 names a host receive queue (DEDUCED, log entry 163). -/
def cDropHostq : Nat := cTm 7

/-- Words 0 to 11 of a receive record (Table 2.16). -/
def recordHead (h : HostQ) (f : Frame) (ext : List Word) : List Word :=
  [pack [(b2n h.phase, 1, 31), (ext.length, 4, 16), (f.len, 14, 0)]] ++ descriptorWords f
    ++ (ext ++ [0, 0, 0, 0]).take 4 ++ [0, 0]

/-- Send the queue's vector, or keep it for the end of the MOD_US interval. -/
def signal (q : Nat) (s : State) : State :=
  let h := hrqAt s q
  let due := match h.lastVec with | some t => passed s t (h.modUs * us) | none => true
  if due then emit (.msix h.bound h.vector) (updHrq q (fun h => { h with lastVec := some s.mono, unsignalled := false }) s)
  else updHrq q (fun h => { h with unsignalled := true }) s

/-- Drop a frame at a receive queue; a mirror copy is counted for its session too (R258). -/
def dropRecord (q : Nat) (f : Frame) (s : State) : State :=
  mirrorDrop f f.session <| bumpW (cTm 7) 0 0 f.world (updHrq q (fun h => { h with drops := satAdd 0xFFFFFFFF h.drops 1 }) s)

/-- Give up the cells of a frame that holds some. -/
def letGo (f : Frame) (s : State) : State := if f.cells.isEmpty then s else freeFrame f s

/-- Write the oldest frame that waits for a receive queue as a record, the frame first and word 0 last, or drop it (R83); a frame in cut-through
is held until its verdict (R301).
The spec names no code for the fault of a failed write, which is left open (log entry 33), and does not say whether the frame of that
write is counted in DROP_HOSTQ and DROPS: it is counted in neither (DESIGN CHOICE: log entry 185). -/
def writeRecord (q : Nat) (ok : Bool) (s : State) : State :=
  match (hrqAt s q).waiting with
  | [] => s
  | (f, ext) :: rest =>
    if f.wait then s else
    let h := hrqAt s q
    let bs := frameBytes s f
    let s1 := letGo f (updHrq q (fun h => { h with waiting := rest }) (hbmReads f s))
    if f.poison then bumpW cDropChannel 9 0x46 f.world s1
    else if !h.enable || h.bound = 0xFF || slotBytesOf h < 48 + f.len || ringSlots h ≤ ringUsed h + 1 then dropRecord q f s1
    else if !ok then
      raise 0x0C 0 0 q (Config.openCode 1) 0 (wd q) (updHrq q (fun h => { h with enable := false, error := 1 }) s1)
    else
      let a := slotAddr h h.tail
      let ws := recordHead h f ext
      let s2 := emit (.dma h.bound a (bytesOfWords (ws.take 1))) (emit (.dma h.bound (a + 4) (bytesOfWords (ws.drop 1) ++ bs)) s1)
      signal q (updHrq q (fun h => { h with tail := (h.tail + 1) % ringSlots h,
                                             phase := if h.tail + 1 = ringSlots h then !h.phase else h.phase }) s2)

/-- HOSTQ_RECORD_WRITE: `ok` says that the write of host memory succeeds. -/
def execHostqRecordWrite (queue : Nat) (ok : Bool) (s : State) : Res := onObject (queue < 256) (writeRecord queue ok s)

/-- HOSTQ_MODERATION_EXPIRY: the MOD_US interval ends and the records written in it are signalled. -/
def execHostqModerationExpiry (queue : Nat) (s : State) : Res :=
  onObject (queue < 256) (whenever (hrqAt s queue).unsignalled (signal queue) s)

/-! ## Injection (R84) -/

/-- An injection queue has a record to fetch. -/
def hasInjection (h : HostQ) : Bool := h.enable && h.head ≠ h.tail

/-- The queue that the round robin serves next. -/
def nextInjection (s : State) : Option Nat :=
  ((List.range 64).map fun i => (s.host.injNext + i) % 64).find? fun q => hasInjection (hiqAt s q)

/-- A record that breaks its conditions is not sent. -/
def dropInject (q world : Nat) (s : State) : State :=
  bumpW cDropInject 3 q world (updHiq q (fun h => { h with drops := satAdd 0xFFFFFFFF h.drops 1 }) s)

/-- A port unit's record. -/
def updPort (p : Nat) (f : Port → Port) (s : State) : State :=
  { s with pon := { s.pon with ports := mset s.pon.ports p (f (mgetD s.pon.ports p {})) } }

/-- A frame sent on an uplink port by the host: a PTP frame is stamped (R428); another leaves as it is. -/
def sendPtp (port : Nat) (bs : List Byte) (s : State) : State :=
  if (ptpOffset bs).isSome then ptpSend port bs s
  else if !(upPort s port).up then bumpBy { cid := cDropLinkDown, scope := 1, idx := port } 1 s
  else emit (.uplink port bs) s

/-- A fetched injection record, handled by its KIND (R84, Table 2.17). Two points that the spec leaves open (DESIGN CHOICE: log
entry 164): a record of KIND 2 holds an OMCI message of any length that has room for its MIC, the baseline one of 48 bytes
included (R123), and a record whose 32 + BYTES exceeds SLOT_SIZE is
taken as any other. A frame of KIND 3 that is no PTP message may not leave in plaintext where its port is secured (R27): that record
is not sent (log entry 145). -/
def inject (q : Nat) (words : List Word) (bytes : List Byte) (s : State) : State :=
  let world := (hiqAt s q).world
  let kind := fld (nthW words 0) 31 30
  let n := fld (nthW words 0) 13 0
  let raw := bytes.take n
  let full := withFcs (raw ++ [0, 0, 0, 0])
  let dest := nthW words 6
  let term := fld (nthW words 2) 14 0
  let f : Frame := { source := 82, dir := 2, world := world, bytes := full }
  if n < (if kind = 2 then 4 else 60) || 12284 < n then dropInject q world s
  else match kind with
  | 0 => ingress { frame := f } true s
  | 1 =>
    if destOk dest && destKind dest ≤ 2 then
      ingress { frame := { f with cls := fld (nthW words 5) 12 7, colour := fld (nthW words 5) 6 5 }, direct := true, dest := dest }
        true s
    else dropInject q world s
  | 2 =>
    match termAt s term with
    | some t =>
      if world = 0x0100 && bit (nthW words 2) 15 && t.st = .operating then
        updPort t.port (fun p => { p with omciTx := p.omciTx ++ [(term, raw)] }) s
      else dropInject q world s
    | none => dropInject q world s
  | _ =>
    if destOk dest && destKind dest = 1 && (ptpAt s (destIndex dest)).mode = 2
        && ((ptpOffset full).isSome || !secured s (destIndex dest) 0) then sendPtp (destIndex dest) full s
    else dropInject q world s

/-- INJECTION_FETCH: the next record is fetched, where its frame can be placed (`fits`); a failed fetch disables its
queue. The words and the frame are what the slot holds. -/
def execInjectionFetch (words : List Word) (bytes : List Byte) (fits ok : Bool) (s : State) : Res :=
  .next (match nextInjection s with
  | none => s
  | some q =>
    if !fits then s
    else
      let s1 := { s with host := { s.host with injNext := (q + 1) % 64 } }
      if !ok then updHiq q (fun h => { h with enable := false, error := 1 }) s1
      else inject q words bytes (updHiq q (fun h => { h with head := (h.head + 1) % ringSlots h }) s1))

/-! ## HOSTQ_CONFIG (R82) -/

/-- A virtual function has a queue pair bound to a world. -/
def vfInWorld (s : State) (fn world : Nat) : Bool :=
  s.host.pairs.any fun e => e.1 ≠ 0 && e.2.served && e.2.bound = fn && e.2.world = world

/-- The MSI-X table of a function (R77). -/
def msixEntries (fn : Nat) : Nat := if fn = 0 then 64 else 8

/-- HOSTQ_CONFIG (R82, Table 2.15). -/
def runHostqConfig (c : Ctx) (s : State) : HRes :=
  let enable := bit (c.w 0) 31
  let inj := bit (c.w 0) 30
  let fn := fld (c.w 0) 23 16
  let q := fld (c.w 0) 7 0
  let world := fld (c.w 1) 31 16
  let slots := fld (c.w 1) 3 0
  refuseIf ((inj && 63 < q) || 63 < fn) .badParam [0] <|
  refuseIf (10 < slots || !worldCode world || msixEntries fn ≤ fld (c.w 1) 15 8) .badParam [1] <|
  refuseIf (fld (c.w 2) 11 0 ≠ 0) .badParam [2] <|
  refuseIf (fn ≠ 0 && !vfInWorld s fn world) .badWorld [] <|
  let h := if inj then hiqAt s q else hrqAt s q
  refuseIf (h.enable && enable) .queueActive [] <|
  let h1 := { h with enable := enable, bound := fn, world := world, vector := fld (c.w 1) 15 8, slotSize := fld (c.w 1) 5 4,
                     slots := slots, ringLo := c.w 2, ringHi := c.w 3, modUs := fld (c.w 4) 15 0 }
  let h2 := if enable then { h1 with head := 0, tail := 0, phase := true, error := 0, drops := 0, lastVec := none,
                                     unsignalled := false } else h1
  .done (if inj then updHiq q (fun _ => h2) s else updHrq q (fun _ => h2) s) []

def opHostqConfig : OpSpec :=
  { code := 0x000F, home := (0x0C, 0), oWorld := true, len := exactly 5,
    rsv := fun ws => masks [0x3F00FF00#32, 0x000000C0#32, 0, 0, if bit (nthW ws 0) 30 then 0xFFFFFFFF#32 else 0xFFFF0000#32] ws,
    stage := .stageable, objs := fun ws => [(0x000F, fld (nthW ws 0) 30 30 * 256 + fld (nthW ws 0) 7 0)], run := runHostqConfig }

end Sys2Proof.Machine
end

