-- ==== Sys2Proof/Machine/PonBase.lean ====
section
/-! DEFINITION. What the PON ports, ranging and Weaver share: rates and burst lengths, the upstream timeline and its
windows, PLOAMd queues, and the ends of a terminal's activation (chapters 3 to 5). -/

namespace Sys2Proof.Machine

/-! ## Rates and bursts (Table 3.6) -/

/-- A port unit. -/
def portAt (s : State) (p : Nat) : Port := mgetD s.pon.ports p {}

/-- PORT_CONFIG as it stands for a port: the odd port of a pair follows the even one but for words 1, 3, 4, 5 and 6 (R92). -/
def cfgAt (s : State) (p : Nat) : PortCfg :=
  let own := portCfgAt s p
  if paired s p && p % 2 = 1 then
    { portCfgAt s (p - 1) with
      guard := own.guard, preamble := own.preamble, energyTh := own.energyTh, dropStep := own.dropStep, gain := own.gain,
      offset := own.offset, levHigh := own.levHigh, levLow := own.levLow }
  else own

/-- A port is in service (R88). -/
def inService (s : State) (p : Nat) : Bool := upKind s p ≠ 0

/-- Guard, default and minimum, in words. -/
def guardMin (k : Nat) : Nat := if k = 3 then 16 else if k = 2 then 8 else 2

/-- Preamble, default and minimum, in words. -/
def preDefault (k : Nat) : Nat := if k = 3 then 24 else if k = 2 then 12 else 5
def preMin (k : Nat) : Nat := if k = 3 then 20 else if k = 2 then 10 else 4

/-- Delimiter in words. -/
def delimWords (k : Nat) : Nat := if k = 1 then 1 else 2

/-- Data and parity words of a codeword. -/
def dataWords (k : Nat) : Nat := if k = 1 then 58 else 456
def parityWords (k : Nat) : Nat := if k = 1 then 4 else 84

/-- The clock recovery lock window in bits. -/
def lockBits (k : Nat) : Nat := if k = 1 then 96 else if k = 2 then 256 else 512

/-- The bit errors with which a delimiter is still accepted. -/
def delimErrors (k : Nat) : Nat := if k = 1 then 3 else 6

/-- The upstream rate in Gb/s, as CINCH_BUDGET's reset weights have it (R187). -/
def upGbps (k : Nat) : Nat := match k with | 1 => 10 | 2 => 25 | 3 => 50 | _ => 0

/-- A word field with "rate default" as its reset value: 0 takes the default. -/
def orDefault (v d : Nat) : Nat := if v = 0 then d else v

/-- The burst profile of a port for a map: guard and preamble (R95). -/
def burstProfile (s : State) (p m : Nat) : Nat × Nat :=
  let k := upKind s p
  let x := portAt s p
  let gp := match (x.nextProfile.filter fun e => e.1 ≤ m).getLast? with
    | some (_, g, pre) => (g, pre)
    | none => (x.cfgGuard, x.cfgPre)
  (orDefault gp.1 (guardMin k), orDefault gp.2 (preDefault k))

/-- Words before a burst's protected content in a map: guard, preamble and delimiter. -/
def outWords (s : State) (p m : Nat) : Nat :=
  let (g, pre) := burstProfile s p m
  g + pre + delimWords (upKind s p)

/-- Upstream FEC of a terminal on a port. -/
def fecOn (s : State) (p : Nat) (t : Terminal) : Bool :=
  upKind s p ≠ 1 || t.upFec = 1 || (t.upFec = 0 && (cfgAt s p).upFec)

/-- Parity words of `d` protected words. -/
def parity (k : Nat) (fec : Bool) (d : Nat) : Nat := if fec then parityWords k * ceilDiv d (dataWords k) else 0

/-- The words that a burst of `d` protected words occupies (R103). -/
def burstWords (s : State) (p m : Nat) (fec : Bool) (d : Nat) : Nat := outWords s p m + d + parity (upKind s p) fec d

/-- The words of a Registration burst: header, PLOAMu and trailer. -/
def registrationWords (s : State) (p m : Nat) (fec : Bool) : Nat := burstWords s p m fec 14

/-! ## Trees -/

/-- DISCOVERY_CONFIG of a port's tree (R138). -/
def discAt (s : State) (p : Nat) : Disc := (portAt s (treeOf s p)).disc

/-- TEQD of a port in whole UI (R139); 0 in mode 0. -/
def teqd (s : State) (p : Nat) : Nat :=
  let d := discAt s p
  ceilDiv ((10 * (d.near + d.diff) + 10) * frameWords (upKind s p) * 32) 125

/-- The lane of a tree or port (R12). -/
def laneOf (p : Nat) : Nat := p / 8

/-- A Weaver lane. -/
def laneAt5 (s : State) (k : Nat) : Lane5 := mgetD s.weaver.lanes k {}

/-- Alter a Weaver lane. -/
def updLane5 (k : Nat) (f : Lane5 → Lane5) (s : State) : State :=
  { s with weaver := { s.weaver with lanes := mset s.weaver.lanes k (f (laneAt5 s k)) } }

/-- The terminals of a tree. -/
def treeTerms (s : State) (tree : Nat) : List (Nat × Terminal) := s.pon.terms.filter fun e => e.1 / 512 = tree

/-- The terminals bound to a port. -/
def portTerms (s : State) (p : Nat) : List (Nat × Terminal) := s.pon.terms.filter fun e => e.2.port = p

/-- A terminal has an ONU-ID. -/
def hasOnu (t : Terminal) : Bool := t.st = .assigned || t.st = .operating || t.st = .reranging

/-- A terminal loss defect is raised. -/
def termLoss (t : Terminal) : Bool := t.los || t.lol

/-- The port units that make up a tree. -/
def treePorts (s : State) (tree : Nat) : List Nat := if paired s tree then [tree, tree + 1] else [tree]

/-! ## The upstream timeline (R551, R552), in 1/16 UI from the boundary of PON frame 0 -/

/-- A PON frame of a port in 1/16 UI. -/
def frameUi (s : State) (p : Nat) : Nat := frameWords (upKind s p) * 512

/-- A time in ps in 1/16 UI of a port, rounded down and up. -/
def uiFloor (s : State) (p ps : Nat) : Int := ((ps * frameUi s p / 125000000 : Nat) : Int)
def uiCeil (s : State) (p ps : Nat) : Int := ((ceilDiv (ps * frameUi s p) 125000000 : Nat) : Int)

/-- The zero-distance arrival of a grant at a word of a map (R551). -/
def zeroArrival (s : State) (p m w : Nat) : Int :=
  let (g, pre) := burstProfile s p m
  ((m * frameUi s p + (w + g + pre) * 512 : Nat) : Int)

/-- The nearest arrival of a tree after the zero-distance arrival (R551). -/
def nearest (s : State) (p : Nat) : Int := uiFloor s p (9500000 * (discAt s p).near)

/-- The upstream frame that an instant lies in. -/
def upFrame (s : State) (p : Nat) (t : Int) : Int := (t - 16 * (teqd s p : Int)) / (frameUi s p : Int)

/-- A window of given bounds relative to its grant's zero-distance arrival. -/
def windowAt (s : State) (p : Nat) (kind : WinKind) (term m w : Nat) (lo hi : Int) : Window :=
  { kind := kind, term := term, map := m, word := w, start := zeroArrival s p m w + lo, fin := zeroArrival s p m w + hi }

/-- Two windows overlap. -/
def windowsMeet (a b : Window) : Bool := a.start < b.fin && b.start < a.fin

/-- The last map of a port that has reached its cutoff: its lane's, or the one that the PON frame in progress carries. -/
def closedMap (s : State) (p : Nat) : Nat := max (laneAt5 s (laneOf p)).cutoff s.time.sfc

/-- A window may be placed: it lies in upstream frames whose maps have not reached their cutoff, and overlaps none placed. -/
def mayPlace (s : State) (p : Nat) (x : Window) : Bool :=
  (closedMap s p : Int) < upFrame s p x.start && !(portAt s p).windows.any (windowsMeet x)

/-- The quotient rounded up to a natural number; 0 below 0. -/
def ceilNat (a : Int) (b : Nat) : Nat := if a ≤ 0 then 0 else ((a + b - 1) / b).toNat

/-- The words of a map at which a window can first become possible: word 0, the start of the first frame that is open, and
the ends of the windows placed. -/
def placeWords (s : State) (p m : Nat) (lo : Int) : List Nat :=
  let z := zeroArrival s p m 0 + lo
  let open_ := ((closedMap s p + 1) * frameUi s p + 16 * teqd s p : Nat)
  (0 :: ((open_ : Int) :: (portAt s p).windows.map Window.fin).map fun b => ceilNat (b - z) 512).filter
    (· < frameWords (upKind s p))

/-- The lowest word of a map at which a window may be placed. -/
def lowestWord (s : State) (p : Nat) (kind : WinKind) (term m : Nat) (lo hi : Int) : Option Nat :=
  ((placeWords s p m lo).filter fun w => mayPlace s p (windowAt s p kind term m w lo hi)).min?

/-- A map is active for a port's tree: always, but in Halter grant mode only one in eight is (R444). -/
def mapActive (s : State) (p m : Nat) : Bool := !s.halter.grantMode || m % 8 = laneOf p

/-- Place a window in the earliest map from one on (R552, R444). -/
def findPlace (s : State) (p : Nat) (kind : WinKind) (term : Nat) (lo hi : Int) (fuel m : Nat) : Option Window :=
  match fuel with
  | 0 => none
  | k + 1 =>
    match if mapActive s p m then lowestWord s p kind term m lo hi else none with
    | some w => some (windowAt s p kind term m w lo hi)
    | none => findPlace s p kind term lo hi k (m + 1)

/-- Keep a placed window, and drop those that lie wholly in the past. -/
def putWindow (p : Nat) (x : Window) (s : State) : State :=
  let past (y : Window) : Bool := upFrame s p y.fin + 1 < (s.time.sfc : Int)
  updPort p (fun q => { q with windows := (q.windows.filter fun y => !past y) ++ [x] }) s

/-- A ranging or re-ranging grant of a terminal is decided: it goes in the earliest map at or after the one requested. -/
def placeGrant (i floor_ : Nat) (s : State) : State :=
  match termAt s i with
  | some t =>
    match t.window with
    | some (kind, lo, hi) =>
      match findPlace s t.port kind i lo hi 4096 (max floor_ (closedMap s t.port + 1)) with
      | some x => putWindow t.port x s
      | none => s
    | none => s
  | none => s

/-! ## PLOAMd queues (R97) -/

/-- The type of a message, as far as the queues tell types apart. -/
def ploamType : Ploam → Nat
  | .assignOnuId .. => 0
  | .rangingTime _ => 1
  | .burstProfile .. => 2
  | .keyControl _ => 3
  | .powerLevel _ => 4
  | .deactivate => 5
  | .extOffer .. => 6
  | .extConfirm _ => 7
  | .host .. => 8

/-- Put a message in a queue that holds at most one of each type. -/
def putPloam (m : Ploam) (l : List Ploam) : List Ploam :=
  if l.any fun x => ploamType x = ploamType m then l.map fun x => if ploamType x = ploamType m then m else x
  else l ++ [m]

/-- The port queues a message of its own to a terminal. -/
def ownPloam (i : Nat) (m : Ploam) (s : State) : State := updTerm i (fun t => { t with own := putPloam m t.own }) s

/-! ## Defects (R117, R118) -/

/-- A port defect is raised or cleared: code of Table 16.4 and class of Table 3.8. -/
def portDefect (p code cls : Nat) (on : Bool) (s : State) : State :=
  if on then raise 0x01 0 p 0 code cls 0 s else lower 0x01 0 p 0 code cls s

/-- A terminal defect is raised or cleared. -/
def termDefect (i code : Nat) (detail : Word) (on : Bool) (s : State) : State :=
  match termAt s i with
  | some t => if on then raise 0x01 0 t.port i code 0 detail s else lower 0x01 0 t.port i code 0 s
  | none => s

/-- LOS or LOL is raised on a port. -/
def portLoss (s : State) (p : Nat) : Bool := (portAt s p).los || (portAt s p).lol

/-- The cause DYING_GASP in a loss defect's detail: the spec gives it no number (log entry 34). -/
def lossDetail (t : Terminal) : Word := if t.dying then wd (Config.openCode 2) else 0

/-- Report a terminal's loss defect, unless its port has one (R117). -/
def reportLoss (i : Nat) (s : State) : State :=
  match termAt s i with
  | some t =>
    if termLoss t && !t.reported && !portLoss s t.port then
      termDefect i (if t.los then 0x0116 else 0x0117) (lossDetail t) true (updTerm i (fun t => { t with reported := true }) s)
    else s
  | none => s

/-- Clear a terminal's loss defect, with its report where it was reported (R115, R116). -/
def clearLoss (i : Nat) (s : State) : State :=
  match termAt s i with
  | some t =>
    let s1 := updTerm i (fun t => { t with los := false, lol := false, reported := false, bad := 0 }) s
    if termLoss t && t.reported then termDefect i (if t.los then 0x0116 else 0x0117) 0 false s1 else s1
  | none => s

/-! ## The end of an activation (R90, R100, R116, R154, R253) -/

/-- The serial number and index of a terminal as a RANGE record's DETAIL. -/
def snDetail (i : Nat) (t : Terminal) : List Word := [wd i, t.sn0, t.sn1]

/-- A RANGE record of a terminal (Table 17.2). -/
def rangeRecord (code i : Nat) (detail : List Word) (s : State) : State :=
  match termAt s i with
  | some t => recordEv 0x0007 code 0x02 0 t.port t.world detail s
  | none => s

/-- A terminal loses its activation and goes to a state: its key switch and requests are cancelled, its loss defect is cleared,
and its frames are freed. RANGING_READ goes on showing what its last ranging left. Deactivate_ONU-ID is sent where `tell`
says so. The messages that waited for the terminal, the host's included, are emptied, of which the spec says nothing (DESIGN CHOICE:
log entry 131). -/
def endActivation (i : Nat) (goal : RState) (tell : Bool) (s : State) : State :=
  let s1 := freeTerminalFrames i (clearLoss i s)
  updTerm i (fun t => { t with
    st := goal, cand := none, wait := none, tries := 0, window := none,
    energyFails := 0, lastGood := none, switch := none, switched := none, keyReq := none, ext := 0, confirm := none,
    hostMsgs := [], own := if tell && hasOnu t then [.deactivate] else [] }) s1

/-- The counters of Table 3.9 by position. -/
def cPon (pos : Nat) : Nat := cid 3 9 pos

/-- Count at a port and at a terminal of a world. -/
def bumpPon (pos p : Nat) (t : Option Nat) (world : Nat) (s : State) : State :=
  let s1 := bump (cPon pos) 1 p s
  match t with | some i => bumpW (cPon pos) 2 i world s1 | none => s1

/-- The secure island checks a MIC (Table 17.6). -/
def micSeen (world : Nat) (s : State) : State := countEvent 0x48 0x101 world 1 s

/-- A message that passes its MIC: the secure island holds the terminal's keys and finds the MIC good (R336). -/
def micPasses (s : State) (i : Nat) (ok : Bool) : Bool := ok && s.vault.registered.contains i

/-- A PLOAMu of a terminal: what it does where its MIC passes; otherwise it is discarded and counted (R120). -/
def onPloamu (i : Nat) (t : Terminal) (ok : Bool) (f : State → State) (s : State) : State :=
  micSeen t.world (if micPasses s i ok then f s else bumpPon 11 t.port (some i) t.world s)

/-- The counters of Table 5.8 by position, at a tree, its lane and a world. -/
def bump5 (pos p world n : Nat) (s : State) : State :=
  bumpBy { cid := cid 5 8 pos, scope := 8, idx := treeOf s p, world := world } n
    (bumpBy { cid := cid 5 8 pos, scope := 7, idx := laneOf p, world := world } n s)

/-! ## Allocations (R163, R165) -/

/-- The key of an allocation. -/
def allocKey (tree id : Nat) : Nat := tree * 16384 + id

/-- An allocation's context. -/
def allocAt (s : State) (k : Nat) : Option Alloc := mget s.weaver.allocs k

/-- Alter an allocation's context. -/
def updAlloc (k : Nat) (f : Alloc → Alloc) (s : State) : State :=
  match allocAt s k with
  | some a => { s with weaver := { s.weaver with allocs := mset s.weaver.allocs k (f a) } }
  | none => s

/-- A port's maps. -/
def mapsAt (s : State) (p : Nat) : PortMaps := mgetD s.weaver.ports p {}

/-- Alter a port's maps. -/
def updMaps (p : Nat) (f : PortMaps → PortMaps) (s : State) : State :=
  { s with weaver := { s.weaver with ports := mset s.weaver.ports p (f (mapsAt s p)) } }

/-- The value of a rate or scaled size (R164). -/
def Rate.val (r : Rate) : Nat := r.m * 2 ^ r.s

/-- The bits of a number. -/
def bitLen (n : Nat) : Nat := if n = 0 then 0 else Nat.log2 n + 1

/-- A number truncated to a 14-bit mantissa (R164). -/
def scaled (n : Nat) : Nat := let d := bitLen n - 14; n / 2 ^ d * 2 ^ d

end Sys2Proof.Machine
end

