-- ==== Sys2Proof/Machine/Ranging.lean ====
section
/-! DEFINITION. Discovery and ranging: windows, serial numbers, Awl, ranging states, drift and steps (chapter 4). -/

namespace Sys2Proof.Machine

/-! ## Windows of a terminal's ranging grants (R144, R150, R155) -/

/-- The span of a directed grant whose delimiter is expected at an arrival: from 0.5 µs before it to 0.5 µs after the length of the
Registration burst, which counts the guard (R103, R150). -/
def directedSpan (s : State) (p : Nat) (t : Terminal) (e : Int) : WinKind × Int × Int :=
  let l := registrationWords s p (s.time.sfc + 1) (fecOn s p t)
  (.directed, e - uiCeil s p 500000, e + ((l * 512 : Nat) : Int) + uiCeil s p 500000)

/-- A full-reach window (R155, R551). -/
def fullWindow (s : State) (p : Nat) : WinKind × Int × Int :=
  let d := discAt s p
  (.full, nearest s p, nearest s p + uiCeil s p (10000000 * d.diff + 2000000 + 500000 * d.near))

/-- The window of a classic ranging grant after a response whose RTD would be `e` (R144). -/
def classicWindow (s : State) (p : Nat) (e : Int) : WinKind × Int × Int :=
  let hi := e + uiCeil s p 2000000
  (.classic, hi - uiCeil s p (min 50000000 (10000000 * (discAt s p).diff + 2000000)), hi)

/-! ## Good and bad bursts of a terminal (R115, R117) -/

/-- The first good burst clears a port's LOS and LOL, and the terminal defects that they hid are reported (R117). -/
def portGood (p : Nat) (s : State) : State :=
  if portLoss s p then
    let s1 := if (portAt s p).los then portDefect p 0x0110 1 false s else s
    let s2 := if (portAt s p).lol then portDefect p 0x0111 1 false s1 else s1
    forEach (portTerms s p) (fun e s => reportLoss e.1 s) (updPort p (fun x => { x with los := false, lol := false }) s2)
  else s

/-- A good burst of a terminal: the second consecutive one clears the count of bad bursts and the loss defect (R115). -/
def goodBurst (i : Nat) (s : State) : State :=
  match termAt s i with
  | some t =>
    let s1 := updTerm i (fun t => { t with good := t.good + 1, lastGood := some s.time.sfc, energyFails := 0 }) (portGood t.port s)
    if 2 ≤ t.good + 1 then clearLoss i s1 else s1
  | none => s

/-- A missing or failed burst of a terminal raises LOS_i or LOL_i where the count reaches LOB_N (R115). -/
def badBurst (i : Nat) (missing : Bool) (s : State) : State :=
  match termAt s i with
  | some t =>
    let n := t.bad + 1
    let s1 := updTerm i (fun t => { t with good := 0, bad := n }) s
    if (cfgAt s t.port).lobN ≤ n && !termLoss t then
      reportLoss i (updTerm i (fun t => { t with los := missing, lol := !missing, lossAt := s.mono, lossFrame := s.time.sfc }) s1)
    else s1
  | none => s

/-! ## Assigning an ONU-ID (R143, R144, R150) -/

/-- Assign_ONU-ID goes to a terminal, which moves to ASSIGNED on the port that heard it; its ranging grant is requested when
the message is carried. -/
def assign (i p method : Nat) (w : WinKind × Int × Int) (s : State) : State :=
  match termAt s i with
  | some t =>
    ownPloam i (.assignOnuId (onuId i) t.sn0 t.sn1)
      (updTerm i (fun t => { t with st := .assigned, method := method, port := p, tries := 0, wait := none, window := some w }) s)
  | none => s

/-- A tree's terminal with a serial number. -/
def bySerial (s : State) (p : Nat) (sn0 sn1 : Word) : Option (Nat × Terminal) :=
  (treeTerms s (treeOf s p)).find? fun e => e.2.sn0 = sn0 && e.2.sn1 = sn1

/-- A serial number without a record: it is counted, and its message delivered to the OMCI queue once in 10 s (R143). -/
def unknownSerial (p : Nat) (sn0 sn1 : Word) (message : List Byte) (s : State) : State :=
  let s1 := bump (cid 17 7 7) 1 p s
  let key := sn0.toNat + sn1.toNat * 2 ^ 32
  let fresh := match mget (portAt s p).snSeen key with | some t => passed s t (10 * sec) | none => true
  match (portAt s (treeOf s p)).omci with
  | some q =>
    if fresh then
      let f : Frame := { epoch := s.epoch.current.toNat, rver := s.rules.current, source := p, dir := 1, len := message.length,
                         bytes := message }
      toHost q f [] (updPort p (fun x => { x with snSeen := mset x.snSeen key s.mono }) s1)
    else s1
  | none => s1

/-- A Serial_Number_ONU of a record (R143, R152). -/
def knownSerial (p i : Nat) (t : Terminal) (w : WinKind × Int × Int) (s : State) : State :=
  let recent : Bool := match t.lastGood with | some n => s.time.sfc ≤ n + 8 | none => false
  match t.st with
  | .pending => assign i p 0 w s
  | .assigned => s
  | _ =>
    if recent then
      rangeRecord 4 i (snDetail i t) (bump (cid 17 7 6) 1 p s)
    else assign i p 0 w (endActivation i .pending true s)

/-! ## Serial-number windows (R139, R142, R552) -/

/-- A staged change of a tree's reach holds its windows, from a successful prepare on (R139). -/
def reachHeld (s : State) (p : Nat) : Bool :=
  let tree := treeOf s p
  let d := (portAt s tree).disc
  (s.epoch.phase = .prepared || s.epoch.phase = .armed) && s.epoch.cmds.any fun c =>
    c.op = 0x1009 && c.charge ≠ 0 &&
      (let w := nthW (ownWords c.pkt) 0
       fld w 5 0 = tree && (fld w 31 24 ≠ d.diff || fld w 23 16 ≠ d.near))

/-- The spacing of a port's serial-number windows in ms; 0 opens none (R142, R151). -/
def snSpacing (s : State) (p : Nat) : Nat := if (portAt s p).pause.isSome then 20 else (discAt s p).spacing

/-- The bounds of a serial-number window (R142). -/
def snBounds (s : State) (p : Nat) : Int × Int :=
  let d := discAt s p
  (nearest s p, nearest s p + uiCeil s p (10000000 * d.diff + 500000 * d.near + 50000000))

/-- The earliest map of a port's next serial-number window: the first boundary at least the spacing after the start of the
last window. -/
def snFloor (s : State) (p : Nat) : Nat :=
  match (portAt s p).lastSn with
  | some t => ceilDiv (t + (uiCeil s p (snSpacing s p * ms)).toNat) (frameUi s p)
  | none => s.time.sfc + 1

/-- The first map from one on at whose word 0 the window may be placed. -/
def findSn (s : State) (p : Nat) (lo hi : Int) (fuel m : Nat) : Option Window :=
  match fuel with
  | 0 => none
  | k + 1 =>
    let x := windowAt s p .sn 0 m 0 lo hi
    if mayPlace s p x then some x else findSn s p lo hi k (m + 1)

/-- A serial-number window of a port is open, or its responses are still on their way, and an arrival lies in it. -/
def inSnWindow (s : State) (p : Nat) (arrival : Int) : Bool :=
  let (lo, hi) := snBounds s p
  lo ≤ arrival && arrival < hi && (portAt s p).windows.any fun x => x.kind = .sn && x.map ≤ s.time.sfc

/-- SERIAL_NUMBER_ONU: a response received in a serial-number window of a port; `arrival` is the RTD that its arrival
would mean, in 1/16 UI (R120). While a change of the tree's reach is prepared no terminal
leaves PENDING (R139). -/
def execSerialNumberOnu (port : Nat) (sn0 sn1 : Word) (arrival : Int) (message : SnMessage) (s : State) : Res :=
  onObject (port < 64) <| whenever (inService s port && inSnWindow s port arrival && !reachHeld s port)
    (fun s =>
      let known := bySerial s port sn0 sn1
      micSeen ((known.map fun e => e.2.world).getD 0x0100) (
        if !message.mic then (match known with | some (i, t) => bumpPon 11 port (some i) t.world s | none => bumpPon 11 port none 0x0100 s)
        else match known with
        | some (i, t) => knownSerial port i t (classicWindow s port arrival) s
        | none => unknownSerial port sn0 sn1 message.octets s)) s

/-- From a successful prepare of a change of reach on, the trees' serial-number windows that have not reached their cutoff are not
opened (R139), and the spacing counts from the one opened before (R142). -/
def closeHeldWindows (s : State) : State :=
  forBelow 64 (fun p s =>
    if reachHeld s p then updPort p (fun x =>
      let kept := x.windows.filter fun w => w.kind ≠ .sn || w.map ≤ closedMap s p
      { x with windows := kept, lastSn := if kept.length < x.windows.length then x.prevSn else x.lastSn }) s
    else s) s

/-- Fix a port's next serial-number window, no more than 8 PON frames ahead. -/
def openSn (p : Nat) (s : State) : State :=
  let (lo, hi) := snBounds s p
  match findSn s p lo hi 64 (max (snFloor s p) (s.time.sfc + 1)) with
  | some x =>
    if x.map ≤ s.time.sfc + 8 then updPort p (fun q => { q with lastSn := some x.start.toNat, prevSn := q.lastSn }) (putWindow p x s) else s
  | none => s

/-- SN_WINDOW_OPEN on a port. -/
def execSnWindowOpen (port : Nat) (s : State) : Res :=
  onObject (port < 64) <|
    whenever (inService s port && snSpacing s port ≠ 0 && !reachHeld s port
      && ((treeTerms s (treeOf s port)).filter fun e => e.2.st ≠ .pending).length < 512) (openSn port) s

/-! ## Awl (R146 to R151) -/

/-- Awl is enabled on a port's tree. -/
def awlOn (s : State) (p : Nat) : Bool := (discAt s p).awl

/-- The Awl code of a serial number under code version 0x0001: 64 blocks of SHA-256 (R145). -/
def awlCode (sn0 sn1 : Word) : List Byte :=
  (List.range 64).flatMap fun i =>
    Config.sha256 ([0x41, 0x57, 0x4C, 0x00, 0x01] ++ bytesOfWords [sn0, sn1] ++ beBytes 2 i)

/-- Chip `j` of a code: the bits of its bytes, the most significant first (R145). -/
def awlChip (code : List Byte) (j : Nat) : Bool := ((code.getD (j / 8) 0).getLsbD (7 - j % 8))

/-- The pending records that a port's correlator takes in a cycle: up to 16 in rising index from where it stopped (R149). -/
def awlCodes (s : State) (p : Nat) : List Nat :=
  let pend := sortBy (fun a b => decide (a ≤ b)) (((treeTerms s (treeOf s p)).filter fun e => e.2.st = .pending).map Prod.fst)
  let from_ := (portAt s p).search
  ((pend.filter (from_ ≤ ·)) ++ pend.filter (· < from_)).take 16

/-- The power of a code in 1/16 code under a port's calibration, in 1/(65,536 × 16) µW (R110). A port without one, whose BPM_GAIN is 0, is
taken to have a gain of 1 (DESIGN CHOICE: log entry 186). -/
def scaledPower (cfg : PortCfg) (code16 : Nat) : Nat := max 1 cfg.gain * (code16 - 16 * cfg.offset)

/-- The mean power of a tree's terminals, each under the calibration of its own port (R92, R110); none without a measurement. -/
def treeMean (s : State) (p : Nat) : Option Nat :=
  let ms_ := ((treeTerms s (treeOf s p)).filter fun e => e.2.measured ≠ 0).map fun e => scaledPower (cfgAt s e.2.port) e.2.mean
  if ms_.isEmpty then none else some (ms_.foldl (· + ·) 0 / ms_.length)

/-- A mean BPM level exceeds the tree mean burst power less 12 dB: (level / mean)^5 > 10^-6. -/
def crowded (s : State) (p level : Nat) : Bool :=
  match treeMean s p with
  | some m => m ^ 5 < scaledPower (cfgAt s p) (16 * level) ^ 5 * 10 ^ 6
  | none => false

/-- The crowd measurement of a cycle, where there was an interval to measure; the second beyond the level in a row raises
AWL_CROWD and pauses Awl for 1 s (R151). -/
def judgeCrowd (p : Nat) (level : Option Nat) (s : State) : State :=
  match level with
  | none => s
  | some v =>
    if crowded s p v then
      if 2 ≤ (portAt s p).crowd + 1 then
        let s1 := updPort p (fun x => { x with crowd := 0, pause := some s.mono, awlCrowd := true }) s
        if (portAt s p).awlCrowd then s1 else raise 0x02 1 p 0 0x0210 0 0 s1
      else updPort p (fun x => { x with crowd := x.crowd + 1 }) s
    else updPort p (fun x => { x with crowd := 0 }) s

/-- A PON frame whose count is a multiple of 128 begins: bit 0 and octet 10 of EXT_OFFER follow AWL_EN and the pause from the first
EXT_OFFER of that frame on, and where AWL_EN has gone to 0 the 256 PON frames of the last offers begin (R146). -/
def awlOffer (p : Nat) (s : State) : State :=
  let on := awlOn s p
  updPort p (fun x => { x with
    tail := if x.offering && !on then 256 else if on then 0 else x.tail, offering := on,
    running := on && x.pause.isNone && !reachHeld s p && !x.noOptics }) s

/-- An Awl cycle begins on a port: the crowd measurement of the last one is judged, and the correlator takes the codes of its
terminals (R145, R149, R151). `level` is the mean BPM level measured. -/
def awlCycle (p : Nat) (level : Option Nat) (s : State) : State :=
  let s1 := if (portAt s p).running then judgeCrowd p level s else s
  let run := (portAt s p).running && (portAt s1 p).pause.isNone
  let codes := if run then awlCodes s1 p else []
  let coded := codes.map fun i => (i, match termAt s i with | some t => awlCode t.sn0 t.sn1 | none => [])
  updPort p (fun x => { x with
    codes := coded, search := match codes.getLast? with | some i => i + 1 | none => x.search }) s1

/-- AWL_CYCLE_BOUNDARY: a PON frame whose count is a multiple of 128 begins. -/
def execAwlCycleBoundary (port : Nat) (level : Option Nat) (s : State) : Res :=
  onObject (port < 64) <| whenever (inService s port && s.time.sfc % 128 = 0) (awlCycle port level) s

/-- AWL_PAUSE_END: 1 s after its start a pause ends, AWL_CROWD clears, and Awl resumes from the next cycle boundary (R146, R151). -/
def execAwlPauseEnd (port : Nat) (s : State) : Res :=
  onObject (port < 64) <| whenever (match (portAt s port).pause with | some t => passed s t sec | none => false)
    (fun s => lower 0x02 1 port 0 0x0210 0 (updPort port (fun x => { x with pause := none, awlCrowd := false }) s)) s

/-- The correlator's search range, which is that of a full-reach window (Table 4.3, R551). -/
def inAwlRange (s : State) (p : Nat) (rtd : Int) : Bool := (fullWindow s p).2.1 ≤ rtd && rtd ≤ (fullWindow s p).2.2

/-- AWL_DETECTION: a port's correlator finds the code of a pending terminal, with the RTD that its arrival means in
1/16 UI (R148, R150, R152). -/
def execAwlDetection (port terminal : Nat) (rtd : Int) (s : State) : Res :=
  match termAt s terminal with
  | none => .fault .noSuchObject
  | some t =>
    onObject (port < 64) <|
      whenever (t.st = .pending && ((portAt s port).codes.any fun e => e.1 = terminal) && (portAt s port).running && !reachHeld s port
        && inAwlRange s port rtd)
        (fun s => assign terminal port 1 (directedSpan s port t rtd) s) s

/-! ## Ranging (R140, R154) -/

/-- Ranging_Time is sent, and its Acknowledge awaited. -/
def sendRanging (i : Nat) (w : RtWait) (s : State) : State :=
  ownPloam i (.rangingTime w.eqd.toNat) (updTerm i (fun t => { t with wait := some w, asked := true }) s)

/-- The nearest whole UI of a delay in 1/16 UI, halves rounded up (R140). -/
def nearestUi (x : Int) : Int := (x + 8) / 16

/-- The derived keys of a terminal are rebuilt from the MSK in force (R336). -/
def rebuildKeys (i : Nat) (v : VaultSt) : VaultSt :=
  { v with registered := i :: v.registered.filter (· ≠ i),
           built := match mget v.msk i with | some k => mset v.built i k | none => mdel v.built i }

/-- A Registration message of a terminal: where its MIC is good the secure island rebuilds the terminal's keys (R120, R336). -/
def registration (i : Nat) (t : Terminal) (mic : Bool) (s : State) : State :=
  micSeen t.world (if mic then { s with vault := rebuildKeys i s.vault }
    else bumpPon 11 t.port (some i) t.world s)

/-- A good ranging burst with its RTD and its Registration message (R140, Table 4.4). -/
def ranged (i : Nat) (t : Terminal) (rtd : Int) (mic : Bool) (s : State) : State :=
  let q : Int := teqd s t.port
  let s1 := updTerm i (fun t => { t with window := none, tries := 0, rtd := rtd }) (goodBurst i (registration i t mic s))
  if 16 * (q - 64) < rtd then rangeRecord 2 i [wd i, wd (unsigned 32 rtd)] (endActivation i .held true s1)
  else
    sendRanging i { eqd := nearestUi (16 * q - rtd), sent := s.time.sfc, sends := 1, rtd := some rtd, corr := 0 } s1

/-- RANGING_BURST: a good burst in a terminal's ranging window, with the RTD measured in 1/16 UI. -/
def execRangingBurst (sender : PloamFrom) (rtd : Int) (s : State) : Res :=
  match termAt s sender.terminal with
  | none => .fault .noSuchObject
  | some t =>
    .next (whenever ((t.st = .assigned || t.st = .reranging) && t.wait.isNone && t.window.isSome) (ranged sender.terminal t rtd sender.mic) s)

/-- A ranging grant passes without a good burst: it is granted again, or the third returns the terminal to PENDING (Table 4.4). -/
def rangingMissed (i : Nat) (s : State) : State :=
  match termAt s i with
  | some t =>
    if t.st ≠ .assigned && t.st ≠ .reranging then s
    else if t.tries + 1 < 3 then placeGrant i 0 (updTerm i (fun t => { t with tries := t.tries + 1 }) s)
    else if t.st = .assigned then endActivation i .pending true (bumpW (cid 17 7 8) 2 i t.world s)
    else endActivation i .pending true (rangeRecord 3 i (snDetail i t) s)
  | none => s

/-- The port requests a new key of a terminal for an index (R309). -/
def requestKey (i index : Nat) (s : State) : State :=
  ownPloam i (.keyControl index)
    (updTerm i (fun t => { t with keyReq := some { index := index, sent := s.time.sfc, tries := 1 }, asked := true }) s)

/-! ## Notices and re-ranging (R155, R158 to R160) -/

/-- A range notice: cause, RTD before, and in the second one the new RTD and the difference; for a step, its size. -/
def rangeNotice (i cause : Nat) (old new diff size : Int) (s : State) : State :=
  match termAt s i with
  | some t =>
    raise 0x02 0 t.port i 0x0211 0 0
      (rangeRecord 1 i [wd i, wd cause, wd (unsigned 32 old), wd (unsigned 32 new), wd (unsigned 32 diff), wd (unsigned 32 size)] s)
  | none => s

/-- A terminal in OPERATING moves to RERANGING with a cause and a requested window (Table 4.4). -/
def rerange (i cause : Nat) (size : Int) (w : WinKind × Int × Int) (s : State) : State :=
  match termAt s i with
  | some t =>
    let old := 16 * ((teqd s t.port : Int) - t.eqd) + t.drift
    let s1 := updTerm i (fun t => { t with
      st := .reranging, steps := satAdd 0xFFFF t.steps 1, wait := none, cand := none, energyFails := 0, tries := 0,
      window := some w, cause := cause, rtdBefore := old,
      own := t.own.filter fun m => ploamType m ≠ 1 }) s
    placeGrant i 0 (rangeNotice i cause old 0 0 size s1)
  | none => s

/-- An Acknowledge of a ranging (Table 4.4): the terminal enters OPERATING with its EQD, RTD and residual (R156). Whether a re-ranging
counts as the ranging that the reference of R111 follows the spec does not say: MEASURED and the reference stay (DESIGN CHOICE: log
entry 186). -/
def enterOperating (i : Nat) (t : Terminal) (w : RtWait) (rtd : Int) (s : State) : State :=
  let again := t.st = .reranging
  let s1 := updTerm i (fun t => { t with
    st := .operating, eqd := w.eqd, rtd := rtd, drift := 16 * w.eqd - (16 * (teqd s t.port : Int) - rtd), wait := none,
    cand := none, energyFails := 0, tries := 0, window := none, measured := if again then t.measured else 0,
    ref := if again then t.ref else none,
    lastStep := if again then rtd - t.rtdBefore else t.lastStep, delayDue := t.delayDue || again }) s
  if again then rangeNotice i t.cause t.rtdBefore rtd (rtd - t.rtdBefore) 0 s1 else requestKey i 1 s1

/-- ACKNOWLEDGE of a Ranging_Time (Table 4.4, R157). -/
def execAcknowledge (sender : PloamFrom) (s : State) : Res :=
  match termAt s sender.terminal with
  | none => .fault .noSuchObject
  | some t =>
    .next (onPloamu sender.terminal t sender.mic (fun s => match t.wait with
    | none => s
    | some w =>
      match w.rtd with
      | some r => enterOperating sender.terminal t w r s
      | none => updTerm sender.terminal (fun t => { t with
          wait := none, eqd := w.eqd, drift := t.drift - 16 * w.corr, lastCorr := w.corr, corrs := satAdd 0xFFFF t.corrs 1 }) s) s)

/-- RANGING_TIME_TIMEOUT: at the end of the fourth PON frame of a send without Acknowledge the message is sent again, up to three times (R154,
Table 4.4). -/
def rangingTimeout (i : Nat) (t : Terminal) (w : RtWait) (s : State) : State :=
  if w.sends < 3 then sendRanging i { w with sends := w.sends + 1, sent := s.time.sfc } s
  else if w.rtd.isNone then
    rerange i 4 0 (directedSpan s t.port t (16 * (teqd s t.port : Int) + t.lastOffset)) s
  else
    endActivation i .pending true (rangeRecord 5 i (snDetail i t) (bumpW (cid 17 7 8) 2 i t.world s))

def execRangingTimeTimeout (terminal : Nat) (s : State) : Res :=
  match termAt s terminal with
  | none => .fault .noSuchObject
  | some t =>
    .next (match t.wait with
    | some w => whenever (w.sent + 3 ≤ s.time.sfc && !(t.own.any fun m => ploamType m = 1)) (rangingTimeout terminal t w) s
    | none => s)

/-! ## Drift (R156, R157) -/

/-- Send a correction where D is beyond 8 UI and none is pending (R157). -/
def correct (i : Nat) (s : State) : State :=
  match termAt s i with
  | some t =>
    if 128 < t.drift.natAbs && t.wait.isNone then
      let c := roundDiv t.drift 16
      sendRanging i { eqd := t.eqd - c, sent := s.time.sfc, sends := 1, rtd := none, corr := c } s
    else s
  | none => s

/-- A good burst's delimiter offset of a terminal in OPERATING (R156, R158). -/
def useOffset (i : Nat) (o : Int) (s : State) : State :=
  match termAt s i with
  | some t =>
    if t.st ≠ .operating then s
    else
      let s0 := updTerm i (fun t => { t with lastOffset := o }) s
      if (o - t.drift).natAbs ≤ 1024 then
        correct i (updTerm i (fun t => { t with
          drift := if t.wait.isNone then t.drift + (o - t.drift).tdiv 8 else t.drift, cand := none }) s0)
      else
        match t.cand with
        | some c =>
          if (o - c).natAbs ≤ 64 then
            rerange i 1 (o - t.drift) (directedSpan s t.port t (16 * (teqd s t.port : Int) + o)) s0
          else bumpW (cid 17 7 9) 2 i t.world (updTerm i (fun t => { t with cand := some o }) s0)
        | none => updTerm i (fun t => { t with cand := some o }) s0
  | none => s

/-- A burst failed with energy: the second in a row moves the terminal to RERANGING (R159). -/
def failedWithEnergy (i : Nat) (s : State) : State :=
  match termAt s i with
  | some t =>
    if t.st ≠ .operating then s
    else if 2 ≤ t.energyFails + 1 then rerange i 2 0 (fullWindow s t.port) s
    else updTerm i (fun t => { t with energyFails := t.energyFails + 1 }) s
  | none => s

/-! ## Commands -/

/-- A command's world reaches an object's world (R10). -/
def reaches (world object : Nat) : Bool := world = 0x0100 || world = object

/-- DISCOVERY_CONFIG (R138, R139, Table 4.4). -/
def runDiscoveryConfig (c : Ctx) (s : State) : HRes :=
  let p := fld (c.w 0) 5 0
  let diff := fld (c.w 0) 31 24
  let near := fld (c.w 0) 23 16
  let sp := fld (c.w 1) 31 16
  refuseIf (c.inst ≠ p || (paired s p && p % 2 = 1)) .badTarget [] <|
  refuseIf (diff < 1 || 40 < diff || 40 < near || 60 < near + diff) .badParam [0] <|
  refuseIf (sp ≠ 0 && (sp < 10 || 60000 < sp)) .badParam [1] <|
  let d := (portAt s p).disc
  refuseIf (!c.accepting && (diff ≠ d.diff || near ≠ d.near) && (treeTerms s p).any fun e => e.2.st ≠ .pending) .notPermitted [] <|
  let s1 := updPort p (fun x => { x with disc := { diff := diff, near := near, awl := bit (c.w 0) 8, spacing := sp } }) s
  .done (forEach (treeTerms s p) (fun e s => if e.2.st = .held then endActivation e.1 .pending false s else s) s1) []

def opDiscoveryConfig : OpSpec :=
  { code := 0x1009, home := (0x02, 0), units := [(0x01, 0)], oWorld := true, len := exactly 2,
    rsv := masks [0x0000FEC0#32, 0x0000FFFF#32], stage := .stageable, objs := fun ws => [(0x1009, fld (nthW ws 0) 5 0)],
    run := runDiscoveryConfig }

/-- The code of a ranging state (Table 4.5). -/
def rangeCode : RState → Nat
  | .pending => 0 | .assigned => 1 | .operating => 2 | .reranging => 3 | .held => 4

/-- RANGING_READ (R161, Table 4.5). -/
def runRangingRead (c : Ctx) (s : State) : HRes :=
  let i := fld (c.w 0) 14 0
  match termAt s i with
  | none => .refuse .notFound []
  | some t =>
    refuseIf (!reaches c.world t.world) .badWorld [] <|
    .done s
      [ pack [(rangeCode t.st, 4, 24), (t.method, 1, 16), (i, 15, 0)], wd (t.eqd.toNat % 2 ^ 25), wd (t.rtd.toNat % 2 ^ 29),
        pack [(unsigned 16 t.lastCorr, 16, 16), (unsigned 16 t.drift, 16, 0)], pack [(t.steps, 16, 16), (t.corrs, 16, 0)],
        wd (teqd s t.port), wd (unsigned 32 t.lastStep) ]

def opRangingRead : OpSpec :=
  { code := 0x100A, vf := true, writes := false, home := (0x02, 0), instOf := some fun ws => fld (nthW ws 0) 14 0 / 512, len := exactly 1,
    rsv := masks [0xFFFF8000#32], run := runRangingRead }

/-- TERMINAL_RERANGE (R155, Table 4.4). -/
def runTerminalRerange (c : Ctx) (s : State) : HRes :=
  let i := fld (c.w 0) 14 0
  match termAt s i with
  | none => .refuse .notFound []
  | some t =>
    refuseIf (!reaches c.world t.world) .badWorld [] <|
    match t.st with
    | .operating => .done (rerange i 3 0 (fullWindow s t.port) s) []
    | .held => .done (endActivation i .pending false s) []
    | _ => .done s []

def opTerminalRerange : OpSpec :=
  { code := 0x100B, writes := false, home := (0x02, 0), instOf := some fun ws => fld (nthW ws 0) 14 0 / 512, len := exactly 1, rsv := masks [0xFFFF8000#32],
    run := runTerminalRerange }

end Sys2Proof.Machine
end

