-- ==== Sys2Proof/Machine/Weaver.lean ====
section
/-! DEFINITION. Weaver: allocation contexts, their commands, the sweep with its forecaster, and report absorption
(chapter 5 up to Passes). -/

namespace Sys2Proof.Machine

/-! ## Allocation contexts (Table 5.2) -/

/-- A rate field: mantissa and shift (R164). -/
def rateOf (w : Word) : Rate := { m := fld w 13 0, s := fld w 17 14 }

/-- A rate's field. -/
def rateWord (r : Rate) : Word := pack [(r.s, 4, 14), (r.m, 14, 0)]

/-- What a field of a width holds of a value; the spec does not say what it holds of one too large for it. -/
def inField (w v : Nat) : Nat := if v < 2 ^ w then v else Config.narrow w v % 2 ^ w

/-- The fields that ALLOC_WRITE writes, over a context; a rewrite keeps the others (R165, R167). -/
def allocWritten (ws : List Word) (a : Alloc) : Alloc :=
  let w8 := nthW ws 8
  let fc := bit w8 9
  let back := fc && !a.fcEn
  { a with
    terminal := fld (nthW ws 0) 14 0, world := fld (nthW ws 1) 31 16, cls := fld (nthW ws 1) 7 4, prio := fld (nthW ws 1) 1 0,
    fixed := rateOf (nthW ws 2), assured := rateOf (nthW ws 3), nonassured := rateOf (nthW ws 4),
    besteffort := rateOf (nthW ws 5), maximum := rateOf (nthW ws 6), fcast := rateOf (nthW ws 7),
    weight := fld w8 29 16, gated := bit w8 11, hintEn := bit w8 10, fcEn := fc, gateClass := fld w8 2 0,
    fcPriv := a.fcPriv || back, unusedRun := if back then 0 else a.unusedRun, lostAt := if back then none else a.lostAt,
    hints := if bit w8 10 then a.hints else [] }

/-- A hint slot's words; 0 without a hint. -/
def hintAt (a : Alloc) (k : Nat) : Nat := mgetD a.hints k 0

/-- The image of a context. -/
def allocImage (tree id : Nat) (a : Alloc) : List Word :=
  [ pack [(id, 14, 16), (a.terminal, 15, 0)], pack [(a.world, 16, 16), (tree, 6, 8), (a.cls, 4, 4), (a.prio, 2, 0)],
    rateWord a.fixed, rateWord a.assured, rateWord a.nonassured, rateWord a.besteffort, rateWord a.maximum, rateWord a.fcast,
    pack [(a.weight, 14, 16), (b2n a.gated, 1, 11), (b2n a.hintEn, 1, 10), (b2n a.fcEn, 1, 9), (b2n a.fcPriv, 1, 8),
      (a.gateClass, 3, 0)],
    pack [(a.period, 8, 24), (a.lastArr, 8, 16), (a.conf, 4, 12), (a.unusedRun, 4, 8), (a.privLosses, 8, 0)],
    pack [(a.ewma, 28, 0)], pack [(a.peak, 18, 0)],
    pack [(b2n (mhas a.hints 4), 1, 31), (b2n (mhas a.hints 3), 1, 30), (b2n (mhas a.hints 2), 1, 29),
      (b2n (mhas a.hints 1), 1, 28), (hintAt a 2, 14, 14), (hintAt a 1, 14, 0)],
    pack [(hintAt a 4, 14, 14), (hintAt a 3, 14, 0)], pack [(a.repAge, 8, 24), (a.lastReport, 24, 0)],
    pack [(a.grantBits, 8, 24), (a.inflight, 24, 0)] ]

/-- The guaranteed rate (R169). -/
def guaranteed (a : Alloc) : Nat := a.fixed.val + a.assured.val

/-! ## Admission (R162, R163, R169, R170) -/

/-- Where an ALLOC_WRITE breaks R163, Table 5.3 or R166, by parameter word. Identifiers below 1,024 are a terminal's
default allocation, equal to its ONU-ID, or broadcast (PRESUMED, log entry 40). `words` are the port's words per PON
frame; none in mode 0. -/
def allocFaults (id : Nat) (words : Option Nat) (a : Alloc) : List Nat :=
  let f := a.fixed.val
  let g := a.assured.val
  let n := a.nonassured.val
  let b := a.besteffort.val
  let m := a.maximum.val
  let at_ (c : Bool) (i : Nat) : List Nat := if c then [i] else []
  at_ (id = 0x3FFF || (id < 1024 && id ≠ onuId a.terminal)) 0
  ++ at_ (a.cls = 0 || 5 < a.cls) 1
  ++ at_ (if a.cls = 1 then f = 0 else a.cls ≠ 5 && f ≠ 0) 2
  ++ at_ (if a.cls = 2 then g = 0 else a.cls ≠ 3 && a.cls ≠ 5 && g ≠ 0) 3
  ++ at_ (if a.cls = 3 then n = 0 else a.cls ≠ 5 && n ≠ 0) 4
  ++ at_ (if a.cls = 4 then b = 0 else a.cls ≠ 5 && b ≠ 0) 5
  ++ at_ (match a.cls with
      | 1 => m ≠ f
      | 2 => m ≠ g
      | 3 => m ≠ g + n
      | 4 => m < b
      | _ => m < f + g || m < n || m < b) 6
  ++ at_ (match words with | some w => w < m | none => false) 6
  ++ at_ (m < a.fcast.val) 7
  ++ at_ (a.weight = 0 || ((a.cls = 1 || a.cls = 4) && (a.fcEn || a.hintEn))) 8

/-- The allocations of a tree, and those of a lane. -/
def treeAllocs (s : State) (tree : Nat) : List (Nat × Alloc) := s.weaver.allocs.filter fun e => e.1 / 16384 = tree
def laneAllocs (s : State) (k : Nat) : List (Nat × Alloc) := s.weaver.allocs.filter fun e => laneOf (e.1 / 16384) = k

/-- The guaranteed capacity of a port (Table 5.4). -/
def guarCapacity (k : Nat) : Nat := match k with | 1 => 30000 | 2 => 75000 | _ => 150000

/-- The guaranteed rates of some allocations. -/
def guarSum (l : List (Nat × Alloc)) : Nat := (l.map fun e => guaranteed e.2).foldl (· + ·) 0

/-- The allocations bound to a port, through their terminals. -/
def portAllocs (s : State) (p : Nat) : List (Nat × Alloc) :=
  (treeAllocs s (treeOf s p)).filter fun e => match termAt s e.2.terminal with | some t => t.port = p | none => false

/-- The limits that the contexts of a state exceed for a port: those of Table 5.1 and R170. -/
def overCapacity (s : State) (tree p : Nat) : Bool :=
  131072 < s.weaver.allocs.length || 16384 < (laneAllocs s (laneOf tree)).length || 16383 < (treeAllocs s tree).length
  || (inService s p && guarCapacity (upKind s p) < guarSum (portAllocs s p))
  || (s.weaver.budget ≠ 0 && s.weaver.budget < guarSum s.weaver.allocs)

/-! ## Commands -/

/-- The counters of Table 5.8 by position. -/
def c5 (pos : Nat) : Nat := cid 5 8 pos

/-- Write a context. -/
def setAlloc (k : Nat) (a : Alloc) (s : State) : State :=
  { s with weaver := { s.weaver with allocs := mset s.weaver.allocs k a } }

/-- ALLOC_WRITE (R165 to R167). -/
def runAllocWrite (c : Ctx) (s : State) : HRes :=
  let id := fld (c.w 0) 29 16
  let i := fld (c.w 0) 14 0
  let world := fld (c.w 1) 31 16
  let tree := fld (c.w 1) 13 8
  let k := allocKey tree id
  refuseIf (c.inst ≠ laneOf tree) .badTarget [] <|
  match termAt s i with
  | none => .refuse .notFound []
  | some t =>
    refuseIf (i / 512 ≠ tree) .badParam [0] <|
    refuseIf (world ≠ t.world || !reaches c.world world) .badWorld [] <|
    let old := allocAt s k
    let fresh : Alloc := { fcEn := bit (c.w 8) 9, fcPriv := bit (c.w 8) 9 }
    let a := allocWritten c.words (old.getD fresh)
    match (allocFaults id (if inService s t.port then some (frameWords (upKind s t.port)) else none) a).min? with
    | some w => .refuse .badParam [wd w]
    | none =>
      let s1 := setAlloc k a s
      refuseIf (!c.accepting && overCapacity s1 tree t.port) .noSpace [] <|
      refuseIf (match old with | some o => o.terminal ≠ i | none => false) .exists [] <|
      .done s1 []

/-- The object of an allocation (R72). -/
def allocObj (tree id : Nat) : List (Nat × Nat) := [(0x2001, allocKey tree id)]

def opAllocWrite : OpSpec :=
  { code := 0x2001, home := (0x03, 0), len := exactly 16, stage := .stageable,
    rsv := masks [0xC0008000#32, 0x0000C00C#32, 0xFFFC0000#32, 0xFFFC0000#32, 0xFFFC0000#32, 0xFFFC0000#32, 0xFFFC0000#32,
      0xFFFC0000#32, 0xC000F0F8#32, 0#32, 0xF0000000#32, 0xFFFC0000#32, 0#32, 0xF0000000#32],
    objs := fun ws => allocObj (fld (nthW ws 1) 13 8) (fld (nthW ws 0) 29 16), run := runAllocWrite }

/-- An allocation that a command names in word 0 (R168). -/
def namedAlloc (c : Ctx) (s : State) (f : Nat → Nat → Alloc → HRes) : HRes :=
  let tree := fld (c.w 0) 5 0
  let id := fld (c.w 0) 29 16
  refuseIf (c.inst ≠ laneOf tree) .badTarget [] <|
  match allocAt s (allocKey tree id) with
  | none => .refuse .notFound []
  | some a => refuseIf (!reaches c.world a.world) .badWorld [] (f tree id a)

/-- ALLOC_READ (R165, R168). -/
def runAllocRead (c : Ctx) (s : State) : HRes := namedAlloc c s fun tree id a => .done s (allocImage tree id a)

def opAllocRead : OpSpec :=
  { code := 0x2002, vf := true, writes := false, home := (0x03, 0), len := exactly 1, rsv := masks [0xC000FFC0#32],
    run := runAllocRead }

/-- ALLOC_DELETE (R168). -/
def runAllocDelete (c : Ctx) (s : State) : HRes :=
  namedAlloc c s fun tree id _ =>
    .done { s with weaver := { s.weaver with allocs := mdel s.weaver.allocs (allocKey tree id) } } []

def opAllocDelete : OpSpec :=
  { code := 0x2003, home := (0x03, 0), len := exactly 1, rsv := masks [0xC000FFC0#32], stage := .stageable,
    objs := fun ws => allocObj (fld (nthW ws 0) 5 0) (fld (nthW ws 0) 29 16), run := runAllocDelete }

/-- Store, replace or cancel a hint, with its counts (R185, R186). -/
def putHint (tree : Nat) (k ahead words : Nat) (a : Alloc) (s : State) : State :=
  if words = 0 then updAlloc k (fun a => { a with hints := mdel a.hints ahead }) s
  else
    bump5 7 tree a.world 1
      (whenever (mhas a.hints ahead) (bump5 8 tree a.world 1) (updAlloc k (fun a => { a with hints := mset a.hints ahead words }) s))

/-- SCHEDULE_HINT (R185, R186, R197, R444): the hint's map is the AHEAD-th whose cutoff is still to come. -/
def runScheduleHint (c : Ctx) (s : State) : HRes :=
  let tree := fld (c.w 0) 5 0
  let id := fld (c.w 0) 29 16
  let ahead := fld (c.w 0) 10 8
  refuseIf (unitFailed s 0x03 0 (laneOf tree)) .unitFailed [] <|
  match allocAt s (allocKey tree id) with
  | none => .refuse .notFound []
  | some a =>
    refuseIf (!reaches c.world a.world) .badWorld [] <|
    refuseIf (!a.hintEn || s.halter.grantMode) .notPermitted [] <|
    refuseIf (ahead < 1 || 4 < ahead) .badParam [0] <|
    .done (putHint tree (allocKey tree id) ahead (fld (c.w 1) 13 0) a s)
      [lo32 (closedMap s tree + ahead)]

def opScheduleHint : OpSpec :=
  { code := 0x2004, vf := true, writes := false, home := (0x03, 0), len := exactly 2,
    rsv := masks [0xC000F8C0#32, 0xFFFFC000#32], run := runScheduleHint }

/-- The weights of CINCH_BUDGET by tree (Table 5.7). -/
def cinchWeights (ws : List Word) : Map Nat Nat :=
  (List.range 64).map fun t => (t, let w := nthW ws (t / 2 + 1); if t % 2 = 1 then fld w 29 16 else fld w 13 0)

/-- CINCH_BUDGET (R187). -/
def runCinchBudget (c : Ctx) (s : State) : HRes :=
  let b := fld (c.w 0) 27 0
  let ws := cinchWeights c.words
  refuseIf (!c.accepting && b ≠ 0 && b < guarSum s.weaver.allocs) .noSpace [] <|
  match ws.find? fun e => e.2 = 0 with
  | some e => .refuse .badParam [wd (e.1 / 2 + 1)]
  | none => .done { s with weaver := { s.weaver with budget := b, weights := ws } } []

def opCinchBudget : OpSpec :=
  { code := 0x2005, home := (0x03, 1), oWorld := true, len := exactly 33,
    rsv := masks (0xF0000000#32 :: List.replicate 32 0xC000C000#32), stage := .stageable, objs := fun _ => [(0x2005, 0)],
    run := runCinchBudget }

/-- A counter of an object over all worlds, or of one world. -/
def worldCount (s : State) (c scope idx world : Nat) : Nat :=
  ((s.ctr.named.filter fun e => e.1.cid = c && e.1.scope = scope && e.1.idx = idx && (world = 0x0100 || e.1.world = world)).map
    Prod.snd).foldl (· + ·) 0 % 2 ^ 48

/-- WEAVER_STATS (R198). -/
def runWeaverStats (c : Ctx) (s : State) : HRes :=
  let t := fld (c.w 0) 15 0
  refuseIf (t ≠ 0xFFFF && laneOf t ≠ c.inst) .badParam [0] <|
  let read (pos : Nat) : Nat :=
    if t = 0xFFFF then worldCount s (c5 pos) 7 c.inst c.world else worldCount s (c5 pos) 8 t c.world
  .done s ((List.range 17).flatMap fun pos => [lo32 (read pos), hi32 (read pos)])

def opWeaverStats : OpSpec :=
  { code := 0x2006, vf := true, writes := false, home := (0x03, 0), len := exactly 1, rsv := masks [0xFFFF0000#32],
    run := runWeaverStats }

/-! ## Forecaster (R181, R182) -/

/-- One update of the forecaster for map `n`. -/
def learn (n : Nat) (a : Alloc) : Alloc :=
  let x := a.arrivals
  let e := ((a.ewma : Int) + ((16 * x : Int) - a.ewma).tdiv 16).toNat
  let b := { a with ewma := inField 28 e, arrivals := 0 }
  if 8 ≤ x && 2 * b.ewma ≤ 16 * x then
    let i := (a.arrFrame + 256 - a.lastArr) % 256
    let c :=
      if a.period ≠ 0 && i = a.period then
        { b with conf := min 15 (a.conf + 1), peak := inField 18 ((a.peak : Int) + ((x : Int) - a.peak).tdiv 4).toNat }
      else if 2 ≤ a.conf then { b with conf := a.conf - 2 }
      else { b with period := if 1 ≤ i && i ≤ 127 then i else 0, conf := 0, peak := inField 18 x }
    { c with lastArr := a.arrFrame }
  else if a.period ≠ 0 && 2 * a.period < (n % 256 + 256 - a.lastArr) % 256 then { b with period := 0, conf := 0 }
  else b

/-- The forecast for map `n` (R182). -/
def forecast (n : Nat) (a : Alloc) : Nat :=
  let f :=
    if !a.fcEn || !a.fcPriv then 0
    else if 3 ≤ a.conf then (if (n % 256 + 256 - a.lastArr) % 256 % a.period = 0 then a.peak else 0)
    else a.ewma / 16
  min f a.fcast.val - (a.inflight - a.lastReport)

/-- The privilege returns at the first visit 64 PON frames after the loss at which CONF is 3 or more (R183). -/
def regain (sfc : Nat) (a : Alloc) : Alloc :=
  match a.lostAt with
  | some t => if t + 64 ≤ sfc && 3 ≤ a.conf then { a with fcPriv := true, unusedRun := 0, lostAt := none } else a
  | none => a

/-- The sweep's visit for map `n`: forecaster, REP_AGE and hint slots. In Halter grant mode, which visits a tree once in 8
maps, the forecaster rests (R444). -/
def visit (s : State) (n : Nat) (a : Alloc) : Alloc :=
  if s.halter.grantMode then { a with repAge := satAdd 255 a.repAge 8, hints := [] }
  else
    let b := regain s.time.sfc (learn n a)
    { b with repAge := satAdd 255 a.repAge 1, hints := a.hints.filterMap fun e => if e.1 ≤ 1 then none else some (e.1 - 1, e.2) }

/-! ## Demand and candidates (R171, R173) -/

/-- An allocation's demand for map `n`: report demand, pre-booked demand and its kind. -/
def demand (s : State) (n : Nat) (a : Alloc) : Nat × Nat × Nat :=
  if a.cls = 1 then (0, 0, 0)
  else
    let rep := a.lastReport - a.inflight
    if s.halter.grantMode then (rep, 0, 0)
    else match mget a.hints 1 with
      | some h => (rep, h, 2)
      | none => let f := forecast n a; (rep, f, if f = 0 then 0 else 1)

/-- A class that reports and has not done so for 4 PON frames is due a poll (R179). -/
def pollDue (a : Alloc) : Bool := a.cls ≠ 1 && 4 ≤ a.repAge

/-- A terminal is granted by the passes (R171). -/
def grantable (s : State) (i : Nat) : Bool :=
  match termAt s i with | some t => t.st = .operating && !termLoss t | none => false

/-- The candidates of a port for map `n`. -/
def candidates (s : State) (p n : Nat) : List Cand :=
  (portAllocs s p).filterMap fun e =>
    let (rep, pre, kind) := demand s n e.2
    if grantable s e.2.terminal && (e.2.fixed.val ≠ 0 || rep + pre ≠ 0 || pollDue e.2) then
      some { id := e.1 % 16384, ctx := e.2, rep := rep, pre := pre, kind := kind }
    else none

/-- The rank of a candidate beyond the limit (R173); smaller is kept first. -/
def candRank (c : Cand) : Nat × Nat × Nat × Nat :=
  if c.ctx.fixed.val ≠ 0 then (0, 0, 0, c.id)
  else if c.kind = 2 then (1, 0, 0, c.id)
  else if c.ctx.assured.val ≠ 0 then (2, 0, 0, c.id)
  else (3, 3 - c.ctx.prio, 255 - c.ctx.repAge, c.id)

/-- Lexical order of ranks. -/
def rankLe (a b : Nat × Nat × Nat × Nat) : Bool :=
  a.1 < b.1 || (a.1 = b.1 && (a.2.1 < b.2.1 || (a.2.1 = b.2.1 && (a.2.2.1 < b.2.2.1 ||
    (a.2.2.1 = b.2.2.1 && a.2.2.2 ≤ b.2.2.2)))))

/-- The counters WINDOW_LOSS and CONTRACT_MISS rest in Halter grant mode (R444). -/
def bumpLoss (pos p world n : Nat) (s : State) : State :=
  if n = 0 || s.halter.grantMode then s else bump5 pos p world n s

/-- Count a candidate left out, with its guaranteed words denied (R173, R194). -/
def leaveOut (p : Nat) (c : Cand) (s : State) : State :=
  bumpLoss 15 p c.ctx.world (c.ctx.fixed.val + min c.ctx.assured.val (c.rep + c.pre)) (bump5 10 p c.ctx.world 1 s)

/-- The order of the passes: PRIO falling, then ALLOC_ID rising (R178). -/
def passOrder (a b : Cand) : Bool := b.ctx.prio < a.ctx.prio || (a.ctx.prio = b.ctx.prio && a.id ≤ b.id)

/-- A terminal whose burst of map `n` is a keep-alive: one map in 8, of which the spec does not say which (a free value, log entry 63), and in
Halter's grant mode every active one (R116, R444). -/
def keepAlive (s : State) (n i : Nat) (t : Terminal) : Bool :=
  t.st = .operating && termLoss t && (s.halter.grantMode || n % 8 = Config.keepAlivePhase i t.lossFrame % 8)

/-- A terminal that the port asks a PLOAMu of: in each frame while it awaits the Acknowledge that brings it to OPERATING
(R154), and in one for each send of a correction or a key request (R157, R309). -/
def ploamuAsked (t : Terminal) : Bool :=
  (t.wait.any fun w => w.rtd.isSome) || (t.asked && t.st = .operating && !termLoss t)

/-- What the cutoff of map `n` closes for a port. -/
def closePort (n p : Nat) (s : State) : State :=
  if !mapActive s p n then
    updMaps p (fun m => { m with closed := some { map := n, gates := gateAt s (128 + treeOf s p) } }) s
  else
    let all := candidates s p n
    let ranked := if all.length ≤ 4096 then all else sortBy (fun a b => rankLe (candRank a) (candRank b)) all
    let ts := sortBy (fun a b => decide (a.1 ≤ b.1)) (portTerms s p)
    let keep := (ts.filter fun e => keepAlive s n e.1 e.2).map Prod.fst
    let inp : Closed := {
      map := n, cands := sortBy passOrder (ranked.take 4096), keep := keep, gates := gateAt s (128 + treeOf s p),
      ask := (ts.filter fun e => keepAlive s n e.1 e.2 || ploamuAsked e.2).map Prod.fst }
    let s1 := forEach inp.ask (fun i => updTerm i fun t => { t with asked := false }) s
    forEach (ranked.drop 4096) (leaveOut p) (updMaps p (fun m => { m with closed := some inp }) s1)

/-- A port grants in the map of the next PON frame: it is in service, and that frame is no later than the last of a sequence
of R90. -/
def granting (s : State) (p : Nat) : Bool :=
  inService s p && (match (portAt s p).stopping with | some n => s.time.sfc + 1 < n + 3 | none => true)

/-- The ports of a lane that grant. -/
def lanePorts (s : State) (k : Nat) : List Nat := ((List.range 8).map (8 * k + ·)).filter (granting s)

/-- The cutoff of map `n` on a lane: what it closes, and the sweep for map `n` + 1 (R174, R181). -/
def cutoff (k n : Nat) (s : State) : State :=
  let s1 := forEach (lanePorts s k) (closePort n) s
  let s2 := updLane5 k (fun l => { l with
    cutoff := n, prevAggs := l.aggs, prevCaps := l.caps, aggs := [], caps := [], given := false, capsIn := false }) s1
  { s2 with weaver := { s2.weaver with
    budgetIn := s.weaver.budget, weightsIn := s.weaver.weights,
    allocs := mmap s2.weaver.allocs fun key a =>
      if laneOf (key / 16384) = k && mapActive s (key / 16384) (n + 1) then visit s (n + 1) a else a } }

/-- MAP_CUTOFF of a lane: the cutoff of the map that the next PON frame carries. -/
def execMapCutoff (lane : Nat) (s : State) : Res :=
  onObject (lane < 8) <| whenever ((laneAt5 s lane).cutoff ≤ s.time.sfc) (cutoff lane (s.time.sfc + 1)) s

/-! ## Reports (R172, R184) -/

/-- The absorber applies a report; one without a context is an orphan (R168). -/
def absorb (tree : Nat) (r : Report) (s : State) : State :=
  match allocAt s (allocKey tree r.id) with
  | none => bump5 16 tree 0x0100 1 s
  | some a =>
    let aged := a.lastReport - r.rx
    countEvent 0x40 0x101 a.world 1 <| updAlloc (allocKey tree r.id) (fun a => { a with
      arrivals := a.arrivals + (r.value - aged), lastReport := r.value, repAge := 0, arrFrame := r.frame % 256 }) s

/-- REPORT_ABSORB: a lane's absorber takes the oldest report of its channel, or, after the last, the overflow marker (R15). -/
def execReportAbsorb (lane : Nat) (s : State) : Res :=
  onObject (lane < 8) <|
    let l := laneAt5 s lane
    match l.reports with
    | r :: rest => absorb r.tree r (updLane5 lane (fun l => { l with reports := rest }) s)
    | [] =>
      if l.marker then report { overflowErr 0x40 l.lost with inst := lane } (updLane5 lane (fun l => { l with marker := false, lost := 0 }) s)
      else s

/-- FORECAST_ACK from a terminal: allocation, forecast grants received and used, and the terminal's own period (R122, R184). -/
def execForecastAck (sender : PloamFrom) (alloc received used period : Nat) (s : State) : Res :=
  match termAt s sender.terminal with
  | none => .fault .noSuchObject
  | some t =>
    let tree := sender.terminal / 512
    let k := allocKey tree (alloc % 16384)
    let learns (a : Alloc) : Bool := a.terminal = sender.terminal && 1 ≤ period && period ≤ 127 && a.conf = 0
    .next (onPloamu sender.terminal t sender.mic (whenever (t.ext.testBit 2) (fun s =>
      bump5 5 tree t.world (received % 65536) (bump5 6 tree t.world (used % 65536)
        (updAlloc k (fun a => if learns a then { a with period := period } else a) s)))) s)

end Sys2Proof.Machine
end

