-- ==== Sys2Proof/Machine/Passes.lean ====
section
/-! DEFINITION. Weaver: the contract passes, Cinch, placement and the hand-off of maps (R177 to R180, R187 to R197). -/

namespace Sys2Proof.Machine

/-! ## Blocked spans (R192) -/

/-- The words of upstream frame `n` between two instants of the timeline, clipped to the frame. -/
def wordSpan (s : State) (p n : Nat) (a b : Int) : Nat × Nat :=
  let z : Int := ((n * frameUi s p + 16 * teqd s p : Nat) : Int)
  let lo := ((a - z) / 512).toNat
  let hi := ceilNat (b - z) 512
  (lo, min hi (frameWords (upKind s p)))

/-- The spans of a frame that windows block, merged and in order. -/
def mergeSpans (l : List (Nat × Nat)) : List (Nat × Nat) :=
  ((sortBy (fun a b => decide (a.1 ≤ b.1)) (l.filter fun x => x.1 < x.2)).foldl (fun acc x =>
    match acc with
    | (lo, hi) :: r => if x.1 ≤ hi then (lo, max hi x.2) :: r else x :: acc
    | [] => [x]) []).reverse

/-- The blocked spans of upstream frame `n`; `own` leaves out the windows of map `n` itself (R196). -/
def blockedSpans (s : State) (p n : Nat) : List (Nat × Nat) :=
  mergeSpans ((portAt s p).windows.map fun x => wordSpan s p n x.start x.fin)

/-- The words that some spans hold. -/
def spanWords (l : List (Nat × Nat)) : Nat := (l.map fun x => x.2 - x.1).foldl (· + ·) 0

/-- What is left of a segment without the spans, which are in order. -/
def gaps (words : Nat) (spans : List (Nat × Nat)) : List (Nat × Nat) :=
  let step (acc : Nat × List (Nat × Nat)) (x : Nat × Nat) : Nat × List (Nat × Nat) :=
    (max acc.1 x.2, if acc.1 < x.1 then acc.2 ++ [(acc.1, x.1)] else acc.2)
  let (pos, l) := spans.foldl step (0, [])
  if pos < words then l ++ [(pos, words)] else l

/-- Take a piece out of the free segments. -/
def carve (free : List (Nat × Nat)) (lo hi : Nat) : List (Nat × Nat) :=
  free.flatMap fun x => if hi ≤ x.1 || x.2 ≤ lo then [x] else ([(x.1, lo), (hi, x.2)].filter fun y => y.1 < y.2)

/-! ## Costs (R177) -/

/-- A terminal's FEC on a port. -/
def termFec (s : State) (p i : Nat) : Bool := match termAt s i with | some t => fecOn s p t | none => true

/-- cost(x) for a terminal. -/
def costOf (s : State) (p i x : Nat) : Nat := x + parity (upKind s p) (termFec s p i) x

/-- A DBRu is requested of a class with every structure (Table 5.3). -/
def dbruOf (a : Alloc) : Bool := a.cls ≠ 1

/-- alloc_cost for a total grant. -/
def allocCost (s : State) (p : Nat) (a : Alloc) (g : Nat) : Nat := costOf s p a.terminal (g + b2n (dbruOf a))

/-- burst_cost in map `n`. -/
def burstCost (s : State) (p n i : Nat) (ploamu : Bool) : Nat := outWords s p n + costOf s p i (2 + 12 * b2n ploamu)

/-- The total grant of an allocation. -/
def Grant5.total (g : Grant5) : Nat := g.fixed + g.assured + g.na + g.be

/-- An allocation's grant in the work. -/
def grantAt (w : Work) (id : Nat) : Option Grant5 := w.grants.find? fun g => g.id = id

/-- The words granted so far. -/
def grantedOf (w : Work) (id : Nat) : Nat := match grantAt w id with | some g => g.total | none => 0

/-- A terminal has an ungated grant. -/
def hasGrant (w : Work) (i : Nat) : Bool := w.grants.any fun g => g.term = i && !g.gated

/-- The burst that an allocation's first grant would join exists (R177). -/
def burstOpen (w : Work) (a : Alloc) : Bool := !a.gated && (w.ploamu.contains a.terminal || hasGrant w a.terminal)

/-- The charge for raising a candidate's grant to a total. -/
def grantCharge (s : State) (p : Nat) (w : Work) (c : Cand) (new : Nat) : Nat :=
  match grantAt w c.id with
  | some g => allocCost s p c.ctx new - allocCost s p c.ctx g.total
  | none => allocCost s p c.ctx new + (if burstOpen w c.ctx then 0 else burstCost s p w.inp.map c.ctx.terminal false)

/-- The structures of a grant (R193). -/
def structsOf (g : Nat) : Nat := max 1 (ceilDiv g 16383)

/-- The structures in use once a candidate's grant has a total: the first grant of a terminal takes over the structure of its
PLOAMu (R193). -/
def structsWith (w : Work) (c : Cand) (new : Nat) : Nat :=
  match grantAt w c.id with
  | some g => w.structs + structsOf new - structsOf g.total
  | none =>
    w.structs + structsOf new - b2n (!c.ctx.gated && w.ploamu.contains c.ctx.terminal && !hasGrant w c.ctx.terminal)

/-- A total fits in some words and in 512 structures. -/
def fitsIn (s : State) (p : Nat) (w : Work) (c : Cand) (room new : Nat) : Bool :=
  grantCharge s p w c new ≤ room && structsWith w c new ≤ 512

/-- The parts of a grant, by pass. -/
inductive Part where
  | fixed | assured | na | be
deriving DecidableEq, Repr

/-- Raise a part of a grant. -/
def Grant5.plus (g : Grant5) (part : Part) (n : Nat) : Grant5 :=
  match part with
  | .fixed => { g with fixed := g.fixed + n }
  | .assured => { g with assured := g.assured + n }
  | .na => { g with na := g.na + n }
  | .be => { g with be := g.be + n }

/-- Enter a candidate's raised grant in the work. -/
def enter (s : State) (p : Nat) (w : Work) (c : Cand) (part : Part) (n : Nat) : Work :=
  let new := grantedOf w c.id + n
  let w1 := { w with used := w.used + grantCharge s p w c new, structs := structsWith w c new,
                     left := w.left.map fun l => l - n }
  match grantAt w c.id with
  | some _ => { w1 with grants := w.grants.map fun g => if g.id = c.id then g.plus part n else g }
  | none =>
    let g : Grant5 := { id := c.id, term := c.ctx.terminal, gated := c.ctx.gated }
    { w1 with grants := w.grants ++ [g.plus part n] }

/-- give: raise a part by the largest amount up to a want whose charge fits in some words (R178), within what a limit leaves
(R189). -/
def give (s : State) (p : Nat) (c : Cand) (part : Part) (want room : Nat) (w : Work) : Work :=
  let x := match w.left with | some l => min want l | none => want
  let cur := grantedOf w c.id
  let n := largest (fun k => k = 0 || fitsIn s p w c (min room (w.cap - w.used)) (cur + k)) 40 0 x
  if n = 0 then w else enter s p w c part n

/-! ## The passes (R178, R179) -/

/-- Guaranteed words that a pass could not give: lost to blocked spans, or denied by the 512 structures (R192, R194). -/
def noteShort (s : State) (p : Nat) (c : Cand) (want : Nat) (old new : Work) : Work :=
  let got := grantedOf new c.id - grantedOf old c.id
  if want ≤ got then new
  else if 512 < structsWith new c (grantedOf new c.id + 1) then
    { new with losses := new.losses ++ [(15, c.ctx.world, want - got)] }
  else if new.blocked && !fitsIn s p new c (new.cap - new.used) (grantedOf new c.id + 1) then
    { new with losses := new.losses ++ [(13, c.ctx.world, want - got)] }
  else new

/-- A guaranteed part of a candidate. -/
def giveGuaranteed (s : State) (p : Nat) (part : Part) (want : Cand → Nat) (c : Cand) (w : Work) : Work :=
  if want c = 0 then w else noteShort s p c (want c) w (give s p c part (want c) w.cap w)

/-- The demand beyond FIXED: d of R178. -/
def demandD (c : Cand) : Nat := min (c.rep + c.pre) (c.ctx.maximum.val - c.ctx.fixed.val)

/-- Serve the port requests: each PLOAMu takes a burst and a structure where both are left. -/
def giveAsk (s : State) (p : Nat) (i : Nat) (w : Work) : Work :=
  let c := burstCost s p w.inp.map i true
  if c ≤ w.cap - w.used && w.structs < 512 then
    { w with used := w.used + c, structs := w.structs + 1, ploamu := w.ploamu ++ [i] }
  else w

/-- One poll (R179). -/
def givePoll (s : State) (p : Nat) (c : Cand) (w : Work) : Work :=
  if 64 ≤ (w.grants.filter Grant5.polled).length || (grantAt w c.id).isSome || w.left = some 0
      || !fitsIn s p w c (w.cap - w.used) 0 then w
  else
    let w1 := enter s p w c .fixed 0
    { w1 with grants := w1.grants.map fun g => if g.id = c.id then { g with polled := true } else g }

/-- The order of polls: oldest REP_AGE, then lower ALLOC_ID. -/
def pollOrder (a b : Cand) : Bool := b.ctx.repAge < a.ctx.repAge || (a.ctx.repAge = b.ctx.repAge && a.id ≤ b.id)

/-- The fixed and assured passes and the polls. -/
def guaranteedPasses (s : State) (p : Nat) (w : Work) : Work :=
  let cs := w.inp.cands
  let w1 := forEach cs (giveGuaranteed s p .fixed fun c => min c.ctx.fixed.val c.ctx.maximum.val) w
  let w2 := forEach cs (giveGuaranteed s p .assured fun c => min c.ctx.assured.val (demandD c)) w1
  forEach (sortBy pollOrder (cs.filter fun c => pollDue c.ctx)) (givePoll s p) w2

/-- weighted_fill, the residual held as a scaled size (R164): members that reach their want within their share take it and leave the rest to the others; when none does,
each takes what its share pays for. -/
def weightedFill (s : State) (p : Nat) (part : Part) (want : Cand → Nat) (fuel residual : Nat) (set : List Cand) (w : Work) : Work :=
  match fuel with
  | 0 => w
  | k + 1 =>
    if set.isEmpty then w
    else
      let wsum := (set.map fun c => c.ctx.weight).foldl (· + ·) 0
      let share (c : Cand) : Nat := scaled residual * c.ctx.weight / wsum
      let need (c : Cand) : Nat := if want c = 0 then 0 else grantCharge s p w c (grantedOf w c.id + want c)
      let sat := set.filter fun c => need c ≤ share c
      if sat.isEmpty then forEach set (fun c w => give s p c part (want c) (share c) w) w
      else
        let w1 := forEach sat (fun c w => give s p c part (want c) w.cap w) w
        weightedFill s p part want k (residual - (w1.used - w.used)) (set.filter fun c => share c < need c) w1

/-- The part of a grant given in the assured pass. -/
def assuredOf (w : Work) (id : Nat) : Nat := match grantAt w id with | some g => g.assured | none => 0

/-- The part of a grant given in the non-assured pass. -/
def naOf (w : Work) (id : Nat) : Nat := match grantAt w id with | some g => g.na | none => 0

/-- The non-assured pass. -/
def naPass (s : State) (p : Nat) (w : Work) : Work :=
  let want (c : Cand) : Nat := min c.ctx.nonassured.val (demandD c - assuredOf w c.id)
  let set := w.inp.cands.filter fun c => c.ctx.nonassured.val ≠ 0 && assuredOf w c.id < demandD c
  weightedFill s p .na want (set.length + 1) (w.cap - w.used) set w

/-- The best-effort pass of a level; it serves only report demand. -/
def bePass (s : State) (p level : Nat) (w : Work) : Work :=
  let want (c : Cand) : Nat :=
    min c.ctx.besteffort.val (min (c.rep - assuredOf w c.id - naOf w c.id) (c.ctx.maximum.val - grantedOf w c.id))
  let set := w.inp.cands.filter fun c => c.ctx.prio = level && c.ctx.besteffort.val ≠ 0
  weightedFill s p .be want (set.length + 1) (w.cap - w.used) set w

/-- The non-assured and best-effort passes. -/
def excessPasses (s : State) (p : Nat) (w : Work) : Work :=
  bePass s p 0 (bePass s p 1 (bePass s p 2 (bePass s p 3 (naPass s p w))))

/-- Keep what a capped tree's second run starts from: the guaranteed parts, or in Halter grant mode only the port
requests (R189, R444). -/
def keepBase (w : Work) : Work := { w with base := w.grants, baseUsed := w.used, baseStructs := w.structs }

/-- The words of a port's frame that the passes may use, and its work begun: window grants take structures, then the port
requests. -/
def beginWork (s : State) (p : Nat) (inp : Closed) : Work :=
  let spans := blockedSpans s p inp.map
  let wins := ((portAt s p).windows.filter fun x => x.map = inp.map).length
  let w : Work := { inp := inp, cap := frameWords (upKind s p) - spanWords spans, blocked := !spans.isEmpty, structs := wins }
  forEach inp.ask (giveAsk s p) w

/-- The passes for one port. -/
def resolvePort (s : State) (p : Nat) (inp : Closed) : Work :=
  let w := beginWork s p inp
  if s.halter.grantMode then excessPasses s p (guaranteedPasses s p (keepBase w))
  else excessPasses s p (keepBase (guaranteedPasses s p w))

/-- The data words of some grants: guaranteed and excess; in Halter grant mode every word is excess (R188, R444). -/
def aggregate (s : State) (w : Work) : Nat × Nat :=
  let g := (w.grants.map fun g => g.fixed + g.assured).foldl (· + ·) 0
  let e := (w.grants.map fun g => g.na + g.be).foldl (· + ·) 0
  if s.halter.grantMode then (0, g + e) else (g, e)

/-- Resolve one port of a lane: its work, its losses, and its part of the tree's aggregates. -/
def resolveOne (k p : Nat) (s : State) : State :=
  match (mapsAt s p).closed with
  | none => s
  | some inp =>
    let w := resolvePort s p inp
    let (g, e) := aggregate s w
    let s1 := updMaps p (fun m => { m with closed := none, work := some { w with losses := [] } }) s
    let s2 := forEach (inp.ask.filter fun i => !w.ploamu.contains i) (fun i => updTerm i fun t => { t with asked := true })
      (forEach w.losses (fun l => bumpLoss l.1 p l.2.1 l.2.2) s1)
    updLane5 k (fun l => { l with aggs := mupd l.aggs (treeOf s p) (0, 0) fun x => (x.1 + g, x.2 + e) }) s2

/-- RESOLVE_PASSES on a lane. -/
def execResolvePasses (lane : Nat) (s : State) : Res :=
  onObject (lane < 8) <|
    whenever ((lanePorts s lane).any fun p => (mapsAt s p).closed.isSome)
      (fun s => forEach (lanePorts s lane) (resolveOne lane) (updLane5 lane (fun l => { l with aggs := [], given := true }) s)) s

/-! ## Cinch (R187 to R190) -/

/-- The weight of a tree: as written, or the upstream rate of its ports. -/
def treeWeight (s : State) (t : Nat) : Nat :=
  match mget s.weaver.weightsIn t with
  | some w => w
  | none => ((treePorts s t).map fun p => upGbps (upKind s p)).foldl (· + ·) 0

/-- Weighted max-min over the open trees, what is left held as a scaled size (R164): the caps of those that do not saturate. -/
def fillCaps (s : State) (fuel avail : Nat) (open_ : List (Nat × Nat)) : List (Nat × Nat) :=
  match fuel with
  | 0 => []
  | k + 1 =>
    let wsum := (open_.map fun e => treeWeight s e.1).foldl (· + ·) 0
    let share (e : Nat × Nat) : Nat := scaled avail * treeWeight s e.1 / wsum
    let sat := open_.filter fun e => e.2 ≤ share e
    if sat.isEmpty then open_.map fun e => (e.1, share e)
    else fillCaps s k (avail - (sat.map Prod.snd).foldl (· + ·) 0) (open_.filter fun e => share e < e.2)

/-- The budget that Cinch applies (R187, R444). -/
def cinchBudget (s : State) : Nat := if s.halter.grantMode then 312500 else s.weaver.budgetIn

/-- The lanes that give Cinch aggregates: those with a port in service whose map is active. -/
def lanesDue (s : State) : List Nat :=
  (List.range 8).filter fun k => !(lanePorts s k).isEmpty && (!s.halter.grantMode || (laneAt5 s k).cutoff % 8 = k)

/-- The caps of the trees (R188). -/
def cinchCaps (s : State) : List (Nat × Nat) :=
  let aggs := (lanesDue s).flatMap fun k => (laneAt5 s k).aggs
  let guar := (aggs.map fun e => e.2.1).foldl (· + ·) 0
  let exc := (aggs.map fun e => e.2.2).foldl (· + ·) 0
  let avail := cinchBudget s - guar
  if cinchBudget s = 0 || guar + exc ≤ cinchBudget s then []
  else fillCaps s 65 avail ((aggs.map fun e => (e.1, e.2.2)).filter fun e => e.2 ≠ 0)

/-- CINCH_FILL: with every lane's aggregates there, Cinch returns the caps to the lanes that have not gone on without them. -/
def execCinchFill (s : State) : Res :=
  .next (whenever ((lanesDue s).all fun k => (laneAt5 s k).given)
    (fun s =>
      let caps := cinchCaps s
      forBelow 8 (fun k s => if (laneAt5 s k).capsIn then s
        else updLane5 k (fun l => { l with caps := caps.filter fun e => laneOf e.1 = k, capsIn := true }) s) s) s)

/-- CINCH_STALE of a lane whose aggregates are missing (R190). -/
def execCinchStale (lane : Nat) (s : State) : Res :=
  onObject (lane < 8) <|
    whenever (!(laneAt5 s lane).given && (lanesDue s).contains lane)
      (fun s => bumpBy { cid := c5 12, scope := 7, idx := lane } 1
        (updLane5 lane (fun l => { l with aggs := l.prevAggs, given := true }) s)) s

/-- CAPS_LATE of a lane whose caps have not come (R190). -/
def execCapsLate (lane : Nat) (s : State) : Res :=
  onObject (lane < 8) <|
    whenever (!(laneAt5 s lane).capsIn) (updLane5 lane fun l => { l with caps := l.prevCaps, capsIn := true }) s

/-- The second run of a port under a limit (R189); in Halter grant mode all its passes run again (R444). -/
def rerunPort (s : State) (p limit : Nat) (w : Work) : Work :=
  let w0 := { w with grants := w.base, used := w.baseUsed, structs := w.baseStructs, left := some limit, capped := some limit }
  let w1 := if s.halter.grantMode then excessPasses s p (guaranteedPasses s p w0) else excessPasses s p w0
  { w1 with left := none, losses := [] }

/-- A port's part of its tree's cap, in proportion to the ports' excess words, the sizes multiplied held scaled (R164); the whole cap where
it has all of them. -/
def portCap (cap exc sum : Nat) : Nat := if exc = sum then cap else scaled cap * scaled exc / sum

/-- A tree's second run: in a coexistence pair its cap is divided between the ports. -/
def rerunTree (t cap : Nat) (s : State) : State :=
  let ps := (treePorts s t).filterMap fun p => (mapsAt s p).work.map fun w => (p, w)
  let exc (w : Work) : Nat := (aggregate s w).2
  let sum := (ps.map fun e => exc e.2).foldl (· + ·) 0
  if ps.isEmpty || ps.any (fun e => e.2.capped.isSome) then s
  else
    bump5 11 t 0x0100 1
      (forEach ps (fun e s => updMaps e.1 (fun m => { m with work := some (rerunPort s e.1 (portCap cap (exc e.2) sum) e.2) }) s) s)

/-- CAPPED_RERUN on a lane. -/
def execCappedRerun (lane : Nat) (s : State) : Res :=
  onObject (lane < 8) <|
    whenever (laneAt5 s lane).capsIn (fun s => forEach (laneAt5 s lane).caps (fun e s => rerunTree e.1 e.2 s) s) s

/-! ## Gates of a tree (R195) -/

/-- B_n on the time counter's timeline, in ps: multiples of 125 µs with the steps left out, shifted by the steps taken (R426). -/
def boundaryPs (s : State) (n : Nat) : Nat :=
  ((((s.time.frames + n : Nat) : Int) - s.time.sfc) * 125000000 + s.time.stepped * 1000 / (nsUnit : Int)).toNat

/-- The intervals of a list from an instant to another, in ps: mask, start and end. -/
def listIntervals (fuel t fin : Nat) (rest all : List (Nat × Nat)) : List (Nat × Nat × Nat) :=
  match fuel with
  | 0 => []
  | k + 1 =>
    if fin ≤ t then []
    else match rest with
    | [] => listIntervals k t fin all all
    | (m, d) :: r => (m, t, min fin (t + d)) :: listIntervals k (t + d) fin r all

/-- The intervals of a gate list between two instants. -/
def gateIntervals (g : GateList) (t fin : Nat) : List (Nat × Nat × Nat) :=
  let es := g.entries.map fun e => (e.1, e.2 * 1000)
  let off := (((t : Int) - g.base * 1000) % (g.cycle * 1000 : Nat)).toNat
  listIntervals ((g.entries.length + 1) * ((fin - t) / (g.cycle * 1000) + 3)) t fin (gateFrom es off) es

/-- The mask of an interval that no list governs: every class is open, and ungated bursts go anywhere (R267, log entry 42). -/
def ungoverned : Nat := 256

/-- The intervals of a tree's upstream timeline between two instants. -/
def treeIntervals (x : GateSt) (t fin : Nat) : List (Nat × Nat × Nat) :=
  let act (a b : Nat) : List (Nat × Nat × Nat) := match x.active with | some g => gateIntervals g a b | none => [(ungoverned, a, b)]
  match x.pending with
  | none => act t fin
  | some (g, start) =>
    let at_ := max t (min fin (start * 1000))
    (if t < at_ then act t at_ else []) ++ (if at_ < fin then gateIntervals g at_ fin else [])

/-- The intervals of upstream frame `n` in words: mask, first word that lies wholly inside, end of the last one, and the
words that the interval touches. -/
def frameIntervals (s : State) (p n : Nat) (x : GateSt) : List (Nat × (Nat × Nat) × (Nat × Nat)) :=
  let fw := frameWords (upKind s p)
  let t0 := boundaryPs s n + ceilDiv (teqd s p * 125000000) (fw * 32)
  (treeIntervals x t0 (t0 + 125000000)).map fun e =>
    let a := (e.2.1 - t0) * fw
    let b := (e.2.2 - t0) * fw
    (e.1, (ceilDiv a 125000000, b / 125000000), (a / 125000000, ceilDiv b 125000000))

/-- The parts of the free segments within a span. -/
def inside (free : List (Nat × Nat)) (x : Nat × Nat) : List (Nat × Nat) :=
  (free.map fun f => (max f.1 x.1, min f.2 x.2)).filter fun f => f.1 < f.2

/-- The intervals that a gated burst of a class may lie in. -/
def openFor (s : State) (p n cls : Nat) (x : GateSt) : List (Nat × Nat) :=
  ((frameIntervals s p n x).filter fun e => e.1 = ungoverned || e.1.testBit cls).map fun e => e.2.1

/-- The words that an ungated burst may not touch. -/
def shutSpans (s : State) (p n : Nat) (x : GateSt) : List (Nat × Nat) :=
  ((frameIntervals s p n x).filter fun e => e.1 ≠ 0 && e.1 ≠ ungoverned).map fun e => e.2.2

/-! ## Placement (R191 to R194) -/

/-- A burst to place: terminal, PLOAMu, keep-alive, and its allocations with their grants in falling PRIO, then rising
ALLOC_ID. -/
structure Draft where
  term : Nat
  ploamu : Bool
  keep : Bool
  gate : Option Nat
  parts : List (Cand × Grant5)
deriving DecidableEq, Repr

/-- The exact length of a burst (R103). -/
def draftLen (s : State) (p n : Nat) (d : Draft) : Nat :=
  burstWords s p n (termFec s p d.term)
    (2 + 12 * b2n d.ploamu + (d.parts.map fun x => x.2.total + b2n (dbruOf x.1.ctx)).foldl (· + ·) 0)

/-- The pre-booked part of a grant: what exceeds the report demand. -/
def preBooked (c : Cand) (g : Grant5) : Nat := g.assured + g.na - c.rep

/-- Lower a part of an allocation's grant in a burst. -/
def cutPart (id : Nat) (part : Part) (k : Nat) (d : Draft) : Draft :=
  { d with parts := d.parts.map fun x =>
      if x.1.id ≠ id then x
      else (x.1, match part with
        | .fixed => { x.2 with fixed := x.2.fixed - k }
        | .assured => { x.2 with assured := x.2.assured - k }
        | .na => { x.2 with na := x.2.na - k }
        | .be => { x.2 with be := x.2.be - k }) }

/-- The cuts of R194 in order: allocation, world, part and words. -/
def cutsOf (d : Draft) : List (Nat × Nat × Part × Nat) :=
  let xs := sortBy (fun a b => decide (a.1.ctx.prio ≤ b.1.ctx.prio)) d.parts
  let pre (x : Cand × Grant5) : Nat := preBooked x.1 x.2
  let preNa (x : Cand × Grant5) : Nat := min x.2.na (pre x)
  let cut (part : Part) (f : Cand × Grant5 → Nat) : List (Nat × Nat × Part × Nat) :=
    xs.map fun x => (x.1.id, x.1.ctx.world, part, f x)
  cut .be (fun x => x.2.be) ++ cut .na (fun x => x.2.na - preNa x)
    ++ xs.flatMap (fun x => [(x.1.id, x.1.ctx.world, .na, preNa x), (x.1.id, x.1.ctx.world, .assured, pre x - preNa x)])
    ++ cut .assured (fun x => x.2.assured - (pre x - preNa x)) ++ cut .fixed (fun x => x.2.fixed)

/-- Reduce a burst until it fits in some words; the words removed, by world and part. -/
def trim (s : State) (p n room : Nat) (cuts : List (Nat × Nat × Part × Nat)) (d : Draft) : Draft × List (Nat × Part × Nat) :=
  match cuts with
  | [] => (d, [])
  | (id, world, part, k) :: r =>
    if draftLen s p n d ≤ room then (d, [])
    else
      let m := k - largest (fun j => j = 0 || draftLen s p n (cutPart id part (k - j) d) ≤ room) 40 0 k
      let (d', l) := trim s p n room r (cutPart id part m d)
      (d', if m = 0 then l else (world, part, m) :: l)

/-- A reduced burst without the FIXED allocations that have nothing left. -/
def pruned (d : Draft) : Draft := { d with parts := d.parts.filter fun x => x.2.total ≠ 0 || dbruOf x.1.ctx }

/-- The burst that a draft placed at a word makes. -/
def burstOf (s : State) (p n start : Nat) (d : Draft) : Burst5 :=
  { term := some d.term, start := start, len := draftLen s p n d, ploamu := d.ploamu, gate := d.gate, keep := d.keep,
    oper := (termAt s d.term).any fun t => t.st = .operating,
    shares := d.parts.map fun x =>
      { id := x.1.id, grant := x.2.total, pre := preBooked x.1 x.2, kind := if preBooked x.1 x.2 = 0 then 0 else x.1.kind,
        dbru := dbruOf x.1.ctx } }

/-- Placement so far: the free segments, the bursts placed, and the words to count. -/
structure Board where
  free : List (Nat × Nat)
  bursts : List Burst5 := []
  losses : List (Nat × Nat × Nat) := []
deriving DecidableEq, Repr

/-- Put a burst on the board. -/
def putDraft (s : State) (p n start : Nat) (d : Draft) (b : Board) : Board :=
  { b with free := carve b.free start (start + draftLen s p n d), bursts := b.bursts ++ [burstOf s p n start d] }

/-- Place a gated burst in the first open segment with room for at least one data word, reduced to fit (R195). -/
def placeGated (s : State) (p n : Nat) (x : GateSt) (blocked : List (Nat × Nat)) (d : Draft) (b : Board) : Board :=
  match d.gate, d.parts with
  | some cls, [(c, g)] =>
    let opens := openFor s p n cls x
    let lostTo : Bool := opens.any fun o => !(inside blocked o).isEmpty
    let least : Draft := { d with parts := [(c, { g with fixed := min g.total 1, assured := 0, na := 0, be := 0 })] }
    let segs := opens.flatMap (inside b.free)
    match segs.find? fun f => draftLen s p n least ≤ f.2 - f.1 with
    | none => if lostTo && g.total ≠ 0 then { b with losses := b.losses ++ [(13, c.ctx.world, g.total)] } else b
    | some f =>
      let (d', cut) := trim s p n (f.2 - f.1) (cutsOf d) d
      let b1 := putDraft s p n f.1 d' b
      if lostTo then { b1 with losses := b1.losses ++ cut.map fun e => (13, e.1, e.2.2) } else b1
  | _, _ => b

/-- The words removed under R194: PLACE_TRIM, and CONTRACT_MISS for assured and fixed ones. -/
def trimLosses (cut : List (Nat × Part × Nat)) : List (Nat × Nat × Nat) :=
  cut.flatMap fun e => (14, e.1, e.2.2) :: (if e.2.1 = .assured || e.2.1 = .fixed then [(15, e.1, e.2.2)] else [])

/-- Place an ungated burst at the lowest free word where it fits, or reduced in the largest free segment (R191, R194). -/
def placeFree (s : State) (p n : Nat) (d : Draft) (b : Board) : Board :=
  match b.free.find? fun f => draftLen s p n d ≤ f.2 - f.1 with
  | some f => putDraft s p n f.1 d b
  | none =>
    let big := b.free.foldl (fun m f => if m.2 - m.1 < f.2 - f.1 then f else m) (0, 0)
    let (d0, cut) := trim s p n (big.2 - big.1) (cutsOf d) d
    let d' := pruned d0
    let b1 := { b with losses := b.losses ++ trimLosses cut }
    if (d'.parts.isEmpty && !d'.ploamu) || big.2 - big.1 < draftLen s p n d' then b1 else putDraft s p n big.1 d' b1

/-- The drafts of a port's work: one for each terminal and one for each gated allocation. -/
def draftsOf (w : Work) : List Draft :=
  let got := w.inp.cands.filterMap fun c => (grantAt w c.id).map fun g => (c, g)
  let gated := (got.filter fun x => x.1.ctx.gated).map fun x =>
    { term := x.1.ctx.terminal, ploamu := false, keep := false, gate := some x.1.ctx.gateClass, parts := [x] }
  let free := got.filter fun x => !x.1.ctx.gated
  let terms := (free.map fun x => x.1.ctx.terminal) ++ w.ploamu
  gated ++ terms.eraseDups.map fun i =>
    { term := i, ploamu := w.ploamu.contains i, keep := w.inp.keep.contains i, gate := none,
      parts := free.filter fun x => x.1.ctx.terminal = i }

/-- One above the highest PRIO of a burst; 0 without allocations. -/
def draftPrio (d : Draft) : Nat := (d.parts.map fun x => x.1.ctx.prio + 1).foldl max 0

/-- The order of placement (R191). -/
def draftOrder (a b : Draft) : Bool :=
  draftPrio b < draftPrio a || (draftPrio a = draftPrio b && (a.term < b.term || (a.term = b.term &&
    (a.parts.map fun x => x.1.id) ≤ (b.parts.map fun x => x.1.id))))

/-- The bursts of the windows whose grants map `n` carries. -/
def windowBursts (s : State) (p n : Nat) : List Burst5 :=
  ((portAt s p).windows.filter fun x => x.map = n).map fun x =>
    { term := if x.kind = .sn then none else some x.term, start := x.word,
      len := registrationWords s p n (termFec s p x.term), ploamu := x.kind ≠ .sn, window := some x.kind }

/-- Place a port's work: the map and the losses to count. -/
def placePort (s : State) (p : Nat) (w : Work) : BwMap × List (Nat × Nat × Nat) :=
  let n := w.inp.map
  let blocked := blockedSpans s p n
  let ds := sortBy draftOrder (draftsOf w)
  let b0 : Board := { free := gaps (frameWords (upKind s p)) blocked }
  let b1 := forEach (ds.filter fun d => d.gate.isSome) (placeGated s p n w.inp.gates blocked) b0
  let shut := shutSpans s p n w.inp.gates
  let b2 := forEach (ds.filter fun d => d.gate.isNone) (placeFree s p n)
    { b1 with free := shut.foldl (fun f x => carve f x.1 x.2) b1.free }
  ({ num := n, bursts := sortBy (fun x y => decide (x.start ≤ y.start)) (windowBursts s p n ++ b2.bursts) }, b2.losses)

/-- The sizes of the structures of a grant, in consecutive positions (R193). -/
def structSizes (g : Nat) : List Nat := (List.range (structsOf g)).map fun k => min 16383 (g - 16383 * k)

/-- A part of a burst as structures: identifier, size and DBRu, which goes on the last one (R193). -/
def shareStructs (x : Share) : List (Nat × Nat × Bool) :=
  let l := structSizes x.grant
  l.mapIdx fun k g => (x.id, g, x.dbru && k + 1 = l.length)

/-- The structures of a burst: those of its parts, or one of size 0 for the default allocation of its terminal, or for the broadcast one; the
PLOAMu goes on the first (R193). -/
def burstStructs (s : State) (p n : Nat) (b : Burst5) : List AllocStruct :=
  let k := upKind s p
  let bare := match b.term with | some i => onuId i | none => Config.broadcastAlloc k
  let l := if b.shares.isEmpty then [(bare, 0, false)] else b.shares.flatMap shareStructs
  l.mapIdx fun j x =>
    { id := x.1, size := x.2.1, dbru := x.2.2, ploamu := b.ploamu && j = 0,
      start := Config.startTime k (b.start + outWords s p n) ((l.take j).map fun y => y.2.1 + b2n y.2.2).sum }

/-- The allocation structures of a map: one per 16,383 words of a grant, at least one a burst (R193). -/
def mapParts (m : BwMap) : Nat :=
  (m.bursts.map fun b => max 1 ((b.shares.map fun x => structsOf x.grant).foldl (· + ·) 0)).foldl (· + ·) 0

/-- Build a port's map, unless it comes too late (R196). -/
def buildPort (p : Nat) (s : State) : State :=
  match (mapsAt s p).work with
  | none => s
  | some w =>
    if w.inp.map ≤ (mapsAt s p).handed then updMaps p (fun m => { m with work := none }) s
    else if mhas (laneAt5 s (laneOf p)).caps (treeOf s p) && w.capped.isNone then s
    else
      let (map, losses) := placePort s p w
      let polls := w.grants.filter Grant5.polled
      let worldOf (id : Nat) : Nat := match w.inp.cands.find? fun c => c.id = id with | some c => c.ctx.world | none => 0x0100
      let s0 := countEvent 0x40 0x100 0x0100 1 (countEvent 0x40 0x102 0x0100 (mapParts map) s)
      let s1 := updMaps p (fun m => { m with work := none, built := some map }) s0
      forEach polls (fun g => bump5 9 p (worldOf g.id) 1) (forEach losses (fun l => bumpLoss l.1 p l.2.1 l.2.2) s1)

/-- PLACEMENT on a lane, once the caps are in. -/
def execPlacement (lane : Nat) (s : State) : Res :=
  onObject (lane < 8) <| whenever (laneAt5 s lane).capsIn (fun s => forEach (lanePorts s lane) buildPort s) s

/-! ## Hand-off (R172, R196, R197) -/

/-- Raise INFLIGHT and the grant history for a map that is sent, and count its forecast grants. -/
def noteSent (p : Nat) (m : BwMap) (s : State) : State :=
  let tree := treeOf s p
  let shares := m.bursts.flatMap Burst5.shares
  let mine := (portAllocs s p).map Prod.fst
  let sent (k : Nat) (a : Alloc) : Alloc :=
    let l := shares.filter fun x => allocKey tree x.id = k
    { a with inflight := a.inflight + (l.map Share.grant).foldl (· + ·) 0,
             grantBits := (2 * a.grantBits + b2n (!l.isEmpty)) % 256 }
  let allocs := mmap s.weaver.allocs fun k a => if mine.contains k then sent k a else a
  let s1 := { s with weaver := { s.weaver with allocs := allocs } }
  forEach (shares.filter fun x => x.kind = 1 && x.pre ≠ 0) (fun x s =>
    match allocAt s (allocKey tree x.id) with | some a => bump5 2 p a.world 1 s | none => s) s1

/-- The map goes to the port. -/
def handOff (p : Nat) (m : BwMap) (s : State) : State :=
  emit (.map p m (m.bursts.flatMap (burstStructs s p m.num))) (updMaps p (fun x => { x with
    built := none, last := some m, handed := m.num,
    spans := (x.spans ++ [(m.num, m.bursts.map fun b => (b.start, b.start + b.len))]).drop (x.spans.length - 15),
    out := x.out ++ [{ m with bursts := m.bursts.filter fun b => b.term.isSome }] })
    (noteSent p m s))

/-- Where a window due in a missed map goes: one frame later, or, where it would overlap another of its tree there, to the earliest
place after it at which it overlaps none (R196, R552). -/
def shifted (s : State) (p : Nat) (w : Window) : Window :=
  let f : Int := frameUi s p
  let next := { w with map := w.map + 1, start := w.start + f, fin := w.fin + f }
  if !(portAt s p).windows.any (windowsMeet next) then next
  else
    let z := zeroArrival s p w.map w.word
    let place := if w.kind = .sn then findSn s p (w.start - z) (w.fin - z) 64 (w.map + 2)
      else findPlace s p w.kind w.term (w.start - z) (w.fin - z) 4096 (w.map + 1)
    place.getD next

/-- Window grants due in map `n` move to a later map, with their windows. -/
def shiftWindows (p n : Nat) (s : State) : State :=
  let due := (portAt s p).windows.filter fun w => w.map = n
  let s1 := updPort p (fun x => { x with windows := x.windows.filter fun w => w.map ≠ n }) s
  forEach due (fun w s =>
    let y := shifted s p w
    updPort p (fun x => { x with windows := x.windows ++ [y], lastSn := if w.kind = .sn then some y.start.toNat else x.lastSn }) s) s1

/-- A grant without its pre-booked part from a forecast. -/
def withoutForecast (x : Share) : Share := if x.kind = 1 then { x with grant := x.grant - x.pre, pre := 0, kind := 0 } else x

/-- A burst that is sent again, without the forecast parts: a structure with nothing left goes, and the burst ends where its last structure
does; its position stays (R196). -/
def shortened (s : State) (p n : Nat) (b : Burst5) : Option Burst5 :=
  let l := (b.shares.map withoutForecast).filter fun y => y.grant ≠ 0 || b.shares.any fun z => z.id = y.id && z.grant = 0
  if l.isEmpty && !(b.shares.isEmpty && b.ploamu) then none
  else
    let words := 2 + 12 * b2n b.ploamu + (l.map fun y => y.grant + b2n y.dbru).sum
    let fec := match b.term with | some i => termFec s p i | none => true
    some { b with shares := l, len := burstWords s p n fec words, verdict := 0 }

/-- A burst's terminal may still be granted it: it has not left OPERATING since the map was built (R196). -/
def stillGranted (s : State) (b : Burst5) : Bool :=
  match b.term with
  | some i => (termAt s i).any fun t => t.st = .operating || (!b.oper && hasOnu t)
  | none => false

/-- What map `n` − 1 is sent again as (R196). -/
def resendMap (s : State) (p n : Nat) (m : BwMap) : BwMap :=
  let x := gateAt s (128 + treeOf s p)
  let blocked := blockedSpans s p n
  let meets (l : List (Nat × Nat)) (b : Burst5) : Bool := l.any fun y => y.1 < b.start + b.len && b.start < y.2
  let fits (b : Burst5) : Bool :=
    match b.gate with
    | none => !meets blocked b && !meets (shutSpans s p n x) b
    | some cls => !meets blocked b && (openFor s p n cls x).any fun y => y.1 ≤ b.start && b.start + b.len ≤ y.2
  { num := n,
    bursts := ((m.bursts.filter fun b => b.window.isNone && stillGranted s b).filterMap (shortened s p n)).filter fits }

/-- A port has no map `n` at the deadline (R196, R197). -/
def missMap (p n : Nat) (s : State) : State :=
  let s1 := shiftWindows p n s
  match (mapsAt s p).last with
  | none => handOff p { num := n, bursts := [] } s1
  | some m =>
    let s2 := handOff p (resendMap s1 p n m) s1
    let missed := (mapsAt s p).missed + 1
    let s3 := raise 0x03 0 (laneOf p) p 0x0310 0 (lo32 n) (bump5 1 p 0x0100 1 (bump (c5 1) 1 p (updMaps p (fun x => { x with missed := missed }) s2)))
    if missed = 8 then raise 0x03 0 (laneOf p) 0 0x0311 2 0 s3 else s3

/-- The deadline of map `n` on a port. -/
def deadline (p n : Nat) (s : State) : State :=
  match (mapsAt s p).built with
  | some m =>
    if m.num = n then bump5 0 p 0x0100 1 (updMaps p (fun x => { x with missed := 0 }) (handOff p m s)) else missMap p n s
  | none => missMap p n s

/-- MAP_HANDOFF of a port: the deadline of the map that the next PON frame carries. -/
def execMapHandoff (port : Nat) (s : State) : Res :=
  onObject (port < 64) <|
    whenever (granting s port && (mapsAt s port).handed ≤ s.time.sfc) (deadline port (s.time.sfc + 1)) s

end Sys2Proof.Machine
end

