-- ==== Sys2Proof/Machine/PonRx.lean ====
section
/-! DEFINITION. Upstream reception at a PON port: bursts, burst power, losses, reports and XGEM frames (R102 to R117). -/

namespace Sys2Proof.Machine

/-! ## Power (R110) -/

/-- Whether 10^k is at most (num / den)^1000. -/
def powerAtLeast (num den : Nat) (k : Int) : Bool :=
  if 0 ≤ k then 10 ^ k.toNat * den ^ 1000 ≤ num ^ 1000 else den ^ 1000 ≤ num ^ 1000 * 10 ^ (-k).toNat

/-- A power in mW in whole 0.01 dBm, rounded down. -/
def dbmFloor (num den : Nat) : Int :=
  ((largest (fun j => powerAtLeast num den ((j : Int) - 40000)) 18 0 80000 : Nat) : Int) - 40000

/-- A power in mW that is a whole number of 0.01 dBm. -/
def dbmExact (num den : Nat) (k : Int) : Bool := powerAtLeast num den k && powerAtLeast den num (-k)

/-- The power in mW of a mean in 1/16 code above a port's offset, as a fraction. -/
def powerOf (cfg : PortCfg) (code16 : Nat) : Nat × Nat := (cfg.gain * (code16 - 16 * cfg.offset), 65536 * 16 * 1000)

/-- A level has no dBm value: BPM_GAIN is 0 or the power is not positive. -/
def noPower (cfg : PortCfg) (code16 : Nat) : Bool := cfg.gain = 0 || code16 ≤ 16 * cfg.offset

/-- A dBm field. R110 does not say how a power between two values is rounded. -/
def dbmField (cfg : PortCfg) (code16 : Nat) : Nat :=
  if noPower cfg code16 then 0x8000
  else
    let (a, b) := powerOf cfg code16
    let k := dbmFloor a b
    unsigned 16 (if !dbmExact a b k && Config.roundUp a b then k + 1 else k)

/-! ## Burst power (R109, R111 to R113) -/

/-- Take a burst's samples: the last power, the mean, the extremes, and the reference after the first 64 bursts measured since ranging. -/
def measurePower (codes : List Nat) (t : Terminal) : Terminal :=
  if codes.length < 2 then { t with short := true }
  else
    let last := codes.foldl (· + ·) 0 / codes.length
    let mean := ((t.mean : Int) + ((16 * last : Int) - t.mean).tdiv 16).toNat
    let n := satAdd 0xFFFFFFFF t.measured 1
    { t with
      short := false, seen := true, lastCode := last, mean := mean, measured := n, ref := if n = 64 then some mean else t.ref,
      minCode := some (match t.minCode with | some m => min m last | none => last),
      maxCode := some (match t.maxCode with | some m => max m last | none => last) }

/-- Where a mean lies against the levelling window: −1 below, 1 above, 0 inside. -/
def levelSide (cfg : PortCfg) (mean : Nat) : Int :=
  let (a, b) := powerOf cfg mean
  let k := dbmFloor a b
  let high := signed 16 cfg.levHigh
  if k < signed 16 cfg.levLow then -1 else if high < k || (k = high && !dbmExact a b k) then 1 else 0

/-- Power levelling of a terminal (R112). That the third message has left the mean outside is judged at the first measured burst 1 s or
more after it, of which the rule gives no instant (DESIGN CHOICE: log entry 186). -/
def level (i : Nat) (s : State) : State :=
  match termAt s i with
  | none => s
  | some t =>
    let cfg := cfgAt s t.port
    if (cfg.levHigh = 0 && cfg.levLow = 0) || noPower cfg t.mean then s
    else
      let side := levelSide cfg t.mean
      if side = 0 then
        let s1 := updTerm i (fun t => { t with levels := 0, levelDefect := false }) s
        if t.levelDefect then termDefect i 0x0119 0 false s1 else s1
      else if match t.levelAt with | some x => !passed s x sec | none => false then s
      else if t.levels < 3 then
        ownPloam i (.powerLevel (side < 0)) (updTerm i (fun t => { t with levels := t.levels + 1, levelAt := some s.mono }) s)
      else if t.levelDefect then s
      else termDefect i 0x0119 0 true (updTerm i (fun t => { t with levelDefect := true }) s)

/-- A terminal's mean above zero power, in 1/16 code. -/
def above (cfg : PortCfg) (code16 : Nat) : Nat := code16 - 16 * cfg.offset

/-- A mean lies DROP_STEP or more below the reference. -/
def fallen (cfg : PortCfg) (ref mean : Nat) : Bool :=
  above cfg ref ≠ 0 && 10 ^ cfg.dropStep * above cfg mean ^ 100 ≤ above cfg ref ^ 100

/-- A mean lies within DROP_STEP / 2 of the reference. -/
def returned (cfg : PortCfg) (ref mean : Nat) : Bool := above cfg ref ^ 200 ≤ 10 ^ cfg.dropStep * above cfg mean ^ 200

/-- The terminals of a port that have dropped within the last second. -/
def recentDrops (s : State) (p : Nat) : List (Nat × Terminal) :=
  (portTerms s p).filter fun e => e.2.dropDefect && (match e.2.dropAt with | some t => !passed s t sec | none => false)

/-- A terminal drops: alone, or, as one of at least half of those with a reference within one second, with its tree. -/
def drop113 (i p : Nat) (s : State) : State :=
  let s1 := updTerm i (fun t => { t with dropDefect := true, dropAt := some s.mono }) s
  let refs := ((portTerms s1 p).filter fun e => e.2.ref.isSome).length
  let recent := recentDrops s1 p
  if (portAt s p).treeDrop then s1
  else if refs ≤ 2 * recent.length then
    let quiet (e : Nat × Terminal) (s : State) : State :=
      if e.2.dropTold then termDefect e.1 0x0118 0 false (updTerm e.1 (fun t => { t with dropTold := false }) s) else s
    portDefect p 0x0115 1 true (updPort p (fun x => { x with treeDrop := true }) (forEach recent quiet s1))
  else termDefect i 0x0118 0 true (updTerm i (fun t => { t with dropTold := true }) s1)

/-- A terminal's drop ends; the tree's ends with the last of those that it stands for. -/
def undrop (i p : Nat) (t : Terminal) (s : State) : State :=
  let s1 := updTerm i (fun t => { t with dropDefect := false, dropAt := none, dropTold := false }) s
  let s2 := if t.dropTold then termDefect i 0x0118 0 false s1 else s1
  if (portAt s p).treeDrop && !((portTerms s2 p).any fun e => e.2.dropDefect && !e.2.dropTold) then
    portDefect p 0x0115 1 false (updPort p (fun x => { x with treeDrop := false }) s2)
  else s2

/-- The fibre fault indications after a measured burst of a terminal (R113). -/
def judgeDrop (i : Nat) (s : State) : State :=
  match termAt s i with
  | none => s
  | some t =>
    let cfg := cfgAt s t.port
    match t.ref with
    | none => if t.dropDefect then undrop i t.port t s else s
    | some r =>
      if t.dropDefect then (if returned cfg r t.mean then undrop i t.port t s else s)
      else if fallen cfg r t.mean && !t.dying then drop113 i t.port s
      else s

/-- A good burst's power (R109, R111 to R113). -/
def burstPower (i : Nat) (codes : List Nat) (s : State) : State :=
  let s1 := updTerm i (measurePower codes) s
  if codes.length < 2 then s1 else judgeDrop i (level i s1)

/-! ## Reports and grants that pass (R106, R172, R183) -/

/-- Eight unused forecast grants lose the privilege (R183). -/
def unused (k : Nat) (tree : Nat) (a : Alloc) (s : State) : State :=
  let n := satAdd 8 a.unusedRun 1
  let s1 := bump5 3 tree a.world 1 (updAlloc k (fun a => { a with unusedRun := n }) s)
  if 8 ≤ n && a.fcPriv then
    bump5 4 tree a.world 1 (updAlloc k (fun a => { a with
      fcPriv := false, privLosses := satAdd 255 a.privLosses 1, period := 0, conf := 0, ewma := 0, lostAt := some s.time.sfc }) s1)
  else s1

/-- An allocation's part of a burst has passed: INFLIGHT falls, and a forecast part was used or not. -/
def sharePassed (tree verdict : Nat) (x : Share) (rx : Nat) (s : State) : State :=
  let k := allocKey tree x.id
  match allocAt s k with
  | none => s
  | some a =>
    let s1 := updAlloc k (fun a => { a with inflight := a.inflight - x.grant }) s
    if x.kind ≠ 1 || x.pre = 0 || verdict = 2 then s1
    else if verdict = 1 && x.grant - x.pre < rx then updAlloc k (fun a => { a with unusedRun := 0 }) s1
    else unused k tree a s1

/-- LAST_REPORT ages by what was received (R172). -/
def aged (k rx : Nat) (s : State) : State := updAlloc k (fun a => { a with lastReport := a.lastReport - rx }) s

/-- A report goes to the lane's channel; where only the marker's entry is free it is lost, and its allocation is treated as
having sent none (R15). -/
def sendReport (lane : Nat) (r : Report) (s : State) : State :=
  let l := laneAt5 s lane
  if l.reports.length < 4159 && !l.marker then updLane5 lane (fun l => { l with reports := l.reports ++ [r] }) s
  else aged (allocKey r.tree r.id) r.rx (updLane5 lane (fun l => { l with marker := true, lost := l.lost + 1 }) s)

/-- The report that a good burst carries for an allocation (R106, R172). -/
def burstReport (p i frame : Nat) (x : AllocRx) (t : Terminal) (s : State) : State :=
  let tree := treeOf s p
  match x.dbru with
  | some (v, true) => sendReport (laneOf p) { tree := tree, id := x.alloc, value := v % 2 ^ 24, rx := x.words, frame := frame } s
  | some (_, false) => aged (allocKey tree x.alloc) x.words (bumpPon 7 p (some i) t.world s)
  | none => aged (allocKey tree x.alloc) x.words s

/-! ## XGEM frames (R106 to R108, R307, R311, R313) -/

/-- An XGEM port ID is configured for a terminal (R107). -/
def xgemPortOf (s : State) (i port : Nat) : Bool :=
  port = onuId i || (List.range 8).any fun k => (queueAt s (downQueue (8 * i + k))).xgemPort = port

/-- The key that a terminal's slot body gives its pipe (R307). -/
def ponKey (t : Terminal) (body : List Byte) : List Byte :=
  if t.ext.testBit 1 || body.length ≤ 16 then body else body.drop (body.length - 16)

/-- A payload under AES-CTR with the counter block of R99. -/
def xgemCrypt (up : Bool) (t : Terminal) (body : List Byte) (frame pos : Nat) (bs : List Byte) : List Byte :=
  xorBytes bs (Config.ctr (ponKey t body) (Config.xgemCounter up frame pos) bs.length)

/-- A reassembled frame enters the port's ingress unit (R23, R106). -/
def upstreamFrame (p i world : Nat) (fits : Bool) (bs : List Byte) (s : State) : State :=
  ingress { frame := { source := p, dir := 1, world := world, term := some i, bytes := bs } } fits (frameIn p world bs.length s)

/-- Set or clear an allocation's reassembly context. -/
def setFrag (i alloc : Nat) (f : Option UpFrag) (s : State) : State :=
  updTerm i (fun t => { t with frags := match f with | some x => mset t.frags alloc x | none => mdel t.frags alloc }) s

/-- A fragmented frame that is not continued is dropped. -/
def dropFrag (p i alloc : Nat) (t : Terminal) (s : State) : State :=
  match termAt s i with
  | some x => if mhas x.frags alloc then bumpPon 10 p (some i) t.world (setFrag i alloc none s) else s
  | none => s

/-- Why an XGEM frame is dropped: an alarm's hold, which takes every encrypted one (R313), its key or its port ID (R107); the counter's position in Table
3.9, or none for the hold. -/
def xgemGround (s : State) (i : Nat) (t : Terminal) (x : XgemRx) : Option (Option Nat) :=
  if (x.key = 1 || x.key = 2) && !admits s 1 then some none
  else if x.key = 3 || (x.key ≠ 0 && !engineUse s (keySlot t x.key) t.world useDecrypt (t.ext.testBit 1)) then some (some 8)
  else if !xgemPortOf s i x.port then some (some 9)
  else none

/-- Take an XGEM frame's payload: with what its allocation's context holds it makes a frame or goes on waiting. -/
def takePayload (p i frame world alloc : Nat) (fits : Bool) (x : XgemRx) (bs : List Byte) (s : State) : State :=
  let held := match termAt s i with | some t => mget t.frags alloc | none => none
  let whole := (match held with | some f => f.bytes | none => []) ++ bs
  if x.last then upstreamFrame p i world fits whole (setFrag i alloc none s)
  else setFrag i alloc (some { bytes := whole, started := (match held with | some f => f.started | none => frame),
                               last := frame, port := x.port }) s

/-- One XGEM frame of an allocation's payload; `first` says that it is the first of the burst. -/
def xgemFrame (p i frame world alloc : Nat) (fits first : Bool) (t : Terminal) (x : XgemRx) (s : State) : State :=
  let heldPort := match termAt s i with | some y => (mget y.frags alloc).map UpFrag.port | none => none
  let goes := first && heldPort = some x.port && !x.idle
  let s1 := if heldPort.isSome && !goes then dropFrag p i alloc t s else s
  if x.idle || x.port = onuId i then s1
  else if x.bad then dropFrag p i alloc t s1
  else match xgemGround s1 i t x with
  | some (some c) => bumpPon c p (some i) t.world (dropFrag p i alloc t s1)
  | some none => bumpW (cid 9 10 22) 2 i t.world (dropFrag p i alloc t s1)
  | none =>
    let bs := if x.key = 0 then x.bytes else xgemCrypt true t (slotBytes s1 (keySlot t x.key)) frame x.pos x.bytes
    takePayload p i frame world alloc fits x bs s1

/-- The XGEM frames of an allocation's payload, in order. A header that fails ends the delineation. -/
def xgemFrames (p i frame world alloc : Nat) (fits first : Bool) (t : Terminal) (l : List XgemRx) (s : State) : State :=
  match l with
  | [] => s
  | x :: r =>
    if !x.hecOk then bumpPon 6 p (some i) t.world (dropFrag p i alloc t s)
    else xgemFrames p i frame world alloc fits false t r (xgemFrame p i frame world alloc fits first t x s)

/-- What a good burst carries for an allocation: its report and its frames, in the allocation's world. -/
def allocContent (p i frame : Nat) (fits : Bool) (t : Terminal) (x : AllocRx) (s : State) : State :=
  let world := match allocAt s (allocKey (treeOf s p) x.alloc) with | some a => a.world | none => t.world
  let s1 := burstReport p i frame x t s
  let s2 := if x.frames.isEmpty then dropFrag p i x.alloc t s1 else s1
  xgemFrames p i frame world x.alloc fits true t x.frames s2

/-! ## Bursts (R105, R115 to R117) -/

/-- The whole samples of 25 ns in the averaging window of a burst of map `m`: it runs from 50 ns after the expected end of delimiter to
25 ns before the end of the burst's last word (R109, and the example after R114, whose count of 171 this is). -/
def windowSamples (s : State) (p m : Nat) (b : Burst5) : Nat :=
  let fw := frameWords (upKind s p)
  ((b.len - outWords s p m) * 125000000 - 75000 * fw) / (25000 * fw)

/-- The codes inside a burst's averaging window, of 14 bits each (R109). -/
def windowCodes (s : State) (p m : Nat) (b : Burst5) (rx : BurstRx) : List Nat :=
  let n := windowSamples s p m b
  ((rx.codes ++ List.replicate n 0).take n).map (· % 2 ^ 14)

/-- The samples of a burst's averaging window that exceed ENERGY_TH. -/
def energySamples (s : State) (p m : Nat) (b : Burst5) (rx : BurstRx) : Nat :=
  ((windowCodes s p m b rx).filter ((cfgAt s p).energyTh < ·)).length

/-- A burst's samples show energy. -/
def hasEnergy (s : State) (p m : Nat) (b : Burst5) (rx : BurstRx) : Bool := 0 < energySamples s p m b rx

/-- The delimiter of a burst of map `m` is found: clock recovery has locked, the bit errors are within what the rate allows, and the
delimiter lies in the search window, which opens at the later of lock, `lockBits` into the burst's preamble, and 128 bits
before the expected position, and closes 128 bits after it (Tables 3.6 and 3.7). In a ranging window the search is as wide as the
window (R551). -/
def delimFound (s : State) (p m : Nat) (window : Bool) (rx : BurstRx) : Bool :=
  let k := upKind s p
  let lock := rx.offset - 16 * ((32 * (burstProfile s p m).2 : Nat) : Int) + 16 * (lockBits k : Int)
  match rx.delimiter with
  | some errors =>
    rx.locked && errors ≤ delimErrors k && (window || (max lock (-2048) ≤ rx.offset && rx.offset ≤ 2048))
  | none => false

/-- The verdict on a burst of terminal `i`: 1 good, 2 missing, 3 failed with energy, 4 failed without (R105). -/
def burstVerdict (s : State) (p m i : Nat) (b : Burst5) (rx : BurstRx) : Nat :=
  let found := delimFound s p m b.window.isSome rx
  if found && rx.hecOk && rx.onu = onuId i then 1
  else if !found && !hasEnergy s p m b rx then 2
  else if hasEnergy s p m b rx then 3 else 4

/-- A good burst is one that a scan of the port's lane meets (R402). -/
def scanBurst (p : Nat) (s : State) : State :=
  if (laneAt s (128 + p)).scanning then updLane (128 + p) (fun x => { x with scanned := x.scanned + 1 }) s else s

/-- Give a burst of a map its verdict. -/
def markBurst (p map : Nat) (b : Burst5) (verdict : Nat) (energy : Bool) (s : State) : State :=
  let mark (y : Burst5) : Burst5 :=
    if y.start = b.start && y.term = b.term then { y with verdict := verdict, energy := energy } else y
  updMaps p (fun m => { m with out := m.out.map fun x => if x.num = map then { x with bursts := x.bursts.map mark } else x })
    (whenever (verdict = 1) (scanBurst p) s)

/-- The port's losses after a map's bursts have all passed: every burst granted to a terminal, in a ranging window too. A map
that grants none is skipped, and a burst without energy tells nothing of LOL (R117). -/
def judgePort (p : Nat) (m : BwMap) (s : State) : State :=
  let bs := m.bursts.filter fun b => b.term.isSome
  let v := bs.map Burst5.verdict
  let lit := bs.filter Burst5.energy
  if v.isEmpty then s
  else
    let x := portAt s p
    let los := if v.all (· = 2) then x.losRun + 1 else 0
    let lol := if !lit.isEmpty && lit.all (fun b => b.verdict = 3) then x.lolRun + 1 else 0
    let lim := (cfgAt s p).losFrames
    let s1 := updPort p (fun x => { x with losRun := los, lolRun := lol, los := x.los || lim ≤ los, lol := x.lol || lim ≤ lol }) s
    let s2 := if lim ≤ los && !x.los then portDefect p 0x0110 1 true s1 else s1
    if lim ≤ lol && !x.lol then portDefect p 0x0111 1 true s2 else s2

/-- Once every burst of a map has passed, the port is judged and the map dropped. -/
def closeMap (p map : Nat) (s : State) : State :=
  match (mapsAt s p).out.find? fun m => m.num = map with
  | some m =>
    if m.bursts.any fun b => b.verdict = 0 then s
    else judgePort p m (updMaps p (fun x => { x with out := x.out.filter fun y => y.num ≠ map }) s)
  | none => s

/-- What a good burst of a terminal is counted for, and what it tells of Dying_Gasp and of waiting messages (R105, R113, R119). -/
def goodCounts (p i : Nat) (t : Terminal) (rx : BurstRx) (s : State) : State :=
  let count (pos n : Nat) (s : State) : State :=
    bumpBy { cid := cPon pos, scope := 1, idx := p } n (bumpBy { cid := cPon pos, scope := 2, idx := i, world := t.world } n s)
  let s1 := count 5 rx.bip (count 4 rx.uncorrectable (count 3 rx.corrected s))
  let s2 := if rx.dying then onPloamu i t rx.dyingMic id s1 else s1
  updTerm i (fun t => { t with dying := rx.dying && micPasses s i rx.dyingMic, asked := t.asked || rx.more }) s2

/-- A good burst of a terminal outside ranging: its power over the samples `codes`, and its content. -/
def goodContent (p i map : Nat) (t : Terminal) (rx : BurstRx) (codes : List Nat) (s : State) : State :=
  forEach rx.parts (fun x s => allocContent p i map rx.fits t x s) (burstPower i codes (goodCounts p i t rx s))

/-- A failed or missing burst of a terminal; `energy` says that at least 2 of its samples exceed ENERGY_TH (R159). -/
def badContent (p i verdict : Nat) (energy : Bool) (b : Burst5) (t : Terminal) (s : State) : State :=
  let s1 := forEach b.shares (fun x s => dropFrag p i x.id t s) (badBurst i (verdict = 2) s)
  if verdict = 3 && energy then failedWithEnergy i s1 else updTerm i (fun t => { t with energyFails := 0 }) s1

/-- The events of a port's island at a burst: it is received, its samples above ENERGY_TH, and a good one's offset beyond
±1 UI (Table 17.6). -/
def burstEvents (p verdict world samples : Nat) (rx : BurstRx) (s : State) : State :=
  let s1 := if verdict = 2 then s else countEvent p 0x100 world 1 s
  let s2 := countEvent p 0x102 world samples s1
  if verdict = 1 && 16 < rx.offset.natAbs then countEvent p 0x103 world 1 s2 else s2

/-- A granted burst of a terminal passes. -/
def burstPassed (p map i : Nat) (b : Burst5) (t : Terminal) (rx : BurstRx) (s : State) : State :=
  let v := burstVerdict s p map i b rx
  let codes := windowCodes s p map b rx
  let energy := energySamples s p map b rx
  let tree := treeOf s p
  let words (x : Share) : Nat := if v = 1 then (match rx.parts.find? fun y => y.alloc = x.id with | some y => y.words | none => 0) else 0
  let s0 := burstEvents p v t.world energy rx (markBurst p map b v (0 < energy) s)
  let s1 := bumpPon (if v = 1 then 0 else if v = 2 then 1 else 2) p (some i) t.world s0
  let s2 := forEach b.shares (fun x s => sharePassed tree v x (words x) s) s1
  match b.window with
  | some _ => if v = 1 then burstPower i codes (goodCounts p i t rx s2) else rangingMissed i (badBurst i (v = 2) s2)
  | none =>
    if v = 1 then useOffset i rx.offset (goodBurst i (goodContent p i map t rx codes s2))
    else badContent p i v (2 ≤ energy) b t s2

/-- A burst of a terminal that has left or lost its ONU-ID: the port judges and counts it, and Weaver takes it as missing. -/
def burstGone (p map i : Nat) (b : Burst5) (rx : BurstRx) (s : State) : State :=
  let v := burstVerdict s p map i b rx
  let s1 := bumpPon (if v = 1 then 0 else if v = 2 then 1 else 2) p none 0x0100 (markBurst p map b v (hasEnergy s p map b rx) s)
  forEach b.shares (fun x s => sharePassed (treeOf s p) 2 x 0 s) (whenever (v = 1) (portGood p) s1)

/-- The burst reset pulse of a granted burst: half the guard in whole words, at least 1 word (Table 3.7). -/
def burstReset (p map start : Nat) (s : State) : State :=
  emit (.burstReset p map start (max 1 ((burstProfile s p map).1 / 2))) s

/-- BURST_RECEIVED: the burst granted at a word of a map of a port passes, to the terminal that `rx.granted` names where it names one; without
power the receive path hears nothing. -/
def execBurstReceived (port map start : Nat) (rx : BurstRx) (s : State) : Res :=
  match (mapsAt s port).out.find? fun m => m.num = map with
  | none => .fault .noSuchObject
  | some m =>
    if !powered s (0x80 + port) then .next s
    else match m.bursts.find? fun b => b.start = start && b.verdict = 0 && (rx.granted.isNone || b.term = rx.granted) with
    | none => .fault .noSuchObject
    | some b =>
      let i := b.term.getD 0
      let s1 := burstReset port map start s
      .next (closeMap port map (match termAt s i with
        | some t => if hasOnu t then burstPassed port map i b t rx s1 else burstGone port map i b rx s1
        | none => burstGone port map i b rx s1))

/-- DEACT_TIMEOUT: a terminal loss defect has lasted DEACT_MS; the terminal is deactivated, its ranging cleared and the event
recorded (R116). -/
def execDeactTimeout (terminal : Nat) (s : State) : Res :=
  match termAt s terminal with
  | none => .fault .noSuchObject
  | some t =>
    .next (whenever (termLoss t && passed s t.lossAt ((cfgAt s t.port).deactMs * ms))
      (fun s => updTerm terminal (fun t => { t with bad := 0, good := 0, eqd := 0, rtd := 0, drift := 0 })
        (endActivation terminal .pending true (rangeRecord 3 terminal (snDetail terminal t) s))) s)

/-- REASSEMBLY_TIMEOUT_PON of an allocation: its fragmented frame is not complete within 16 PON frames (R108). -/
def execReassemblyTimeoutPon (terminal alloc : Nat) (s : State) : Res :=
  match termAt s terminal with
  | none => .fault .noSuchObject
  | some t =>
    .next (match mget t.frags alloc with
    | some f => whenever (f.started + 16 ≤ s.time.sfc) (dropFrag t.port terminal alloc t) s
    | none => s)

/-! ## PLOAM and OMCI messages (R120 to R124, R309) -/

/-- A frame goes to the queue that OMCI_BIND binds, or is counted in OMCI_DROP (R124). -/
def toOmci (i : Nat) (t : Terminal) (bs : List Byte) (s : State) : State :=
  match (portAt s (treeOf s t.port)).omci with
  | some q =>
    if !(hrqAt s q).enable || hrqFull (hrqAt s q) then bumpPon 13 t.port (some i) t.world s
    else
      toHost q { epoch := s.epoch.current.toNat, rver := s.rules.current, source := t.port, dir := 1, world := t.world, term := some i,
                 len := bs.length, bytes := bs } [] s
  | none => bumpPon 13 t.port (some i) t.world s

/-- PLOAMU_MESSAGE: an upstream PLOAM message of a type that the engine does not own; `mic` says whether its MIC is good. -/
def execPloamuMessage (terminal : Nat) (message : List Byte) (mic : Bool) (s : State) : Res :=
  match termAt s terminal with
  | none => .fault .noSuchObject
  | some t =>
    .next (onPloamu terminal t mic (toOmci terminal t message) s)

/-- UPSTREAM_OMCI_FRAME: a frame on a terminal's OMCC XGEM port, with its key index, its upstream frame and word position there,
its bytes as received, and whether the MIC of what it decrypts to is good. -/
def execUpstreamOmciFrame (terminal key : Nat) (pos : XgemPlace) (bytes : List Byte) (mic : Bool) (s : State) : Res :=
  match termAt s terminal with
  | none => .fault .noSuchObject
  | some t =>
    .next (match xgemGround s terminal t { port := onuId terminal, key := key } with
    | some (some c) => bumpPon c t.port (some terminal) t.world s
    | some none => bumpW (cid 9 10 22) 2 terminal t.world s
    | none =>
      let bs := if key = 0 then bytes else xgemCrypt true t (slotBytes s (keySlot t key)) pos.frame pos.word bytes
      micSeen t.world (if micPasses s terminal mic then toOmci terminal t bs s else bumpPon 12 t.port (some terminal) t.world s))

/-- EXT_ACCEPT: the port confirms the extensions that are offered and accepted (R121). -/
def execExtAccept (sender : PloamFrom) (accept : Nat) (s : State) : Res :=
  match termAt s sender.terminal with
  | none => .fault .noSuchObject
  | some t =>
    let c := cfgAt s t.port
    let offer := 2 * b2n c.aes256 + 4 * b2n c.fcast
    let bits := offer &&& accept
    .next (onPloamu sender.terminal t sender.mic (whenever (t.st = .operating || t.st = .reranging)
      (fun s => ownPloam sender.terminal (.extConfirm bits) (updTerm sender.terminal (fun t => { t with confirm := some bits }) s))) s)

/-- KEY_REQUEST: for the 8th PON frame after the first one of a key switch, a new key for the index that stopped being current is
requested (R309). -/
def execKeyRequest (terminal : Nat) (s : State) : Res :=
  match termAt s terminal with
  | none => .fault .noSuchObject
  | some t =>
    .next (match t.switched with
    | some (old, n) =>
      whenever (n + 7 ≤ s.time.sfc)
        (fun s => requestKey terminal old (updTerm terminal (fun t => { t with switched := none }) s)) s
    | none => s)

/-- KEY_REQUEST_TIMEOUT: at the end of the fourth PON frame of a request without a complete answer it is repeated, or, after three, given up. -/
def keyTimeout (i : Nat) (t : Terminal) (r : KeyReq) (s : State) : State :=
  if r.tries < 3 then
    ownPloam i (.keyControl r.index)
      (updTerm i (fun t => { t with keyReq := some { r with sent := s.time.sfc, tries := r.tries + 1, frags := [] }, asked := true }) s)
  else
    raise 0x07 0 1 i 0x0710 0 0
      (bumpW (cid 9 10 23) 2 i t.world (updTerm i (fun t => { t with keyReq := none }) s))

def execKeyRequestTimeout (terminal : Nat) (s : State) : Res :=
  match termAt s terminal with
  | none => .fault .noSuchObject
  | some t =>
    .next (match t.keyReq with
    | some r =>
      whenever (r.sent + 3 ≤ s.time.sfc && !(t.own.any fun m => ploamType m = 3)) (keyTimeout terminal t r) s
    | none => s)

/-- A returned key's part is taken; a whole key travels to the secure island (R122, R309). -/
def takeKey (i frag : Nat) (body : List Byte) (t : Terminal) (r : KeyReq) (s : State) : State :=
  let send (bs : List Byte) (s : State) : State := { s with pon := { s.pon with keysIn := s.pon.keysIn ++ [(i, r.index, bs)] } }
  let done := updTerm i (fun t => { t with keyReq := none }) s
  if !t.ext.testBit 1 then send body done
  else
    let l := mset r.frags frag body
    match mget l 0, mget l 1 with
    | some a, some b => send (a ++ b) done
    | _, _ => updTerm i (fun t => { t with keyReq := some { r with frags := l }, asked := true }) s

/-- KEY_REPORT: a terminal returns a key or one of its fragments, encrypted under the key-encryption key. -/
def execKeyReport (terminal frag : Nat) (body : List Byte) (mic : Bool) (s : State) : Res :=
  match termAt s terminal with
  | none => .fault .noSuchObject
  | some t =>
    .next (onPloamu terminal t mic (fun s => match t.keyReq with
      | some r => whenever (frag < 2) (takeKey terminal frag body t r) s
      | none => s) s)

/-- A terminal's keys in the terminal key table: those derived when it last registered, from the MSK of that time (R336). -/
def termKeys (s : State) (i : Nat) (t : Terminal) : List Byte :=
  Config.ponKeys (if s.vault.registered.contains i then mget s.vault.built i else mget s.vault.msk i) t.sn0 t.sn1 (cfgAt s (treeOf s t.port)).ponId

/-- PON_KEY_WRITE: the secure island decrypts the next returned key into the slot of the requested index, with ORIGIN 5; it
waits where the slot holds a retiring copy (R283, R309, R336). Without an entry of the terminal in the terminal key table, as after an alarm of
class 2, there is no key to decrypt it with, and it is discarded. -/
def execPonKeyWrite (s : State) : Res :=
  .next (match s.pon.keysIn with
  | [] => s
  | (i, index, bs) :: rest =>
    let s1 := { s with pon := { s.pon with keysIn := rest } }
    match termAt s i with
    | none => s1
    | some t =>
      if !s.vault.registered.contains i then s1 else
      let slot := keySlot t index
      let body := Config.ponUnwrap (termKeys s i t) bs
      if mustWait s slot then { s1 with vault := { s1.vault with waiting := s1.vault.waiting ++ [.ponKey i index body] } }
      else ponKeyWritten slot body s1)

end Sys2Proof.Machine
end

