-- ==== Sys2Proof/Machine/PonTx.lean ====
section
/-! DEFINITION. Downstream transmission at a PON port: the module frame boundary, PLOAMd messages, key switches, XGEM frames,
and the transmitter (R95 to R101, R114, R125, R126, R130, R553). -/

namespace Sys2Proof.Machine

/-! ## PLOAMd messages (R97, R121, R146) -/

/-- The broadcast ONU-ID. -/
def broadcastOnu : Nat := 0x3FF

/-- The content octets of a vendor message, 5 to 40 (R121). -/
def vendorContent (octets : List Nat) : List Byte :=
  (([0x41, 0x4B, 0x58, 0x01] ++ octets).map (BitVec.ofNat 8) ++ List.replicate 36 0).take 36

/-- The content octets of a message: Table 3.10 lays out those of the vendor messages, PLOAM_SEND gives the host's, and the standard
lays out the rest. -/
def ploamContent (m : Ploam) : List Byte :=
  match m with
  | .extOffer bits running => vendorContent [bits, b2n running, 0x00, 0x01]
  | .extConfirm bits => vendorContent [bits]
  | .host _ content => content
  | .assignOnuId onu sn0 sn1 => Config.ploamBody 0x03 [onu, sn0.toNat, sn1.toNat]
  | .rangingTime eqd => Config.ploamBody 0x04 [eqd]
  | .burstProfile guard preamble => Config.ploamBody 0x01 [guard, preamble]
  | .keyControl index => Config.ploamBody 0x0D [index]
  | .powerLevel up => Config.ploamBody 0x1B [b2n up]
  | .deactivate => Config.ploamBody 0x05 []

/-- The message type octet. The numbers of the standard messages are PRESUMED, as in PLOAM_SEND (log entry 35). -/
def ploamOctet : Ploam → Nat
  | .assignOnuId .. => 0x03
  | .rangingTime _ => 0x04
  | .burstProfile .. => 0x01
  | .keyControl _ => 0x0D
  | .powerLevel _ => 0x1B
  | .deactivate => 0x05
  | .extOffer .. => 0xE0
  | .extConfirm _ => 0xE2
  | .host type _ => type

/-- The 48 octets of a message in the PON frame now beginning: ONU-ID, type, sequence number, content and MIC (R121, R133). -/
def ploamOctets (s : State) (onu : Nat) (keys : List Byte) (m : Ploam) : List Byte :=
  let head := beBytes 2 onu ++ [BitVec.ofNat 8 (ploamOctet m), BitVec.ofNat 8 (Config.ploamSeq onu s.time.sfc (ploamOctet m))]
    ++ (ploamContent m ++ List.replicate 36 0).take 36
  head ++ (Config.ploamMic keys head ++ List.replicate 8 0).take 8

/-- The keys under which a port's messages to an ONU-ID are protected: those of the terminal, if a record has the ONU-ID (R336). -/
def onuKeys (s : State) (p onu : Nat) : List Byte :=
  let i := treeOf s p * 512 + onu
  if onu < 512 then (match termAt s i with | some t => termKeys s i t | none => []) else []

/-- Send a message. -/
def sendPloam (p onu : Nat) (m : Ploam) (s : State) : State :=
  countEvent 0x48 0x101 0x0100 1 (emit (.ploam p onu m (ploamOctets s onu (onuKeys s p onu) m)) s)

/-- The bits of EXT_OFFER on a port. -/
def offerBits (s : State) (p : Nat) : Nat :=
  let c := cfgAt s p
  b2n (portAt s p).offering + 2 * b2n c.aes256 + 4 * b2n c.fcast

/-- The broadcast messages of PON frame `n`: Deactivate_ONU-ID in the three frames of R90, Burst_Profile in the first
after a change of the profile (R95), and EXT_OFFER every 8 frames. -/
def broadcasts (s : State) (p n : Nat) : List Ploam :=
  let x := portAt s p
  (match x.stopping with | some k => if k ≤ n && n < k + 3 then [.deactivate] else [] | none => [])
  ++ ((x.nextProfile.filter fun e => n + 8 = e.1).map fun e => .burstProfile e.2.1 e.2.2)
  ++ (if n % 8 = 0 && (offerBits s p ≠ 0 || x.tail ≠ 0) then [.extOffer (offerBits s p) x.running] else [])

/-- What the sending of a terminal's message in PON frame `n` starts (R121, R144, R154, R309). -/
def ploamSent (i n : Nat) (m : Ploam) (s : State) : State :=
  match m with
  | .assignOnuId .. => placeGrant i (n + 2) s
  | .rangingTime _ => updTerm i (fun t => { t with wait := t.wait.map fun w => { w with sent := n } }) s
  | .keyControl _ => updTerm i (fun t => { t with keyReq := t.keyReq.map fun r => { r with sent := n } }) s
  | .extConfirm bits => updTerm i (fun t => { t with ext := bits, confirm := none }) s
  | _ => s

/-- Send a terminal's next message: its own queue before the host's. -/
def sendTerm (p n i : Nat) (s : State) : State :=
  match termAt s i with
  | none => s
  | some t =>
    match t.own, t.hostMsgs with
    | m :: r, _ => ploamSent i n m (sendPloam p (onuId i) m (updTerm i (fun t => { t with own := r }) s))
    | [], m :: r => sendPloam p (onuId i) m (updTerm i (fun t => { t with hostMsgs := r }) s)
    | [], [] => s

/-- The terminals of a port with a message to send, in rising index. -/
def talkers (s : State) (p : Nat) : List Nat :=
  sortBy (fun a b => decide (a ≤ b))
    (((portTerms s p).filter fun e => !e.2.own.isEmpty || !e.2.hostMsgs.isEmpty).map Prod.fst)

/-- The PLOAMd messages of PON frame `n`, up to 16; where more terminals wait than there is room for, the spec does not say
which are served, and a free value chooses where the round begins. -/
def sendPloams (p n : Nat) (s : State) : State × Nat :=
  let bs := (broadcasts s p n).take 16
  let s1 := forEach bs (fun m s => sendPloam p broadcastOnu m s) s
  let byes := (portAt s1 p).goodbyes.take (16 - bs.length)
  let s2 := forEach byes (fun o s => sendPloam p o .deactivate s) (updPort p (fun x => { x with goodbyes := x.goodbyes.drop byes.length }) s1)
  let room := 16 - bs.length - byes.length
  let ts := talkers s2 p
  if ts.length ≤ room then (forEach ts (sendTerm p n) s2, bs.length + byes.length + ts.length)
  else
    let k := Config.freeNat s2.free % ts.length
    (forEach ((ts.drop k ++ ts.take k).take room) (sendTerm p n) (takeFree s2), 16)

/-! ## Key switches (R100, R309) -/

/-- A pending switch takes effect in the PON frame of its count, or late. -/
def applySwitch (n : Nat) (e : Nat × Terminal) (s : State) : State :=
  match e.2.switch with
  | some (index, at_) =>
    if n < at_ then s
    else
      let s1 := updTerm e.1 (fun t => { t with keyIndex := index, switch := none, switched := some (t.keyIndex, n) }) s
      if at_ < n then bumpPon 14 e.2.port (some e.1) e.2.world s1 else s1
  | none => s

/-! ## XGEM frames (R98, R99, R125, R310) -/

/-- A queue of the terminal with this XGEM port marks it encrypted. -/
def portEnc (s : State) (i port : Nat) : Bool :=
  (List.range 8).any fun k => (queueAt s (downQueue (8 * i + k))).xgemPort = port && (queueAt s (downQueue (8 * i + k))).enc

/-- A downstream OMCI message as the XGEM frame that carries it, with its MIC (R125). -/
def omciXgem (s : State) (e : Nat × List Byte) : Option XgemTx :=
  (termAt s e.1).map fun t =>
    let body := e.2.take (e.2.length - 4)
    { term := e.1, xgemPort := onuId e.1, enc := portEnc s e.1 (onuId e.1), world := t.world,
      bytes := body ++ (Config.omciMic (termKeys s e.1 t) body ++ List.replicate 4 0).take 4 }

/-- The bytes of a downstream PHY frame and of the PSBd in front of it (Table 3.5). -/
def phyBytes (k : Nat) : Nat := if k = 1 then 155520 else 777600
def psbdBytes : Nat := 24

/-- The bytes of a downstream PON frame inside FEC: 627 codewords of RS(248,216) for XGS-PON (Table 3.5). -/
def fsBytes (k : Nat) : Nat := if k = 1 then (phyBytes 1 - psbdBytes) / 248 * 216 else Config.ldpcBytes

/-- The payload bytes for XGEM frames of a downstream PON frame: what the framing sublayer's header, the bandwidth map and the PLOAMd
messages of 48 octets leave (Table 3.5, R121). -/
def payloadBytes (k structs ploams : Nat) : Nat := fsBytes k - (Config.mapBytes structs + 48 * ploams)

/-- Send an XGEM frame or fragment of PON frame `n` at a word position: encrypted ones pass the array (R310). -/
def sendXgem (p n pos : Nat) (x : XgemTx) (t : Terminal) (bs : List Byte) (last : Bool) (s : State) : State :=
  if !x.enc then emitXgem p pos (xgemHeader bs.length 0 x.xgemPort last) bs s
  else
    let slot := keySlot t t.keyIndex
    let y : Admitted :=
      { traffic := .ponDown p x.term, slot := slot, gen := (slotAt s slot).gen, at_ := s.mono, chan := 0, world := x.world,
        bytes := xgemCrypt false t (slotBytes s slot) n pos bs, xgemPort := x.xgemPort, keyIndex := t.keyIndex, last := last,
        frame := x.num, pos := pos }
    arrayWork x.world bs.length (frameIn 0x47 x.world bs.length
      { s with cipher := { s.cipher with inPipes := s.cipher.inPipes ++ [y] } })

/-- An encrypted frame cannot go now: an alarm holds admission, or its slot is empty (R312, R313). -/
def encHeld (s : State) (x : XgemTx) (t : Terminal) : Bool := x.enc && (!admits s 1 || noKey s t)

/-- Fill a PON frame's payload: each frame goes whole, or fills the rest with its first part. A poisoned frame is discarded (R16). What is left waits, and idle frames
fill the gap. A frame that Rein has chosen is sent, also where its terminal has since left OPERATING (R262); with the record its keys are
gone, and what was to be encrypted under them is discarded (DESIGN CHOICE: log entry 129). -/
def fillFrame (p n total cap : Nat) (l : List XgemTx) (s : State) : State × List XgemTx :=
  match l with
  | [] => (fillIdle p cap s, [])
  | x :: r =>
    if x.poison then fillFrame p n total cap r (bumpW cDropChannel 9 p x.world s)
    else if x.enc && (termAt s x.term).isNone then fillFrame p n total cap r s
    else
      let t := (termAt s x.term).getD { world := x.world, sn0 := 0, sn1 := 0, slot1 := 0, slot2 := 0, upFec := 0, port := p }
      if encHeld s x t then
        let (s1, left) := fillFrame p n total cap r s
        (s1, x :: left)
      else
        let need := 8 + roundUp 4 x.bytes.length
        let pos := (total - cap) / 4
        let s := countEvent p 0x101 x.world 1 (if x.omci then countEvent 0x48 0x101 x.world 1 s else s)
        if need ≤ cap then fillFrame p n total (cap - need) r (sendXgem p n pos x t x.bytes true s)
        else
          let k := (cap - 8) / 4 * 4
          if k = 0 then (fillIdle p cap s, x :: r)
          else (sendXgem p n pos x t (x.bytes.take k) false s, { x with bytes := x.bytes.drop k, begun := true } :: r)

/-- The XGEM frames of PON frame `n`: what was begun, up to 64 OMCI messages, then the tree's data. -/
def sendXgems (p n ploams : Nat) (s : State) : State :=
  let x := portAt s p
  let cap := payloadBytes (upKind s p) (match (mapsAt s p).last with | some m => mapParts m | none => 0) ploams
  let omci := (x.omciTx.take 64).filterMap (omciXgem s)
  let begun := x.txq.filter XgemTx.begun
  let (s1, left) := fillFrame p n cap cap (begun ++ omci.map (fun y => { y with omci := true }) ++ x.txq.filter fun y => !y.begun) s
  let back := left.filter fun y => y.omci && !y.begun
  updPort p (fun z => { z with
    omciTx := back.map (fun y => (y.term, y.bytes)) ++ z.omciTx.drop 64, txq := left.filter fun y => !(y.omci && !y.begun) }) s1

/-! ## The transmitter (R101, R130, R553) -/

/-- The level of PON_n.TXDIS changes. -/
def setTxdis (p : Nat) (on : Bool) (s : State) : State :=
  if (portAt s p).txdis = on then s
  else emit (.pin "PON_TXDIS" p (b2n on)) (updPort p (fun x => { x with txdis := on }) s)

/-- TXDIS is asserted: frames already handed to the port are discarded and counted (R553). XGEM frames of the PON frame in progress, those
still in the array included, are taken to be transmitted (DESIGN CHOICE: log entry 186). -/
def holdTx (p : Nat) (s : State) : State :=
  let lost := (portAt s p).txq
  setTxdis p true (updPort p (fun x => { x with txq := [] })
    (forEach lost (fun x s => bumpPon 15 p (some x.term) x.world s) s))

/-- PON_TX_PLL_UNLOCK of a port in service; LANE_STATUS counts it (R101, R401). -/
def execPonTxPllUnlock (port : Nat) (s : State) : Res :=
  onObject (port < 64) <|
    whenever (inService s port && !(portAt s port).lolTx)
      (fun s => portDefect port 0x0112 2 true (updLane (128 + port) (fun x => { x with lolEvents := satAdd 0xFFFF x.lolEvents 1 })
        (updPort port (fun x => { x with lolTx := true }) (holdTx port s)))) s

/-- PRES_L is high on a port whose MODE is nonzero. -/
def noOptics (p : Nat) (s : State) : State :=
  portDefect p 0x0114 1 true
    (updPort p (fun x => { x with noOptics := true, release := none, running := false, codes := [] }) (holdTx p s))

/-- OPTICS_REMOVED. -/
def execOpticsRemoved (port : Nat) (s : State) : Res :=
  onObject (port < 64) <|
    let s1 := updPort port (fun x => { x with pres := false, release := none }) s
    if inService s port && !(portAt s port).noOptics then noOptics port s1 else s1

/-- OPTICS_INSERTED. -/
def execOpticsInserted (port : Nat) (s : State) : Res :=
  onObject (port < 64) <|
    let s1 := updPort port (fun x => { x with pres := true }) s
    if (portAt s port).noOptics then
      portDefect port 0x0114 1 false (updPort port (fun x => { x with noOptics := false, release := some s.mono }) s1)
    else s1

/-- OPTICS_TXDIS_RELEASE: 100 ms after PRES_L went low TXDIS is released; framing resumes at the next boundary. -/
def execOpticsTxdisRelease (port : Nat) (s : State) : Res :=
  onObject (port < 64) <|
    whenever (match (portAt s port).release with | some t => passed s t (100 * ms) | none => false)
      (fun s =>
        let s1 := updPort port (fun x => { x with release := none, starting := true }) s
        if (portAt s port).lolTx then s1 else setTxdis port false s1) s

/-! ## The module frame boundary (R19, R96) -/

/-- A port's framing starts or resumes. -/
def startFraming (p : Nat) (s : State) : State :=
  let x := portAt s p
  if !x.starting then s
  else setTxdis p (x.noOptics || x.lolTx || x.release.isSome) (updPort p (fun x => { x with framing := true, starting := false }) s)

/-- The profiles that the maps up to `m` no longer wait for: the last of them stands. -/
def settleProfile (m g pre : Nat) (l : List (Nat × Nat × Nat)) : Nat × Nat × List (Nat × Nat × Nat) :=
  match l with
  | [] => (g, pre, [])
  | e :: r => if e.1 ≤ m then settleProfile m e.2.1 e.2.2 r else (g, pre, e :: r)

/-- A new burst profile comes into force for good once no burst of an older map is to come (R95); `m` is the oldest map that counts. -/
def applyProfile (m : Nat) (x : Port) : Port :=
  let (g, pre, l) := settleProfile m x.cfgGuard x.cfgPre x.nextProfile
  { x with cfgGuard := g, cfgPre := pre, nextProfile := l }

/-- The oldest of a port's maps whose bursts have not all passed, or the one that PON frame `n` carries. -/
def oldestMap (s : State) (p n : Nat) : Nat := (((mapsAt s p).out.map BwMap.num).min?.getD n).min n

/-- The longest run of samples above a level. -/
def longestRun (th run best : Nat) (codes : List Nat) : Nat :=
  match codes with
  | [] => max run best
  | c :: r => if th < c then longestRun th (run + 1) best r else longestRun th 0 (max run best) r

/-- What is held of a port's upstream timeline: the bursts that its last maps granted and its windows, in 1/16 UI. -/
def heldSpans (s : State) (p : Nat) : List (Int × Int) :=
  ((mapsAt s p).spans.flatMap fun e =>
    let z : Int := (e.1 * frameUi s p + 16 * teqd s p : Nat)
    e.2.map fun b => (z + 512 * (b.1 : Int), z + 512 * (b.2 : Int)))
  ++ (portAt s p).windows.map fun w => (w.start, w.fin)

/-- The samples of PON frame `f`, one in 25 ns and of 14 bits, with 0 for those that do not lie wholly outside granted bursts and quiet
windows (R109, R114). -/
def openCodes (s : State) (p f : Nat) (codes : List Nat) : List Nat :=
  let held := heldSpans s p
  codes.zipIdx.map fun e =>
    let a := uiFloor s p (f * 125000000 + e.2 * 25000)
    let b := uiFloor s p (f * 125000000 + (e.2 + 1) * 25000)
    if held.any (fun x => x.1 < b && a < x.2) then 0 else e.1 % 2 ^ 14

/-- The samples that a port took in the PON frame before the one that begins. -/
def frameCodes (s : State) (p : Nat) (energy : List (Nat × List Nat)) : List Nat :=
  openCodes s p (s.time.sfc - 1) ((energy.filter fun e => e.1 = p).flatMap Prod.snd)

/-- The samples of an interval without a granted burst or an open quiet window exceed ENERGY_TH for 1 µs or more, which is 40 samples
(R109, R114). -/
def rogueSeen (s : State) (p : Nat) (energy : List (Nat × List Nat)) : Bool :=
  40 ≤ longestRun (cfgAt s p).energyTh 0 0 (frameCodes s p energy)

/-- ROGUE (R114). -/
def judgeRogue (p : Nat) (seen : Bool) (s : State) : State :=
  let x := portAt s p
  let dirty := if seen then x.rogueRun + 1 else 0
  let clean := if seen then 0 else x.cleanRun + 1
  let s1 := updPort p (fun x => { x with rogueRun := dirty, cleanRun := clean }) s
  if !x.rogue && 4 ≤ dirty then portDefect p 0x0113 1 true (updPort p (fun x => { x with rogue := true }) s1)
  else if x.rogue && 4 ≤ clean then portDefect p 0x0113 1 false (updPort p (fun x => { x with rogue := false }) s1)
  else s1

/-- The time at which the first bit of a PON frame leaves a port, with its TX_DELAY (R126, Table 14.2). -/
def ponTxTime (s : State) (p : Nat) : Nat := ((s.time.tc : Int) + (asymAt s.time.asymPon p).txDelay * (fracUnit : Int)).toNat

/-- A port sends PON frame `n`. -/
def sendFrameN (p n : Nat) (s : State) : State :=
  let s1 := emit (.ponFrame p n (cfgAt s p).ponId) (if n % 8192 = 0 then updPort p (fun x => { x with tod := (n, ponTxTime s p) }) s else s)
  let (s2, k) := sendPloams p n s1
  sendXgems p n k s2

/-- The PON frame in progress ends: what its FEC encoder has taken goes out (R24). -/
def endFrame (p n : Nat) (s : State) : State :=
  let x := portAt s p
  let s1 := updPort p (fun x => { x with fs := [] }) s
  if x.framing && !x.txdis then emit (.fecFrame p (n - 1) (Config.fecEncode (upKind s p) (n - 1) x.fs)) s1 else s1

/-- A port in service begins PON frame `n`; `rogue` says whether the frame that ended showed energy where none was granted. -/
def beginFrame (p n : Nat) (rogue : Bool) (s : State) : State :=
  if !inService s p then s
  else
    let s1 := startFraming p (judgeRogue p rogue (updPort p (applyProfile (oldestMap s p n)) (endFrame p n s)))
    let s2 := forEach (portTerms s1 p) (applySwitch n) s1
    let s2' := if n % 128 = 0 then awlOffer p s2 else s2
    let x := portAt s2' p
    let s3 := if x.framing && !x.txdis then sendFrameN p n s2' else s2'
    updPort p (fun x => { x with tail := x.tail - 1 }) s3

/-- MODULE_FRAME_BOUNDARY, at the next multiple of 125 µs of the counter without its steps: the deadline of every map not yet handed off
is past, the superframe count rises, and every port begins a PON frame. `energy` gives, by port, the codes of the samples that its converter took
in the PON frame that ends, in order from its boundary. -/
def frameBoundary (energy : List (Nat × List Nat)) (s : State) : State :=
  let n := s.time.sfc + 1
  let late (p : Nat) (s : State) : State := if granting s p && (mapsAt s p).handed < n then deadline p n s else s
  let s1 := forBelow 64 late s
  let s2 := { s1 with time := { s1.time with sfc := n, sfcAt := s1.mono, frames := s1.time.frames + 1 } }
  forBelow 64 (fun p s => beginFrame p n (rogueSeen s p energy) s) s2

def execModuleFrameBoundary (energy : List (Nat × List Nat)) (s : State) : Res := .next (whenever (boundaryDue s) (frameBoundary energy) s)

end Sys2Proof.Machine
end

