-- ==== Sys2Proof/Machine/Sampling.lean ====
section
/-! DEFINITION. Latency sampling: the sampling instant and the sample rings (R270, R273). -/

namespace Sys2Proof.Machine

/-- The bytes that a queue holds. -/
def depthBytes (q : Queue) : Nat := (q.held.map fun h => h.frame.len).foldl (· + ·) 0

/-- The head-of-line delay in ns, saturating (R270). -/
def holNs (s : State) (q : Queue) : Nat :=
  match q.held with
  | [] => 0
  | h :: _ => min 0xFFFFFFFF ((s.mono - h.at_) / 1000)

/-- A queue takes a sample: its two maxima. -/
def sampleQueue (s : State) (q : Queue) : Queue :=
  { q with maxDepth := max q.maxDepth (min 0xFFFFFFFF (depthBytes q)), maxHol := max q.maxHol (holNs s q) }

/-- Insert a queue into a list in rising index, downstream before network. -/
def insertQueue (q : NodeId) (l : List NodeId) : List NodeId :=
  match l with
  | [] => [q]
  | m :: r => if q.index < m.index || (q.index = m.index && q.side < m.side) then q :: m :: r else m :: insertQueue q r

/-- The queues that a period unit of a world lists: sampled, and nonempty now or at the previous instant (R273). -/
def unitQueues (s : State) (world : Nat) : List NodeId :=
  (s.tm.queues.filter fun e => e.2.sample && nodeWorld s e.1 = world && (!e.2.held.isEmpty || e.2.was)).foldl
    (fun l e => insertQueue e.1 l) []

/-- The PHASE of the record of a number. -/
def ringPhase (r : Ring) (k : Nat) : Nat := (k / r.size + 1) % 2

/-- The four words of a sample record (Table 8.8). -/
def sampleWords (s : State) (r : Ring) (k : Nat) (q : NodeId) : List Word :=
  let x := queueAt s q
  [pack [(1, 2, 30), (ringPhase r k, 1, 29), (q.side, 1, 28), (q.index, 18, 0)],
   wd (min 0xFFFFFFFF (depthBytes x)), wd (holNs s x), pack [(x.held.length, 24, 0)]]

/-- The four words of a period record. -/
def periodWords (s : State) (r : Ring) (n : Nat) : List Word :=
  [pack [(0, 2, 30), (ringPhase r r.written, 1, 29), (r.lost, 16, 0)], lo32 (tcSec s), wd (tcNs s), pack [(n, 16, 0)]]

/-- The counter SAMPLES_LOST (Table 8.9). -/
def cSamplesLost : Nat := cTm 10

/-- Write the records of a unit one by one. -/
def writeRecords (r : Ring) (k : Nat) (recs : List (List Word)) (s : State) : State :=
  match recs with
  | [] => s
  | ws :: rest => writeRecords r (k + 1) rest (emit (.dma r.fn (r.addr + k % r.size * 16) (bytesOfWords ws)) s)

/-- The period unit of one ring (R273); `inTime` says that it can be written before the next instant. -/
def ringUnit (world : Nat) (r : Ring) (inTime : Bool) (s : State) : State :=
  let qs := unitQueues s world
  if qs.isEmpty && r.lost = 0 then s
  else
    let n := qs.length + 1
    let put (r : Ring) (s : State) : State := { s with tm := { s.tm with rings := mset s.tm.rings world r } }
    if r.size < r.written - r.consumed.getD 0 + n || !inTime then
      bumpBy { cid := cSamplesLost, world := world } qs.length
        (put { r with lost := satAdd 0xFFFF r.lost qs.length, lostAll := satAdd 0xFFFFFFFF r.lostAll qs.length } s)
    else
      let recs := (qs.zip (List.range qs.length)).map fun e => sampleWords s r (r.written + 1 + e.2) e.1
      put { r with written := r.written + n, lost := 0 }
        (writeRecords r r.written (periodWords s r qs.length :: recs) s)

/-- The sampling instant: every ring's unit, every queue's maxima, and which queues were nonempty (R270, R273). -/
def sample (inTime : Bool) (s : State) : State :=
  let s1 := forEach s.tm.rings (fun e s => ringUnit e.1 e.2 inTime s) s
  { s1 with tm := { s1.tm with
      queues := mmap s1.tm.queues fun _ q => { sampleQueue s1 q with was := !q.held.isEmpty },
      lastSample := some (s1.time.tc / (10000 * nsUnit)) } }

/-- SAMPLING_INSTANT: the first tick at or after a multiple of 10 µs of the time counter, and the first after a step of it (R270). -/
def execSamplingInstant (inTime : Bool) (s : State) : Res :=
  .next (whenever (s.tm.lastSample ≠ some (s.time.tc / (10000 * nsUnit))) (sample inTime) s)

end Sys2Proof.Machine
end

