-- ==== Sys2Proof/Machine/TmCommands.lean ====
section
/-! DEFINITION. The traffic manager's commands: queues, nodes, shapers, gate lists and statistics (chapter 8). -/

namespace Sys2Proof.Machine

/-! ## QUEUE_CONFIG (R254, R255, R257, R258) -/

/-- The OBJ and INDEX of QUEUE_CONFIG. -/
def qcObj (ws : List Word) : Nat := fld (nthW ws 0) 31 29
def qcIndex (ws : List Word) : Nat := fld (nthW ws 0) 17 0

/-- The words that Table 8.2 gives an object. -/
def qcWords (obj : Nat) : Nat :=
  match obj with | 0 => 2 | 1 => 3 | 2 => 5 | 3 => 3 | 4 => 2 | 5 => 3 | _ => 1

/-- LENGTH: at least the words of the object, and up to the five of Table 8.2, since the words that an object does not use must be 0 (R254;
DEDUCED, log entry 98). -/
def queueConfigLen (ws : List Word) : Bool := qcWords (qcObj ws) ≤ ws.length && ws.length ≤ 5

/-- The reserved fields by object, the words that it does not use included (Table 8.2, R254). -/
def queueConfigRsv (ws : List Word) : Option Nat :=
  let m : List Word := match qcObj ws with
    | 0 => [0x08C00000#32]
    | 1 => [0x18C0FFFF#32, 0x0000F000#32]
    | 2 => [0xF0000000#32, 0xF0000000#32, 0xF0000000#32, 0x7FFFFFFF#32]
    | 3 => [0xFFF00000#32, 0xF0000000#32]
    | 4 => [0x0000F800#32]
    | 5 => [0x0FF00000#32, 0x0000FFFF#32]
    | _ => [0, 0, 0, 0]
  masks (0x1FFC0000#32 :: m ++ List.replicate (5 - qcWords (qcObj ws)) 0xFFFFFFFF#32) ws

/-- The highest INDEX of an object. -/
def qcLimit (obj : Nat) : Nat :=
  match obj with | 0 => 262144 | 1 => 65536 | 2 => 64 | 3 => 257 | 4 => 65536 | 5 => 64 | _ => 0

/-- The queues with SAMPLE 1 but for one. -/
def sampledBut (s : State) (n : NodeId) : Nat := (s.tm.queues.filter fun e => e.2.sample && e.1 ≠ n).length

/-- An XGEM port is used on a tree: by another of its queues, whether enabled or not, or by a terminal's OMCI (R107, R255). A queue that is
not enabled and whose port is the reset value 0 uses none (DEDUCED: log entry 100). -/
def xgemTaken (s : State) (i port : Nat) : Bool :=
  (s.tm.queues.any fun e => e.1.side = 0 && e.1.index ≠ i && e.1.index / 4096 = i / 4096 && e.2.xgemPort = port && (e.2.enable || port ≠ 0))
  || s.pon.terms.any fun e => onuId e.1 = port && e.1 / 512 = i / 4096

/-- Write a queue: the context fields; a change of PARENT sets the deficits to 0; FLUSH frees what it holds. -/
def writeQueue (n : NodeId) (f : Queue → Queue) (flush : Bool) (s : State) : State :=
  let s1 := updQueue n f s
  let s2 := if (queueAt s1 n).parent ≠ (queueAt s n).parent then updNode n (fun x => { x with defC := 0, defE := 0 }) s1 else s1
  let s3 := settle (pathOf s n) s2
  if flush then flushQueue 5 n s3 else s3

/-- A member terminal or host queue of another world than its group's, or its mirror session's (R257, R258). -/
def memberForeign (s : State) (world : Nat) (d : Word) : Bool :=
  match destKind d with
  | 0 => (match termAt s (destIndex d) with | some t => t.world ≠ world | none => true)
  | 3 => (hrqAt s (destIndex d)).bound = 0xFF || !serves (hrqAt s (destIndex d)).world world
  | _ => false

/-- The members of every group but one. -/
def membersBut (s : State) (g : Nat) : Nat :=
  (s.tm.groups.map fun e => if e.1 = g then 0 else e.2.members.length).foldl (· + ·) 0

/-- QUEUE_CONFIG. -/
def runQueueConfig (c : Ctx) (s : State) : HRes :=
  let obj := qcObj c.words
  let i := qcIndex c.words
  let w1 := c.w 1
  let foreign (world : Nat) : Bool := c.world ≠ 0x0100 && world ≠ c.world
  refuseIf (6 ≤ obj || qcLimit obj ≤ i) .badParam [0] <|
  match obj with
  | 0 =>
    let n := downQueue i
    refuseIf (foreign (nodeWorld s n)) .badWorld [] <|
    refuseIf (xgemTaken s i (fld w1 15 0)) .exists [] <|
    refuseIf (!c.accepting && bit w1 29 && 8192 ≤ sampledBut s n) .noSpace [] <|
    .done (writeQueue n (fun x => { x with
      enable := bit w1 31, sample := bit w1 29, enc := bit w1 28, gateClass := fld w1 26 24, profile := fld w1 21 16,
      xgemPort := fld w1 15 0 }) (bit w1 30) s) []
  | 1 =>
    let n := netQueue i
    let world := fld (c.w 2) 31 16
    refuseIf (!worldCode world) .badParam [2] <|
    refuseIf (foreign world || foreign (queueAt s n).world) .badWorld [] <|
    refuseIf (!hangs (nodeAt8 s ⟨1, 2, fld (c.w 2) 11 0⟩).world world) .badWorld [] <|
    refuseIf (!c.accepting && bit w1 29 && 8192 ≤ sampledBut s n) .noSpace [] <|
    .done (writeQueue n (fun x => { x with
      enable := bit w1 31, sample := bit w1 29, gateClass := fld w1 26 24, profile := fld w1 21 16, world := world,
      parent := fld (c.w 2) 11 0 }) (bit w1 30) s) []
  | 2 =>
    refuseIf (c.world ≠ 0x0100) .badWorld [] <|
    let p : Profile := { green := fld w1 27 0, yellow := fld (c.w 2) 27 0, red := fld (c.w 3) 27 0, ondieOnly := bit (c.w 4) 31 }
    .done { s with tm := { s.tm with profiles := mset s.tm.profiles i p } } []
  | 3 =>
    refuseIf (foreign i) .badWorld [] <|
    .done { s with tm := { s.tm with quotas := mset s.tm.quotas i { ondie := fld w1 19 0, hbm := some (fld (c.w 2) 27 0) } } } []
  | 4 =>
    let world := fld w1 31 16
    let n := fld w1 10 0
    let ms := wordsOfBytes n c.data
    refuseIf (!worldCode world || 1024 < n || (n ≠ 0 && (!c.hasData || c.data.length ≠ 4 * n))) .badParam [1] <|
    refuseIf (foreign world || (match mget s.tm.groups i with | some g => foreign g.world | none => false)) .badWorld [] <|
    if n = 0 then .done { s with tm := { s.tm with groups := mdel s.tm.groups i } } []
    else
      refuseIf (ms.any fun d => 3 < destKind d || !destOk d) .badParam [1] <|
      refuseIf (ms.any (memberForeign s world)) .badWorld [] <|
      refuseIf (!c.accepting && 262144 < membersBut s i + n) .noSpace [] <|
      .done { s with tm := { s.tm with groups := mset s.tm.groups i { world := world, members := ms } } } []
  | _ =>
    let world := fld (c.w 2) 31 16
    refuseIf (destKind w1 = 4 || !destOk w1) .badParam [1] <|
    refuseIf (!worldCode world) .badParam [2] <|
    refuseIf (foreign world || (match mget s.tm.sessions i with | some x => foreign x.world | none => false)) .badWorld [] <|
    refuseIf (memberForeign s world w1) .badWorld [] <|
    .done { s with tm := { s.tm with sessions := mset s.tm.sessions i { dest := w1, world := world } } } []

def opQueueConfig : OpSpec :=
  { code := 0x5001, home := (0x06, 0), len := queueConfigLen, rsv := queueConfigRsv, stage := .stageable,
    objs := fun ws => [(0x50010 + qcObj ws, qcIndex ws)], run := runQueueConfig }

/-! ## SCHED_NODE_CONFIG and SHAPER_CONFIG (R250, R251, R259, R263, R265) -/

/-- The node that word 0 of Table 8.4 names. -/
def nodeOf (w : Word) : NodeId := ⟨fld w 31 31, fld w 30 28, fld w 17 0⟩

/-- A node is of Table 8.1. -/
def nodeOk (n : NodeId) : Bool := n.index < nodeCount n.side n.level

/-- A child of a node has a world that the node may not carry (R251). -/
def childForeign (s : State) (n : NodeId) (world : Nat) : Bool :=
  let bad (k : NodeId) : Bool := parentOf s k = some n && !hangs world (nodeWorld s k)
  (s.tm.nodes.any fun e => bad e.1) || (s.tm.queues.any fun e => bad e.1)
    || (s.pon.terms.any fun e => bad ⟨0, 3, e.1⟩)

/-- A node holds a world of its own, which its configuration gives. -/
def holdsWorld (n : NodeId) : Bool := n.level = 1 || n.level = 2

/-- A level-2 node of the network side, which may be the default of its world and has default queues. -/
def netSubport (n : NodeId) : Bool := n.side = 1 && n.level = 2

/-- The node that SCHED_NODE_CONFIG writes over the old one (Table 8.4). Of a queue it writes only the priority and the weights. -/
def nodeWritten (ws : List Word) (n : NodeId) (old : Node) : Node :=
  let w1 := nthW ws 1
  let y := { old with prio := fld w1 26 24, weight := fld (nthW ws 2) 27 16, excWeight := fld (nthW ws 2) 11 0 }
  if n.level = 4 then y
  else { y with
    enable := bit w1 31, dflt := netSubport n && bit w1 30, parent := fld w1 15 0,
    world := if holdsWorld n then fld (nthW ws 3) 31 16 else 0x0100, defq := if netSubport n then fld (nthW ws 3) 15 0 else 0 }

/-- A PARENT that the level above does not have. -/
def parentBad (n : NodeId) (parent : Nat) : Bool :=
  (n.side = 0 && n.level = 2 && 15 < parent) || (n.side = 0 && n.level = 3 && 255 < parent)
    || (n.side = 1 && n.level = 1 && 16 < parent) || (netSubport n && 255 < parent)

/-- The world of a node's parent. -/
def parentWorld (s : State) (n : NodeId) : Nat := match parentOf s n with | some p => nodeWorld s p | none => 0x0100

/-- A new default of a world under a root takes the place of the old one. -/
def oneDefault (n : NodeId) (new : Node) (s : State) : State :=
  if new.dflt then
    { s with tm := { s.tm with nodes := mmap s.tm.nodes fun k x =>
        if k ≠ n && k.side = 1 && k.level = 2 && x.world = new.world && rootOf s k = rootOf s n then { x with dflt := false }
        else x } }
  else s

/-- SCHED_NODE_CONFIG (R259). -/
def runSchedNodeConfig (c : Ctx) (s : State) : HRes :=
  let n := nodeOf (c.w 0)
  let world := fld (c.w 3) 31 16
  let new := nodeWritten c.words n (nodeAt8 s n)
  refuseIf (!nodeOk n) .badParam [0] <|
  refuseIf (parentBad n (fld (c.w 1) 15 0)) .badParam [1] <|
  refuseIf (fld (c.w 2) 27 16 = 0 || fld (c.w 2) 11 0 = 0) .badParam [2] <|
  refuseIf (holdsWorld n && !worldCode world || fld (c.w 3) 15 0 % 8 ≠ 0) .badParam [3] <|
  refuseIf (c.world ≠ 0x0100 && ((holdsWorld n && world ≠ c.world) || nodeWorld s n ≠ c.world)) .badWorld [] <|
  let s1 := updNode n (fun _ => new) s
  refuseIf (!hangs (parentWorld s1 n) (nodeWorld s1 n) || (holdsWorld n && childForeign s1 n world)) .badWorld [] <|
  .done (oneDefault n new (settle (pathOf s n) s1)) []

/-- The objects that SCHED_NODE_CONFIG writes: the node; of a queue, whose priority and weights it gives, the queue (R72). -/
def schedObjs (ws : List Word) : List (Nat × Nat) :=
  let n := nodeOf (nthW ws 0)
  if n.level = 4 then [(0x50010 + n.side, n.index)] else [(0x5002, (nthW ws 0).toNat)]

/-- The reserved fields of SCHED_NODE_CONFIG. DEFAULT and DEFQ_BASE are a network level-2 node's, and reserved elsewhere (R550); a DEFQ_BASE
that is not a multiple of 8 is refused by R259 on any node (DEDUCED, log entry 160). -/
def schedNodeRsv (ws : List Word) : Option Nat :=
  let own := netSubport (nodeOf (nthW ws 0))
  masks [0x0FFC0000#32, if own then 0x38FF0000#32 else 0x78FF0000#32, 0xF000F000#32,
    if own || fld (nthW ws 3) 15 0 % 8 ≠ 0 then 0 else 0x0000FFFF#32] ws

def opSchedNodeConfig : OpSpec :=
  { code := 0x5002, home := (0x06, 1), len := exactly 4,
    rsv := schedNodeRsv, stage := .stageable,
    objs := schedObjs, run := runSchedNodeConfig }

/-- SHAPER_CONFIG (R263, R265). -/
def runShaperConfig (c : Ctx) (s : State) : HRes :=
  let n := nodeOf (c.w 0)
  let added := signed 8 (fld (c.w 1) 7 0)
  let cbs := fld (c.w 4) 23 0
  let pbs := fld (c.w 5) 23 0
  refuseIf (n.level ≠ 2 && n.level ≠ 3) .badTarget [] <|
  refuseIf (!nodeOk n) .badParam [0] <|
  refuseIf (added < -64) .badParam [1] <|
  refuseIf ((c.w 3).toNat < (c.w 2).toNat) .badParam [3] <|
  refuseIf (cbs < 16384) .badParam [4] <|
  refuseIf (pbs < 16384) .badParam [5] <|
  refuseIf (c.world ≠ 0x0100 && nodeWorld s n ≠ c.world) .badWorld [] <|
  let full := !bit (c.w 1) 30
  let h : Shaper := { overhead := added, cir := (c.w 2).toNat, pir := (c.w 3).toNat, cbs := cbs, pbs := pbs,
                      cTok := if full then (cbs : Int) * byteUnit else 0, pTok := if full then (pbs : Int) * byteUnit else 0 }
  .done (updNode n (fun x => { x with shaper := if bit (c.w 1) 31 then some h else none }) s) []

def opShaperConfig : OpSpec :=
  { code := 0x5003, home := (0x06, 2), len := exactly 6,
    rsv := masks [0x0FFC0000#32, 0x3FFFFF00#32, 0, 0, 0xFF000000#32, 0xFF000000#32], stage := .stageable,
    objs := fun ws => [(0x5003, (nthW ws 0).toNat)], run := runShaperConfig }

/-! ## Gate lists (R266, R267) -/

/-- The list that an image holds, or the ground on which its load is refused (R266). -/
def gateImage (target : Word) (data : List Byte) : Except (Status × List Word) GateList :=
  let n := (wordAt data 0x0C).toNat
  let es := (wordsOfBytes n (data.drop 64)).map fun w => (fld w 31 24, fld w 23 0)
  let cycle := (wordAt data 0x1C).toNat
  if data.length < 64 || wordAt data 0 ≠ 0x47415445#32 || wordAt data 4 ≠ 1 || data.length ≠ 64 + 4 * n
      || crc32 (data.drop 0x24) ≠ wordAt data 0x20 then .error (.imageInvalid, [])
  else if n = 0 || 1024 < n then .error (.badParam, [0])
  else if 1000000000 ≤ (wordAt data 0x18).toNat || cycle < 1000 || 1000000000 < cycle
      || (slice data 0x24 28).any (· ≠ 0) || es.any (fun e => e.2 < 100)
      || (es.map Prod.snd).foldl (· + ·) 0 ≠ cycle || (fld target 31 30 = 0 && 15 < fld target 5 0) then .error (.badParam, [0])
  else if wordAt data 8 ≠ target then .error (.badTarget, [])
  else .ok { base := join64 (wordAt data 0x10) (wordAt data 0x14) * 1000000000 + (wordAt data 0x18).toNat,
             cycle := cycle, entries := es }

/-- The earliest instant at which a list installed now is ready, in ns (R267). -/
def gateReady (s : State) : Nat := ceilDiv s.time.tc nsUnit + 100000

/-- A list installed now starts late (R267). -/
def gateLate (s : State) (g : GateList) : Bool := g.base < gateReady s

/-- When a list installed now starts, in ns (R267). -/
def gateStart (s : State) (g : GateList) : Nat :=
  if gateLate s g then g.base + ceilDiv (gateReady s - g.base) g.cycle * g.cycle else g.base

/-- The key of a target: KIND * 64 + INDEX (Table 8.6). -/
def targetKey (w : Word) : Nat := fld w 31 30 * 64 + fld w 5 0

/-- Install a list (R267). -/
def installGate (target : Word) (g : GateList) (s : State) : HRes :=
  let k := targetKey target
  let start := gateStart s g
  let s1 := { s with tm := { s.tm with gates := mupd s.tm.gates k {} fun x => { x with pending := some (g, start) } } }
  let ws := [lo32 (start / 1000000000), hi32 (start / 1000000000), wd (start % 1000000000), wd (b2n (gateLate s g))]
  .done (if gateLate s g then
      recordEv 0x0008 4 0x06 3 0 0x0100 (target :: ws.take 3)
        (bump (cTm 9) (if fld target 31 30 = 0 then 1 else 8) (fld target 5 0) s1)
    else s1) ws

/-- GATE_LIST_LOAD and UPSTREAM_GATE_LOAD (R266): `kinds` are the KINDs that the opcode takes. -/
def runGateLoad (kinds : List Nat) (c : Ctx) (s : State) : HRes :=
  let t := c.w 0
  let i := fld t 5 0
  refuseIf (!c.hasData) .badParam [0] <|
  match gateImage t c.data with
  | .error (st, ws) => .refuse st ws
  | .ok g =>
    refuseIf (!kinds.contains (fld t 31 30) || (fld t 31 30 ≠ 0 && treeOf s i ≠ i)) .badTarget [] <|
    installGate t g s

def opGateListLoad : OpSpec :=
  { code := 0x5004, home := (0x06, 3), oWorld := true, len := exactly 1, rsv := masks [0x3FFFFFC0#32], stage := .stageable,
    objs := fun ws => [(0x5004, targetKey (nthW ws 0))], run := runGateLoad [0, 1] }

def opUpstreamGateLoad : OpSpec :=
  { code := 0x2007, home := (0x03, 0), oWorld := true, instOf := some fun ws => fld (nthW ws 0) 5 0 / 8, len := exactly 1,
    rsv := masks [0x3FFFFFC0#32],
    stage := .stageable, objs := fun ws => [(0x5004, targetKey (nthW ws 0))], run := runGateLoad [2] }

/-- A pending list takes over at its start S (R267). -/
def gateTake (k : Nat) (s : State) : State :=
  match (gateAt s k).pending with
  | some (g, start) =>
    if start * nsUnit ≤ s.time.tc then
      { s with tm := { s.tm with gates := mset s.tm.gates k { active := some g, pending := none } } }
    else s
  | none => s

/-- GATE_LIST_START of a target, as KIND * 64 + INDEX. -/
def execGateListStart (target : Nat) (s : State) : Res := onObject (target < 192) (gateTake target s)

/-! ## QUEUE_STATS (R271) -/

/-- The words of Table 8.7. -/
def queueWords (s : State) (n : NodeId) : List Word :=
  let x := queueAt s n
  let gate := match x.held, rootOf s n with
    | h :: _, some r => !gateFits s r n h.frame
    | _, _ => false
  [wd (min 0xFFFFFFFF (depthBytes x)),
   pack [(b2n (keyWait s n), 1, 31), (b2n gate, 1, 30), (x.held.length, 24, 0)],
   wd (holNs s x), wd x.maxDepth, wd x.maxHol] ++ count48 x.enq ++ count48 x.deq ++ count48 x.drop

/-- QUEUE_STATS. -/
def runQueueStats (c : Ctx) (s : State) : HRes :=
  let n : NodeId := ⟨fld (c.w 0) 31 31, 4, fld (c.w 0) 17 0⟩
  refuseIf (!nodeOk n) .badParam [0] <|
  refuseIf (c.world ≠ 0x0100 && nodeWorld s n ≠ c.world) .badWorld [] <|
  .done (if mhas s.tm.queues n then updQueue n (fun x => { x with maxDepth := 0, maxHol := 0 }) s else s) (queueWords s n)

def opQueueStats : OpSpec :=
  { code := 0x5005, vf := true, fast := true, writes := false, home := (0x06, 0), len := exactly 1, rsv := masks [0x7FFC0000#32],
    run := runQueueStats }

/-! ## Sample rings (R272, R274) -/

/-- A function may own a ring of a world: the physical function, or a virtual function with a pair bound to it. -/
def boundTo (s : State) (fn world : Nat) : Bool :=
  fn = 0 || s.host.pairs.any fun e => e.1 < 64 && e.2.served && e.2.bound = fn && e.2.world = world

/-- SAMPLE_RING_CONFIG. -/
def runSampleRingConfig (c : Ctx) (s : State) : HRes :=
  let world := fld (c.w 0) 15 0
  let fn := fld (c.w 0) 23 16
  let size := (c.w 3).toNat
  refuseIf (!worldCode world || 63 < fn) .badParam [0] <|
  refuseIf (fld (c.w 1) 11 0 ≠ 0) .badParam [1] <|
  refuseIf (!(size = 0 || ((List.range 13).any fun k => size = 2 ^ (8 + k)))) .badParam [3] <|
  refuseIf (c.world ≠ 0x0100 && world ≠ c.world) .badWorld [] <|
  refuseIf (!boundTo s fn world) .badWorld [] <|
  let rings := if size = 0 then mdel s.tm.rings world
    else mset s.tm.rings world { fn := fn, addr := join64 (c.w 1) (c.w 2), size := size }
  .done { s with tm := { s.tm with rings := rings } } []

def opSampleRingConfig : OpSpec :=
  { code := 0x5006, home := (0x06, 4), len := exactly 4, rsv := masks [0xFF000000#32], stage := .stageable,
    objs := fun ws => [(0x5006, fld (nthW ws 0) 15 0)], run := runSampleRingConfig }

/-- SAMPLE_RING_READ. The consumed point is the index of the first record not yet consumed, 0 until the host gives one. -/
def runSampleRingRead (c : Ctx) (s : State) : HRes :=
  let world := fld (c.w 0) 15 0
  refuseIf (c.world ≠ 0x0100 && world ≠ c.world) .badWorld [] <|
  match mget s.tm.rings world with
  | none => .refuse .notFound []
  | some r =>
    let i := (c.w 1).toNat
    refuseIf (i ≠ 0xFFFFFFFF && r.size ≤ i) .badParam [1] <|
    let r1 := if i = 0xFFFFFFFF then r else { r with consumed := some (r.written - (r.written + r.size - i) % r.size) }
    .done { s with tm := { s.tm with rings := mset s.tm.rings world r1 } }
      [wd (r1.consumed.getD 0 % r.size), wd (r.written % r.size), wd r.lostAll]

def opSampleRingRead : OpSpec :=
  { code := 0x5007, vf := true, writes := false, home := (0x06, 4), len := exactly 2, rsv := masks [0xFFFF0000#32],
    run := runSampleRingRead }

end Sys2Proof.Machine
end

