-- ==== Sys2Proof/Machine/PonCommands.lean ====
section
/-! DEFINITION. The commands of the PON ports and terminals, and the optics buses (chapter 3). -/

namespace Sys2Proof.Machine

/-! ## PORT_CONFIG (R88 to R95) -/

/-- The PORT and MODE of PORT_CONFIG. -/
def pcPort (ws : List Word) : Nat := fld (nthW ws 0) 5 0
def pcMode (ws : List Word) : Nat := fld (nthW ws 0) 10 8

/-- What runs upstream on a port once a MODE is set (Table 3.3). -/
def modeKind (p mode : Nat) : Nat := if 4 ≤ mode then (if p % 2 = 1 then 1 else mode - 2) else mode

/-- A burst field with "rate default" as its reset value (R94). -/
def rateDefault (k v d : Nat) : Nat := if k = 0 then v else orDefault v d

/-- The words of PORT_CONFIG as a setting (Table 3.4). -/
def portCfgOf (k : Nat) (ws : List Word) : PortCfg :=
  { mode := pcMode ws, fcast := bit (nthW ws 0) 18, aes256 := bit (nthW ws 0) 17, upFec := bit (nthW ws 0) 16,
    guard := rateDefault k (fld (nthW ws 1) 15 8) (guardMin k),
    preamble := rateDefault k (fld (nthW ws 1) 7 0) (preDefault k),
    deactMs := fld (nthW ws 2) 31 16, losFrames := fld (nthW ws 2) 11 8, lobN := fld (nthW ws 2) 3 0,
    energyTh := fld (nthW ws 3) 29 16, dropStep := fld (nthW ws 3) 7 0, gain := (nthW ws 4).toNat,
    offset := fld (nthW ws 5) 13 0, levHigh := fld (nthW ws 6) 31 16, levLow := fld (nthW ws 6) 15 0, ponId := nthW ws 7 }

/-- A setting as the words of Table 3.4. -/
def portCfgWords (p : Nat) (x : PortCfg) : List Word :=
  [ pack [(b2n x.fcast, 1, 18), (b2n x.aes256, 1, 17), (b2n x.upFec, 1, 16), (x.mode, 3, 8), (p, 6, 0)],
    pack [(x.guard, 8, 8), (x.preamble, 8, 0)], pack [(x.deactMs, 16, 16), (x.losFrames, 4, 8), (x.lobN, 4, 0)],
    pack [(x.energyTh, 14, 16), (x.dropStep, 8, 0)], wd x.gain, wd x.offset,
    pack [(x.levHigh, 16, 16), (x.levLow, 16, 0)], x.ponId ]

/-- PORT_CONFIG as it stands for a port, with the defaults of Table 3.6 (R94, R136). -/
def portCfgShown (s : State) (p : Nat) : PortCfg :=
  let k := upKind s p
  let x := cfgAt s p
  { x with guard := rateDefault k x.guard (guardMin k), preamble := rateDefault k x.preamble (preDefault k) }

/-- The ground on which PORT_CONFIG is refused for what it asks of the mode (R88, R89, R92). -/
def modeGround (s : State) (ws : List Word) : Option (Status × List Word) :=
  let p := pcPort ws
  let mode := pcMode ws
  if paired s p && p % 2 = 1 then
    let shown := portCfgWords p (portCfgShown s p)
    if nthW ws 0 ≠ nthW shown 0 then some (.badParam, [0])
    else if nthW ws 2 ≠ nthW shown 2 then some (.badParam, [2])
    else if nthW ws 7 ≠ nthW shown 7 then some (.badParam, [7])
    else none
  else if 6 ≤ mode || (4 ≤ mode && p % 2 = 1) then some (.badParam, [0])
  else
    let old := (portCfgAt s p).mode
    if old ≠ 0 && mode ≠ 0 && old ≠ mode then some (.notPermitted, [])
    else if 4 ≤ mode && old = 0 && (portCfgAt s (p + 1)).mode ≠ 0 then some (.notPermitted, [])
    else none

/-- A burst field below the minimum of Table 3.6. -/
def belowMin (v m : Nat) : Bool := v ≠ 0 && v < m

/-- The first word of PORT_CONFIG with a value that Table 3.4 does not allow. -/
def portParamGround (k : Nat) (ws : List Word) : Option Word :=
  if k ≠ 0 && (belowMin (fld (nthW ws 1) 15 8) (guardMin k) || belowMin (fld (nthW ws 1) 7 0) (preMin k)) then some 1
  else if fld (nthW ws 2) 31 16 = 0 || fld (nthW ws 2) 11 8 = 0 || fld (nthW ws 2) 3 0 = 0 then some 2
  else none

/-- The ports that a PORT_CONFIG starts or stops: both of a pair. -/
def modePorts (s : State) (p : Nat) : List Nat := if paired s p && p % 2 = 0 then [p, p + 1] else [p]

/-- A port leaves mode 0: framing starts at the next boundary, its domains having power; without optics NO_OPTICS is raised (R90, Table 3.8). -/
def startPort (p : Nat) (s : State) : State :=
  let x := portAt s p
  let s1 := needDomains [0x80 + p, 0x20 + p / 16] <| relockPort p (is50G s p) <| updPort p (fun x => { x with
    starting := true, stopping := none, cfgGuard := (cfgAt s p).guard, cfgPre := (cfgAt s p).preamble, nextProfile := [] }) s
  if x.pres then s1 else noOptics p s1

/-- The burst profile that a port has last been given. -/
def lastProfile (x : Port) : Nat × Nat :=
  match x.nextProfile.getLast? with
  | some (_, g, pre) => (g, pre)
  | none => (x.cfgGuard, x.cfgPre)

/-- The new burst profile of a port in service applies to the maps built from the eighth PON frame after the command on: the map built in a
PON frame is the next one's (R95, Table 5.5). A change that already waits for its own maps goes on. -/
def changeProfile (p : Nat) (s : State) : State :=
  let c := portCfgShown s p
  let from_ := s.time.sfc + 9
  if lastProfile (portAt s p) = (c.guard, c.preamble) then s
  else updPort p (fun x => { x with nextProfile := (x.nextProfile.filter fun e => e.1 ≠ from_) ++ [(from_, c.guard, c.preamble)] }) s

/-- PORT_CONFIG (R88 to R95). Setting mode 0 keeps the old mode until the sequence of R90 ends, and a command that names
a port in that sequence waits for its end. -/
def runPortConfig (c : Ctx) (s : State) : HRes :=
  let p := pcPort c.words
  let mode := pcMode c.words
  refuseIf (c.inst ≠ p) .badTarget [] <|
  if (portAt s p).stopping.isSome && !c.accepting then .wait s [p, 1]
  else match modeGround s c.words with
  | some (st, ws) => .refuse st ws
  | none =>
    let k := if paired s p && p % 2 = 1 then 1 else modeKind p mode
    match portParamGround k c.words with
    | some i => .refuse .badParam [i]
    | none =>
      let old := (portCfgAt s p).mode
      let new := portCfgOf k c.words
      if paired s p && p % 2 = 1 then
        .done (changeProfile p (updPort p (fun x => { x with cfg := { new with mode := 0 } }) s)) []
      else if old ≠ 0 && mode = 0 then
        let s1 := updPort p (fun x => { x with cfg := { new with mode := old } }) s
        .wait (forEach (modePorts s p) (fun q s => updPort q (fun x => { x with stopping := some (s.time.sfc + 1) }) s) s1) [p, 0]
      else
        let s1 := updPort p (fun x => { x with cfg := new }) s
        if old = 0 && mode ≠ 0 then .done (forEach (modePorts s1 p) startPort s1) []
        else if mode ≠ 0 then .done (changeProfile p s1) []
        else .done s1 []

def opPortConfig : OpSpec :=
  { code := 0x1001, home := (0x01, 0), oWorld := true, len := exactly 8,
    rsv := masks [0xFFF8F8C0#32, 0xFFFF0000#32, 0x0000F0F0#32, 0xC000FF00#32, 0, 0xFFFFC000#32, 0, 0],
    stage := .stageable, objs := fun ws => [(0x1001, pcPort ws)], run := runPortConfig }

/-- Clear a port's defects that need the port in service. -/
def clearPortDefects (p : Nat) (s : State) : State :=
  let x := portAt s p
  let off (on : Bool) (code : Nat) (s : State) : State := if on then portDefect p code 1 false s else s
  let s1 := off x.los 0x0110 (off x.lol 0x0111 (off x.rogue 0x0113 (off x.noOptics 0x0114 (off x.treeDrop 0x0115 s))))
  if x.awlCrowd then lower 0x02 1 p 0 0x0210 0 s1 else s1

/-- A port reaches mode 0: TXDIS is asserted, its terminals go back to discovery, and its maps and windows end (R90). -/
def disablePort (p : Nat) (s : State) : State :=
  let s1 := abortScan (128 + p) (holdTx p (clearPortDefects p s))
  let s2 := forEach (portTerms s1 p) (fun e s => if e.2.st = .held then s else endActivation e.1 .pending false s) s1
  let s3 := updPort p (fun x => { x with
    cfg := { x.cfg with mode := 0 }, framing := false, starting := false, stopping := none, nextProfile := [], prevSn := none,
    los := false, lol := false, rogue := false, noOptics := false, treeDrop := false, awlCrowd := false, losRun := 0,
    lolRun := 0, rogueRun := 0, cleanRun := 0, offering := false, running := false, tail := 0, pause := none, codes := [],
    crowd := 0, windows := [], lastSn := none, omciTx := [], fs := [], release := none }) s2
  { s3 with weaver := { s3.weaver with ports := mdel s3.weaver.ports p } }

/-! ## PORT_STATE (R136) -/

/-- The DEFECTS of Table 3.13. -/
def portDefects (x : Port) : Nat :=
  256 * b2n x.los + 128 * b2n x.lol + 64 * b2n x.lolTx + 32 * b2n x.rogue + 16 * b2n x.noOptics + 8 * b2n x.treeDrop
    + 4 * b2n x.awlCrowd + 2 * b2n x.running

/-- The STATE of Table 3.13. A port in service that waits for its first module frame boundary, of which the table says nothing, shows 1, and
one in the 100 ms of R130 shows 2 (DESIGN CHOICE: log entry 171). -/
def portStateCode (s : State) (p : Nat) : Nat :=
  let x := portAt s p
  if !inService s p then 0 else if x.noOptics || x.lolTx || x.release.isSome then 2 else 1

/-- A counter of Table 3.9 of a port as two words. -/
def ponCounterWords (s : State) (p pos : Nat) : List Word :=
  let v := counterAt s { cid := cPon pos, scope := 1, idx := p }
  [lo32 v, hi32 v]

/-- The words of Table 3.13. What its 9-bit OPERATING shows for 512 terminals the table does not say (a free value: log entry 186). -/
def portStateWords (s : State) (p : Nat) : List Word :=
  let x := portAt s p
  let up := ((portTerms s p).filter fun e => e.2.st = .operating).length
  let t := x.tod.2
  portCfgWords p (portCfgShown s p)
    ++ [pack [(portStateCode s p, 4, 28), (inField 9 up, 9, 16), (portDefects x, 9, 0)], lo32 x.tod.1, hi32 x.tod.1,
        wd (t / nsUnit % 1000000000), lo32 (t / (1000000000 * nsUnit)), hi32 (t / (1000000000 * nsUnit))]
    ++ (List.range 15).flatMap (ponCounterWords s p)

/-- PORT_STATE (R136). -/
def runPortState (c : Ctx) (s : State) : HRes :=
  let p := pcPort c.words
  let ws := portStateWords s p
  refuseIf (c.inst ≠ p) .badTarget [] <|
  .done s (match c.master with
    | .vf _ => List.replicate 8 0 ++ (ws.drop 8).take 6 ++ List.replicate 30 0
    | _ => ws)

def opPortState : OpSpec :=
  { code := 0x1002, vf := true, writes := false, home := (0x01, 0), len := exactly 1, rsv := masks [0xFFFFFFC0#32],
    run := runPortState }

/-! ## Terminals (R93, R132 to R134) -/

/-- The terminal that word 0 names. -/
def termOf (c : Ctx) : Nat := fld (c.w 0) 14 0

/-- Run a command on a terminal that its world reaches. -/
def onTerm (c : Ctx) (s : State) (k : Terminal → HRes) : HRes :=
  match termAt s (termOf c) with
  | none => .refuse .notFound []
  | some t => refuseIf (!reaches c.world t.world) .badWorld [] (k t)

/-- A slot is bound to a terminal. -/
def slotBound (s : State) (slot : Nat) : Bool := s.pon.terms.any fun e => e.2.slot1 = slot || e.2.slot2 = slot

/-- The attributes that R308 asks of a PON slot. -/
def ponSlotOk (s : State) (slot world : Nat) : Bool :=
  let a := (slotAt s slot).attr
  permits s a engineBit world (some useEncrypt) && a.usage.testBit useDecrypt

/-- A terminal node's parent is of a world that the terminal may hang under: a terminal of world O may hang under any (R251). -/
def termNodeOk (s : State) (i world : Nat) : Bool :=
  hangs (nodeWorld s ⟨0, 2, i / 512 * 256 + (nodeAt8 s ⟨0, 3, i⟩).parent⟩) world

/-- The object of TERMINAL_ADD, TERMINAL_REMOVE and PON_KEY_SWITCH: the record (R72). -/
def termObj (ws : List Word) : List (Nat × Nat) := [(0x1003, fld (nthW ws 0) 14 0)]

/-- TERMINAL_ADD (R93, R132, R251, R308). A record that exists already is refused as a serial number that does. -/
def runTerminalAdd (c : Ctx) (s : State) : HRes :=
  let i := termOf c
  let world := fld (c.w 0) 31 16
  let (a, b) := (fld (c.w 3) 17 0, fld (c.w 4) 17 0)
  let tree := treeTerms s (i / 512)
  refuseIf (i / 512 ≠ c.inst || (paired s c.inst && c.inst % 2 = 1)) .badParam [0] <|
  refuseIf ((termAt s i).isSome || tree.any fun e => e.2.sn0 = c.w 1 && e.2.sn1 = c.w 2) .exists [] <|
  refuseIf (!worldCode world || !reaches c.world world) .badWorld [] <|
  refuseIf (!isPonSlot a) .badParam [3] <|
  refuseIf (!isPonSlot b || a = b) .badParam [4] <|
  refuseIf (fld (c.w 5) 1 0 = 3) .badParam [5] <|
  refuseIf (slotBound s a || slotBound s b) .exists [] <|
  refuseIf (!termNodeOk s i world) .badWorld [] <|
  refuseIf (!ponSlotOk s a world || !ponSlotOk s b world) .notPermitted [] <|
  let t : Terminal :=
    { world := world, sn0 := c.w 1, sn1 := c.w 2, slot1 := a, slot2 := b, upFec := fld (c.w 5) 1 0, port := c.inst }
  .done (clearCounters 2 i { s with pon := { s.pon with terms := mset s.pon.terms i t } }) []

def opTerminalAdd : OpSpec :=
  { code := 0x1003, home := (0x01, 0), len := exactly 6,
    rsv := masks [0x00008000#32, 0, 0, 0xFFFC0000#32, 0xFFFC0000#32, 0xFFFFFFFC#32], stage := .stageable, objs := termObj,
    run := runTerminalAdd }

/-- Clear a terminal's power defects. -/
def clearPowerDefects (i : Nat) (t : Terminal) (s : State) : State :=
  let s1 := if t.dropTold then termDefect i 0x0118 0 false s else s
  if t.levelDefect then termDefect i 0x0119 0 false s1 else s1

/-- TERMINAL_REMOVE (R132, R154, R253). -/
def runTerminalRemove (c : Ctx) (s : State) : HRes :=
  onTerm c s fun t =>
    let i := termOf c
    let s1 := endActivation i .pending false (clearPowerDefects i t s)
    let s2 := if hasOnu t then updPort t.port (fun x => { x with goodbyes := x.goodbyes ++ [onuId i] }) s1 else s1
    .done { s2 with pon := { s2.pon with terms := mdel s2.pon.terms i } } []

def opTerminalRemove : OpSpec :=
  { code := 0x1004, home := (0x01, 0), len := exactly 1, rsv := masks [0xFFFF8000#32], stage := .stageable, objs := termObj,
    run := runTerminalRemove }

/-- The types of Table 3.10 and of R120 that the PLOAM engine owns downstream. The standard messages' numbers are PRESUMED
(G.9807.1): Burst_Profile 0x01, Assign_ONU-ID 0x03, Ranging_Time 0x04, Deactivate_ONU-ID 0x05, Disable_Serial_Number 0x06,
Key_Control 0x0D, power levelling 0x1B. -/
def ownedTypes : List Nat := [0x01, 0x03, 0x04, 0x05, 0x06, 0x0D, 0x1B, 0xE0, 0xE1, 0xE2, 0xE3]

/-- PLOAM_SEND (R97, R120, R133). -/
def runPloamSend (c : Ctx) (s : State) : HRes :=
  onTerm c s fun t =>
    let type := fld (c.w 1) 7 0
    refuseIf (!hasOnu t || ownedTypes.contains type) .notPermitted [] <|
    refuseIf (8 ≤ t.hostMsgs.length) .noSpace [] <|
    let m := Ploam.host type (bytesOfWords ((c.words.drop 2).take 9))
    .done (updTerm (termOf c) (fun t => { t with hostMsgs := t.hostMsgs ++ [m] }) s) []

def opPloamSend : OpSpec :=
  { code := 0x1005, writes := false, home := (0x01, 0), len := exactly 11, rsv := masks [0xFFFF8000#32, 0xFFFFFF00#32],
    run := runPloamSend }

/-- A dBm field of a value that may be absent. -/
def dbmOr (cfg : PortCfg) (v : Option Nat) : Nat := match v with | some k => dbmField cfg k | none => 0x8000

/-- BPM_READ (R134, Table 3.12). Before the first burst measured since TERMINAL_ADD the dBm fields hold their reset value. -/
def runBpmRead (c : Ctx) (s : State) : HRes :=
  onTerm c s fun t =>
    let cfg := cfgAt s t.port
    let any_ (v : Nat) : Option Nat := if t.seen then some v else none
    .done (updTerm (termOf c) (fun t => { t with minCode := none, maxCode := none }) s)
      [ pack [(b2n t.ref.isSome, 1, 31), (b2n t.short, 1, 30), (t.lastCode, 14, 0)],
        pack [(dbmOr cfg (any_ t.mean), 16, 16), (dbmOr cfg (any_ (16 * t.lastCode)), 16, 0)],
        pack [(dbmOr cfg (t.maxCode.map (16 * ·)), 16, 16), (dbmOr cfg (t.minCode.map (16 * ·)), 16, 0)],
        pack [(dbmOr cfg t.ref, 16, 0)], pack [(t.mean, 18, 0)], wd t.measured ]

def opBpmRead : OpSpec :=
  { code := 0x1006, vf := true, writes := false, home := (0x01, 0), len := exactly 1, rsv := masks [0xFFFF8000#32],
    run := runBpmRead }

/-! ## Optics management (R127 to R129) -/

/-- OPTICS_BUS_STUCK of a bus is reported or cleared at its first port. -/
def opticsStuck (bus : Nat) (on : Bool) (s : State) : State :=
  if on then raise 0x01 0 (8 * bus) bus 0x011A 1 0 s else lower 0x01 0 (8 * bus) bus 0x011A 1 s

/-- A bus whose data line was held low sends nine clocks and a stop; if the line stays low the bus is stuck (R129). -/
def recoverBus (bus : Nat) (released : Bool) (s : State) : State :=
  let was := mhas s.pon.stuck bus
  let s := emit (.opticsRecovery bus) s
  if released then
    let s1 := { s with pon := { s.pon with stuck := mdel s.pon.stuck bus } }
    if was then opticsStuck bus false s1 else s1
  else
    let s1 := { s with pon := { s.pon with stuck := mset s.pon.stuck bus s.mono } }
    if was then s1 else opticsStuck bus true s1

/-- A transaction with a port's optics, PON_n.MSEL_L asserted for its duration (R127). -/
def opticsTransaction (port dev reg : Nat) (data : List Byte) (reads : Nat) (s : State) : State :=
  emit (.pin "PON_MSEL_L" port 1) (emit (.optics (port / 8) dev reg data reads) (emit (.pin "PON_MSEL_L" port 0) s))

/-- OPTICS_ACCESS (R128, R129). The layout of its parameters is the model's own (log entry 50): word 0 holds WRITE [31],
BUS [26:24], DEV [22:16], REG [15:8] and LEN [7:0]; the bytes of a write follow, those of a read are the result. What the bus
answers comes with the command: 0 and the bytes read, or a cause of R128, followed for cause 3 by 1 where the line stays low. No
answer is no acknowledge. -/
def runOpticsAccess (c : Ctx) (s : State) : HRes :=
  let w := c.w 0
  let bus := fld w 26 24
  let n := fld w 7 0
  let put := bit w 31
  refuseIf (63 < c.inst || c.inst / 8 ≠ bus) .badTarget [] <|
  refuseIf (n = 0 || 128 < n) .badParam [0] <|
  refuseIf (mhas s.pon.stuck bus) .unitFailed [] <|
  let data := if put then (bytesOfWords (c.words.drop 1)).take n else []
  let s1 := opticsTransaction c.inst (fld w 22 16) (fld w 15 8) data (if put then 0 else n) s
  match c.answers with
  | [] => .ended s1 .notFound [0, wd 1]
  | 0 :: got =>
    .done s1 (if put then [] else wordsOfBytes (ceilDiv n 4) ((got.map (BitVec.ofNat 8)).take n))
  | cause :: rest =>
    let s2 := if cause = 3 then recoverBus bus (rest.head? ≠ some 1) s1 else s1
    .ended s2 .notFound [0, wd cause]

/-- LENGTH of OPTICS_ACCESS: word 0, and the bytes of a write. -/
def opticsLen (ws : List Word) : Bool :=
  1 ≤ ws.length && ws.length = 1 + (if bit (nthW ws 0) 31 then ceilDiv (fld (nthW ws 0) 7 0) 4 else 0)

def opOpticsAccess : OpSpec :=
  { code := 0x1007, writes := false, home := (0x01, 0), oWorld := true, len := opticsLen, rsv := masks [0x78800000#32],
    run := runOpticsAccess }

/-- OPTICS_POLL: a second after the last poll the module reads the alarm and warning flags of a present optic (R129). Where an optic keeps
them the spec does not say: a free value (log entry 50). `outcome` is 0 or a cause of R128, and `released` says whether nine clocks
free a line held low. -/
def execOpticsPoll (port outcome : Nat) (released : Bool) (s : State) : Res :=
  onObject (port < 64) <|
    let due := match mget s.pon.polled port with | some t => passed s t sec | none => true
    whenever (due && (portAt s port).pres && !mhas s.pon.stuck (port / 8))
      (fun s =>
        let (dev, reg, n) := Config.opticsFlags
        let s1 := opticsTransaction port dev reg [] n { s with pon := { s.pon with polled := mset s.pon.polled port s.mono } }
        if outcome = 3 then recoverBus (port / 8) released s1 else s1) s

/-- OPTICS_BUS_RECOVERY: once a second a stuck bus is tried again (R129). -/
def execOpticsBusRecovery (bus : Nat) (released : Bool) (s : State) : Res :=
  onObject (bus < 8) <|
    whenever (match mget s.pon.stuck bus with | some t => passed s t sec | none => false) (recoverBus bus released) s

/-! ## OMCI_BIND and PON_KEY_SWITCH (R100, R123, R135, R137, R310) -/

/-- OMCI_BIND. -/
def runOmciBind (c : Ctx) (s : State) : HRes :=
  let p := pcPort c.words
  let q := fld (c.w 0) 15 8
  let on := bit (c.w 0) 31
  refuseIf (c.inst ≠ p || (paired s p && p % 2 = 1)) .badTarget [] <|
  refuseIf (on && ((hrqAt s q).bound = 0xFF || (hrqAt s q).world ≠ 0x0100)) .badWorld [] <|
  .done (updPort p (fun x => { x with omci := if on then some q else none }) s) []

def opOmciBind : OpSpec :=
  { code := 0x1008, home := (0x01, 0), oWorld := true, len := exactly 1, rsv := masks [0x7FFF00C0#32], stage := .stageable,
    objs := fun ws => [(0x1008, pcPort ws)], run := runOmciBind }

/-- PON_KEY_SWITCH. A staged one that was accepted applies late where S has passed by the activation (R100, R137, R310). -/
def runPonKeySwitch (c : Ctx) (s : State) : HRes :=
  onTerm c s fun t =>
    let index := fld (c.w 0) 17 16
    let at_ := join64 (c.w 1) (c.w 2)
    refuseIf (index = 0 || index = 3) .badParam [0] <|
    refuseIf (!c.again && (at_ < s.time.sfc + 16 || s.time.sfc + 1048576 < at_)) .badParam [1] <|
    refuseIf (!(slotAt s (keySlot t index)).valid) .notFound [] <|
    refuseIf t.switch.isSome .exists [] <|
    refuseIf (index = t.keyIndex) .badParam [0] <|
    .done (updTerm (termOf c) (fun t => { t with switch := some (index, at_) }) s) []

def opPonKeySwitch : OpSpec :=
  { code := 0x6004, home := (0x07, 0), instOf := some fun _ => 1, len := exactly 3, rsv := masks [0xFFFC8000#32],
    stage := .stageable, objs := termObj, run := runPonKeySwitch }

end Sys2Proof.Machine
end

