-- ==== Sys2Proof/Machine/Faults.lean ====
section
/-! DEFINITION. The fault manager: collectors, the pending queue, handling by class, the fault table, unit recovery and the
safe state (R464 to R476). -/

namespace Sys2Proof.Machine

/-! ## Collectors (R15, R16, R466, R467) -/

/-- The codes of Table 16.4 that any complex's hardware raises, with the class of each: PARITY is unit-fatal on a command or
reply channel and deferred on a data channel (R16). -/
def collectorCode (code cls : Nat) : Bool :=
  match code % 256 with
  | 0x01 => cls = 1 || cls = 2
  | 0x02 => cls = 0
  | 0x03 => cls = 2
  | 0x06 => cls = 2
  | _ => false

/-- The number of a complex's units (Table 2.20). -/
def unitCount (cplx : Nat) : Nat :=
  match cplx with
  | 2 => 2 | 3 => 2 | 4 => 6 | 5 => 3 | 6 => 5 | 8 => 5 | 9 => 4 | 0xA => 3 | 0xB => 5 | 0xC => 9 | _ => 1

/-- A unit of Table 2.20. -/
def isUnit (cplx unit inst : Nat) : Bool := 1 ≤ cplx && cplx ≤ 0x0E && instOk cplx unit inst && unit < unitCount cplx

/-- A parity error on a data channel marks the frame there poisoned (R16). -/
def poisonFlight (id : Nat) (s : State) : State :=
  match flightAt s id with
  | some x => setFlight id { x with frame := { x.frame with poison := true } } s
  | none => s

/-- The cells of a frame that a framer has not begun are discarded there; one that is begun ends poisoned (R16, R407). -/
def poisonSide (id : Nat) (x : Side) : Side :=
  let mine (f : TxFrame) : Bool := f.kind = 1 && f.frame = id
  { x with queue := (x.queue.filter fun f => !(mine f && f.sent = 0)).map fun f => if mine f then { f with poison := true } else f }

/-- The frames of a number that a framer would discard. -/
def unsentOf (id : Nat) (x : Side) : Nat := (x.queue.filter fun f => f.kind = 1 && f.frame = id && f.sent = 0).length

/-- A frame of a number is poisoned. -/
def poisonFrame (id : Nat) (f : Frame) : Frame := if f.num = id then { f with poison := true } else f

/-- The copies of a frame are poisoned too: in queues and host queues, and sent on by Rein, on their way to the port units, in the array and
to the framers (R16). -/
def poisonCopies (id : Nat) (s : State) : State :=
  let n := unsentOf id s.link.a + unsentOf id s.link.b
  bumpBy { cid := cDropChannel, scope := 9, idx := 0x4A } n { s with
    tm := { s.tm with
      egress := mmap s.tm.egress fun _ fs => fs.map (poisonFrame id)
      queues := mmap s.tm.queues fun _ (x : Queue) => { x with held := x.held.map fun h => { h with frame := poisonFrame id h.frame } } },
    host := { s.host with
      hrq := mmap s.host.hrq fun _ h => { h with waiting := h.waiting.map fun e => (poisonFrame id e.1, e.2) } },
    cipher := { s.cipher with
      inPipes := s.cipher.inPipes.map fun y => if !isRx y && y.frame = id then { y with poison := true } else y },
    pon := { s.pon with ports := mmap s.pon.ports fun _ p =>
      { p with txq := p.txq.map fun x => if x.num = id then { x with poison := true } else x } },
    link := { s.link with a := poisonSide id s.link.a, b := poisonSide id s.link.b } }

/-- Drop an error from the event channel that holds it. -/
def dropFromChannel (e : Err) (s : State) : State :=
  { s with flt := { s.flt with channels := mmap s.flt.channels fun k ch => if k = collectorOf e then ch.filter (· ≠ e) else ch } }

/-- Take errors from the event channels while the pending queue has room; a channel that lost events gives its overflow
marker after them (R15, R467). -/
def drainChannels (fuel : Nat) (s : State) : State :=
  match fuel with
  | 0 => s
  | n + 1 =>
    if 64 ≤ s.flt.queue.length then s
    else
      match s.flt.channels.find? (fun e => !e.2.isEmpty) with
      | some (k, e :: rest) =>
        drainChannels n (enqueueErr e { s with flt := { s.flt with channels := mset s.flt.channels k rest } })
      | _ =>
        match s.flt.overflow.find? (fun e => e.2 ≠ 0) with
        | some (k, n') =>
          drainChannels n (enqueueErr (overflowErr k n') { s with flt := { s.flt with overflow := mdel s.flt.overflow k } })
        | none => s

/-- STICKY_POLL: latched errors of class 2 and 3 that have not reached the pending queue are queued from their registers; the
registers are then clear (R466). -/
def stickyPoll (s : State) : State :=
  let step (e : Err) (s : State) : State :=
    if s.flt.queue.contains e || s.flt.handling = some e then { s with flt := { s.flt with sticky := s.flt.sticky.filter (· ≠ e) } }
    else if 64 ≤ s.flt.queue.length then s
    else enqueueErr e (dropFromChannel e { s with flt := { s.flt with sticky := s.flt.sticky.filter (· ≠ e) } })
  forEach s.flt.sticky step s

def execStickyPoll (s : State) : Res := .next (whenever (managerRuns s) stickyPoll s)

/-! ## The fault table (R473 to R475) -/

/-- An entry's words (Table 16.2). -/
def entryWords (e : FaultEntry) : List Word :=
  [ pack [(e.cls, 2, 30), (b2n e.active, 1, 29), (b2n e.esc, 1, 28), (b2n e.safe, 1, 27), (1, 1, 26), (e.cplx, 8, 16), (e.unit, 8, 8)],
    pack [(e.inst, 8, 24), (e.res, 24, 0)], pack [(e.code, 16, 16), (e.count, 16, 0)], wd e.recSeq, e.firstS, e.firstNs, e.lastS,
    e.detail ]

/-- An entry matches an error. -/
def entryOf (e : Err) (x : FaultEntry) : Bool :=
  x.code = e.code && x.cplx = e.cplx && x.unit = e.unit && x.inst = e.inst && x.res = e.res

/-- The index that an error takes: its own entry, a free one, or that of the inactive corrected entry seen longest ago. -/
def entryIndex (s : State) (e : Err) : Option Nat :=
  match mfind s.flt.table fun _ x => entryOf e x with
  | some (i, _) => some i
  | none =>
    match firstBelow 256 (fun i => !mhas s.flt.table i) with
    | some i => some i
    | none =>
      let old := s.flt.table.filter fun x => x.2.cls = 0 && !x.2.active
      (old.foldl (fun (a : Option (Nat × FaultEntry)) x =>
        match a with | some b => if x.2.lastS < b.2.lastS then some x else a | none => some x) none).map Prod.fst

/-- The entry that a raised error leaves: an existing one is updated. Class 1 and above stay ACTIVE. -/
def raisedEntry (s : State) (e : Err) (old : Option FaultEntry) : FaultEntry :=
  let now := lo32 (e.tc / (1000000000 * nsUnit))
  let safe := s.boot.state = .safe || s.flt.frozen
  match old with
  | some x => if entryOf e x then
      { x with cls := max x.cls e.cls, count := satAdd 65535 x.count 1, lastS := now, detail := e.detail, esc := x.esc || e.esc,
               active := x.active || 1 ≤ e.cls, safe := x.safe || safe }
    else newEntry now safe
  | none => newEntry now safe
where
  newEntry (now : Word) (safe : Bool) : FaultEntry :=
    { cls := e.cls, active := 1 ≤ e.cls, esc := e.esc, safe := safe, cplx := e.cplx, unit := e.unit, inst := e.inst, res := e.res,
      code := e.code, count := 1, recSeq := s.evr.nextSeq, firstS := now, firstNs := wd (e.tc / nsUnit % 1000000000), lastS := now, detail := e.detail }

/-- The counters of Table 16.3 by position. -/
def cFault (pos : Nat) : Nat := cid 16 3 pos

/-- The FAULT notification of an entry, under NOTIFY_MASK and the limit of class 0 (R475, R79). -/
def faultNote (i : Nat) (x : FaultEntry) (cls : Nat) (raised : Bool) (s : State) : State :=
  let ws := entryWords x
  let send := notify .fault [wd i, nthW ws 0, nthW ws 2, wd (b2n raised)]
  if bit s.host.notifyMask (8 + cls) then s
  else if cls ≠ 0 then send s
  else
    let now := s.mono / sec
    let n := if s.flt.window = now then s.flt.windowCount else 0
    if n < 1000 then send { s with flt := { s.flt with window := now, windowCount := n + 1 } }
    else bump (cFault 4) 0 0 s

/-- Write a raised error to the table, the recorder and the host. -/
def logRaised (e : Err) (s : State) : State :=
  let s0 := bump (cFault 0) 11 e.cls s
  match entryIndex s0 e with
  | some i =>
    let x := raisedEntry s0 e (mget s0.flt.table i)
    let s1 := { s0 with flt := { s0.flt with table := mset s0.flt.table i x } }
    faultNote i x e.cls true (recordEv 0x0002 e.code e.cplx e.unit e.inst e.world (entryWords x) s1)
  | none =>
    bump (cFault 3) 0 0 (recordEv 0x0002 e.code e.cplx e.unit e.inst e.world (entryWords (raisedEntry s0 e none)) s0)

/-- The clearing of a defect: its entry is not ACTIVE, with a record and a notification (R475). -/
def logCleared (e : Err) (s : State) : State :=
  match mfind s.flt.table fun _ x => entryOf e x with
  | some (i, x) =>
    let y := { x with active := false }
    let s1 := { s with flt := { s.flt with table := mset s.flt.table i y } }
    faultNote i y y.cls false (recordEv 0x0003 e.code e.cplx e.unit e.inst e.world (entryWords y) s1)
  | none => recordEv 0x0003 e.code e.cplx e.unit e.inst e.world [] s

/-! ## Unit-fatal errors (R465, R469) -/

/-- A slice that becomes unit-fatal loses the frames it holds; Stitch skips their numbers (R225). -/
def loseSlice (k : Nat) (s : State) : State :=
  let mine := (s.pkt.flights.filter fun e => !e.2.void && owesVoid e.2.place && e.2.frame.slice = k).map Prod.fst
  forEach mine (fun id s =>
    match flightAt s id with
    | some x => endFlight id (epochOut x.frame.epoch (leaveVersion id s))
    | none => s) s

/-- The isolation of a unit: its channels close and its frames are dropped under its chapter's rule (R469). -/
def isolate (cplx unit inst : Nat) (s : State) : State :=
  let s1 := if s.flt.failed.contains (cplx, unit, inst) then s
            else { s with flt := { s.flt with failed := s.flt.failed ++ [(cplx, unit, inst)] } }
  if cplx = 0x01 then (if inService s1 inst then holdTx inst s1 else s1)
  else if cplx = 0x04 && 1 ≤ unit && unit ≤ 4 then loseSlice (unit - 1) s1
  else if cplx = 0x05 then loseSlice inst s1
  else if cplx = 0x07 then abortWhere (fun a => quarterOf a.traffic = inst) s1
  else s1

/-- An error is reported, and a unit that it strikes is isolated at once (R469). -/
def raiseNow (e : Err) (s : State) : State :=
  report e (if (classed e).cls = 2 then isolate e.cplx e.unit e.inst s else s)

/-- A one-bit SRAM correction (code 0xcc02) is an event of the unit's island (Table 17.6). -/
def correction (cplx unit inst code : Nat) (s : State) : State :=
  match unitIsland cplx unit inst with
  | some i => if code % 256 = 2 then countEvent i 6 0x0100 1 s else s
  | none => s

/-- FAULT_REPORT: a collector reports an error of a unit that its hardware found; for PARITY on a data channel, `frame` is the
frame there. -/
def execFaultReport (cplx unit inst res code cls : Nat) (detail : Word) (frame : Option Nat) (s : State) : Res :=
  onObject (isUnit cplx unit inst && res < 2 ^ 24 && code / 256 = cplx && collectorCode code cls)
    (raiseNow { cplx := cplx, unit := unit, inst := inst, res := res, code := code, cls := cls, detail := detail }
      (correction cplx unit inst code
        (match frame with | some id => if code % 256 = 1 && cls = 1 then poisonCopies id (poisonFlight id s) else s | none => s)))

/-- The instants of a unit's unit-fatal errors within the last 3,600 s, this one among them. -/
def recentFatals (s : State) (u : Nat × Nat × Nat) : List Nat :=
  (mgetD s.flt.fatals u []).filter (fun t => s.mono ≤ t + 3600 * sec) ++ [s.mono]

/-- A unit's third unit-fatal error within 3,600 s keeps it out of service. -/
def markOut (u : Nat × Nat × Nat) (out : Bool) (s : State) : State :=
  let mine (x : FaultEntry) : Bool := (x.cplx, x.unit, x.inst) = u && 2 ≤ x.cls && x.active
  { s with flt := { s.flt with table := mmap s.flt.table fun _ x => if mine x then { x with outOfService := out } else x } }

/-- The action of a unit-fatal error. -/
def unitFatal (e : Err) (s : State) : State :=
  let u := (e.cplx, e.unit, e.inst)
  let ts := recentFatals s u
  let s1 := { s with flt := { s.flt with fatals := mset s.flt.fatals u ts } }
  isolate e.cplx e.unit e.inst (if 3 ≤ ts.length then markOut u true s1 else s1)

/-! ## Module-fatal errors and the safe state (R470 to R472) -/

/-- The safe state is triggered: configuration is frozen, and commands that have not taken effect end. In Halter, and during entry, it is first a wake event. -/
def triggerSafe (code : Nat) (s : State) : State :=
  let s1 := { s with flt := { s.flt with cause := code } }
  if s.halter.stage = .outside then freeze s1
  else noteWake 5 s1

/-- The action of an error's class (Table 16.1). In the safe state a unit-fatal error isolates its unit without recovery. -/
def classAction (e : Err) (s : State) : State :=
  if e.cls = 2 then unitFatal e s
  else if e.cls = 3 && s.boot.state ≠ .safe && !s.flt.frozen then triggerSafe e.code s
  else s

/-- Handle one error. In the safe state at most 64 further errors are recorded; a clearing is no error (R471). -/
def handle (e : Err) (s : State) : State :=
  let safe := s.boot.state = .safe || s.flt.frozen
  if e.clear then logCleared e s
  else if safe && 64 ≤ s.flt.safeRecords then
    let s1 := bump cFaultLost 11 e.cls s
    if e.cls = 2 then isolate e.cplx e.unit e.inst s1 else s1
  else
    let s1 := if safe then { s with flt := { s.flt with safeRecords := s.flt.safeRecords + 1 } } else s
    let e' := classed e
    classAction e' (logRaised e' s1)

/-- The error under handling is handled, the queue takes what the channels hold, and the next error is taken up. -/
def faultHandling (s : State) : State :=
  match s.flt.handling with
  | none => takeUp (drainChannels 1024 s)
  | some e =>
    takeUp (drainChannels 1024 (handle e { s with flt := { s.flt with
      handling := none, sticky := s.flt.sticky.filter fun x => { x with esc := e.esc, cls := e.cls } ≠ e } }))

/-- A fault code of Table 18.11. -/
def supplyCode (c : Nat) : Bool := (0x0E10 ≤ c && c ≤ 0x0E18) || c = 0x0B20

/-- ALERT_L is pulled low while a fault of Table 18.11 of class deferred or above is raised (R520). -/
def followAlert (s : State) : State :=
  let on := s.flt.table.any fun e => supplyCode e.2.code && e.2.active && 1 ≤ e.2.cls
  if on = s.power.alert then s
  else emit (.pin "ALERT_L" 0 (if on then 0 else 1)) { s with power := { s.power with alert := on } }

def execFaultHandling (s : State) : Res := .next (whenever (managerRuns s) (fun s => followAlert (faultHandling s)) s)

/-- HANDLER_FAIL: an error inside the fault manager's own handling (R470). -/
def execHandlerFail (s : State) : Res :=
  .next (whenever (s.boot.state ≠ .safe && !s.flt.frozen)
    (fun s => handle { cplx := 0x0C, unit := 1, inst := 0, res := 0, code := 0x0C10, cls := 3 } s) s)

/-! ## Unit recovery (R469) -/

/-- The clock of a unit's island stops and restarts with the unit's reset (R497). -/
def restartClock (cplx unit inst : Nat) (s : State) : State :=
  match unitIsland cplx unit inst with
  | some i => if (cycleAt s i).stopped.isSome then s else startCycle i (stopCycle i s)
  | none => s

/-- The reset of a unit and the reload of its configuration, as its chapter states what it held. -/
def resetUnit (cplx unit inst : Nat) (s : State) : State :=
  if cplx = 0x01 then
    let x := portAt s inst
    updPort inst (fun x => { x with lolTx := false, starting := x.starting || (x.framing && !x.noOptics) })
      (if x.noOptics then s else setTxdis inst (!x.framing) s)
  else if cplx = 0x03 && unit = 0 then
    forEach (List.range 8) (fun k s => updMaps (8 * inst + k) (fun m => { m with missed := 0 }) s) s
  else s

/-- A unit's unit-fatal entries are cleared. -/
def clearUnit (u : Nat × Nat × Nat) (s : State) : State :=
  let mine := s.flt.table.filter fun e => (e.2.cplx, e.2.unit, e.2.inst) = u && e.2.cls = 2 && e.2.active
  forEach mine (fun e s => logCleared { cplx := e.2.cplx, unit := e.2.unit, inst := e.2.inst, res := e.2.res, code := e.2.code, cls := 2 } s) s

/-- A unit is kept out of service. -/
def keptOut (s : State) (u : Nat × Nat × Nat) : Bool :=
  s.flt.table.any fun e => (e.2.cplx, e.2.unit, e.2.inst) = u && e.2.outOfService

/-- UNIT_RECOVERY: a unit is reset and reloaded, and returns to service where its self-test passes. -/
def unitRecovery (cplx unit inst : Nat) (selfTest : Bool) (s : State) : State :=
  let u := (cplx, unit, inst)
  if selfTest then
    bump (cFault 5) 0 0 (clearUnit u (resetUnit cplx unit inst <| restartClock cplx unit inst
      { s with flt := { s.flt with failed := s.flt.failed.filter (· ≠ u) } }))
  else markOut u true s

def execUnitRecovery (cplx unit inst : Nat) (selfTest : Bool) (s : State) : Res :=
  onObject (isUnit cplx unit inst) <|
    whenever (managerRuns s && unitFailed s cplx unit inst && !keptOut s (cplx, unit, inst) && s.boot.state ≠ .safe && !s.flt.frozen)
      (unitRecovery cplx unit inst selfTest) s

/-! ## FAULT_READ and FAULT_CLEAR (R474) -/

/-- The words of the entry at an index; all 0 where it is not in use. -/
def entryAt (s : State) (i : Nat) : List Word :=
  match mget s.flt.table i with | some x => entryWords x | none => List.replicate 8 0

/-- FAULT_READ. -/
def runFaultRead (c : Ctx) (s : State) : HRes :=
  let i := fld (c.w 0) 7 0
  let next := (List.range 256).find? fun k => i < k && mhas s.flt.table k
  let ws := entryAt s i ++ [wd s.flt.table.length, wd (next.getD 0xFFFFFFFF)]
  if c.hasBuf then .doneBuf s ws (bytesOfWords ((List.range 256).flatMap (entryAt s))) else .done s ws

def opFaultRead : OpSpec :=
  { code := 0xB001, writes := false, oWorld := true, home := (0x0C, 1), len := exactly 1, rsv := masks [0xFFFFFF00#32], run := runFaultRead }

/-- FAULT_CLEAR: an inactive entry is freed; one of a unit kept out of service retries its recovery once. -/
def runFaultClear (c : Ctx) (s : State) : HRes :=
  let i := fld (c.w 0) 7 0
  match mget s.flt.table i with
  | none => .refuse .notFound []
  | some x =>
    if x.outOfService then .done (markOut (x.cplx, x.unit, x.inst) false s) []
    else if x.active then .refuse .notPermitted []
    else .done { s with flt := { s.flt with table := mdel s.flt.table i } } []

def opFaultClear : OpSpec :=
  { code := 0xB002, oWorld := true, home := (0x0C, 1), len := exactly 1, rsv := masks [0xFFFFFF00#32], run := runFaultClear }

end Sys2Proof.Machine
end

