-- ==== Sys2Proof/Machine/Power.lean ====
section
/-! DEFINITION. The power stage: feeds, switch-overs, temperature and its commands (chapter 18). -/

namespace Sys2Proof.Machine

/-- One of the two feeds: 0 is FEED_A and 1 FEED_B. -/
def feedAt (s : State) (f : Nat) : Feed := if f = 0 then s.power.a else s.power.b

/-- The other feed. -/
def otherFeed (f : Nat) : Nat := if f = 0 then 1 else 0

/-- Alter a feed. -/
def updFeed (f : Nat) (g : Feed → Feed) (s : State) : State :=
  if f = 0 then { s with power := { s.power with a := g s.power.a } }
  else { s with power := { s.power with b := g s.power.b } }

/-- The preference in force: none while FEED_FLAP is raised (R513). -/
def prefNow (s : State) : Nat := if s.power.flap then 2 else s.power.pref

/-- The switch margin in 10 mV (Table 18.3). -/
def switchMargin : Nat := 100

/-- The return margin in 10 mV (Table 18.3). -/
def returnMargin : Nat := 50

/-- The feed that R509 chooses when the stage need not wait for RETURN_MS. -/
def preferredFeed (s : State) : Nat :=
  let on := s.power.active
  if !(feedAt s on).valid then otherFeed on
  else if !(feedAt s (otherFeed on)).valid then on
  else if prefNow s = 2 then
    if (feedAt s on).volts + switchMargin < (feedAt s (otherFeed on)).volts then otherFeed on else on
  else if (feedAt s (prefNow s)).volts + switchMargin < (feedAt s (otherFeed (prefNow s))).volts then
    otherFeed (prefNow s)
  else prefNow s

/-- The feed that R509 chooses at once: a return to the preferred feed waits for RETURN_MS unless the feed in use
lies more than the switch margin below it. -/
def feedAtOnce (s : State) : Nat :=
  let on := s.power.active
  if preferredFeed s = on then on
  else if !(feedAt s on).valid then preferredFeed s
  else if prefNow s = preferredFeed s && !((feedAt s on).volts + switchMargin < (feedAt s (preferredFeed s)).volts) then on
  else preferredFeed s

/-- The DETAIL of SWITCHOVER: the new feed and both voltages in 10 mV. DESIGN CHOICE: log entry 6. -/
def switchDetail (s : State) (f : Nat) : Word :=
  pack [(f, 1, 31), (s.power.a.volts, 15, 15), (s.power.b.volts, 15, 0)]

/-- A switch-over to a feed: it is counted and raises SWITCHOVER, and the tenth within 1 s raises FEED_FLAP (R509, R513). -/
def switchOver (f : Nat) (s : State) : State :=
  let recent := (s.power.recent.filter fun t => s.mono < t + sec) ++ [s.mono]
  let s1 := { s with power := { s.power with active := f, switchovers := satAdd 0xFFFF s.power.switchovers 1,
                                              recent := recent, lastSwitch := s.mono } }
  let s2 := raise 0x0E 0 0 f 0x0E11 0 (switchDetail s1 f) s1
  if 10 ≤ recent.length && !s2.power.flap then
    raise 0x0E 0 0 0 0x0E14 1 (wd recent.length) { s2 with power := { s2.power with flap := true } }
  else s2

/-- Since when each feed has been valid and within the return margin of the other (R509). -/
def trackReturn (s : State) : State :=
  let mark (f : Nat) (x : Feed) : Feed :=
    if x.valid && (feedAt s (otherFeed f)).volts ≤ x.volts + returnMargin then
      { x with goodSince := some (x.goodSince.getD s.mono) }
    else { x with goodSince := none }
  { s with power := { s.power with a := mark 0 s.power.a, b := mark 1 s.power.b } }

/-- In RUN, move to the feed that R509 chooses at once. -/
def chooseFeed (s : State) : State :=
  if s.power.stage = .run && feedAtOnce s ≠ s.power.active then switchOver (feedAtOnce s) s else s

/-- A feed is not valid while the other is in use (Table 18.11). -/
def feedMissing (s : State) (f : Nat) : Bool :=
  (s.power.stage = .softStart || s.power.stage = .run) && s.power.active ≠ f && !(feedAt s f).valid

/-- Why a feed is not valid: 1 undervoltage, 2 overvoltage, 3 excluded. -/
def feedCause (x : Feed) : Nat := if x.excluded || x.outSince.isSome then 3 else if x.overVolt then 2 else 1

/-- A feed's FEED_INVALID follows its condition: raised while it is missing, cleared when it is valid (Table 18.11). -/
def feedFault (f : Nat) (s : State) : State :=
  if feedMissing s f && (feedAt s f).fault.isNone then
    let c := feedCause (feedAt s f)
    raise 0x0E 0 0 f 0x0E10 1 (pack [(f, 16, 16), (c, 16, 0)]) (updFeed f (fun x => { x with fault := some c }) s)
  else if (feedAt s f).valid && (feedAt s f).fault.isSome then
    lower 0x0E 0 0 f 0x0E10 1 (updFeed f (fun x => { x with fault := none }) s)
  else s

/-- Both feeds' FEED_INVALID. -/
def feedFaults (s : State) : State := feedFault 1 (feedFault 0 s)

/-- Enter SOFT_START on a feed: the zero of the boot timeline (R510). -/
def softStart (f : Nat) (s : State) : State :=
  { s with power := { s.power with stage := .softStart, entered := s.mono, active := f, switchovers := 0 },
           boot := { s.boot with phase := .softStart, zero := s.mono, ahead := 0, cause := 1 } }

/-- A feed becomes valid (R508, R510): the stage moves as Table 18.4 states; in RIDE, once its 20 µs have passed, by way of OFF. -/
def feedGained (f volts : Nat) (s : State) : State :=
  let s3 := trackReturn (updFeed f (fun x => { x with volts := volts, valid := true, overVolt := false }) s)
  match s3.power.stage with
  | .off =>
    softStart (if (feedAt s3 (otherFeed f)).valid then preferredFeed { s3 with power := { s3.power with active := f } } else f) s3
  | .softStart => s3
  | .run => chooseFeed s3
  | .ride =>
    if s3.mono ≤ s3.power.entered + 20 * us then
      completeScrap <| raise 0x0E 0 0 0 0x0E15 0 (wd ((s3.mono - s3.power.entered) / 1000))
        { s3 with power := { s3.power with stage := .run, active := f, brownouts := satAdd 0xFFFF s3.power.brownouts 1 },
                  vault := { s3.vault with under := false } }
    else softStart f (powerDown s3)

/-- A feed becomes valid, and FEED_INVALID follows. -/
def feedValid (f volts : Nat) (s : State) : State := feedFaults (feedGained f volts s)

/-- A voltage at which a feed validates: above the rising lockout and, for a feed that crossed the overvoltage limit, below its
falling threshold (Table 18.3). -/
def feedInRange (x : Feed) (volts : Nat) : Bool := 880 < volts && volts < (if x.overVolt then 6100 else 6150)

/-- FEED_VALIDATED: a feed has stayed above the rising lockout and below the overvoltage limit for 10 ms, or
recovers within 20 µs (R508). An excluded feed, or one that overcurrent keeps out, does not become valid. -/
def execFeedValidated (f volts : Nat) (s : State) : Res :=
  onObject (f < 2) <| whenever (feedInRange (feedAt s f) volts && !(feedAt s f).excluded && (feedAt s f).outSince.isNone)
    (feedValid f volts) s

/-- A feed becomes invalid (R508, R510): the stage moves as Table 18.4 states. -/
def feedLost (f volts : Nat) (s : State) : State :=
  let s1 := trackReturn (updFeed f (fun x => { x with volts := volts, valid := false }) s)
  let o := otherFeed f
  match s1.power.stage with
  | .off => s1
  | .softStart =>
    if s1.power.active ≠ f then s1 else if (feedAt s1 o).valid then switchOver o s1 else powerDown s1
  | .run =>
    if (feedAt s1 o).valid then (if s1.power.active = f then switchOver o s1 else s1)
    else { s1 with power := { s1.power with stage := .ride, entered := s1.mono },
                   vault := { s1.vault with under := true } }
  | .ride => s1

/-- A feed becomes invalid, and FEED_INVALID follows. -/
def feedInvalid (f volts : Nat) (s : State) : State := feedFaults (feedLost f volts s)

/-- FEED_INVALID: a feed has crossed the falling lockout (cause 1) or the overvoltage limit (cause 2), R508. -/
def execFeedInvalid (f volts cause : Nat) (s : State) : Res :=
  onObject (f < 2) <| whenever ((feedAt s f).valid && (cause = 1 && volts < 830 || cause = 2 && 6150 < volts))
    (fun s => feedInvalid f volts (updFeed f (fun x => { x with overVolt := cause = 2 }) s)) s

/-- FEED_VOLTAGE_CROSSING: the voltages of both feeds, possibly changing the chosen feed (R509). -/
def execFeedVoltageCrossing (voltsA voltsB : Nat) (s : State) : Res :=
  .next (chooseFeed (trackReturn (updFeed 1 (fun x => { x with volts := voltsB })
    (updFeed 0 (fun x => { x with volts := voltsA }) s))))

/-- Whether the preferred feed has been valid and within the return margin for RETURN_MS (R509). -/
def returnDue (s : State) : Bool :=
  s.power.stage = .run && prefNow s ≠ 2 && s.power.active ≠ prefNow s && preferredFeed s = prefNow s &&
    (match (feedAt s (prefNow s)).goodSince with | some t => passed s t (s.power.returnMs * ms) | none => false)

/-- RETURN_MS_EXPIRY: the stage returns to the preferred feed (R509). -/
def execReturnMsExpiry (s : State) : Res := .next (whenever (returnDue s) (switchOver (prefNow s)) s)

/-- FEED_FLAP_CLEAR: 60 s without a switch-over clear FEED_FLAP, and the preference applies again (R513). -/
def execFeedFlapClear (s : State) : Res :=
  .next (whenever (s.power.flap && passed s s.power.lastSwitch (60 * sec))
    (fun s => chooseFeed (lower 0x0E 0 0 0 0x0E14 1 { s with power := { s.power with flap := false, recent := [] } })) s)

/-- The operating seconds that a boot resumes at (R488). -/
def resumedSeconds (s : State) : Nat :=
  if s.evr.clean then s.evr.persisted
  else max (s.evr.persisted + 60) ((s.evr.store.foldl (fun a r =>
    max a ((nthW r.words 1).toNat + fld (nthW r.words 2) 7 0 * 2 ^ 32)) 0) + 1)

/-- SOFT_START_COMPLETE: 20 ms after the start the rails are in regulation, PWR_OK is released, and the keeper and
secure islands leave reset; the keeper resumes the operating seconds (R488, R510). With TEST_MODE high the secure island stays in
reset (R507). -/
def softStartDone (s : State) : State :=
  let up := resumedSeconds s
  emit (.pin "PWR_OK" 0 1) (feedFaults <| chooseFeed
    { s with power := { s.power with stage := .run, entered := s.mono, pwrOk := true },
             vault := { s.vault with under := false },
             boot := { s.boot with phase := if s.power.testMode then .off else .rom },
             evr := { s.evr with opSec := up, unaccounted := !s.evr.clean } })

def execSoftStartComplete (s : State) : Res :=
  .next (whenever (s.power.stage = .softStart && passed s s.power.entered (20 * ms)) softStartDone s)

/-- RIDE_EXPIRY: 20 µs in RIDE without a valid feed power the module down (R510, R514). -/
def execRideExpiry (s : State) : Res :=
  .next (whenever (s.power.stage = .ride && passed s s.power.entered (20 * us)) powerDown s)

/-- FEED_OVERCURRENT: a feed at its current limit for 5 ms is opened and treated as invalid for 1 s (R512). -/
def execFeedOvercurrent (f : Nat) (s : State) : Res :=
  onObject (f < 2) <| whenever (s.power.stage = .run || s.power.stage = .ride)
    (fun s => feedInvalid f (feedAt s f).volts (updFeed f (fun x => { x with outSince := some s.mono })
      (raise 0x0E 0 0 f 0x0E12 1 (wd f) s))) s

/-- FEED_OVERCURRENT_RELEASE: the 1 s exclusion ends; the feed is validated afresh under R508 (R512). -/
def execFeedOvercurrentRelease (f : Nat) (s : State) : Res :=
  onObject (f < 2) <| whenever (match (feedAt s f).outSince with | some t => passed s t sec | none => false)
    (fun s => lower 0x0E 0 0 f 0x0E12 1 (updFeed f (fun x => { x with outSince := none }) s)) s

/-- ORING_FAIL: reverse current above 100 mA for 10 µs opens the feed's switch and excludes it until the next
power-up (R512). -/
def execOringFail (f : Nat) (s : State) : Res :=
  onObject (f < 2) <| feedInvalid f (feedAt s f).volts (updFeed f (fun x => { x with excluded := true })
    (raise 0x0E 0 0 f 0x0E13 1 (wd f) s))

/-- TEMP_HIGH: the highest junction temperature, its sensor and the case temperature. A sensor at or above 105 °C
raises TEMP_HIGH; all below 100 °C clear it (R524). -/
def tempHigh (rail : Nat) (tj tc : Int) (s : State) : State :=
  let s1 := { s with power := { s.power with tjMax := tj, tjSensor := rail, tCase := tc } }
  let detail := tempDetail s1.power
  if 105 ≤ tj && !s.power.tempHigh then
    raise 0x0E 0 0 0 0x0E16 1 detail { s1 with power := { s1.power with tempHigh := true } }
  else if tj < 100 && s.power.tempHigh then
    lower 0x0E 0 0 0 0x0E16 1 { s1 with power := { s1.power with tempHigh := false } }
  else s1

def execTempHigh (rail : Nat) (tj tc : Int) (s : State) : Res :=
  onObject (rail < 24) (tempHigh rail tj tc s)

/-- The records that wait are programmed at once, as far as slots are free. -/
def flushRecords (s : State) : State :=
  let store := (s.evr.store ++ s.evr.queue).take 32768
  { s with evr := { s.evr with store := store, queue := [], full := s.evr.full || store.length = 32768 } }

/-- THERMAL_SHUTDOWN: a sensor at or above 120 °C for 1 ms is recorded, and then every rail but the always-on one turns
off; the outputs take their unpowered states. The module leaves it only by PERST_L or loss of both feeds, and once every
sensor is below 95 °C (R524, R525). -/
def thermalShutdown (rail : Nat) (tj : Int) (s : State) : State :=
  let s1 := { s with power := { s.power with tjMax := tj, tjSensor := rail, shutdown := true } }
  let s2 := recordEv 0x0002 0x0E17 0x0E 0 0 0x0100
    [pack [(3, 2, 30), (1, 1, 29), (1, 1, 26), (0x0E, 8, 16)], 0, pack [(0x0E17, 16, 16), (1, 16, 0)], wd s.evr.nextSeq,
     lo32 (tcSec s), wd (tcNs s), lo32 (tcSec s), pack [(rail, 16, 16), (unsigned 16 tj, 16, 0)]] s1
  let s3 := flushRecords s2
  let s4 := keepStored false s3
  pinsUnpowered { s4 with power := { s4.power with pwrOk := false, alert := false } }

def execThermalShutdown (rail : Nat) (tj : Int) (s : State) : Res :=
  onObject (rail < 24) <| whenever (120 ≤ tj && !s.power.shutdown) (thermalShutdown rail tj) s

/-- Persist the operating seconds: they count as persisted once the record reads back (R68, R488). -/
def persistSeconds (clean : Bool) (s : State) : State :=
  let s1 := ownSetting 6 [lo32 s.evr.opSec, hi32 s.evr.opSec, wd (b2n clean)] s
  if readsBack s then { s1 with evr := { s1.evr with persisted := s.evr.opSec, clean := clean } } else s1

/-- PERST_L_ASSERT: a low of at least 1 µs is a module reset in READY, SAFE, HALTER or RECOVERY, and after a thermal
shutdown (R517, R524). -/
def perstAssert (s : State) : State :=
  let s1 := { s with power := { s.power with perstLow := true } }
  if s.boot.state ≠ .booting || s.power.shutdown then moduleReset 2 s1 else s1

def execPerstLAssert (ns : Nat) (s : State) : Res := .next (whenever (1000 ≤ ns) perstAssert s)

/-- The time on the boot timeline of Table 2.10 (R66, R517). -/
def bootTime (s : State) : Nat := s.mono - s.boot.zero + s.boot.ahead

/-- The PCIe link may train: the boot timeline has run and reached 100 ms, PERST_L is high and PCIE_REFCLK is valid (R517, Tables
2.10 and 18.9). -/
def pcieUp (s : State) : Bool :=
  (s.boot.phase = .rom || s.boot.phase = .firmware || s.boot.phase = .up) && 100 * ms ≤ bootTime s && !s.power.shutdown
    && !s.power.perstLow && (mgetD s.power.refs 4 {}).valid

/-- How the endpoint answers a configuration request (Table 2.10): not at all, with Configuration Request Retry Status, or
normally from 400 ms on. -/
inductive ConfigAnswer where
  | none | retry | normal
deriving DecidableEq, Repr

/-- The endpoint's answer to a configuration request (R66). -/
def configAnswer (s : State) : ConfigAnswer :=
  if !pcieUp s then .none else if bootTime s < 400 * ms then .retry else .normal

/-- PERST_L_DEASSERT: PCIe link training starts; after a module reset the boot timeline counts from this edge, its offsets reduced by
20 ms (R517). -/
def execPerstLDeassert (s : State) : Res :=
  .next { s with power := { s.power with perstLow := false },
                 boot := { s.boot with zero := if s.boot.phase = .rom && s.boot.cause = 2 then s.mono else s.boot.zero } }

/-! ## Commands -/

/-- FEED_CONFIG (R511, Table 18.5). -/
def runFeedConfig (c : Ctx) (s : State) : HRes :=
  let pref := fld (c.w 0) 1 0
  let ret := fld (c.w 0) 31 16
  refuseIf (pref = 3 || ret < 10 || 10000 < ret) .badParam [0] <|
  let s1 := trackReturn { s with power := { s.power with pref := pref, returnMs := ret } }
  .done (if s1.power.stage = .run && preferredFeed s1 ≠ s1.power.active then switchOver (preferredFeed s1) s1 else s1) []

def opFeedConfig : OpSpec :=
  { code := 0xA004, home := (0x0E, 0), oWorld := true, len := exactly 1, rsv := masks [0x0000FFFC#32],
    stage := .stageable, objs := fun _ => [(0xA004, 0)], run := runFeedConfig }

/-- The code of a power stage state (Table 18.6). -/
def stageCode : Stage → Nat
  | .off => 0
  | .softStart => 1
  | .run => 2
  | .ride => 3

/-- The words of POWER_STATUS (Table 18.6). -/
def powerWords (s : State) : List Word :=
  let p := s.power
  [ pack [(stageCode p.stage, 3, 29), (p.active, 1, 28), (b2n p.a.valid, 1, 27), (b2n p.b.valid, 1, 26),
      (b2n p.a.excluded, 1, 25), (b2n p.b.excluded, 1, 24), (b2n p.flap, 1, 23), (p.pref, 2, 16), (p.switchovers, 16, 0)],
    pack [(p.b.volts, 16, 16), (p.a.volts, 16, 0)], pack [(p.b.amps, 16, 16), (p.a.amps, 16, 0)],
    pack [(p.peak, 16, 16), (p.inputPower, 16, 0)],
    pack [(unsigned 8 p.tjMax, 8, 24), (p.tjSensor, 8, 16), (unsigned 8 p.tCase, 8, 8)],
    pack [(p.brownouts, 16, 16)] ]

/-- The stage's samples as POWER_STATUS finds them: currents of A and B in 10 mA and the input power in 0.1 W come
from outside with the command; without them the last samples stand (R523). -/
def takeSamples (answers : List Nat) (s : State) : State :=
  match answers with
  | [ia, ib, pw] =>
    { s with power := { s.power with a := { s.power.a with amps := ia }, b := { s.power.b with amps := ib },
                                      inputPower := pw, peak := max s.power.peak pw } }
  | _ => s

/-- POWER_STATUS (R523): the read clears PEAK_POWER. -/
def runPowerStatus (c : Ctx) (s : State) : HRes :=
  let s1 := takeSamples c.answers s
  .done { s1 with power := { s1.power with peak := 0 } } (powerWords s1)

def opPowerStatus : OpSpec :=
  { code := 0xA005, home := (0x0E, 0), writes := false, oWorld := true, len := exactly 0, run := runPowerStatus }

end Sys2Proof.Machine
end

