-- ==== Sys2Proof/Machine/Recorder.lean ====
section
/-! DEFINITION. The event recorder and the runtime settings (R68, R69, R485 to R495). -/

namespace Sys2Proof.Machine

/-! ## Runtime settings (R68) -/

/-- The sequence number that the next write of a record takes. -/
def nextSetting (s : State) (i : Nat) : Nat :=
  let c := settingCopy (settingRec s i)
  (if c.valid then c.sequence else 0) + 1

/-- A rail as the words of Table 16.6. -/
def railWords (x : Rail) : List Word :=
  [pack [(unsigned 8 x.offset, 8, 24), (x.ageing, 8, 16), (unsigned 16 x.slack, 16, 0)],
   pack [(x.rate, 16, 16), (x.sens, 15, 1), (b2n x.skipped, 1, 0)]]

/-- A lane as the word of Table 16.6. -/
def lanePlanWord (x : LanePlan) : Word :=
  pack [(x.winMin, 5, 27), (x.winMax, 5, 22), (b2n x.skipped, 1, 21), (x.height, 8, 8), (x.width, 8, 0)]

/-- The entries of a plan (Table 16.6). -/
def planEntries (p : Plan) : List Word :=
  (List.range 24).flatMap (fun r => railWords (mgetD p.rails r {}))
    ++ (List.range 80).map (fun l => lanePlanWord (mgetD p.lanes l {}))

/-- The copies marked failed (R64), as bits by copy. -/
def failureMarks (s : State) : Nat :=
  (List.range 4).foldl (fun a k => if (mgetD s.boot.copies k {}).failed then a + 2 ^ k else a) 0

/-- What a runtime settings record holds now, by its number in the order of R68. -/
def settingContent (s : State) (i : Nat) : List Word :=
  match i with
  | 0 => wd s.pat.plan.hours :: wd s.pat.plan.toFloor :: planEntries s.pat.plan
  | 1 => [wd (updateEpoch s), lo32 s.vault.counter.2, hi32 s.vault.counter.2]
  | 2 => (match s.vault.pendingKey with | some k => wordsOfBytes 25 k | none => [])
  | 3 => [lo32 s.host.inMark, hi32 s.host.inMark]
  | 4 => [wd (failureMarks s)]
  | 5 => alarmCounts s.vault.counts
  | 6 => [lo32 s.evr.opSec, hi32 s.evr.opSec, wd (b2n s.evr.clean)]
  | 7 => [wd s.evr.powerCycles]
  | _ => [wd s.evr.eraseCount, wd s.evr.nextSeq]

/-- SETTINGS_RECORD_WRITE: a record is written with what it holds now and read back; `verified` is whether that succeeds. -/
def execSettingsRecordWrite (record : Nat) (verified : Bool) (s : State) : Res :=
  onObject (record < 9) <|
    storeSetting record (settingContent s record) verified s

/-! ## Operating time (R487, R488) -/

/-- OPERATING_SECOND: a second with a feed valid, in whatever state. -/
def execOperatingSecond (s : State) : Res :=
  .next (whenever (s.power.a.valid || s.power.b.valid) (fun s => { s with evr := { s.evr with opSec := (s.evr.opSec + 1) % 2 ^ 40 } }) s)

/-- OPERATING_SECONDS_PERSIST: 60 s after the last persisted value. -/
def execOperatingSecondsPersist (s : State) : Res :=
  .next (whenever (s.evr.persisted + 60 ≤ s.evr.opSec) (persistSeconds false) s)

/-! ## Writing (R490 to R492) -/

/-- The slots of the store. -/
def storeSlots : Nat := 32768

/-- What the use of a slot brings: the notices at the 30,000th slot and at the full store (R492). -/
def afterSlot (s : State) : State :=
  let n := s.evr.store.length
  if n = 30000 then stateChange 0x0B02 [] s
  else if n = storeSlots then stateChange 0x0B03 [] { s with evr := { s.evr with full := true } }
  else s

/-- The queue's first record is programmed: it is visible, or its slot is torn and its SEQ not consumed (R490, R491). -/
def programRecord (torn : Bool) (s : State) : State :=
  match s.evr.queue with
  | [] => s
  | r :: rest =>
    if torn then
      afterSlot (bump cTornSlots 0 0 { s with evr := { s.evr with store := s.evr.store ++ [{ r with words := [], torn := true }] } })
    else afterSlot { s with evr := { s.evr with store := s.evr.store ++ [r], queue := rest } }

/-- RECORD_WRITE; `torn` is a power loss during programming. After entry to RIDE no record is written (R514). -/
def execRecordWrite (torn : Bool) (s : State) : Res :=
  .next (whenever (!s.evr.full && s.power.stage ≠ .ride) (programRecord torn) s)

/-! ## RECORDER_READ (R493) -/

/-- The records that readers see. -/
def visible (s : State) : List Record := s.evr.store.filter fun r => !r.torn

/-- OLDEST and NEWEST. -/
def oldest (s : State) : Nat :=
  match visible s with
  | r :: _ => r.seq
  | [] => match s.evr.queue with | r :: _ => r.seq | [] => s.evr.nextSeq
def newest (s : State) : Nat := match (visible s).getLast? with | some r => r.seq | none => oldest s - 1

/-- RECORDER_READ. -/
def runRecorderRead (c : Ctx) (s : State) : HRes :=
  let first := (c.w 0).toNat
  let n := fld (c.w 1) 10 0
  refuseIf (!c.hasBuf) .badParam [0] <|
  refuseIf (n = 0 || 1024 < n) .badParam [1] <|
  refuseIf (c.bufLen < 128 * n) .noSpace [wd (32 * n)] <|
  let got := ((visible s).filter fun r => first ≤ r.seq).take n
  .doneBuf s
    [ wd (oldest s), wd (newest s), wd got.length, pack [(b2n s.evr.full, 1, 31), (b2n (decide (first < oldest s)), 1, 30)],
      wd s.evr.eraseCount, lo32 (counterAt s { cid := cRecordsDropped }),
      pack [(counterAt s { cid := cTornSlots }, 16, 0)], lo32 s.evr.opSec, hi32 s.evr.opSec ]
    (got.flatMap fun r => bytesOfWords r.words)

def opRecorderRead : OpSpec :=
  { code := 0xB003, writes := false, oWorld := true, home := (0x0C, 2), len := exactly 2,
    rsv := masks [0, 0xFFFFF800#32], run := runRecorderRead }

/-! ## RECORDER_ERASE (R494, R495) -/

/-- The records that an erase keeps. -/
def keptRecords (s : State) (through : Nat) : List Record := (visible s).filter fun r => through < r.seq

/-- The word of the authorisation with a fault in its MAGIC, reserved bytes or length. -/
def eraseForm (ws : List Word) : Option Word :=
  let m := bytesOfWords ws
  if beNat (slice m 0 4) ≠ 0x545A4552 then some 0
  else if beNat (slice m 0x1C 4) ≠ 0 then some 7
  else if ws.length ≠ 32 then some (wd (min 32 ws.length))
  else none

/-- What an erase has done after its step 1, 2 or 3: the new ERASE_COUNT persisted, the store erased, the kept records written back (R495). -/
def eraseCut (steps : Nat) (kept : List Record) (s : State) : State :=
  let s1 := { s with evr := { s.evr with eraseCount := s.evr.eraseCount + 1 } }
  if steps ≤ 1 then s1 else { s1 with evr := { s1.evr with store := if steps = 2 then [] else kept, full := false } }

/-- RECORDER_ERASE. Where `env.cut` says that power is lost after a step, the command goes no further and the loss ends it (R495). It ends ABORTED, with nothing erased, where the record of the new ERASE_COUNT does not read back (log 156). -/
def runRecorderErase (c : Ctx) (s : State) : HRes :=
  let m := bytesOfWords c.words
  let through := beNat (slice m 0x18 4)
  match eraseForm c.words with
  | some i => .refuse .badParam [i]
  | none =>
    refuseIf (slice m 4 16 ≠ beBytes 16 Config.deviceId.toNat) .badDevice [] <|
    refuseIf (!Config.verify ((slotBytes s updateAuthority).take 97) (m.take 32) (slice m 32 96)) .badSignature [] <|
    refuseIf (beNat (slice m 0x14 4) ≠ s.evr.eraseCount + 1) .badCounter [wd s.evr.eraseCount] <|
    refuseIf (1024 < (keptRecords s through).length) .badParam [6] <|
    let kept := keptRecords s through
    let s1 := storeSetting 8 [wd (s.evr.eraseCount + 1), wd s.evr.nextSeq] c.pkt.env.norOk s
    if !c.pkt.env.norOk then .ended s1 .aborted [] else
    match c.pkt.env.cut with
    | some k => .wait (eraseCut k kept s1) []
    | none =>
    let s2 := eraseCut 3 kept s1
    .done (recordEv 0x0009 0 0x0C 2 0 0x0100 [wd s2.evr.eraseCount, wd through, wd kept.length] s2) []

def opRecorderErase : OpSpec :=
  { code := 0xB004, oWorld := true, home := (0x0C, 2), len := fun _ => true, run := runRecorderErase }

end Sys2Proof.Machine
end

