-- ==== Sys2Proof/Machine/Module.lean ====
section
/-! DEFINITION. The module commands of opcode group 0x0 but for the epoch's (R41 to R43, R61 to R67, R77 to R81), and the
writes of the registers of BAR0 that fetch nothing. -/

namespace Sys2Proof.Machine

/-! ## NOP, IDENTIFY, STATUS_READ -/

/-- NOP. -/
def runNop (_c : Ctx) (s : State) : HRes := .done s []

def opNop : OpSpec := { code := 0x0001, vf := true, writes := false, home := (0x0C, 0), len := exactly 0, run := runNop }

/-- A boot copy: 0 firmware A, 1 firmware B, 2 configuration A, 3 configuration B (R61). -/
def copyAt (s : State) (k : Nat) : Copy := mgetD s.boot.copies k {}

/-- Alter a boot copy. -/
def updCopy (k : Nat) (f : Copy → Copy) (s : State) : State :=
  { s with boot := { s.boot with copies := mset s.boot.copies k (f (copyAt s k)) } }

/-- The sequence number that a copy shows: 0 where it is invalid (R43). -/
def shownSeq (x : Copy) : Word := if x.valid then wd x.sequence else 0

/-- The selected copies: bit 0 firmware, bit 1 configuration (R43). -/
def selectedBits (s : State) : Word := pack [(b2n (copyAt s 1).selected, 1, 0), (b2n (copyAt s 3).selected, 1, 1)]

/-- The words 0 to 11 of the identity block (R43). -/
def identityWords (s : State) : List Word :=
  let id := Config.deviceId.toNat
  [wd id, wd (id / 2 ^ 32), wd (id / 2 ^ 64), wd (id / 2 ^ 96), Config.siliconStep, if Config.gradeE then 2 else 1,
   Config.romBuild, shownSeq (copyAt s 0), shownSeq (copyAt s 1), shownSeq (copyAt s 2), shownSeq (copyAt s 3), selectedBits s]

/-- IDENTIFY. -/
def runIdentify (_c : Ctx) (s : State) : HRes := .done s (identityWords s)

def opIdentify : OpSpec :=
  { code := 0x0002, vf := true, writes := false, home := (0x0C, 0), len := exactly 0, run := runIdentify }

/-- The code of a module state (R43). -/
def stateCode : ModState → Nat
  | .booting => 0 | .ready => 1 | .safe => 2 | .halter => 3 | .recovery => 4

/-- The alarm summary (R43, word 5). -/
def alarmSummary (s : State) : Word :=
  pack [(s.vault.raised, 11, 0), (b2n s.vault.hold.isSome, 1, 16), (b2n (testRoot s), 1, 17)]

/-- The words 0 to 5 of the status block; a virtual function sees the state and the current epoch only (R38, R43). -/
def statusWords (tenant : Bool) (s : State) : List Word :=
  if tenant then [wd (stateCode s.boot.state), pack [(s.epoch.current.toNat, 16, 0)], 0, 0, 0, 0]
  else [wd (stateCode s.boot.state), pack [(if committing s then s.epoch.staged.toNat else 0, 16, 16), (s.epoch.current.toNat, 16, 0)],
        wd (phaseCode s.epoch.phase), wd s.rules.current, wd (lifeCode s.vault.life), alarmSummary s]

/-- The world of the binding of a function (R38, R43): O for the physical one, that of its pairs for a virtual one. What word 6 shows a
function without a bound pair the spec does not say: a free value (DESIGN CHOICE: log entry 185). -/
def worldOfFunction (s : State) (fn : Nat) : Nat :=
  if fn = 0 then 0x0100
  else match s.host.pairs.find? fun e => e.1 < 64 && e.2.served && e.2.bound = fn with
  | some e => e.2.world
  | none => Config.openCode 3 % 65536

/-- The words 0 to 6 of the status block as a function reads them (R38, R43). -/
def statusBlock (fn : Nat) (s : State) : List Word := statusWords (fn ≠ 0) s ++ [wd (worldOfFunction s fn)]

/-- STATUS_READ. -/
def runStatusRead (c : Ctx) (s : State) : HRes := .done s (statusWords (match c.master with | .vf _ => true | _ => false) s)

def opStatusRead : OpSpec :=
  { code := 0x0003, vf := true, writes := false, home := (0x0C, 0), len := exactly 0, run := runStatusRead }

/-! ## QUEUE_BIND (R77) -/

/-- The pairs bound to a virtual function. -/
def pairsOf (s : State) (fn : Nat) : List (Nat × Pair) := s.host.pairs.filter fun e => e.1 < 64 && e.2.served && e.2.bound = fn

/-- The grants of a virtual function without a pair are withdrawn (R502). -/
def withdrawIfLast (fn : Nat) (s : State) : State :=
  if 1 ≤ fn && fn ≤ 63 && (pairsOf s fn).isEmpty then withdrawGrants fn s else s

/-- QUEUE_BIND. What R77 leaves open, the model settles so (DESIGN CHOICE: log entry 157): the pair itself does not count among the
pairs already bound to its function, so that a function's only pair may be bound to it again in another world; replies that
wait for room are discarded when the pair is bound or unbound. -/
def runQueueBind (c : Ctx) (s : State) : HRes :=
  let fn := fld (c.w 0) 31 24
  let n := fld (c.w 0) 5 0
  let vec := fld (c.w 1) 31 16
  let world := fld (c.w 1) 15 0
  let x := pairAt s n
  refuseIf (n = 0) .notPermitted [] <|
  refuseIf (x.enable || x.executing.isSome || x.cqHead ≠ x.cqTail) .queueActive [] <|
  refuseIf (fn = 0 && world ≠ 0x0100) .badWorld [] <|
  refuseIf (1 ≤ fn && fn ≤ 63 && 0xFF < world) .badWorld [] <|
  refuseIf (1 ≤ fn && fn ≤ 63 && (pairsOf s fn).any fun e => e.1 ≠ n && e.2.world ≠ world) .badWorld [] <|
  refuseIf (63 < fn && fn ≠ 255) .badParam [0] <|
  refuseIf (fn ≠ 255 && (if fn = 0 then 64 else 8) ≤ vec) .badParam [1] <|
  let y : Pair :=
    if fn = 255 then { x with bound := 255, world := 0, served := false, held := [] }
    else { x with bound := fn, world := world, served := true, vector := vec, cqHead := 0, cqTail := 0, rqHead := 0, rqTail := 0,
                  error := 0, phase := true, seqExp := none, written := [], held := [] }
  let s1 := updPair n (fun _ => y) s
  .done (if x.served && x.bound ≠ fn then withdrawIfLast x.bound s1 else s1) []

def opQueueBind : OpSpec :=
  { code := 0x0008, oWorld := true, home := (0x0C, 0), len := exactly 2,
    rsv := fun ws => masks [0x00FFFFC0#32, if fld (nthW ws 0) 31 24 = 255 then BitVec.allOnes 32 else 0] ws,
    stage := .stageable, objs := fun ws => [(0x0008, fld (nthW ws 0) 5 0)], run := runQueueBind }

/-! ## Boot images (R61 to R64, R67, R80) -/

/-- Where a copy begins in the boot flash (R61). -/
def copyOffset (k : Nat) : Nat :=
  match k with
  | 0 => 0x00000000
  | 1 => 0x01000000
  | 2 => 0x02000000
  | _ => 0x02800000

/-- The size of a copy (R61). -/
def copySize (k : Nat) : Nat := if k < 2 then 16777216 else 8388608

/-- The kind of a copy: 1 firmware, 2 configuration. -/
def copyKind (k : Nat) : Nat := if k < 2 then 1 else 2

/-- The slot CONFIG_AUTHORITY (Table 10.1). -/
def configAuthority : Nat := 0x20001

/-- The public key that signs copies of a kind, if there is one (R63). -/
def imageKey (s : State) (kind : Nat) : Option (List Byte) :=
  if kind = 1 then some Config.firmwareAuthority
  else if (slotAt s configAuthority).valid then some ((slotBytes s configAuthority).take 97) else none

/-- The fields of an image header (Table 2.9). -/
def imageSeq (bs : List Byte) : Nat := beNat (slice bs 8 4)
def imageLen (bs : List Byte) : Nat := beNat (slice bs 12 4)

/-- The DIGEST that a copy's bytes should carry. -/
def imageDigest (bs : List Byte) : List Byte := Config.sha384 (bs.take 16 ++ slice bs 256 (imageLen bs))

/-- A copy of a kind is valid (R63). -/
def imageValid (s : State) (k : Nat) (bs : List Byte) : Bool :=
  beNat (bs.take 4) = 0x5A544B49 && beNat (slice bs 4 4) = copyKind k && imageLen bs ≤ copySize k - 256
    && 256 + imageLen bs ≤ bs.length && slice bs 16 48 = imageDigest bs
    && (match imageKey s (copyKind k) with | some key => Config.verify key (bs.take 64) (slice bs 64 96) | none => false)

/-- A copy with the bytes given, judged. -/
def judgeCopy (s : State) (k : Nat) (x : Copy) (bs : List Byte) : Copy :=
  { x with valid := imageValid s k bs, sequence := imageSeq bs, len := imageLen bs, body := bs }

/-- The copy of a kind that IMAGE_WRITE writes: an invalid one, or the one with the lower SEQUENCE (R67). Of two invalid copies, and of two
valid ones with the same SEQUENCE, it is copy A (DESIGN CHOICE: log entry 185). -/
def writeTarget (s : State) (kind : Nat) : Nat :=
  let a := 2 * (kind - 1)
  if !(copyAt s a).valid then a
  else if !(copyAt s (a + 1)).valid then a + 1
  else if (copyAt s (a + 1)).sequence < (copyAt s a).sequence then a + 1 else a

/-- A copy is erased, its body programmed, and its header last, with MAGIC as the final word (R67). -/
def programCopy (k : Nat) (bs : List Byte) (s : State) : State :=
  let a := copyOffset k
  emit (.flash a (some (bs.take 4))) (emit (.flash (a + 4) (some (slice bs 4 252)))
    (emit (.flash (a + 256) (some (bs.drop 256))) (emit (.flash a none) s)))

/-- IMAGE_WRITE: the image is checked, written and read back, and takes effect at the next boot; its copy is no longer marked
failed. A copy that does not verify is no copy of R63 at a later boot either (R67). R67 names no status for a copy that does not verify when it is read back: the copy is invalid and the command ends with
IMAGE_INVALID (DESIGN CHOICE: log entry 156). -/
def runImageWrite (c : Ctx) (s : State) : HRes :=
  let kind := fld (c.w 0) 1 0
  let a := 2 * (kind - 1)
  refuseIf (!c.hasData) .badParam [0] <|
  refuseIf (kind = 0 || kind = 3) .badParam [0] <|
  refuseIf (c.data.length ≠ 256 + imageLen c.data || !imageValid s a c.data) .imageInvalid [] <|
  refuseIf ((List.range 2).any fun i => (copyAt s (a + i)).valid && imageSeq c.data ≤ (copyAt s (a + i)).sequence) .imageOld [] <|
  let t := writeTarget s kind
  let was := (copyAt s t).failed
  let s0 := programCopy t c.data s
  if !c.pkt.env.flashOk then .ended (updCopy t (fun x => { x with valid := false, body := [] }) s0) .imageInvalid [] else
  let s1 := updCopy t (fun x => { judgeCopy s t x c.data with failed := false }) s0
  let s2 := if was then storeSetting 4 [wd (failureMarks s1)] c.pkt.env.norOk s1 else s1
  .done (recordEv 0x0008 6 0x0C 0 0 0x0100 [wd kind, wd (t % 2), wd (imageSeq c.data)] s2) [wd (t % 2), wd (imageSeq c.data)]

def opImageWrite : OpSpec :=
  { code := 0x0009, oWorld := true, home := (0x0C, 0), len := exactly 1, rsv := masks [0xFFFFFFFC#32], run := runImageWrite }

/-- The words of IMAGE_STATUS for a copy (R80). -/
def copyWords (x : Copy) : List Word :=
  [shownSeq x, wd x.len, pack [(b2n x.selected, 1, 31), (if !x.valid then 0 else if x.failed then 2 else 1, 2, 0)]]

/-- IMAGE_STATUS. -/
def runImageStatus (_c : Ctx) (s : State) : HRes := .done s ((List.range 4).flatMap fun k => copyWords (copyAt s k))

def opImageStatus : OpSpec :=
  { code := 0x000A, writes := false, oWorld := true, home := (0x0C, 0), len := exactly 0, run := runImageStatus }

/-- The word of SETTINGS_STATUS for a record (R80). -/
def settingWord (r : SetRec) : Word :=
  pack [(b2n r.a.valid, 1, 31), (b2n r.b.valid, 1, 30), (b2n (selectedB r), 1, 29), ((settingCopy r).sequence, 29, 0)]

/-- SETTINGS_STATUS. -/
def runSettingsStatus (_c : Ctx) (s : State) : HRes :=
  .done s ((List.range 9).map (fun i => settingWord (settingRec s i)) ++ [wd (b2n (testRoot s))])

def opSettingsStatus : OpSpec :=
  { code := 0x000B, writes := false, oWorld := true, home := (0x0C, 0), len := exactly 0, run := runSettingsStatus }

/-! ## MODULE_RESET, INBAND_CONFIG, NOTIFY_MASK -/

/-- MODULE_RESET (R81): the reply is written before the reset, whatever NO_REPLY holds. -/
def runModuleReset (c : Ctx) (s : State) : HRes :=
  if bit (c.w 0) 0 then .last (persistSeconds true s) [] (.moduleReset 3) true else .last s [] .firmwareRestart true

def opModuleReset : OpSpec :=
  { code := 0x000C, oWorld := true, home := (0x0C, 0), len := exactly 1, rsv := masks [0xFFFFFFFE#32], run := runModuleReset }

/-- A slot's attributes permit the trailers of in-band commands (R78). -/
def inbandSlot (x : Slot) : Bool := x.attr.masters.testBit 2 && x.attr.usage.testBit 0 && x.attr.world = 0x0100 && x.attr.ktype ≤ 1

/-- INBAND_CONFIG (R78). -/
def runInbandConfig (c : Ctx) (s : State) : HRes :=
  let slot := fld (c.w 0) 17 0
  let groups := fld (c.w 1) 15 0
  refuseIf (!isGeneral slot) .badParam [0] <|
  refuseIf (groups.testBit 6 || groups.testBit 15) .badParam [1] <|
  refuseIf (!(slotAt s slot).valid) .notFound [] <|
  refuseIf (!inbandSlot (slotAt s slot)) .notPermitted [] <|
  .done { s with host := { s.host with inEnable := bit (c.w 0) 31, inSideA := bit (c.w 0) 30, inSideB := bit (c.w 0) 29,
                                        inSlot := slot, inGroups := groups } } []

def opInbandConfig : OpSpec :=
  { code := 0x000D, oWorld := true, home := (0x0C, 0), len := exactly 2, rsv := masks [0x1FFC0000#32, 0xFFFF0000#32],
    stage := .stageable, objs := fun _ => [(0x000D, 0)], run := runInbandConfig }

/-- NOTIFY_MASK (R79). -/
def runNotifyMask (c : Ctx) (s : State) : HRes :=
  refuseIf (bit (c.w 0) 4) .badParam [0] <| .done { s with host := { s.host with notifyMask := c.w 0 } } []

def opNotifyMask : OpSpec :=
  { code := 0x000E, oWorld := true, home := (0x0C, 0), len := exactly 1, rsv := masks [0xFFFFF081#32],
    stage := .stageable, objs := fun _ => [(0x000E, 0)], run := runNotifyMask }

/-- A vendor opcode, 0xF000 + n: it has no handler of its own, since R56 refuses it to every master of a packet. -/
def opVendor (n : Nat) : OpSpec :=
  { code := 0xF000 + n, home := (0x0C, 0), len := fun _ => true, run := fun _ _ => .refuse .notPermitted [] }

/-! ## Registers of BAR0 without a behaviour of their own (R7, R37 to R42) -/

/-- A function sees the registers of a pair: the physical function all of them, a virtual one those bound to it (R38). -/
def seesPair (s : State) (fn n : Nat) : Bool := fn = 0 || ((pairAt s n).served && (pairAt s n).bound = fn)

/-- The bits of the interrupt block that a function reaches. -/
def seenBits (s : State) (fn : Nat) : BitVec 64 :=
  (List.range 64).foldl (fun a n => if seesPair s fn n then a ||| (1#64 <<< n) else a) 0

/-- A write of 1 clears a PENDING bit that the function reaches (R42). -/
def clearPending (fn : Nat) (bits : BitVec 64) (s : State) : State :=
  { s with host := { s.host with pending := s.host.pending &&& ~~~(bits &&& seenBits s fn) } }

/-- PENDING: a write of 1 clears a bit (R42). -/
def execPending (fn : Nat) (bits : BitVec 64) (s : State) : Res := onObject (fn < 64) (clearPending fn bits s)

/-- Half of the MASK field written: 0 its low word, 1 its high word. -/
def writeMask (fn half : Nat) (v : Word) (s : State) : State :=
  let reach := seenBits s fn &&& (if half = 0 then 0xFFFFFFFF#64 else 0xFFFFFFFF00000000#64)
  let new : BitVec 64 := if half = 0 then v.setWidth 64 else v.setWidth 64 <<< 32
  { s with host := { s.host with mask := (s.host.mask &&& ~~~reach) ||| (new &&& reach) } }

/-- A write of a base register of a pair. -/
def writeBase (n off : Nat) (v : Word) (s : State) : State :=
  updPair n (fun x => match off with
    | 0x00 => { x with cqBaseLo := v }
    | 0x04 => { x with cqBaseHi := v }
    | 0x08 => { x with rqBaseLo := v }
    | 0x0C => { x with rqBaseHi := v }
    | _ => x) s

/-- FUNCTION_LEVEL_RESET of a virtual function: its pairs are disabled, the commands executing complete, and their replies are
discarded. The bindings remain (R41). Of replies of completed commands that wait for room in the reply queue R41 says nothing; they go on
waiting (DESIGN CHOICE: log entry 185). -/
def functionReset (fn : Nat) (s : State) : State :=
  { s with host := { s.host with pairs := mmap s.host.pairs fun n x =>
      if n < 64 && x.served && x.bound = fn then
        { x with enable := false, executing := x.executing.map fun e => { e with discard := true } }
      else x } }

def execFunctionLevelReset (fn : Nat) (s : State) : Res := onObject (1 ≤ fn && fn < 64) (functionReset fn s)

end Sys2Proof.Machine
end

