-- ==== Sys2Proof/Machine/Patina.lean ====
section
/-! DEFINITION. Patina: the plans of the rails and lanes (R478 to R484). Slack is in 0.1 ps, k in 0.01 ps per mV. -/

namespace Sys2Proof.Machine

/-! ## Rails (R478 to R480) -/

/-- The operating hours (R487). -/
def opHours (s : State) : Nat := s.evr.opSec / 3600

/-- A rail of the plan in force. -/
def railAt (p : Plan) (r : Nat) : Rail := mgetD p.rails r {}

/-- A lane of the plan in force. -/
def lanePlanAt (p : Plan) (l : Nat) : LanePlan := mgetD p.lanes l {}

/-- The highest and lowest offset of a rail in mV (R479). -/
def railMax (r : Nat) : Int := if r = 23 then 20 else 40
def railMin (r : Nat) : Int := if r = 23 then 0 else -20

/-- The power domain of a rail, for those that have one. -/
def railDomain (r : Nat) : Option Nat :=
  if r < 4 then some r
  else if r < 8 then some (0x10 + (r - 4))
  else if r < 12 then some (0x20 + (r - 8))
  else if r < 14 then some 0xF0
  else none

/-- A rail whose domain is powered. -/
def railPowered (s : State) (r : Nat) : Bool := match railDomain r with | some d => powered s d | none => true

/-- The target and the floor: 40 ps and 15 ps. -/
def slackTarget : Int := 400
def slackFloor : Int := 150

/-- The quotient rounded up. -/
def ceilQ (a b : Int) : Int := -((-a) / b)

/-- The offset that the plan takes for a rail and its slack there (R480). -/
def railPlan (r : Nat) (v0 : Int) (m : RailScan) : Int × Int :=
  let k := (m.s1 - m.s0).natAbs
  if m.s0 < slackTarget then
    let v := if k = 0 then railMax r else min (railMax r) (v0 + 5 * ceilQ ((slackTarget - m.s0) * 10) (5 * k))
    (v, m.sPlan)
  else if slackTarget * 10 ≤ m.s0 * 10 - 5 * k && railMin r < v0 && slackTarget ≤ m.sLow then (v0 - 5, m.sLow)
  else (v0, m.s0)

/-- The rate in 0.01 ps per 1,000 h: the loss since the previous plan's prediction (R480). The spec states no rounding, and no
rate for a plan in the same hour as the previous one: free values. -/
def railRate (s : State) (r : Nat) (predicted s0 : Int) : Nat :=
  if s.pat.plan.isDefault || predicted ≤ s0 then 0
  else
    let h := opHours s - s.pat.plan.hours
    if h = 0 then Config.freeNat (s.free + r) % 65536
    else
      let n := ((predicted - s0) * 10000).toNat
      min 65535 (n / h + if n % h ≠ 0 && Config.roundUp n h then 1 else 0)

/-- The projected hours to the floor (R483). -/
def hoursToFloor (r : Nat) (x : Rail) : Nat :=
  if x.rate = 0 then 0xFFFFFFFF
  else min 0xFFFFFFFF ((1000 * (x.slack * 10 + x.sens * (railMax r - x.offset) - slackFloor * 10) / x.rate).toNat)

/-- The plan of one rail: its measurement, or, where its domain is off or none was taken, the previous one marked skipped. -/
def planRail (s : State) (rails : List RailScan) (r : Nat) : Rail :=
  let x := railAt s.pat.plan r
  match rails.find? (fun m => m.rail = r) with
  | some m =>
    if railPowered s r then
      let (v, slack) := railPlan r x.now m
      let y : Rail := { x with offset := v, ageing := m.ageing, slack := slack, rate := railRate s r x.slack m.s0,
                               sens := (m.s1 - m.s0).natAbs, skipped := false }
      { y with low := hoursToFloor r y < 8760, floor := decide (slack < slackFloor) && v = railMax r }
    else { x with skipped := true }
  | none => { x with skipped := true }

/-! ## Lanes (R481) -/

/-- The previous plan of a lane with the window that stands: where that plan's has been applied or reset, the lane's own (R393). -/
def keptWindow (s : State) (g : Lane) (x : LanePlan) (l : Nat) : LanePlan :=
  if s.pat.windows.contains l then x else { x with winMin := g.planMin, winMax := g.planMax }

/-- The plan of one lane: the present step ± 3 within the operator's window, or all of that window below 15 mV. -/
def planLane (s : State) (lanes : List LaneScan) (l : Nat) : LanePlan :=
  let x := lanePlanAt s.pat.plan l
  let g := laneAt s l
  match lanes.find? (fun m => m.lane = l) with
  | some m =>
    if g.st = .active && !g.scanning then
      let wide := decide (m.height < 15)
      { winMin := if wide then g.cfg.peakMin else max g.cfg.peakMin (g.peakNow - 3),
        winMax := if wide then g.cfg.peakMax else min g.cfg.peakMax (g.peakNow + 3),
        skipped := false, height := m.height, width := m.width, floor := decide (m.height < 10) || decide (m.width < 8) }
    else { keptWindow s g x l with skipped := true }
  | none => { keptWindow s g x l with skipped := true }

/-! ## Plans -/

/-- The least of the hours to the floor over the rails. -/
def leastHours (p : Plan) : Nat := (List.range 24).foldl (fun a r => min a (hoursToFloor r (railAt p r))) 0xFFFFFFFF

/-- A plan made of measurements. -/
def makePlan (s : State) (seq : Nat) (rails : List RailScan) (lanes : List LaneScan) : Plan :=
  let p : Plan := { sequence := seq, hours := opHours s, isDefault := false,
                    rails := (List.range 24).map fun r => (r, planRail s rails r),
                    lanes := (List.range 80).map fun l => (l, planLane s lanes l) }
  { p with toFloor := leastHours p }

/-- The fault of a rail or lane is raised, or cleared by the first later plan in which its condition is absent (R483). -/
def marginFault (res code cls : Nat) (was is : Bool) (detail : Nat) (s : State) : State :=
  if is && !was then raise 0x0C 3 0 res code cls (wd detail) s
  else if was && !is then lower 0x0C 3 0 res code cls s
  else s

/-- The faults that a plan raises and clears. Rails are resources 0 to 23 and lanes 256 + their index (log entry 51). -/
def marginFaults (old new : Plan) (s : State) : State :=
  let rail (r : Nat) (s : State) : State :=
    let (a, b) := (railAt old r, railAt new r)
    marginFault r 0x0C07 0 a.low b.low r (marginFault r 0x0C08 1 a.floor b.floor r s)
  let lane (l : Nat) (s : State) : State :=
    marginFault (256 + l) 0x0C08 1 (lanePlanAt old l).floor (lanePlanAt new l).floor l s
  forBelow 80 lane (forBelow 24 rail s)

/-- Every rail stands at its plan's offset. -/
def railsThere (p : Plan) : Bool := p.rails.all fun e => e.2.now = e.2.offset

/-- A plan's window applies to a lane; one that a LANE_CONFIG since has left outside the operator's does not (R393). -/
def takeWindow (p : LanePlan) (x : Lane) : Lane :=
  if x.cfg.peakMin ≤ p.winMin && p.winMax ≤ x.cfg.peakMax then { x with planMin := p.winMin, planMax := p.winMax } else x

/-- The lane windows of the plan in force apply once every rail has reached its offset (R482). -/
def giveWindows (s : State) : State :=
  if !railsThere s.pat.plan then s
  else
    let p := s.pat.plan
    forEach s.pat.windows (fun l s => updLane l (takeWindow (lanePlanAt p l)) s)
      { s with pat := { s.pat with windows := [] } }

/-- A plan is in force: its offsets are reached step by step, and then its lane windows apply (R482). -/
def usePlan (p : Plan) (s : State) : State :=
  giveWindows { s with pat := { s.pat with plan := p, written := none, windows := List.range 80 } }

/-- A plan read from its record's content (R482). -/
def planOf (seq : Nat) (ws : List Word) : Plan :=
  let rail (r : Nat) : Rail :=
    let (a, b) := (nthW ws (2 + 2 * r), nthW ws (3 + 2 * r))
    let v := signed 8 (fld a 31 24)
    { now := v, offset := v, ageing := fld a 23 16, slack := signed 16 (fld a 15 0), rate := fld b 31 16, sens := fld b 15 1,
      skipped := bit b 0 }
  let lane (l : Nat) : LanePlan :=
    let w := nthW ws (50 + l)
    { winMin := fld w 31 27, winMax := fld w 26 22, skipped := bit w 21, height := fld w 15 8, width := fld w 7 0 }
  { sequence := seq, hours := (nthW ws 0).toNat, isDefault := false, toFloor := (nthW ws 1).toNat,
    rails := (List.range 24).map fun r => (r, rail r), lanes := (List.range 80).map fun l => (l, lane l) }

/-- At boot the stored plan applies; with none, every offset is 0 and every window the operator's (R482). -/
def bootPlan (s : State) : State :=
  match readSetting s 0 with
  | some ws => usePlan (planOf (settingCopy (settingRec s 0)).sequence ws) s
  | none => { s with pat := { s.pat with plan := {}, written := none } }

/-- From the freeze of configuration writes on, Patina applies nothing (R470). -/
def frozenNow (s : State) : Bool := s.boot.state = .safe || s.flt.frozen

/-- PATINA_PERIODIC_PLAN: 1,000 operating hours after the last one; one that falls due in Halter waits for its end (R480). -/
def periodicPlan (rails : List RailScan) (lanes : List LaneScan) (s : State) : State :=
  if s.boot.state = .halter then { s with pat := { s.pat with due := true } }
  else
    let p := makePlan s (nextSetting s 0) rails lanes
    { s with free := s.free + 24, pat := { s.pat with written := some p, due := false, nextHours := s.pat.nextHours + 1000 } }

def execPatinaPeriodicPlan (rails : List RailScan) (lanes : List LaneScan) (s : State) : Res :=
  .next (whenever (managerRuns s && (s.pat.nextHours ≤ opHours s || s.pat.due) && s.pat.written.isNone && !s.pat.scanning && !frozenNow s)
    (periodicPlan rails lanes) s)

/-- PATINA_PLAN_WRITE: the plan is written as a runtime setting and applies once read back; where neither copy verifies, the
previous plan stays in force (R482). -/
def writePlan (verified : Bool) (s : State) : State :=
  match s.pat.written with
  | none => s
  | some p =>
    if verified then
      let moved : Plan := { p with rails := mmap p.rails fun r x => { x with now := (railAt s.pat.plan r).now } }
      marginFaults s.pat.plan p (usePlan moved (writeSetting 0 (wd p.hours :: wd p.toFloor :: planEntries p) s))
    else settingFault 0 (tornSetting 0 { s with pat := { s.pat with written := none } })

def execPatinaPlanWrite (verified : Bool) (s : State) : Res := .next (whenever (managerRuns s && !frozenNow s) (writePlan verified) s)

/-- One step of 5 mV of a rail toward its plan's offset; the last one of all lets the lane windows apply (R479, R482). -/
def stepRail (rail : Nat) (s : State) : State :=
  let x := railAt s.pat.plan rail
  let v := if x.now < x.offset then x.now + 5 else if x.offset < x.now then x.now - 5 else x.now
  giveWindows { s with pat := { s.pat with
    plan := { s.pat.plan with rails := mset s.pat.plan.rails rail { x with now := v } }, movedAt := mset s.pat.movedAt rail s.mono } }

/-- A rail has made no step within the last millisecond (R479). -/
def mayStep (s : State) (rail : Nat) : Bool := match mget s.pat.movedAt rail with | some t => passed s t ms | none => true

/-- RAIL_OFFSET_STEP: one step per millisecond (R479). -/
def execRailOffsetStep (rail : Nat) (s : State) : Res :=
  onObject (rail < 24) <|
    whenever ((railAt s.pat.plan rail).now ≠ (railAt s.pat.plan rail).offset && mayStep s rail) (stepRail rail) s

/-! ## PATINA_SCAN and PATINA_STATUS (R484) -/

/-- The rail with the least slack and the lane with the least HEIGHT, of those measured. -/
def worstRail (p : Plan) : Nat × Rail :=
  ((List.range 24).filter fun r => mhas p.rails r).foldl
    (fun a r => if (railAt p r).slack < a.2.slack then (r, railAt p r) else a) (0, railAt p 0)
def worstLane (p : Plan) : Nat × LanePlan :=
  ((List.range 80).filter fun l => mhas p.lanes l).foldl
    (fun a l => if (lanePlanAt p l).height < a.2.height then (l, lanePlanAt p l) else a) (0, lanePlanAt p 0)

/-- The words of Table 16.5 for a plan. DEFAULT, LOW and FLOOR tell of a plan `held`: the one in force, or the one that a scan with
APPLY puts in force. -/
def planWords (p held : Plan) (nextHours : Nat) : List Word :=
  let (r, x) := worstRail p
  let (l, y) := worstLane p
  let low := held.rails.any fun e => e.2.low
  let floor_ := (held.rails.any fun e => e.2.floor) || held.lanes.any fun e => e.2.floor
  [ wd p.sequence, wd p.hours,
    pack [(b2n held.isDefault, 1, 31), (b2n low, 1, 30), (b2n floor_, 1, 29), (r, 5, 16), (unsigned 16 x.slack, 16, 0)],
    pack [(l, 8, 24), (y.height, 8, 8), (y.width, 8, 0)], wd p.toFloor, wd nextHours ]

/-- The answer of either command for a plan, with its entries where there is a result buffer. -/
def planAnswer (hasBuf : Bool) (p held : Plan) (s : State) : HRes :=
  let ws := planWords p held s.pat.nextHours
  if hasBuf then .doneBuf s ws (bytesOfWords (planEntries p)) else .done s ws

/-- PATINA_STATUS. -/
def runPatinaStatus (c : Ctx) (s : State) : HRes := planAnswer c.hasBuf s.pat.plan s.pat.plan s

def opPatinaStatus : OpSpec :=
  { code := 0xB008, writes := false, oWorld := true, home := (0x0C, 3), len := exactly 0, run := runPatinaStatus }

/-- The end of a PATINA_SCAN: without APPLY it reports and changes nothing; with it its plan is written, and it satisfies a
periodic plan that fell due meanwhile (R480). -/
def scanResult (flags : Nat) (hasBuf : Bool) (rails : List RailScan) (lanes : List LaneScan) (s : State) : HRes :=
  let apply := flags.testBit 31
  let p := makePlan s (if apply then nextSetting s 0 else 0) (if flags.testBit 0 then rails else [])
    (if flags.testBit 1 then lanes else [])
  let s1 := { s with free := s.free + 24, pat := { s.pat with scanning := false } }
  if apply then
    let fell := !s.pat.early && s.pat.nextHours ≤ opHours s
    planAnswer hasBuf p p { s1 with pat := { s1.pat with
      written := some p, due := s.pat.due && !fell, nextHours := if fell then s1.pat.nextHours + 1000 else s1.pat.nextHours } }
  else planAnswer hasBuf p s.pat.plan s1

end Sys2Proof.Machine
end

