-- ==== Sys2Proof/Machine/Boot.lean ====
section
/-! DEFINITION. Boot by the ROM, the start of firmware, and its restart (R64 to R66, R81, R320, R333, R334, R489, R490). -/

namespace Sys2Proof.Machine

/-! ## ROM_BOOT -/

/-- The copies as the ROM finds them in flash: the bytes given, or, where none are given, those last known. -/
def readFlash (flash : List (List Byte)) (s : State) : State :=
  forBelow 4 (fun k s => updCopy k (fun x => judgeCopy s k { x with selected := false } (if (flash.getD k []).isEmpty then x.body else flash.getD k [])) s) s

/-- The copy of a kind that is selected: the valid one with the higher SEQUENCE, one marked failed only where no other is
valid (R64); of two with the same SEQUENCE, which R64 does not order, copy A (DESIGN CHOICE: log entry 185). -/
def selectCopy (s : State) (kind : Nat) : Option Nat :=
  let a := 2 * (kind - 1)
  let good (k : Nat) : Bool := (copyAt s k).valid && !(copyAt s k).failed
  let any_ (k : Nat) : Bool := (copyAt s k).valid
  let pick (t : Nat → Bool) : Option Nat :=
    if t a && t (a + 1) then some (if (copyAt s a).sequence < (copyAt s (a + 1)).sequence then a + 1 else a)
    else if t a then some a else if t (a + 1) then some (a + 1) else none
  match pick good with
  | some k => some k
  | none => pick any_

/-- Mark the copy of a kind as selected. -/
def markSelected (kind : Nat) (s : State) : State :=
  match selectCopy s kind with
  | some k => updCopy k (fun x => { x with selected := true }) s
  | none => s

/-- The copy of a kind that the last boot selected. -/
def selectedCopy (s : State) (kind : Nat) : Option Nat :=
  [2 * (kind - 1), 2 * (kind - 1) + 1].find? fun k => (copyAt s k).selected

/-- A measurement register: SHA-384 over 48 zero bytes and the DIGEST of the selected copy, zeros where there is none (R333). -/
def measureOf (s : State) (kind : Nat) : List Byte :=
  Config.sha384 (List.replicate 48 0 ++ (match selectedCopy s kind with
    | some k => slice (copyAt s k).body 16 48
    | none => List.replicate 48 0))

/-- The next SEQ: one above the highest valid SEQ in the store, or the one persisted at an erase if that is higher (R490). -/
def resumedSeq (s : State) : Nat :=
  max ((visible s).foldl (fun a r => max a (r.seq + 1)) 1)
    (match readSetting s 8 with | some ws => (nthW ws 1).toNat | none => 1)

/-- The boot's power cycle is counted and persisted where both feeds were lost (R489). -/
def countPowerCycle (s : State) : State :=
  if s.boot.cause = 1 then
    ownSetting 7 [wd (s.evr.powerCycles + 1)] { s with evr := { s.evr with powerCycles := s.evr.powerCycles + 1 } }
  else s

/-- A counter record below the update epoch takes the epoch with counter 0 (R329). -/
def renewCounter (s : State) : State :=
  if s.vault.counter.1 < updateEpoch s then setCounter (updateEpoch s) 0 true s else s

/-- The SEQUENCE of the copy of a kind that is selected. -/
def bootSeq (s : State) (kind : Nat) : Word := match selectedCopy s kind with | some k => wd (copyAt s k).sequence | none => 0

/-- The BOOT record (R489). The order of its DETAIL words is a DESIGN CHOICE: log entry 62. -/
def bootRecord (s : State) : State :=
  let s1 := recordWith s.evr.unaccounted 0x0001 s.boot.cause 0x0C 0 0 0x0100
    [selectedBits s, bootSeq s 1, bootSeq s 2, wd (failureMarks s), lo32 s.evr.persisted, hi32 s.evr.persisted,
     lo32 s.evr.opSec, hi32 s.evr.opSec] s
  { s1 with evr := { s1.evr with unaccounted := false } }

/-- An epoch advance that a loss of power cut after its row was burned is completed: the pending key, whose hash the row of the current epoch
holds, becomes UPDATE_AUTHORITY; another pending record is ignored (R328, R329). -/
def completeAdvance (s : State) : State :=
  match s.vault.pendingKey with
  | some p =>
    if (s.vault.epochRows[updateEpoch s]?).map EpochRow.hash = some (Config.sha384 p) then
      takeAuthority p true { s with vault := { s.vault with pendingKey := none } }
    else s
  | none => s

/-- A counter record's counter within an epoch (R327). -/
def counterIn (e : Nat) (c : Nat × Nat) : Nat := if c.1 = e then c.2 else 0

/-- At the first boot under the production root after the debug settings area was in use, the stored counter is the higher of the two values
within the current epoch, and the area is erased (R335). -/
def reconcile (s : State) : State :=
  if testRoot s || !s.vault.wasDebug then s
  else
    let e := updateEpoch s
    let s1 := setCounter e (max (counterIn e s.vault.counter) (counterIn e s.vault.debugCounter)) true s
    { s1 with boot := { s1.boot with debugSettings := [] }, vault := { s1.vault with debugCounter := (0, 0), wasDebug := false } }

/-- The framers are out of reset and outside SYNC: each side's LOA is raised (R409, R413). -/
def framersHunt (s : State) : State :=
  let loa (i : Nat) (s : State) : State := if (sideAt s i).loa then plaitDefect i 0 1 true s else s
  loa 1 (loa 0 s)

/-- ROM_BOOT: the ROM verifies and selects the copies, extends MEAS_0 and starts the firmware, or enters RECOVERY (R64 to R66). -/
def romBoot (flash : List (List Byte)) (s : State) : State :=
  let s1 := markSelected 2 (markSelected 1 (readFlash flash (completeScrap s)))
  let s2 := { s1 with vault := { s1.vault with meas0 := (match selectedCopy s1 1 with | some _ => measureOf s1 1 | none => []) }
                      evr := { s1.evr with nextSeq := resumedSeq s1 } }
  let s3 := bootRecord (renewCounter (reconcile (completeAdvance (countPowerCycle (bootPlan s2)))))
  match selectedCopy s3 1 with
  | some _ => framersHunt { s3 with boot := { s3.boot with phase := .firmware, started := s.mono } }
  | none => { s3 with boot := { s3.boot with phase := .up, state := .recovery } }

/-- After a thermal shutdown the boot holds at its 20 ms row until every sensor is below 95 °C (R524). -/
def coolEnough (s : State) : Bool := !s.power.shutdown || s.power.tjMax < 95

/-- The ROM may run: its island is out of reset (R507) and the module is cool enough (R524). -/
def romMayRun (s : State) : Bool := s.boot.phase = .rom && !s.power.testMode && coolEnough s

/-- A thermal shutdown ends: the rails are on again and PWR_OK is released. -/
def endShutdown (s : State) : State :=
  if s.power.shutdown then emit (.pin "PWR_OK" 0 1) { s with power := { s.power with shutdown := false, pwrOk := true } } else s

def execRomBoot (flash : List (List Byte)) (s : State) : Res :=
  .next (whenever (romMayRun s) (fun s => romBoot flash (endShutdown s)) s)

/-- FIRMWARE_START_TIMEOUT: 5 s without command-ready mark the copy failed, and the ROM boots with the other (R64). -/
def startTimeout (s : State) : State :=
  let s1 := match selectedCopy s 1 with
    | some k => updCopy k (fun x => { x with failed := true }) s
    | none => s
  moduleReset 4 (ownSetting 4 [wd (failureMarks s1)] s1)

def execFirmwareStartTimeout (s : State) : Res :=
  .next (whenever (s.boot.phase = .firmware && passed s s.boot.started (5 * sec)) startTimeout s)

/-! ## Firmware ready -/

/-- The runtime settings records written under other measurements are rewritten under the current ones (R334). -/
def renewSettings (s : State) : State :=
  forBelow 9 (fun i s =>
    let c := settingCopy (settingRec s i)
    if c.valid && c.meas ≠ s.vault.meas0 ++ s.vault.meas1 then ownSetting i c.content s else s) s

/-- The trees that the configuration loads are those of version 0, which is CURRENT at boot (R220). -/
def foldTrees (s : State) : State :=
  match s.rules.versions.find? fun e => e.2.st = .opened with
  | none => s
  | some e =>
    { s with rules := { s.rules with
        versions := mset (mset s.rules.versions e.1 {}) s.rules.current { mgetD s.rules.versions s.rules.current {} with trees := e.2.trees } } }

/-- The in-band mark and the floor of SEQ after a boot (R59). -/
def restoreMark (s : State) : State :=
  match readSetting s 3 with
  | some ws => { s with host := { s.host with inMark := join64 (nthW ws 0) (nthW ws 1), inHigh := join64 (nthW ws 0) (nthW ws 1) } }
  | none => s

/-- The module is ready (Table 2.10). -/
def readyNow (s : State) : State := { s with boot := { s.boot with phase := .up, state := .ready } }

/-- The firmware copy that the last boot selected still verifies (R63). -/
def firmwareStands (s : State) : Bool := match selectedCopy s 1 with | some k => imageValid s k (copyAt s k).body | none => false

/-- The reloaded firmware serves again: the state that stood before is shown, or RECOVERY where its copy no longer verifies, and
STATE_CHANGE 0x0C01 is sent (R65, R81). -/
def restartDone (s : State) : State :=
  let st : ModState := if s.boot.state = .safe then .safe else if !firmwareStands s then .recovery else if s.halter.stage = .halter then .halter else .ready
  stateChange 0x0C01 [] { s with boot := { s.boot with state := st, restarting := false } }

end Sys2Proof.Machine
end

