-- ==== Sys2Proof/Machine/Plait.lean ====
section
/-! DEFINITION. The Plait framers, protection and the uplink ports (chapter 13). -/

namespace Sys2Proof.Machine

/-! ## Bytes of a Plait frame (R404, R405) -/

/-- The word that begins every Plait frame (Table 13.1). -/
def alignWord : Nat := 0xF0B42D78E11E874B

/-- Eight steps of the scrambler x^23 + x^18 + 1: its next register and the byte it gives, most significant bit first. -/
def scramble8 (r : BitVec 23) : BitVec 23 × Byte :=
  (List.range 8).foldl (fun a _ =>
    let out := a.1.getLsbD 22
    let back := a.1.getLsbD 17 ^^ out
    ((a.1 <<< 1) ||| (if back then 1#23 else 0#23), (a.2 <<< 1) ||| (if out then 1#8 else 0#8))) (r, 0#8)

/-- Bytes XORed with the scrambler's output from a register on. -/
def scrambleFrom (r : BitVec 23) (bs : List Byte) : List Byte :=
  match bs with
  | [] => []
  | b :: rest => (b ^^^ (scramble8 r).2) :: scrambleFrom (scramble8 r).1 rest

/-- A Plait frame scrambled or descrambled: ALIGN stands as it is (R405). -/
def scramblePlait (bs : List Byte) : List Byte := bs.take 8 ++ scrambleFrom (BitVec.allOnes 23) (bs.drop 8)

/-- Bit-interleaved even parity over bytes. -/
def bip8 (bs : List Byte) : Nat := (bs.foldl (fun a b => a ^^^ b) 0#8).toNat

/-- The bits in which a word differs from ALIGN. -/
def alignErrors (v : Nat) : Nat := ((List.range 64).filter fun i => v.testBit i ≠ alignWord.testBit i).length

/-- The CRC-8 of a cell header: x^8 + x^2 + x + 1, initial value 0 (R406). -/
def crc8 (bs : List Byte) : Nat :=
  (bs.foldl (fun c b => (List.range 8).foldl
    (fun (c : Byte) _ => if c.getLsbD 7 then (c <<< 1) ^^^ 0x07#8 else c <<< 1) (c ^^^ b)) 0#8).toNat

/-- A field of a number. -/
def nfld (h hi lo : Nat) : Nat := h / 2 ^ lo % 2 ^ (hi + 1 - lo)

/-! ## Reception of cells (R408) -/

/-- The longest frame of a TYPE. -/
def longest (kind : Nat) : Nat := if kind = 1 then 12288 else 16400

/-- Alter a side's open contexts. -/
def setCtxs (i : Nat) (m : Map Nat Reasm) (s : State) : State := updSide i (fun x => { x with ctxs := m }) s

/-- A frame is complete: TYPE 1 is received from point 16 + SRC_CARD; TYPE 2 goes to the in-band queue, under the setting in
force at its first cell (R78). -/
def frameDone (inband : InbandSet → Nat → List Byte → State → State) (set : InbandSet) (i kind src : Nat) (fits : Bool)
    (bs : List Byte) (s : State) : State :=
  if kind = 1 then ingress { frame := { source := 80 + i, card := src, bytes := bs } } fits s else inband set i bs s

/-- A cell of an open context, whose frame so far is `bs` and whose expected number is `next`, none on its first cell; `set` is
the in-band setting at that first cell. -/
def cellInContext (inband : InbandSet → Nat → List Byte → State → State) (set : InbandSet) (i h : Nat) (fits : Bool) (key : Nat)
    (bs : List Byte) (next : Option Nat) (payload : List Byte) (s : State) : State :=
  let kind := nfld h 63 60
  let last := h.testBit 58
  let poison := h.testBit 57
  let len := nfld h 37 31
  let seq := nfld h 30 23
  let whole := bs ++ payload.take len
  let closed := setCtxs i (mdel (sideAt s i).ctxs key) s
  let follows := match next with | some n => decide (n = seq) | none => true
  if !follows || (!last && len < 120) || longest kind < whole.length then bumpSide i 6 1 closed
  else if last && poison then bumpSide i 7 1 closed
  else if last then frameDone inband set i kind (nfld h 49 44) fits whole closed
  else setCtxs i (mset (sideAt s i).ctxs key { bytes := whole, next := seq + 1, last := s.mono, inband := set }) s

/-- TYPE 1 cells are accepted on the working side, and on both during the transition of R419. -/
def acceptsData (s : State) (i : Nat) : Bool := s.link.sel.side = i || s.link.sel.transition.isSome

/-- CELL_RECEIVE: the first row of Table 13.3 that applies decides the cell. -/
def takeCell (inband : InbandSet → Nat → List Byte → State → State) (i : Nat) (fits : Bool) (cell : List Byte) (s : State) : State :=
  let h := beNat (cell.take 8)
  let kind := nfld h 63 60
  let src := nfld h 49 44
  let key := src * 256 + nfld h 43 38 * 4 + (if kind = 1 then 1 else 2)
  let payload := slice cell 8 120
  if crc8 (cell.take 7) ≠ nfld h 7 0 then bumpSide i 0 1 s
  else if 3 ≤ kind then bumpSide i 1 1 s
  else if kind = 0 then s
  else if nfld h 55 50 ≠ s.link.card then bumpSide i 2 1 s
  else if kind = 1 && src = s.link.card then bumpSide i 3 1 s
  else if kind = 1 && !acceptsData s i then bumpSide i 4 1 s
  else match mget (sideAt s i).ctxs key, h.testBit 59 with
  | some _, true => cellInContext inband (inbandNow s) i h fits key [] none payload (bumpSide i 6 1 (setCtxs i (mdel (sideAt s i).ctxs key) s))
  | none, true => cellInContext inband (inbandNow s) i h fits key [] none payload s
  | none, false => bumpSide i 5 1 s
  | some r, false => cellInContext inband r.inband i h fits key r.bytes (some r.next) payload s

/-- Bytes cut into whole cells, and what is left. -/
def cutCells (fuel : Nat) (bs : List Byte) : List (List Byte) × List Byte :=
  match fuel with
  | 0 => ([], bs)
  | n + 1 =>
    if bs.length < 128 then ([], bs)
    else let r := cutCells n (bs.drop 128); (bs.take 128 :: r.1, r.2)

/-- REASSEMBLY_TIMEOUT: a context without a cell for 10 µs is closed (R408). -/
def execReassemblyTimeout (side src ctx kind : Nat) (s : State) : Res :=
  let key := src * 256 + ctx * 4 + (if kind = 1 then 1 else 2)
  onObject (side < 2 && src < 64 && ctx < 64) <|
    whenever (match mget (sideAt s side).ctxs key with | some r => passed s r.last (10 * us) | none => false)
      (fun s => bumpSide side 6 1 (setCtxs side (mdel (sideAt s side).ctxs key) s)) s

/-! ## Overhead (R410 to R414, R416) -/

/-- The pointer after a Plait frame in pointer mode, whether a value was adopted, and whether the pointer is lost (R410). -/
def pointerStep (act v : Nat) (x : Side) : Side × Bool × Bool :=
  if act = 0 then
    if v = x.pointer && !x.lop then ({ x with ptrSeen := v, ptrRun := 0, ptrOff := 0, sinceStuff := min 4 (x.sinceStuff + 1) }, false, false)
    else
      let run := if v = x.ptrSeen then x.ptrRun + 1 else 1
      let y := { x with ptrSeen := v, ptrRun := run, ptrOff := x.ptrOff + 1, sinceStuff := min 4 (x.sinceStuff + 1) }
      if 1007 < v then (y, false, true)
      else if 3 ≤ run then ({ y with pointer := v, ptrRun := 0, ptrOff := 0 }, true, false)
      else (y, false, 8 ≤ y.ptrOff)
  else if act = 3 then
    let y := { x with ptrRun := 0, ptrOff := 0, sinceStuff := min 4 (x.sinceStuff + 1) }
    if 1007 < v then (y, false, true) else ({ y with pointer := v }, true, false)
  else ({ x with ptrRun := 0, ptrOff := 0, sinceStuff := 1 }, false, 1007 < v)

/-- The cell stream of a Plait frame in pointer mode and the cells it completes: `x` is the side before the frame's
stuff, `at_` the word at which a cell header begins. -/
def pointerStream (d : List Byte) (act : Nat) (stuff : Bool) (at_ : Nat) (carry : List Byte) : List (List Byte) × List Byte :=
  let body := d.drop 0x80
  let stream := if !stuff then body else if act = 1 then body.drop 8 else slice d 0x18 8 ++ body
  let off := at_ * 8
  cutCells 64 (if (carry.length + off) % 128 = 0 then carry ++ stream else stream.drop (off % 128))

/-- The cells of a Plait frame, with the pointer handled in pointer mode (R404, R410). LOP is held while STATUS.MODE
differs from MODE. -/
def framePayload (i : Nat) (d : List Byte) (s : State) : List (List Byte) × State :=
  let x := sideAt s i
  let w := beNat (slice d 0x14 2)
  let act := nfld w 15 14
  let differs := b2n ((d.getD 0x0A 0).getLsbD 6) ≠ x.mode
  if x.mode = 0 then
    let r := cutCells 63 (d.drop 0x80)
    (r.1, setLop i differs (updSide i (fun x => { x with carry := [] }) s))
  else
    let stuff := act = 1 || act = 2
    let apply := stuff && 4 ≤ x.sinceStuff
    let (y, adopted, lost) := pointerStep act (nfld w 9 0) x
    let r := pointerStream d act apply (if adopted then y.pointer else x.pointer) x.carry
    let ptr := if !apply then y.pointer else if act = 1 then (x.pointer + 1) % 1008 else (x.pointer + 1007) % 1008
    let s1 := updSide i (fun _ => { y with pointer := ptr, carry := r.2 }) s
    let s2 := if apply then bumpSide i (if act = 1 then 13 else 14) 1 s1 else if stuff then bumpSide i 15 1 s1 else s1
    (r.1, if differs || lost then setLop i true s2 else if adopted then setLop i false s2 else s2)

/-- TIM follows the accepted trace: raised while it differs from EXP_TRACE, which all zeros disable (R411). -/
def followTim (i : Nat) (s : State) : State :=
  let x := sideAt s i
  let exp := bytesOfWords x.expTrace
  if exp.all (· = 0) then setTim i false s
  else if x.accepted.isEmpty then s
  else setTim i (decide (x.accepted ≠ exp.map BitVec.toNat)) s

/-- A trace byte arrives; the last of a multiframe may make the trace accepted (R411). -/
def takeTrace (i mfi : Nat) (b : Byte) (s : State) : State :=
  let m := mset (sideAt s i).trace mfi b.toNat
  if mfi ≠ 63 then updSide i (fun x => { x with trace := m }) s
  else if m.length < 64 then updSide i (fun x => { x with trace := [], traceRun := 0 }) s
  else
    let bs := (List.range 64).map fun k => mgetD m k 0
    followTim i (updSide i (fun x =>
      let run := if x.lastTrace = bs then x.traceRun + 1 else 1
      { x with trace := [], lastTrace := bs, traceRun := min 3 run, accepted := if 3 ≤ run then bs else x.accepted }) s)

/-- The parity of the previous Plait frame is checked; the count that reaches EXC_TH raises EXC (R412). -/
def takeBip (i given : Nat) (s : State) : State :=
  match (sideAt s i).bipSeen with
  | none => s
  | some b =>
    if b = given then s
    else
      let s1 := bumpSide i 10 1 (updSide i (fun x => { x with marked := x.marked + 1 }) s)
      if (sideAt s1 i).excTh ≤ (sideAt s1 i).marked then setExc i true s1 else s1

/-- RDI in three consecutive Plait frames (R413). -/
def takeRdi (i : Nat) (rdi : Bool) (s : State) : State :=
  let run := if rdi then min 3 ((sideAt s i).rdiRun + 1) else 0
  setRdi i (decide (3 ≤ run)) (updSide i (fun x => { x with rdiRun := run }) s)

/-- The cards whose bits are set. -/
def setBits (v : Nat) : List Nat := (List.range 64).filter v.testBit

/-- BACKPRESSURE of a side: a bit's start is kept, and its clearing ends the discard of R414. -/
def takeBack (i v : Nat) (s : State) : State :=
  let s1 := updSide i (fun x => { x with
    back := v, backSince := (setBits v).map fun c => (c, mgetD x.backSince c s.mono), stuck := x.stuck.filter v.testBit }) s
  setStuck i (!(sideAt s1 i).stuck.isEmpty) s1

/-- The deframer buffer of a side passes three quarters or falls below half full, in percent (R414). -/
def takeFill (i fill : Nat) (s : State) : State :=
  updSide i (fun x => { x with fill := fill, askBack := if 75 < fill then true else if fill < 50 then false else x.askBack }) s

/-- The lanes that the announced receive group adds are requested to exit before they join it (R416). -/
def joinLanes (i : Nat) (s : State) : State :=
  let x := sideAt s i
  forEach (((List.range (widthLanes x.rxNext)).filter fun k => widthLanes x.rxWidth ≤ k).map (sideLane i)) askExit s

/-- The overhead of a Plait frame in SYNC. -/
def takeOverhead (i : Nat) (d : List Byte) (s : State) : State :=
  let st := d.getD 0x0A 0
  takeBack i (beNat (slice d 0x20 8))
    (takeTrace i ((d.getD 8 0).toNat % 64) (d.getD 9 0)
      (takeRdi i (st.getLsbD 7)
        (takeBip i (d.getD 0x0C 0).toNat
          (joinLanes i (updSide i (fun x => { x with rxNext := st.toNat / 4 % 4 }) s)))))

/-- The lanes of a group are ACTIVE with a raw signal (Table 13.4). -/
def groupReady (s : State) (i : Nat) : Bool :=
  (groupLanes s i).all fun l => (laneAt s l).st = .active && !(laneAt s l).rawLos && !(laneAt s l).rawLol

/-- A Plait frame whose cells are accepted: its overhead, then its cells. -/
def takeFrame (inband : InbandSet → Nat → List Byte → State → State) (i : Nat) (bytes : List Byte) (fits : Bool) (s : State) : State :=
  let d := scramblePlait bytes
  let r := framePayload i d (takeOverhead i d s)
  updateSf (forEach r.1 (takeCell inband i fits) (updSide i (fun x => { x with bipSeen := some (bip8 bytes) })
    (countEvent 0x4A 0x100 0x0100 1 (countEvent 0x4A 0x102 0x0100 r.1.length r.2))))

/-- The aligner reaches SYNC: LOA is cleared and cells are accepted from this Plait frame. -/
def enterSync (inband : InbandSet → Nat → List Byte → State → State) (i : Nat) (bytes : List Byte) (fits : Bool) (s : State) : State :=
  takeFrame inband i bytes fits (setLoa i false (updSide i (fun x => { x with align := .sync, k := 0, errored := 0 }) s))

/-- One row of Table 13.4 for the 8,192 bytes at the candidate or expected position. -/
def alignStep (inband : InbandSet → Nat → List Byte → State → State) (i : Nat) (bytes : List Byte) (fits : Bool) (s : State) : State :=
  let x := sideAt s i
  let v := beNat (bytes.take 8)
  let exact := v = alignWord
  match x.align with
  | .hunt =>
    if !exact then s
    else if x.n = 1 then enterSync inband i bytes fits s
    else updSide i (fun x => { x with align := .presync, k := 1, bipSeen := some (bip8 bytes) }) s
  | .presync =>
    if !exact then alignLost i (bumpSide i 11 1 s)
    else if x.k + 1 = x.n then enterSync inband i bytes fits s
    else updSide i (fun x => { x with k := x.k + 1, bipSeen := some (bip8 bytes) }) s
  | .sync =>
    if alignErrors v ≤ 2 then takeFrame inband i bytes fits (updSide i (fun x => { x with errored := 0 }) s)
    else
      let s1 := bumpSide i 9 1 s
      if x.errored + 1 = x.m then alignLost i s1
      else takeFrame inband i bytes fits (updSide i (fun x => { x with errored := x.errored + 1 }) s1)

/-- The lane group of the receiver (R416): a hunting receiver takes the width that the frame names; otherwise the group
changes at MFI 0 to the announced width, and SYNC is kept only if ALIGN stands at the expected position. -/
def followWidth (i : Nat) (bytes : List Byte) (s : State) : State :=
  let d := scramblePlait (bytes.take 16)
  let x := sideAt s i
  if x.align = .hunt then if beNat (bytes.take 8) ≠ alignWord then s else updSide i (fun x => { x with rxWidth := (d.getD 0x0A 0).toNat / 16 % 4, rxNext := (d.getD 0x0A 0).toNat / 16 % 4 }) s
  else if x.rxNext ≠ x.rxWidth && (d.getD 8 0).toNat % 64 = 0 then
    let leave := (groupLanes s i).filter fun l => !(groupLanes (updSide i (fun x => { x with rxWidth := x.rxNext }) s) i).contains l
    let s1 := updSide i (fun x => { x with rxWidth := x.rxNext }) s
    let s2 := forEach leave (fun l s => if (laneAt s l).st = .active && (laneAt s l).cfg.idle = 1 then laneTo l .idle s else s) s1
    if beNat (bytes.take 8) = alignWord then s2 else alignLost i s2
  else s

/-- PLAIT_FRAME_RECEIVE, with what takes a complete in-band packet: `skewOk` tells whether the lanes' skew is at most 20 ns,
`fill` how full the deframer buffer is in percent, `fits` whether the ingress has room. -/
def receivePlait (inband : InbandSet → Nat → List Byte → State → State) (i : Nat) (bytes : List Byte) (skewOk : Bool) (fill : Nat)
    (fits : Bool) (s : State) : State :=
  if !(sideAt s i).enable then s
  else if !skewOk then alignLost i (bumpSide i 12 1 s)
  else
    let s1 := followWidth i bytes (takeFill i fill s)
    if groupReady s1 i then alignStep inband i bytes fits s1 else alignLost i s1

/-- EXC_WINDOW: a window of 100 µs ends; the tenth in a row below EXC_TH / 10 clears EXC (R412). -/
def excWindow (i : Nat) (s : State) : State :=
  let good := if (sideAt s i).marked * 10 < (sideAt s i).excTh then min 10 ((sideAt s i).goodWindows + 1) else 0
  let s1 := updSide i (fun x => { x with marked := 0, windowAt := s.mono, goodWindows := good }) s
  if 10 ≤ good then updateSf (setExc i false s1) else s1

def execExcWindow (side : Nat) (s : State) : Res :=
  onObject (side < 2) <| whenever (passed s (sideAt s side).windowAt (100 * us)) (excWindow side) s

/-! ## Transmission (R405, R407, R414, R416) -/

/-- The frames toward a card that no cell has begun are discarded while its bit is stuck (R414). -/
def discardStuck (i : Nat) (s : State) : State :=
  let gone (f : TxFrame) : Bool := f.kind = 1 && f.ctx.isNone && (sideAt s i).stuck.contains f.card
  bumpSide i 17 ((sideAt s i).queue.filter gone).length (updSide i (fun x => { x with queue := x.queue.filter fun f => !gone f }) s)

/-- PAUSE_STUCK: a card's bit has stayed set for PAUSE_MS on the working side (R414). -/
def pauseStuck (i card : Nat) (s : State) : State :=
  discardStuck i (setStuck i true (updSide i (fun x => { x with stuck := card :: x.stuck }) s))

def execPauseStuck (side card : Nat) (s : State) : Res :=
  onObject (side < 2 && card < 64) <|
    whenever (s.link.sel.side = side && !(sideAt s side).stuck.contains card
        && (match mget (sideAt s side).backSince card with | some t => passed s t (s.link.pauseMs * ms) | none => false))
      (pauseStuck side card) s

/-- The cells of a frame. -/
def cellCount (f : TxFrame) : Nat := max 1 (ceilDiv f.bytes.length 120)

/-- A frame with a context has a cell ready: its last cell waits while its verdict is to come (R301, R407). -/
def cellReady (f : TxFrame) : Bool := f.ctx.isSome && !(f.held && !f.poison && f.sent + 1 = cellCount f)

/-- A cell as it is sent (Table 13.2). -/
def cellBytes (s : State) (f : TxFrame) : List Byte :=
  let last := f.poison || f.sent + 1 = cellCount f
  let pay := if f.poison then [] else slice f.bytes (f.sent * 120) 120
  let h := f.kind * 2 ^ 60 + b2n (f.sent = 0) * 2 ^ 59 + b2n last * 2 ^ 58 + b2n f.poison * 2 ^ 57 + f.card % 64 * 2 ^ 50
    + s.link.card % 64 * 2 ^ 44 + f.ctx.getD 0 % 64 * 2 ^ 38 + pay.length * 2 ^ 31 + f.sent % 256 * 2 ^ 23 + f.pri % 8 * 2 ^ 20
  let head := (beBytes 8 h).take 7
  head ++ [BitVec.ofNat 8 (crc8 head)] ++ (pay ++ List.replicate 120 0).take 120

/-- An idle cell. -/
def idleCell : List Byte := List.replicate 128 0

/-- A frame may begin on a side: in-band replies always, payload on the working side toward a card that does not ask to
wait (R407, R414). -/
def mayBegin (s : State) (i : Nat) (f : TxFrame) : Bool :=
  f.ctx.isNone && (f.kind = 3 || (s.link.sel.side = i && !(sideAt s i).back.testBit f.card))

/-- Open contexts for the frames that may begin, while fewer than 64 are open; which free context a frame takes is a
free value. -/
def openContexts (fuel i : Nat) (s : State) : State :=
  match fuel with
  | 0 => s
  | n + 1 =>
    let q := (sideAt s i).queue
    let used := q.filterMap TxFrame.ctx
    let spare := (List.range 64).filter fun c => !used.contains c
    match q.findIdx? (mayBegin s i), spare[Config.freeNat s.free % spare.length]? with
    | some k, some c =>
      openContexts n i (takeFree (updSide i (fun x => { x with queue := x.queue.modify k fun f => { f with ctx := some c } }) s))
    | _, _ => s

/-- The next context in round robin with a cell ready. -/
def nextReady (x : Side) : Option Nat :=
  ((List.range 64).map fun j => (x.rr + 1 + j) % 64).find? fun c => x.queue.any fun f => f.ctx = some c && cellReady f

/-- One cell slot of a side: the next ready context's cell, or an idle cell. -/
def sendCell (i : Nat) (s : State) : List Byte × State :=
  match nextReady (sideAt s i) with
  | none => (idleCell, countEvent 0x4A 0x101 0x0100 1 s)
  | some c =>
    match (sideAt s i).queue.find? fun f => f.ctx = some c with
    | none => (idleCell, s)
    | some f =>
      let ends := f.poison || f.sent + 1 = cellCount f
      let step (q : List TxFrame) : List TxFrame :=
        if ends then q.filter fun g => g.ctx ≠ some c
        else q.map fun g => if g.ctx = some c then { g with sent := g.sent + 1 } else g
      let s1 := updSide i (fun x => { x with rr := c, queue := step x.queue }) s
      (cellBytes s f, if f.poison then bumpSide i 8 1 s1 else s1)

/-- The cells of a number of slots. -/
def sendCells (n i : Nat) (s : State) : List Byte × State :=
  match n with
  | 0 => ([], s)
  | k + 1 =>
    let (c, s1) := sendCell i s
    let (r, s2) := sendCells k i s1
    (c ++ r, s2)

/-- REQ in PROT (R418). -/
def protReq (st : SelState) : Nat := match st with | .fs => 4 | .ms => 2 | .sf => 3 | .wtr => 1 | .nr => 0

/-- The PROT word, the same on both sides (R405, Table 13.1). -/
def protWord (s : State) : Nat :=
  protReq s.link.sel.st * 2 ^ 29 + s.link.sel.side * 2 ^ 28 + b2n s.link.sel.revertive * 2 ^ 27

/-- The width code that a side goes to: PLAIT_CONFIG's, or 1 lane from S2 of entry to the end of Halter (R415, R443). -/
def goalWidth (s : State) (i : Nat) : Nat := if keeperPath s then 3 else (sideAt s i).width

/-- NEXT_WIDTH: a wider group is announced once the lanes that join it are ACTIVE (R416). -/
def nextWidth (s : State) (i : Nat) : Nat :=
  let now := (sideAt s i).txWidth
  let goal := goalWidth s i
  let joins := ((List.range (widthLanes goal)).filter fun k => widthLanes now ≤ k).map (sideLane i)
  if joins.all fun l => (laneAt s l).st = .active then goal else now

/-- The first 128 bytes of a Plait frame before scrambling (Table 13.1). -/
def overheadBytes (s : State) (i : Nat) : List Byte :=
  let x := sideAt s i
  let status := b2n (x.loa || x.lop || x.tim) * 128 + x.mode * 64 + x.txWidth % 4 * 16 + nextWidth s i % 4 * 4
  let trace := (bytesOfWords x.txTrace).getD x.txMfi 0
  beBytes 8 alignWord ++ [BitVec.ofNat 8 x.txMfi, trace, BitVec.ofNat 8 status, BitVec.ofNat 8 s.link.card, BitVec.ofNat 8 x.txBip, 0, 0, 0]
    ++ beBytes 4 (protWord s) ++ List.replicate 12 0
    ++ List.replicate 8 (if x.askBack then 0xFF#8 else 0#8) ++ List.replicate 88 0

/-- A transmit width change is due: announced for 64 Plait frames, at MFI 0 (R416). -/
def widthDue (s : State) (i : Nat) : Bool :=
  nextWidth s i ≠ (sideAt s i).txWidth && nextWidth s i = (sideAt s i).told && 64 ≤ (sideAt s i).announced && (sideAt s i).txMfi = 0

/-- The lane group changes its width; lanes that leave it are requested idle (R416). -/
def changeWidth (i : Nat) (s : State) : State :=
  let goal := nextWidth s i
  let leave := ((List.range (widthLanes (sideAt s i).txWidth)).filter fun k => widthLanes goal ≤ k).map (sideLane i)
  forEach leave (fun l s => if (laneAt s l).st = .active && (laneAt s l).cfg.idle = 1 then laneTo l .idle s else s)
    (updSide i (fun x => { x with txWidth := goal, announced := 0 }) s)

/-- WIDTH_CHANGE of a side. -/
def execWidthChange (side : Nat) (s : State) : Res :=
  onObject (side < 2) <| whenever (widthDue s side) (changeWidth side) s

/-- The lanes of a side's transmit group (R403). -/
def txGroup (s : State) (i : Nat) : List Nat := (List.range (widthLanes (sideAt s i).txWidth)).map (sideLane i)

/-- A Plait frame is sent: a due width change first, then the overhead and 63 cells, scrambled, on the lanes of the group. In the first
two codewords after a lane's exit every cell is idle (R395). -/
def transmitPlait (i : Nat) (s : State) : State :=
  let s1 := whenever (widthDue s i) (changeWidth i) s
  let s2 := openContexts 64 i (discardStuck i s1)
  let head := overheadBytes s2 i
  let next := nextWidth s2 i
  let (cells, s3) := if (txGroup s2 i).any (quietLane s2) then ((List.replicate 63 idleCell).flatten, countEvent 0x4A 0x101 0x0100 63 s2)
                     else sendCells 63 i s2
  let bytes := scramblePlait (head ++ cells)
  sendPlait i bytes (emit (.plait i bytes) (updSide i (fun x => { x with
    txMfi := (x.txMfi + 1) % 64, txBip := bip8 bytes, told := next,
    announced := if next = x.txWidth then 0 else if next = x.told then x.announced + 1 else 1 }) s3))

/-- PLAIT_FRAME_TRANSMIT of a side in service, whose domain has power (R441). -/
def execPlaitFrameTransmit (side : Nat) (s : State) : Res :=
  onObject (side < 2) <| whenever ((sideAt s side).enable && powered s (0x40 + side)) (transmitPlait side) s

/-! ## PLAIT_CONFIG (R415) -/

/-- The parameter word whose field is outside its range. -/
def plaitBad (ws : List Word) : Option Nat :=
  let w0 := nthW ws 0
  if fld w0 23 21 = 0 || fld w0 19 16 = 0 || fld w0 11 0 = 0 then some 0
  else if fld (nthW ws 1) 31 16 = 0 || 1000 < fld (nthW ws 1) 31 16 then some 1
  else none

/-- PLAIT_CONFIG. Lanes that join a wider group are requested to exit first (R416). -/
def runPlaitConfig (c : Ctx) (s : State) : HRes :=
  let w0 := c.w 0
  let i := fld w0 31 31
  let x := sideAt s i
  match plaitBad c.words with
  | some k => .refuse .badParam [wd k]
  | none =>
    refuseIf (s.link.sel.side = i && (fld w0 30 30 ≠ x.mode || !bit w0 26)) .notPermitted [] <|
    let width := fld w0 29 28
    let s1 := updSide i (fun x => { x with
      mode := fld w0 30 30, width := width, timAct := bit w0 27, enable := bit w0 26, n := fld w0 23 21, m := fld w0 19 16,
      excTh := fld w0 11 0, txTrace := slice16 c.words 2, expTrace := slice16 c.words 18 }) s
    let s2 := { s1 with link := { s1.link with card := fld (c.w 1) 5 0, pauseMs := fld (c.w 1) 31 16 } }
    let joins := ((List.range (widthLanes width)).filter fun k => widthLanes x.txWidth ≤ k).map (sideLane i)
    let s3 := forEach joins askExit s2
    .done (updateSf (followTim i (lanesFollow s3))) []
where
  /-- Sixteen words from a place. -/
  slice16 (ws : List Word) (at_ : Nat) : List Word := (ws.drop at_).take 16

def opPlaitConfig : OpSpec :=
  { code := 0x8004, home := (0x0A, 2), oWorld := true, len := exactly 34, rsv := masks [0x0310F000#32, 0x0000FFC0#32],
    stage := .stageable, objs := fun ws => [(0x8004, fld (nthW ws 0) 31 31), (0x8004, 2)], run := runPlaitConfig }

/-! ## Protection (R417 to R419) -/

/-- PROTECTION_HOLD_OFF: the SF of a side has persisted for HOLD_OFF. -/
def execProtectionHoldOff (side : Nat) (s : State) : Res :=
  onObject (side < 2) <|
    whenever (sideFails s side && passed s (mgetD s.link.sel.sfSince side s.mono) (s.link.sel.holdOff * 10 * us)) updateSf s

/-- The wait-to-restore timer expires: PREF is selected. -/
def restore (s : State) : State := selectorMove (moveTo s.link.sel.pref false (updSel (fun x => { x with st := .nr }) s))

def execWtrExpiry (s : State) : Res :=
  .next (whenever (s.link.sel.st = .wtr && passed s s.link.sel.wtrAt (s.link.sel.wtrS * sec)) restore s)

/-- The request of PROTECTION_COMMAND (Table 13.8). -/
def request (req side : Nat) (s : State) : State :=
  match req with
  | 1 => if s.link.sel.st = .fs || s.link.sel.st = .ms then updSel (fun x => { x with st := .nr }) s else s
  | 2 => if s.link.sel.st = .nr || s.link.sel.st = .wtr then moveTo side false (updSel (fun x => { x with st := .ms }) s) else s
  | 3 => moveTo side false (updSel (fun x => { x with st := .fs }) s)
  | _ => s

/-- PROTECTION_COMMAND. -/
def runProtectionCommand (c : Ctx) (s : State) : HRes :=
  let w := c.w 0
  let req := fld w 31 29
  let side := fld w 28 28
  refuseIf (4 ≤ req || 50 < fld w 25 16 || fld w 15 0 < 10 || 720 < fld w 15 0) .badParam [0] <|
  refuseIf (req = 2 && (sideFails s side || s.link.sel.st = .fs)) .notPermitted [] <|
  let s1 := updSel (fun x => { x with pref := fld w 27 27, revertive := bit w 26, holdOff := fld w 25 16, wtrS := fld w 15 0 }) s
  .done (updateSf (request req side s1)) []

def opProtectionCommand : OpSpec :=
  { code := 0x8005, home := (0x0A, 2), oWorld := true, len := exactly 1, stage := .stageable, objs := fun _ => [(0x8005, 0)],
    run := runProtectionCommand }

/-! ## Uplink ports (R420, R421) -/

/-- Alter an uplink port. -/
def updUp (p : Nat) (f : UplinkPort → UplinkPort) (s : State) : State :=
  { s with link := { s.link with ports := mset s.link.ports p (f (upPort s p)) } }

/-- An uplink port is configured and enabled. -/
def upEnabled (s : State) (p : Nat) : Bool :=
  uplinkRate s p ≠ 0 && (mgetD s.link.uplinks (p / 4) {}).portEn.testBit (p % 4)

/-- What the secured ports reserve in a direction (R287). -/
def reservedAll (s : State) (dir : Nat) : Nat := reservedBut s dir 80

/-- The ports of a group that stop or start with a setting: a port that is not enabled is down. -/
def portsFollow (g : Nat) (was : State) (s : State) : State :=
  forBelow 4 (fun i s =>
    let p := g * 4 + i
    if upEnabled s p = upEnabled was p && uplinkRate s p = uplinkRate was p then s
    else updUp p (fun _ => { clearSince := s.mono }) s) s

/-- UPLINK_CONFIG. -/
def runUplinkConfig (c : Ctx) (s : State) : HRes :=
  let w := c.w 0
  let g := fld w 1 0
  let x := mgetD s.link.uplinks g {}
  let new : UplinkGroup := { portEn := fld w 31 28, fec := fld w 25 24, arrange := fld w 17 16 }
  refuseIf (c.inst ≠ g) .badTarget [] <|
  refuseIf (x.arrange ≠ new.arrange && x.arrange ≠ 0 && new.arrange ≠ 0) .notPermitted [] <|
  refuseIf (2 ≤ new.fec || new.arrange = 3 || (new.arrange = 2 && 2 ≤ new.portEn)) .badParam [0] <|
  let s1 := { s with link := { s.link with uplinks := mset s.link.uplinks g new } }
  let past (d : Nat) : Bool := encCapacity < reservedAll s1 d && reservedAll s d < reservedAll s1 d
  let short (d : Nat) : HRes := .refuse .noBandwidth [wd (encCapacity - reservedAll s d)]
  if past 0 then short 0
  else if past 1 then short 1
  else .done (lanesFollow (portsFollow g s (if new.arrange = 0 then s1 else needDomains [0x30 + g] s1))) []

def opUplinkConfig : OpSpec :=
  { code := 0x8001, home := (0x0A, 1), oWorld := true, len := exactly 1, rsv := masks [0x0CFCFFFC#32], stage := .stageable,
    objs := fun ws => [(0x8001, fld (nthW ws 0) 1 0)], run := runUplinkConfig }

/-- Local or remote fault of an uplink port starts or ends: a fault takes the port down at once. In local fault the port sends remote fault
(R421, IEEE 802.3). -/
def uplinkFault (p : Nat) (local_ remote : Bool) (s : State) : State :=
  whenever (local_ ≠ (upPort s p).localFault) (emit (.remoteFault p local_)) <|
    updUp p (fun x => { localFault := local_, remoteFault := remote, up := x.up && !local_ && !remote,
                        clearSince := if x.localFault || x.remoteFault then s.mono else x.clearSince }) s

def execUplinkFaultChange (port : Nat) (local_ remote : Bool) (s : State) : Res :=
  onObject (port < 16) (uplinkFault port local_ remote s)

/-- 10 ms without a fault bring an enabled port up. -/
def execUplinkPortUp (port : Nat) (s : State) : Res :=
  onObject (port < 16) <|
    whenever (upEnabled s port && !(upPort s port).localFault && !(upPort s port).remoteFault
        && passed s (upPort s port).clearSince (10 * ms)) (updUp port fun x => { x with up := true }) s

/-- A MAC control frame of PAUSE or priority flow control. -/
def isPause (bs : List Byte) : Bool :=
  etherType bs = 0x8808 && (beNat (slice bs 14 2) = 0x0001 || beNat (slice bs 14 2) = 0x0101)

/-- FRAME_INGRESS: a frame completes at an ingress unit that receives plain frames: an uplink port or a fabric side
(source 64 to 81), its source card being given for a fabric side. A recognised PTP frame bypasses the slices (R428). -/
def execFrameIngress (source card : Nat) (bytes : List Byte) (fits : Bool) (s : State) : Res :=
  onObject (64 ≤ source && source < 82 && card < 64)
    (if source < 80 && recognised s (source - 64) bytes then ptpReceive (source - 64) bytes s
     else ingress { frame := { source := source, card := if source < 80 then 0 else card, bytes := bytes } } fits s)

/-- An uplink frame: a bad FCS and PAUSE frames are dropped, PTP frames recognised, others enter (R421, R428); such a
frame is a wake event from S2 on (Table 15.5). -/
def uplinkReceive (p : Nat) (bs : List Byte) (fits : Bool) (s : State) : State :=
  if withFcs bs ≠ bs then bump (cPlait 19) 1 p s
  else if isPause bs then bump (cPlait 20) 1 p s
  else if recognised s p bs then ptpReceive p bs s
  else
    let s1 := if keeperPath s then noteWake 3 s else s
    ingress { frame := { source := 64 + p, bytes := bs } } fits s1

/-- UPLINK_FRAME_RECEIVE on an enabled port without a local fault. -/
def execUplinkFrameReceive (port : Nat) (bytes : List Byte) (fits : Bool) (s : State) : Res :=
  onObject (port < 16) <| whenever (upEnabled s port && powered s (0x30 + port / 4) && !(upPort s port).localFault) (uplinkReceive port bytes fits) s

end Sys2Proof.Machine
end

