-- ==== Sys2Proof/Machine/Halter.lean ====
section
/-! DEFINITION. Power domains and Halter: entry, keeper forwarding, wake and lost banks (chapter 15). -/

namespace Sys2Proof.Machine

/-! ## Lost banks (R458, R459) -/

/-- The counters of Table 15.8 by position. -/
def cHalter (pos : Nat) : Nat := cid 15 8 pos

/-- The banks that the macros of some restore are found to fail in: a macro fails where its CRC differs from its signature, which for
a linear code is where the CRC of the bits that read back wrong is not 0 (R457, R458). -/
def lostBanks (ups : List Upset) : List Nat :=
  ((ups.filter fun u => u.place < 1824 && crc64 u.bytes ≠ 0).map fun u => macroBank u.place).eraseDups

/-- The domain that a retention bank of Table 15.3 belongs to: MAC_n to FS_n, the others to CORE. -/
def bankDomain (b : Nat) : Nat := if b < 4 then b else 0xF0

/-- The tables of a lost bank are invalidated (Table 15.6). -/
def invalidate (b : Nat) (s : State) : State :=
  if b < 4 then setMac b {} s
  else match b with
  | 4 => { s with rules := { s.rules with lpm := [] } }
  | 5 => { s with rules := { s.rules with versions := mmap s.rules.versions fun _ v => { v with trees := [] } } }
  | 6 => { s with rules := { s.rules with bank := {}, prev := {} } }
  | _ => { s with tm := { s.tm with queues := mmap s.tm.queues (fun _ q => { q with enable := false }), nodes := [],
                                      profiles := [], quotas := [], groups := [], gates := [] } }

/-- BANK_LOST: a signature of a bank fails; it is recorded, reported and counted once. -/
def bankLost (b : Nat) (s : State) : State :=
  if 8 ≤ b || s.halter.lost.contains b then s
  else
    let s1 := invalidate b { s with halter := { s.halter with lost := s.halter.lost ++ [b] } }
    recordEv 0x0008 8 0x0D 0 0 0x0100 [wd b] (raise 0x0D 0 0 b 0x0D10 1 (wd b) (bump (cHalter 8) 0 b s1))

/-- CORE has been without power: the on-die pool and the owner records are lost, the pool's ring is rebuilt, and the counter
cache is empty (R451, Table 15.7). -/
def coreRestart (s : State) : State :=
  { s with mem := { s.mem with
      pools := mset s.mem.pools 0 (poolReset 0), owners := [], ondie := [], cached := [], dirty := [], stored := [] } }

/-- Gated domains are powered: their clocks restart, and the macros of their banks are checked against their signatures; `ups` are those
that read back wrong (R458). -/
def powerDomains (ds : List Nat) (ups : List Upset) (s : State) : State :=
  let mine := ds.filter s.halter.gated.contains
  let s1 := { s with halter := { s.halter with gated := s.halter.gated.filter fun d => !mine.contains d } }
  let s2 := forEach (mine.flatMap domainIslands) startCycle (if mine.contains 0xF0 then coreRestart s1 else s1)
  forEach ((lostBanks ups).filter fun b => mine.contains (bankDomain b)) bankLost s2

/-- DOMAIN_RESTORE: in Halter an access needs a gated domain. -/
def execDomainRestore (domain : Nat) (failing : List Upset) (s : State) : Res :=
  .next (whenever (s.halter.stage = .halter) (powerDomains [domain] failing) s)

/-! ## DOMAIN_CONTROL (R441, R442, R452) -/

/-- A domain code of Table 15.1. -/
def isDomain (d : Nat) : Bool :=
  d < 4 || (0x10 ≤ d && d < 0x14) || (0x20 ≤ d && d < 0x24) || (0x30 ≤ d && d < 0x34) || d = 0x40 || d = 0x41
    || d = 0x50 || d = 0x51 || (0x80 ≤ d && d < 0xC0) || d = 0xF0

/-- An off that Table 15.1 permits outside Halter. -/
def offPermitted (s : State) (d : Nat) : Bool :=
  if d < 4 then (List.range 4).any fun k => k ≠ d && powered s k && !s.halter.leaving.contains k
  else if 0x20 ≤ d && d < 0x24 then (List.range 16).all fun i => (cfgAt s ((d - 0x20) * 16 + i)).mode = 0
  else if 0x30 ≤ d && d < 0x34 then (mgetD s.link.uplinks (d - 0x30) {}).arrange = 0
  else if d = 0x40 || d = 0x41 then s.link.sel.side ≠ d - 0x40
  else if 0x80 ≤ d && d < 0xC0 then (cfgAt s (d - 0x80)).mode = 0
  else false

/-- The macros that a command's access in Halter finds with one bit wrong, as they come with the command. -/
def upsetsOf (answers : List Nat) : List Upset := answers.map fun m => { place := m, bytes := [1] }

/-- DOMAIN_CONTROL. The macros whose check fails on an access in Halter come with the command. -/
def runDomainControl (c : Ctx) (s : State) : HRes :=
  let d := fld (c.w 0) 7 0
  let on := bit (c.w 0) 31
  let reply (s : State) : HRes := .done s [wd (b2n (powered s d))]
  refuseIf (!isDomain d) .badParam [0] <|
  if on then
    reply (updateSf (lanesFollow (powerDomains [d] (if s.halter.stage = .halter then upsetsOf c.answers else [])
      { s with halter := { s.halter with leaving := s.halter.leaving.filter (· ≠ d), before := s.halter.before.filter (· ≠ d) } })))
  else
    refuseIf (!offPermitted s d || (s.halter.stage = .halter && powered s d)) .notPermitted [] <|
    if !powered s d then reply s
    else if d < 4 then reply (gateLeaving { s with halter := { s.halter with leaving := s.halter.leaving ++ [d] } })
    else reply (updateSf (lanesFollow (gateOff d s)))

def opDomainControl : OpSpec :=
  { code := 0xA003, home := (0x0D, 0), oWorld := true, len := exactly 1, rsv := masks [0x7FFFFF00#32], run := runDomainControl }

/-! ## PATINA_SCAN (R452, R480) -/

/-- The bytes of the entries of a plan (Table 16.6): 24 rails of two words and 80 lanes of one. -/
def planBytes : Nat := 512

/-- PATINA_SCAN goes on until PATINA_SCAN_COMPLETE. In Halter it powers the rails' domains (R452). A result buffer too small for the
entries refuses it before it takes effect (R47). -/
def runPatinaScan (c : Ctx) (s : State) : HRes :=
  refuseIf (c.hasBuf && c.bufLen < planBytes) .noSpace [wd (planBytes / 4)] <|
  refuseIf s.pat.scanning .noSpace [] <|
  let rails := s.halter.gated.filter fun d => bit (c.w 0) 0 && (List.range 14).any fun r => railDomain r = some d
  let s1 := if s.boot.state = .halter then powerDomains rails (upsetsOf c.answers) s else s
  .wait { s1 with pat := { s1.pat with scanning := true, early := s.pat.due || s.pat.nextHours ≤ opHours s } } [(c.w 0).toNat]

def opPatinaScan : OpSpec :=
  { code := 0xB007, home := (0x0C, 3), oWorld := true, len := exactly 1, rsv := masks [0x7FFFFFFC#32], run := runPatinaScan }

/-! ## Entry (R453) -/

/-- The normal path between distributor and enqueue holds no frame. -/
def pathEmpty (s : State) : Bool :=
  s.pkt.flights.all fun e => e.2.place = .ingress || e.2.place = .array || e.2.place = .held

/-- Every queue of the traffic manager is empty. -/
def queuesEmpty (s : State) : Bool := s.tm.queues.all fun e => e.2.held.isEmpty

/-- The work of an entry stage that has an observable end is done (Table 15.4). -/
def stageDone (s : State) : Bool :=
  match s.halter.stage with
  | .s1 => true
  | .s2 => pathEmpty s && (List.range 2).all fun i => !(sideAt s i).enable || (sideAt s i).txWidth = 3
  | .s3 => pathEmpty s && queuesEmpty s
  | .s4 => true
  | .s5 => true
  | _ => false

/-- The abort point at a stage's end. -/
def abortPoint (st : HalterStage) : Nat :=
  match st with
  | .s1 => 1 | .s2 => 2 | .s3 => 3 | .s4 => 4 | .s5 => 5 | _ => 0

/-- HALTER_ENTER. -/
def runHalterEnter (_c : Ctx) (s : State) : HRes :=
  refuseIf (s.boot.state ≠ .ready || s.halter.stage ≠ .outside) .notPermitted [] <|
  refuseIf (s.epoch.phase ≠ .none) .epochBusy [] <|
  refuseIf (s.rules.versions.any fun e => e.2.st = .draining) .versionBusy [] <|
  refuseIf s.mem.retiring.isSome .noSpace [] <|
  .wait { s with halter := { s.halter with stage := .s1, since := s.mono, wake := none, cache := [], buffer := [],
                                             before := s.halter.gated } } []

def opHalterEnter : OpSpec :=
  { code := 0xA001, home := (0x0D, 0), oWorld := true, len := exactly 0, run := runHalterEnter }

/-- HALTER_EXIT is a wake event; it ends with the wake or the rewind (R455, R456, R460). -/
def runHalterExit (_c : Ctx) (s : State) : HRes :=
  refuseIf (s.halter.stage = .outside) .notPermitted [] <| .wait (noteWake 1 s) []

def opHalterExit : OpSpec :=
  { code := 0xA002, home := (0x0D, 0), oWorld := true, len := exactly 0, run := runHalterExit }

/-- A frame still queued 5 ms into S3 is dropped. -/
def cDropHalter : Nat := cHalter 4

/-- HALTER_S3_TIMEOUT: every frame still queued is dropped in DROP_HALTER of its world (R453). -/
def dropQueued (s : State) : State :=
  forEach s.tm.queues (fun e s =>
    let s1 := forEach e.2.held (fun h s => bumpW cDropHalter 0 0 h.frame.world (freeFrame h.frame s)) s
    settleQueue e.1 { s1 with tm := { s1.tm with queues := mset s1.tm.queues e.1 { e.2 with held := [], drop := e.2.drop + e.2.held.length } } }) s

def execHalterS3Timeout (s : State) : Res :=
  .next (whenever (s.halter.stage = .s3 && passed s s.halter.since (5 * ms)) dropQueued s)

/-- S4: Osier caches return to their rings, Hide flushes, and signatures are computed over the final contents (R453). -/
def flushAll (s : State) : State :=
  let s1 := flushTree (forBelow 16 (fun p s => spill p (runLen (poolAt s p).cache) s) s)
  signAll { s1 with halter := { s1.halter with lost := [] } }

/-- An uplink group keeps its power in Halter while a port of it has PTP MODE 1 (R443). -/
def groupStays (s : State) (g : Nat) : Bool := (List.range 4).any fun i => (ptpAt s (g * 4 + i)).mode = 1

/-- In Halter an uplink group that no longer stays is off, and its ports are down (R443). -/
def gateGroup (g : Nat) (s : State) : State :=
  if s.halter.stage ≠ .halter || groupStays s g || !powered s (0x30 + g) then s
  else lanesFollow (forBelow 4 (fun k s => updUp (g * 4 + k) (fun _ => {}) s) (gateDomain (0x30 + g) s))

/-- PTP_CONFIG (R429). -/
def runPtpConfig (c : Ctx) (s : State) : HRes :=
  if bit (c.w 0) 31 then
    match ptpPort c s with
    | .done t ws => .done (gateGroup (fld (c.w 0) 3 2) t) ws
    | r => r
  else ptpClock c s

def opPtpConfig : OpSpec :=
  { code := 0x9003, home := (0x0B, 2), oWorld := true,
    len := fun ws => if bit (nthW ws 0) 31 then ws.length = 1 else ws.length = 6,
    rsv := fun ws => if bit (nthW ws 0) 31 then masks [0x070000F0#32] ws else masks [0x0F000000#32, 0, 0, 0x0000FFFF#32] ws,
    stage := .stageable, objs := fun ws => [(0x9003, if bit (nthW ws 0) 31 then 1 + fld (nthW ws 0) 3 0 else 0)], run := runPtpConfig }

/-- The domains that Halter gates (Table 15.1): receive paths are cycled from then on. -/
def halterGates (s : State) : List Nat :=
  [0, 1, 2, 3, 0x12, 0x13, 0x21, 0x22, 0x23, 0xF0] ++ ((List.range 4).filter fun g => !groupStays s g).map (0x30 + ·)
    ++ (List.range 64).map (0x80 + ·)

/-- S5: domains are gated, HBM enters self-refresh, WL_1's clock stops, and the ports of gated uplink groups are down (Table 15.1). -/
def gateAll (s : State) : State :=
  let s0 := forEach (halterGates s) gateDomain s
  let s1 := { s0 with halter := { s0.halter with refresh := true, wl1Stopped := true } }
  lanesFollow (forBelow 16 (fun p s => if powered s (0x30 + p / 4) then s else updUp p (fun _ => {}) s) s1)

/-- Lanes of the fabric sides that wait idle are requested to exit (R416, Table 15.7). -/
def wakeLanes (s : State) : State :=
  forBelow 64 (fun k s => askExit (16 + k) s) s

/-- A module-fatal error noted as a wake event is handled once the module is out of Halter (R470). -/
def safeAfter (s : State) : State :=
  if s.flt.cause ≠ 0 && s.boot.state ≠ .safe then freeze s else s

/-- HALTER_REWIND at an abort point (R455): the stages are undone, HALTER_ENTER replies ABORTED and a HALTER_EXIT OK. The
frames that the keeper holds are at their ingress again. -/
def rewind (ap : Nat) (failing : List Upset) (s : State) : State :=
  let cause := s.halter.wake.getD 0
  let s1 := powerDomains (s.halter.gated.filter fun d => !s.halter.before.contains d) failing s
  let s2 := { s1 with halter := { s1.halter with stage := .outside, grantMode := false, cache := [], buffer := [], wake := none, refresh := false, wl1Stopped := false } }
  let s3 := bump (cHalter 6) 0 ap (wakeLanes (lanesFollow s2))
  let s4 := finishAll 0xA001 (fun s => .ended s .aborted [wd ap, wd cause]) s3
  safeAfter (finishAll 0xA002 (fun s => .done s [0]) s4)

/-- Entry to a stage. -/
def toStage (st : HalterStage) (s : State) : State := { s with halter := { s.halter with stage := st, since := s.mono } }

/-- The end of S5: the status block shows HALTER, the command replies and STATE_CHANGE is sent (R453). -/
def inHalter (s : State) : State :=
  let s1 := toStage .halter { s with boot := { s.boot with state := .halter } }
  let s2 := { s1 with halter := { s1.halter with enteredTc := s.time.tc, enteredAt := s.mono } }
  stateChange 0x0A01 [] (finishAll 0xA001 (fun s => .done s []) (bump (cHalter 5) 0 0 s2))

/-- HALTER_STAGE_END: the stage's work is done; entry continues, or rewinds if a wake event has been noted (R453, R454). -/
def stageEnd (failing : List Upset) (s : State) : State :=
  let st := s.halter.stage
  let s1 := if st = .s4 then flushAll s else if st = .s5 then gateAll s else s
  if s1.halter.wake.isSome then rewind (abortPoint st) failing s1
  else match st with
  | .s1 => toStage .s2 { s1 with halter := { s1.halter with grantMode := true } }
  | .s2 => toStage .s3 s1
  | .s3 => toStage .s4 s1
  | .s4 => toStage .s5 s1
  | .s5 => inHalter s1
  | _ => s1

/-! ## Wake (R460 to R462) -/

/-- The lost-bank bitmap. -/
def lostBits (s : State) : Word := wd (s.halter.lost.foldl (fun a b => a + 2 ^ b) 0)

/-- The time spent in Halter, in units of the time counter. -/
def halterTime (s : State) : Nat := s.time.tc - s.halter.enteredTc

/-- Every learned entry is removed and counted where Halter has lasted AGE_S or longer (R462). -/
def ageAll (s : State) : State :=
  if halterTime s < s.rules.bank.ageS * 1000000000 * nsUnit then s
  else forBelow 4 (fun k s =>
    let gone := (macEntries (macAt s k)).filter fun e => !e.static
    forEach gone (fun e s => bumpSlice 5 k e.world s) (setMac k (macRemove (macAt s k) fun e => !e.static) s)) s

/-- Stitch's release points are set as R247 sets them on enable. -/
def stitchRestart (s : State) : State :=
  forBelow 85 (fun src s => if mgetD s.rules.bank.stitch src true then setRelease src (mgetD s.rules.nextSeq src 0) s else s) s

/-- HALTER_WAKE at 40 µs (Table 15.7). -/
def halterWake (failing : List Upset) (s : State) : State :=
  let cause := s.halter.wake.getD 0
  let secs := halterTime s / (1000000000 * nsUnit)
  let ns := halterTime s / nsUnit % 1000000000
  let s1 := stitchRestart (ageAll (powerDomains s.halter.gated failing s))
  let s2 := { s1 with
    halter := { s1.halter with stage := .outside, grantMode := false, cache := [], buffer := [], wake := none, refresh := false, wl1Stopped := false }
    boot := { s1.boot with state := .ready } }
  let s3 := bump (cHalter 7) 0 cause (wakeLanes (lanesFollow s2))
  let s4 := finishAll 0xA002 (fun s => .done s [lostBits s, wd secs, wd ns]) s3
  safeAfter (stateChange 0x0A02 [wd cause, lostBits s4] s4)

/-- A wake event has been noted in Halter, and 40 µs have passed. -/
def wakeDue (s : State) : Bool := s.halter.stage = .halter && s.halter.wake.isSome && passed s s.halter.since (40 * us)

/-! ## Keeper forwarding (R446 to R448) -/

/-- The bytes in the keeper buffer, and those of a world. -/
def keeperBytes (s : State) (of_ : Nat → Bool) : Nat :=
  ((s.halter.buffer.filter fun f => of_ f.world).map KeeperFrame.len).foldl (· + ·) 0

/-- The keeper releases frames: in Halter, in S4 and S5, and in S3 once every queue is empty. -/
def keeperReleases (s : State) : Bool :=
  match s.halter.stage with
  | .s3 => queuesEmpty s
  | .s4 => true
  | .s5 => true
  | .halter => true
  | _ => false

/-- The port or egress of an outcome, its queue, and the node whose peak bucket it is charged to: the terminal node, or the
network tenant node. -/
def keeperRoot (s : State) (o : Outcome15) : NodeId :=
  if destKind o.dest = 0 then ⟨0, 0, termPort s (destIndex o.dest)⟩ else ⟨1, 0, 16⟩
def keeperQueue (o : Outcome15) : NodeId := ⟨if destKind o.dest = 0 then 0 else 1, 4, o.queue⟩
def keeperNode (s : State) (o : Outcome15) : NodeId :=
  if destKind o.dest = 0 then ⟨0, 3, o.queue / 8⟩ else ⟨1, 2, (queueAt s (keeperQueue o)).parent⟩

/-- A frame whose tag check is still to come may leave for an unsecured fabric card only (R301). -/
def keeperAhead (s : State) (root : NodeId) (k : KeeperFrame) (o : Outcome15) : Bool :=
  ((flightAt s k.frame).all fun x => !x.frame.wait) || (root.side = 1 && destKind o.dest = 2 && !secured s (16 + destIndex o.dest) 0)

/-- The first frame of a FIFO of an egress that may leave now. -/
def fifoHead (s : State) (root : NodeId) (fifo : Nat) : Option (KeeperFrame × Outcome15) :=
  let fs := s.halter.buffer.filterMap fun f => f.hit.map fun o => (f, o)
  match fs.find? fun e => e.1.fifo = fifo && keeperRoot s e.2 = root with
  | some e => if openAny s (keeperNode s e.2) && keeperAhead s root e.1 e.2 then some e else none
  | none => none

/-- The next frame of an egress: strict priority over its FIFOs, 7 first. -/
def egressNext (s : State) (root : NodeId) : Option (KeeperFrame × Outcome15) :=
  ((List.range 8).reverse.filterMap (fifoHead s root)).head?

/-- The frame with its outcome, as it leaves. -/
def keeperFrame (f : Frame) (o : Outcome15) : Frame :=
  { f with world := o.world, cls := o.cls, colour := o.colour, queue := o.queue, dir := if destKind o.dest = 0 then 0 else f.dir,
           card := if destKind o.dest = 0 then f.card else destIndex o.dest, pool := 0, cells := [], lists := [] }

/-- A direction of the keeper, 0 downstream and 1 upstream, may send: at 10 Gb/s the frame before has left (R448). -/
def keeperFree (s : State) (dir : Nat) : Bool := mgetD s.halter.sendAt dir 0 ≤ s.mono

/-- A frame of some bytes leaves the keeper in a direction: at 10 Gb/s a byte takes 800 ps (R448). -/
def keeperBusy (dir len : Nat) (s : State) : State :=
  { s with halter := { s.halter with sendAt := mset s.halter.sendAt dir (s.mono + len * 800) } }

/-- A frame leaves the keeper: charged to its peak bucket, counted by direction (0 downstream, 1 upstream). -/
def keeperSend (root : NodeId) (k : KeeperFrame) (o : Outcome15) (s : State) : State :=
  match flightAt s k.frame with
  | none => { s with halter := { s.halter with buffer := s.halter.buffer.filter fun f => f.frame ≠ k.frame } }
  | some x =>
    let f := keeperFrame x.frame o
    let s1 := keeperBusy root.side f.len { s with halter := { s.halter with buffer := s.halter.buffer.filter fun f => f.frame ≠ k.frame } }
    let s2 := updNode (keeperNode s o) (fun n => { n with shaper := n.shaper.map fun h =>
      { h with pTok := h.pTok - ((f.len : Int) + h.overhead) * byteUnit } }) s1
    let s3 := bumpBy { cid := cHalter 1, idx := root.side } f.len (bump (cHalter 0) 0 root.side s2)
    countEvent 0x4D 0x100 f.world 1 <| sendFrame root (keeperQueue o) f (endFlight k.frame (epochOut x.frame.epoch (leaveVersion k.frame s3)))

/-- The egresses with a frame in the keeper. -/
def keeperRoots (s : State) : List NodeId := (s.halter.buffer.filterMap fun f => f.hit.map (keeperRoot s)).eraseDups

/-- Serve every egress while it has a frame that may leave. -/
def keeperServe (fuel : Nat) (s : State) : State :=
  match fuel with
  | 0 => s
  | n + 1 =>
    match (keeperRoots s).findSome? fun r => if rootReady s r && keeperFree s r.side then (egressNext s r).map fun e => (r, e) else none with
    | some (r, k, o) => keeperServe n (keeperSend r k o s)
    | none => s

/-- Serve the keeper's frames where it releases. -/
def keeperRun (s : State) : State := if keeperReleases s then keeperServe s.halter.buffer.length s else s

/-- The keeper's lookup: the parse of R200 and the cache; an exception finds nothing. -/
def keeperLookup (x : Flight) (s : State) : Option Outcome15 :=
  let g := graphOf ((bankOf s x.frame).getD s.rules.bank)
  let w := walkGraph g (fld (nthW g.sourceSel x.frame.source) 7 0) x.frame.bytes x.frame.len
  if w.exc ≠ 0 || x.direct then none else s.halter.cache.find? fun o => o.key = keeperKey (keyOf x.frame w)

/-- KEEPER_FRAME (R447, R448): a hit takes the recorded outcome, a miss is a wake event and is held. -/
def keeperTake (id : Nat) (x : Flight) (s : State) : State :=
  let hit := keeperLookup x s
  let world := match hit with | some o => o.world | none => x.frame.world
  let len := x.frame.len
  let s := frameIn 0x4D world len s
  if (match x.chan with | some w => !serves w world | none => false) then dropCounted cDropWorld 0 0 id s
  else if 16 * (quotaAt s world).ondie < keeperBytes s (· = world) + len || 8388608 < keeperBytes s (fun _ => true) + len then
    bumpW (cHalter 2) 0 0 world (dropFlight id s)
  else
    let cls := match hit with | some o => o.cls | none => 0
    let s1 := { s with halter := { s.halter with buffer := s.halter.buffer ++
      [{ frame := id, len := len, world := world, hit := hit, fifo := cls / 8 }] } }
    let s2 := if hit.isNone then noteWake 2 (countEvent 0x4D 0x101 world 1 s1) else s1
    keeperRun (if 7864320 < keeperBytes s2 (fun _ => true) then noteWake 4 s2 else s2)

/-- An earlier frame of the same SOURCE has not yet reached the keeper (R280). -/
def keeperEarlier (s : State) (id source : Nat) : Bool :=
  s.pkt.flights.any fun e => e.1 < id && e.2.frame.source = source && !e.2.void
    && (e.2.place = .ingress || e.2.place = .array || e.2.place = .held) && !s.halter.buffer.any fun f => f.frame = e.1

/-- KEEPER_FRAME: a frame at its ingress from S2 on, after those that came before it at its point or port (R280). -/
def execKeeperFrame (frame : Nat) (s : State) : Res :=
  match flightAt s frame with
  | some x =>
    .next (whenever (keeperPath s && x.place = .ingress && !x.void && !keeperEarlier s frame x.frame.source
        && !s.halter.buffer.any fun f => f.frame = frame)
      (if x.frame.poison then dropCounted cDropChannel 9 0x4D frame
       else if (bankOf s x.frame).isNone then dropEpoch frame else keeperTake frame x) s)
  | none => .fault .noSuchObject

/-- PRX_POWER_CYCLE: in Halter a receive path is powered around its granted upstream frames (R445). -/
def execPrxPowerCycle (port : Nat) (on : Bool) (s : State) : Res :=
  onObject (port < 64) <| whenever (s.halter.stage = .halter)
    (if on then powerDomains [0x80 + port] [] else gateDomain (0x80 + port)) s

/-- TIME_TICK: some time ticks of 12.8 ns pass (R423); the keeper's peak buckets are credited with the others. -/
def execTimeTick (ticks : Nat) (s : State) : Res := .next (keeperRun (tick ticks s))

end Sys2Proof.Machine
end

