-- ==== Sys2Proof/Machine/References.lean ====
section
/-! DEFINITION. The reference inputs: loss, fallback and return (R521). -/

namespace Sys2Proof.Machine

/-- A side whose clock is lost moves to REF_3 if that is valid, and retrains. -/
def sideLoses (i : Nat) (s : State) : State :=
  let s1 := if (refAt s 3).valid && !s.power.fallback.contains i then
      { s with power := { s.power with fallback := s.power.fallback ++ [i] } } else s
  retrainSide i s1

/-- A reference is lost (Table 18.9). -/
def refLos (r : Nat) (s : State) : State :=
  let s1 := setRef r false s
  let s2 := if r < 4 then raise 0x0B 0 0 r 0x0B20 1 (wd r) s1 else s1
  let s3 := match r with
    | 1 => if s2.power.fallback.contains 0 then s2 else sideLoses 0 s2
    | 2 => if s2.power.fallback.contains 1 then s2 else sideLoses 1 s2
    | 3 => forEach s2.power.fallback retrainSide s2
    | _ => s2
  trackSources s3

/-- REF_LOS: a reference is absent for 1 µs, or lies more than 300 ppm off for 100 µs. -/
def execRefLos (ref : Nat) (s : State) : Res := onObject (ref < 5) <| whenever (refAt s ref).valid (refLos ref) s

/-- A side without a clock moves to REF_3 once that is valid. -/
def sideFalls (i : Nat) (s : State) : State :=
  if (refAt s (sideRef i)).valid || s.power.fallback.contains i then s else sideLoses i s

/-- REF_RESTORE: a reference has been valid for 10 s. It clears REF_LOS, the sides that may return do, and a restored REF_3 serves
the sides without a clock. -/
def refRestore (r : Nat) (s : State) : State :=
  let s1 := if (refAt s r).valid then s
    else
      let s1 := setRef r true s
      if r < 4 then lower 0x0B 0 0 r 0x0B20 1 s1 else s1
  let s2 := if r = 3 then sideFalls 1 (sideFalls 0 s1) else s1
  trackSources (followRefs s2)

def execRefRestore (ref : Nat) (s : State) : Res := onObject (ref < 5) (refRestore ref s)

/-- SWITCH_TRANSITION_END: 200 µs after a move not caused by SF, the old side is standby (R419); a side that waited on REF_3
for that returns to its reference. -/
def execSwitchTransitionEnd (s : State) : Res :=
  .next (whenever (match s.link.sel.transition with | some t => passed s t (200 * us) | none => false)
    (fun s => followRefs (updSel (fun x => { x with transition := none }) s)) s)

end Sys2Proof.Machine
end

