-- ==== Sys2Proof/Machine/Commands.lean ====
section
/-! DEFINITION. The table of opcodes, the replay of staged content, EPOCH_PREPARE, and the serving of command queues and of
in-band packets (R40, R49, R55, R58 to R60, R70 to R76, R547). -/

namespace Sys2Proof.Machine

/-- The opcodes of group 0x0 (Table 2.7) but for EPOCH_PREPARE. -/
def group0Ops : List OpSpec :=
  [opNop, opIdentify, opStatusRead, opEpochStage, opEpochActivate, opEpochAbort, opQueueBind,
   opImageWrite, opImageStatus, opSettingsStatus, opModuleReset, opInbandConfig, opNotifyMask, opHostqConfig]

/-- The opcodes of group 0x1 (Table 2.7). -/
def group1Ops : List OpSpec :=
  [opPortConfig, opPortState, opTerminalAdd, opTerminalRemove, opPloamSend, opBpmRead, opOpticsAccess, opOmciBind,
   opDiscoveryConfig, opRangingRead, opTerminalRerange]

/-- The opcodes of group 0x2 (Table 2.7). -/
def group2Ops : List OpSpec :=
  [opAllocWrite, opAllocRead, opAllocDelete, opScheduleHint, opCinchBudget, opWeaverStats, opUpstreamGateLoad]

/-- The opcodes of group 0x3 (Table 2.7). -/
def group3Ops : List OpSpec :=
  [opParseGraphLoad, opRuleTreeLoad, opRuleUpdate, opRuleVersionCommit, opRuleVersionStatus, opExceptionConfig]

/-- The opcodes of group 0x4 (Table 2.7). -/
def group4Ops : List OpSpec :=
  [opMacStaticAdd, opMacDelete, opMacLookup, opMacFlush, opAgeingConfig, opLpmAdd, opLpmDelete, opLpmLoad,
   opStitchConfig]

/-- The opcodes of group 0x5 (Table 2.7). -/
def group5Ops : List OpSpec :=
  [opQueueConfig, opSchedNodeConfig, opShaperConfig, opGateListLoad, opQueueStats, opSampleRingConfig,
   opSampleRingRead]

/-- The opcodes of group 0x6 (Table 2.7). -/
def group6Ops : List OpSpec :=
  [opScConfig, opSaConfig, opSaActivate, opPonKeySwitch, opKeyGenerate, opKeyWrap, opShedarUpdate, opSlotErase,
   opSlotInfo, opAttestOperator, opAttestTenant, opEncReserve, opUpdateEpochAdvance, opAlarmStatus]

/-- The opcodes of group 0x7 (Table 2.7). -/
def group7Ops : List OpSpec :=
  [opPoolConfig, opPoolStats, opHideKeyChange, opHideStatus, opRegionReinit, opRightsWrite]

/-- The opcodes of group 0x8 (Table 2.7). -/
def group8Ops : List OpSpec :=
  [opUplinkConfig, opLaneConfig, opLaneStatus, opPlaitConfig, opProtectionCommand, opLaneEyeScan]

/-- The opcodes of group 0x9 (Table 2.7). -/
def group9Ops : List OpSpec :=
  [opTimeRead, opTimeSet, opPtpConfig, opAsymmetrySet, opSynceConfig, opTsQueueRead]

/-- The opcodes of group 0xA (Table 2.7). -/
def groupAOps : List OpSpec :=
  [opHalterEnter, opHalterExit, opDomainControl, opFeedConfig, opPowerStatus]

/-- The opcodes of group 0xB (Table 2.7). -/
def groupBOps : List OpSpec :=
  [opFaultRead, opFaultClear, opRecorderRead, opRecorderErase, opCounterConfig, opCounterRead, opPatinaScan,
   opPatinaStatus, opVfCounterGrant]

/-- The opcodes of Table 2.7 but for EPOCH_PREPARE and the vendor's. -/
def baseOps : List OpSpec :=
  group0Ops ++ group1Ops ++ group2Ops ++ group3Ops ++ group4Ops ++ group5Ops ++ group6Ops ++ group7Ops ++ group8Ops ++ group9Ops ++ groupAOps ++ groupBOps

/-- An opcode of `baseOps`. -/
def baseSpec (code : Nat) : Option OpSpec := baseOps.find? fun o => o.code = code

/-! ## Staged content (R72, R73) -/

/-- A staged command as its handler judges it on a state; `accepting` leaves capacity out. -/
def stagedRun (accepting : Bool) (x : StagedCmd) (s : State) : HRes :=
  match baseSpec x.op with
  | some op => op.run { ctxOf op x.pkt s with accepting := accepting, again := true } s
  | none => .refuse .badOpcode []

/-- Apply staged commands in order; the second part is whether each was accepted. -/
def replay (accepting : Bool) (cs : List StagedCmd) (s : State) : State × Bool :=
  cs.foldl (fun a x => let r := stagedRun accepting x a.1; (r.left a.1, a.2 && r.success)) (s, true)

/-- The state with the staged content applied, and whether all of it fits. -/
def staged (s : State) : State × Bool := ((replay true s.epoch.cmds s).1, (replay false s.epoch.cmds s).2)

/-- The units that a staged command writes: COMPLEX, UNIT, INSTANCE. -/
def stagedUnits (x : StagedCmd) : List (Nat × Nat × Nat) :=
  match baseSpec x.op with
  | some op => unitsOf op x.pkt
  | none => []

/-- A staged command is addressed to a unit out of service. -/
def stagedOut (x : StagedCmd) (s : State) (u : Nat × Nat × Nat) : Bool :=
  match baseSpec x.op with | some op => !everySlice op x.pkt && s.flt.failed.contains u | none => false

/-- The status with which a unit fails a staged command, if it does: it is out of service, or it refuses the command. -/
def stagedStatus (x : StagedCmd) (s : State) (u : Nat × Nat × Nat) : Option Status :=
  if stagedOut x s u then some .unitFailed
  else match stagedRun false x s with
  | .refuse st _ => some st
  | .ended _ st _ => some st
  | _ => none

/-- Note the status of a unit's first failure. -/
def noteFailure (u : Nat × Nat × Nat) (st : Option Status) (fs : List ((Nat × Nat × Nat) × Status)) : List ((Nat × Nat × Nat) × Status) :=
  match st with
  | some st => if fs.any fun f => f.1 = u then fs else fs ++ [(u, st)]
  | none => fs

/-- The units that fail the staged commands, each with the status of its first failure, in the commands' order. -/
def stagedFailures (cs : List StagedCmd) (s : State) : List ((Nat × Nat × Nat) × Status) :=
  (cs.foldl (fun a x =>
    ((stagedRun false x a.1).left a.1, (stagedUnits x).foldl (fun fs u => noteFailure u (stagedStatus x a.1 u) fs) a.2)) (s, [])).2

/-- A target path as words compare: COMPLEX, then UNIT, then INSTANCE. -/
def pathNum (u : Nat × Nat × Nat) : Nat := (u.1 * 256 + u.2.1) * 65536 + u.2.2

/-- The failure with the lowest target path (R73). -/
def lowestFailure (fs : List ((Nat × Nat × Nat) × Status)) : Option ((Nat × Nat × Nat) × Status) :=
  fs.foldl (fun a f => match a with | some b => if pathNum f.1 < pathNum b.1 then some f else a | none => some f) none

/-- The answer of EPOCH_PREPARE once every unit has answered or timed out: `silent` are those that did not (R73). -/
def prepared (silent : List (Nat × Nat × Nat)) (s : State) : HRes :=
  let fs := (stagedFailures s.epoch.cmds s).filter (fun f => !silent.contains f.1)
    ++ silent.eraseDups.map fun u => (u, Status.unitTimeout)
  match lowestFailure fs with
  | none => .done (closeHeldWindows { s with epoch := { s.epoch with phase := .prepared } }) []
  | some (u, st) =>
    .ended (discardEpoch s) .prepareFailed
      [pack [(u.1, 8, 24), (u.2.1, 8, 16), (u.2.2, 16, 0)], wd (statusCode st), wd fs.length]

/-- The staged units that do not answer a packet's EPOCH_PREPARE. -/
def silentOf (p : Packet) (s : State) : List (Nat × Nat × Nat) :=
  p.env.silentUnits.filter fun u => s.epoch.cmds.any fun x => (stagedUnits x).contains u

/-- EPOCH_PREPARE (R70, R73, R544). -/
def runEpochPrepare (c : Ctx) (s : State) : HRes :=
  refuseIf (s.halter.stage = .halter) .notPermitted [] <|
  onCommit c s <|
  refuseIf (s.epoch.phase ≠ .staged) .epochBusy [] <|
  if (silentOf c.pkt s).isEmpty then prepared [] s else .wait s [s.mono]

def opEpochPrepare : OpSpec :=
  { code := 0x0005, writes := false, oWorld := true, home := (0x0C, 0), len := exactly 1, rsv := epochRsv, run := runEpochPrepare }

/-! ## The table of opcodes -/

/-- The opcodes of Table 2.7. -/
def allOps : List OpSpec := opEpochPrepare :: baseOps

/-- An opcode of Table 2.7, vendor diagnostics included. -/
def specOf (code : Nat) : Option OpSpec :=
  if 0xF000 ≤ code && code ≤ 0xFFFF then some (opVendor (code - 0xF000)) else allOps.find? fun o => o.code = code

/-- The handler of an opcode in progress runs again for its packet. -/
def rerun (q : Nat) (s : State) : State :=
  match (pairAt s q).executing with
  | none => s
  | some x =>
    match specOf x.op with
    | none => s
    | some op => finish q (fun s => op.run (ctxOf op x.pkt s) s) s

/-! ## Serving queues (R40, R49, R547) -/

/-- The ground on which a packet with an opcode outside Table 2.7 is refused (R549, steps 1 to 4). -/
def unknownGround (p : Packet) (s : State) : Status × List Word :=
  if p.length.toNat < 8 || 4096 < p.length.toNat then (.badLength, [])
  else match seqGround p s with
  | some g => g
  | none => match headerGround p with | some i => (.badReserved, [wd i]) | none => (.badOpcode, [])

/-- Refuse a fetched packet with an unknown opcode. -/
def executeUnknown (p : Packet) (s : State) : State :=
  let g := unknownGround p s
  replyTo p g.1 g.2 (min 13 g.2.length) (takePacket p (countEvent 0x4C 0x100 p.world.toNat 1 s))

/-- A queue's packets after the first. -/
def dropWritten (q : Nat) (s : State) : State := updPair q (fun x => { x with written := x.written.drop 1 }) s

/-- The entries between CQ_HEAD and CQ_TAIL. -/
def availOf (x : Pair) : Nat := (x.cqTail - x.cqHead).toNat

/-- Fetch and execute a queue's packets while it may (R40, R48, R547). -/
def pump (fuel q : Nat) (s : State) : State :=
  match fuel with
  | 0 => s
  | n + 1 =>
    let x := pairAt s q
    if !canFetch q s || (q < 64 && x.cqHead = x.cqTail) then s
    else match x.written with
    | [] => s
    | w :: _ =>
      if q < 64 && availOf x < entriesOf w.pkt then updPair q (fun x => { x with error := 1 }) s
      else if !w.pkt.env.fetchOk then fetchFault q s
      else match specOf w.op with
      | none => pump n q (executeUnknown w.pkt (dropWritten q s))
      | some op => if heldBack op s then holdBack q s else pump n q (execute op staged w.pkt (dropWritten q s))

/-- The packets that an EPOCH_PREPARE held back execute first, in the order in which they arrived (R48). -/
def pumpHeld (s : State) : State :=
  forEach s.host.heldOrder (pump 1) { s with host := { s.host with heldOrder := [] } }

/-- Every queue fetches while it may. -/
def pumpAll (s : State) : State :=
  let s1 := pumpHeld s
  forEach s1.host.pairs (fun e s => pump (e.2.written.length + 1) e.1 s) s1

/-! ## In-band packets (R58) -/

/-- The counter INBAND_AUTH_FAIL of Table 17.7. -/
def cInbandAuthFail : Nat := cid 17 7 5

/-- The trailer of an in-band packet verifies under the key of the slot that the setting in force at its first cell names, which
permits master INBAND, and that setting enables in-band commands on the side (R58, R78). -/
def inbandAuthentic (set : InbandSet) (side op : Nat) (p : Packet) (s : State) : Bool :=
  flagInbandMac p && set.enable && (if side = 0 then set.sideA else set.sideB)
    && mayUse s set.slot 2 0x0100 useEncrypt
    && Config.cmac (slotBytes s set.slot) (bytesOfWords (headerWords op p ++ p.params)) = p.trailer

/-- An in-band packet whose first cell arrived under a setting is complete: it is discarded and counted, or joins the in-band
queue with that setting and the key of its trailer. -/
def inbandArrive (set : InbandSet) (side op : Nat) (p : Packet) (s : State) : State :=
  let p1 := { p with src := .inband side, inband := { set with key := slotBytes s set.slot } }
  if inbandAuthentic set side op p1 s then
    match specOf op with
    | some spec => serve spec staged p1 s
    | none => if canFetch 64 s && (pairAt s 64).written.isEmpty then executeUnknown p1 s else appendWritten op p1 s
  else bump cInbandAuthFail 1 side s

/-- The packet that a frame of TYPE 2 carries: header, parameters and a trailer of 16 bytes; none where it is too short. -/
def parsePacket (bs : List Byte) (env : Outside) : Option Written :=
  if bs.length < 48 then none
  else
    let body := bs.take (bs.length - 16)
    let h := wordsOfBytes 8 body
    let (w0, w1, w2, w3, w4) := (nthW h 0, nthW h 1, nthW h 2, nthW h 3, nthW h 4)
    let half (w : Word) (hi lo : Nat) : BitVec 16 := BitVec.ofNat 16 (fld w hi lo)
    some { op := fld w0 15 0,
           pkt := { tag := half w0 31 16, length := half w1 15 0, flags := half w1 31 16, cplx := BitVec.ofNat 8 (fld w2 7 0),
                    unit := BitVec.ofNat 8 (fld w2 15 8), inst := half w2 31 16, world := half w3 15 0, rsv3 := half w3 31 16,
                    epochExp := half w4 15 0, rsv4 := half w4 31 16,
                    seq := BitVec.ofNat 64 (join64 (nthW h 5) (nthW h 6)), rsv7 := nthW h 7,
                    params := wordsOfBytes ((bs.length - 48) / 4) (body.drop 32),
                    trailer := BitVec.ofNat 128 (beNat (bs.drop (bs.length - 16))), env := env } }

/-- A frame of TYPE 2 has arrived on a side, its first cell under the setting given. One that holds no packet and trailer cannot
verify. -/
def inbandFrame (env : Outside) (set : InbandSet) (side : Nat) (bs : List Byte) (s : State) : State :=
  match parsePacket bs env with
  | some w => inbandArrive set side w.op w.pkt s
  | none => bump cInbandAuthFail 1 side s

/-! ## The commands of Table 2.7 -/

/-- One Obric command: the host has written its packet and doorbell, or it has arrived in-band. -/
def command (op : OpSpec) (p : Packet) (s : State) : Res :=
  match p.src with
  | .pair n => onObject (n < 64) (serve op staged p s)
  | .inband side => onObject (side < 2) (inbandArrive (inbandNow s) side op.code p s)

def execNop (p : Packet) (s : State) : Res := command opNop p s
def execIdentify (p : Packet) (s : State) : Res := command opIdentify p s
def execStatusRead (p : Packet) (s : State) : Res := command opStatusRead p s
def execEpochStage (p : Packet) (s : State) : Res := command opEpochStage p s
def execEpochPrepare (p : Packet) (s : State) : Res := command opEpochPrepare p s
def execEpochActivate (p : Packet) (s : State) : Res := command opEpochActivate p s
def execEpochAbort (p : Packet) (s : State) : Res := command opEpochAbort p s
def execQueueBind (p : Packet) (s : State) : Res := command opQueueBind p s
def execImageWrite (p : Packet) (s : State) : Res := command opImageWrite p s
def execImageStatus (p : Packet) (s : State) : Res := command opImageStatus p s
def execSettingsStatus (p : Packet) (s : State) : Res := command opSettingsStatus p s
def execModuleReset (p : Packet) (s : State) : Res := command opModuleReset p s
def execInbandConfig (p : Packet) (s : State) : Res := command opInbandConfig p s
def execNotifyMask (p : Packet) (s : State) : Res := command opNotifyMask p s
def execHostqConfig (p : Packet) (s : State) : Res := command opHostqConfig p s
def execPortConfig (p : Packet) (s : State) : Res := command opPortConfig p s
def execPortState (p : Packet) (s : State) : Res := command opPortState p s
def execTerminalAdd (p : Packet) (s : State) : Res := command opTerminalAdd p s
def execTerminalRemove (p : Packet) (s : State) : Res := command opTerminalRemove p s
def execPloamSend (p : Packet) (s : State) : Res := command opPloamSend p s
def execBpmRead (p : Packet) (s : State) : Res := command opBpmRead p s
def execOpticsAccess (p : Packet) (s : State) : Res := command opOpticsAccess p s
def execOmciBind (p : Packet) (s : State) : Res := command opOmciBind p s
def execDiscoveryConfig (p : Packet) (s : State) : Res := command opDiscoveryConfig p s
def execRangingRead (p : Packet) (s : State) : Res := command opRangingRead p s
def execTerminalRerange (p : Packet) (s : State) : Res := command opTerminalRerange p s
def execAllocWrite (p : Packet) (s : State) : Res := command opAllocWrite p s
def execAllocRead (p : Packet) (s : State) : Res := command opAllocRead p s
def execAllocDelete (p : Packet) (s : State) : Res := command opAllocDelete p s
def execScheduleHint (p : Packet) (s : State) : Res := command opScheduleHint p s
def execCinchBudget (p : Packet) (s : State) : Res := command opCinchBudget p s
def execWeaverStats (p : Packet) (s : State) : Res := command opWeaverStats p s
def execUpstreamGateLoad (p : Packet) (s : State) : Res := command opUpstreamGateLoad p s
def execParseGraphLoad (p : Packet) (s : State) : Res := command opParseGraphLoad p s
def execRuleTreeLoad (p : Packet) (s : State) : Res := command opRuleTreeLoad p s
def execRuleUpdate (p : Packet) (s : State) : Res := command opRuleUpdate p s
def execRuleVersionCommit (p : Packet) (s : State) : Res := command opRuleVersionCommit p s
def execRuleVersionStatus (p : Packet) (s : State) : Res := command opRuleVersionStatus p s
def execExceptionConfig (p : Packet) (s : State) : Res := command opExceptionConfig p s
def execMacStaticAdd (p : Packet) (s : State) : Res := command opMacStaticAdd p s
def execMacDelete (p : Packet) (s : State) : Res := command opMacDelete p s
def execMacLookup (p : Packet) (s : State) : Res := command opMacLookup p s
def execMacFlush (p : Packet) (s : State) : Res := command opMacFlush p s
def execAgeingConfig (p : Packet) (s : State) : Res := command opAgeingConfig p s
def execLpmAdd (p : Packet) (s : State) : Res := command opLpmAdd p s
def execLpmDelete (p : Packet) (s : State) : Res := command opLpmDelete p s
def execLpmLoad (p : Packet) (s : State) : Res := command opLpmLoad p s
def execStitchConfig (p : Packet) (s : State) : Res := command opStitchConfig p s
def execQueueConfig (p : Packet) (s : State) : Res := command opQueueConfig p s
def execSchedNodeConfig (p : Packet) (s : State) : Res := command opSchedNodeConfig p s
def execShaperConfig (p : Packet) (s : State) : Res := command opShaperConfig p s
def execGateListLoad (p : Packet) (s : State) : Res := command opGateListLoad p s
def execQueueStats (p : Packet) (s : State) : Res := command opQueueStats p s
def execSampleRingConfig (p : Packet) (s : State) : Res := command opSampleRingConfig p s
def execSampleRingRead (p : Packet) (s : State) : Res := command opSampleRingRead p s
def execScConfig (p : Packet) (s : State) : Res := command opScConfig p s
def execSaConfig (p : Packet) (s : State) : Res := command opSaConfig p s
def execSaActivate (p : Packet) (s : State) : Res := command opSaActivate p s
def execPonKeySwitch (p : Packet) (s : State) : Res := command opPonKeySwitch p s
def execKeyGenerate (p : Packet) (s : State) : Res := command opKeyGenerate p s
def execKeyWrap (p : Packet) (s : State) : Res := command opKeyWrap p s
def execShedarUpdate (p : Packet) (s : State) : Res := command opShedarUpdate p s
def execSlotErase (p : Packet) (s : State) : Res := command opSlotErase p s
def execSlotInfo (p : Packet) (s : State) : Res := command opSlotInfo p s
def execAttestOperator (p : Packet) (s : State) : Res := command opAttestOperator p s
def execAttestTenant (p : Packet) (s : State) : Res := command opAttestTenant p s
def execEncReserve (p : Packet) (s : State) : Res := command opEncReserve p s
def execUpdateEpochAdvance (p : Packet) (s : State) : Res := command opUpdateEpochAdvance p s
def execAlarmStatus (p : Packet) (s : State) : Res := command opAlarmStatus p s
def execPoolConfig (p : Packet) (s : State) : Res := command opPoolConfig p s
def execPoolStats (p : Packet) (s : State) : Res := command opPoolStats p s
def execHideKeyChange (p : Packet) (s : State) : Res := command opHideKeyChange p s
def execHideStatus (p : Packet) (s : State) : Res := command opHideStatus p s
def execRegionReinit (p : Packet) (s : State) : Res := command opRegionReinit p s
def execRightsWrite (p : Packet) (s : State) : Res := command opRightsWrite p s
def execUplinkConfig (p : Packet) (s : State) : Res := command opUplinkConfig p s
def execLaneConfig (p : Packet) (s : State) : Res := command opLaneConfig p s
def execLaneStatus (p : Packet) (s : State) : Res := command opLaneStatus p s
def execPlaitConfig (p : Packet) (s : State) : Res := command opPlaitConfig p s
def execProtectionCommand (p : Packet) (s : State) : Res := command opProtectionCommand p s
def execLaneEyeScan (p : Packet) (s : State) : Res := command opLaneEyeScan p s
def execTimeRead (p : Packet) (s : State) : Res := command opTimeRead p s
def execTimeSet (p : Packet) (s : State) : Res := command opTimeSet p s
def execPtpConfig (p : Packet) (s : State) : Res := command opPtpConfig p s
def execAsymmetrySet (p : Packet) (s : State) : Res := command opAsymmetrySet p s
def execSynceConfig (p : Packet) (s : State) : Res := command opSynceConfig p s
def execTsQueueRead (p : Packet) (s : State) : Res := command opTsQueueRead p s
def execHalterEnter (p : Packet) (s : State) : Res := command opHalterEnter p s
def execHalterExit (p : Packet) (s : State) : Res := command opHalterExit p s
def execDomainControl (p : Packet) (s : State) : Res := command opDomainControl p s
def execFeedConfig (p : Packet) (s : State) : Res := command opFeedConfig p s
def execPowerStatus (p : Packet) (s : State) : Res := command opPowerStatus p s
def execFaultRead (p : Packet) (s : State) : Res := command opFaultRead p s
def execFaultClear (p : Packet) (s : State) : Res := command opFaultClear p s
def execRecorderRead (p : Packet) (s : State) : Res := command opRecorderRead p s
def execRecorderErase (p : Packet) (s : State) : Res := command opRecorderErase p s
def execCounterConfig (p : Packet) (s : State) : Res := command opCounterConfig p s
def execCounterRead (p : Packet) (s : State) : Res := command opCounterRead p s
def execPatinaScan (p : Packet) (s : State) : Res := command opPatinaScan p s
def execPatinaStatus (p : Packet) (s : State) : Res := command opPatinaStatus p s
def execVfCounterGrant (p : Packet) (s : State) : Res := command opVfCounterGrant p s

/-- VENDOR_DIAGNOSTICS: opcode 0xF000 + n, refused whatever its master (R56). -/
def execVendorDiagnostics (n : Nat) (p : Packet) (s : State) : Res :=
  if n < 4096 then command (opVendor n) p s else .fault .noSuchObject

/-! ## Doorbells (R39, R547, R548) -/

/-- CQ_TAIL: the host has written packets and the doorbell of a pair. -/
def cqTailWrite (fn pair tail : Nat) (packets : List Written) (s : State) : State :=
  if seesPair s fn pair then
    let new := packets.map fun w => { w with pkt := { w.pkt with src := .pair pair } }
    pumpAll (updPair pair (fun x => { x with cqTail := BitVec.ofNat 12 tail, written := x.written ++ new }) s)
  else s

def execCqTail (fn pair tail : Nat) (packets : List Written) (s : State) : Res :=
  onObject (fn < 64 && pair < 64) (cqTailWrite fn pair tail packets s)

/-- RQ_HEAD: reply entries have been consumed; replies that wait are written, and fetching goes on. -/
def rqHeadWrite (fn pair value : Nat) (s : State) : State :=
  if seesPair s fn pair then
    let s1 := updPair pair (fun x => { x with rqHead := BitVec.ofNat 12 value }) s
    pumpAll (flushHeld pair (pairAt s1 pair).held.length s1)
  else s

def execRqHead (fn pair value : Nat) (s : State) : Res := onObject (fn < 64 && pair < 64) (rqHeadWrite fn pair value s)

/-- A base register that is not aligned to 4 KiB. -/
def baseBad (x : Pair) : Bool := fld x.cqBaseLo 11 0 ≠ 0 || fld x.rqBaseLo 11 0 ≠ 0

/-- QP_ENABLE: a write of the register that holds ENABLE. -/
def enableWrite (fn pair : Nat) (value : Word) (s : State) : State :=
  if seesPair s fn pair then
    let on := bit value 0
    let err (x : Pair) : Nat := if on && baseBad x then 4 else if on && !x.enable then 0 else x.error
    pumpAll (updPair pair (fun x => { x with enable := on, error := err x }) s)
  else s

def execQpEnable (fn pair : Nat) (value : Word) (s : State) : Res := onObject (fn < 64 && pair < 64) (enableWrite fn pair value s)

/-- INBAND_PACKET: a packet has arrived from the fabric. -/
def execInbandPacket (side op : Nat) (p : Packet) (s : State) : Res :=
  onObject (side < 2 && op < 65536) (pumpAll (inbandArrive (inbandNow s) side op p s))

/-- PLAIT_FRAME_RECEIVE. -/
def execPlaitFrameReceive (side : Nat) (bytes : List Byte) (skewOk : Bool) (fill : Nat) (fits : Bool) (env : Outside) (s : State) : Res :=
  onObject (side < 2 && bytes.length = 8192)
    (if (sideAt s side).enable && powered s (0x40 + side) then
      pumpAll (receivePlait (inbandFrame env) side bytes skewOk fill fits s) else s)

end Sys2Proof.Machine
end

