-- ==== Sys2Proof/Machine/Completions.lean ====
section
/-! DEFINITION. Events that end commands in progress or let queues fetch again: boot and restart, the epoch's activation, the
ends of long commands, the safe state (R51, R53, R54, R64 to R66, R73, R76, R81, R90, R283, R374, R402, R453, R460, R470, R484). -/

namespace Sys2Proof.Machine

/-! ## Boot -/

/-- The configuration's commands take effect in order, without replies (R66). -/
def applyConfig (cs : List Written) (s : State) : State :=
  forEach cs (fun w s =>
    match baseSpec w.op with
    | some op => (op.run (ctxOf op w.pkt s) s).left s
    | none => s) s

/-- The firmware extends the configuration's digest into MEAS_1, at the 700 ms row of Table 2.10 (R66, R333). -/
def measureConfig (s : State) : State := { s with vault := { s.vault with meas1 := measureOf s 2 } }

/-- At boot the protection selector is in NR on PREF (R418). -/
def bootSelect (s : State) : State := updateSf (updSel (fun x => { x with st := .nr, side := x.pref, transition := none }) s)

/-- CONFIGURATION_APPLIED: MEAS_1 is set, settings written under other measurements are renewed, the configuration takes effect
where a copy of it was selected, and the module is READY; Hide has initialised HBM before (Table 2.10, R372; R65, R66, R334). -/
def configurationApplied (config : List Written) (s : State) : State :=
  let s1 := restoreMark (renewSettings (measureConfig s))
  let s2 := if (selectedCopy s1 2).isSome then foldTrees (applyConfig config s1) else s1
  pumpAll (readyNow (bootSelect s2))

def execConfigurationApplied (config : List Written) (s : State) : Res :=
  .next (whenever (s.boot.phase = .firmware && s.mem.initialised) (configurationApplied config) s)

/-- FIRMWARE_RESTART_COMPLETE. -/
def execFirmwareRestartComplete (s : State) : Res := .next (whenever s.boot.restarting (fun s => pumpAll (restartDone s)) s)

/-! ## Epoch -/

/-- An EPOCH_PREPARE in progress began at least 1 ms ago. -/
def prepareDue (s : State) (d : List Nat) : Bool := match d with | [t] => passed s t ms | _ => false

/-- EPOCH_PREPARE_TIMEOUT: 1 ms after an EPOCH_PREPARE began, the units that have not answered fail with UNIT_TIMEOUT (R73). -/
def prepareTimeout (s : State) : State :=
  pumpAll (forEach (executingQ s 0x0005 (prepareDue s)) (fun q s =>
    match (pairAt s q).executing with
    | some x => finish q (fun s => prepared (silentOf x.pkt s) s) s
    | none => s) s)

def execEpochPrepareTimeout (s : State) : Res := .next (prepareTimeout s)

/-- The activation point has been reached (R32, R76). -/
def activationDue (s : State) : Bool :=
  s.epoch.phase = .armed && (if s.epoch.kind = 0 then s.epoch.point ≤ s.time.sfc else s.epoch.point * nsUnit ≤ s.time.tc)

/-- EPOCH_ACTIVATION_TICK: stamping changes, units with banks keep the previous one, and every staged copy is swapped in
(R30 to R33, R70). -/
def activate (s : State) : State :=
  let e := s.epoch
  let s1 := { s with rules := { s.rules with prev := s.rules.bank }
                     cipher := { s.cipher with prev := { channels := s.cipher.channels, assocs := s.cipher.assocs, reserve := s.cipher.reserve } }
                     epoch := { e with previous := some e.current, current := e.staged, staged := 0, phase := .draining, cmds := [],
                                       kind := 0, point := 0, inFlightPrev := e.inFlight, inFlight := 0, mark := s.mono } }
  recordEv 0x0008 1 0x0C 0 0 0x0100 [wd e.staged.toNat] (replay false e.cmds s1).1

def execEpochActivationTick (s : State) : Res := .next (whenever (activationDue s) activate s)

/-! ## The ends of commands in progress -/

/-- PORT_DISABLE_COMPLETE: at the end of the third Deactivate_ONU-ID frame TXDIS is asserted, for both ports of a pair; the command that set
mode 0 completes, and those that waited for the port, or for the pair's other one, run (R90). -/
def portDisabled (p : Nat) (s : State) : State :=
  let root := if paired s p then p / 2 * 2 else p
  let ports := modePorts s root
  let s1 := forEach ports disablePort s
  let s2 := forEach (executingQ s1 0x1001 (· = [root, 0])) (fun q s => finish q (fun s => .done s []) s) s1
  pumpAll (forEach (executingQ s2 0x1001 fun d => ports.any fun q => d = [q, 1]) rerun s2)

def execPortDisableComplete (port : Nat) (s : State) : Res :=
  onObject (port < 64) <| whenever (match (portAt s port).stopping with | some f => f + 3 ≤ s.time.sfc | none => false)
    (portDisabled port) s

/-- HIDE_SWEEP_COMPLETE: the sweep has reached the end of the ring region; HIDE_KEY_CHANGE answers ID' (R374). -/
def sweepComplete (s : State) : State :=
  let s1 := sweepDone s
  pumpAll (finishAll 0x7003 (fun s => .done s [wd s.mem.keyId]) s1)

def execHideSweepComplete (s : State) : Res := .next (whenever (s.mem.retiring.isSome && hbmOpen s) sweepComplete s)

/-- HALTER_STAGE_END. -/
def execHalterStageEnd (failing : List Upset) (s : State) : Res :=
  .next (whenever (stageDone s) (fun s => pumpAll (stageEnd failing s)) s)

/-- HALTER_WAKE. -/
def execHalterWake (failing : List Upset) (s : State) : Res :=
  .next (whenever (wakeDue s) (fun s => pumpAll (halterWake failing s)) s)

/-- The words of Table 12.7 for a lane from those that its sampler gives: EYES and LANE follow from the lane, and words 2 and 3 of an NRZ
lane are 0 (R402). -/
def eyeWords (l : Nat) (ws : List Word) : List Word :=
  let nrz := isPonLane l
  [pack [(if nrz then 1 else 3, 2, 26), (l, 8, 0)], nthW ws 1, if nrz then 0 else nthW ws 2, if nrz then 0 else nthW ws 3, nthW ws 4]

/-- EYE_SCAN_COMPLETE: a lane's scan has found the words of Table 12.7; without words it ends ABORTED, and so does a PON
lane's that has met fewer than 1,000 good bursts (R402). -/
def eyeScanDone (l : Nat) (results : List Word) (s : State) : State :=
  let s1 := updLane l (fun x => { x with scanning := false }) s
  let few := isPonLane l && (laneAt s l).scanned < 1000
  let r (s : State) : HRes := if results.isEmpty || few then .ended s .aborted [] else .done s (eyeWords l results)
  pumpAll (forEach (executingQ s1 0x8006 (· = [l])) (finish · r) s1)

def execEyeScanComplete (lane : Nat) (results : List Word) (s : State) : Res :=
  onObject (lane < 80 || (128 ≤ lane && lane < 192)) <| whenever (laneAt s lane).scanning (eyeScanDone lane results) s

/-- PATINA_SCAN_COMPLETE: what the scan has measured (R484). -/
def patinaScanDone (rails : List RailScan) (lanes : List LaneScan) (s : State) : State :=
  pumpAll (forEach (executingQ s 0xB007 fun d => d.length = 1) (fun q s =>
    match (pairAt s q).executing with
    | some x => finish q (scanResult (x.data.headD 0) (flagResultBuf x.pkt) rails lanes) s
    | none => s) s)

def execPatinaScanComplete (rails : List RailScan) (lanes : List LaneScan) (s : State) : Res :=
  .next (whenever s.pat.scanning (patinaScanDone rails lanes) s)

/-- What a command whose unit did not answer leaves: its object has its old or its new value, whole; which of them is open (a
free value), R53. A staged command's object is the staged one (R72). -/
def halfDone (x : Exec) (s : State) : State :=
  let s1 := takeFree s
  match specOf x.op with
  | some op => if op.writes && Config.freeNat s.free % 2 = 1 then (perform op x.pkt staged s1).left s1 else s1
  | none => s1

/-- UNIT_TIMEOUT: the unit that a queue's command waits for has not answered within the command's limit; the command ends, and
the unit has a unit-fatal error (R53). -/
def unitTimeout (q : Nat) (x : Exec) (cplx unit inst : Nat) (s : State) : State :=
  pumpAll (raiseNow { cplx := cplx, unit := unit, inst := inst, res := 0, code := cplx * 256 + 0x04, cls := 2 } (finish q (fun s => .ended (halfDone x s) .unitTimeout []) s))

def execUnitTimeout (queue : Nat) (s : State) : Res :=
  onObject (queue ≤ 64) (match (pairAt s queue).executing with
    | some x => match x.data with
      | [_, cplx, unit, inst] => unitTimeout queue x cplx unit inst s
      | _ => s
    | none => s)

/-! ## Slots (R283, R319) -/

/-- A slot operation that has waited runs. -/
def resumeSlot (w : SlotWait) (s : State) : State :=
  match w with
  | .command q => rerun q s
  | .ponKey i index body =>
    match termAt s i with
    | none => s
    | some t =>
      let slot := keySlot t index
      if mustWait s slot then { s with vault := { s.vault with waiting := s.vault.waiting ++ [w] } }
      else ponKeyWritten slot body s
  | .token m => debugToken m s
  | .service row toScrapped owner signature => serviceMessage row toScrapped owner signature s

/-- A frame latched with a slot's retiring key. -/
def usesOld (s : State) (a : Admitted) : Bool :=
  match (slotAt s a.slot).old with | some o => o.2 = a.gen | none => false

/-- RETIRING_COPY_RELEASE: the frames latched with retiring keys leave, the copies are cleared, and the operations that waited
run in order. -/
def releaseCopies (s : State) : State :=
  let s1 := leaveWhere (usesOld s) s
  let ws := s1.vault.waiting
  let s2 := { s1 with vault := { s1.vault with waiting := [], slots := mmap s1.vault.slots fun _ x => { x with old := none } } }
  pumpAll (forEach ws resumeSlot s2)

def execRetiringCopyRelease (s : State) : Res := .next (releaseCopies s)

/-! ## The safe state (R54, R470, R471) -/

/-- SAFE_STATE_ENTRY: the status block shows SAFE, STATE_CHANGE 0x0B01 is sent whatever NOTIFY_MASK holds, the trigger is
recorded, and fetching resumes under R54. -/
def enterSafe (s : State) : State :=
  let old := stateCode s.boot.state
  let s1 := dropWaits (forEach (s.host.pairs.map Prod.fst) abortIdle s)
  let s2 := { s1 with boot := { s1.boot with state := .safe, restarting := false } }
  let s3 := notifyForced .stateChange [0x0B01, wd s2.flt.cause] s2
  pumpAll (recordEv 0x0006 2 0x0C 1 0 0x0100 [wd old, wd s2.flt.cause, 0] s3)

def execSafeStateEntry (s : State) : Res := .next (whenever (s.flt.frozen && s.boot.state ≠ .safe) enterSafe s)

end Sys2Proof.Machine
end

