-- ==== Sys2Proof/Machine/Window.lean ====
section
/-! DEFINITION. The host window BAR0 as a function reads and writes it, word by word (R7, R37 to R43, R85). -/

namespace Sys2Proof.Machine

/-! ## The interrupt block: PENDING at 0x1000 and MASK at 0x1008. PRESUMED: log entry 61. -/

/-- Half of a 64-bit field as a word: 0 the low one, 1 the high one. -/
def halfWord (b : BitVec 64) (half : Nat) : Word := (b >>> (32 * half)).setWidth 32

/-! ## Reads -/

/-- A register of a queue pair (Table 2.2). -/
def pairRegister (x : Pair) (off : Nat) : Word :=
  match off with
  | 0x00 => x.cqBaseLo
  | 0x04 => x.cqBaseHi
  | 0x08 => x.rqBaseLo
  | 0x0C => x.rqBaseHi
  | 0x10 => wd x.cqTail.toNat
  | 0x14 => wd x.cqHead.toNat
  | 0x18 => wd x.rqHead.toNat
  | 0x1C => wd x.rqTail.toNat
  | 0x20 => wd (b2n x.enable)
  | 0x24 => pack [(x.error, 8, 24), (x.bound, 8, 16), (x.world, 16, 0)]
  | _ => 0

/-- A register of a host queue (Table 2.18). -/
def queueRegister (h : HostQ) (off : Nat) : Word :=
  match off with
  | 0x0 => wd (h.head % 65536)
  | 0x4 => wd (h.tail % 65536)
  | 0x8 => pack [(h.error, 8, 24), (h.bound, 8, 16), (h.world, 16, 0)]
  | 0xC => wd h.drops
  | _ => 0

/-- A read of the interrupt block: the bits that the function reaches. -/
def interruptRegister (fn off : Nat) (s : State) : Word :=
  let seen := seenBits s fn
  match off with
  | 0x0 => halfWord (s.host.pending &&& seen) 0
  | 0x4 => halfWord (s.host.pending &&& seen) 1
  | 0x8 => halfWord (s.host.mask &&& seen) 0
  | 0xC => halfWord (s.host.mask &&& seen) 1
  | _ => 0

/-- What a function's read of a word of its BAR0 returns (R7, R37 to R39, R43, R85, Table 2.1): 0 for a reserved word, for an
offset beyond the BAR, and for the registers of a pair or host queue that is not bound to a virtual function. A read changes
nothing. -/
def registerRead (fn off : Nat) (s : State) : Word :=
  if (if fn = 0 then 0x10000 else 0x4000) ≤ off then 0
  else if off < 0x1000 then (if seesPair s fn (off / 64) then pairRegister (pairAt s (off / 64)) (off % 64) else 0)
  else if off < 0x1100 then interruptRegister fn (off - 0x1000) s
  else if off < 0x1200 then nthW (identityWords s) ((off - 0x1100) / 4)
  else if off < 0x1300 then nthW (statusBlock fn s) ((off - 0x1200) / 4)
  else if off < 0x2000 then 0
  else if off < 0x3000 then
    let h := hrqAt s ((off - 0x2000) / 16)
    if reachesQueue fn h then queueRegister h (off % 16) else 0
  else if off < 0x3400 then
    let h := hiqAt s ((off - 0x3000) / 16)
    if reachesQueue fn h then queueRegister h (off % 16) else 0
  else 0

/-! ## Writes -/

/-- A write of a word of a queue pair's registers (Table 2.2): the base registers keep it, the doorbells and ENABLE do what they
do, and the other words are read only or reserved. A doorbell written so gives no packet beside it: those that the host has
written before are fetched (log entry 9). -/
def writePair (fn n off : Nat) (v : Word) (s : State) : State :=
  if !seesPair s fn n then s
  else match off with
  | 0x10 => cqTailWrite fn n (fld v 11 0) [] s
  | 0x18 => rqHeadWrite fn n (fld v 11 0) s
  | 0x20 => enableWrite fn n v s
  | _ => if off ≤ 0x0C then writeBase n off v s else s

/-- REGISTER_WRITE: a 32-bit write at an offset of a function's BAR0, as the access code of the word states (R7): RW words keep it,
W1C bits are cleared by 1, read-only and reserved words ignore it. -/
def registerWrite (fn off : Nat) (v : Word) (s : State) : State :=
  if off < 0x1000 then writePair fn (off / 64) (off % 64) v s
  else if off = 0x1000 then clearPending fn (v.setWidth 64) s
  else if off = 0x1004 then clearPending fn (v.setWidth 64 <<< 32) s
  else if off = 0x1008 then writeMask fn 0 v s
  else if off = 0x100C then writeMask fn 1 v s
  else if 0x2000 ≤ off && off < 0x3000 && off % 16 = 0 then hrqHeadWrite fn ((off - 0x2000) / 16) (fld v 15 0) s
  else if 0x3000 ≤ off && off < 0x3400 && off % 16 = 4 then hiqTailWrite fn ((off - 0x3000) / 16) (fld v 15 0) s
  else s

def execRegisterWrite (fn offset : Nat) (value : Word) (s : State) : Res :=
  onObject (fn < 64 && offset % 4 = 0 && offset < (if fn = 0 then 65536 else 16384)) (registerWrite fn offset value s)

end Sys2Proof.Machine
end

