-- ==== Sys2Proof/Machine/Dispatch.lean ====
section
/-! DEFINITION. exec: one arm per command of the table, each one direct call of its meaning. -/

namespace Sys2Proof.Machine

def exec (i : Instr) (s : State) : Host.Outcome State Fault Refusal :=
  match i with
  | .cqTail fn pair tail packets => Sys2Proof.Machine.execCqTail fn pair tail packets s
  | .rqHead fn pair value => Sys2Proof.Machine.execRqHead fn pair value s
  | .qpEnable fn pair value => Sys2Proof.Machine.execQpEnable fn pair value s
  | .pending fn bits => Sys2Proof.Machine.execPending fn bits s
  | .hiqTail fn queue value => Sys2Proof.Machine.execHiqTail fn queue value s
  | .hrqHead fn queue value => Sys2Proof.Machine.execHrqHead fn queue value s
  | .registerWrite fn offset value => Sys2Proof.Machine.execRegisterWrite fn offset value s
  | .nop p => Sys2Proof.Machine.execNop p s
  | .identify p => Sys2Proof.Machine.execIdentify p s
  | .statusRead p => Sys2Proof.Machine.execStatusRead p s
  | .epochStage p => Sys2Proof.Machine.execEpochStage p s
  | .epochPrepare p => Sys2Proof.Machine.execEpochPrepare p s
  | .epochPrepareTimeout => Sys2Proof.Machine.execEpochPrepareTimeout s
  | .epochActivate p => Sys2Proof.Machine.execEpochActivate p s
  | .epochAbort p => Sys2Proof.Machine.execEpochAbort p s
  | .epochActivationTick => Sys2Proof.Machine.execEpochActivationTick s
  | .epochDrained => Sys2Proof.Machine.execEpochDrained s
  | .epochDrainLate => Sys2Proof.Machine.execEpochDrainLate s
  | .queueBind p => Sys2Proof.Machine.execQueueBind p s
  | .imageWrite p => Sys2Proof.Machine.execImageWrite p s
  | .imageStatus p => Sys2Proof.Machine.execImageStatus p s
  | .settingsStatus p => Sys2Proof.Machine.execSettingsStatus p s
  | .moduleReset p => Sys2Proof.Machine.execModuleReset p s
  | .firmwareRestartComplete => Sys2Proof.Machine.execFirmwareRestartComplete s
  | .inbandConfig p => Sys2Proof.Machine.execInbandConfig p s
  | .notifyMask p => Sys2Proof.Machine.execNotifyMask p s
  | .hostqConfig p => Sys2Proof.Machine.execHostqConfig p s
  | .portConfig p => Sys2Proof.Machine.execPortConfig p s
  | .portDisableComplete port => Sys2Proof.Machine.execPortDisableComplete port s
  | .portState p => Sys2Proof.Machine.execPortState p s
  | .terminalAdd p => Sys2Proof.Machine.execTerminalAdd p s
  | .terminalRemove p => Sys2Proof.Machine.execTerminalRemove p s
  | .ploamSend p => Sys2Proof.Machine.execPloamSend p s
  | .bpmRead p => Sys2Proof.Machine.execBpmRead p s
  | .opticsAccess p => Sys2Proof.Machine.execOpticsAccess p s
  | .omciBind p => Sys2Proof.Machine.execOmciBind p s
  | .discoveryConfig p => Sys2Proof.Machine.execDiscoveryConfig p s
  | .rangingRead p => Sys2Proof.Machine.execRangingRead p s
  | .terminalRerange p => Sys2Proof.Machine.execTerminalRerange p s
  | .allocWrite p => Sys2Proof.Machine.execAllocWrite p s
  | .allocRead p => Sys2Proof.Machine.execAllocRead p s
  | .allocDelete p => Sys2Proof.Machine.execAllocDelete p s
  | .scheduleHint p => Sys2Proof.Machine.execScheduleHint p s
  | .cinchBudget p => Sys2Proof.Machine.execCinchBudget p s
  | .weaverStats p => Sys2Proof.Machine.execWeaverStats p s
  | .upstreamGateLoad p => Sys2Proof.Machine.execUpstreamGateLoad p s
  | .parseGraphLoad p => Sys2Proof.Machine.execParseGraphLoad p s
  | .ruleTreeLoad p => Sys2Proof.Machine.execRuleTreeLoad p s
  | .ruleUpdate p => Sys2Proof.Machine.execRuleUpdate p s
  | .ruleVersionCommit p => Sys2Proof.Machine.execRuleVersionCommit p s
  | .ruleVersionStatus p => Sys2Proof.Machine.execRuleVersionStatus p s
  | .ruleVersionRetired v => Sys2Proof.Machine.execRuleVersionRetired v s
  | .rverDrainLate v => Sys2Proof.Machine.execRverDrainLate v s
  | .exceptionConfig p => Sys2Proof.Machine.execExceptionConfig p s
  | .macStaticAdd p => Sys2Proof.Machine.execMacStaticAdd p s
  | .macDelete p => Sys2Proof.Machine.execMacDelete p s
  | .macLookup p => Sys2Proof.Machine.execMacLookup p s
  | .macFlush p => Sys2Proof.Machine.execMacFlush p s
  | .ageingConfig p => Sys2Proof.Machine.execAgeingConfig p s
  | .lpmAdd p => Sys2Proof.Machine.execLpmAdd p s
  | .lpmDelete p => Sys2Proof.Machine.execLpmDelete p s
  | .lpmLoad p => Sys2Proof.Machine.execLpmLoad p s
  | .stitchConfig p => Sys2Proof.Machine.execStitchConfig p s
  | .queueConfig p => Sys2Proof.Machine.execQueueConfig p s
  | .schedNodeConfig p => Sys2Proof.Machine.execSchedNodeConfig p s
  | .shaperConfig p => Sys2Proof.Machine.execShaperConfig p s
  | .gateListLoad p => Sys2Proof.Machine.execGateListLoad p s
  | .gateListStart target => Sys2Proof.Machine.execGateListStart target s
  | .queueStats p => Sys2Proof.Machine.execQueueStats p s
  | .sampleRingConfig p => Sys2Proof.Machine.execSampleRingConfig p s
  | .sampleRingRead p => Sys2Proof.Machine.execSampleRingRead p s
  | .scConfig p => Sys2Proof.Machine.execScConfig p s
  | .saConfig p => Sys2Proof.Machine.execSaConfig p s
  | .saActivate p => Sys2Proof.Machine.execSaActivate p s
  | .ponKeySwitch p => Sys2Proof.Machine.execPonKeySwitch p s
  | .keyGenerate p => Sys2Proof.Machine.execKeyGenerate p s
  | .keyWrap p => Sys2Proof.Machine.execKeyWrap p s
  | .shedarUpdate p => Sys2Proof.Machine.execShedarUpdate p s
  | .slotErase p => Sys2Proof.Machine.execSlotErase p s
  | .slotInfo p => Sys2Proof.Machine.execSlotInfo p s
  | .attestOperator p => Sys2Proof.Machine.execAttestOperator p s
  | .attestTenant p => Sys2Proof.Machine.execAttestTenant p s
  | .encReserve p => Sys2Proof.Machine.execEncReserve p s
  | .updateEpochAdvance p => Sys2Proof.Machine.execUpdateEpochAdvance p s
  | .alarmStatus p => Sys2Proof.Machine.execAlarmStatus p s
  | .poolConfig p => Sys2Proof.Machine.execPoolConfig p s
  | .poolStats p => Sys2Proof.Machine.execPoolStats p s
  | .hideKeyChange p => Sys2Proof.Machine.execHideKeyChange p s
  | .hideStatus p => Sys2Proof.Machine.execHideStatus p s
  | .regionReinit p => Sys2Proof.Machine.execRegionReinit p s
  | .rightsWrite p => Sys2Proof.Machine.execRightsWrite p s
  | .uplinkConfig p => Sys2Proof.Machine.execUplinkConfig p s
  | .laneConfig p => Sys2Proof.Machine.execLaneConfig p s
  | .laneStatus p => Sys2Proof.Machine.execLaneStatus p s
  | .plaitConfig p => Sys2Proof.Machine.execPlaitConfig p s
  | .protectionCommand p => Sys2Proof.Machine.execProtectionCommand p s
  | .laneEyeScan p => Sys2Proof.Machine.execLaneEyeScan p s
  | .timeRead p => Sys2Proof.Machine.execTimeRead p s
  | .timeSet p => Sys2Proof.Machine.execTimeSet p s
  | .ptpConfig p => Sys2Proof.Machine.execPtpConfig p s
  | .asymmetrySet p => Sys2Proof.Machine.execAsymmetrySet p s
  | .synceConfig p => Sys2Proof.Machine.execSynceConfig p s
  | .tsQueueRead p => Sys2Proof.Machine.execTsQueueRead p s
  | .halterEnter p => Sys2Proof.Machine.execHalterEnter p s
  | .halterExit p => Sys2Proof.Machine.execHalterExit p s
  | .domainControl p => Sys2Proof.Machine.execDomainControl p s
  | .feedConfig p => Sys2Proof.Machine.execFeedConfig p s
  | .powerStatus p => Sys2Proof.Machine.execPowerStatus p s
  | .faultRead p => Sys2Proof.Machine.execFaultRead p s
  | .faultClear p => Sys2Proof.Machine.execFaultClear p s
  | .recorderRead p => Sys2Proof.Machine.execRecorderRead p s
  | .recorderErase p => Sys2Proof.Machine.execRecorderErase p s
  | .counterConfig p => Sys2Proof.Machine.execCounterConfig p s
  | .counterRead p => Sys2Proof.Machine.execCounterRead p s
  | .patinaScan p => Sys2Proof.Machine.execPatinaScan p s
  | .patinaStatus p => Sys2Proof.Machine.execPatinaStatus p s
  | .vfCounterGrant p => Sys2Proof.Machine.execVfCounterGrant p s
  | .vendorDiagnostics n p => Sys2Proof.Machine.execVendorDiagnostics n p s
  | .inbandPacket side op p => Sys2Proof.Machine.execInbandPacket side op p s
  | .feedValidated feed volts => Sys2Proof.Machine.execFeedValidated feed volts s
  | .feedInvalid feed volts cause => Sys2Proof.Machine.execFeedInvalid feed volts cause s
  | .feedVoltageCrossing voltsA voltsB => Sys2Proof.Machine.execFeedVoltageCrossing voltsA voltsB s
  | .returnMsExpiry => Sys2Proof.Machine.execReturnMsExpiry s
  | .feedFlapClear => Sys2Proof.Machine.execFeedFlapClear s
  | .softStartComplete => Sys2Proof.Machine.execSoftStartComplete s
  | .rideExpiry => Sys2Proof.Machine.execRideExpiry s
  | .feedOvercurrent feed => Sys2Proof.Machine.execFeedOvercurrent feed s
  | .feedOvercurrentRelease feed => Sys2Proof.Machine.execFeedOvercurrentRelease feed s
  | .oringFail feed => Sys2Proof.Machine.execOringFail feed s
  | .cardSeated => Sys2Proof.Machine.execCardSeated s
  | .cardUnseated => Sys2Proof.Machine.execCardUnseated s
  | .perstLAssert ns => Sys2Proof.Machine.execPerstLAssert ns s
  | .romBoot flash => Sys2Proof.Machine.execRomBoot flash s
  | .firmwareStartTimeout => Sys2Proof.Machine.execFirmwareStartTimeout s
  | .configurationApplied config => Sys2Proof.Machine.execConfigurationApplied config s
  | .tempHigh rail junction tcase => Sys2Proof.Machine.execTempHigh rail junction tcase s
  | .thermalShutdown rail junction => Sys2Proof.Machine.execThermalShutdown rail junction s
  | .refLos ref => Sys2Proof.Machine.execRefLos ref s
  | .refRestore ref => Sys2Proof.Machine.execRefRestore ref s
  | .timeTick ticks => Sys2Proof.Machine.execTimeTick ticks s
  | .moduleFrameBoundary energy => Sys2Proof.Machine.execModuleFrameBoundary energy s
  | .samplingInstant inTime => Sys2Proof.Machine.execSamplingInstant inTime s
  | .burstReceived port map start rx => Sys2Proof.Machine.execBurstReceived port map start rx s
  | .deactTimeout terminal => Sys2Proof.Machine.execDeactTimeout terminal s
  | .terminalDelayChange terminal => Sys2Proof.Machine.execTerminalDelayChange terminal s
  | .reassemblyTimeoutPon terminal alloc => Sys2Proof.Machine.execReassemblyTimeoutPon terminal alloc s
  | .serialNumberOnu port sn0 sn1 arrival message => Sys2Proof.Machine.execSerialNumberOnu port sn0 sn1 arrival message s
  | .rangingBurst sender rtd => Sys2Proof.Machine.execRangingBurst sender rtd s
  | .acknowledge sender => Sys2Proof.Machine.execAcknowledge sender s
  | .rangingTimeTimeout terminal => Sys2Proof.Machine.execRangingTimeTimeout terminal s
  | .extAccept sender accept => Sys2Proof.Machine.execExtAccept sender accept s
  | .forecastAck sender alloc received used period => Sys2Proof.Machine.execForecastAck sender alloc received used period s
  | .keyReport terminal frag body mic => Sys2Proof.Machine.execKeyReport terminal frag body mic s
  | .ponKeyWrite => Sys2Proof.Machine.execPonKeyWrite s
  | .keyRequest terminal => Sys2Proof.Machine.execKeyRequest terminal s
  | .keyRequestTimeout terminal => Sys2Proof.Machine.execKeyRequestTimeout terminal s
  | .ploamuMessage terminal message mic => Sys2Proof.Machine.execPloamuMessage terminal message mic s
  | .upstreamOmciFrame terminal key pos bytes mic => Sys2Proof.Machine.execUpstreamOmciFrame terminal key pos bytes mic s
  | .snWindowOpen port => Sys2Proof.Machine.execSnWindowOpen port s
  | .awlCycleBoundary port level => Sys2Proof.Machine.execAwlCycleBoundary port level s
  | .awlPauseEnd port => Sys2Proof.Machine.execAwlPauseEnd port s
  | .awlDetection port terminal rtd => Sys2Proof.Machine.execAwlDetection port terminal rtd s
  | .ponTxPllUnlock port => Sys2Proof.Machine.execPonTxPllUnlock port s
  | .opticsRemoved port => Sys2Proof.Machine.execOpticsRemoved port s
  | .opticsInserted port => Sys2Proof.Machine.execOpticsInserted port s
  | .opticsTxdisRelease port => Sys2Proof.Machine.execOpticsTxdisRelease port s
  | .opticsPoll port outcome released => Sys2Proof.Machine.execOpticsPoll port outcome released s
  | .opticsBusRecovery bus released => Sys2Proof.Machine.execOpticsBusRecovery bus released s
  | .mapCutoff lane => Sys2Proof.Machine.execMapCutoff lane s
  | .reportAbsorb lane => Sys2Proof.Machine.execReportAbsorb lane s
  | .resolvePasses lane => Sys2Proof.Machine.execResolvePasses lane s
  | .cinchFill => Sys2Proof.Machine.execCinchFill s
  | .cinchStale lane => Sys2Proof.Machine.execCinchStale lane s
  | .capsLate lane => Sys2Proof.Machine.execCapsLate lane s
  | .cappedRerun lane => Sys2Proof.Machine.execCappedRerun lane s
  | .placement lane => Sys2Proof.Machine.execPlacement lane s
  | .mapHandoff port => Sys2Proof.Machine.execMapHandoff port s
  | .frameIngress source card bytes fits => Sys2Proof.Machine.execFrameIngress source card bytes fits s
  | .macsecReceive frame => Sys2Proof.Machine.execMacsecReceive frame s
  | .macsecVerdict frame => Sys2Proof.Machine.execMacsecVerdict frame s
  | .distributorSpray frame => Sys2Proof.Machine.execDistributorSpray frame s
  | .parseWalk frame => Sys2Proof.Machine.execParseWalk frame s
  | .classify frame => Sys2Proof.Machine.execClassify frame s
  | .forwardLookup frame => Sys2Proof.Machine.execForwardLookup frame s
  | .learnRequest slice => Sys2Proof.Machine.execLearnRequest slice s
  | .ageingScan slice => Sys2Proof.Machine.execAgeingScan slice s
  | .compareAndDelete slice => Sys2Proof.Machine.execCompareAndDelete slice s
  | .stitchArrival frame => Sys2Proof.Machine.execStitchArrival frame s
  | .stitchTimeout frame => Sys2Proof.Machine.execStitchTimeout frame s
  | .enqueue frame room => Sys2Proof.Machine.execEnqueue frame room s
  | .reinDecision side index => Sys2Proof.Machine.execReinDecision side index s
  | .hostqRecordWrite queue ok => Sys2Proof.Machine.execHostqRecordWrite queue ok s
  | .hostqModerationExpiry queue => Sys2Proof.Machine.execHostqModerationExpiry queue s
  | .injectionFetch words bytes fits ok => Sys2Proof.Machine.execInjectionFetch words bytes fits ok s
  | .macsecTransmit point => Sys2Proof.Machine.execMacsecTransmit point s
  | .retiringCopyRelease => Sys2Proof.Machine.execRetiringCopyRelease s
  | .alarm sensor present => Sys2Proof.Machine.execAlarm sensor present s
  | .zeroisationRelease => Sys2Proof.Machine.execZeroisationRelease s
  | .debugToken message => Sys2Proof.Machine.execDebugToken message s
  | .debugAccess master addr kind data => Sys2Proof.Machine.execDebugAccess master addr kind data s
  | .osierCacheRefill pool bad => Sys2Proof.Machine.execOsierCacheRefill pool bad s
  | .osierCacheSpill pool => Sys2Proof.Machine.execOsierCacheSpill pool s
  | .cellFree pool handle isRelease => Sys2Proof.Machine.execCellFree pool handle isRelease s
  | .hideLineAccess engine addr write data check => Sys2Proof.Machine.execHideLineAccess engine addr write data check s
  | .counterCacheEvict level index => Sys2Proof.Machine.execCounterCacheEvict level index s
  | .counterPatrol corrected failing => Sys2Proof.Machine.execCounterPatrol corrected failing s
  | .hideInit => Sys2Proof.Machine.execHideInit s
  | .plaitFrameReceive side bytes skewOk fill fits env => Sys2Proof.Machine.execPlaitFrameReceive side bytes skewOk fill fits env s
  | .reassemblyTimeout side src ctx kind => Sys2Proof.Machine.execReassemblyTimeout side src ctx kind s
  | .plaitFrameTransmit side => Sys2Proof.Machine.execPlaitFrameTransmit side s
  | .excWindow side => Sys2Proof.Machine.execExcWindow side s
  | .pauseStuck side card => Sys2Proof.Machine.execPauseStuck side card s
  | .protectionHoldOff side => Sys2Proof.Machine.execProtectionHoldOff side s
  | .wtrExpiry => Sys2Proof.Machine.execWtrExpiry s
  | .switchTransitionEnd => Sys2Proof.Machine.execSwitchTransitionEnd s
  | .widthChange side => Sys2Proof.Machine.execWidthChange side s
  | .uplinkFaultChange port localFault remoteFault => Sys2Proof.Machine.execUplinkFaultChange port localFault remoteFault s
  | .uplinkPortUp port => Sys2Proof.Machine.execUplinkPortUp port s
  | .uplinkFrameReceive port bytes fits => Sys2Proof.Machine.execUplinkFrameReceive port bytes fits s
  | .laneTrainingComplete lane peak freq taps post pre swing precode => Sys2Proof.Machine.execLaneTrainingComplete lane peak freq taps post pre swing precode s
  | .laneTrainingTimeout lane => Sys2Proof.Machine.execLaneTrainingTimeout lane s
  | .laneIdleRequest lane => Sys2Proof.Machine.execLaneIdleRequest lane s
  | .laneExitRequest lane => Sys2Proof.Machine.execLaneExitRequest lane s
  | .laneIdleStale lane => Sys2Proof.Machine.execLaneIdleStale lane s
  | .fastExitTimeout lane aligned => Sys2Proof.Machine.execFastExitTimeout lane aligned s
  | .laneEnableChange lane => Sys2Proof.Machine.execLaneEnableChange lane s
  | .laneLos lane above => Sys2Proof.Machine.execLaneLos lane above s
  | .laneLol lane locked freq => Sys2Proof.Machine.execLaneLol lane locked freq s
  | .laneFlapHoldEnd lane => Sys2Proof.Machine.execLaneFlapHoldEnd lane s
  | .txFault lane => Sys2Proof.Machine.execTxFault lane s
  | .peakingReevaluate lane move => Sys2Proof.Machine.execPeakingReevaluate lane move s
  | .peakingStep lane => Sys2Proof.Machine.execPeakingStep lane s
  | .eyeScanComplete lane results => Sys2Proof.Machine.execEyeScanComplete lane results s
  | .ptpFrameReceive port bytes => Sys2Proof.Machine.execPtpFrameReceive port bytes s
  | .ptpFrameTransmit port bytes => Sys2Proof.Machine.execPtpFrameTransmit port bytes s
  | .servoMeasurement port isDelay value => Sys2Proof.Machine.execServoMeasurement port isDelay value s
  | .servoMeasurementLapse => Sys2Proof.Machine.execServoMeasurementLapse s
  | .ppsInEdge => Sys2Proof.Machine.execPpsInEdge s
  | .todInMessage second checksum => Sys2Proof.Machine.execTodInMessage second checksum s
  | .ppsInMissing => Sys2Proof.Machine.execPpsInMissing s
  | .ppsOutEdge => Sys2Proof.Machine.execPpsOutEdge s
  | .synceSourceChange source esmc => Sys2Proof.Machine.execSynceSourceChange source esmc s
  | .esmcLapse port => Sys2Proof.Machine.execEsmcLapse port s
  | .halterStageEnd failing => Sys2Proof.Machine.execHalterStageEnd failing s
  | .halterS3Timeout => Sys2Proof.Machine.execHalterS3Timeout s
  | .halterWake failing => Sys2Proof.Machine.execHalterWake failing s
  | .domainRestore domain failing => Sys2Proof.Machine.execDomainRestore domain failing s
  | .keeperFrame frame => Sys2Proof.Machine.execKeeperFrame frame s
  | .prxPowerCycle port on => Sys2Proof.Machine.execPrxPowerCycle port on s
  | .faultReport cplx unit inst res code cls detail frame => Sys2Proof.Machine.execFaultReport cplx unit inst res code cls detail frame s
  | .stickyPoll => Sys2Proof.Machine.execStickyPoll s
  | .faultHandling => Sys2Proof.Machine.execFaultHandling s
  | .unitRecovery cplx unit inst selfTest => Sys2Proof.Machine.execUnitRecovery cplx unit inst selfTest s
  | .safeStateEntry => Sys2Proof.Machine.execSafeStateEntry s
  | .handlerFail => Sys2Proof.Machine.execHandlerFail s
  | .recordWrite torn => Sys2Proof.Machine.execRecordWrite torn s
  | .operatingSecond => Sys2Proof.Machine.execOperatingSecond s
  | .operatingSecondsPersist => Sys2Proof.Machine.execOperatingSecondsPersist s
  | .patinaPeriodicPlan rails lanes => Sys2Proof.Machine.execPatinaPeriodicPlan rails lanes s
  | .patinaPlanWrite verified => Sys2Proof.Machine.execPatinaPlanWrite verified s
  | .railOffsetStep rail => Sys2Proof.Machine.execRailOffsetStep rail s
  | .settingsRecordWrite record verified => Sys2Proof.Machine.execSettingsRecordWrite record verified s
  | .functionLevelReset fn => Sys2Proof.Machine.execFunctionLevelReset fn s
  | .unitTimeout queue => Sys2Proof.Machine.execUnitTimeout queue s
  | .perstLDeassert => Sys2Proof.Machine.execPerstLDeassert s
  | .rawDetectorStateChange lane los lol => Sys2Proof.Machine.execRawDetectorStateChange lane los lol s
  | .hideSweepComplete => Sys2Proof.Machine.execHideSweepComplete s
  | .patinaScanComplete rails lanes => Sys2Proof.Machine.execPatinaScanComplete rails lanes s
  | .abkouxServiceMessage row toScrapped owner signature => Sys2Proof.Machine.execAbkouxServiceMessage row toScrapped owner signature s

end Sys2Proof.Machine
end

