-- ==== Sys2Proof/Safety.lean ====
section
/-! DEFINITION. The terms in which claims are stated: a command packet that executes normally, the state in which
its handler runs, and the state that its reply leaves. -/

namespace Sys2Proof.Machine

/-- The host's write of a pair's doorbell for one packet (R40). -/
def rung (p : Packet) (s : State) : State :=
  match p.src with
  | .pair n => updPair n (fun x => { x with cqTail := x.cqTail + BitVec.ofNat 12 (entriesOf p) }) s
  | .inband _ => s

/-- The state in which the handler of an accepted packet runs: doorbell rung, command counted (Table 17.6), packet taken out of
its queue (R40, R49). -/
def fetched (op : OpSpec) (p : Packet) (s : State) : State :=
  let r := rung p s
  takePacket p (countEvent 0x4C 0x100 p.world.toNat 1 (if op.fast then countEvent 0x4C 0x101 p.world.toNat 1 r else r))

/-- The packet of a queue pair is read at once: the pair exists and may fetch (R41, R48, R547, R548), nothing waits before the
packet, and its read succeeds. -/
def readable (op : OpSpec) (p : Packet) (s : State) : Bool :=
  match p.src with
  | .pair n => n < 64 && canFetch n s && (pairAt s n).written.isEmpty && !heldBack op s && p.env.fetchOk
  | .inband _ => false

/-- The packet executes at once and normally: it is read, its target answers (R53), no ground of R549 refuses it, it is not
staged, and where it writes what can be staged no epoch is prepared or armed (R73) and the staged content does not write the same
object (R72). -/
def accepts (op : OpSpec) (p : Packet) (s : State) : Bool :=
  readable op p s && !p.env.silent && (judge op p s).isNone && !flagStaged p && op.stage ≠ .only
    && (op.stage ≠ .stageable || (!stageConflict op p s && s.epoch.phase ≠ .prepared && s.epoch.phase ≠ .armed))

/-- The packet is accepted into the staged content of an epoch: it is read, its target answers, no ground of R549 refuses it, it is
staged, and its opcode may be (R72). -/
def acceptsStaged (op : OpSpec) (p : Packet) (s : State) : Bool :=
  readable op p s && !p.env.silent && (judge op p s).isNone && flagStaged p && (op.stage = .stageable || op.stage = .only)

/-- The state with a staged command kept for the activation (R72, R545): what it writes again is no longer charged. -/
def keepStaged (op : OpSpec) (p : Packet) (f : State) : State :=
  let objs := op.objs (ownWords p)
  let kept := f.epoch.cmds.map fun x => if x.objs.any objs.contains then { x with charge := 0 } else x
  let new : StagedCmd := { op := op.code, pkt := p, objs := objs, charge := stageCharge p }
  { f with epoch := { f.epoch with cmds := kept ++ [new] } }

/-- The staged content has room for a command (R545). -/
def hasRoom (op : OpSpec) (p : Packet) (f : State) : Bool := stageKeep (op.objs (ownWords p)) f.epoch.cmds + stageCharge p ≤ stageArea

/-- A handler's answer with what a success leaves in Halter (R449, R452). -/
def keptAnswer (op : OpSpec) (f : State) (r : HRes) : HRes := if r.success then r.mapState (kept op f) else r

/-- A command ends with OK and at most 13 result words in its reply (R47, R57). -/
def repliedOk (op : OpSpec) (p : Packet) (ws : List Word) (t : State) (s : State) : Res :=
  .next (replyTo p .ok ws ws.length (kept op (fetched op p s) t))

/-- A command ends with OK, with data in its result buffer (R45, R57). -/
def repliedData (op : OpSpec) (p : Packet) (ws : List Word) (bs : List Byte) (t : State) (s : State) : Res :=
  .next (replyTo p .ok ws ws.length (toBuffer p bs (kept op (fetched op p s) t)))

/-- A command ends with OK and more than 13 result words, which go to its result buffer (R57). -/
def repliedLong (op : OpSpec) (p : Packet) (ws : List Word) (t : State) (s : State) : Res :=
  .next (replyTo p .ok [] (min 31 ws.length) (toBuffer p (bytesOfWords ws) (kept op (fetched op p s) t)))

/-- The packet has a result buffer of at least some bytes, and it can be written (R45, R57). -/
def holdsResult (p : Packet) (bytes : Nat) : Bool := flagResultBuf p && bytes ≤ bufLenOf p && p.env.resultOk

/-- A command ends with OK wherever its packet is accepted and its own conditions hold of what the packet gives (`c`) and of
the state in which its handler runs (`f`): the result words in its reply and the state that it leaves. -/
def EndsOk (row : Packet → Instr) (op : OpSpec) (ok : Ctx → State → Prop) (ws : Ctx → State → List Word)
    (left : Ctx → State → State) : Prop :=
  ∀ p s, accepts op p s = true → ok (ctxOf op p (fetched op p s)) (fetched op p s) →
    exec (row p) s = repliedOk op p (ws (ctxOf op p (fetched op p s)) (fetched op p s))
      (left (ctxOf op p (fetched op p s)) (fetched op p s)) s

/-- The same for a command with more than 13 result words, where its packet has room for them. -/
def EndsLong (row : Packet → Instr) (op : OpSpec) (ok : Ctx → State → Prop) (ws : Ctx → State → List Word)
    (left : Ctx → State → State) : Prop :=
  ∀ p s, accepts op p s = true → ok (ctxOf op p (fetched op p s)) (fetched op p s) →
    holdsResult p (4 * (ws (ctxOf op p (fetched op p s)) (fetched op p s)).length) = true →
    exec (row p) s = repliedLong op p (ws (ctxOf op p (fetched op p s)) (fetched op p s))
      (left (ctxOf op p (fetched op p s)) (fetched op p s)) s

/-- The same for a command with data for its result buffer, where its packet has room for them. -/
def EndsData (row : Packet → Instr) (op : OpSpec) (ok : Ctx → State → Prop) (ws : Ctx → State → List Word)
    (bs : Ctx → State → List Byte) (left : Ctx → State → State) : Prop :=
  ∀ p s, accepts op p s = true → ok (ctxOf op p (fetched op p s)) (fetched op p s) →
    holdsResult p (bs (ctxOf op p (fetched op p s)) (fetched op p s)).length = true →
    exec (row p) s = repliedData op p (ws (ctxOf op p (fetched op p s)) (fetched op p s))
      (bs (ctxOf op p (fetched op p s)) (fetched op p s)) (left (ctxOf op p (fetched op p s)) (fetched op p s)) s

/-- A command starts wherever its packet is accepted and its own conditions hold, and waits for what ends it: the numbers that it
keeps and the state that it leaves. Its queue takes no packet meanwhile (R48). -/
def Starts (row : Packet → Instr) (op : OpSpec) (ok : Ctx → State → Prop) (data : Ctx → State → List Nat)
    (left : Ctx → State → State) : Prop :=
  ∀ p s, accepts op p s = true → ok (ctxOf op p (fetched op p s)) (fetched op p s) →
    exec (row p) s = .next (setExecuting p op.code (data (ctxOf op p (fetched op p s)) (fetched op p s))
      (kept op (fetched op p s) (left (ctxOf op p (fetched op p s)) (fetched op p s))))

/-- A command that writes nothing that can be staged is answered wherever its packet is accepted and its own conditions hold, with
what `r` says: for a command whose end rests on what the spec leaves to an outside authority or a cipher. -/
def Answers (row : Packet → Instr) (op : OpSpec) (ok : Ctx → State → Prop) (r : Ctx → State → HRes) : Prop :=
  ∀ p s, accepts op p s = true → ok (ctxOf op p (fetched op p s)) (fetched op p s) →
    exec (row p) s = .next (answer p (flagResultBuf p) (bufLenOf p)
      (keptAnswer op (fetched op p s) (r (ctxOf op p (fetched op p s)) (fetched op p s))) (fetched op p s))

/-! The command packets: each row of the table with its opcode (Table 2.7). -/

def packetRowsA : List ((Packet → Instr) × OpSpec) :=
  [(.nop, opNop), (.identify, opIdentify), (.statusRead, opStatusRead), (.epochStage, opEpochStage),
   (.epochPrepare, opEpochPrepare), (.epochActivate, opEpochActivate), (.epochAbort, opEpochAbort), (.queueBind, opQueueBind),
   (.imageWrite, opImageWrite), (.imageStatus, opImageStatus), (.settingsStatus, opSettingsStatus), (.moduleReset, opModuleReset),
   (.inbandConfig, opInbandConfig), (.notifyMask, opNotifyMask), (.hostqConfig, opHostqConfig), (.portConfig, opPortConfig),
   (.portState, opPortState), (.terminalAdd, opTerminalAdd), (.terminalRemove, opTerminalRemove), (.ploamSend, opPloamSend),
   (.bpmRead, opBpmRead), (.opticsAccess, opOpticsAccess), (.omciBind, opOmciBind), (.discoveryConfig, opDiscoveryConfig),
   (.rangingRead, opRangingRead), (.terminalRerange, opTerminalRerange)]

def packetRowsB : List ((Packet → Instr) × OpSpec) :=
  [(.allocWrite, opAllocWrite), (.allocRead, opAllocRead), (.allocDelete, opAllocDelete), (.scheduleHint, opScheduleHint),
   (.cinchBudget, opCinchBudget), (.weaverStats, opWeaverStats), (.upstreamGateLoad, opUpstreamGateLoad),
   (.parseGraphLoad, opParseGraphLoad), (.ruleTreeLoad, opRuleTreeLoad), (.ruleUpdate, opRuleUpdate),
   (.ruleVersionCommit, opRuleVersionCommit), (.ruleVersionStatus, opRuleVersionStatus), (.exceptionConfig, opExceptionConfig),
   (.macStaticAdd, opMacStaticAdd), (.macDelete, opMacDelete), (.macLookup, opMacLookup), (.macFlush, opMacFlush),
   (.ageingConfig, opAgeingConfig), (.lpmAdd, opLpmAdd), (.lpmDelete, opLpmDelete), (.lpmLoad, opLpmLoad),
   (.stitchConfig, opStitchConfig), (.queueConfig, opQueueConfig), (.schedNodeConfig, opSchedNodeConfig),
   (.shaperConfig, opShaperConfig), (.gateListLoad, opGateListLoad)]

def packetRowsC : List ((Packet → Instr) × OpSpec) :=
  [(.queueStats, opQueueStats), (.sampleRingConfig, opSampleRingConfig), (.sampleRingRead, opSampleRingRead),
   (.scConfig, opScConfig), (.saConfig, opSaConfig), (.saActivate, opSaActivate), (.ponKeySwitch, opPonKeySwitch),
   (.keyGenerate, opKeyGenerate), (.keyWrap, opKeyWrap), (.shedarUpdate, opShedarUpdate), (.slotErase, opSlotErase),
   (.slotInfo, opSlotInfo), (.attestOperator, opAttestOperator), (.attestTenant, opAttestTenant), (.encReserve, opEncReserve),
   (.updateEpochAdvance, opUpdateEpochAdvance), (.alarmStatus, opAlarmStatus), (.poolConfig, opPoolConfig),
   (.poolStats, opPoolStats), (.hideKeyChange, opHideKeyChange), (.hideStatus, opHideStatus), (.regionReinit, opRegionReinit),
   (.rightsWrite, opRightsWrite), (.uplinkConfig, opUplinkConfig), (.laneConfig, opLaneConfig), (.laneStatus, opLaneStatus)]

def packetRowsD : List ((Packet → Instr) × OpSpec) :=
  [(.plaitConfig, opPlaitConfig), (.protectionCommand, opProtectionCommand), (.laneEyeScan, opLaneEyeScan),
   (.timeRead, opTimeRead), (.timeSet, opTimeSet), (.ptpConfig, opPtpConfig), (.asymmetrySet, opAsymmetrySet),
   (.synceConfig, opSynceConfig), (.tsQueueRead, opTsQueueRead), (.halterEnter, opHalterEnter), (.halterExit, opHalterExit),
   (.domainControl, opDomainControl), (.feedConfig, opFeedConfig), (.powerStatus, opPowerStatus), (.faultRead, opFaultRead),
   (.faultClear, opFaultClear), (.recorderRead, opRecorderRead), (.recorderErase, opRecorderErase),
   (.counterConfig, opCounterConfig), (.counterRead, opCounterRead), (.patinaScan, opPatinaScan), (.patinaStatus, opPatinaStatus),
   (.vfCounterGrant, opVfCounterGrant)]

/-- All rows that carry a command packet. -/
def packetRows : List ((Packet → Instr) × OpSpec) := packetRowsA ++ packetRowsB ++ packetRowsC ++ packetRowsD

end Sys2Proof.Machine
end

