-- ==== Sys2Proof/Certificates/Slice0/Obligations.lean ====
section
/-! DEFINITION. The statements for the provers. Each docstring names the rules that its statement rests on. -/

open Sys2Proof Sys2Proof.Machine

/-- NOP, IDENTIFY, STATUS_READ, IMAGE_STATUS and SETTINGS_STATUS change nothing and answer the words of R43 and R80: the
identity block 0 to 11 (device identifier, silicon step, grade, ROM build, the sequence numbers and selection of the four copies),
the status block 0 to 5 (a virtual function sees the state and the current epoch only, R38), three words for each boot copy, one
for each settings record and the debug area's flag. -/
def Obligations.ModuleReadsAnswer : Prop :=
  EndsOk .nop opNop (fun _ _ => True) (fun _ _ => []) (fun _ f => f) ∧
  EndsOk .identify opIdentify (fun _ _ => True)
    (fun _ f => [wd Config.deviceId.toNat, wd (Config.deviceId.toNat / 2 ^ 32), wd (Config.deviceId.toNat / 2 ^ 64),
      wd (Config.deviceId.toNat / 2 ^ 96), Config.siliconStep, if Config.gradeE then 2 else 1, Config.romBuild,
      shownSeq (copyAt f 0), shownSeq (copyAt f 1), shownSeq (copyAt f 2), shownSeq (copyAt f 3),
      wd (b2n (copyAt f 1).selected + 2 * b2n (copyAt f 3).selected)]) (fun _ f => f) ∧
  EndsOk .statusRead opStatusRead (fun _ _ => True)
    (fun c f => match c.master with
      | .vf _ => [wd (stateCode f.boot.state), wd f.epoch.current.toNat, 0, 0, 0, 0]
      | _ => [wd (stateCode f.boot.state),
          wd ((if committing f then f.epoch.staged.toNat else 0) * 65536 + f.epoch.current.toNat),
          wd (phaseCode f.epoch.phase), wd f.rules.current, wd (lifeCode f.vault.life),
          wd (f.vault.raised % 2048 + 65536 * b2n f.vault.hold.isSome + 131072 * b2n (testRoot f))]) (fun _ f => f) ∧
  EndsOk .imageStatus opImageStatus (fun _ _ => True)
    (fun _ f => copyWords (copyAt f 0) ++ copyWords (copyAt f 1) ++ copyWords (copyAt f 2) ++ copyWords (copyAt f 3))
    (fun _ f => f) ∧
  EndsOk .settingsStatus opSettingsStatus (fun _ _ => True)
    (fun _ f => [settingWord (settingRec f 0), settingWord (settingRec f 1), settingWord (settingRec f 2),
      settingWord (settingRec f 3), settingWord (settingRec f 4), settingWord (settingRec f 5), settingWord (settingRec f 6),
      settingWord (settingRec f 7), settingWord (settingRec f 8), wd (b2n (testRoot f))]) (fun _ f => f)

/-- NOTIFY_MASK, INBAND_CONFIG, HOSTQ_CONFIG, QUEUE_BIND and IMAGE_WRITE, each under the conditions that R78, R79, R82, R77 and
R67 put on it, write exactly the state that their parameters name: the mask; the in-band enables, slot and groups; a host
queue's binding, world, vector, ring and interval, its pointers and errors cleared where it is enabled; a pair's binding with
its pointers, ERROR, phase and SEQ expectation started again, the grants of a function that loses its last pair withdrawn; and the
target copy, erased, programmed with its header last, unmarked, with its CONFIG record, where the image verifies (what verifies is
open), else it is refused; a copy that does not read back is invalid. What it says by the model's choice is in log entries 88, 156
and 157. -/
def Obligations.ModuleWritesTakeEffect : Prop :=
  EndsOk .notifyMask opNotifyMask (fun c _ => bit (c.w 0) 4 = false) (fun _ _ => [])
    (fun c f => { f with host := { f.host with notifyMask := c.w 0 } }) ∧
  EndsOk .inbandConfig opInbandConfig
    (fun c f => fld (c.w 0) 17 0 < 0x10000 ∧ (fld (c.w 1) 15 0).testBit 6 = false ∧ (fld (c.w 1) 15 0).testBit 15 = false ∧
      (slotAt f (fld (c.w 0) 17 0)).valid = true ∧ inbandSlot (slotAt f (fld (c.w 0) 17 0)) = true) (fun _ _ => [])
    (fun c f => { f with host := { f.host with
      inEnable := bit (c.w 0) 31, inSideA := bit (c.w 0) 30, inSideB := bit (c.w 0) 29, inSlot := fld (c.w 0) 17 0,
      inGroups := fld (c.w 1) 15 0 } }) ∧
  EndsOk .hostqConfig opHostqConfig
    (fun c f => (bit (c.w 0) 30 = true → fld (c.w 0) 7 0 ≤ 63) ∧ fld (c.w 0) 23 16 ≤ 63 ∧ fld (c.w 1) 3 0 ≤ 10 ∧
      worldCode (fld (c.w 1) 31 16) = true ∧ fld (c.w 1) 15 8 < msixEntries (fld (c.w 0) 23 16) ∧ fld (c.w 2) 11 0 = 0 ∧
      (fld (c.w 0) 23 16 ≠ 0 → vfInWorld f (fld (c.w 0) 23 16) (fld (c.w 1) 31 16) = true) ∧
      (bit (c.w 0) 31 = true → (if bit (c.w 0) 30 then hiqAt f (fld (c.w 0) 7 0) else hrqAt f (fld (c.w 0) 7 0)).enable = false))
    (fun _ _ => [])
    (fun c f =>
      let set (h : HostQ) : HostQ :=
        let h := { h with enable := bit (c.w 0) 31, bound := fld (c.w 0) 23 16, world := fld (c.w 1) 31 16,
                          vector := fld (c.w 1) 15 8, slotSize := fld (c.w 1) 5 4, slots := fld (c.w 1) 3 0, ringLo := c.w 2,
                          ringHi := c.w 3, modUs := fld (c.w 4) 15 0 }
        if bit (c.w 0) 31 then { h with head := 0, tail := 0, phase := true, error := 0, drops := 0, lastVec := none,
                                        unsignalled := false } else h
      if bit (c.w 0) 30 then updHiq (fld (c.w 0) 7 0) set f else updHrq (fld (c.w 0) 7 0) set f) ∧
  EndsOk .queueBind opQueueBind
    (fun c f => fld (c.w 0) 5 0 ≠ 0 ∧ (pairAt f (fld (c.w 0) 5 0)).enable = false ∧
      (pairAt f (fld (c.w 0) 5 0)).executing = none ∧ (pairAt f (fld (c.w 0) 5 0)).cqHead = (pairAt f (fld (c.w 0) 5 0)).cqTail ∧
      ((fld (c.w 0) 31 24 = 0 ∧ fld (c.w 1) 15 0 = 0x0100 ∧ fld (c.w 1) 31 16 < 64) ∨
       (1 ≤ fld (c.w 0) 31 24 ∧ fld (c.w 0) 31 24 ≤ 63 ∧ fld (c.w 1) 15 0 ≤ 0xFF ∧ fld (c.w 1) 31 16 < 8 ∧
        ∀ e ∈ pairsOf f (fld (c.w 0) 31 24), e.1 ≠ fld (c.w 0) 5 0 → e.2.world = fld (c.w 1) 15 0))) (fun _ _ => [])
    (fun c f =>
      let t := updPair (fld (c.w 0) 5 0) (fun x => { x with
        bound := fld (c.w 0) 31 24, world := fld (c.w 1) 15 0, served := true, vector := fld (c.w 1) 31 16, cqHead := 0, cqTail := 0,
        rqHead := 0, rqTail := 0, error := 0, phase := true, seqExp := none, written := [], held := [] }) f
      let was := pairAt f (fld (c.w 0) 5 0)
      if was.served = true ∧ was.bound ≠ fld (c.w 0) 31 24 ∧ 1 ≤ was.bound ∧ was.bound ≤ 63 ∧ (pairsOf t was.bound).isEmpty = true then
        withdrawGrants was.bound t else t) ∧
  Answers .imageWrite opImageWrite
    (fun c f => c.hasData = true ∧ (fld (c.w 0) 1 0 = 1 ∨ fld (c.w 0) 1 0 = 2) ∧
      (∀ i < 2, (copyAt f (2 * (fld (c.w 0) 1 0 - 1) + i)).valid = true →
        (copyAt f (2 * (fld (c.w 0) 1 0 - 1) + i)).sequence < imageSeq c.data))
    (fun c f =>
      let k := writeTarget f (fld (c.w 0) 1 0)
      let a := copyOffset k
      let g := emit (.flash a (some (c.data.take 4))) (emit (.flash (a + 4) (some (slice c.data 4 252)))
        (emit (.flash (a + 256) (some (c.data.drop 256))) (emit (.flash a none) f)))
      if c.data.length = 256 + imageLen c.data ∧ imageValid f (2 * (fld (c.w 0) 1 0 - 1)) c.data = true then
        if c.pkt.env.flashOk then
          let t := updCopy k (fun x => { x with
            valid := imageValid g k c.data, sequence := imageSeq c.data, len := imageLen c.data, body := c.data, failed := false }) g
          .done (recordEv 0x0008 6 0x0C 0 0 0x0100 [wd (fld (c.w 0) 1 0), wd (k % 2), wd (imageSeq c.data)]
            (if (copyAt f k).failed then storeSetting 4 [wd (failureMarks t)] c.pkt.env.norOk t else t))
            [wd (k % 2), wd (imageSeq c.data)]
        else .ended (updCopy k (fun x => { x with valid := false, body := [] }) g) .imageInvalid []
      else .refuse .imageInvalid [])

/-- The four epoch commands, in the state of the commit that R544 asks and with the EPOCH of the commit: EPOCH_STAGE stages
current + 1; EPOCH_PREPARE with every unit answering and none failing prepares it, and a quiet window of a port whose staged reach it holds
does not open (from R139); EPOCH_ACTIVATE with a point from 500 µs to 60 s
ahead (from R76) arms it; EPOCH_ABORT discards it, where it is not armed with under 100 µs left (from R74). -/
def Obligations.EpochCommandsAdvanceCommit : Prop :=
  EndsOk .epochStage opEpochStage
    (fun c f => f.halter.stage ≠ .halter ∧ f.epoch.phase = .none ∧ epochOf c = f.epoch.current + 1) (fun _ _ => [])
    (fun c f => { f with epoch := { f.epoch with phase := .staged, staged := epochOf c, cmds := [] } }) ∧
  EndsOk .epochPrepare opEpochPrepare
    (fun c f => f.halter.stage ≠ .halter ∧ f.epoch.phase = .staged ∧ epochOf c = f.epoch.staged ∧ silentOf c.pkt f = [] ∧
      stagedFailures f.epoch.cmds f = []) (fun _ _ => [])
    (fun _ f => closeHeldWindows { f with epoch := { f.epoch with phase := .prepared } }) ∧
  EndsOk .epochActivate opEpochActivate
    (fun c f => f.halter.stage ≠ .halter ∧ f.epoch.phase = .prepared ∧ epochOf c = f.epoch.staged ∧
      (bit (c.w 0) 31 = true → (c.w 3).toNat ≤ 999999999 ∧
        f.time.tc + 500000 * nsUnit ≤ (join64 (c.w 1) (c.w 2) * 1000000000 + (c.w 3).toNat) * nsUnit ∧
        (join64 (c.w 1) (c.w 2) * 1000000000 + (c.w 3).toNat) * nsUnit ≤ f.time.tc + 60000000000 * nsUnit) ∧
      (bit (c.w 0) 31 = false → f.time.sfc + 4 ≤ join64 (c.w 1) (c.w 2) ∧ join64 (c.w 1) (c.w 2) ≤ f.time.sfc + 480000))
    (fun _ _ => [])
    (fun c f => { f with epoch := { f.epoch with phase := .armed, kind := fld (c.w 0) 31 31, point := actPoint c } }) ∧
  EndsOk .epochAbort opEpochAbort
    (fun c f => (f.epoch.phase = .staged ∨ f.epoch.phase = .prepared ∨ (f.epoch.phase = .armed ∧ epochMayAbort f = true)) ∧
      epochOf c = f.epoch.staged) (fun _ _ => [])
    (fun _ f => { f with epoch := { f.epoch with phase := .none, staged := 0, cmds := [], kind := 0, point := 0 } })

/-- The epoch's events. At the activation point the staged epoch becomes current, the previous one drains with its in-flight
count, the banks' previous copies are kept, the array's with them, the staged commands are applied in order and the CONFIG record is made (from R32, R70).
With no frame of the previous epoch in flight its bank goes, the state returns to NONE and EPOCH_DRAINED names both epochs
and no dropped frame (from R33). 1 ms after activation with frames left, the previous epoch is released all the same (from R75). A
silent EPOCH_PREPARE ends 1 ms after it began with PREPARE_FAILED, the lowest failing path and the number of failing units,
and the staged content is discarded (from R73). What it says by the model's choice is in log entry 88. -/
def Obligations.EpochEventsRunCommit : Prop :=
  (∀ s : State, activationDue s = true → exec .epochActivationTick s =
    .next (recordEv 0x0008 1 0x0C 0 0 0x0100 [wd s.epoch.staged.toNat] (replay false s.epoch.cmds { s with
      rules := { s.rules with prev := s.rules.bank }
      cipher := { s.cipher with prev := { channels := s.cipher.channels, assocs := s.cipher.assocs, reserve := s.cipher.reserve } }
      epoch := { s.epoch with previous := some s.epoch.current, current := s.epoch.staged, staged := 0, phase := .draining,
                              cmds := [], kind := 0, point := 0, inFlightPrev := s.epoch.inFlight, inFlight := 0,
                              mark := s.mono } }).1)) ∧
  (∀ (s : State) (e : BitVec 16), s.epoch.phase = .draining → s.epoch.inFlightPrev = 0 → s.epoch.previous = some e →
    exec .epochDrained s = .next (notify .epochDrained [pack [(e.toNat, 16, 16), (s.epoch.current.toNat, 16, 0)], 0] { s with
      epoch := { s.epoch with phase := .none, previous := none }, rules := { (settleSeqs s).rules with prev := {} },
      cipher := { s.cipher with prev := {} } })) ∧
  (∀ s : State, s.epoch.phase = .draining → s.epoch.inFlightPrev ≠ 0 → s.epoch.mark + ms ≤ s.mono →
    ∃ t, exec .epochDrainLate s = .next t ∧ t.epoch.phase = .none ∧ t.epoch.previous = none ∧ t.epoch.inFlightPrev = 0 ∧
      t.rules.prev = {} ∧ t.cipher.prev = {}) ∧
  (∀ (s : State) (q : Nat) (x : Exec) (u : Nat × Nat × Nat) (st : Status),
    executingQ s 0x0005 (prepareDue s) = [q] →
    (pairAt s q).executing = some x → x.discard = false →
    let f := updPair q (fun p => { p with executing := none }) s
    let fails := (stagedFailures f.epoch.cmds f).filter (fun e => !(silentOf x.pkt f).contains e.1) ++
      (silentOf x.pkt f).eraseDups.map fun u => (u, Status.unitTimeout)
    lowestFailure fails = some (u, st) →
    exec .epochPrepareTimeout s = .next (pumpAll (replyTo x.pkt .prepareFailed
      [pack [(u.1, 8, 24), (u.2.1, 8, 16), (u.2.2, 16, 0)], wd (statusCode st), wd fails.length] 3 (discardEpoch f))))

/-- The registers of BAR0 that a function reaches (from R38). A CQ_TAIL doorbell takes the packets that the host has written, and
RQ_HEAD writes the replies that waited; after each, and after a write of ENABLE, every pair fetches while it may (from R547, R548).
ENABLE 0 to 1 clears ERROR, and a base that is not aligned to 4 KiB sets ERROR 4. PENDING is cleared by a write of 1 (from R42). HRQ_HEAD
moves a receive queue's HEAD, and HIQ_TAIL beyond the ring sets ERROR 2 and disables the injection queue (from R85). -/
def Obligations.DoorbellsMoveQueues : Prop :=
  (∀ (fn pair tail : Nat) (packets : List Written) (s : State), fn < 64 → pair < 64 → seesPair s fn pair = true →
    exec (.cqTail fn pair tail packets) s = .next (pumpAll (updPair pair (fun x => { x with
      cqTail := BitVec.ofNat 12 tail
      written := x.written ++ packets.map fun w => { w with pkt := { w.pkt with src := .pair pair } } }) s))) ∧
  (∀ (fn pair value : Nat) (s : State), fn < 64 → pair < 64 → seesPair s fn pair = true →
    exec (.rqHead fn pair value) s = .next (pumpAll (flushHeld pair (pairAt s pair).held.length
      (updPair pair (fun x => { x with rqHead := BitVec.ofNat 12 value }) s)))) ∧
  (∀ (fn pair : Nat) (v : Word) (s : State), fn < 64 → pair < 64 → seesPair s fn pair = true →
    exec (.qpEnable fn pair v) s = .next (pumpAll (updPair pair (fun x => { x with
      enable := bit v 0
      error := if bit v 0 then
          (if fld x.cqBaseLo 11 0 ≠ 0 ∨ fld x.rqBaseLo 11 0 ≠ 0 then 4 else if x.enable then x.error else 0)
        else x.error }) s))) ∧
  (∀ (fn : Nat) (bits : BitVec 64) (s : State), fn < 64 →
    exec (.pending fn bits) s =
      .next { s with host := { s.host with pending := s.host.pending &&& ~~~(bits &&& seenBits s fn) } }) ∧
  (∀ (fn queue value : Nat) (s : State), fn < 64 → queue < 64 → reachesQueue fn (hiqAt s queue) = true →
    exec (.hiqTail fn queue value) s = .next (updHiq queue (fun h =>
      if value % 65536 < ringSlots h then { h with tail := value % 65536 } else { h with error := 2, enable := false }) s)) ∧
  (∀ (fn queue value : Nat) (s : State), fn < 64 → queue < 256 → reachesQueue fn (hrqAt s queue) = true →
    exec (.hrqHead fn queue value) s =
      .next (updHrq queue (fun h => { h with head := value % 65536 % ringSlots h }) s))

/-- REGISTER_WRITE does what the access code of the word states (from R7, R37 to R42, R85): a base register of a pair that the
function reaches keeps it, its CQ_TAIL, RQ_HEAD and ENABLE act as their doorbells, a 1 clears PENDING, MASK keeps the bits that the
function reaches, a host queue's HEAD or TAIL moves, and a write of any other word changes nothing. A read gives the registers of the
pairs that the function reaches, 0 for those of another and for reserved words, and the status block with the world of the reading
function's binding (from R38, R39, R43). FUNCTION_LEVEL_RESET disables the pairs bound to the function
and marks their replies to be discarded; the bindings stay (from R41). A vendor opcode is answered LOCKED in DEPLOYED and
NOT_PERMITTED elsewhere, and changes nothing (from R56). The places of PENDING and MASK are the model's (log entry 61). What it
says by the model's choice is in log entries 9, 14. -/
def Obligations.WindowWritesAndVendorOpcodes : Prop :=
  (∀ (fn n k : Nat) (v : Word) (s : State), fn < 64 → n < 64 → k < 4 → seesPair s fn n = true →
    exec (.registerWrite fn (64 * n + 4 * k) v) s = .next (updPair n (fun x => match k with
      | 0 => { x with cqBaseLo := v } | 1 => { x with cqBaseHi := v } | 2 => { x with rqBaseLo := v }
      | _ => { x with rqBaseHi := v }) s)) ∧
  (∀ (fn n : Nat) (v : Word) (s : State), fn < 64 → n < 64 → seesPair s fn n = true →
    exec (.registerWrite fn (64 * n + 0x10) v) s =
      .next (pumpAll (updPair n (fun x => { x with cqTail := BitVec.ofNat 12 (fld v 11 0) }) s)) ∧
    exec (.registerWrite fn (64 * n + 0x18) v) s =
      .next (pumpAll (flushHeld n (pairAt s n).held.length
        (updPair n (fun x => { x with rqHead := BitVec.ofNat 12 (fld v 11 0) }) s))) ∧
    exec (.registerWrite fn (64 * n + 0x20) v) s = .next (pumpAll (updPair n (fun x => { x with
      enable := bit v 0
      error := if bit v 0 then
          (if fld x.cqBaseLo 11 0 ≠ 0 ∨ fld x.rqBaseLo 11 0 ≠ 0 then 4 else if x.enable then x.error else 0)
        else x.error }) s))) ∧
  (∀ (fn : Nat) (v : Word) (s : State), fn < 64 →
    exec (.registerWrite fn 0x1000 v) s = .next { s with host := { s.host with
      pending := s.host.pending &&& ~~~(v.setWidth 64 &&& seenBits s fn) } } ∧
    exec (.registerWrite fn 0x1004 v) s = .next { s with host := { s.host with
      pending := s.host.pending &&& ~~~(v.setWidth 64 <<< 32 &&& seenBits s fn) } }) ∧
  (∀ (fn : Nat) (v : Word) (s : State), fn < 64 →
    exec (.registerWrite fn 0x1008 v) s = .next { s with host := { s.host with
      mask := (s.host.mask &&& ~~~(seenBits s fn &&& 0xFFFFFFFF#64)) |||
        (v.setWidth 64 &&& (seenBits s fn &&& 0xFFFFFFFF#64)) } } ∧
    exec (.registerWrite fn 0x100C v) s = .next { s with host := { s.host with
      mask := (s.host.mask &&& ~~~(seenBits s fn &&& 0xFFFFFFFF00000000#64)) |||
        (v.setWidth 64 <<< 32 &&& (seenBits s fn &&& 0xFFFFFFFF00000000#64)) } }) ∧
  (∀ (fn q : Nat) (v : Word) (s : State), fn < 64 →
    (q < 256 → reachesQueue fn (hrqAt s q) = true → exec (.registerWrite fn (0x2000 + 16 * q) v) s =
      .next (updHrq q (fun h => { h with head := fld v 15 0 % ringSlots h }) s)) ∧
    (q < 64 → reachesQueue fn (hiqAt s q) = true → exec (.registerWrite fn (0x3004 + 16 * q) v) s =
      .next (updHiq q (fun h =>
        if fld v 15 0 < ringSlots h then { h with tail := fld v 15 0 } else { h with error := 2, enable := false }) s))) ∧
  (∀ (fn k : Nat) (v : Word) (s : State), fn < 64 → 4 * k < (if fn = 0 then 65536 else 16384) →
    (4 * k < 0x1000 → seesPair s fn (k / 16) = false ∨ k % 16 = 5 ∨ k % 16 = 7 ∨ 9 ≤ k % 16) →
    (0x1000 ≤ 4 * k → 4 * k < 0x2000 → 0x1010 ≤ 4 * k) →
    (0x2000 ≤ 4 * k → 4 * k < 0x3000 → k % 4 ≠ 0 ∨ reachesQueue fn (hrqAt s ((k - 0x800) / 4)) = false) →
    (0x3000 ≤ 4 * k → 4 * k < 0x3400 → k % 4 ≠ 1 ∨ reachesQueue fn (hiqAt s ((k - 0xC00) / 4)) = false) →
    exec (.registerWrite fn (4 * k) v) s = .next s) ∧
  (∀ (fn n : Nat) (s : State), n < 64 →
    (seesPair s fn n = false → ∀ k < 16, registerRead fn (64 * n + 4 * k) s = 0) ∧
    (seesPair s fn n = true → registerRead fn (64 * n + 0x10) s = wd (pairAt s n).cqTail.toNat ∧
      registerRead fn (64 * n + 0x14) s = wd (pairAt s n).cqHead.toNat ∧
      registerRead fn (64 * n + 0x18) s = wd (pairAt s n).rqHead.toNat ∧
      registerRead fn (64 * n + 0x1C) s = wd (pairAt s n).rqTail.toNat ∧
      registerRead fn (64 * n + 0x24) s =
        pack [((pairAt s n).error, 8, 24), ((pairAt s n).bound, 8, 16), ((pairAt s n).world, 16, 0)] ∧
      ∀ k, 10 ≤ k → k < 16 → registerRead fn (64 * n + 4 * k) s = 0)) ∧
  (∀ (fn : Nat) (s : State), registerRead fn 0x1200 s = wd (stateCode s.boot.state) ∧
    (fn = 0 → registerRead fn 0x1218 s = 0x0100) ∧
    (fn ≠ 0 → registerRead fn 0x1204 s = wd s.epoch.current.toNat ∧ registerRead fn 0x1208 s = 0) ∧
    (∀ q < 256, reachesQueue fn (hrqAt s q) = false → registerRead fn (0x2000 + 16 * q) s = 0)) ∧
  (∀ (fn : Nat) (s : State), 1 ≤ fn → fn < 64 →
    exec (.functionLevelReset fn) s = .next { s with host := { s.host with pairs := s.host.pairs.map fun e =>
      if e.1 < 64 ∧ e.2.served = true ∧ e.2.bound = fn then
        (e.1, { e.2 with enable := false, executing := e.2.executing.map fun x => { x with discard := true } })
      else e } }) ∧
  (∀ (n : Nat) (p : Packet) (s : State), n < 4096 → readable (opVendor n) p s = true →
    8 ≤ p.length.toNat → p.length.toNat ≤ 4096 → seqGround p s = none → headerGround p = none →
    descWords p ≤ (paramWords p).length →
    exec (.vendorDiagnostics n p) s = .next (replyTo p
      (if s.vault.life = .deployed ∨ s.vault.life = .scrapped then .locked else .notPermitted) [] 0 (fetched (opVendor n) p s)))

/-- Packets and host queues. An in-band packet that authenticates (from R58) is served as its opcode's, and one that does not is
discarded and counted. A unit that does not answer ends its command with UNIT_TIMEOUT and has a unit-fatal error (from R53). The
oldest frame of a receive queue is written, the frame first and word 0 last, HEAD and PHASE aside, and signalled; a failed
write sets ERROR 1 and disables the queue (from R83), and a poisoned frame is dropped and counted (from R16); the end of the moderation interval signals. A failed fetch of an injection
record disables its queue, and a record of KIND 0 sends its frame, with its FCS, to the ingress (from R84). What it says by the
model's choice is in log entries 13, 33. -/
def Obligations.PacketsAndHostQueuesServed : Prop :=
  (∀ (side op : Nat) (p : Packet) (spec : OpSpec) (s : State), side < 2 → op < 65536 → specOf op = some spec →
    let p1 := { p with src := .inband side, inband := { inbandNow s with key := slotBytes s s.host.inSlot } }
    exec (.inbandPacket side op p) s = .next (pumpAll (if inbandAuthentic (inbandNow s) side op p1 s then
      serve spec staged p1 s else bump cInbandAuthFail 1 side s))) ∧
  (∀ (q a cplx unit inst : Nat) (x : Exec) (s : State), q ≤ 64 → (pairAt s q).executing = some x → x.discard = false →
    x.data = [a, cplx, unit, inst] →
    exec (.unitTimeout q) s = .next (pumpAll (raiseNow
      { cplx := cplx, unit := unit, inst := inst, res := 0, code := cplx * 256 + 0x04, cls := 2 }
      (replyTo x.pkt .unitTimeout [] 0 (halfDone x (updPair q (fun p => { p with executing := none }) s)))))) ∧
  (∀ (q : Nat) (f : Frame) (ext : List Word) (rest : List (Frame × List Word)) (s : State), q < 256 →
    (hrqAt s q).waiting = (f, ext) :: rest → (hrqAt s q).enable = true → (hrqAt s q).bound ≠ 0xFF →
    f.wait = false → f.poison = false → 48 + f.len ≤ slotBytesOf (hrqAt s q) → ringUsed (hrqAt s q) + 1 < ringSlots (hrqAt s q) →
    exec (.hostqRecordWrite q true) s = .next (signal q (updHrq q (fun h => { h with
        tail := (h.tail + 1) % ringSlots h, phase := if h.tail + 1 = ringSlots h then !h.phase else h.phase })
      (emit (.dma (hrqAt s q).bound (slotAddr (hrqAt s q) (hrqAt s q).tail)
          (bytesOfWords ((recordHead (hrqAt s q) f ext).take 1)))
        (emit (.dma (hrqAt s q).bound (slotAddr (hrqAt s q) (hrqAt s q).tail + 4)
            (bytesOfWords ((recordHead (hrqAt s q) f ext).drop 1) ++ frameBytes s f))
          (letGo f (updHrq q (fun h => { h with waiting := rest }) (hbmReads f s))))))) ∧
    exec (.hostqRecordWrite q false) s = .next (raise 0x0C 0 0 q (Config.openCode 1) 0 (wd q)
      (updHrq q (fun h => { h with enable := false, error := 1 })
        (letGo f (updHrq q (fun h => { h with waiting := rest }) (hbmReads f s)))))) ∧
  (∀ (q : Nat) (ok : Bool) (f : Frame) (ext : List Word) (rest : List (Frame × List Word)) (s : State), q < 256 →
    (hrqAt s q).waiting = (f, ext) :: rest → f.wait = false → f.poison = true →
    exec (.hostqRecordWrite q ok) s = .next (bumpW cDropChannel 9 0x46 f.world
      (letGo f (updHrq q (fun h => { h with waiting := rest }) (hbmReads f s))))) ∧
  (∀ (q : Nat) (s : State), q < 256 → (hrqAt s q).unsignalled = true →
    exec (.hostqModerationExpiry q) s = .next (signal q s)) ∧
  (∀ (q : Nat) (ws : List Word) (bs : List Byte) (s : State), nextInjection s = some q →
    exec (.injectionFetch ws bs true false) s = .next (updHiq q (fun h => { h with enable := false, error := 1 })
      { s with host := { s.host with injNext := (q + 1) % 64 } })) ∧
  (∀ (q : Nat) (ws : List Word) (bs : List Byte) (s : State), nextInjection s = some q → fld (nthW ws 0) 31 30 = 0 →
    60 ≤ fld (nthW ws 0) 13 0 → fld (nthW ws 0) 13 0 ≤ 12284 →
    let f := updHiq q (fun h => { h with head := (h.head + 1) % ringSlots h })
      { s with host := { s.host with injNext := (q + 1) % 64 } }
    exec (.injectionFetch ws bs true true) s = .next (ingress { frame := {
      source := 82, dir := 2, world := (hiqAt f q).world,
      bytes := withFcs (bs.take (fld (nthW ws 0) 13 0) ++ [0, 0, 0, 0]) } } true f))

/-- The feeds (from R508 to R513). A valid feed starts SOFT_START from OFF on that feed, the zero of the boot timeline, and ends RIDE
within 20 µs with one brown-out counted; one that has crossed the overvoltage limit does not validate at 61 V or more. A feed in use
that becomes invalid in RUN hands over to the other feed, counted, and its FEED_INVALID is raised; without
another valid feed the stage enters RIDE with the under-voltage mark. A crossing of voltages chooses a feed again. RETURN_MS returns
to the preferred feed. 60 s without a switch-over clear FEED_FLAP. Overcurrent opens a feed for 1 s, and ORING_FAIL excludes it. -/
def Obligations.FeedsStartSwitchAndExclude : Prop :=
  (∀ (f volts : Nat) (s : State), f < 2 → 880 < volts → volts < 6150 → ((feedAt s f).overVolt = true → volts < 6100) →
    (feedAt s f).excluded = false → (feedAt s f).outSince = none → s.power.stage = .off → (feedAt s (otherFeed f)).valid = false →
    ∃ t, exec (.feedValidated f volts) s = .next t ∧ (feedAt t f).valid = true ∧ (feedAt t f).volts = volts ∧
      t.power.stage = .softStart ∧ t.power.active = f ∧ t.power.entered = s.mono ∧ t.power.switchovers = 0 ∧
      t.boot = { s.boot with phase := .softStart, zero := s.mono, ahead := 0, cause := 1 }) ∧
  (∀ (f volts : Nat) (s : State), f < 2 → (feedAt s f).overVolt = true → 6100 ≤ volts → exec (.feedValidated f volts) s = .next s) ∧
  (∀ (f volts : Nat) (s : State), f < 2 → 880 < volts → volts < 6150 → ((feedAt s f).overVolt = true → volts < 6100) →
    (feedAt s f).excluded = false → (feedAt s f).outSince = none → s.power.stage = .ride → s.mono ≤ s.power.entered + 20 * us →
    ∃ t, exec (.feedValidated f volts) s = .next t ∧ (feedAt t f).valid = true ∧ t.power.stage = .run ∧ t.power.active = f ∧
      t.power.brownouts = min 0xFFFF (s.power.brownouts + 1) ∧ t.vault.under = false) ∧
  (∀ (f volts cause : Nat) (s : State), f < 2 → (feedAt s f).valid = true →
    (cause = 1 ∧ volts < 830 ∨ cause = 2 ∧ 6150 < volts) → s.power.stage = .run →
    ∃ t, exec (.feedInvalid f volts cause) s = .next t ∧ (feedAt t f).valid = false ∧ (feedAt t f).volts = volts ∧
      (feedAt t f).overVolt = decide (cause = 2) ∧
      if (feedAt s (otherFeed f)).valid then
        (feedAt t f).fault.isSome = true ∧ t.power.stage = .run ∧ t.power.active = (if s.power.active = f then otherFeed f else s.power.active) ∧
        t.power.switchovers = (if s.power.active = f then min 0xFFFF (s.power.switchovers + 1) else s.power.switchovers)
      else t.power.stage = .ride ∧ t.power.entered = s.mono ∧ t.vault.under = true) ∧
  (∀ (a b : Nat) (s : State), exec (.feedVoltageCrossing a b) s = .next (chooseFeed (trackReturn { s with
    power := { s.power with a := { s.power.a with volts := a }, b := { s.power.b with volts := b } } }))) ∧
  (∀ s : State, returnDue s = true → ∃ t, exec .returnMsExpiry s = .next t ∧ t.power.active = prefNow s ∧
    t.power.lastSwitch = s.mono ∧ t.power.switchovers = min 0xFFFF (s.power.switchovers + 1)) ∧
  (∀ s : State, s.power.flap = true → s.power.lastSwitch + 60 * sec ≤ s.mono →
    exec .feedFlapClear s = .next (chooseFeed (lower 0x0E 0 0 0 0x0E14 1
      { s with power := { s.power with flap := false, recent := [] } }))) ∧
  (∀ (f : Nat) (s : State), f < 2 → s.power.stage = .run ∨ s.power.stage = .ride →
    ∃ t, exec (.feedOvercurrent f) s = .next t ∧ (feedAt t f).valid = false ∧ (feedAt t f).outSince = some s.mono) ∧
  (∀ (f at_ : Nat) (s : State), f < 2 → (feedAt s f).outSince = some at_ → at_ + sec ≤ s.mono →
    exec (.feedOvercurrentRelease f) s =
      .next (lower 0x0E 0 0 f 0x0E12 1 (updFeed f (fun x => { x with outSince := none }) s))) ∧
  (∀ (f : Nat) (s : State), f < 2 → s.power.stage = .run →
    ∃ t, exec (.oringFail f) s = .next t ∧ (feedAt t f).valid = false ∧ (feedAt t f).excluded = true)

/-- The power stage and the pins (from R488, R510, R514, R515, R517, R524): soft start ends in RUN with PWR_OK released and the
operating seconds resumed; RIDE without a feed for 20 µs powers the module down, which keeps only what is stored;
temperatures are taken, 105 °C raises TEMP_HIGH and less than 100 °C clears it; 120 °C turns the module off until PERST_L;
PERST_L low for 1 µs resets a module that has booted and takes PCIe down; its deassertion lets the link train with
PCIE_REFCLK valid, from 100 ms of the boot timeline on; after a module reset by PERST_L that timeline counts from it; seating is reported
and the fabric lanes follow. FEED_CONFIG writes the preference and the return time, and POWER_STATUS answers its six words and
clears PEAK_POWER (from R511, R523). What it says by the model's choice is in log entries 149, 154. -/
def Obligations.PowerStageRunsAndReports : Prop :=
  (∀ s : State, s.power.stage = .softStart → s.power.entered + 20 * ms ≤ s.mono →
    ∃ t, exec .softStartComplete s = .next (emit (.pin "PWR_OK" 0 1) t) ∧ t.power.stage = .run ∧ t.power.pwrOk = true ∧
      t.boot = { s.boot with phase := if s.power.testMode then .off else .rom } ∧ t.vault = { s.vault with under := false }) ∧
  (∀ s : State, s.power.stage = .ride → s.power.entered + 20 * us ≤ s.mono →
    ∃ t, exec .rideExpiry s = .next t ∧ t.power.stage = .off ∧ t.power.pwrOk = false ∧ t.boot.state = .booting ∧
      t.boot.copies = rereadMarks s.boot (rootAfter true s.vault) ∧ t.boot.settings = s.boot.settings ∧ t.host = {} ∧ t.mem = {} ∧
      t.pon = {} ∧ t.tm = {} ∧ t.rules = {} ∧ t.evr.store = s.evr.store ∧ t.evr.queue = [] ∧ t.vault.life = s.vault.life) ∧
  (∀ (rail : Nat) (tj tc : Int) (s : State), rail < 24 →
    let t := { s with power := { s.power with tjMax := tj, tjSensor := rail, tCase := tc } }
    exec (.tempHigh rail tj tc) s = .next
      (if 105 ≤ tj ∧ s.power.tempHigh = false then
        raise 0x0E 0 0 0 0x0E16 1 (pack [(rail, 16, 16), (unsigned 16 tj, 16, 0)])
          { t with power := { t.power with tempHigh := true } }
      else if tj < 100 ∧ s.power.tempHigh = true then
        lower 0x0E 0 0 0 0x0E16 1 { t with power := { t.power with tempHigh := false } }
      else t)) ∧
  (∀ (rail : Nat) (tj : Int) (s : State), rail < 24 → 120 ≤ tj → s.power.shutdown = false →
    ∃ t, exec (.thermalShutdown rail tj) s = .next t ∧ t.power.shutdown = true ∧ t.power.tjMax = tj ∧ t.power.tjSensor = rail ∧
      t.power.pwrOk = false ∧ t.boot.phase = .off ∧ t.boot.state = .booting ∧ t.boot.zero = s.mono ∧ t.boot.ahead = 20 * ms ∧
      t.boot.copies = rereadMarks s.boot (rootAfter false s.vault) ∧ t.boot.settings = s.boot.settings ∧ t.host = {} ∧ t.mem = {} ∧
      t.pon = {} ∧ t.tm = {}) ∧
  (∀ (ns : Nat) (s : State), 1000 ≤ ns →
    exec (.perstLAssert ns) s = .next (if s.boot.state ≠ .booting ∨ s.power.shutdown = true then
        moduleReset 2 { s with power := { s.power with perstLow := true } }
      else { s with power := { s.power with perstLow := true } }) ∧
    ∃ t, exec (.perstLAssert ns) s = .next t ∧ pcieUp t = false) ∧
  (∀ s : State, exec .perstLDeassert s = .next { s with
    power := { s.power with perstLow := false }
    boot := { s.boot with zero := if s.boot.phase = .rom ∧ s.boot.cause = 2 then s.mono else s.boot.zero } }) ∧
  (∀ s : State, ∃ t, exec .perstLDeassert s = .next t ∧
    (pcieUp t = true ↔ (s.boot.phase = .rom ∨ s.boot.phase = .firmware ∨ s.boot.phase = .up) ∧ 100 * ms ≤ bootTime t ∧
      s.power.shutdown = false ∧ (refAt s 4).valid = true)) ∧
  (∀ s : State, s.power.seated = false → exec .cardSeated s = .next (updateSf (lanesFollow (raise 0x0E 0 0 0 0x0E18 0 1
    { s with power := { s.power with seated := true } })))) ∧
  (∀ s : State, s.power.seated = true → exec .cardUnseated s = .next (updateSf (lanesFollow (raise 0x0E 0 0 0 0x0E18 0 0
    { s with power := { s.power with seated := false } })))) ∧
  EndsOk .feedConfig opFeedConfig
    (fun c _ => fld (c.w 0) 1 0 ≠ 3 ∧ 10 ≤ fld (c.w 0) 31 16 ∧ fld (c.w 0) 31 16 ≤ 10000) (fun _ _ => [])
    (fun c f =>
      let t := trackReturn { f with power := { f.power with pref := fld (c.w 0) 1 0, returnMs := fld (c.w 0) 31 16 } }
      if t.power.stage = .run ∧ preferredFeed t ≠ t.power.active then switchOver (preferredFeed t) t else t) ∧
  EndsOk .powerStatus opPowerStatus (fun c _ => c.answers.length = 3)
    (fun c f => powerWords { f with power := { f.power with
      a := { f.power.a with amps := c.answers.getD 0 0 }, b := { f.power.b with amps := c.answers.getD 1 0 },
      inputPower := c.answers.getD 2 0, peak := max f.power.peak (c.answers.getD 2 0) } })
    (fun c f => { f with power := { f.power with
      a := { f.power.a with amps := c.answers.getD 0 0 }, b := { f.power.b with amps := c.answers.getD 1 0 },
      inputPower := c.answers.getD 2 0, peak := 0 } })

/-- The reference inputs (from R521). The loss of REF_0 raises REF_LOS; that of PCIE_REFCLK takes PCIe down; a fabric side whose
reference is lost moves to REF_3 while that is valid and retrains. A reference that is valid again clears REF_LOS, the
sides that may return do, and a restored REF_3 takes the sides that have no clock; with PCIE_REFCLK valid again PCIe is up from 100 ms
of the boot timeline on, where PERST_L is high. 200 µs after a
move that SF did not cause the old side is standby (from R419). What it says by the model's choice is in log entries 53, 154. -/
def Obligations.ReferencesFallBackAndReturn : Prop :=
  (∀ s : State, (refAt s 0).valid = true →
    exec (.refLos 0) s = .next (trackSources (raise 0x0B 0 0 0 0x0B20 1 0 (setRef 0 false s)))) ∧
  (∀ s : State, (refAt s 4).valid = true →
    exec (.refLos 4) s = .next (trackSources (setRef 4 false s)) ∧ pcieUp (trackSources (setRef 4 false s)) = false) ∧
  (∀ (i : Nat) (s : State), i < 2 → (refAt s (i + 1)).valid = true → (refAt s 3).valid = true → s.power.fallback.contains i = false →
    let t := raise 0x0B 0 0 (i + 1) 0x0B20 1 (wd (i + 1)) (setRef (i + 1) false s)
    exec (.refLos (i + 1)) s = .next (trackSources (retrainSide i
      { t with power := { t.power with fallback := s.power.fallback ++ [i] } }))) ∧
  (∀ (r : Nat) (s : State), r < 3 → (refAt s r).valid = false →
    exec (.refRestore r) s =
      .next (trackSources (refReturn 1 (refReturn 0 (lower 0x0B 0 0 r 0x0B20 1 (setRef r true s)))))) ∧
  (∀ s : State, (refAt s 3).valid = false →
    exec (.refRestore 3) s = .next (trackSources (refReturn 1 (refReturn 0
      (sideFalls 1 (sideFalls 0 (lower 0x0B 0 0 3 0x0B20 1 (setRef 3 true s)))))))) ∧
  (∀ s : State, (refAt s 4).valid = false →
    ∃ t, exec (.refRestore 4) s = .next t ∧ t = trackSources (refReturn 1 (refReturn 0 (setRef 4 true s))) ∧
      (pcieUp t = true ↔ (s.boot.phase = .rom ∨ s.boot.phase = .firmware ∨ s.boot.phase = .up) ∧ 100 * ms ≤ bootTime s ∧
        s.power.shutdown = false ∧ s.power.perstLow = false)) ∧
  (∀ (at_ : Nat) (s : State), s.link.sel.transition = some at_ → at_ + 200 * us ≤ s.mono →
    exec .switchTransitionEnd s = .next (refReturn 1 (refReturn 0
      { s with link := { s.link with sel := { s.link.sel with transition := none } } })))

/-- Boot and reset (from R59, R64 to R66, R81, R334). MODULE_RESET replies whatever NO_REPLY holds, and then restarts the firmware
alone or resets the module, for which it first persists the operating seconds. A restart ends with STATE_CHANGE 0x0C01 in
RECOVERY where the selected firmware no longer verifies, else in the state that stood before. The ROM starts the firmware
that it selects, or enters RECOVERY with none; after a thermal shutdown it waits until every sensor is below 95 °C (from R524),
and with PERST_L low it boots while PCIe waits (from R517); a high TEST_MODE holds it (from R507). 5 s without command-ready mark that copy failed, where its record reads
back (which is open), and boot again with cause 4. Once HBM is initialised (from R372) and the configuration is applied the module is READY and
its queues fetch. What it says by the model's choice is in log
entries 83, 85, 154. -/
def Obligations.BootAndResetReachTheirStates : Prop :=
  (∀ (p : Packet) (s : State), accepts opModuleReset p s = true →
    exec (.moduleReset p) s = .next (
      let f := fetched opModuleReset p s
      let q := { p with flags := p.flags &&& 0xFFFD#16 }
      if bit ((ownWords p).getD 0 0) 0 then moduleReset 3 (replyTo q .ok [] 0 (persistSeconds true f))
      else
        let r := replyTo q .ok [] 0 f
        { r with boot := { r.boot with state := .booting, restarting := true, started := r.mono } })) ∧
  (∀ s : State, s.boot.restarting = true →
    exec .firmwareRestartComplete s = .next (pumpAll (stateChange 0x0C01 [] { s with boot := { s.boot with
      restarting := false
      state := if s.boot.state = .safe then .safe
        else if firmwareStands s = false then .recovery
        else if s.halter.stage = .halter then .halter else .ready } }))) ∧
  (∀ (flash : List (List Byte)) (s : State), s.boot.phase = .rom → coolEnough s = false ∨ s.power.testMode = true →
    exec (.romBoot flash) s = .next s) ∧
  (∀ (flash : List (List Byte)) (s : State), s.boot.phase = .rom → coolEnough s = true → s.power.testMode = false →
    ∃ t, exec (.romBoot flash) s = .next t ∧ t.power.shutdown = false ∧
      (pcieUp t = true ↔ 100 * ms ≤ bootTime s ∧ s.power.perstLow = false ∧ (refAt s 4).valid = true) ∧
      ((t.boot.phase = .firmware ∧ (selectedCopy t 1).isSome = true) ∨
       (t.boot.phase = .up ∧ t.boot.state = .recovery ∧ selectedCopy t 1 = none))) ∧
  (∀ (k : Nat) (s : State), s.boot.phase = .firmware → s.boot.started + 5 * sec ≤ s.mono → selectedCopy s 1 = some k →
    ∃ t, exec .firmwareStartTimeout s = .next t ∧ t.boot.phase = (if s.power.testMode then .off else .rom) ∧ t.boot.cause = 4 ∧
      t.boot.state = .booting ∧
      (s.power.stage ≠ .ride → s.vault.provisioning = false → (copyAt t k).failed = true ∨ readsBack s = false)) ∧
  (∀ (config : List Written) (s : State), s.boot.phase = .firmware → s.mem.initialised = true →
    ∃ t, exec (.configurationApplied config) s = .next (pumpAll t) ∧ t.boot.phase = .up ∧ t.boot.state = .ready)

/-- The recorder and the runtime settings (from R68, R69, R487, R488, R490 to R495). A queued record is programmed at the end of the
store, at the 30,000th slot with STATE_CHANGE 0x0B02 and in the last one with 0x0B03, after which the store is full; a torn
one uses its slot and stays queued. The operating seconds rise by 1 modulo 2^40 each second with a feed valid and are persisted unclean every 60; they count as
persisted where the record reads back (which is open). A settings record is written whole into the copy that is not selected, or, where
it does not verify, SETTINGS_WRITE_FAIL is raised; after entry to RIDE none is written (from R514). RECORDER_READ answers its nine words and the records from FIRST on; RECORDER_ERASE with an authorisation of this
device and of the next ERASE_COUNT keeps the records above THROUGH_SEQ, where its signature verifies (what verifies is open) and
the record of the new ERASE_COUNT reads back; a loss of power during it leaves the new ERASE_COUNT in force. What it says by the model's choice is in log entries 112, 156. -/
def Obligations.RecorderAndSettingsWrite : Prop :=
  (∀ (r : Record) (rest : List Record) (s : State), s.evr.full = false → s.power.stage ≠ .ride → s.evr.queue = r :: rest →
    let t := { s with evr := { s.evr with store := s.evr.store ++ [r], queue := rest } }
    (t.evr.store.length ≠ 30000 → t.evr.store.length ≠ storeSlots → exec (.recordWrite false) s = .next t) ∧
    (t.evr.store.length = 30000 → exec (.recordWrite false) s = .next (stateChange 0x0B02 [] t)) ∧
    (t.evr.store.length = storeSlots →
      exec (.recordWrite false) s = .next (stateChange 0x0B03 [] { t with evr := { t.evr with full := true } })) ∧
    exec (.recordWrite true) s = .next (afterSlot (bump cTornSlots 0 0 { s with evr := { s.evr with
      store := s.evr.store ++ [{ r with words := [], torn := true }] } }))) ∧
  (∀ s : State, (s.power.a.valid || s.power.b.valid) = true →
    exec .operatingSecond s = .next { s with evr := { s.evr with opSec := (s.evr.opSec + 1) % 2 ^ 40 } }) ∧
  (∀ s : State, s.evr.persisted + 60 ≤ s.evr.opSec →
    let t := ownSetting 6 [lo32 s.evr.opSec, hi32 s.evr.opSec, 0] s
    exec .operatingSecondsPersist s = .next
      (if readsBack s then { t with evr := { t.evr with persisted := s.evr.opSec, clean := false } } else t)) ∧
  (∀ (i : Nat) (s : State), i < 9 → testRoot s = false → s.power.stage ≠ .ride →
    exec (.settingsRecordWrite i true) s = .next { s with boot := { s.boot with
      settings := mset s.boot.settings i (writeRec (mgetD s.boot.settings i {}) (settingContent s i)
        (s.vault.meas0 ++ s.vault.meas1)) } }) ∧
  (∀ (i : Nat) (s : State), i < 9 → s.power.stage ≠ .ride →
    exec (.settingsRecordWrite i false) s = .next (raise 0x0C 0 0 i 0x0C11 1 (wd i) (tornSetting i s))) ∧
  (∀ (i : Nat) (ok : Bool) (s : State), i < 9 → s.power.stage = .ride → exec (.settingsRecordWrite i ok) s = .next s) ∧
  EndsData .recorderRead opRecorderRead
    (fun c _ => c.hasBuf = true ∧ 1 ≤ fld (c.w 1) 10 0 ∧ fld (c.w 1) 10 0 ≤ 1024 ∧ 128 * fld (c.w 1) 10 0 ≤ c.bufLen)
    (fun c f => [wd (oldest f), wd (newest f),
      wd (((visible f).filter fun r => (c.w 0).toNat ≤ r.seq).take (fld (c.w 1) 10 0)).length,
      pack [(b2n f.evr.full, 1, 31), (b2n (decide ((c.w 0).toNat < oldest f)), 1, 30)], wd f.evr.eraseCount,
      lo32 (counterAt f { cid := cRecordsDropped }), pack [(counterAt f { cid := cTornSlots }, 16, 0)],
      lo32 f.evr.opSec, hi32 f.evr.opSec])
    (fun c f => (((visible f).filter fun r => (c.w 0).toNat ≤ r.seq).take (fld (c.w 1) 10 0)).flatMap fun r =>
      bytesOfWords r.words) (fun _ f => f) ∧
  Answers .recorderErase opRecorderErase
    (fun c f => beNat (slice (bytesOfWords c.words) 0 4) = 0x545A4552 ∧ beNat (slice (bytesOfWords c.words) 0x1C 4) = 0 ∧
      c.words.length = 32 ∧ beNat (slice (bytesOfWords c.words) 0x14 4) = f.evr.eraseCount + 1 ∧
      (keptRecords f (beNat (slice (bytesOfWords c.words) 0x18 4))).length ≤ 1024)
    (fun c f =>
      let m := bytesOfWords c.words
      let kept := keptRecords f (beNat (slice m 0x18 4))
      let t := storeSetting 8 [wd (f.evr.eraseCount + 1), wd f.evr.nextSeq] c.pkt.env.norOk f
      if slice m 4 16 ≠ beBytes 16 Config.deviceId.toNat then .refuse .badDevice []
      else if Config.verify ((slotBytes f updateAuthority).take 97) (m.take 32) (slice m 32 96) = false then .refuse .badSignature []
      else if c.pkt.env.norOk = false then .ended t .aborted []
      else if c.pkt.env.cut.isSome then .wait (eraseCut (c.pkt.env.cut.getD 0) kept t) []
      else .done (recordEv 0x0009 0 0x0C 2 0 0x0100 [wd (f.evr.eraseCount + 1), wd (beNat (slice m 0x18 4)), wd kept.length]
        { t with evr := { t.evr with eraseCount := f.evr.eraseCount + 1, store := kept, full := false } }) [])

/-- Counters and Patina (from R478 to R484, R496 to R502). COUNTER_CONFIG sets a programmable counter of an island, cleared where
asked; COUNTER_READ answers a cycle counter with DISC, a programmable counter with WRAPS and its setting, or a named counter;
VF_COUNTER_GRANT records the grant and clears the counters that it withdraws. A periodic plan is made of the scans and waits
to be written; the plan takes force once read back, its rails starting from their present offsets, and the previous one
stands where it does not verify; a rail moves 5 mV toward its plan, once in a millisecond. PATINA_SCAN goes on until its completion, in Halter with the domains of
the rails powered, and
PATINA_STATUS answers the plan's words. What it says by the model's choice is in log entries 109, 110, 111. -/
def Obligations.CountersAndPatinaAnswer : Prop :=
  EndsOk .counterConfig opCounterConfig
    (fun c f => isIsland (fld (c.w 0) 23 16) = true ∧ fld (c.w 0) 2 0 < islandCounters (fld (c.w 0) 23 16) ∧
      eventOk (fld (c.w 0) 23 16) (fld (c.w 1) 27 16) = true ∧ (0xF00 ≤ fld (c.w 1) 27 16 → f.vault.life ≠ .deployed) ∧
      (match grantee f (fld (c.w 0) 2 0) with | some g => g = fnOf c.master | none => fnOf c.master = 0) ∧
      (fnOf c.master ≠ 0 → fld (c.w 1) 15 0 = c.world) ∧ worldCode (fld (c.w 1) 15 0) = true) (fun _ _ => [])
    (fun c f =>
      let old := progNow f (fld (c.w 0) 23 16) (fld (c.w 0) 2 0)
      let new : ProgCtr := { enable := bit (c.w 0) 31, event := fld (c.w 1) 27 16, world := fld (c.w 1) 15 0, at_ := f.mono,
                             value := if bit (c.w 0) 30 then 0 else old.value, wraps := if bit (c.w 0) 30 then 0 else old.wraps }
      { f with ctr := { f.ctr with prog := mset f.ctr.prog (progKey (fld (c.w 0) 23 16) (fld (c.w 0) 2 0)) new } }) ∧
  EndsOk .counterRead opCounterRead
    (fun c f => fld (c.w 0) 31 30 = 0 ∧ isIsland (fld (c.w 0) 23 16) = true ∧ readGround f c = none)
    (fun c f => [lo32 (cycleNow f (fld (c.w 0) 23 16)), hi32 (cycleNow f (fld (c.w 0) 23 16)),
      wd ((cycleAt f (fld (c.w 0) 23 16)).disc % 65536 * 65536), 0]) (fun _ f => f) ∧
  EndsOk .counterRead opCounterRead
    (fun c f => fld (c.w 0) 31 30 = 1 ∧ isIsland (fld (c.w 0) 23 16) = true ∧
      fld (c.w 0) 2 0 < islandCounters (fld (c.w 0) 23 16) ∧ readGround f c = none)
    (fun c f =>
      let x := progNow f (fld (c.w 0) 23 16) (fld (c.w 0) 2 0)
      [lo32 x.value, hi32 x.value, wd (x.wraps % 256 * 256), pack [(x.event, 12, 16), (x.world, 16, 0)]]) (fun _ f => f) ∧
  EndsOk .counterRead opCounterRead
    (fun c f => fld (c.w 0) 31 30 = 2 ∧ fld (c.w 2) 31 28 < 12 ∧ readGround f c = none ∧
      (namedRead f (fld (c.w 1) 15 0) (fld (c.w 2) 31 28) (fld (c.w 2) 23 0) (fld (c.w 1) 31 16)).isSome = true)
    (fun c f =>
      let v := (namedRead f (fld (c.w 1) 15 0) (fld (c.w 2) 31 28) (fld (c.w 2) 23 0) (fld (c.w 1) 31 16)).getD 0
      [lo32 v, hi32 v, 0, 0]) (fun _ f => f) ∧
  EndsOk .vfCounterGrant opVfCounterGrant
    (fun c f => fld (c.w 0) 13 8 ≠ 0 ∧ ∀ k < 8, (fld (c.w 0) 7 0).testBit k = true → ∀ g, grantee f k = some g →
      g = fld (c.w 0) 13 8) (fun _ _ => [])
    (fun c f => { f with ctr := { f.ctr with
      prog := mkeep f.ctr.prog fun k _ => !(withdrawn (mgetD f.ctr.grants (fld (c.w 0) 13 8) {}).mask (fld (c.w 0) 7 0)).testBit (k % 8)
      grants := mset f.ctr.grants (fld (c.w 0) 13 8) { named := bit (c.w 0) 31, mask := fld (c.w 0) 7 0 } } }) ∧
  Starts .patinaScan opPatinaScan
    (fun c f => (c.hasBuf = true → planBytes ≤ c.bufLen) ∧ f.pat.scanning = false) (fun c _ => [(c.w 0).toNat])
    (fun c f =>
      let rails := f.halter.gated.filter fun d => bit (c.w 0) 0 && (List.range 14).any fun r => railDomain r = some d
      let t := if f.boot.state = .halter then powerDomains rails (upsetsOf c.answers) f else f
      { t with pat := { t.pat with scanning := true, early := f.pat.due || f.pat.nextHours ≤ opHours f } }) ∧
  EndsOk .patinaStatus opPatinaStatus (fun c _ => c.hasBuf = false) (fun _ f => planWords f.pat.plan f.pat.plan f.pat.nextHours)
    (fun _ f => f) ∧
  EndsData .patinaStatus opPatinaStatus (fun c _ => c.hasBuf = true)
    (fun _ f => planWords f.pat.plan f.pat.plan f.pat.nextHours) (fun _ f => bytesOfWords (planEntries f.pat.plan))
    (fun _ f => f) ∧
  (∀ (rails : List RailScan) (lanes : List LaneScan) (s : State), (s.pat.nextHours ≤ opHours s ∨ s.pat.due = true) →
    s.pat.written = none → s.pat.scanning = false → s.boot.state ≠ .halter → managerRuns s = true → frozenNow s = false →
    exec (.patinaPeriodicPlan rails lanes) s = .next { s with
      free := s.free + 24
      pat := { s.pat with written := some (makePlan s (nextSetting s 0) rails lanes), due := false,
                          nextHours := s.pat.nextHours + 1000 } }) ∧
  (∀ (pl : Plan) (s : State), s.pat.written = some pl → managerRuns s = true → frozenNow s = false →
    (∃ t, exec (.patinaPlanWrite true) s = .next t ∧ t.pat.written = none ∧
      t.pat.plan = { pl with rails := mmap pl.rails fun r x => { x with now := (railAt s.pat.plan r).now } }) ∧
    exec (.patinaPlanWrite false) s = .next (settingFault 0 (tornSetting 0 { s with pat := { s.pat with written := none } }))) ∧
  (∀ (r : Nat) (s : State), r < 24 → (∀ m, mget s.pat.movedAt r = some m → m + ms ≤ s.mono) →
    ∃ t, exec (.railOffsetStep r) s = .next t ∧ (railAt t.pat.plan r).now =
      (if (railAt s.pat.plan r).now < (railAt s.pat.plan r).offset then (railAt s.pat.plan r).now + 5
       else if (railAt s.pat.plan r).offset < (railAt s.pat.plan r).now then (railAt s.pat.plan r).now - 5
       else (railAt s.pat.plan r).now)) ∧
  (∀ (q d : Nat) (x : Exec) (rails : List RailScan) (lanes : List LaneScan) (s : State), s.pat.scanning = true →
    executingQ s 0xB007 (fun l => l.length = 1) = [q] → (pairAt s q).executing = some x → x.discard = false → x.data = [d] →
    exec (.patinaScanComplete rails lanes) s = .next (
      let f := updPair q (fun p => { p with executing := none }) s
      pumpAll (answer x.pkt (flagResultBuf x.pkt) (bufLenOf x.pkt) (scanResult d (flagResultBuf x.pkt) rails lanes f) f)))

/-- PORT_CONFIG, PORT_STATE, OMCI_BIND and OPTICS_ACCESS (from R88 to R95, R128, R135, R136). A port that stays in mode 0 keeps the
setting. One that leaves mode 0 keeps it, and every port unit that the mode starts begins framing at the next boundary. One
that is set to mode 0 keeps its old mode and begins the sequence of R90, and its command waits; at the end of the third frame
the ports of the mode are disabled and the command completes. PORT_STATE answers the setting, the state and 15 counters.
OMCI_BIND binds the tree's queue. A read of a bus that answers gives its bytes, and a write sends its own, with PON_MSEL_L of the
port asserted for the transaction (from R127; the layout of OPTICS_ACCESS is the model's,
log entry 50). What it says by the model's choice is in log entry 104. -/
def Obligations.PortsConfiguredReadAndDisabled : Prop :=
  EndsOk .portConfig opPortConfig
    (fun c f => c.inst = pcPort c.words ∧ (portAt f (pcPort c.words)).stopping = none ∧ modeGround f c.words = none ∧
      paired f (pcPort c.words) = false ∧ portParamGround (modeKind (pcPort c.words) (pcMode c.words)) c.words = none ∧
      (portCfgAt f (pcPort c.words)).mode = 0 ∧ pcMode c.words = 0) (fun _ _ => [])
    (fun c f => updPort (pcPort c.words) (fun x => { x with cfg := portCfgOf 0 c.words }) f) ∧
  EndsOk .portConfig opPortConfig
    (fun c f => c.inst = pcPort c.words ∧ (portAt f (pcPort c.words)).stopping = none ∧ modeGround f c.words = none ∧
      paired f (pcPort c.words) = false ∧ portParamGround (modeKind (pcPort c.words) (pcMode c.words)) c.words = none ∧
      (portCfgAt f (pcPort c.words)).mode = 0 ∧ pcMode c.words ≠ 0) (fun _ _ => [])
    (fun c f =>
      let t := updPort (pcPort c.words)
        (fun x => { x with cfg := portCfgOf (modeKind (pcPort c.words) (pcMode c.words)) c.words }) f
      forEach (modePorts t (pcPort c.words)) startPort t) ∧
  Starts .portConfig opPortConfig
    (fun c f => c.inst = pcPort c.words ∧ (portAt f (pcPort c.words)).stopping = none ∧ modeGround f c.words = none ∧
      paired f (pcPort c.words) = false ∧ portParamGround (modeKind (pcPort c.words) (pcMode c.words)) c.words = none ∧
      (portCfgAt f (pcPort c.words)).mode ≠ 0 ∧ pcMode c.words = 0) (fun c _ => [pcPort c.words, 0])
    (fun c f => forEach (modePorts f (pcPort c.words)) (fun q s => updPort q (fun x => { x with stopping := some (s.time.sfc + 1) }) s)
      (updPort (pcPort c.words)
        (fun x => { x with cfg := { portCfgOf 0 c.words with mode := (portCfgAt f (pcPort c.words)).mode } }) f)) ∧
  (∀ (n from_ q : Nat) (x : Exec) (s : State), n < 64 → (portAt s n).stopping = some from_ → from_ + 3 ≤ s.time.sfc →
    let root := if paired s n then n / 2 * 2 else n
    let d := forEach (modePorts s root) disablePort s
    let t := updPair q (fun y => { y with executing := none }) d
    executingQ d 0x1001 (· = [root, 0]) = [q] → (pairAt d q).executing = some x → x.discard = false →
    executingQ (replyTo x.pkt .ok [] 0 t) 0x1001 (fun l => (modePorts s root).any fun k => l = [k, 1]) = [] →
    exec (.portDisableComplete n) s = .next (pumpAll (replyTo x.pkt .ok [] 0 t))) ∧
  (∀ (n : Nat) (s : State), (portAt (disablePort n s) n).cfg.mode = 0 ∧ (portAt (disablePort n s) n).framing = false ∧
    (portAt (disablePort n s) n).stopping = none ∧ (portAt (disablePort n s) n).windows = []) ∧
  EndsLong .portState opPortState (fun c _ => c.inst = pcPort c.words)
    (fun c f => match c.master with
      | .vf _ => List.replicate 8 0 ++ ((portStateWords f (pcPort c.words)).drop 8).take 6 ++ List.replicate 30 0
      | _ => portStateWords f (pcPort c.words)) (fun _ f => f) ∧
  EndsOk .omciBind opOmciBind
    (fun c f => c.inst = pcPort c.words ∧ (paired f (pcPort c.words) = false ∨ pcPort c.words % 2 = 0) ∧
      (bit (c.w 0) 31 = true → (hrqAt f (fld (c.w 0) 15 8)).bound ≠ 0xFF ∧ (hrqAt f (fld (c.w 0) 15 8)).world = 0x0100))
    (fun _ _ => [])
    (fun c f => updPort (pcPort c.words) (fun x => { x with omci := if bit (c.w 0) 31 then some (fld (c.w 0) 15 8) else none }) f) ∧
  EndsOk .opticsAccess opOpticsAccess
    (fun c f => c.inst ≤ 63 ∧ c.inst / 8 = fld (c.w 0) 26 24 ∧ 1 ≤ fld (c.w 0) 7 0 ∧ fld (c.w 0) 7 0 ≤ 52 ∧ bit (c.w 0) 31 = false ∧
      mhas f.pon.stuck (fld (c.w 0) 26 24) = false ∧ c.answers.head? = some 0)
    (fun c _ => wordsOfBytes (ceilDiv (fld (c.w 0) 7 0) 4) ((c.answers.tail.map (BitVec.ofNat 8)).take (fld (c.w 0) 7 0)))
    (fun c f => opticsTransaction c.inst (fld (c.w 0) 22 16) (fld (c.w 0) 15 8) [] (fld (c.w 0) 7 0) f) ∧
  EndsLong .opticsAccess opOpticsAccess
    (fun c f => c.inst ≤ 63 ∧ c.inst / 8 = fld (c.w 0) 26 24 ∧ 53 ≤ fld (c.w 0) 7 0 ∧ fld (c.w 0) 7 0 ≤ 128 ∧ bit (c.w 0) 31 = false ∧
      mhas f.pon.stuck (fld (c.w 0) 26 24) = false ∧ c.answers.head? = some 0)
    (fun c _ => wordsOfBytes (ceilDiv (fld (c.w 0) 7 0) 4) ((c.answers.tail.map (BitVec.ofNat 8)).take (fld (c.w 0) 7 0)))
    (fun c f => opticsTransaction c.inst (fld (c.w 0) 22 16) (fld (c.w 0) 15 8) [] (fld (c.w 0) 7 0) f) ∧
  EndsOk .opticsAccess opOpticsAccess
    (fun c f => c.inst ≤ 63 ∧ c.inst / 8 = fld (c.w 0) 26 24 ∧ 1 ≤ fld (c.w 0) 7 0 ∧ fld (c.w 0) 7 0 ≤ 128 ∧ bit (c.w 0) 31 = true ∧
      mhas f.pon.stuck (fld (c.w 0) 26 24) = false ∧ c.answers.head? = some 0) (fun _ _ => [])
    (fun c f => opticsTransaction c.inst (fld (c.w 0) 22 16) (fld (c.w 0) 15 8)
      ((bytesOfWords (c.words.drop 1)).take (fld (c.w 0) 7 0)) 0 f) ∧
  (∀ (n dev reg reads : Nat) (bs : List Byte) (s : State), opticsTransaction n dev reg bs reads s =
    emit (.pin "PON_MSEL_L" n 1) (emit (.optics (n / 8) dev reg bs reads) (emit (.pin "PON_MSEL_L" n 0) s)))

/-- The commands of a terminal (from R93, R97, R120, R132 to R134, R138, R155, R161, R308 to R310). TERMINAL_ADD makes a PENDING
record with cleared counters; TERMINAL_REMOVE ends its activation, with a Deactivate_ONU-ID where it has an ONU-ID, and removes it; PLOAM_SEND queues a message of a type that
the port does not own; BPM_READ answers the levels and clears the extremes; PON_KEY_SWITCH arms the switch; DISCOVERY_CONFIG
keeps the reach and returns held terminals to PENDING; RANGING_READ answers seven words; TERMINAL_RERANGE reranges an
operating terminal, returns a held one to PENDING and leaves another as it is. What it says by the model's choice is in log entry 131. -/
def Obligations.TerminalCommandsTakeEffect : Prop :=
  EndsOk .terminalAdd opTerminalAdd
    (fun c f => termOf c / 512 = c.inst ∧ (paired f c.inst = false ∨ c.inst % 2 = 0) ∧ worldCode (fld (c.w 0) 31 16) = true ∧
      reaches c.world (fld (c.w 0) 31 16) = true ∧ termNodeOk f (termOf c) (fld (c.w 0) 31 16) = true ∧
      isPonSlot (fld (c.w 3) 17 0) = true ∧ isPonSlot (fld (c.w 4) 17 0) = true ∧ fld (c.w 3) 17 0 ≠ fld (c.w 4) 17 0 ∧
      fld (c.w 5) 1 0 ≠ 3 ∧ termAt f (termOf c) = none ∧
      (treeTerms f (termOf c / 512)).any (fun e => e.2.sn0 = c.w 1 && e.2.sn1 = c.w 2) = false ∧
      slotBound f (fld (c.w 3) 17 0) = false ∧ slotBound f (fld (c.w 4) 17 0) = false ∧
      ponSlotOk f (fld (c.w 3) 17 0) (fld (c.w 0) 31 16) = true ∧ ponSlotOk f (fld (c.w 4) 17 0) (fld (c.w 0) 31 16) = true)
    (fun _ _ => [])
    (fun c f =>
      let t : Terminal := { world := fld (c.w 0) 31 16, sn0 := c.w 1, sn1 := c.w 2, slot1 := fld (c.w 3) 17 0,
                            slot2 := fld (c.w 4) 17 0, upFec := fld (c.w 5) 1 0, port := c.inst }
      clearCounters 2 (termOf c) { f with pon := { f.pon with terms := mset f.pon.terms (termOf c) t } }) ∧
  (∀ t : Terminal, EndsOk .terminalRemove opTerminalRemove
    (fun c f => termAt f (termOf c) = some t ∧ reaches c.world t.world = true) (fun _ _ => [])
    (fun c f =>
      let g := endActivation (termOf c) .pending false (clearPowerDefects (termOf c) t f)
      let h := if hasOnu t then updPort t.port (fun x => { x with goodbyes := x.goodbyes ++ [onuId (termOf c)] }) g else g
      { h with pon := { h.pon with terms := mdel h.pon.terms (termOf c) } })) ∧
  EndsOk .ploamSend opPloamSend
    (fun c f => ∃ t, termAt f (termOf c) = some t ∧ reaches c.world t.world = true ∧ hasOnu t = true ∧
      fld (c.w 1) 7 0 ∉ [0x01, 0x03, 0x04, 0x05, 0x06, 0x0D, 0x1B, 0xE0, 0xE1, 0xE2, 0xE3] ∧ t.hostMsgs.length < 8) (fun _ _ => [])
    (fun c f => updTerm (termOf c) (fun t => { t with hostMsgs := t.hostMsgs ++
      [Ploam.host (fld (c.w 1) 7 0) (bytesOfWords ((c.words.drop 2).take 9))] }) f) ∧
  (∀ t : Terminal, EndsOk .bpmRead opBpmRead
    (fun c f => termAt f (termOf c) = some t ∧ reaches c.world t.world = true)
    (fun _ f =>
      let cfg := cfgAt f t.port
      [ pack [(b2n t.ref.isSome, 1, 31), (b2n t.short, 1, 30), (t.lastCode, 14, 0)],
        pack [(if t.seen then dbmField cfg t.mean else 0x8000, 16, 16), (if t.seen then dbmField cfg (16 * t.lastCode) else 0x8000, 16, 0)],
        pack [(dbmOr cfg (t.maxCode.map (16 * ·)), 16, 16), (dbmOr cfg (t.minCode.map (16 * ·)), 16, 0)],
        pack [(dbmOr cfg t.ref, 16, 0)], pack [(t.mean, 18, 0)], wd t.measured ])
    (fun c f => updTerm (termOf c) (fun t => { t with minCode := none, maxCode := none }) f)) ∧
  EndsOk .ponKeySwitch opPonKeySwitch
    (fun c f => ∃ t, termAt f (termOf c) = some t ∧ reaches c.world t.world = true ∧
      (fld (c.w 0) 17 16 = 1 ∨ fld (c.w 0) 17 16 = 2) ∧ t.switch = none ∧ fld (c.w 0) 17 16 ≠ t.keyIndex ∧
      f.time.sfc + 16 ≤ join64 (c.w 1) (c.w 2) ∧ join64 (c.w 1) (c.w 2) ≤ f.time.sfc + 1048576 ∧
      (slotAt f (keySlot t (fld (c.w 0) 17 16))).valid = true) (fun _ _ => [])
    (fun c f => updTerm (termOf c) (fun t => { t with switch := some (fld (c.w 0) 17 16, join64 (c.w 1) (c.w 2)) }) f) ∧
  EndsOk .discoveryConfig opDiscoveryConfig
    (fun c f => c.inst = fld (c.w 0) 5 0 ∧ (paired f c.inst = false ∨ c.inst % 2 = 0) ∧ 1 ≤ fld (c.w 0) 31 24 ∧
      fld (c.w 0) 31 24 ≤ 40 ∧ fld (c.w 0) 23 16 ≤ 40 ∧ fld (c.w 0) 23 16 + fld (c.w 0) 31 24 ≤ 60 ∧
      (fld (c.w 1) 31 16 = 0 ∨ 10 ≤ fld (c.w 1) 31 16 ∧ fld (c.w 1) 31 16 ≤ 60000) ∧
      (fld (c.w 0) 31 24 = (portAt f c.inst).disc.diff ∧ fld (c.w 0) 23 16 = (portAt f c.inst).disc.near ∨
        ∀ e ∈ treeTerms f c.inst, e.2.st = .pending)) (fun _ _ => [])
    (fun c f =>
      let disc : Disc := { diff := fld (c.w 0) 31 24, near := fld (c.w 0) 23 16, awl := bit (c.w 0) 8, spacing := fld (c.w 1) 31 16 }
      forEach (treeTerms f c.inst) (fun e s => if e.2.st = .held then endActivation e.1 .pending false s else s)
        (updPort c.inst (fun x => { x with disc := disc }) f)) ∧
  (∀ t : Terminal, EndsOk .rangingRead opRangingRead
    (fun c f => termAt f (fld (c.w 0) 14 0) = some t ∧ reaches c.world t.world = true)
    (fun c f =>
      [ pack [(rangeCode t.st, 4, 24), (t.method, 1, 16), (fld (c.w 0) 14 0, 15, 0)], wd (t.eqd.toNat % 2 ^ 25),
        wd (t.rtd.toNat % 2 ^ 29), pack [(unsigned 16 t.lastCorr, 16, 16), (unsigned 16 t.drift, 16, 0)],
        pack [(t.steps, 16, 16), (t.corrs, 16, 0)], wd (teqd f t.port), wd (unsigned 32 t.lastStep) ]) (fun _ f => f)) ∧
  (∀ t : Terminal, EndsOk .terminalRerange opTerminalRerange
    (fun c f => termAt f (fld (c.w 0) 14 0) = some t ∧ reaches c.world t.world = true) (fun _ _ => [])
    (fun c f => match t.st with
      | .operating => rerange (fld (c.w 0) 14 0) 3 0 (fullWindow f t.port) f
      | .held => endActivation (fld (c.w 0) 14 0) .pending false f
      | _ => f))

/-- Weaver's commands (from R162 to R168, R185 to R187, R198). ALLOC_WRITE keeps the written fields over the context, or over a fresh one
whose forecast privilege follows FC_EN; ALLOC_READ answers the 16 words of Table 5.2; ALLOC_DELETE removes the context.
SCHEDULE_HINT keeps a hint and answers its map. CINCH_BUDGET keeps the budget and the weights. WEAVER_STATS answers 17 counters. -/
def Obligations.WeaverCommandsTakeEffect : Prop :=
  (∀ t : Terminal, EndsOk .allocWrite opAllocWrite
    (fun c f => c.inst = laneOf (fld (c.w 1) 13 8) ∧ termAt f (fld (c.w 0) 14 0) = some t ∧
      fld (c.w 0) 14 0 / 512 = fld (c.w 1) 13 8 ∧ fld (c.w 1) 31 16 = t.world ∧ reaches c.world t.world = true ∧
      let k := allocKey (fld (c.w 1) 13 8) (fld (c.w 0) 29 16)
      let a := allocWritten c.words ((allocAt f k).getD { fcEn := bit (c.w 8) 9, fcPriv := bit (c.w 8) 9 })
      allocFaults (fld (c.w 0) 29 16) (if inService f t.port then some (frameWords (upKind f t.port)) else none) a = [] ∧
      (∀ o, allocAt f k = some o → o.terminal = fld (c.w 0) 14 0) ∧
      overCapacity (setAlloc k a f) (fld (c.w 1) 13 8) t.port = false)
    (fun _ _ => [])
    (fun c f => setAlloc (allocKey (fld (c.w 1) 13 8) (fld (c.w 0) 29 16)) (allocWritten c.words
      ((allocAt f (allocKey (fld (c.w 1) 13 8) (fld (c.w 0) 29 16))).getD { fcEn := bit (c.w 8) 9, fcPriv := bit (c.w 8) 9 })) f)) ∧
  (∀ a : Alloc, EndsLong .allocRead opAllocRead
    (fun c f => c.inst = laneOf (fld (c.w 0) 5 0) ∧ allocAt f (allocKey (fld (c.w 0) 5 0) (fld (c.w 0) 29 16)) = some a ∧
      reaches c.world a.world = true)
    (fun c _ =>
      [ pack [(fld (c.w 0) 29 16, 14, 16), (a.terminal, 15, 0)],
        pack [(a.world, 16, 16), (fld (c.w 0) 5 0, 6, 8), (a.cls, 4, 4), (a.prio, 2, 0)],
        rateWord a.fixed, rateWord a.assured, rateWord a.nonassured, rateWord a.besteffort, rateWord a.maximum, rateWord a.fcast,
        pack [(a.weight, 14, 16), (b2n a.gated, 1, 11), (b2n a.hintEn, 1, 10), (b2n a.fcEn, 1, 9), (b2n a.fcPriv, 1, 8),
          (a.gateClass, 3, 0)],
        pack [(a.period, 8, 24), (a.lastArr, 8, 16), (a.conf, 4, 12), (a.unusedRun, 4, 8), (a.privLosses, 8, 0)],
        pack [(a.ewma, 28, 0)], pack [(a.peak, 18, 0)],
        pack [(b2n (mhas a.hints 4), 1, 31), (b2n (mhas a.hints 3), 1, 30), (b2n (mhas a.hints 2), 1, 29),
          (b2n (mhas a.hints 1), 1, 28), (hintAt a 2, 14, 14), (hintAt a 1, 14, 0)],
        pack [(hintAt a 4, 14, 14), (hintAt a 3, 14, 0)], pack [(a.repAge, 8, 24), (a.lastReport, 24, 0)],
        pack [(a.grantBits, 8, 24), (a.inflight, 24, 0)] ]) (fun _ f => f)) ∧
  (∀ a : Alloc, EndsOk .allocDelete opAllocDelete
    (fun c f => c.inst = laneOf (fld (c.w 0) 5 0) ∧ allocAt f (allocKey (fld (c.w 0) 5 0) (fld (c.w 0) 29 16)) = some a ∧
      reaches c.world a.world = true) (fun _ _ => [])
    (fun c f => { f with weaver := { f.weaver with
      allocs := mdel f.weaver.allocs (allocKey (fld (c.w 0) 5 0) (fld (c.w 0) 29 16)) } })) ∧
  (∀ a : Alloc, EndsOk .scheduleHint opScheduleHint
    (fun c f => unitFailed f 0x03 0 (laneOf (fld (c.w 0) 5 0)) = false ∧
      allocAt f (allocKey (fld (c.w 0) 5 0) (fld (c.w 0) 29 16)) = some a ∧ reaches c.world a.world = true ∧ a.hintEn = true ∧
      f.halter.grantMode = false ∧ 1 ≤ fld (c.w 0) 10 8 ∧ fld (c.w 0) 10 8 ≤ 4)
    (fun c f => [lo32 (closedMap f (fld (c.w 0) 5 0) + fld (c.w 0) 10 8)])
    (fun c f =>
      let k := allocKey (fld (c.w 0) 5 0) (fld (c.w 0) 29 16)
      if fld (c.w 1) 13 0 = 0 then updAlloc k (fun a => { a with hints := mdel a.hints (fld (c.w 0) 10 8) }) f
      else
        let t := updAlloc k (fun a => { a with hints := mset a.hints (fld (c.w 0) 10 8) (fld (c.w 1) 13 0) }) f
        bump5 7 (fld (c.w 0) 5 0) a.world 1
          (if mhas a.hints (fld (c.w 0) 10 8) then bump5 8 (fld (c.w 0) 5 0) a.world 1 t else t))) ∧
  EndsOk .cinchBudget opCinchBudget
    (fun c f => (fld (c.w 0) 27 0 = 0 ∨ guarSum f.weaver.allocs ≤ fld (c.w 0) 27 0) ∧ ∀ e ∈ cinchWeights c.words, e.2 ≠ 0)
    (fun _ _ => [])
    (fun c f => { f with weaver := { f.weaver with budget := fld (c.w 0) 27 0, weights := cinchWeights c.words } }) ∧
  EndsLong .weaverStats opWeaverStats
    (fun c _ => fld (c.w 0) 15 0 = 0xFFFF ∨ laneOf (fld (c.w 0) 15 0) = c.inst)
    (fun c f => (List.range 17).flatMap fun pos =>
      let n := if fld (c.w 0) 15 0 = 0xFFFF then worldCount f (c5 pos) 7 c.inst c.world
        else worldCount f (c5 pos) 8 (fld (c.w 0) 15 0) c.world
      [lo32 n, hi32 n]) (fun _ f => f)

/-- Weaver's events, one of each stage (from R172 to R174, R181, R184, R187 to R190, R196). The cutoff of a lane closes the next map
and takes Cinch's inputs; the absorber takes the oldest report; the passes resolve every closed port; Cinch returns its caps
to the lanes that wait; a lane whose aggregates are missing gives the last ones, counted, and one without caps takes the last
caps; a capped tree runs again; placement builds the maps; at the deadline a built map is handed off and counted;
FORECAST_ACK counts, and one whose MIC fails is discarded and counted (from R120). What it says by the model's choice is in log
entries 121, 122, 135. -/
def Obligations.WeaverEventsRunAMap : Prop :=
  (∀ (k : Nat) (s : State), k < 8 → (laneAt5 s k).cutoff ≤ s.time.sfc →
    ∃ t, exec (.mapCutoff k) s = .next t ∧ (laneAt5 t k).cutoff = s.time.sfc + 1 ∧ (laneAt5 t k).aggs = [] ∧
      (laneAt5 t k).caps = [] ∧ (laneAt5 t k).given = false ∧ (laneAt5 t k).capsIn = false ∧
      t.weaver.budgetIn = s.weaver.budget ∧ t.weaver.weightsIn = s.weaver.weights) ∧
  (∀ (k : Nat) (r : Report) (rest : List Report) (s : State), k < 8 → (laneAt5 s k).reports = r :: rest →
    exec (.reportAbsorb k) s = .next (
      let t := updLane5 k (fun l => { l with reports := rest }) s
      match allocAt s (allocKey r.tree r.id) with
      | none => bump5 16 r.tree 0x0100 1 t
      | some a => countEvent 0x40 0x101 a.world 1 (updAlloc (allocKey r.tree r.id) (fun b => { b with
          arrivals := b.arrivals + (r.value - (a.lastReport - r.rx)), lastReport := r.value, repAge := 0,
          arrFrame := r.frame % 256 }) t))) ∧
  (∀ (k : Nat) (s : State), k < 8 → (∃ p ∈ lanePorts s k, (mapsAt s p).closed.isSome = true) →
    exec (.resolvePasses k) s =
      .next (forEach (lanePorts s k) (resolveOne k) (updLane5 k (fun l => { l with aggs := [], given := true }) s))) ∧
  (∀ s : State, (∀ k ∈ lanesDue s, (laneAt5 s k).given = true) →
    exec .cinchFill s = .next (forBelow 8 (fun k t => if (laneAt5 t k).capsIn then t
      else updLane5 k (fun l => { l with caps := (cinchCaps s).filter fun e => laneOf e.1 = k, capsIn := true }) t) s)) ∧
  (∀ (k : Nat) (s : State), k < 8 → (laneAt5 s k).given = false → k ∈ lanesDue s →
    exec (.cinchStale k) s = .next (bumpBy { cid := c5 12, scope := 7, idx := k } 1
      (updLane5 k (fun l => { l with aggs := l.prevAggs, given := true }) s))) ∧
  (∀ (k : Nat) (s : State), k < 8 → (laneAt5 s k).capsIn = false →
    exec (.capsLate k) s = .next (updLane5 k (fun l => { l with caps := l.prevCaps, capsIn := true }) s)) ∧
  (∀ (k tree cap p : Nat) (w : Work) (s : State), k < 8 → (laneAt5 s k).capsIn = true → (laneAt5 s k).caps = [(tree, cap)] →
    treePorts s tree = [p] → (mapsAt s p).work = some w → w.capped = none → (aggregate s w).2 ≠ 0 →
    exec (.cappedRerun k) s = .next (bump5 11 tree 0x0100 1 (updMaps p (fun m => { m with work := some (rerunPort s p cap w) }) s))) ∧
  (∀ (k : Nat) (s : State), k < 8 → (laneAt5 s k).capsIn = true →
    exec (.placement k) s = .next (forEach (lanePorts s k) buildPort s)) ∧
  (∀ (p : Nat) (m : BwMap) (s : State), p < 64 → granting s p = true → (mapsAt s p).handed ≤ s.time.sfc →
    (mapsAt s p).built = some m → m.num = s.time.sfc + 1 →
    let sent : BwMap := { m with bursts := m.bursts.filter fun b => b.term.isSome }
    exec (.mapHandoff p) s = .next (bump5 0 p 0x0100 1 (updMaps p (fun m => { m with missed := 0 })
      (emit (.map p m (m.bursts.flatMap (burstStructs s p m.num))) (updMaps p (fun x => { x with
        built := none, last := some m, handed := m.num, out := x.out ++ [sent]
        spans := (x.spans ++ [(m.num, m.bursts.map fun b => (b.start, b.start + b.len))]).drop (x.spans.length - 15) })
        (noteSent p m s)))))) ∧
  (∀ (i id rx used period : Nat) (t : Terminal) (s : State), termAt s i = some t → s.vault.registered.contains i = true →
    t.ext.testBit 2 = true →
    exec (.forecastAck ⟨i, true⟩ id rx used period) s = .next (countEvent 0x48 0x101 t.world 1 (bump5 5 (i / 512) t.world (rx % 65536) (bump5 6 (i / 512) t.world (used % 65536)
      (updAlloc (allocKey (i / 512) (id % 16384)) (fun a =>
        if a.terminal = i ∧ 1 ≤ period ∧ period ≤ 127 ∧ a.conf = 0 then { a with period := period } else a) s))))) ∧
  (∀ (i id rx used period : Nat) (t : Terminal) (s : State), termAt s i = some t →
    exec (.forecastAck ⟨i, false⟩ id rx used period) s =
      .next (countEvent 0x48 0x101 t.world 1 (bumpPon 11 t.port (some i) t.world s)))

/-- QUEUE_CONFIG, each of its six objects (from R254, R255, R257, R258): a downstream queue, a network queue with its world and
parent, a profile, a quota, a replication group and a session are kept as their words say, where the world of the command
reaches the object and its destinations; a change of a queue's parent sets its deficits to 0, and FLUSH frees what it holds;
a group without members goes. What it says by the model's choice is in log entries 98, 100. -/
def Obligations.QueueConfigWritesItsObject : Prop :=
  EndsOk .queueConfig opQueueConfig
    (fun c f => qcObj c.words = 0 ∧ qcIndex c.words < 262144 ∧ reaches c.world (nodeWorld f (downQueue (qcIndex c.words))) = true ∧
      xgemTaken f (qcIndex c.words) (fld (c.w 1) 15 0) = false ∧
      (bit (c.w 1) 29 = true → sampledBut f (downQueue (qcIndex c.words)) < 8192)) (fun _ _ => [])
    (fun c f => writeQueue (downQueue (qcIndex c.words)) (fun x => { x with
      enable := bit (c.w 1) 31, sample := bit (c.w 1) 29, enc := bit (c.w 1) 28, gateClass := fld (c.w 1) 26 24,
      profile := fld (c.w 1) 21 16, xgemPort := fld (c.w 1) 15 0 }) (bit (c.w 1) 30) f) ∧
  EndsOk .queueConfig opQueueConfig
    (fun c f => qcObj c.words = 1 ∧ qcIndex c.words < 65536 ∧ worldCode (fld (c.w 2) 31 16) = true ∧
      reaches c.world (fld (c.w 2) 31 16) = true ∧ reaches c.world (queueAt f (netQueue (qcIndex c.words))).world = true ∧
      hangs (nodeAt8 f ⟨1, 2, fld (c.w 2) 11 0⟩).world (fld (c.w 2) 31 16) = true ∧
      (bit (c.w 1) 29 = true → sampledBut f (netQueue (qcIndex c.words)) < 8192)) (fun _ _ => [])
    (fun c f => writeQueue (netQueue (qcIndex c.words)) (fun x => { x with
      enable := bit (c.w 1) 31, sample := bit (c.w 1) 29, gateClass := fld (c.w 1) 26 24, profile := fld (c.w 1) 21 16,
      world := fld (c.w 2) 31 16, parent := fld (c.w 2) 11 0 }) (bit (c.w 1) 30) f) ∧
  EndsOk .queueConfig opQueueConfig
    (fun c _ => qcObj c.words = 2 ∧ qcIndex c.words < 64 ∧ c.world = 0x0100) (fun _ _ => [])
    (fun c f =>
      let p : Profile := { green := fld (c.w 1) 27 0, yellow := fld (c.w 2) 27 0, red := fld (c.w 3) 27 0, ondieOnly := bit (c.w 4) 31 }
      { f with tm := { f.tm with profiles := mset f.tm.profiles (qcIndex c.words) p } }) ∧
  EndsOk .queueConfig opQueueConfig
    (fun c _ => qcObj c.words = 3 ∧ qcIndex c.words < 257 ∧ reaches c.world (qcIndex c.words) = true) (fun _ _ => [])
    (fun c f =>
      let q : Quota := { ondie := fld (c.w 1) 19 0, hbm := some (fld (c.w 2) 27 0) }
      { f with tm := { f.tm with quotas := mset f.tm.quotas (qcIndex c.words) q } }) ∧
  EndsOk .queueConfig opQueueConfig
    (fun c f => qcObj c.words = 4 ∧ qcIndex c.words < 65536 ∧ worldCode (fld (c.w 1) 31 16) = true ∧ fld (c.w 1) 10 0 = 0 ∧
      reaches c.world (fld (c.w 1) 31 16) = true ∧ (∀ g, mget f.tm.groups (qcIndex c.words) = some g → reaches c.world g.world = true))
    (fun _ _ => [])
    (fun c f => { f with tm := { f.tm with groups := mdel f.tm.groups (qcIndex c.words) } }) ∧
  EndsOk .queueConfig opQueueConfig
    (fun c f =>
      let n := fld (c.w 1) 10 0
      let ds := wordsOfBytes n c.data
      qcObj c.words = 4 ∧ qcIndex c.words < 65536 ∧ worldCode (fld (c.w 1) 31 16) = true ∧ 1 ≤ n ∧ n ≤ 1024 ∧ c.hasData = true ∧
      c.data.length = 4 * n ∧ reaches c.world (fld (c.w 1) 31 16) = true ∧
      (∀ g, mget f.tm.groups (qcIndex c.words) = some g → reaches c.world g.world = true) ∧
      (∀ d ∈ ds, destKind d ≤ 3 ∧ destOk d = true ∧ memberForeign f (fld (c.w 1) 31 16) d = false) ∧
      membersBut f (qcIndex c.words) + n ≤ 262144) (fun _ _ => [])
    (fun c f =>
      let g : Group := { world := fld (c.w 1) 31 16, members := wordsOfBytes (fld (c.w 1) 10 0) c.data }
      { f with tm := { f.tm with groups := mset f.tm.groups (qcIndex c.words) g } }) ∧
  EndsOk .queueConfig opQueueConfig
    (fun c f => qcObj c.words = 5 ∧ qcIndex c.words < 64 ∧ destKind (c.w 1) ≠ 4 ∧ destOk (c.w 1) = true ∧
      worldCode (fld (c.w 2) 31 16) = true ∧ reaches c.world (fld (c.w 2) 31 16) = true ∧
      (∀ x, mget f.tm.sessions (qcIndex c.words) = some x → reaches c.world x.world = true) ∧
      memberForeign f (fld (c.w 2) 31 16) (c.w 1) = false) (fun _ _ => [])
    (fun c f =>
      let x : Session := { dest := c.w 1, world := fld (c.w 2) 31 16 }
      { f with tm := { f.tm with sessions := mset f.tm.sessions (qcIndex c.words) x } })

/-- Nodes, shapers, gate lists, statistics and sample rings (from R250, R251, R259, R263 to R267, R271, R272, R274). A node is kept as Table 8.4 writes it, with its
parent's and children's worlds observed, and a world has one default under a root; a shaper starts with full buckets or empty;
a gate list waits for its start, which is answered; QUEUE_STATS answers and clears the maxima; a ring is kept or removed, and read. -/
def Obligations.TrafficCommandsTakeEffect : Prop :=
  EndsOk .schedNodeConfig opSchedNodeConfig
    (fun c f =>
      let n := nodeOf (c.w 0)
      let t := updNode n (fun _ => nodeWritten c.words n (nodeAt8 f n)) f
      nodeOk n = true ∧ 1 ≤ fld (c.w 2) 27 16 ∧ 1 ≤ fld (c.w 2) 11 0 ∧
      (holdsWorld n = true → worldCode (fld (c.w 3) 31 16) = true) ∧ fld (c.w 3) 15 0 % 8 = 0 ∧
      parentBad n (fld (c.w 1) 15 0) = false ∧
      (c.world ≠ 0x0100 → nodeWorld f n = c.world ∧ (holdsWorld n = true → fld (c.w 3) 31 16 = c.world)) ∧
      hangs (parentWorld t n) (nodeWorld t n) = true ∧ (holdsWorld n = true → childForeign t n (fld (c.w 3) 31 16) = false))
    (fun _ _ => [])
    (fun c f =>
      let n := nodeOf (c.w 0)
      let new := nodeWritten c.words n (nodeAt8 f n)
      oneDefault n new (settle (pathOf f n) (updNode n (fun _ => new) f))) ∧
  EndsOk .shaperConfig opShaperConfig
    (fun c f => ((nodeOf (c.w 0)).level = 2 ∨ (nodeOf (c.w 0)).level = 3) ∧ nodeOk (nodeOf (c.w 0)) = true ∧
      -64 ≤ signed 8 (fld (c.w 1) 7 0) ∧ (c.w 2).toNat ≤ (c.w 3).toNat ∧ 16384 ≤ fld (c.w 4) 23 0 ∧ 16384 ≤ fld (c.w 5) 23 0 ∧
      (c.world = 0x0100 ∨ nodeWorld f (nodeOf (c.w 0)) = c.world)) (fun _ _ => [])
    (fun c f =>
      let h : Shaper :=
        { overhead := signed 8 (fld (c.w 1) 7 0), cir := (c.w 2).toNat, pir := (c.w 3).toNat, cbs := fld (c.w 4) 23 0,
          pbs := fld (c.w 5) 23 0, cTok := if bit (c.w 1) 30 then 0 else (fld (c.w 4) 23 0 : Int) * byteUnit,
          pTok := if bit (c.w 1) 30 then 0 else (fld (c.w 5) 23 0 : Int) * byteUnit }
      updNode (nodeOf (c.w 0)) (fun x => { x with shaper := if bit (c.w 1) 31 then some h else none }) f) ∧
  (∀ g : GateList, EndsOk .gateListLoad opGateListLoad
    (fun c f => c.hasData = true ∧ (fld (c.w 0) 31 30 = 0 ∨
      fld (c.w 0) 31 30 = 1 ∧ treeOf f (fld (c.w 0) 5 0) = fld (c.w 0) 5 0) ∧ gateImage (c.w 0) c.data = .ok g)
    (fun _ f => [lo32 (gateStart f g / 1000000000), hi32 (gateStart f g / 1000000000), wd (gateStart f g % 1000000000),
      wd (b2n (gateLate f g))])
    (fun c f =>
      let start := gateStart f g
      let t := { f with tm := { f.tm with
        gates := mupd f.tm.gates (targetKey (c.w 0)) {} fun x => { x with pending := some (g, start) } } }
      if gateLate f g then
        recordEv 0x0008 4 0x06 3 0 0x0100
          [c.w 0, lo32 (start / 1000000000), hi32 (start / 1000000000), wd (start % 1000000000)]
          (bump (cTm 9) (if fld (c.w 0) 31 30 = 0 then 1 else 8) (fld (c.w 0) 5 0) t)
      else t)) ∧
  (∀ g : GateList, EndsOk .upstreamGateLoad opUpstreamGateLoad
    (fun c f => c.hasData = true ∧ fld (c.w 0) 31 30 = 2 ∧ treeOf f (fld (c.w 0) 5 0) = fld (c.w 0) 5 0 ∧ gateImage (c.w 0) c.data = .ok g)
    (fun _ f => [lo32 (gateStart f g / 1000000000), hi32 (gateStart f g / 1000000000), wd (gateStart f g % 1000000000),
      wd (b2n (gateLate f g))])
    (fun c f =>
      let start := gateStart f g
      let t := { f with tm := { f.tm with
        gates := mupd f.tm.gates (targetKey (c.w 0)) {} fun x => { x with pending := some (g, start) } } }
      if gateLate f g then
        recordEv 0x0008 4 0x06 3 0 0x0100
          [c.w 0, lo32 (start / 1000000000), hi32 (start / 1000000000), wd (start % 1000000000)]
          (bump (cTm 9) (if fld (c.w 0) 31 30 = 0 then 1 else 8) (fld (c.w 0) 5 0) t)
      else t)) ∧
  (∀ (k start : Nat) (g : GateList) (s : State), k < 192 → (gateAt s k).pending = some (g, start) → start * nsUnit ≤ s.time.tc →
    exec (.gateListStart k) s =
      .next { s with tm := { s.tm with gates := mset s.tm.gates k { active := some g, pending := none } } }) ∧
  EndsOk .queueStats opQueueStats
    (fun c f => nodeOk ⟨fld (c.w 0) 31 31, 4, fld (c.w 0) 17 0⟩ = true ∧
      (c.world = 0x0100 ∨ nodeWorld f ⟨fld (c.w 0) 31 31, 4, fld (c.w 0) 17 0⟩ = c.world))
    (fun c f => queueWords f ⟨fld (c.w 0) 31 31, 4, fld (c.w 0) 17 0⟩)
    (fun c f =>
      let n : NodeId := ⟨fld (c.w 0) 31 31, 4, fld (c.w 0) 17 0⟩
      if mhas f.tm.queues n then updQueue n (fun x => { x with maxDepth := 0, maxHol := 0 }) f else f) ∧
  EndsOk .sampleRingConfig opSampleRingConfig
    (fun c f => worldCode (fld (c.w 0) 15 0) = true ∧ fld (c.w 0) 23 16 ≤ 63 ∧ fld (c.w 1) 11 0 = 0 ∧
      ((c.w 3).toNat = 0 ∨ ∃ k < 13, (c.w 3).toNat = 2 ^ (8 + k)) ∧ reaches c.world (fld (c.w 0) 15 0) = true ∧
      boundTo f (fld (c.w 0) 23 16) (fld (c.w 0) 15 0) = true) (fun _ _ => [])
    (fun c f =>
      let r : Ring := { fn := fld (c.w 0) 23 16, addr := join64 (c.w 1) (c.w 2), size := (c.w 3).toNat }
      let world := fld (c.w 0) 15 0
      let rings := if (c.w 3).toNat = 0 then mdel f.tm.rings world else mset f.tm.rings world r
      { f with tm := { f.tm with rings := rings } }) ∧
  (∀ r : Ring, EndsOk .sampleRingRead opSampleRingRead
    (fun c f => reaches c.world (fld (c.w 0) 15 0) = true ∧ mget f.tm.rings (fld (c.w 0) 15 0) = some r ∧
      ((c.w 1).toNat = 0xFFFFFFFF ∨ (c.w 1).toNat < r.size))
    (fun c _ =>
      let consumed := if (c.w 1).toNat = 0xFFFFFFFF then r.consumed.getD 0
        else r.written - (r.written + r.size - (c.w 1).toNat) % r.size
      [wd (consumed % r.size), wd (r.written % r.size), wd r.lostAll])
    (fun c f =>
      let x : Ring := if (c.w 1).toNat = 0xFFFFFFFF then r
        else { r with consumed := some (r.written - (r.written + r.size - (c.w 1).toNat) % r.size) }
      { f with tm := { f.tm with rings := mset f.tm.rings (fld (c.w 0) 15 0) x } }))

/-- Rules (from R202 to R206, R212, R216 to R223). PARSE_GRAPH_LOAD is kept for the activation. RULE_TREE_LOAD and RULE_UPDATE change
the tree of the version that is open or that they open. RULE_VERSION_COMMIT makes the open version current and the current
one draining, and answers the current version; RULE_VERSION_STATUS answers ten words. EXCEPTION_CONFIG sets a code for its
sources. A draining version without frames is freed with its notification; 1 ms in draining frees it late, recorded. What it
says by the model's choice is in log entries 23, 26, 68. -/
def Obligations.RuleCommandsTakeEffect : Prop :=
  (∀ (p : Packet) (g : Graph) (s : State), acceptsStaged opParseGraphLoad p s = true → p.env.dataOk = true →
    (ctxOf opParseGraphLoad p (fetched opParseGraphLoad p s)).hasData = true →
    graphImage (ctxOf opParseGraphLoad p (fetched opParseGraphLoad p s)).data = .ok g →
    hasRoom opParseGraphLoad p (fetched opParseGraphLoad p s) = true →
    exec (.parseGraphLoad p) s =
      .next (replyTo p .ok [] 0 (keepStaged opParseGraphLoad p (fetched opParseGraphLoad p s)))) ∧
  (∀ (t : Tree) (v : Nat) (trees : Map Nat Tree), EndsOk .ruleTreeLoad opRuleTreeLoad
    (fun c f => c.hasData = true ∧ treeImage f (fld (c.w 0) 5 0) c.data = .ok t ∧ worldCode t.world = true ∧
      reaches c.world t.world = true ∧ treeGround c f (fld (c.w 0) 5 0) (some t.world) = none ∧ openVersion f = some (v, trees) ∧
      storeFull f v (mset trees (fld (c.w 0) 5 0) t) = false) (fun _ _ => [])
    (fun c f =>
      let u := updVersion v (fun x => { x with st := .opened, trees := mset trees (fld (c.w 0) 5 0) t }) f
      { u with rules := { u.rules with worlds := mset u.rules.worlds (fld (c.w 0) 5 0) t.world, images := f.rules.images + 1 } })) ∧
  (∀ (t t' : Tree) (v k m : Nat) (trees : Map Nat Tree), EndsOk .ruleUpdate opRuleUpdate
    (fun c f => treeGround c f (fld (c.w 0) 5 0) none = none ∧ openVersion f = some (v, trees) ∧
      mget trees (fld (c.w 0) 5 0) = some t ∧
      applyRecs f v (fld (c.w 0) 5 0) ((updateRecs c.words).getD []) t f.rules.copies f.rules.sides = .ok (t', k, m) ∧
      storeFull f v (mset trees (fld (c.w 0) 5 0) t') = false) (fun _ _ => [])
    (fun c f =>
      let u := updVersion v (fun x => { x with st := .opened, trees := mset trees (fld (c.w 0) 5 0) t' }) f
      { u with rules := { u.rules with copies := k, sides := m } })) ∧
  (∀ (v : Nat) (x : Version), EndsOk .ruleVersionCommit opRuleVersionCommit
    (fun _ f => f.halter.stage ≠ .halter ∧ f.rules.versions.find? (fun e => e.2.st = .opened) = some (v, x))
    (fun _ _ => [wd v])
    (fun _ f =>
      let t := updVersion v (fun y => { y with st := .current })
        (updVersion f.rules.current (fun y => { y with st := .draining, since := f.mono }) f)
      { t with rules := { t.rules with current := v } })) ∧
  EndsOk .ruleVersionStatus opRuleVersionStatus (fun _ _ => True)
    (fun c f =>
      let seen (t : Tree) : Bool := match c.master with | .vf _ => t.world = c.world | _ => true
      (List.range 8).map (fun v => pack [(verCode (versionAt f v).st, 2, 30), ((versionAt f v).inFlight, 30, 0)]) ++
      [pack [((((versionAt f f.rules.current).trees.filter fun e => seen e.2).map fun e => (treeRules e.2).length).foldl (· + ·) 0,
        19, 0)],
       pack [((storeSize - storeUsed (liveTrees f 8 [])) / 1024, 15, 0)]]) (fun _ f => f) ∧
  EndsOk .exceptionConfig opExceptionConfig
    (fun c f =>
      let a : Action := ⟨c.w 2, c.w 3⟩
      fld (c.w 0) 25 24 ∈ excPermitted (fld (c.w 0) 23 16) ∧ (fld (c.w 0) 7 0 ≤ 84 ∨ fld (c.w 0) 7 0 = 0xFF) ∧
      1 ≤ fld (c.w 1) 31 16 ∧ actOp a ≤ 1 ∧ actForce a = false ∧ actColour a ≠ 3 ∧ (hrqAt f (fld (c.w 1) 7 0)).bound ≠ 0xFF ∧
      (hrqAt f (fld (c.w 1) 7 0)).world = 0x0100) (fun _ _ => [])
    (fun c f =>
      let e : ExcCfg := { disp := fld (c.w 0) 25 24, rate := fld (c.w 1) 31 16, hostq := fld (c.w 1) 7 0, act := ⟨c.w 2, c.w 3⟩ }
      let sources := if fld (c.w 0) 7 0 = 0xFF then List.range 85 else [fld (c.w 0) 7 0]
      { f with rules := { f.rules with bank := { f.rules.bank with
        exc := sources.foldl (fun m i => mset m (fld (c.w 0) 23 16 * 256 + i) e) f.rules.bank.exc } } }) ∧
  (∀ (v : Nat) (s : State), v < 8 → (versionAt s v).st = .draining → (versionAt s v).inFlight = 0 →
    exec (.ruleVersionRetired v) s = .next (notify .ruleVersionRetired [wd v] (updVersion v (fun _ => {}) s))) ∧
  (∀ (v : Nat) (s : State), v < 8 → (versionAt s v).st = .draining → (versionAt s v).inFlight ≠ 0 →
    (versionAt s v).since + ms ≤ s.mono →
    exec (.rverDrainLate v) s = .next (notify .ruleVersionRetired [wd v] (updVersion v (fun _ => {})
      (recordEv 0x0008 3 0x04 0 0 0x0100 [wd v] (raise 0x04 0 0 0 0x0411 1 (wd v) (dropVersion v s))))))

/-- Forwarding tables (from R236 to R239, R243 to R245, R247, R459). MAC_STATIC_ADD puts the entry in all four slices, or in the lost ones;
MAC_DELETE removes the key; MAC_LOOKUP answers the entry; MAC_FLUSH removes the learned entries of its scope and answers how many;
AGEING_CONFIG keeps its values, 0 leaving a time as it was. LPM_ADD puts a prefix, LPM_DELETE removes it, LPM_LOAD replaces a table.
STITCH_CONFIG keeps ENABLE; a SOURCE enabled anew releases from the next SEQ, and one turned off passes what it holds under the current
epoch, which is the model's choice (log entry 184). -/
def Obligations.TableCommandsTakeEffect : Prop :=
  EndsOk .macStaticAdd opMacStaticAdd
    (fun c f =>
      let lost := lostSlices f (wordsKey c)
      keyGround c = none ∧ destOk (c.w 0) = true ∧
      (∀ n, c.master = .vf n → serves (destWorld f (c.w 0)) c.world = true) ∧
      (lost = [] → ∀ i < 4, ∀ e, macFind (macAt f i) (wordsKey c) = some e → e.static = false) ∧
      ∀ i ∈ (if lost.isEmpty then [0, 1, 2, 3] else lost), (macPut (staticEntry c f) (macAt f i)).isSome = true)
    (fun _ _ => [])
    (fun c f => putIn (if (lostSlices f (wordsKey c)).isEmpty then [0, 1, 2, 3] else lostSlices f (wordsKey c)) (staticEntry c f) f) ∧
  EndsOk .macDelete opMacDelete
    (fun c f => keyGround c = none ∧ (fld (c.w 0) 3 0 ≤ 3 ∨ fld (c.w 0) 3 0 = 0xF) ∧
      ∃ i ∈ sliceList (fld (c.w 0) 3 0), (macFind (macAt f i) (wordsKey c)).isSome = true) (fun _ _ => [])
    (fun c f => forEach (sliceList (fld (c.w 0) 3 0))
      (fun i t => setMac i (macRemove (macAt t i) fun e => e.key = wordsKey c) t) f) ∧
  (∀ e : MacEntry, EndsOk .macLookup opMacLookup
    (fun c f => keyGround c = none ∧ fld (c.w 0) 3 0 ≤ 3 ∧ macFind (macAt f (fld (c.w 0) 3 0)) (wordsKey c) = some e)
    (fun _ _ => [e.dest, lo32 e.mac, pack [(e.vid, 12, 16), (e.mac / 2 ^ 32, 16, 0)],
      pack [(1, 1, 31), (b2n e.static, 1, 30), (e.world, 9, 16), (e.age, 16, 0)]]) (fun _ f => f)) ∧
  EndsOk .macFlush opMacFlush
    (fun c _ => (fld (c.w 0) 31 30 = 0 → destOk (c.w 1) = true) ∧ (fld (c.w 0) 31 30 = 3 → fld (c.w 0) 15 0 ≤ 63) ∧
      (fld (c.w 0) 31 30 = 1 → worldCode (fld (c.w 0) 15 0) = true ∧ reaches c.world (fld (c.w 0) 15 0) = true))
    (fun c f => [wd (((List.range 4).map fun i => ((macEntries (macAt f i)).filter (flushes c f)).length).foldl (· + ·) 0)])
    (fun c f => forBelow 4 (fun i t => setMac i (macRemove (macAt t i) (flushes c f)) t) f) ∧
  EndsOk .ageingConfig opAgeingConfig
    (fun c f => (worldCode (fld (c.w 0) 15 0) = true ∨ fld (c.w 0) 15 0 = 0xFFFF) ∧ fld (c.w 1) 19 0 ≤ 524288 ∧
      (if fld (c.w 2) 31 16 = 0 then f.rules.bank.ageS else fld (c.w 2) 31 16) +
        (if fld (c.w 2) 15 0 = 0 then f.rules.bank.scanS else fld (c.w 2) 15 0) ≤ 32767 ∧
      (fld (c.w 2) 31 16 = 0 ∨ 10 ≤ fld (c.w 2) 31 16)) (fun _ _ => [])
    (fun c f =>
      let g : LearnCfg := { enable := bit (c.w 0) 31, limit := fld (c.w 1) 19 0 }
      let worlds := if fld (c.w 0) 15 0 = 0xFFFF then List.range 257 else [fld (c.w 0) 15 0]
      { f with rules := { f.rules with bank := { f.rules.bank with
        learn := worlds.foldl (fun m w => mset m w g) f.rules.bank.learn
        ageS := if fld (c.w 2) 31 16 = 0 then f.rules.bank.ageS else fld (c.w 2) 31 16
        scanS := if fld (c.w 2) 15 0 = 0 then f.rules.bank.scanS else fld (c.w 2) 15 0 } } }) ∧
  (∀ (t : Lpm) (x : Prefix), EndsOk .lpmAdd opLpmAdd
    (fun c f => worldCode (fld (c.w 0) 31 16) = true ∧ reaches c.world (fld (c.w 0) 31 16) = true ∧
      mget f.rules.lpm (fld (c.w 0) 31 16) = some t ∧ prefixOf c.words = .ok x ∧
      lpmUnits (mset f.rules.lpm (fld (c.w 0) 31 16) { t with prefixes := putPrefix t.prefixes x }) ≤ 1048576) (fun _ _ => [])
    (fun c f => { f with rules := { f.rules with
      lpm := mset f.rules.lpm (fld (c.w 0) 31 16) { t with prefixes := putPrefix t.prefixes x } } })) ∧
  (∀ (t : Lpm) (x : Prefix), EndsOk .lpmDelete opLpmDelete
    (fun c f => worldCode (fld (c.w 0) 31 16) = true ∧ reaches c.world (fld (c.w 0) 31 16) = true ∧
      mget f.rules.lpm (fld (c.w 0) 31 16) = some t ∧ prefixOf c.words = .ok x ∧ t.prefixes.any (samePrefix x) = true ∧
      lpmUnits (mset f.rules.lpm (fld (c.w 0) 31 16) { t with prefixes := t.prefixes.filter fun y => !samePrefix x y }) ≤ 1048576)
    (fun _ _ => [])
    (fun c f => { f with rules := { f.rules with
      lpm := mset f.rules.lpm (fld (c.w 0) 31 16) { t with prefixes := t.prefixes.filter fun y => !samePrefix x y } } })) ∧
  (∀ l : List Prefix, EndsOk .lpmLoad opLpmLoad
    (fun c f =>
      c.hasData = true ∧ worldCode (fld (c.w 0) 15 0) = true ∧ reaches c.world (fld (c.w 0) 15 0) = true ∧
      lpmUnits f.rules.lpm + lpmNeed c.data ≤ 1048576 ∧ (wordAt c.data 0x0C).toNat ≤ 1048576 ∧ wordAt c.data 0 = 0x4C504D54#32 ∧ wordAt c.data 4 = 1 ∧ (wordAt c.data 8).toNat = fld (c.w 0) 15 0 ∧
      c.data.length = 64 + 32 * (wordAt c.data 0x0C).toNat ∧ crc32 (c.data.drop 0x1C) = wordAt c.data 0x18 ∧
      (∀ b ∈ slice c.data 0x1C 36, b = 0) ∧ fld (wordAt c.data 0x14) 31 16 = 0 ∧
      lpmRecords (fld (c.w 0) 15 0) (wordAt c.data 0x0C).toNat 0 (c.data.drop 64) [] = .ok l) (fun _ _ => [])
    (fun c f =>
      let new : Lpm := { routerMac := (wordAt c.data 0x10).toNat + fld (wordAt c.data 0x14) 15 0 * 2 ^ 32, prefixes := l }
      { f with rules := { f.rules with lpm := mset f.rules.lpm (fld (c.w 0) 15 0) new } })) ∧
  EndsOk .stitchConfig opStitchConfig (fun c _ => fld (c.w 0) 7 0 ≤ 84) (fun _ _ => [])
    (fun c f =>
      let src := fld (c.w 0) 7 0
      let was := mgetD f.rules.bank.stitch src true
      let t := { f with rules := { f.rules with bank := { f.rules.bank with
        stitch := mset f.rules.bank.stitch src (bit (c.w 0) 31) } } }
      if bit (c.w 0) 31 ∧ was = false then
        setRelease src (mgetD f.rules.nextSeq src 0) { t with rules := { t.rules with passedTo := mdel t.rules.passedTo src } }
      else if was ∧ bit (c.w 0) 31 = false then
        forEach (heldNow f src) (fun e t => releaseFrame e.2 (seenSeq src (releasePoint f src + e.1) t)) t
      else t)

/-- A frame from its ingress unit to the forward unit (from R16, R17, R22, R30, R33, R201, R209, R215, R222, R224, R228). A frame
that an uplink port recognises as PTP bypasses the slices (from R428). Of the others, one whose judged length is outside 64 to 12,288 bytes is counted and gone; one that fits takes a number, the current EPOCH and
rule version, and waits. The distributor gives it a slice and the next SEQ of its SOURCE. The parse unit gives it its key.
The classify unit gives it its world, class, colour and merged action; the forward unit gives it the DEST of the entry found.
A frame that a channel poisoned on its way into its slice is dropped there. What it says by the model's choice is in log
entry 29. -/
def Obligations.FramesPassTheSlices : Prop :=
  (∀ (source card : Nat) (bytes : List Byte) (fits : Bool) (s : State), 64 ≤ source → source < 82 → card < 64 →
    let n := judgedLen s source (if source < 80 then 0 else card) bytes
    (source < 80 → recognised s (source - 64) bytes = true →
      exec (.frameIngress source card bytes fits) s = .next (ptpReceive (source - 64) bytes s)) ∧
    ((source < 80 → recognised s (source - 64) bytes = false) →
    (n < 64 ∨ 12288 < n → exec (.frameIngress source card bytes fits) s = .next (bumpW cDropLength 5 source 0x0100 s)) ∧
    (64 ≤ n → n ≤ 12288 → fits = false →
      exec (.frameIngress source card bytes fits) s = .next (bumpW cDropIngress 5 source 0x0100 s)) ∧
    (64 ≤ n → n ≤ 12288 → fits = true → ∃ t x, exec (.frameIngress source card bytes fits) s = .next t ∧
      flightAt t s.pkt.next = some x ∧ x.frame.bytes = bytes ∧ x.frame.source = source ∧ x.frame.len = bytes.length ∧
      x.frame.epoch = s.epoch.current.toNat ∧ x.frame.rver = s.rules.current ∧ x.at_ = s.mono ∧ t.pkt.next = s.pkt.next + 1 ∧
      t.epoch.inFlight = s.epoch.inFlight + 1 ∧
      (versionAt t s.rules.current).inFlight = (versionAt s s.rules.current).inFlight + 1))) ∧
  (∀ (id : Nat) (x : Flight) (s : State), flightAt s id = some x → x.place = .ingress → x.void = false → x.direct = false →
    earlierWaits s id x.frame.source = false → s.halter.stage = .outside → s.halter.leaving = [] → x.frame.poison = false →
    enabledSlices s ≠ [] →
    let en := enabledSlices s
    let p := mgetD s.rules.spray x.frame.source 0
    let q := mgetD s.rules.nextSeq x.frame.source 0
    ∃ t, exec (.distributorSpray id) s = .next t ∧
      flightAt t id = some { x with place := .sprayed, frame := { x.frame with slice := en.getD (p % en.length) 0, seq := q } } ∧
      mgetD t.rules.spray x.frame.source 0 = p + 1 ∧ mgetD t.rules.nextSeq x.frame.source 0 = (q + 1) % 2 ^ 20) ∧
  (∀ (id : Nat) (x : Flight) (b : Bank) (s : State), flightAt s id = some x → x.place = .sprayed → x.void = false →
    x.frame.poison = false → bankOf s x.frame = some b →
    let w := walkGraph (graphOf b) (fld (nthW (graphOf b).sourceSel x.frame.source) 7 0) x.frame.bytes x.frame.len
    w.exc = 0 →
    exec (.parseWalk id) s = .next (setFlight id { x with key := keyOf x.frame w, walk := w.trail, place := .parsed } s)) ∧
  (∀ (id : Nat) (x : Flight) (b : Bank) (op : Action) (world : Nat) (hit : Bool) (s : State), flightAt s id = some x →
    x.place = .parsed → x.void = false → x.frame.poison = false → bankOf s x.frame = some b → (versionAt s x.frame.rver).st ≠ .free →
    x.key.excAct = false → x.chan = none → walkBoth b (versionAt s x.frame.rver) x.frame x.key = .ok (op, none, world, hit) →
    actOp op = 0 →
    ∃ t y, exec (.classify id) s = .next t ∧ flightAt t id = some y ∧ y.place = .classified ∧ y.frame.world = world ∧
      y.frame.cls = (if actSetClass op then actClass op else 0) ∧ y.frame.colour = (if actSetColour op then actColour op else 0) ∧
      y.counted = false) ∧
  (∀ (id : Nat) (x : Flight) (b : Bank) (e : MacEntry) (s : State), flightAt s id = some x → x.place = .classified →
    x.void = false → x.frame.poison = false → bankOf s x.frame = some b → mget s.rules.lpm x.frame.world = none →
    macFind (macAt s x.frame.slice) (x.frame.world, keyVid x.key, keyDst x.key) = some e →
    (learnCfg b x.frame.world).enable = false → ownEntry x.frame x.frame.card e.dest = false → destKind e.dest ≠ 5 →
    s.halter.stage ≠ .s1 →
    exec (.forwardLookup id) s = .next (setFlight id
      { x with dest := e.dest, place := .out, frame := { x.frame with dir := if destKind e.dest = 0 then 0 else x.frame.dir } }
      (countEvent (0x42 + x.frame.slice) 0x101 x.frame.world 1 s))) ∧
  (∀ (id : Nat) (x : Flight) (s : State), flightAt s id = some x → x.place = .sprayed → x.void = false → x.frame.poison = true →
    exec (.parseWalk id) s = .next (bumpW (cid 17 7 0) 9 (0x42 + x.frame.slice) x.frame.world (dropFlight id s)))

/-- Learning, ageing, Stitch, enqueue and Rein (from R235, R241, R242, R246, R247, R252 to R258, R260). A learn request adds its
entry, or meets the limit; a scan asks for the deletion of what has aged, and a deletion removes an entry that has not
changed. Stitch releases a frame at the release point with what follows it, holds one ahead, lets go one whose SOURCE it does
not order, and skips the missing SEQs after 8 µs; how r moves while frames of a previous epoch are still ordered is the model's choice (log
entry 184). A released frame is copied into its queues from on-die cells. A port that
is ready sends the head of the queue that select finds, which waits while Hide's pipes are held (from R378). What it says by the model's
choice is in log entries 118 and 184. -/
def Obligations.FramesLearnOrderAndQueue : Prop :=
  (∀ (k : Nat) (r : LearnReq) (rest : List LearnReq) (s : State), k < 4 → powered s k = true → (macAt s k).learns = r :: rest →
    macFind (macAt s k) (r.world, r.vid, r.mac) = none →
    let t := setMac k { macAt s k with learns := rest } s
    let new : MacEntry := { world := r.world, vid := r.vid, mac := r.mac, static := false, age := ageNow s, dest := r.dest }
    ((learnCfg s.rules.bank r.world).limit ≤ learnedOf (macAt s k) r.world →
      exec (.learnRequest k) s = .next (bumpSlice 7 k r.world t)) ∧
    (learnedOf (macAt s k) r.world < (learnCfg s.rules.bank r.world).limit →
      exec (.learnRequest k) s = .next (match macInsert { macAt s k with learns := rest } new with
        | some m => countEvent (0x42 + k) 0x104 r.world 1 (bumpSlice 4 k r.world (setMac k m t))
        | none => bumpSlice 8 k r.world t))) ∧
  (∀ (k : Nat) (s : State), k < 4 → powered s k = true → (macAt s k).scanAt + s.rules.bank.scanS * sec ≤ s.mono →
    let old := (macEntries (macAt s k)).filter fun e =>
      !e.static && s.rules.bank.ageS ≤ (ageNow s + 65536 - e.age) % 65536
    exec (.ageingScan k) s = .next (setMac k { macAt s k with deletes := (macAt s k).deletes ++ old, scanAt := s.mono } s)) ∧
  (∀ (k : Nat) (d e : MacEntry) (rest : List MacEntry) (s : State), k < 4 → powered s k = true → (macAt s k).learns = [] →
    (macAt s k).deletes = d :: rest → macFind { macAt s k with deletes := rest } d.key = some e →
    exec (.compareAndDelete k) s = .next (
      if e.static = false ∧ e.age = d.age then
        bumpSlice 5 k d.world (setMac k (macRemove { macAt s k with deletes := rest } fun x => x.key = d.key) s)
      else setMac k { macAt s k with deletes := rest } s)) ∧
  (∀ (id : Nat) (x : Flight) (b : Bank) (s : State), flightAt s id = some x → x.place = .out → bankOf s x.frame = some b →
    (x.frame.poison = false ∨ x.void = true) →
    let a := seqAhead (releasePoint s x.frame.source) x.frame.seq
    (stitchOn s b x.frame = true → a = 0 → exec (.stitchArrival id) s = .next (releaseRun (stitchHeld s + 1) x.frame.source
      (releaseFrame id (setRelease x.frame.source (releasePoint s x.frame.source + 1) s)))) ∧
    (stitchOn s b x.frame = true → 1 ≤ a → a < 2 ^ 19 → stitchHeld s < 8192 →
      exec (.stitchArrival id) s = .next (setFlight id { x with place := .stitch, at_ := s.mono } s)) ∧
    (stitchOn s b x.frame = false → stitchLingers s x.frame.source = false → exec (.stitchArrival id) s =
      .next (releaseFrame id (setRelease x.frame.source
        (if a < 2 ^ 19 then (x.frame.seq + 1) % 2 ^ 20 else releasePoint s x.frame.source) s))) ∧
    (stitchOn s b x.frame = false → stitchLingers s x.frame.source = true →
      let src := x.frame.source
      let seen := mgetD s.rules.passedTo src (releasePoint s src)
      let next := if seqAhead seen x.frame.seq < 2 ^ 19 then (x.frame.seq + 1) % 2 ^ 20 else seen
      let t := releaseFrame id { s with rules := { s.rules with passedTo := mset s.rules.passedTo src next } }
      exec (.stitchArrival id) s = .next (if a = 0 then releaseRun (stitchHeld s + 1) src (setRelease src (releasePoint s src + 1) t)
        else t))) ∧
  (∀ (id : Nat) (x : Flight) (s : State), flightAt s id = some x → x.place = .out → x.void = false →
    (x.frame.poison = true → exec (.stitchArrival id) s = .next (dropCounted cDropChannel 9 0x41 id s)) ∧
    (x.frame.poison = false → bankOf s x.frame = none → exec (.stitchArrival id) s = .next (dropEpoch id s))) ∧
  (∀ (id : Nat) (x : Flight) (s : State), flightAt s id = some x → x.place = .stitch → x.at_ + 8 * us ≤ s.mono →
    let src := x.frame.source
    let a := seqAhead (releasePoint s src) x.frame.seq
    let held := heldUpTo s src a
    let t := forEach held (fun e t => releaseFrame e.2 t) (setRelease src (releasePoint s src + a + 1)
      (bumpBy { cid := cFwd 11, scope := 5, idx := src } (a + 1 - held.length) s))
    (a < 2 ^ 19 → exec (.stitchTimeout id) s = .next (releaseRun (stitchHeld t + 1) src t)) ∧
    (2 ^ 19 ≤ a → exec (.stitchTimeout id) s =
      .next (if x.void then endFlight id s else bump (cFwd 12) 5 src (dropFlight id s)))) ∧
  (∀ (id : Nat) (room : Bool) (x : Flight) (cells : List Nat) (t : State) (s : State), flightAt s id = some x → x.place = .released →
    mayRunAhead s x = true → firstReleased s id x = true → x.frame.poison = false → x.frame.cells = [] → x.act.mirrors = [] →
    moveOpen s x.frame 1 = true → destKind x.dest < 4 → takeCells 0 (dataCells x.frame.len)
      (frameIn 0x46 x.frame.world x.frame.len (endFlight id (epochOut x.frame.epoch (leaveVersion id s)))) = some (cells, t) →
    exec (.enqueue id room) s = .next (sendCopy x.dest x.act.queue none room { x.frame with
        pool := 0, cells := cells, mirror := false, session := none }
      (bumpBy { cid := cid 7 9 2, scope := 10, idx := x.frame.slice, world := x.frame.world } 0 { t with mem := { t.mem with
        ondie := mupd t.mem.ondie x.frame.world 0 (· + cells.length) } }))) ∧
  (∀ (side i : Nat) (s : State), side < 2 → i < nodeCount side 0 →
    (rootReady s ⟨side, 0, i⟩ = false → exec (.reinDecision side i) s = .next s) ∧
    (∀ path t, rootReady s ⟨side, 0, i⟩ = true →
      descend 4 ⟨side, 0, i⟩ (livePaths (dropAllHeads ⟨side, 0, i⟩ s) ⟨side, 0, i⟩) (dropAllHeads ⟨side, 0, i⟩ s) = some (path, t) →
      exec (.reinDecision side i) s = .next (if readWaits (dropAllHeads ⟨side, 0, i⟩ s) path then dropAllHeads ⟨side, 0, i⟩ s
        else sendChosen ⟨side, 0, i⟩ path t)))

/-- ENC_RESERVE, SC_CONFIG, SA_CONFIG and SA_ACTIVATE (from R286, R287, R291 to R294, R304 to R306). A reservation that fits the capacity
stands, and its reply gives what is left. SC_CONFIG writes a new channel with cleared counters, rewrites the fields that may change and
keeps the encoding AN, or deletes a channel with its associations. SA_CONFIG installs or removes an association; SA_ACTIVATE
names the AN, and on receive the lowest acceptable PN. -/
def Obligations.CipherCommandsTakeEffect : Prop :=
  EndsOk .encReserve opEncReserve
    (fun c f => fld (c.w 0) 7 0 ≤ 79 ∧ (bit (c.w 0) 30 = true → fld (c.w 0) 31 31 = 1) ∧
      (fld (c.w 0) 7 0 < 16 → uplinkRate f (fld (c.w 0) 7 0) ≠ 0) ∧
      (fld (c.w 1) 15 0 = 0 → pointHasChannel f (fld (c.w 0) 7 0) (decide (fld (c.w 0) 31 31 = 1)) = false) ∧
      reservedBut f (fld (c.w 0) 31 31) (fld (c.w 0) 7 0) +
        reservedRate f (fld (c.w 0) 7 0) { rate := fld (c.w 1) 15 0, cut := bit (c.w 0) 30 } ≤ 32768)
    (fun c f => [wd (32768 - (reservedBut f (fld (c.w 0) 31 31) (fld (c.w 0) 7 0) +
      reservedRate f (fld (c.w 0) 7 0) { rate := fld (c.w 1) 15 0, cut := bit (c.w 0) 30 }))])
    (fun c f =>
      let new : Reserve := { rate := fld (c.w 1) 15 0, cut := bit (c.w 0) 30 }
      { f with cipher := { f.cipher with reserve := mset f.cipher.reserve (fld (c.w 0) 7 0 * 2 + fld (c.w 0) 31 31) new } }) ∧
  EndsOk .scConfig opScConfig
    (fun c f => worldCode (fld (c.w 1) 31 16) = true ∧ (c.world = 0x0100 ∨ (fld (c.w 1) 31 16 = c.world ∧
      ∀ o, mget f.cipher.channels (fld (c.w 0) 29 16) = some o → o.world = c.world)) ∧ bit (c.w 0) 6 = false ∧
      fld (c.w 0) 15 8 ≤ 79 ∧ secured f (fld (c.w 0) 15 8) (b2n (bit (c.w 0) 7)) = true ∧ fld (c.w 0) 3 0 ≤ 3 ∧ fld (c.w 0) 5 4 ≠ 3 ∧
      fld (c.w 1) 14 13 ≠ 3 ∧ (2 ≤ fld (c.w 0) 3 0 → (c.w 7).toNat < 2 ^ 30)) (fun _ _ => [])
    (fun c f => { f with cipher := { f.cipher with channels := mdel f.cipher.channels (fld (c.w 0) 29 16), assocs := mkeep f.cipher.assocs fun k _ => k / 4 ≠ fld (c.w 0) 29 16 } }) ∧
  EndsOk .scConfig opScConfig
    (fun c f => worldCode (fld (c.w 1) 31 16) = true ∧ (c.world = 0x0100 ∨ fld (c.w 1) 31 16 = c.world) ∧ bit (c.w 0) 6 = true ∧
      fld (c.w 0) 15 8 ≤ 79 ∧ secured f (fld (c.w 0) 15 8) (b2n (bit (c.w 0) 7)) = true ∧ fld (c.w 0) 3 0 ≤ 3 ∧ fld (c.w 0) 5 4 ≠ 3 ∧
      fld (c.w 1) 14 13 ≠ 3 ∧ (2 ≤ fld (c.w 0) 3 0 → (c.w 7).toNat < 2 ^ 30) ∧
      mget f.cipher.channels (fld (c.w 0) 29 16) = none ∧ channelClash f (fld (c.w 0) 29 16) (channelOf c) = false) (fun _ _ => [])
    (fun c f => clearCounters 4 (fld (c.w 0) 29 16)
      { f with cipher := { f.cipher with channels := mset f.cipher.channels (fld (c.w 0) 29 16) (channelOf c) } }) ∧
  (∀ o : Channel, EndsOk .scConfig opScConfig
    (fun c f => worldCode (fld (c.w 1) 31 16) = true ∧ (c.world = 0x0100 ∨ fld (c.w 1) 31 16 = c.world) ∧ bit (c.w 0) 6 = true ∧
      fld (c.w 0) 15 8 ≤ 79 ∧ secured f (fld (c.w 0) 15 8) (b2n (bit (c.w 0) 7)) = true ∧ fld (c.w 0) 3 0 ≤ 3 ∧ fld (c.w 0) 5 4 ≠ 3 ∧
      fld (c.w 1) 14 13 ≠ 3 ∧ (2 ≤ fld (c.w 0) 3 0 → (c.w 7).toNat < 2 ^ 30) ∧
      mget f.cipher.channels (fld (c.w 0) 29 16) = some o ∧ sameFixed o (channelOf c) = true) (fun _ _ => [])
    (fun c f =>
      let new : Channel := { channelOf c with an := o.an, lowest := o.lowest }
      { f with cipher := { f.cipher with channels := mset f.cipher.channels (fld (c.w 0) 29 16) new } })) ∧
  (∀ x : Channel, EndsOk .saConfig opSaConfig
    (fun c f => mget f.cipher.channels (fld (c.w 0) 29 16) = some x ∧ (c.world = 0x0100 ∨ x.world = c.world) ∧
      mhas f.cipher.assocs (fld (c.w 0) 29 16 * 4 + fld (c.w 0) 1 0) = true ∧ bit (c.w 0) 4 = true ∧
      (x.rx = true ∨ channelAn x ≠ fld (c.w 0) 1 0)) (fun _ _ => [])
    (fun c f =>
      let k := fld (c.w 0) 29 16 * 4 + fld (c.w 0) 1 0
      { f with cipher := { f.cipher with assocs := mdel f.cipher.assocs k } })) ∧
  (∀ x : Channel, EndsOk .saConfig opSaConfig
    (fun c f => mget f.cipher.channels (fld (c.w 0) 29 16) = some x ∧ (c.world = 0x0100 ∨ x.world = c.world) ∧ bit (c.w 0) 4 = false ∧
      isPonSlot (fld (c.w 1) 16 0) = false ∧ (slotAt f (fld (c.w 1) 16 0)).valid = true ∧
      permits f (slotAt f (fld (c.w 1) 16 0)).attr engineBit x.world (some (if x.rx then useDecrypt else useEncrypt)) = true ∧
      ((x.suite = 1 ∨ x.suite = 3) → (slotAt f (fld (c.w 1) 16 0)).attr.ktype ≠ 0) ∧ join64 (c.w 3) (c.w 4) ≠ 0 ∧
      (isXpn x.suite = false → c.w 4 = 0) ∧
      (x.rx = true ∨ channelAn x ≠ fld (c.w 0) 1 0 ∨ mhas f.cipher.assocs (fld (c.w 0) 29 16 * 4 + fld (c.w 0) 1 0) = false))
    (fun _ _ => [])
    (fun c f =>
      let k := fld (c.w 0) 29 16 * 4 + fld (c.w 0) 1 0
      let n := f.cipher.installs + 1
      { f with cipher := { f.cipher with installs := n, assocs := mset f.cipher.assocs k (assocOf c n) } })) ∧
  (∀ (x : Channel) (a : Assoc), a.exhausted = false → EndsOk .saActivate opSaActivate
    (fun c f => mget f.cipher.channels (fld (c.w 0) 29 16) = some x ∧ (c.world = 0x0100 ∨ x.world = c.world) ∧
      mget f.cipher.assocs (fld (c.w 0) 29 16 * 4 + fld (c.w 0) 1 0) = some a) (fun _ _ => [])
    (fun c f =>
      let new : Channel := { x with an := some (fld (c.w 0) 1 0), lowest := if x.rx then join64 (c.w 1) (c.w 2) else x.lowest }
      { f with cipher := { f.cipher with channels := mset f.cipher.channels (fld (c.w 0) 29 16) new } }))

/-- MACsec in the array (from R282, R295 to R302, Tables 9.7 and 9.10). A poisoned frame is discarded (from R16), and one of neither
bank of its EPOCH dropped (from R34); the receive configuration is that of the frame's EPOCH (from R31). On receive an untagged frame is delivered and counted, or
dropped where the point validates strictly; a malformed tag drops the frame; a frame with a channel and a keyed association
is held until its verdict. The verdict delivers a valid frame's plain bytes and raises NEXT_PN, or drops the frame in strict
mode. On transmit the frame gets its tag and the next PN; one without a channel or an association is counted and gone. What
it says by the model's choice is in log entries 30, 75, 136. -/
def Obligations.MacsecReceivesJudgesAndSends : Prop :=
  (∀ (id p : Nat) (x : Flight) (s : State), flightAt s id = some x → x.place = .array → admits s 0 = true →
    rxPoint x.frame.source x.frame.card = some p →
    (x.frame.poison = true → exec (.macsecReceive id) s = .next (dropCounted cDropChannel 9 0x47 id s)) ∧
    (x.frame.poison = false → bankOf s x.frame = none → exec (.macsecReceive id) s = .next (dropEpoch id s))) ∧
  (∀ (id p : Nat) (x : Flight) (s : State), flightAt s id = some x → x.place = .array → admits s 0 = true →
    rxPoint x.frame.source x.frame.card = some p → x.frame.poison = false → (bankOf s x.frame).isSome = true →
    etherType x.frame.bytes ≠ 0x88E5 →
    let v := rxView s x.frame
    exec (.macsecReceive id) s = .next (
      if pointValidate v p = 2 then dropFlight id (match implicitChannel v p with
        | some (i, c) => bumpW (cid 9 10 15) 4 i c.world s
        | none => bump (cid 9 10 15) 1 p s)
      else setFlight id { x with
          place := .ingress
          chan := match implicitChannel v p with
            | some (_, c) => if c.world = 0x0100 then none else some c.world
            | none => none
          frame := { x.frame with len := x.frame.bytes.length, secured := false } }
        (match implicitChannel v p with
          | some (i, c) => bumpW (cid 9 10 16) 4 i c.world s
          | none => bump (cid 9 10 16) 1 p s))) ∧
  (∀ (id p : Nat) (x : Flight) (s : State), flightAt s id = some x → x.place = .array → admits s 0 = true →
    rxPoint x.frame.source x.frame.card = some p → x.frame.poison = false → (bankOf s x.frame).isSome = true →
    etherType x.frame.bytes = 0x88E5 → badTag x.frame.bytes = true →
    exec (.macsecReceive id) s = .next (dropFlight id (match rxChannel (rxView s x.frame) p x.frame.bytes with
      | some (i, c) => bumpW (cid 9 10 17) 4 i c.world s
      | none => bump (cid 9 10 17) 1 p s))) ∧
  (∀ (id p i : Nat) (x : Flight) (c : Channel) (a : Assoc) (s : State), flightAt s id = some x → x.place = .array →
    admits s 0 = true → rxPoint x.frame.source x.frame.card = some p → x.frame.poison = false →
    (bankOf s x.frame).isSome = true → etherType x.frame.bytes = 0x88E5 → badTag x.frame.bytes = false →
    let v := rxView s x.frame
    rxChannel v p x.frame.bytes = some (i, c) →
    let an := (x.frame.bytes.getD 14 0).toNat % 4
    mget v.cipher.assocs (i * 4 + an) = some a → engineUse s a.slot c.world useDecrypt (wideSuite c.suite) = true →
    (c.validate ≠ 0 → c.replay = true → framePn c a x.frame.bytes < lowestPn c a an →
      exec (.macsecReceive id) s = .next (dropFlight id (bumpW (cid 9 10 12) 4 i c.world s))) ∧
    ((c.validate = 0 ∨ c.replay = false ∨ lowestPn c a an ≤ framePn c a x.frame.bytes) → (reserveAt v p 1).cut = false →
      ∃ t y, exec (.macsecReceive id) s = .next t ∧ t.cipher.inPipes = s.cipher.inPipes ++ [y] ∧ y.traffic = .rxHeld ∧
        y.frame = id ∧ y.slot = a.slot ∧ y.gen = (slotAt s a.slot).gen ∧ y.pn = framePn c a x.frame.bytes ∧
        flightAt t id = some { x with place := .held, chan := if c.world = 0x0100 then none else some c.world,
                                      frame := { x.frame with secured := true } })) ∧
  (∀ (id : Nat) (y : Admitted) (s : State), s.cipher.inPipes.find? (fun a => isRx a && a.frame = id) = some y →
    let s1 := leavePipes (fun a => isRx a && a.frame = id) s
    let n := (secureData y.bytes).length
    (y.validate ≠ 0 → y.valid = true → exec (.macsecVerdict id) s = .next (verdictDeliver y (acceptPn y
      (bumpBy { cid := cid 9 10 18, scope := 4, idx := y.chan, world := y.world } n
        (bumpW (cid 9 10 (if y.pn < y.low then 9 else 7)) 4 y.chan y.world s1))))) ∧
    (y.validate ≠ 0 → y.valid = false → (y.validate = 2 ∨ y.cbit = true) →
      exec (.macsecVerdict id) s = .next (verdictDrop y (bumpW (cid 9 10 11) 4 y.chan y.world s1))) ∧
    (y.validate = 1 → y.valid = false → y.cbit = false →
      exec (.macsecVerdict id) s = .next (verdictDeliver y (bumpW (cid 9 10 10) 4 y.chan y.world s1)))) ∧
  (∀ (p : Nat) (f : Frame) (rest : List Frame) (s : State), p < 80 → mgetD s.tm.egress p [] = f :: rest → admits s 0 = true →
    let s1 := { s with tm := { s.tm with egress := mset s.tm.egress p rest } }
    (f.poison = true → exec (.macsecTransmit p) s = .next (bumpW cDropChannel 9 0x47 f.world s1)) ∧
    (f.poison = false → txChannel s1 p f.world = none → exec (.macsecTransmit p) s =
      .next (bumpBy { cid := cid 9 10 3, scope := 1, idx := p, world := f.world } 1 s1)) ∧
    (f.poison = false → ∀ i x, txChannel s1 p f.world = some (i, x) → mget s.cipher.assocs (i * 4 + channelAn x) = none →
      exec (.macsecTransmit p) s = .next (bumpBy { cid := cid 9 10 4, scope := 4, idx := i, world := x.world } 1 s1)) ∧
    (f.poison = false → ∀ i x a, txChannel s1 p f.world = some (i, x) → mget s.cipher.assocs (i * 4 + channelAn x) = some a →
      a.exhausted = false → engineUse s a.slot x.world useEncrypt (wideSuite x.suite) = true → a.nextPn < lastPn x.suite →
      ∃ t y b, exec (.macsecTransmit p) s = .next t ∧ t.cipher.inPipes = s.cipher.inPipes ++ [y] ∧
        y.bytes = sealFrame x a (channelAn x) (slotBytes s a.slot) f.bytes ∧ y.slot = a.slot ∧ y.gen = (slotAt s a.slot).gen ∧
        mget t.cipher.assocs (i * 4 + channelAn x) = some b ∧ b.nextPn = a.nextPn + 1 ∧ b.exhausted = false))

/-- KEY_GENERATE, KEY_WRAP, SLOT_ERASE and SLOT_INFO (from R315 to R320, R337 to R342). Mode 0 writes a key of the random generator,
which stays free; modes 1 and 4 derive one, into the slot or into the reply; mode 2 reserves a slot's attributes; mode 3
unwraps one, or is refused where the wrap fails its check. A wrap gives the wrapped key and marks the slot EXPORTED. An erase
empties the slot, and by the PF its reservation. SLOT_INFO gives attributes, flags and generation, and for an authority key
the hash of its point. Each waits behind a slot operation that waits (from R283, R319). What it says by the model's choice is in
log entries 38, 116, 156. -/
def Obligations.SlotCommandsTakeEffect : Prop :=
  let plain (c : Ctx) (_ : State) : Prop := fld (c.w 4) 15 8 ≤ 16 ∧ fld (c.w 4) 7 0 ≤ 64 ∧ worldCode (attrWords c).world = true ∧
    (attrWords c).ktype ≠ 3
  let target (c : Ctx) (f : State) : Prop := inRange (fld (c.w 0) 17 0) = true ∧ isControl (fld (c.w 0) 17 0) = false ∧
    isPonSlot (fld (c.w 0) 17 0) = false ∧ (attrWords c).ktype ≠ 2 ∧
    targetGround c f (fld (c.w 0) 17 0) (attrWords c) = none ∧
    persistFull f (fld (c.w 0) 17 0) (attrWords c).persist = false ∧ mustWait f (fld (c.w 0) 17 0) = false ∧
    lands f (fld (c.w 0) 17 0) (attrWords c) c.pkt.env.norOk = true
  let parent (c : Ctx) (f : State) (use : Nat) : Prop := inRange (fld (c.w 3) 17 0) = true ∧ isPonSlot (fld (c.w 3) 17 0) = false ∧
    isWorldS (fld (c.w 3) 17 0) = false ∧ mayUse f (fld (c.w 3) 17 0) (masterBit c.master) c.world use = true ∧
    (slotAt f (fld (c.w 3) 17 0)).attr.world = (attrWords c).world
  EndsOk .keyGenerate opKeyGenerate (fun c f => plain c f ∧ target c f ∧ fld (c.w 0) 31 29 = 0)
    (fun c f => [wd (((slotAt f (fld (c.w 0) 17 0)).gen + 1) % 65536)])
    (fun c f => slotOp (fld (c.w 0) 17 0) (takeFree (writeKey (fld (c.w 0) 17 0) (attrWords c) 1
      ((Config.drbg f.free).take (keyLen (attrWords c).ktype)) c.pkt.env.norOk f))) ∧
  EndsOk .keyGenerate opKeyGenerate (fun c f => plain c f ∧ target c f ∧ parent c f useDerive ∧ fld (c.w 0) 31 29 = 1)
    (fun c f => [wd (((slotAt f (fld (c.w 0) 17 0)).gen + 1) % 65536)])
    (fun c f => slotOp (fld (c.w 0) 17 0) (writeKey (fld (c.w 0) 17 0) (attrWords c) 2
      ((Config.kdf (slotBytes f (fld (c.w 3) 17 0)) (keyLabel c) (keyContext c) (8 * keyLen (attrWords c).ktype)).take
        (keyLen (attrWords c).ktype)) c.pkt.env.norOk f)) ∧
  EndsOk .keyGenerate opKeyGenerate (fun c f => plain c f ∧ c.master = .pf ∧ fld (c.w 0) 31 29 = 2 ∧
      (c.world = 0x0100 ∨ (slotAt f (fld (c.w 0) 17 0)).attr.world = c.world ∧ (attrWords c).world = c.world) ∧
      lands f (fld (c.w 0) 17 0) (attrWords c) c.pkt.env.norOk = true ∧ inRange (fld (c.w 0) 17 0) = true ∧ isControl (fld (c.w 0) 17 0) = false ∧ (slotAt f (fld (c.w 0) 17 0)).valid = false ∧
      persistFull f (fld (c.w 0) 17 0) (attrWords c).persist = false ∧ opsWait f = false)
    (fun c f => [wd (slotAt f (fld (c.w 0) 17 0)).gen])
    (fun c f => slotOp (fld (c.w 0) 17 0) (keepSlot (fld (c.w 0) 17 0)
      { slotAt f (fld (c.w 0) 17 0) with attr := attrWords c } c.pkt.env.norOk f)) ∧
  Answers .keyGenerate opKeyGenerate (fun c f => plain c f ∧ target c f ∧ parent c f useWrap ∧ fld (c.w 0) 31 29 = 3 ∧
      fld (c.w 4) 7 0 = (if (attrWords c).ktype = 0 then 24 else 40))
    (fun c f => match Config.unwrap (slotBytes f (fld (c.w 3) 17 0)) (keyContext c) with
      | none => .refuse .badSignature []
      | some k => .done (slotOp (fld (c.w 0) 17 0) (writeKey (fld (c.w 0) 17 0) (attrWords c) 3 k c.pkt.env.norOk f))
          [wd (((slotAt f (fld (c.w 0) 17 0)).gen + 1) % 65536)]) ∧
  EndsOk .keyGenerate opKeyGenerate (fun c f => plain c f ∧ (attrWords c).ktype ≠ 2 ∧ parent c f useDerive ∧ fld (c.w 0) 31 29 = 4 ∧
      opsWait f = false)
    (fun c f => wd (slotAt f (fld (c.w 3) 17 0)).gen :: wordsOfBytes 8
      ((Config.kdf (slotBytes f (fld (c.w 3) 17 0)) (keyLabel c) (keyContext c) (8 * keyLen (attrWords c).ktype)).take
        (keyLen (attrWords c).ktype)))
    (fun c f => slotOp (fld (c.w 3) 17 0) f) ∧
  EndsOk .keyWrap opKeyWrap
    (fun c f => inRange (fld (c.w 0) 17 0) = true ∧ isPonSlot (fld (c.w 0) 17 0) = false ∧ isWorldS (fld (c.w 0) 17 0) = false ∧
      inRange (fld (c.w 1) 17 0) = true ∧ isPonSlot (fld (c.w 1) 17 0) = false ∧ isWorldS (fld (c.w 1) 17 0) = false ∧
      mayUse f (fld (c.w 0) 17 0) (masterBit c.master) c.world useWrap = true ∧
      mayUse f (fld (c.w 1) 17 0) (masterBit c.master) c.world useWrap = true ∧
      (slotAt f (fld (c.w 0) 17 0)).attr.neverExport = false ∧ (slotAt f (fld (c.w 0) 17 0)).attr.ktype ≠ 2 ∧
      (slotAt f (fld (c.w 0) 17 0)).attr.world = (slotAt f (fld (c.w 1) 17 0)).attr.world ∧ opsWait f = false)
    (fun c f =>
      let n := keyLen (slotAt f (fld (c.w 0) 17 0)).attr.ktype
      wordsOfBytes ((n + 8) / 4) (Config.wrap (slotBytes f (fld (c.w 1) 17 0)) ((slotBytes f (fld (c.w 0) 17 0)).take n)))
    (fun c f => slotOp (fld (c.w 0) 17 0) (updSlot (fld (c.w 0) 17 0) (fun x => { x with exported := true }) f)) ∧
  EndsOk .slotErase opSlotErase
    (fun c f => inRange (fld (c.w 0) 17 0) = true ∧ isControl (fld (c.w 0) 17 0) = false ∧ opsWait f = false ∧
      ((c.master = .pf ∧ (c.world = 0x0100 ∨ (slotAt f (fld (c.w 0) 17 0)).attr.world = c.world)) ∨
        (bit (c.w 0) 31 = false ∧ (slotAt f (fld (c.w 0) 17 0)).attr.world = c.world ∧
          (slotAt f (fld (c.w 0) 17 0)).attr.masters.testBit 1 = true))) (fun _ _ => [])
    (fun c f => eraseSlot (fld (c.w 0) 17 0) (bit (c.w 0) 31) (slotOp (fld (c.w 0) 17 0) f)) ∧
  EndsOk .slotInfo opSlotInfo
    (fun c f => opsWait f = false ∧ inRange (fld (c.w 0) 17 0) = true ∧ (c.world = 0x0100 ∨ (slotAt f (fld (c.w 0) 17 0)).attr.world = c.world) ∧
      ¬ (isControl (fld (c.w 0) 17 0) = true ∧ (slotAt f (fld (c.w 0) 17 0)).attr.ktype = 2))
    (fun c f =>
      let x := slotAt f (fld (c.w 0) 17 0)
      [lo32 (attrBits x.attr), hi32 (attrBits x.attr), pack [(b2n x.valid, 1, 31), (b2n x.old.isSome, 1, 30),
        (b2n x.stored, 1, 29), (b2n x.exported, 1, 28), (x.gen, 16, 0)]])
    (fun c f => slotOp (fld (c.w 0) 17 0) f) ∧
  EndsLong .slotInfo opSlotInfo
    (fun c f => opsWait f = false ∧ inRange (fld (c.w 0) 17 0) = true ∧
      (c.world = 0x0100 ∨ (slotAt f (fld (c.w 0) 17 0)).attr.world = c.world) ∧
      isControl (fld (c.w 0) 17 0) = true ∧ (slotAt f (fld (c.w 0) 17 0)).attr.ktype = 2)
    (fun c f =>
      let x := slotAt f (fld (c.w 0) 17 0)
      [lo32 (attrBits x.attr), hi32 (attrBits x.attr), pack [(b2n x.valid, 1, 31), (b2n x.old.isSome, 1, 30),
        (b2n x.stored, 1, 29), (b2n x.exported, 1, 28), (x.gen, 16, 0)]] ++ wordsOfBytes 12 (Config.sha384 (x.body.take 97)))
    (fun c f => slotOp (fld (c.w 0) 17 0) f)

/-- Shedar messages, epoch advances, statements and ALARM_STATUS (from R321, R324 to R331, R343, R344, R349, Table 10.6a).
SHEDAR_UPDATE judges the head; a signature or a tag that fails raises sensor 8, after the counter is consumed for the tag; a
message that opens runs its operation. EPOCH_ADVANCE is not permitted there: steps 5 and 6 do not apply to it. A counter record that
does not verify lets nothing take effect (from R69). UPDATE_EPOCH_ADVANCE burns the next row and starts its counter at 0. The
statements are signed bytes in the result buffer. Whether a signature, a tag, a row or a record verifies is open, so each answer covers
both. What it says by the model's choice is in log entries 38, 39, 156, 169, 187, 188. -/
def Obligations.MessagesAndStatementsAnswer : Prop :=
  Answers .shedarUpdate opShedarUpdate
    (fun c f => shOp (bytesOfWords c.words) ≠ 8 ∧ storedCounter f < 0xFFFFFFFFFFFF ∧ storedCounter f < shCounter (bytesOfWords c.words) ∧
      shedarWaits (bytesOfWords c.words) f = false)
    (fun c f =>
      let m := bytesOfWords c.words
      match shedarHead m false f with
      | some (st, ws) => if st = .badSignature then .ended (alarm 8 f) .badSignature ws else .refuse st ws
      | none =>
        let g := setCounter (updateEpoch f) (shCounter m) c.pkt.env.norOk f
        if c.pkt.env.norOk then
          match shedarOpen (testRoot g) m with
          | none => .ended (alarm 8 g) .badSignature []
          | some payload =>
            let r := shedarApply (shOp m) (shSlot m) (shAttr m) payload g
            if r.1 = .ok then
              if lifeResets f.vault.life r.2.2.vault.life then
                .last r.2.2 [lo32 (shCounter m), hi32 (shCounter m)] (.moduleReset 3) false
              else .done r.2.2 [lo32 (shCounter m), hi32 (shCounter m)]
            else .ended r.2.2 r.1 r.2.1
        else .ended g .aborted []) ∧
  Answers .shedarUpdate opShedarUpdate (fun c f => shOp (bytesOfWords c.words) = 8 ∧ opsWait f = false)
    (fun c f =>
      let m := bytesOfWords c.words
      match shedarHead m false f with
      | some (st, ws) => if st = .badSignature then .ended (alarm 8 f) .badSignature ws else .refuse st ws
      | none =>
        if shCounter m ≠ 0 then .refuse .badCounter [lo32 (storedCounter f), hi32 (storedCounter f)]
        else match shedarOpen (testRoot f) m with
          | none => .ended (alarm 8 f) .badSignature []
          | some p =>
            if p.length ≠ 97 ∨ shSlot m ≠ 0 ∨ shAttr m ≠ 0 then .ended f .badParam [0] else .ended f .notPermitted []) ∧
  (∀ (n : Nat) (body : List Byte) (a : Nat) (s : State), inRange n = true → isPonSlot n = false → isWorldS n = false →
    (slotAt s n).attr.world ≠ 0x0200 →
    let written (a : Attr) (write : Bool → State → State) : Status × List Word × State :=
      (if lands s n a (readsBack s) then .ok else .aborted, [],
        slotOp n (write (readsBack s) (if isPersistent n a then takeFree s else s)))
    (isControl n = false → isHideSlot n = false → body.length = 32 → (slotAt s n).valid = false → (attrOf a).ktype < 2 →
      worldCode (attrOf a).world = true → a % 2 ^ 24 = 0 → bodyFits n (attrOf a).ktype body = true →
      persistFull s n (attrOf a).persist = false →
      shedarApply 1 n a body s = written (attrOf a) (writeKey n (attrOf a) 4 body)) ∧
    (isHideSlot n = false → body.length = (if isControl n then 128 else 32) → (slotAt s n).valid = true →
      bodyFits n (slotAt s n).attr.ktype body = true →
      shedarApply 2 n a body s = written (slotAt s n).attr (writeKey n (slotAt s n).attr 4 body)) ∧
    ((slotAt s n).valid = true → shedarApply 3 n 0 [] s = (.ok, [], eraseSlot n true (slotOp n s))) ∧
    ((slotAt s n).valid = true → narrows (attrOf a) (slotAt s n).attr = true → a % 2 ^ 24 = 0 →
      shedarApply 4 n a [] s = written (attrOf a)
        (keepSlot n { slotAt s n with attr := { attrOf a with origin := (slotAt s n).attr.origin } }))) ∧
  (∀ (n : Nat) (key : List Byte) (s : State), n < 32768 → key.length = 16 → shedarApply 5 n 0 key s = (.ok, [],
    { s with vault := { s.vault with msk := mset s.vault.msk n key } })) ∧
  (∀ s : State, s.vault.life = .provisioned → mget s.vault.lifeRows 31 = none → nextLifeRow s < 31 →
    shedarApply 6 0 0 [0, 0, 0, 2] s =
      (if Config.lifeRowBurns (nextLifeRow s) then .ok else .unitFailed, [], burnLife .deployed s)) ∧
  Answers .updateEpochAdvance opUpdateEpochAdvance
    (fun c f => shOp (bytesOfWords c.words) = 8 ∧ shCounter (bytesOfWords c.words) = 0 ∧ updateEpoch f ≠ 63 ∧
      f.vault.epochRows.length < 64 ∧ opsWait f = false ∧ c.pkt.env.norOk = true)
    (fun c f =>
      let m := bytesOfWords c.words
      let row := f.vault.epochRows.length
      match shedarHead m false f with
      | some (st, ws) => if st = .badSignature then .ended (alarm 8 f) .badSignature ws else .refuse st ws
      | none => match shedarOpen (testRoot f) m with
        | none => .ended (alarm 8 f) .badSignature []
        | some p =>
          if p.length ≠ 97 ∨ shSlot m ≠ 0 ∨ shAttr m ≠ 0 then .ended f .badParam [0]
          else match c.pkt.env.cut with
            | some k => .wait (advanceEpoch p k f) []
            | none =>
              if Config.rowBurns row then
                .done (recordEv 0x0008 7 0x08 0 0 0x0100 [wd row] (advanceEpoch p 4 f)) [wd row]
              else .ended (advanceEpoch p 4 f) .unitFailed []) ∧
  (∀ (p : List Byte) (k : Nat) (s : State), p.length = 97 →
    let row := s.vault.epochRows.length
    let t := advanceEpoch p k s
    (k ≤ 1 → t.vault.epochRows = s.vault.epochRows ∧ t.vault.pendingKey = some p ∧
      slotAt t updateAuthority = slotAt s updateAuthority) ∧
    (2 ≤ k → t.vault.epochRows = s.vault.epochRows ++ [⟨Config.rowBurns row, Config.sha384 p⟩]) ∧
    (2 ≤ k → if Config.rowBurns row then updateEpoch t = row
      else updateEpoch t = updateEpoch s ∧ t.vault.pendingKey = some p ∧ slotAt t updateAuthority = slotAt s updateAuthority) ∧
    (3 ≤ k → Config.rowBurns row = false ∨ ((slotAt t updateAuthority).valid = true ∧
      (slotAt t updateAuthority).body.take 97 = p ∧ (slotAt t updateAuthority).gen = ((slotAt s updateAuthority).gen + 1) % 65536)) ∧
    (4 ≤ k → Config.rowBurns row = false ∨ (storedCounter t = 0 ∧ t.vault.pendingKey = none))) ∧
  Answers .attestOperator opAttestOperator (fun c _ => c.hasBuf = true)
    (fun c f => .doneBuf f [] (operatorBody (bytesOfWords (c.words.take 8)) f ++
      Config.ecdsaSign (attestKey (testRoot f)) (operatorBody (bytesOfWords (c.words.take 8)) f) ++ certChain f)) ∧
  Answers .attestTenant opAttestTenant
    (fun c f => c.hasBuf = true ∧ opsWait f = false ∧ inRange (fld (c.w 0) 17 0) = true ∧ isPonSlot (fld (c.w 0) 17 0) = false ∧
      isWorldS (fld (c.w 0) 17 0) = false ∧ (slotAt f (fld (c.w 0) 17 0)).attr.world ≤ 255 ∧
      (c.world = 0x0100 ∨ (slotAt f (fld (c.w 0) 17 0)).attr.world = c.world) ∧ (slotAt f (fld (c.w 0) 17 0)).valid = true)
    (fun c f =>
      let w := (slotAt f (fld (c.w 0) 17 0)).attr.world
      let body := tenantBody (fld (c.w 0) 17 0) (bytesOfWords ((c.words.drop 1).take 8)) f
      .doneBuf (slotOp (fld (c.w 0) 17 0) f) [] (body ++ Config.ecdsaSign (tenantKey (testRoot f) w (measures f)) body ++
        endorsementBody w f ++ Config.ecdsaSign (attestKey (testRoot f)) (endorsementBody w f) ++ certChain f)) ∧
  EndsOk .alarmStatus opAlarmStatus (fun _ _ => True)
    (fun _ f => [wd (f.vault.present % 128 + b2n f.vault.tokensRefused * 128), wd f.vault.raised,
      wd (mgetD f.vault.counts 0 0), wd (mgetD f.vault.counts 1 0), wd (mgetD f.vault.counts 2 0), wd (mgetD f.vault.counts 3 0),
      pack [(b2n (testRoot f), 1, 1), (b2n f.vault.hold.isSome, 1, 0)]])
    (fun _ f => { f with vault := { f.vault with raised := 0 } })

/-- Alarms, debug tokens and the service authority (from R313, R321, R331, R345 to R349, Tables 10.11 and 10.12). An alarm of class 1
or above aborts the admitted frames and holds admission; one of class 2 empties the volatile slots; one of class 3 scraps the
module. The hold ends no earlier than 10 µs later, with the sensors in range. A retiring copy is released with its frames.
Eight failing tokens raise sensor 7. Whether a token or a service message verifies is open. What it says by the model's
choice is in log entries 39, 116, 187. -/
def Obligations.AlarmsZeroiseAndRelease : Prop :=
  (∀ (n : Nat) (s : State), n < 7 → exec (.alarm n false) s =
    .next { s with vault := { s.vault with present := s.vault.present &&& (127 ^^^ 2 ^ n) } }) ∧
  (∀ (n : Nat) (s : State), n < 2 → s.vault.under = true → exec (.alarm n true) s = .next s) ∧
  (∀ (n : Nat) (s : State), n < 7 → (s.vault.under = false ∨ 2 ≤ n) →
    ∃ t, exec (.alarm n true) s = .next t ∧ t = alarm n { s with vault := { s.vault with present := s.vault.present ||| 2 ^ n } } ∧
      mgetD t.vault.counts (alarmClass n) 0 = min 0xFFFFFFFF (mgetD s.vault.counts (alarmClass n) 0 + 1) ∧
      t.vault.raised = s.vault.raised ||| 2 ^ n ∧ t.cipher.inPipes = [] ∧ t.vault.hold = some s.mono ∧
      (alarmClass n = 3 → t.vault.scrapPending = true ∧
        (s.vault.under = false → t.vault.life = .scrapped ∧ ∀ k, (slotAt t k).valid = false)) ∧
      (alarmClass n ≠ 3 → t.vault.life = s.vault.life) ∧
      (alarmClass n = 2 → ∀ k, (slotAt t k).attr.persist = false → (slotAt t k).valid = false)) ∧
  (∀ (n : Nat) (s : State), alarmClass n = 0 → (alarm n s).cipher.inPipes = s.cipher.inPipes ∧
    (alarm n s).vault.hold = s.vault.hold.map fun _ => s.mono) ∧
  (∀ (t : Nat) (s : State), s.vault.hold = some t → t + 10 * us ≤ s.mono → s.vault.present % 128 = 0 → s.mem.lost = false →
    exec .zeroisationRelease s = .next { s with vault := { s.vault with hold := none } }) ∧
  (∀ s : State, s.mem.lost = true → exec .zeroisationRelease s = .next s) ∧
  (∀ s : State, exec .retiringCopyRelease s = .next (
    let t := leaveWhere (usesOld s) s
    let slots := mmap t.vault.slots fun _ x => { x with old := none }
    pumpAll (forEach t.vault.waiting resumeSlot { t with vault := { t.vault with waiting := [], slots := slots } }))) ∧
  (∀ (m : List Byte) (s : State), s.vault.tokensRefused = true → exec (.debugToken m) s = .next s) ∧
  (∀ (m : List Byte) (s : State), s.vault.tokensRefused = false → opsWait s = true → exec (.debugToken m) s =
    .next { s with vault := { s.vault with waiting := s.vault.waiting ++ [.token m] } }) ∧
  (∀ (m : List Byte) (s : State), s.vault.tokensRefused = false → opsWait s = false → shOp m ≠ 8 →
    storedCounter s < 0xFFFFFFFFFFFF → storedCounter s < shCounter m → exec (.debugToken m) s = .next (
      let g := setCounter (updateEpoch s) (shCounter m) true s
      let fails (st : Status) (u : State) :=
        let u := if st = .badSignature then alarm 8 u else u
        let u := { u with vault := { u.vault with tokenFails := u.vault.tokenFails + 1 } }
        if 8 ≤ u.vault.tokenFails then alarm 7 { u with vault := { u.vault with tokensRefused := true } } else u
      match shedarHead m true s, shedarOpen (testRoot g) m with
      | some e, _ => fails e.1 s
      | none, none => fails .badSignature g
      | none, some p =>
        if shOp m = 7 ∧ p = [0, 0, 0, 0] ∧ shSlot m = 0 ∧ shAttr m = 0 then
          let t := openDebugArea (alarmEmpty (alarmHold g))
          { t with vault := { t.vault with token := true, tokenFails := 0 } }
        else fails .badParam g)) ∧
  (∀ (m : List Byte) (s : State), s.vault.tokensRefused = false → opsWait s = false →
    ((shedarHead m true s).isSome = true ∨ shOp m = 8 ∨ storedCounter s = 0xFFFFFFFFFFFF ∨ shCounter m ≤ storedCounter s) →
    ∃ u, exec (.debugToken m) s = .next u ∧ u.vault.token = s.vault.token ∧ u.vault.life = s.vault.life ∧
      u.vault.tokenFails = s.vault.tokenFails + 1 ∧ (7 ≤ s.vault.tokenFails → u.vault.tokensRefused = true)) ∧
  (∀ (row : Nat) (scraps : Bool) (owner sig : List Byte) (s : State), opsWait s = true →
    exec (.abkouxServiceMessage row scraps owner sig) s =
      .next { s with vault := { s.vault with waiting := s.vault.waiting ++ [.service row scraps owner sig] } }) ∧
  (∀ (owner sig : List Byte) (s : State), opsWait s = false → s.vault.life ≠ .scrapped →
    exec (.abkouxServiceMessage (nextLifeRow s) true owner sig) s = .next (
      if Config.verify Config.serviceAuthority (beBytes 4 (nextLifeRow s) ++ [1] ++ owner) sig then alarmEffects 3 s else s)) ∧
  (∀ (owner sig : List Byte) (s : State), opsWait s = false → nextLifeRow s < 31 → s.vault.epochRows.length < 64 →
    let b : Bool := Config.verify Config.serviceAuthority (beBytes 4 (nextLifeRow s) ++ [0] ++ owner) sig
    (s.vault.life = .returned → exec (.abkouxServiceMessage (nextLifeRow s) false owner sig) s =
      .next (if b then newOwner owner (burnLife .provisioned s) else s)) ∧
    (s.vault.life = .blank → exec (.abkouxServiceMessage (nextLifeRow s) false owner sig) s =
      .next (if b then newOwner owner (burnLife .provisioned { s with vault := { s.vault with provisioning := true } }) else s))) ∧
  (∀ (owner : List Byte) (s : State), owner.length = 97 → let t := newOwner owner s
    t.vault.epochRows = s.vault.epochRows ++ [⟨Config.rowBurns s.vault.epochRows.length, Config.sha384 owner⟩] ∧
    (slotAt t updateAuthority).valid = true ∧ (slotAt t updateAuthority).body.take 97 = owner ∧ storedCounter t = 0 ∧
    t.vault.life = s.vault.life)

/-- The memory commands (from R354, R355, R363, R373, R374, R377, R381, R383, R384). POOL_CONFIG rebuilds a pool and gives its cells; POOL_STATS
and HIDE_STATUS answer their words, of which the sweep pointer never falls; HIDE_KEY_CHANGE takes the next identifier with a new key, of which it keeps the value free, and
waits for the sweep; REGION_REINIT clears an affected region and leaves another as it is; RIGHTS_WRITE writes or removes an entry.
What it says by the model's choice is in log entries 165, 166. -/
def Obligations.MemoryCommandsTakeEffect : Prop :=
  EndsOk .poolConfig opPoolConfig
    (fun c f => f.halter.stage ≠ .halter ∧ fld (c.w 0) 19 16 ≠ 0 ∧ worldCode (fld (c.w 0) 15 0) = true ∧
      1 ≤ fld (c.w 1) 5 0 ∧ fld (c.w 1) 12 8 + fld (c.w 1) 5 0 ≤ 32 ∧
      ((poolAt f (fld (c.w 0) 19 16)).enable = true → (poolAt f (fld (c.w 0) 19 16)).allocated = 0) ∧
      (∀ q, 1 ≤ q → q < 16 → q ≠ fld (c.w 0) 19 16 → (poolAt f q).enable = true →
        ((poolAt f q).first + (poolAt f q).regions ≤ fld (c.w 1) 12 8 ∨
          fld (c.w 1) 12 8 + fld (c.w 1) 5 0 ≤ (poolAt f q).first) ∧ (poolAt f q).world ≠ fld (c.w 0) 15 0) ∧
      ∀ e ∈ f.mem.rights, 2 ≤ e.2.mode → e.2.pages ≠ 0 → fld (c.w 1) 12 8 + fld (c.w 1) 5 0 ≤ e.2.base / 262144 ∨
        (e.2.base + e.2.pages - 1) / 262144 < fld (c.w 1) 12 8)
    (fun c _ => [wd (fld (c.w 1) 5 0 * regionCells)])
    (fun c f => updPool (fld (c.w 0) 19 16) (fun x => rebuild (poisonRuns f) { x with
      enable := bit (c.w 0) 31, world := fld (c.w 0) 15 0, first := fld (c.w 1) 12 8, regions := fld (c.w 1) 5 0 })
      (if bit (c.w 0) 31 then
        claimWithdrawn (fld (c.w 0) 19 16) { first := fld (c.w 1) 12 8, regions := fld (c.w 1) 5 0 } f else f)) ∧
  EndsOk .poolStats opPoolStats (fun c f => c.world = 0x0100 ∨ (poolAt f (fld (c.w 0) 3 0)).world = c.world)
    (fun c f =>
      let x := poolAt f (fld (c.w 0) 3 0)
      [wd (runLen x.ring + runLen x.cache), wd (runLen x.cache), wd (x.withdrawn.filter (inPool x)).length, wd f.mem.owners.length] ++
        count48 (countOver f (cid 11 5 4) 6 (fld (c.w 0) 3 0)) ++ count48 (countOver f (cid 11 5 5) 6 (fld (c.w 0) 3 0)))
    (fun _ f => f) ∧
  Starts .hideKeyChange opHideKeyChange (fun _ f => f.halter.stage ≠ .halter ∧ f.mem.retiring = none ∧ opsWait f = false)
    (fun _ f => [(f.mem.keyId + 1) % 256])
    (fun _ f =>
      let g := takeFree (writeKey (0x20100 + (f.mem.keyId + 1) % 256) hideAttr 1 (Config.drbg f.free) true f)
      { g with mem := { g.mem with keyId := (f.mem.keyId + 1) % 256, retiring := some f.mem.keyId, sweep := 0 } }) ∧
  EndsOk .hideStatus opHideStatus (fun c _ => c.hasBuf = false)
    (fun _ f => [pack [(f.mem.keyId, 8, 24), (f.mem.retiring.getD 0, 8, 16), (b2n f.mem.retiring.isSome, 1, 8),
        (f.mem.poison.length, 8, 0)], wd (sweepOn f).mem.sweep, regionMask f.mem.regionPoison.contains, regionMask (regionAffected f)] ++
      count48 (countOver f (cid 11 14 7) 0 0) ++ count48 (countOver f (cid 11 14 8) 0 0) ++
      count48 (countOver f (cid 11 14 9) 0 0) ++ count48 (countOver f (cid 11 14 10) 0 0) ++
      [pack [(f.mem.treePoison, 16, 16), (f.mem.poisonAccess, 16, 0)]]) (fun _ f => sweepOn f) ∧
  EndsData .hideStatus opHideStatus (fun c _ => c.hasBuf = true)
    (fun _ f => [pack [(f.mem.keyId, 8, 24), (f.mem.retiring.getD 0, 8, 16), (b2n f.mem.retiring.isSome, 1, 8),
        (f.mem.poison.length, 8, 0)], wd (sweepOn f).mem.sweep, regionMask f.mem.regionPoison.contains, regionMask (regionAffected f)] ++
      count48 (countOver f (cid 11 14 7) 0 0) ++ count48 (countOver f (cid 11 14 8) 0 0) ++
      count48 (countOver f (cid 11 14 9) 0 0) ++ count48 (countOver f (cid 11 14 10) 0 0) ++
      [pack [(f.mem.treePoison, 16, 16), (f.mem.poisonAccess, 16, 0)]])
    (fun _ f => bytesOfWords (poisonWords f)) (fun _ f => sweepOn f) ∧
  (∀ f : State, f.mem.retiring = none → sweepOn f = f) ∧
  (∀ (f : State) (old : Nat), f.mem.retiring = some old → f.mem.sweep ≤ (sweepOn f).mem.sweep) ∧
  EndsOk .regionReinit opRegionReinit (fun c f => f.halter.stage ≠ .halter ∧ regionAffected f (fld (c.w 0) 4 0) = false)
    (fun _ _ => []) (fun _ f => f) ∧
  (∀ p s, accepts opRegionReinit p s = true →
    let f := fetched opRegionReinit p s
    let r := fld ((ownWords p).getD 0 0) 4 0
    f.halter.stage ≠ .halter → regionAffected f r = true →
    ∃ t, exec (.regionReinit p) s = repliedOk opRegionReinit p [] t s ∧
      (f.mem.regionPoison.contains r = true →
        t.mem.majorHwm = f.mem.majorHwm + 266305 ∧ mgetD t.mem.roots r 0 = mgetD f.mem.roots r 0 + 1) ∧
      t.mem.regionPoison = f.mem.regionPoison.filter (· ≠ r) ∧
      t.mem.poison = f.mem.poison.filter (fun x => x.index * nodeCells x.level / regionCells ≠ r) ∧
      ∀ k x, mget t.mem.pools k = some x → ∀ h ∈ x.withdrawn, h / regionCells ≠ r) ∧
  EndsOk .rightsWrite opRightsWrite
    (fun c f => fld (c.w 0) 31 29 ≤ 1 ∧ (fld (c.w 2) 23 0 ≠ 0 →
      fld (c.w 1) 23 0 + fld (c.w 2) 23 0 ≤ 12582912 ∧
      (2 ≤ fld (c.w 3) 1 0 → pagesUnpooled f (fld (c.w 1) 23 0) (fld (c.w 2) 23 0) = true ∧
        (fld (c.w 0) 31 29 = 1 → f.vault.life ≠ .deployed)))) (fun _ _ => [])
    (fun c f =>
      let k := fld (c.w 0) 31 29 * 16 + fld (c.w 0) 3 0
      let new : Right := { base := fld (c.w 1) 23 0, pages := fld (c.w 2) 23 0, mode := fld (c.w 3) 1 0 }
      { f with mem := { f.mem with rights := if fld (c.w 2) 23 0 = 0 then mdel f.mem.rights k else mset f.mem.rights k new } })

/-- Osier's caches and frees, and Hide's counters and initialisation (from R358, R359, R361, R367 to R369, R372, R374). A cache short
of handles reads 1,024, one with too many writes 1,024. A FREE or RELEASE that fits gives the chain's cells back; one that
names no chain is refused and counted. An evicted node that is dirty raises its parent's entry, or its root register. The
patrol counts and poisons what fails. Hide initialises to zero lines; a finished sweep erases the old key's slot and answers
the identifier. What it says by the model's choice is in log entry 120. -/
def Obligations.MemoryEventsKeepPoolsAndTree : Prop :=
  (∀ (p : Nat) (s : State), p < 16 → ringOpen s p = true → (poolAt s p).enable = true → 3072 ≤ runLen (poolAt s p).cache →
    ∃ t, exec (.osierCacheSpill p) s = .next t ∧
      (poolAt t p).cache = (takeRuns 1024 (poolAt s p).cache).2 ∧
      (poolAt t p).ring = (poolAt s p).ring ++ (takeRuns 1024 (poolAt s p).cache).1 ∧
      (poolAt t p).tail = (poolAt s p).tail + runLen (takeRuns 1024 (poolAt s p).cache).1) ∧
  (∀ (p : Nat) (s : State), p < 16 → ringOpen s p = true → (poolAt s p).enable = true → runLen (poolAt s p).cache ≤ 1024 →
    s.mem.poison = [] → s.mem.regionPoison = [] → (poolAt s p).gone = [] →
    ∃ t, exec (.osierCacheRefill p 0) s = .next t ∧
      (poolAt t p).cache = (poolAt s p).cache ++ (takeRuns 1024 (poolAt s p).ring).1 ∧
      (poolAt t p).ring = (takeRuns 1024 (poolAt s p).ring).2 ∧
      (poolAt t p).head = (poolAt s p).head + runLen (takeRuns 1024 (poolAt s p).ring).1) ∧
  (∀ (p n : Nat) (s : State), p < 16 → hbmOpen s = false → p ≠ 0 →
    exec (.osierCacheSpill p) s = .next s ∧ exec (.osierCacheRefill p n) s = .next s) ∧
  (∀ (p h : Nat) (r : Bool) (s : State), p < 16 → heldChain s p h = none →
    exec (.cellFree p h r) s = .next (raise 0x09 0 0 p 0x0912 0 (wd h) (bump (cid 11 5 4) 6 p s))) ∧
  (∀ (p h : Nat) (f : Frame) (s : State), p < 16 → heldChain s p h = some f →
    exec (.cellFree p h (p = 0 && mhas s.mem.owners h)) s = .next (release f.world p (f.cells ++ f.lists) (withoutChain p h s))) ∧
  (∀ (p h : Nat) (n : NodeId) (s : State), queueHolder s p h = some n →
    (queueAt (withoutChain p h s) n).held = (queueAt s n).held.eraseP (fun y => isChain p h y.frame) ∧
    (withoutChain p h s).host = s.host ∧ ∀ k, k ≠ n → queueAt (withoutChain p h s) k = queueAt s k) ∧
  (∀ (level i : Nat) (s : State), i < levelNodes level → hbmOpen s = true → s.mem.cached.length ≤ 32768 →
    s.mem.cached.contains (nodeKey level i) = true →
    let k := nodeKey level i
    let out := { s with mem := { s.mem with cached := s.mem.cached.filter (· ≠ k) } }
    let clean := { out with mem := { out.mem with dirty := s.mem.dirty.filter (· ≠ k), stored := mdel s.mem.stored k } }
    (s.mem.dirty.contains k = false → exec (.counterCacheEvict level i) s = .next out) ∧
    (s.mem.dirty.contains k = true → level = 4 → exec (.counterCacheEvict level i) s =
      .next { clean with mem := { clean.mem with roots := mset s.mem.roots i (mgetD s.mem.roots i 0 + 1) } }) ∧
    (s.mem.dirty.contains k = true → level < 4 →
      let c := nodeAt s (level + 1) (i / 64)
      let m := mgetD c.minors (i % 64) 0
      ∃ t, exec (.counterCacheEvict level i) s = .next t ∧ nodeAt t (level + 1) (i / 64) =
        if m = 127 then { major := c.major + 1, minors := [] } else { c with minors := mset c.minors (i % 64) (m + 1) })) ∧
  (∀ (n : Nat) (failing : List (Nat × Nat)) (s : State), (∀ f ∈ failing, f.2 < levelNodes f.1) → hbmOpen s = true →
    exec (.counterPatrol n failing) s =
      .next (forEach failing (fun f s => poisonNode (f.1 - 1) f.2 s) (bumpBy { cid := cid 11 14 7 } n s))) ∧
  (∀ s : State, s.mem.initialised = false →
    ∃ t, exec .hideInit s = .next t ∧ t.mem.initialised = true ∧ t.mem.cells = [] ∧ t.mem.keyId = 0 ∧ t.mem.retiring = none ∧
      t.mem.roots = [] ∧ t.mem.majorHwm = 0 ∧ t.mem.poison = [] ∧ t.mem.regionPoison = [] ∧ (slotAt t 0x20100).valid = true) ∧
  (∀ (old : Nat) (s : State), s.mem.retiring = some old → hbmOpen s = true → (∀ k ∈ s.mem.dirty, 1 ≤ k / 2 ^ 23 ∧ k / 2 ^ 23 ≤ 4) →
    ∃ t, exec .hideSweepComplete s = .next (pumpAll (finishAll 0x7003 (fun u => .done u [wd u.mem.keyId]) t)) ∧
      t.mem.keyId = s.mem.keyId ∧ t.mem.retiring = none ∧ t.mem.dirty = [] ∧ (slotAt t (0x20100 + old)).valid = false)

/-- Accesses to HBM (from R359, R365, R366, R368, R370, R374, R375, R378, R379, R380, R381, R382). A write of a whole line stores its 64
bytes, which the next read gives; every byte outside the line stands as it was, and a read changes no byte. A mismatch, a failed
node or a poisoned cell answers with a bus error. Osier's access to a ring goes under the pass of its HEAD or TAIL, and a line of
another pass fails and loses its handles. An access of MGMT or DEBUG needs the right of its kind: without it a bus error is answered
and counted. A raw read gives a line of the protected region under its page's counters, of a ring under its pass, and while a key
changes under the old key from the sweep pointer on. An engine outside its fixed rights meets a bus error that is counted and is a
unit-fatal error of the engine. While an alarm holds Hide or both its quarters are lost, accesses wait. What it says by the model's
choice is in log entries 117, 119, 165, 166, 189. -/
def Obligations.MemoryAccessesReadAndWriteLines : Prop :=
  let serves (s : State) : Prop := hbmOpen s = true
  let sealed (s : State) (area id line major minor : Nat) (plain : List Byte) : List Byte :=
    let key := slotBytes s (0x20100 + id)
    let bs := xorBytes plain (hideStream key area line major minor)
    bs ++ hideMeta (hideTag key area line major minor bs) bs
  (∀ (a : Nat) (data : List Byte) (s : State), engineMay s 0 (a / 64 * 64) = true → serves s → data.length = 64 → poisonedCell s (a / 128) = false →
    Memory.wf s.mem.cells = true → ∃ t, exec (.hideLineAccess 0 a true data .good) s = .next t ∧ memReadN t.mem.cells (a / 64 * 64) 64 = data ∧
      (∀ b, b < a / 64 * 64 ∨ a / 64 * 64 + 64 ≤ b → memRead t.mem.cells b = memRead s.mem.cells b) ∧
      (s.mem.bad = [] → t.out = s.out)) ∧
  (∀ (engine a : Nat) (data : List Byte) (s : State), engine < 3 → accessMay s engine (a / 64 * 64) false = true →
    areaOf (a / 64 * 64) = .guarded → serves s → poisonedCell s (a / 128) = false →
    ∃ t, exec (.hideLineAccess engine a false data .good) s = .next t ∧ t.mem.cells = s.mem.cells ∧
      t.out.getLast? = some (.line (a / 64 * 64) (some (memReadN s.mem.cells (a / 64 * 64) 64))) ∧
      (s.mem.bad = [] → t.out = s.out ++ [.line (a / 64 * 64) (some (memReadN s.mem.cells (a / 64 * 64) 64))])) ∧
  (∀ (a : Nat) (w : Bool) (data : List Byte) (s : State), engineMay s 0 (a / 64 * 64) = true → serves s →
    (w = true → data.length = 64) → poisonedCell s (a / 128) = false →
    ∃ t, exec (.hideLineAccess 0 a w data .mismatch) s = .next t ∧ t.mem.cells = s.mem.cells ∧ (a / 128) ∈ t.mem.bad) ∧
  (∀ (a : Nat) (w : Bool) (data : List Byte) (check : LineCheck) (s : State), engineMay s 0 (a / 64 * 64) = true → serves s →
    (w = true → data.length = 64) → poisonedCell s (a / 128) = true →
    exec (.hideLineAccess 0 a w data check) s = .next (emit (.line (a / 64 * 64) none)
      { s with mem := { s.mem with poisonAccess := satAdd 0xFFFF s.mem.poisonAccess 1 } })) ∧
  (∀ (a p : Nat) (data : List Byte) (s : State), ringPool s (a / 64 * 64) = some p → areaOf (a / 64 * 64) = .rings → serves s →
    exec (.hideLineAccess 1 a false data .good) s =
      .next (emit (.line (a / 64 * 64) (some (ringLine p (poolAt s p) (ringLineOf (poolAt s p) (a / 64 * 64))))) s)) ∧
  (∀ (a p pass : Nat) (w : Bool) (data : List Byte) (s : State), ringPool s (a / 64 * 64) = some p → areaOf (a / 64 * 64) = .rings →
    serves s → (w = true → data.length = 64) → s.cipher.inPipes = [] → pass ≠ passOf p (poolAt s p) (if w then (poolAt s p).tail else (poolAt s p).head) →
    ∃ t, exec (.hideLineAccess 1 a w data (.replayed pass)) s = .next t ∧
      let lost := lineCounts p (poolAt s p) (ringLineOf (poolAt s p) (a / 64 * 64))
      (poolAt t p).ring = (poolAt s p).ring ∧ (poolAt t p).gone = (poolAt s p).gone ++ lost ∧
      (poolAt t p).lost = (poolAt s p).lost + lost.length) ∧
  (∀ (master a : Nat) (data : List Byte) (s : State), master < 2 → serves s → areaOf (a / 64 * 64) = .guarded → poisonedCell s (a / 64 * 64 / 128) = false →
    2 ≤ rightOf s master (a / 4096) →
    exec (.debugAccess master a ⟨2, .good⟩ data) s = .next (emit (.line a (some (memReadN s.mem.cells a
      (min data.length (a / 64 * 64 + 64 - a))))) (lineEvents (a / 4096) 0 1 s))) ∧
  (∀ (master a : Nat) (data : List Byte) (s : State), master < 2 → serves s → areaOf (a / 64 * 64) = .guarded → poisonedCell s (a / 64 * 64 / 128) = false →
    rightOf s master (a / 4096) = 3 →
    ∃ t, exec (.debugAccess master a ⟨3, .good⟩ data) s = .next t ∧
      t.mem.cells = memWriteN s.mem.cells a (data.take (a / 64 * 64 + 64 - a))) ∧
  (∀ (master a kind : Nat) (data : List Byte) (s : State), master < 2 → serves s → areaOf (a / 64 * 64) = .guarded →
    poisonedCell s (a / 64 * 64 / 128) = false → 2 ≤ kind → kind ≤ 3 → kind ≤ rightOf s master (a / 4096) →
    rightOf s master (a / 4096) ≤ 3 →
    ∃ t, exec (.debugAccess master a ⟨kind, .mismatch⟩ data) s = .next t ∧ t.mem.cells = s.mem.cells ∧
      t.out.getLast? = some (.line a none) ∧ (a / 64 * 64 / 128) ∈ t.mem.bad) ∧
  (∀ (master a : Nat) (check : LineCheck) (data : List Byte) (s : State), master < 2 → serves s → s.mem.retiring = none →
    areaOf (a / 64 * 64) = .guarded → 1 ≤ rightOf s master (a / 4096) → rightOf s master (a / 4096) ≤ 3 →
    exec (.debugAccess master a ⟨1, check⟩ data) s = .next (emit (.line (a / 64 * 64) (some (sealed s 0 s.mem.keyId (a / 64 * 64 / 64)
      (nodeAt s 1 (a / 64 * 64 / 4096)).major (mgetD (nodeAt s 1 (a / 64 * 64 / 4096)).minors (a / 64 * 64 / 64 % 64) 0)
      (memReadN s.mem.cells (a / 64 * 64) 64)))) s)) ∧
  (∀ (master a p : Nat) (data : List Byte) (s : State), master < 2 → serves s → s.mem.retiring = none → areaOf (a / 64 * 64) = .rings →
    ringPool s (a / 64 * 64) = some p → 1 ≤ rightOf s master (a / 4096) → rightOf s master (a / 4096) ≤ 3 →
    exec (.debugAccess master a ⟨1, .good⟩ data) s = .next (
      let line := (a / 64 * 64 - (0x840000000 + (poolAt s p).first * 0x2000000)) / 64
      emit (.line (a / 64 * 64) (some (sealed s 2 s.mem.keyId (a / 64 * 64 / 64)
        (((lastCount p (poolAt s p) (line * 16)).map (passOf p (poolAt s p))).getD 0) 0 (ringLine p (poolAt s p) line)))) s)) ∧
  (∀ (master a level : Nat) (data : List Byte) (s : State), master < 2 → serves s → s.mem.retiring = none →
    areaOf (a / 64 * 64) = .counters level → level < 4 → 1 ≤ rightOf s master (a / 4096) → rightOf s master (a / 4096) ≤ 3 →
    exec (.debugAccess master a ⟨1, .good⟩ data) s = .next (
      let i := (a / 64 * 64 - levelBase level) / 64
      let bs := counterBytes (storedNode s level i)
      let parent := nodeAt s (level + 1) (i / 64)
      emit (.line (a / 64 * 64) (some (bs ++ hideMeta (hideTag (slotBytes s (0x20100 + s.mem.keyId)) 1 (a / 64 * 64 / 64)
        parent.major (mgetD parent.minors (i % 64) 0) bs) bs))) s)) ∧
  (∀ (master a old : Nat) (data : List Byte) (s : State), master < 2 → serves s → s.mem.retiring = some old →
    areaOf (a / 64 * 64) = .guarded → 1 ≤ rightOf s master (a / 4096) → rightOf s master (a / 4096) ≤ 3 →
    ∃ t, exec (.debugAccess master a ⟨1, .good⟩ data) s = .next t ∧ s.mem.sweep ≤ t.mem.sweep ∧ t.mem.cells = s.mem.cells ∧
      t.out = s.out ++ [.line (a / 64 * 64) (some (sealed s 0 (if a / 64 * 64 / 64 < t.mem.sweep then s.mem.keyId else old)
        (a / 64 * 64 / 64) (nodeAt s 1 (a / 64 * 64 / 4096)).major
        (mgetD (nodeAt s 1 (a / 64 * 64 / 4096)).minors (a / 64 * 64 / 64 % 64) 0) (memReadN s.mem.cells (a / 64 * 64) 64)))]) ∧
  (∀ (master a kind : Nat) (data : List Byte) (s : State), master < 2 → serves s → 1 ≤ kind → kind ≤ 3 →
    (areaOf (a / 64 * 64) = .none ∨ rightOf s master (a / 4096) = 0 ∨ (2 ≤ kind ∧ rightOf s master (a / 4096) < kind)) →
    exec (.debugAccess master a ⟨kind, .good⟩ data) s = .next (emit (.line a none) (bump (cid 11 14 10) 0 0 s))) ∧
  (∀ (engine a : Nat) (w : Bool) (data : List Byte) (check : LineCheck) (s : State), engine < 3 → serves s →
    (w = true → data.length = 64) → accessMay s engine (a / 64 * 64) w = false →
    exec (.hideLineAccess engine a w data check) s = .next (emit (.line (a / 64 * 64) none)
      (raise (if engine = 0 then 0x06 else 0x09) (if engine = 2 then 1 else 0) 0 0 0x0913 2 (wd (a / 64))
        (bump (cid 11 14 10) 0 0 s)))) ∧
  (∀ (engine master a kind : Nat) (w : Bool) (data : List Byte) (check : LineCheck) (s : State),
    engine < 3 → master < 2 → 1 ≤ kind → kind ≤ 3 → (w = true → data.length = 64) →
    (s.vault.hold.isSome = true ∨ (quarterUp s 2 = false ∧ quarterUp s 3 = false) ∨ s.halter.refresh = true) →
    exec (.hideLineAccess engine a w data check) s = .next s ∧ exec (.debugAccess master a ⟨kind, check⟩ data) s = .next s)

/-- Lanes (from R389 to R397, R401, R402). LANE_CONFIG keeps the setting; LANE_STATUS takes the decoder's counts and answers the
lane's words, of which a VF gets the first; LANE_EYE_SCAN waits for its scan, whose words it answers. A lane follows what
enables it, trains while its clock is there, becomes ACTIVE with the step found, fails training three times before TRAIN_FAIL, idles
and exits as its owner asks, and loses its state after 100 ms of idle. What it says by the model's choice is in log entries 149, 170. -/
def Obligations.LanesTrainIdleAndAnswer : Prop :=
  (∀ p s, accepts opLaneConfig p s = true →
    let f := fetched opLaneConfig p s
    let c := ctxOf opLaneConfig p f
    let l := fld (c.w 0) 7 0
    let g := laneCfgOf (c.w 1) (c.w 2)
    isLane l = true → c.inst = l → laneCfgBad l g = none →
        ∃ t, exec (.laneConfig p) s = repliedOk opLaneConfig p [] t s ∧ (laneAt t l).cfg = g ∧
      ((laneAt t l).txFault = true ↔ (laneAt f l).txFault = true ∧ c.answers = [1]) ∧
      (laneAt t l).rampAt = (if g.dfe ≠ 2 then none else if (laneAt f l).cfg.dfe = 2 then (laneAt f l).rampAt else some f.mono) ∧
      (isPonLane l = true → (laneAt t l).peakNow = g.peak) ∧
      ((laneAt f l).txFault = false → (laneAt f l).st = .active → g.idle = 2 → g.precode = (laneAt f l).cfg.precode →
        (laneAt t l).st = .idle) ∧
      ((laneAt f l).txFault = false → (laneAt f l).st = .active ∨ (laneAt f l).st = .idle ∨ (laneAt f l).st = .exit →
        g.precode ≠ (laneAt f l).cfg.precode → (laneAt t l).st = .training) ∧
      (∀ k, k ≠ l → laneAt t k = laneAt f k)) ∧
  EndsOk .laneStatus opLaneStatus (fun c _ => isLane (fld (c.w 0) 7 0) = true ∧ c.inst = fld (c.w 0) 7 0)
    (fun c f =>
      let l := fld (c.w 0) 7 0
      let t := takeErrors l c.answers f
      let ws := laneWords l { laneAt t l with taps := tapsShown l c.answers t }
      match c.master with
      | .vf _ => ws.take 1 ++ List.replicate 8 0
      | _ => ws)
    (fun c f => let t := takeErrors (fld (c.w 0) 7 0) c.answers f
      { t with free := t.free + 12 }) ∧
  (∀ (l : Nat) (s : State),
    ((laneAt s l).rampAt = none → (laneAt s l).st ≠ .active ∨ (laneAt s l).cfg.dfe ≠ 0 → tapsNow s l = (laneAt s l).taps) ∧
    (∀ t0, (laneAt s l).rampAt = some t0 → t0 + 100 * us ≤ s.mono → tapsNow s l = List.replicate 12 0)) ∧
  Starts .laneEyeScan opLaneEyeScan
    (fun c f => isLane (fld (c.w 0) 7 0) = true ∧ c.inst = fld (c.w 0) 7 0 ∧ scansRunning f < 8 ∧
      (if isPonLane (fld (c.w 0) 7 0) then (mgetD f.pon.ports (fld (c.w 0) 7 0 - 128) {}).cfg.mode ≠ 0
        else (laneAt f (fld (c.w 0) 7 0)).st = .active))
    (fun c _ => [fld (c.w 0) 7 0]) (fun c f => updLane (fld (c.w 0) 7 0) (fun x => { x with scanning := true, scanned := 0 }) f) ∧
  (∀ (l q : Nat) (ws : List Word) (x : Exec) (s : State), isLane l = true → (laneAt s l).scanning = true →
    let f := updLane l (fun x => { x with scanning := false }) s
    executingQ f 0x8006 (· = [l]) = [q] → (pairAt f q).executing = some x → x.discard = false →
    exec (.eyeScanComplete l ws) s = .next (pumpAll (answer x.pkt (flagResultBuf x.pkt) (bufLenOf x.pkt)
      (if ws = [] ∨ (isPonLane l = true ∧ (laneAt s l).scanned < 1000) then .ended (updPair q (fun y => { y with executing := none }) f) .aborted []
        else .done (updPair q (fun y => { y with executing := none }) f) (eyeWords l ws)) (updPair q (fun y => { y with executing := none }) f)))) ∧
  (∀ (l : Nat) (s : State), l < 80 →
    exec (.laneEnableChange l) s = .next (
      if laneEnabled s l then if (laneAt s l).st = .disabled ∧ (laneAt s l).txFault = false then laneTo l .training s else s
      else if (laneAt s l).st = .disabled then s else laneTo l .disabled s)) ∧
  (∀ (l : Nat) (st : LaneState) (s : State), laneAt (laneTo l st s) l = { laneAt s l with
      st := st, since := s.mono, stale := false, scanning := (laneAt s l).scanning && !((laneAt s l).st = .active && st ≠ .active) } ∧
    ∀ k, k ≠ l → laneAt (laneTo l st s) k = laneAt s k) ∧
  (∀ (l peak : Nat) (freq : Int) (taps : List Int) (po pr sw : Nat) (pre : Bool) (s : State), l < 80 → (laneAt s l).st = .training → laneClocked s l = true →
    (laneAt s l).since ≤ s.mono → (laneAt s l).cfg.peakAuto = true → (laneWindow (laneAt s l)).1 ≤ peak → peak ≤ (laneWindow (laneAt s l)).2 →
    ∃ t, exec (.laneTrainingComplete l peak freq taps po pr sw pre) s = .next t ∧
      (laneAt t l).st = (if (laneAt s l).cfg.idle = 2 then .idle else .active) ∧ (laneAt t l).peakNow = peak ∧
      (laneAt t l).freq = freq ∧ (laneAt t l).taps = (if (laneAt s l).cfg.dfe = 2 then List.replicate 12 0 else twelve taps) ∧
      (laneAt t l).fails = 0 ∧ (laneAt t l).trainFail = false ∧ (laneAt t l).flap = false) ∧
  (∀ (l peak : Nat) (freq : Int) (taps : List Int) (po pr sw : Nat) (pre : Bool) (s : State), l < 80 → (laneAt s l).st = .training → laneClocked s l = true →
    (laneAt s l).since ≤ s.mono → (laneAt s l).cfg.peakAuto = false → ∃ t, exec (.laneTrainingComplete l peak freq taps po pr sw pre) s = .next t ∧
      (laneAt t l).st = (if (laneAt s l).cfg.idle = 2 then .idle else .active) ∧ (laneAt t l).peakNow = (laneAt s l).cfg.peak ∧
      (laneAt t l).txPostNow = (if (laneAt s l).cfg.txTrain then po else (laneAt s l).txPostNow) ∧
      (laneAt t l).txPreNow = (if (laneAt s l).cfg.txTrain then pr else (laneAt s l).txPreNow) ∧
      (laneAt t l).txSwingNow = (if (laneAt s l).cfg.txTrain then sw else (laneAt s l).txSwingNow)) ∧
  (∀ (l peak : Nat) (freq : Int) (taps : List Int) (po pr sw : Nat) (pre : Bool) (s : State), l < 80 → laneClocked s l = false ∨ s.mono < (laneAt s l).since →
    exec (.laneTrainingComplete l peak freq taps po pr sw pre) s = .next s) ∧
  (∀ (l : Nat) (s : State), l < 80 → (laneAt s l).st = .training → (laneAt s l).since + 100 * ms ≤ s.mono →
    let t := updLane l (fun x => { x with fails := x.fails + 1, since := s.mono + 100 * ms }) s
    exec (.laneTrainingTimeout l) s = .next (if (laneAt s l).fails = 2
      then raise 0x0A 0 l l 0x0A12 1 (wd l) (updLane l (fun x => { x with trainFail := true }) t) else t)) ∧
  (∀ (l : Nat) (s : State), l < 80 → (laneAt s l).st = .active → (laneAt s l).cfg.idle = 1 →
    exec (.laneIdleRequest l) s = .next (laneTo l .idle s)) ∧
  (∀ (l : Nat) (s : State), l < 80 → (laneAt s l).st = .idle → (laneAt s l).cfg.idle ≠ 2 →
    ∃ t, exec (.laneExitRequest l) s = .next t ∧ laneAt t l = { laneAt s l with st := .exit, since := s.mono, exitAt := some s.mono }) ∧
  (∀ (l : Nat) (s : State), l < 80 → (laneAt s l).st = .idle → (laneAt s l).since + 100 * ms ≤ s.mono →
    exec (.laneIdleStale l) s = .next (updLane l (fun x => { x with stale := true }) s)) ∧
  (∀ (l : Nat) (s : State), l < 80 → (laneAt s l).st = .exit → (laneAt s l).stale = false →
    ((laneAt s l).cfg.idle ≠ 2 → exec (.fastExitTimeout l true) s =
      .next (laneTo l .active (updLane l (fun x => { x with fastExits := min 0xFFFF (x.fastExits + 1) }) s))) ∧
    ((laneAt s l).since + us ≤ s.mono → exec (.fastExitTimeout l false) s =
      .next (laneTo l .training (updLane l (fun x => { x with fastExitFail := min 0xFFFF (x.fastExitFail + 1) }) s))))

/-- The signals and the peaking of lanes (from R391, R392, R396, R397). LOS and LOL rise, are counted and clear; loss of lock sends an ACTIVE
lane to TRAINING; the tenth LOS within 1 s holds the lane DISABLED with LANE_FLAP for 1 s. TX_FAULT takes the lane out of service. A raw
detector of a lane of the group makes the aligner hunt. Signal that comes back takes a lane out of IDLE (from R394). Peaking moves by one step within its window. -/
def Obligations.LanesFollowTheirSignals : Prop :=
  (∀ (l : Nat) (s : State), l < 80 → (laneAt s l).los = true → ((laneAt s l).signal = true ∨ (laneAt s l).st ≠ .idle ∨ (laneAt s l).cfg.idle = 2) →
    exec (.laneLos l true) s = .next (lower 0x0A 0 l l 0x0A10 1 (updLane l (fun x => { x with los := false, signal := true }) s))) ∧
  (∀ (l : Nat) (s : State), l < 80 → (laneAt s l).los = false → ((laneAt s l).signal = true ∨ (laneAt s l).st ≠ .idle ∨ (laneAt s l).cfg.idle = 2) →
    exec (.laneLos l true) s = .next (updLane l (fun x => { x with los := false, signal := true }) s)) ∧
  (∀ (l : Nat) (s : State), l < 80 → (laneAt s l).st = .idle → (laneAt s l).signal = false → (laneAt s l).cfg.idle ≠ 2 →
    ∃ t, exec (.laneLos l true) s = .next t ∧ laneAt t l = { laneAt s l with
      st := .exit, since := s.mono, exitAt := some s.mono, los := false, signal := true }) ∧
  (∀ (l : Nat) (s : State), l < 80 → (laneAt s l).los = false → (laneAt s l).st ≠ .idle → (laneAt s l).st ≠ .disabled →
    let times := ((laneAt s l).losTimes.filter fun t => s.mono < t + sec) ++ [s.mono]
    ∃ t, exec (.laneLos l false) s = .next t ∧ (laneAt t l).los = true ∧ (laneAt t l).signal = false ∧
      (laneAt t l).losEvents = min 0xFFFF ((laneAt s l).losEvents + 1) ∧
      (times.length < 10 → (laneAt t l).st = (laneAt s l).st ∧ (laneAt t l).losTimes = times) ∧
      (10 ≤ times.length → (laneAt s l).flap = false →
        (laneAt t l).st = .disabled ∧ (laneAt t l).flap = true ∧ (laneAt t l).flapAt = some s.mono)) ∧
  (∀ (l : Nat) (s : State), l < 80 → ((laneAt s l).los = true ∨ (laneAt s l).st = .idle ∨ (laneAt s l).st = .disabled) →
    exec (.laneLos l false) s = .next (updLane l (fun x => { x with signal := false }) s)) ∧
  (∀ (l : Nat) (freq : Int) (s : State), l < 80 → (laneAt s l).lol = false → (laneAt s l).los = false →
    ∃ t, exec (.laneLol l false freq) s = .next t ∧ (laneAt t l).lol = true ∧ (laneAt t l).freq = freq ∧
      (laneAt t l).lolEvents = min 0xFFFF ((laneAt s l).lolEvents + 1) ∧
      (laneAt t l).st = (if (laneAt s l).st = .active then .training else (laneAt s l).st)) ∧
  (∀ (l : Nat) (freq : Int) (s : State), l < 80 →
    ∃ t, exec (.laneLol l true freq) s = .next t ∧ (laneAt t l).lol = false ∧ (laneAt t l).freq = freq ∧
      (laneAt t l).st = (laneAt s l).st) ∧
  (∀ (l t0 : Nat) (s : State), l < 80 → (laneAt s l).flapAt = some t0 → t0 + sec ≤ s.mono →
    exec (.laneFlapHoldEnd l) s = .next (laneFollow l (updLane l (fun x => { x with flapAt := none }) s))) ∧
  (∀ (l : Nat) (s : State), l < 80 → ∃ t, exec (.txFault l) s = .next t ∧ (laneAt t l).txFault = true ∧
    (laneAt t l).st = .disabled ∧ ∀ k, k ≠ l → laneAt t k = laneAt s k) ∧
  (∀ (l : Nat) (los lol : Bool) (s : State), l < 80 →
    let t := updLane l (fun x => { x with rawLos := los, rawLol := lol }) s
    exec (.rawDetectorStateChange l los lol) s = .next (
      if los || lol then if isFabricLane l && (groupLanes t (laneSide l)).contains l then alignLost (laneSide l) t else t
      else if (laneAt s l).rawLos && (laneAt s l).st = .idle && (laneAt s l).cfg.idle ≠ 2 then laneExit l t else t)) ∧
  (∀ (l move : Nat) (s : State), l < 80 → (laneAt s l).st = .active → (laneAt s l).cfg.peakAuto = true →
    (laneAt s l).evalAt + 100 * ms ≤ s.mono → ∃ t, exec (.peakingReevaluate l move) s = .next t ∧
      (laneAt t l).peakNow = (if move = 1 ∧ (laneWindow (laneAt s l)).1 < (laneAt s l).peakNow then (laneAt s l).peakNow - 1
        else if move = 2 ∧ (laneAt s l).peakNow < (laneWindow (laneAt s l)).2 then (laneAt s l).peakNow + 1
        else (laneAt s l).peakNow) ∧ (laneAt t l).evalAt = s.mono ∧ (laneAt t l).lastMove = (laneAt s l).lastMove) ∧
  (∀ (l : Nat) (s : State), isLane l = true → (laneAt s l).st = .active → (laneAt s l).lastMove + 10 * us ≤ s.mono →
    ∃ t, exec (.peakingStep l) s = .next t ∧ (laneAt t l).peakNow =
      (if (laneAt s l).peakNow < peakGoal (laneAt s l) then (laneAt s l).peakNow + 1
        else if peakGoal (laneAt s l) < (laneAt s l).peakNow then (laneAt s l).peakNow - 1 else (laneAt s l).peakNow))

/-- The Plait frames of a side (from R404 to R412, R414, R416). A frame whose lanes' skew is too large makes the aligner hunt. In HUNT
a frame with ALIGN begins PRESYNC; in PRESYNC one with ALIGN counts until SYNC, and one without sends back to HUNT; in SYNC
the M-th errored one does. A sent frame carries ALIGN and 63 cells, scrambled, and the next MFI. A context without a cell for
10 µs closes; a window of 100 µs clears the marks, and the tenth good one EXC; a bit that stays set for PAUSE_MS is stuck. A
due width change takes the goal. What it says by the model's choice is in log entries 46, 57, 58, 89, 190. -/
def Obligations.PlaitFramesAlignAndCarryCells : Prop :=
  (∀ (i fill : Nat) (bytes : List Byte) (fits : Bool) (env : Outside) (s : State), i < 2 → bytes.length = 8192 →
    (sideAt s i).enable = true → powered s (0x40 + i) = true →
    exec (.plaitFrameReceive i bytes false fill fits env) s = .next (pumpAll (alignLost i (bumpSide i 12 1 s)))) ∧
  (∀ (i fill : Nat) (bytes : List Byte) (fits : Bool) (env : Outside) (s : State), i < 2 → bytes.length = 8192 →
    (sideAt s i).enable = true → powered s (0x40 + i) = true →
    let s1 := followWidth i bytes (takeFill i fill s)
    let x := sideAt s1 i
    (groupReady s1 i = false → exec (.plaitFrameReceive i bytes true fill fits env) s = .next (pumpAll (alignLost i s1))) ∧
    (groupReady s1 i = true →
    (x.align = .hunt → beNat (bytes.take 8) ≠ alignWord →
      exec (.plaitFrameReceive i bytes true fill fits env) s = .next (pumpAll s1)) ∧
    (x.align = .hunt → beNat (bytes.take 8) = alignWord → x.n ≠ 1 → exec (.plaitFrameReceive i bytes true fill fits env) s =
      .next (pumpAll (updSide i (fun x => { x with align := .presync, k := 1, bipSeen := some (bip8 bytes) }) s1))) ∧
    (x.align = .presync → beNat (bytes.take 8) ≠ alignWord → exec (.plaitFrameReceive i bytes true fill fits env) s =
      .next (pumpAll (alignLost i (bumpSide i 11 1 s1)))) ∧
    (x.align = .presync → beNat (bytes.take 8) = alignWord → x.k + 1 ≠ x.n →
      exec (.plaitFrameReceive i bytes true fill fits env) s =
        .next (pumpAll (updSide i (fun x => { x with k := x.k + 1, bipSeen := some (bip8 bytes) }) s1))) ∧
    (x.align = .presync → beNat (bytes.take 8) = alignWord → x.k + 1 = x.n →
      exec (.plaitFrameReceive i bytes true fill fits env) s = .next (pumpAll (takeFrame (inbandFrame env) i bytes fits
        (setLoa i false (updSide i (fun x => { x with align := .sync, k := 0, errored := 0 }) s1))))) ∧
    (x.align = .sync → alignErrors (beNat (bytes.take 8)) ≤ 2 → exec (.plaitFrameReceive i bytes true fill fits env) s =
      .next (pumpAll (takeFrame (inbandFrame env) i bytes fits (updSide i (fun x => { x with errored := 0 }) s1)))) ∧
    (x.align = .sync → 2 < alignErrors (beNat (bytes.take 8)) → x.errored + 1 = x.m →
      exec (.plaitFrameReceive i bytes true fill fits env) s = .next (pumpAll (alignLost i (bumpSide i 9 1 s1)))))) ∧
  (∀ (i : Nat) (s : State), i < 2 → (sideAt s i).enable = true → powered s (0x40 + i) = true →
    ∃ t bytes, exec (.plaitFrameTransmit i) s = .next t ∧ .plait i bytes ∈ t.out ∧ bytes.length = 8192 ∧
      bytes.take 8 = beBytes 8 alignWord ∧ (sideAt t i).txBip = bip8 bytes ∧
      (widthDue s i = false → (sideAt t i).txMfi = ((sideAt s i).txMfi + 1) % 64 ∧
        ∃ o, t.out = s.out ++ .plait i bytes :: o ∧ ∀ x ∈ o, ∃ l ws, x = .symbols l ws)) ∧
  (∀ (i : Nat) (s : State), i < 2 → (sideAt s i).enable = false ∨ powered s (0x40 + i) = false →
    exec (.plaitFrameTransmit i) s = .next s) ∧
  (∀ (i src ctx kind : Nat) (r : Reasm) (s : State), i < 2 → src < 64 → ctx < 64 →
    let key := src * 256 + ctx * 4 + (if kind = 1 then 1 else 2)
    mget (sideAt s i).ctxs key = some r → r.last + 10 * us ≤ s.mono →
    exec (.reassemblyTimeout i src ctx kind) s =
      .next (bumpSide i 6 1 (updSide i (fun x => { x with ctxs := mdel x.ctxs key }) s))) ∧
  (∀ (i : Nat) (s : State), i < 2 → (sideAt s i).windowAt + 100 * us ≤ s.mono →
    let good := if (sideAt s i).marked * 10 < (sideAt s i).excTh then min 10 ((sideAt s i).goodWindows + 1) else 0
    let t := updSide i (fun x => { x with marked := 0, windowAt := s.mono, goodWindows := good }) s
    exec (.excWindow i) s = .next (if good = 10 then updateSf (setExc i false t) else t)) ∧
  (∀ (i card t0 : Nat) (s : State), i < 2 → card < 64 → s.link.sel.side = i → (sideAt s i).stuck.contains card = false →
    mget (sideAt s i).backSince card = some t0 → t0 + s.link.pauseMs * ms ≤ s.mono →
    exec (.pauseStuck i card) s =
      .next (discardStuck i (setStuck i true (updSide i (fun x => { x with stuck := card :: x.stuck }) s)))) ∧
  (∀ (i : Nat) (s : State), i < 2 → nextWidth s i ≠ (sideAt s i).txWidth → nextWidth s i = (sideAt s i).told →
    64 ≤ (sideAt s i).announced → (sideAt s i).txMfi = 0 →
    exec (.widthChange i) s = .next (
      let leave := ((List.range (widthLanes (sideAt s i).txWidth)).filter fun k => widthLanes (nextWidth s i) ≤ k).map (sideLane i)
      forEach leave (fun l s => if (laneAt s l).st = .active && (laneAt s l).cfg.idle = 1 then laneTo l .idle s else s)
        (updSide i (fun x => { x with txWidth := nextWidth s i, announced := 0 }) s)))

/-- Protection and the uplink ports (from R413, R415, R417 to R421). PLAIT_CONFIG keeps the side's setting, card and PAUSE_MS;
PROTECTION_COMMAND keeps its setting and runs its request; the SF of a side acts after HOLD_OFF, and the wait to restore ends
at PREF. UPLINK_CONFIG keeps a group within the cipher's capacity. A fault takes a port down at once, 10 ms without one bring
it up; a frame with a bad FCS and a PAUSE frame are counted and gone, another enters. What it says by the model's choice is
in log entry 59. -/
def Obligations.ProtectionAndUplinkPortsMove : Prop :=
  (∀ p s, accepts opPlaitConfig p s = true →
    let f := fetched opPlaitConfig p s
    let w := ownWords p
    let i := fld (nthW w 0) 31 31
    plaitBad w = none → (f.link.sel.side = i → fld (nthW w 0) 30 30 = (sideAt f i).mode ∧ bit (nthW w 0) 26 = true) →
    ∃ t, exec (.plaitConfig p) s = repliedOk opPlaitConfig p [] t s ∧ t.link.card = fld (nthW w 1) 5 0 ∧
      t.link.pauseMs = fld (nthW w 1) 31 16 ∧ (sideAt t i).mode = fld (nthW w 0) 30 30 ∧ (sideAt t i).width = fld (nthW w 0) 29 28 ∧
      (sideAt t i).enable = bit (nthW w 0) 26 ∧ (sideAt t i).n = fld (nthW w 0) 23 21 ∧ (sideAt t i).m = fld (nthW w 0) 19 16 ∧
      (sideAt t i).excTh = fld (nthW w 0) 11 0) ∧
  EndsOk .protectionCommand opProtectionCommand
    (fun c f => fld (c.w 0) 31 29 ≤ 3 ∧ fld (c.w 0) 25 16 ≤ 50 ∧ 10 ≤ fld (c.w 0) 15 0 ∧ fld (c.w 0) 15 0 ≤ 720 ∧
      (fld (c.w 0) 31 29 = 2 → sideFails f (fld (c.w 0) 28 28) = false ∧ f.link.sel.st ≠ .fs)) (fun _ _ => [])
    (fun c f =>
      let g := updSel (fun x =>
        { x with pref := fld (c.w 0) 27 27, revertive := bit (c.w 0) 26, holdOff := fld (c.w 0) 25 16, wtrS := fld (c.w 0) 15 0 }) f
      let side := fld (c.w 0) 28 28
      updateSf (if fld (c.w 0) 31 29 = 3 then moveTo side false (updSel (fun x => { x with st := .fs }) g)
        else if fld (c.w 0) 31 29 = 2 ∧ (f.link.sel.st = .nr ∨ f.link.sel.st = .wtr) then
          moveTo side false (updSel (fun x => { x with st := .ms }) g)
        else if fld (c.w 0) 31 29 = 1 ∧ (f.link.sel.st = .fs ∨ f.link.sel.st = .ms) then updSel (fun x => { x with st := .nr }) g
        else g)) ∧
  (∀ (i : Nat) (s : State), i < 2 → sideFails s i = true →
    mgetD s.link.sel.sfSince i s.mono + s.link.sel.holdOff * 10 * us ≤ s.mono →
    exec (.protectionHoldOff i) s = .next (updateSf s)) ∧
  (∀ s : State, s.link.sel.st = .wtr → s.link.sel.wtrAt + s.link.sel.wtrS * sec ≤ s.mono →
    exec .wtrExpiry s = .next (selectorMove (moveTo s.link.sel.pref false (updSel (fun x => { x with st := .nr }) s)))) ∧
  EndsOk .uplinkConfig opUplinkConfig
    (fun c f =>
      let new : UplinkGroup := { portEn := fld (c.w 0) 31 28, fec := fld (c.w 0) 25 24, arrange := fld (c.w 0) 17 16 }
      let old := mgetD f.link.uplinks (fld (c.w 0) 1 0) {}
      let t := { f with link := { f.link with uplinks := mset f.link.uplinks (fld (c.w 0) 1 0) new } }
      c.inst = fld (c.w 0) 1 0 ∧ new.fec ≤ 1 ∧ new.arrange ≤ 2 ∧ (new.arrange = 2 → new.portEn ≤ 1) ∧
      (old.arrange = new.arrange ∨ old.arrange = 0 ∨ new.arrange = 0) ∧
      ∀ d < 2, reservedAll t d ≤ 32768 ∨ reservedAll t d ≤ reservedAll f d) (fun _ _ => [])
    (fun c f =>
      let new : UplinkGroup := { portEn := fld (c.w 0) 31 28, fec := fld (c.w 0) 25 24, arrange := fld (c.w 0) 17 16 }
      let t := { f with link := { f.link with uplinks := mset f.link.uplinks (fld (c.w 0) 1 0) new } }
      lanesFollow (portsFollow (fld (c.w 0) 1 0) f (if new.arrange = 0 then t else needDomains [0x30 + fld (c.w 0) 1 0] t))) ∧
  (∀ (n : Nat) (l r : Bool) (s : State), n < 16 → ∃ t, exec (.uplinkFaultChange n l r) s = .next t ∧
    (upPort t n).localFault = l ∧ (upPort t n).remoteFault = r ∧ (upPort t n).up = ((upPort s n).up && !l && !r)) ∧
  (∀ (n : Nat) (s : State), n < 16 → upEnabled s n = true → (upPort s n).localFault = false → (upPort s n).remoteFault = false →
    (upPort s n).clearSince + 10 * ms ≤ s.mono → exec (.uplinkPortUp n) s = .next (updUp n (fun x => { x with up := true }) s)) ∧
  (∀ (n : Nat) (bs : List Byte) (fits : Bool) (s : State), n < 16 → upEnabled s n = true → powered s (0x30 + n / 4) = true →
    (upPort s n).localFault = false →
    (withFcs bs ≠ bs → exec (.uplinkFrameReceive n bs fits) s = .next (bump (cid 13 10 19) 1 n s)) ∧
    (withFcs bs = bs → isPause bs = true → exec (.uplinkFrameReceive n bs fits) s = .next (bump (cid 13 10 20) 1 n s)) ∧
    (withFcs bs = bs → isPause bs = false → recognised s n bs = false →
      exec (.uplinkFrameReceive n bs fits) s = .next (ingress { frame := { source := 64 + n, bytes := bs } } fits
        (if keeperPath s then noteWake 3 s else s))))

/-- The time commands (from R424, R425, R429, R431, R434, R436, R437). TIME_READ answers the counter; TIME_SET orders a step for the
next tick: to a value, by a signed difference, or by the refused offset in HOLDOVER, and KIND 3 gives the servo a
measurement; PTP_CONFIG, ASYMMETRY_SET and SYNCE_CONFIG keep their settings; TS_QUEUE_READ takes the oldest entries of a
group. What it says by the model's choice is in log entries 78, 143. -/
def Obligations.TimeCommandsTakeEffect : Prop :=
  let range (w : Word) (lo hi : Nat) : Prop := lo ≤ w.toNat ∧ w.toNat ≤ hi
  let pick (f : State) (e : TsEntry) : Bool := (ptpAt f e.port).mode = 2
  EndsOk .timeRead opTimeRead (fun _ _ => True)
    (fun _ f => [wd (f.time.tc / nsUnit % 1000000000), lo32 (f.time.tc / tcSecond), hi32 (f.time.tc / tcSecond),
      pack [(servoCode f.time.servo, 3, 29), (b2n f.time.isSet, 1, 28), (tcFrac f, 16, 0)]]) (fun _ f => f) ∧
  EndsOk .timeSet opTimeSet (fun c _ => fld (c.w 0) 1 0 = 0 ∧ (c.w 3).toNat < 1000000000) (fun _ _ => [])
    (fun c f =>
      let v : Nat := (join64 (c.w 1) (c.w 2) * 1000000000 + (c.w 3).toNat) * nsUnit + fld (c.w 4) 15 0 * fracUnit
      { f with time := { f.time with due := f.time.due ++ [⟨true, (v : Int), 2⟩] } }) ∧
  (∀ v : Int, EndsOk .timeSet opTimeSet (fun c _ => fld (c.w 0) 1 0 = 1 ∧ timeValue c = .ok v) (fun _ _ => [])
    (fun _ f => { f with time := { f.time with due := f.time.due ++ [⟨false, v, 2⟩] } })) ∧
  EndsOk .timeSet opTimeSet (fun c f => fld (c.w 0) 1 0 = 2 ∧ f.time.servo = .holdover) (fun _ _ => [])
    (fun _ f => { f with time := { f.time with due := f.time.due ++ [⟨false, -f.time.refused, 3⟩] } }) ∧
  (∀ v : Int, EndsOk .timeSet opTimeSet (fun c f => fld (c.w 0) 1 0 = 3 ∧ timeValue c = .ok v ∧ f.time.source = 3) (fun _ _ => [])
    (fun _ f => Machine.measure v none f)) ∧
  EndsOk .ptpConfig opPtpConfig
    (fun c f => bit (c.w 0) 31 = true ∧ fld (c.w 0) 30 29 ≠ 3 ∧ fld (c.w 0) 15 8 ≠ 0 ∧
      (hrqAt f (fld (c.w 0) 23 16)).bound ≠ 0xFF ∧ (hrqAt f (fld (c.w 0) 23 16)).world = 0x0100) (fun _ _ => [])
    (fun c f =>
      let x : PtpPort := { mode := fld (c.w 0) 30 29, twoStep := bit (c.w 0) 28, notSlave := bit (c.w 0) 27,
                           hostq := fld (c.w 0) 23 16, localPrio := fld (c.w 0) 15 8 }
      let taken (es : List TsEntry) : List TsEntry := if x.mode = 1 then es.filter fun e => e.port ≠ fld (c.w 0) 3 0 else es
      gateGroup (fld (c.w 0) 3 2) { f with time := { f.time with
          ptp := mset f.time.ptp (fld (c.w 0) 3 0) x, tsq := mmap f.time.tsq fun _ es => taken es } }) ∧
  EndsOk .ptpConfig opPtpConfig
    (fun c f => bit (c.w 0) 31 = false ∧ fld (c.w 0) 30 28 ≤ 3 ∧ 24 ≤ fld (c.w 0) 23 16 ∧ fld (c.w 0) 23 16 ≤ 43 ∧
      1 ≤ fld (c.w 0) 15 0 ∧ fld (c.w 0) 15 0 ≤ 500 ∧ range (c.w 1) 100 1000000 ∧ range (c.w 2) 50 1000000 ∧
      1 ≤ fld (c.w 3) 31 16 ∧ (fld (c.w 0) 30 28 = 1 → f.time.ptp.any (fun e => e.2.mode ≠ 0) = true)) (fun _ _ => [])
    (fun c f =>
      let src := fld (c.w 0) 30 28
      let t := { f with time := { f.time with
        source := src, domain := fld (c.w 0) 23 16, ppsWidth := fld (c.w 0) 15 0, stepTh := (c.w 1).toNat,
        pathStepTh := (c.w 2).toNat, termStepTh := fld (c.w 3) 31 16, ppsOutDelay := signed 32 (c.w 4).toNat,
        ppsInDelay := signed 32 (c.w 5).toNat } }
      if src = 0 then setServo .freerun t
      else if src ≠ f.time.source ∧ f.time.servo ≠ .unset then setServo .acquiring t else t) ∧
  EndsOk .asymmetrySet opAsymmetrySet (fun c _ => bit (c.w 0) 31 = true) (fun _ _ => [])
    (fun c f =>
      let p := fld (c.w 0) 5 0
      let x : Asym := { mgetD f.time.asymPon p {} with txDelay := signed 32 (c.w 1).toNat, ratio := (c.w 4).toNat }
      { f with time := { f.time with asymNext := f.time.asymNext ++ [⟨true, p, x⟩] } }) ∧
  EndsOk .asymmetrySet opAsymmetrySet (fun c _ => bit (c.w 0) 31 = false ∧ fld (c.w 0) 5 0 ≤ 15) (fun _ _ => [])
    (fun c f =>
      let p := fld (c.w 0) 5 0
      let x : Asym := { txDelay := signed 32 (c.w 1).toNat, rxDelay := signed 32 (c.w 2).toNat, asym := signed 32 (c.w 3).toNat }
      let due := f.time.asymDue || f.time.slave = some p
      { f with time := { f.time with asymNext := f.time.asymNext ++ [⟨false, p, x⟩], asymDue := due } }) ∧
  EndsOk .synceConfig opSynceConfig
    (fun c _ => (fld (c.w 0) 31 24 ≤ 15 ∨ fld (c.w 0) 31 24 = 0xFF) ∧ (fld (c.w 0) 23 16 ≤ 15 ∨ fld (c.w 0) 23 16 = 0xFF) ∧
      3 ≤ fld (c.w 0) 13 8 ∧ fld (c.w 0) 13 8 ≤ 18 ∧ fld (c.w 0) 7 0 ≤ 12) (fun _ _ => [])
    (fun c f => reselect { clocksOut (fld (c.w 0) 31 24) (fld (c.w 0) 23 16) f with time := { f.time with
      rclk0 := fld (c.w 0) 31 24, rclk1 := fld (c.w 0) 23 16, qlEn := bit (c.w 0) 15, option2 := bit (c.w 0) 14,
      holdoff := fld (c.w 0) 13 8, wtrM := fld (c.w 0) 7 0, prioPort := join64 (c.w 1) (c.w 2), prioRef := fld (c.w 3) 31 16,
      qlRef := fld (c.w 3) 15 0 } }) ∧
  (EndsOk .tsQueueRead opTsQueueRead (fun c _ => c.hasBuf = false)
      (fun c f => (takeStamps (pick f) 3 (mgetD f.time.tsq (fld (c.w 0) 1 0) [])).1.flatMap tsWords)
      (fun c f =>
        let q := (takeStamps (pick f) 3 (mgetD f.time.tsq (fld (c.w 0) 1 0) [])).2
        { f with time := { f.time with tsq := mset f.time.tsq (fld (c.w 0) 1 0) q } }) ∧
    EndsData .tsQueueRead opTsQueueRead (fun c _ => c.hasBuf = true)
      (fun c f =>
        let q := (takeStamps (pick f) 64 (mgetD f.time.tsq (fld (c.w 0) 1 0) [])).1
        if q = [] then [] else [wd q.length])
      (fun c f => bytesOfWords ((takeStamps (pick f) 64 (mgetD f.time.tsq (fld (c.w 0) 1 0) [])).1.flatMap tsWords))
      (fun c f =>
        let q := (takeStamps (pick f) 64 (mgetD f.time.tsq (fld (c.w 0) 1 0) [])).2
        { f with time := { f.time with tsq := mset f.time.tsq (fld (c.w 0) 1 0) q } })) ∧
  (∀ (pick : TsEntry → Bool) (n : Nat) (q : List TsEntry), (∀ e ∈ q, pick e = true) → takeStamps pick n q = (q.take n, q.drop n)) ∧
  (∀ (pick : TsEntry → Bool) (n : Nat) (q : List TsEntry), (∀ e ∈ (takeStamps pick n q).1, pick e = true) ∧
    ∀ e ∈ q, pick e = false → e ∈ (takeStamps pick n q).2)

/-- The tick and the servo (from R18, R283, R423, R425, R432 to R434, R437). Ticks advance the counter by the increment and the
correction, each by 12.8 ns, and the first takes a step that is due. The first measurement steps the counter and acquires;
one beyond STEP_TH twice in a row is refused into HOLDOVER; one within 100 ns corrects the frequency, which stays free, and
the 16th in a row locks; another orders a step for the next tick. A lapse of 4 s enters HOLDOVER. A SyncE source changes and lapses. A terminal's delay
is judged once. What it says by the model's choice is in log entries 31, 78, 140, 141, 142, 191. -/
def Obligations.TicksStepAndServoMeasures : Prop :=
  (∀ (n : Nat) (s : State), s.time.due = [] → n = 0 ∨ s.time.asymNext = [] →
    exec (.timeTick n) s = .next (keeperRun (passTicks n s))) ∧
  (∀ (n : Nat) (d : AsymDue) (s : State), s.time.asymNext = [d] →
    let t := { s with time := { s.time with
      asymNext := [],
      asymPon := if d.pon then mset s.time.asymPon d.port d.value else s.time.asymPon,
      asymUp := if d.pon then s.time.asymUp else mset s.time.asymUp d.port d.value } }
    exec (.timeTick (n + 1)) s = exec (.timeTick (n + 1)) t) ∧
  (∀ (n : Nat) (s : State), s.cipher.inPipes = [] → (passTicks n s).mono = s.mono + n * 12800 ∧
    (passTicks n s).time.tc = ((s.time.tc : Int) + (n : Int) * ((tickUnits : Int) + s.time.corr)).toNat) ∧
  (∀ (d : StepDue) (n : Nat) (s : State), s.time.due = [d] → s.time.asymNext = [] → s.cipher.inPipes = [] →
    exec (.timeTick (n + 1)) s = .next (keeperRun (passTicks n (
    let t := { passTicks 1 s with time := { (passTicks 1 s).time with due := [] } }
    let u := if d.absolute then stepTo d.value.toNat d.cause t else stepBy d.value d.cause t
    if d.cause = 1 then u else setServo .acquiring u)))) ∧
  (∀ (port : Nat) (d : Bool) (v : Int) (s : State), port < 16 → s.time.source = 1 → (ptpAt s port).mode = 1 →
    (ptpAt s port).notSlave = false → exec (.servoMeasurement port d v) s =
      .next (if d then delayMeasure port v (slaveChange port s) else syncMeasure port v (slaveChange port s))) ∧
  (∀ (port : Nat) (down p : Int) (s : State), (s.time.servo = .acquiring ∨ s.time.servo = .locked) → s.time.meanPath = some p →
    syncMeasure port down s = takeOffset (down - p - (mgetD s.time.asymUp port {}).asym)
      { s with time := { s.time with down := some down, lastMeas := s.mono } }) ∧
  (∀ (port : Nat) (down up p : Int) (s : State), (s.time.servo = .acquiring ∨ s.time.servo = .locked) → s.time.down = some down →
    s.time.meanPath = some p →
    let path := (down + up).tdiv 2
    (pathFar s path p = false → (delayMeasure port up s).time.servo = s.time.servo ∧
      (delayMeasure port up s).time.meanPath = some path ∧ (delayMeasure port up s).time.pathRun = 0) ∧
    (pathFar s path p = true → s.time.pathRun = 0 → (delayMeasure port up s).time.servo = s.time.servo ∧
      (delayMeasure port up s).time.meanPath = some p ∧ (delayMeasure port up s).time.pathRun = 1) ∧
    (pathFar s path p = true → 1 ≤ s.time.pathRun → (delayMeasure port up s).time.servo = .holdover ∧
      (delayMeasure port up s).time.meanPath = some p ∧ (delayMeasure port up s).time.notified = some path)) ∧
  (∀ (off : Int) (s : State), s.time.servo = .unset → Machine.measure off none s =
    countFirst off (setServo .acquiring (stepNext false (-off) 1 { s with time := { s.time with lastMeas := s.mono } }))) ∧
  (∀ (off : Int) (s : State), (s.time.servo = .acquiring ∨ s.time.servo = .locked) →
    let t := { s with time := { s.time with lastMeas := s.mono } }
    (nsFrac s.time.stepTh < (off.natAbs : Int) → s.time.beyond = 0 →
      Machine.measure off none s = { t with time := { t.time with beyond := 1, good := 0 } }) ∧
    (nsFrac s.time.stepTh < (off.natAbs : Int) → 1 ≤ s.time.beyond → Machine.measure off none s = enterHoldover
      (stateChange 0x0902 (words64 off) (bump (cid 14 9 1) 0 0 { t with time := { t.time with refused := off } }))) ∧
    ((off.natAbs : Int) ≤ nsFrac s.time.stepTh → (off.natAbs : Int) ≤ nsFrac 100 →
      let u := correctFrequency { t with time := { t.time with beyond := 0, good := t.time.good + 1 } }
      Machine.measure off none s = if s.time.servo = .acquiring ∧ 15 ≤ s.time.good then setServo .locked u else u) ∧
    ((off.natAbs : Int) ≤ nsFrac s.time.stepTh → nsFrac 100 < (off.natAbs : Int) →
      Machine.measure off none s = stepNext false (-off) 1 { t with time := { t.time with beyond := 0, good := 0 } })) ∧
  (∀ s : State, s.time.servo = .locked → s.time.lastMeas + 4 * sec ≤ s.mono →
    exec .servoMeasurementLapse s = .next (enterHoldover s) ∧ (enterHoldover s).time.servo = .holdover) ∧
  (∀ (new cause : Nat) (s : State), (stepTo new cause s).time = { s.time with
      tc := new, isSet := true, down := none, stepped := s.time.stepped + ((new : Int) - (s.time.tc : Int)) } ∧
    (stepTo new cause s).tm.lastSample = none) ∧
  (∀ (i : Nat) (s : State), i < 20 →
    let t := trackSources s
    let x := mgetD t.time.sources i {}
    let wait := if x.good then t.time.wtrM * 60 * sec else t.time.holdoff * 100 * ms
    exec (.synceSourceChange i none) s = .next (
      let u := if x.good ≠ x.eligible ∧ x.since + wait ≤ t.mono then updSource i (fun x => { x with eligible := x.good }) t else t
      reselect u)) ∧
  (∀ s : State, (reselect s).time.selected = selectSource s ∧ (selectSource s = s.time.selected → reselect s = s)) ∧
  (∀ (i q : Nat) (s : State), exec (.synceSourceChange i (some q)) s =
    exec (.synceSourceChange i none) (updSource i (fun x => { x with ql := q, lapsed := false, heard := s.mono }) s)) ∧
  (∀ (port : Nat) (s : State), port < 16 → (mgetD s.time.sources port {}).heard + 5 * sec ≤ s.mono →
    exec (.esmcLapse port) s = .next (trackSources (updSource port (fun x => { x with lapsed := true }) s))) ∧
  (∀ (i : Nat) (t : Terminal) (s : State), termAt s i = some t → exec (.terminalDelayChange i) s = .next (
    if t.delayDue = false then s
    else
      let u := updTerm i (fun t => { t with delayDue := false }) s
      let d := oneWay s t.port t.lastStep
      if nsFrac s.time.termStepTh ≤ (d.natAbs : Int) then stateChange 0x0904 [wd i, wd (unsigned 32 d)] u else u))

/-- PTP frames, 1PPS and ToD (from R428, R430, R435, R438, R439). A recognised frame of a port in MODE 1 is counted; in MODE 2 it goes
to HOSTQ with its time-stamp. A sent one leaves at a port that is up, a one-step Sync with its time-stamp inside, a two-step
Sync or a Delay_Req with its time-stamp queued. PPS_OUT rises with its ToD message. A PPS_IN edge waits for its message,
which measures; one that comes too soon, a bad message and a missing edge are counted. What it says by the model's choice is
in log entry 150. -/
def Obligations.PtpFramesAndPulsesCarryTime : Prop :=
  (∀ (n : Nat) (bs : List Byte) (s : State), n < 16 → recognised s n bs = true →
    let t := countEvent 0x4B 0x101 0x0100 1 (bump (cid 14 9 7) 1 n s)
    let f : Frame := { epoch := s.epoch.current.toNat, rver := s.rules.current, source := 64 + n, len := bs.length, bytes := bs }
    let st := stampAt s (-(mgetD s.time.asymUp n {}).rxDelay)
    let e : TsEntry := { msgType := ptpType bs, port := n, id := ptpSeq bs, stamp := st }
    exec (.ptpFrameReceive n bs) s = .next (if (ptpAt s n).mode = 2 then toHost (ptpAt s n).hostq f (tsWords e) t else t)) ∧
  (∀ (n : Nat) (bs : List Byte) (s : State), n < 16 → recognised s n bs = true → (upPort s n).up = true →
    let stamp := stampAt s (mgetD s.time.asymUp n {}).txDelay
    let oneStep := ptpType bs = 0 ∧ (ptpAt s n).twoStep = false
    let queued := (ptpType bs = 0 ∧ (ptpAt s n).twoStep = true) ∨ ptpType bs = 1
    ∃ t out, exec (.ptpFrameTransmit n bs) s = .next t ∧ t.out = s.out ++ [.uplink n out] ∧
      (¬ oneStep → out = bs) ∧
      (oneStep → out = withFcs (putBytes bs ((ptpOffset bs).getD 14 + 34)
        (beBytes 6 (stamp / tcSecond % 2 ^ 48) ++ beBytes 4 (stamp / nsUnit % 1000000000)))) ∧
      (queued → (ptpAt s n).mode = 2 → (mgetD s.time.tsq (n / 4) []).length < 64 →
        mgetD t.time.tsq (n / 4) [] = mgetD s.time.tsq (n / 4) [] ++
          [{ msgType := ptpType bs, port := n, id := ptpSeq bs, stamp := stamp }])) ∧
  (∀ (n : Nat) (bs : List Byte) (s : State), n < 16 → recognised s n bs = true → (upPort s n).up = false →
    exec (.ptpFrameTransmit n bs) s = .next (bumpBy { cid := cDropLinkDown, scope := 1, idx := n } 1 s)) ∧
  (∀ s : State, s.time.servo ≠ .unset → s.time.ppsHigh = false →
    ((stampAt s s.time.ppsOutDelay % tcSecond : Nat) : Int) < (14073748835533 : Int) + s.time.corr → exec .ppsOutEdge s = .next
    (emit (.pin "PPS_OUT" 0 1) { s with time := { s.time with
      ppsHigh := true, ppsOutAt := s.mono,
      todDue := s.time.todDue ++ [(s.mono, (stampAt s s.time.ppsOutDelay + tcSecond / 2) / tcSecond)] } })) ∧
  (∀ (t0 n : Nat) (s : State), s.time.todDue = [(t0, n)] →
    todOut s = if t0 + ms ≤ s.mono then emit (.tod n (Config.todMessage n)) { s with time := { s.time with todDue := [] } } else s) ∧
  (∀ (t0 : Nat) (s : State), s.time.source = 2 → s.time.ppsEdgeAt = some t0 → s.mono < t0 + 900 * ms →
    exec .ppsInEdge s = .next (bump (cid 14 9 6) 0 0 s)) ∧
  (∀ s : State, s.time.source = 2 → (∀ t0, s.time.ppsEdgeAt = some t0 → t0 + 900 * ms ≤ s.mono) →
    ∃ t, exec .ppsInEdge s = .next t ∧ t.time.ppsEdge = some (stampAt s (-s.time.ppsInDelay), s.mono) ∧
      t.time.ppsEdgeAt = some s.mono) ∧
  (∀ (sec_ stamp at_ : Nat) (s : State), s.time.source = 2 → s.time.ppsEdge = some (stamp, at_) → at_ + ms ≤ s.mono →
    s.mono ≤ at_ + 500 * ms → (∀ p, s.time.todSecond = some p → sec_ = p + 1) →
    exec (.todInMessage sec_ true) s = .next (
      Machine.measure (((stamp : Int) - ((sec_ * tcSecond : Nat) : Int)).tdiv (fracUnit : Int)) none
        { s with time := { s.time with todSecond := some sec_, ppsEdge := none } })) ∧
  (∀ (sec_ : Nat) (s : State), s.time.source = 2 → s.time.ppsEdge = none →
    exec (.todInMessage sec_ false) s = .next (bump (cid 14 9 6) 0 0 s)) ∧
  (∀ s : State, s.time.source = 2 → s.time.ppsEdgeAt.getD 0 + 2 * sec ≤ s.mono →
    s.time.ppsMissAt + 2 * sec ≤ s.mono → exec .ppsInMissing s =
    .next (bump (cid 14 9 5) 0 0 { s with time := { s.time with ppsMissAt := s.mono } }))

/-- Halter (from R453 to R455, R457, R460 to R462, R470). HALTER_ENTER begins entry and HALTER_EXIT notes a wake; both wait for their
end. A stage whose work is done is followed by the next, S4 flushes, S5 gates and ends in HALTER; a wake noted before a
stage's end rewinds it. S4 signs every macro of the retention banks (from R457). 5 ms into S3 the queued frames are dropped. 40 µs after a wake in Halter the domains are powered, the
module is READY, and its report names the cause, the lost banks and the time in Halter. What it says by the model's choice is
in log entries 91, 92. -/
def Obligations.HalterEntersAndWakes : Prop :=
  Starts .halterEnter opHalterEnter (fun _ f => f.boot.state = .ready ∧ f.halter.stage = .outside ∧ f.epoch.phase = .none ∧
      (∀ e ∈ f.rules.versions, e.2.st ≠ .draining) ∧ f.mem.retiring = none) (fun _ _ => [])
    (fun _ f => { f with halter := { f.halter with
      stage := .s1, since := f.mono, wake := none, cache := [], buffer := [], before := f.halter.gated } }) ∧
  Starts .halterExit opHalterExit (fun _ f => f.halter.stage ≠ .outside) (fun _ _ => []) (fun _ f => noteWake 1 f) ∧
  (∀ (lost : List Upset) (s : State), s.halter.wake = none →
    let stageOf (st : HalterStage) (t : State) : State := { t with halter := { t.halter with stage := st, since := t.mono } }
    let emptyPath := ∀ e ∈ s.pkt.flights, e.2.place = .ingress ∨ e.2.place = .array ∨ e.2.place = .held
    let flushed := flushTree (forBelow 16 (fun p s => spill p (runLen (poolAt s p).cache) s) s)
    (s.halter.stage = .s1 → exec (.halterStageEnd lost) s =
      .next (pumpAll (stageOf .s2 { s with halter := { s.halter with grantMode := true } }))) ∧
    (s.halter.stage = .s2 → emptyPath → (∀ i < 2, (sideAt s i).enable = true → (sideAt s i).txWidth = 3) →
      exec (.halterStageEnd lost) s = .next (pumpAll (stageOf .s3 s))) ∧
    (s.halter.stage = .s3 → emptyPath → (∀ e ∈ s.tm.queues, e.2.held = []) →
      exec (.halterStageEnd lost) s = .next (pumpAll (stageOf .s4 s))) ∧
    (s.halter.stage = .s4 → flushed.halter.wake = none → exec (.halterStageEnd lost) s =
      .next (pumpAll (stageOf .s5 (signAll { flushed with halter := { flushed.halter with lost := [] } })))) ∧
    (s.halter.stage = .s5 → (gateAll s).halter.wake = none → exec (.halterStageEnd lost) s = .next (pumpAll (
      let g := stageOf .halter { gateAll s with boot := { (gateAll s).boot with state := .halter } }
      let h := { g with halter := { g.halter with enteredTc := g.time.tc, enteredAt := g.mono } }
      stateChange 0x0A01 [] (finishAll 0xA001 (fun s => .done s []) (bump (cid 15 8 5) 0 0 h)))))) ∧
  (∀ (lost : List Upset) (w : Nat) (s : State), s.halter.wake = some w →
    let p := powerDomains (s.halter.gated.filter fun d => !s.halter.before.contains d) lost s
    let out := { p with halter := { p.halter with
      stage := .outside, grantMode := false, cache := [], buffer := [], wake := none, refresh := false, wl1Stopped := false } }
    let told (ap : Nat) := finishAll 0xA001 (fun s => .ended s .aborted [wd ap, wd w]) (bump (cid 15 8 6) 0 ap (wakeLanes (lanesFollow out)))
    s.halter.stage = .s1 →
    exec (.halterStageEnd lost) s = .next (pumpAll (safeAfter (finishAll 0xA002 (fun s => .done s [0]) (told 1))))) ∧
  (∀ s : State, s.halter.stage = .s3 → s.halter.since + 5 * ms ≤ s.mono → exec .halterS3Timeout s = .next (
    forEach s.tm.queues (fun e s =>
      let t := forEach e.2.held (fun h s => bumpW (cid 15 8 4) 0 0 h.frame.world (freeFrame h.frame s)) s
      let q := { e.2 with held := [], drop := e.2.drop + e.2.held.length }
      settleQueue e.1 { t with tm := { t.tm with queues := mset t.tm.queues e.1 q } }) s)) ∧
  (∀ (lost : List Upset) (w : Nat) (s : State), s.halter.stage = .halter → s.halter.wake = some w → s.halter.since + 40 * us ≤ s.mono →
    exec (.halterWake lost) s = .next (pumpAll (
      let p := stitchRestart (ageAll (powerDomains s.halter.gated lost s))
      let h := { p.halter with
        stage := .outside, grantMode := false, cache := [], buffer := [], wake := none, refresh := false, wl1Stopped := false }
      let t := bump (cid 15 8 7) 0 w (wakeLanes (lanesFollow { p with halter := h, boot := { p.boot with state := .ready } }))
      let d := s.time.tc - s.halter.enteredTc
      let e := finishAll 0xA002 (fun s => .done s [lostBits s, wd (d / tcSecond), wd (d / nsUnit % 1000000000)]) t
      safeAfter (stateChange 0x0A02 [wd w, lostBits e] e))))

/-- Domains and the keeper (from R441, R442, R445, R447 to R449, R458, R459). DOMAIN_CONTROL powers a domain, answers for one already
off, gates one that Table 15.1 lets be gated, and marks a slice that still holds frames. In Halter an access powers a domain;
a bank of which a macro differs from its signature is reported once. The keeper counts a frame in, drops one that is poisoned, of
neither bank of its EPOCH (from R16, R34) or over its limits, holds one without an outcome as a wake, sends at 10 Gb/s, and a granted
port's receive path is cycled. What it says by the model's choice is in log entries 94, 148, 167. -/
def Obligations.DomainsGateAndKeeperForwards : Prop :=
  EndsOk .domainControl opDomainControl (fun c _ => isDomain (fld (c.w 0) 7 0) = true ∧ bit (c.w 0) 31 = true)
    (fun c f =>
      let d := fld (c.w 0) 7 0
      let t := { f with halter := { f.halter with
        leaving := f.halter.leaving.filter (· ≠ d), before := f.halter.before.filter (· ≠ d) } }
      [wd (b2n (powered (updateSf (lanesFollow (powerDomains [d] (if f.halter.stage = .halter then upsetsOf c.answers else []) t))) d))])
    (fun c f =>
      let d := fld (c.w 0) 7 0
      let t := { f with halter := { f.halter with
        leaving := f.halter.leaving.filter (· ≠ d), before := f.halter.before.filter (· ≠ d) } }
      updateSf (lanesFollow (powerDomains [d] (if f.halter.stage = .halter then upsetsOf c.answers else []) t))) ∧
  EndsOk .domainControl opDomainControl
    (fun c f => isDomain (fld (c.w 0) 7 0) = true ∧ bit (c.w 0) 31 = false ∧ offPermitted f (fld (c.w 0) 7 0) = true ∧
      powered f (fld (c.w 0) 7 0) = false)
    (fun _ _ => [0]) (fun _ f => f) ∧
  EndsOk .domainControl opDomainControl
    (fun c f => 4 ≤ fld (c.w 0) 7 0 ∧ isDomain (fld (c.w 0) 7 0) = true ∧ bit (c.w 0) 31 = false ∧
      powered f (fld (c.w 0) 7 0) = true ∧ f.halter.stage ≠ .halter ∧ offPermitted f (fld (c.w 0) 7 0) = true)
    (fun c f => [wd (b2n (powered (updateSf (lanesFollow (gateOff (fld (c.w 0) 7 0) f))) (fld (c.w 0) 7 0)))])
    (fun c f => updateSf (lanesFollow (gateOff (fld (c.w 0) 7 0) f))) ∧
  EndsOk .domainControl opDomainControl
    (fun c f => fld (c.w 0) 7 0 < 4 ∧ bit (c.w 0) 31 = false ∧ powered f (fld (c.w 0) 7 0) = true ∧ f.halter.leaving = [] ∧
      f.halter.stage ≠ .halter ∧ offPermitted f (fld (c.w 0) 7 0) = true ∧ sliceEmpty f (fld (c.w 0) 7 0) = false)
    (fun _ _ => [1]) (fun c f => { f with halter := { f.halter with leaving := [fld (c.w 0) 7 0] } }) ∧
  (∀ (d : Nat) (lost : List Upset) (s : State), s.halter.stage = .halter → s.halter.gated.contains d = true →
    exec (.domainRestore d lost) s = .next (
      let t := { s with halter := { s.halter with gated := s.halter.gated.filter (· ≠ d) } }
      forEach ((lostBanks lost).filter fun b => bankDomain b = d) bankLost (forEach (domainIslands d) startCycle (if d = 0xF0 then coreRestart t else t)))) ∧
  (∀ (ups : List Upset) (b : Nat), b ∈ lostBanks ups ↔
    ∃ u ∈ ups, u.place < 1824 ∧ crc64 u.bytes ≠ 0 ∧ macroBank u.place = b) ∧
  (∀ (b : Nat) (s : State), b < 8 → s.halter.lost.contains b = false →
    let t := invalidate b { s with halter := { s.halter with lost := s.halter.lost ++ [b] } }
    bankLost b s = recordEv 0x0008 8 0x0D 0 0 0x0100 [wd b] (raise 0x0D 0 0 b 0x0D10 1 (wd b) (bump (cid 15 8 8) 0 b t))) ∧
  (∀ (id : Nat) (x : Flight) (s : State), flightAt s id = some x → keeperPath s = true → x.place = .ingress → x.void = false →
    (∀ f ∈ s.halter.buffer, f.frame ≠ id) → keeperEarlier s id x.frame.source = false → x.chan = none → x.frame.poison = false → (bankOf s x.frame).isSome = true →
    let t := frameIn 0x4D x.frame.world x.frame.len s
    let mine := keeperBytes t (· = x.frame.world)
    keeperLookup x s = none →
    (16 * (quotaAt t x.frame.world).ondie < mine + x.frame.len → exec (.keeperFrame id) s =
      .next (bumpW (cid 15 8 2) 0 0 x.frame.world (dropFlight id t))) ∧
    (mine + x.frame.len ≤ 16 * (quotaAt t x.frame.world).ondie → keeperBytes t (fun _ => true) + x.frame.len ≤ 8388608 →
      exec (.keeperFrame id) s = .next (
        let held : KeeperFrame := { frame := id, len := x.frame.len, world := x.frame.world, hit := none, fifo := 0 }
        let u := { t with halter := { t.halter with buffer := t.halter.buffer ++ [held] } }
        let v := noteWake 2 (countEvent 0x4D 0x101 x.frame.world 1 u)
        keeperRun (if 7864320 < keeperBytes v (fun _ => true) then noteWake 4 v else v)))) ∧
  (∀ (id : Nat) (x : Flight) (s : State), flightAt s id = some x → keeperPath s = true → x.place = .ingress → x.void = false →
    (∀ f ∈ s.halter.buffer, f.frame ≠ id) →
    (keeperEarlier s id x.frame.source = true → exec (.keeperFrame id) s = .next s) ∧
    (keeperEarlier s id x.frame.source = false → x.frame.poison = true → exec (.keeperFrame id) s = .next (dropCounted cDropChannel 9 0x4D id s)) ∧
    (keeperEarlier s id x.frame.source = false → x.frame.poison = false → bankOf s x.frame = none → exec (.keeperFrame id) s = .next (dropEpoch id s))) ∧
  (∀ (root : NodeId) (k : KeeperFrame) (o : Outcome15) (x : Flight) (s : State), flightAt s k.frame = some x →
    ∃ t, keeperSend root k o s = countEvent 0x4D 0x100 o.world 1 (sendFrame root (keeperQueue o) (keeperFrame x.frame o)
      (endFlight k.frame (epochOut x.frame.epoch (leaveVersion k.frame t)))) ∧
      t.halter.buffer = s.halter.buffer.filter (fun f => f.frame ≠ k.frame) ∧
      mgetD t.halter.sendAt root.side 0 = s.mono + x.frame.len * 800) ∧
  (∀ (port : Nat) (s : State), port < 64 → s.halter.stage = .halter →
    exec (.prxPowerCycle port true) s = .next (powerDomains [0x80 + port] [] s) ∧
    exec (.prxPowerCycle port false) s = .next (gateDomain (0x80 + port) s))

/-- The fault manager (from R15, R16, R465 to R468, R471, R473 to R475, R520). A reported error is latched from class 2 on and waits
in order; one of a source that waits already is escalated. Handling logs it: an entry of its own, a record and a notification
under the mask and the limit of class 0. Class 2 isolates its unit, class 3 freezes the module. FAULT_READ answers an entry
and the next in use; FAULT_CLEAR frees an inactive entry, or lets a unit kept out of service try again. What it says by the
model's choice is in log entries 69, 71, 76, 113. -/
def Obligations.FaultsAreLoggedReadAndCleared : Prop :=
  (∀ (cplx unit inst res cls : Nat) (code : Nat) (detail : Word) (s : State), isUnit cplx unit inst = true → res < 2 ^ 24 →
    code / 256 = cplx → collectorCode code cls = true →
    let e : Err := { cplx := cplx, unit := unit, inst := inst, res := res, code := code, cls := cls, detail := detail }
    exec (.faultReport cplx unit inst res code cls detail none) s = .next (
      let t := if code % 256 = 2 then correction cplx unit inst code s else s
      report e (if (classed e).cls = 2 then isolate cplx unit inst t else t)) ∧
    (∀ (id : Nat) (x : Flight), flightAt s id = some x → code % 256 = 1 → cls = 1 →
      exec (.faultReport cplx unit inst res code cls detail (some id)) s =
        .next (report e (poisonCopies id (setFlight id { x with frame := { x.frame with poison := true } } s))))) ∧
  (∀ (e : Err) (s : State), e.cls < 2 → s.flt.queue.length < 64 → mgetD s.flt.channels (collectorOf e) [] = [] →
    s.flt.handling = none → s.flt.queue = [] →
    (report e s).flt = { s.flt with handling := some { e with tc := s.time.tc } }) ∧
  (∀ (e h : Err) (s : State), e.cls = 0 → e.clear = false → h.clear = false → sameSource h { e with tc := s.time.tc } = true →
    mgetD s.flt.channels (collectorOf e) [] = [] → s.flt.handling = some h → s.flt.queue = [] →
    (report e s).flt = { s.flt with queue := [{ e with cls := 1, esc := true, tc := s.time.tc }] }) ∧
  (∀ s : State, s.flt.sticky = [] → exec .stickyPoll s = .next s) ∧
  (∀ (e : Err) (s : State), managerRuns s = true → s.flt.sticky = [e] → s.flt.queue.contains e = false → s.flt.handling ≠ some e → s.flt.queue.length < 64 →
    exec .stickyPoll s = .next (enqueueErr e (dropFromChannel e { s with flt := { s.flt with sticky := [] } }))) ∧
  (∀ s : State, managerRuns s = false → exec .faultHandling s = .next s ∧ exec .stickyPoll s = .next s) ∧
  (∀ s : State, managerRuns s = true → s.flt.handling = none → s.flt.queue = [] → (∀ e ∈ s.flt.channels, e.2 = []) → (∀ e ∈ s.flt.overflow, e.2 = 0) →
    exec .faultHandling s = .next (followAlert s)) ∧
  (∀ (e : Err) (s : State), managerRuns s = true → s.flt.handling = some e → exec .faultHandling s = .next (followAlert (takeUp (drainChannels 1024 (handle e
    { s with flt := { s.flt with
      handling := none, sticky := s.flt.sticky.filter fun x => { x with esc := e.esc, cls := e.cls } ≠ e } }))))) ∧
  (∀ (e : Err) (s : State), e.clear = false → s.boot.state ≠ .safe → s.flt.frozen = false →
    (e.cls < 2 → handle e s = logRaised e s) ∧
    (e.cls = 2 → critical e.cplx e.unit = false → handle e s = unitFatal e (logRaised e s))) ∧
  (∀ (e : Err) (i : Nat) (s : State), entryIndex (bump (cid 16 3 0) 11 e.cls s) e = some i → mget s.flt.table i = none →
    s.boot.state ≠ .safe → s.flt.frozen = false →
    ∃ x, logRaised e s = faultNote i x e.cls true (recordEv 0x0002 e.code e.cplx e.unit e.inst e.world (entryWords x)
        (let t := bump (cid 16 3 0) 11 e.cls s
         { t with flt := { t.flt with table := mset t.flt.table i x } })) ∧
      x.cls = e.cls ∧ x.active = decide (1 ≤ e.cls) ∧ x.esc = e.esc ∧ x.safe = false ∧ x.cplx = e.cplx ∧ x.unit = e.unit ∧
      x.inst = e.inst ∧ x.res = e.res ∧ x.code = e.code ∧ x.count = 1 ∧ x.detail = e.detail ∧ x.firstS = x.lastS) ∧
  EndsOk .faultRead opFaultRead (fun c _ => c.hasBuf = false)
    (fun c f => entryAt f (fld (c.w 0) 7 0) ++ [wd f.flt.table.length,
      wd (((List.range 256).find? fun k => fld (c.w 0) 7 0 < k && mhas f.flt.table k).getD 0xFFFFFFFF)]) (fun _ f => f) ∧
  EndsData .faultRead opFaultRead (fun c _ => c.hasBuf = true)
    (fun c f => entryAt f (fld (c.w 0) 7 0) ++ [wd f.flt.table.length,
      wd (((List.range 256).find? fun k => fld (c.w 0) 7 0 < k && mhas f.flt.table k).getD 0xFFFFFFFF)])
    (fun _ f => bytesOfWords ((List.range 256).flatMap (entryAt f))) (fun _ f => f) ∧
  (∀ x : FaultEntry, EndsOk .faultClear opFaultClear
    (fun c f => mget f.flt.table (fld (c.w 0) 7 0) = some x ∧ x.outOfService = false ∧ x.active = false) (fun _ _ => [])
    (fun c f => { f with flt := { f.flt with table := mdel f.flt.table (fld (c.w 0) 7 0) } })) ∧
  (∀ x : FaultEntry, EndsOk .faultClear opFaultClear
    (fun c f => mget f.flt.table (fld (c.w 0) 7 0) = some x ∧ x.outOfService = true) (fun _ _ => [])
    (fun _ f => { f with flt := { f.flt with table := mmap f.flt.table fun _ y =>
      if (y.cplx, y.unit, y.inst) = (x.cplx, x.unit, x.inst) ∧ 2 ≤ y.cls ∧ y.active = true then { y with outOfService := false } else y } }))

/-- Units and the safe state (from R54, R469 to R472, R497). A unit-fatal error takes its unit out of service, and the third within
3,600 s keeps it out. A recovery whose self-test passes resets the unit and clears its entries; one that fails keeps it out.
A module-fatal error freezes the module at once, or is first a wake event. The safe state ends the commands in progress that
have not taken effect, notifies whatever the mask holds, and is recorded. A failure of the handler is module-fatal. What it
says by the model's choice is in log entries 72, 77, 86, 88, 93, 114. -/
def Obligations.UnitsRecoverAndTheSafeStateIsEntered : Prop :=
  (∀ (e : Err) (s : State),
    let u := (e.cplx, e.unit, e.inst)
    let ts := (mgetD s.flt.fatals u []).filter (fun t => s.mono ≤ t + 3600 * sec) ++ [s.mono]
    let t := { s with flt := { s.flt with fatals := mset s.flt.fatals u ts } }
    unitFatal e s = isolate e.cplx e.unit e.inst (if 3 ≤ ts.length then markOut u true t else t)) ∧
  (∀ (cplx unit inst : Nat) (s : State), unitFailed s cplx unit inst = false →
    let t := { s with flt := { s.flt with failed := s.flt.failed ++ [(cplx, unit, inst)] } }
    (cplx ≠ 1 → cplx ≠ 4 → cplx ≠ 5 → cplx ≠ 7 → isolate cplx unit inst s = t) ∧
    (cplx = 7 → isolate cplx unit inst s = abortWhere (fun a => quarterOf a.traffic = inst) t)) ∧
  (∀ (cplx unit inst : Nat) (s : State), isUnit cplx unit inst = true → managerRuns s = true → unitFailed s cplx unit inst = true →
    (∀ e ∈ s.flt.table, (e.2.cplx, e.2.unit, e.2.inst) = (cplx, unit, inst) → e.2.outOfService = false) →
    s.boot.state ≠ .safe → s.flt.frozen = false →
    let t := { s with flt := { s.flt with failed := s.flt.failed.filter (· ≠ (cplx, unit, inst)) } }
    exec (.unitRecovery cplx unit inst true) s = .next (bump (cid 16 3 5) 0 0
      (clearUnit (cplx, unit, inst) (resetUnit cplx unit inst (restartClock cplx unit inst t)))) ∧
    exec (.unitRecovery cplx unit inst false) s = .next (markOut (cplx, unit, inst) true s)) ∧
  (∀ (code : Nat) (s : State), (s.halter.stage = .outside →
      triggerSafe code s = dropWaits (forEach (s.host.pairs.map Prod.fst) abortIdle
        { s with flt := { s.flt with cause := code, frozen := true } })) ∧
    (s.halter.stage ≠ .outside → s.halter.wake = none → (triggerSafe code s).halter.wake = some 5 ∧
      (triggerSafe code s).flt = { s.flt with cause := code })) ∧
  (∀ s : State, s.boot.state ≠ .safe → s.flt.frozen = false → s.halter.stage = .outside →
    ∃ t, exec .handlerFail s = .next t ∧ t.flt.frozen = true ∧ t.flt.cause = 0x0C10) ∧
  (∀ s : State, s.flt.frozen = true → s.boot.state ≠ .safe → exec .safeStateEntry s = .next (pumpAll (
    let t := dropWaits (forEach (s.host.pairs.map Prod.fst) abortIdle s)
    let u := { t with boot := { t.boot with state := .safe, restarting := false } }
    recordEv 0x0006 2 0x0C 1 0 0x0100 [wd (stateCode s.boot.state), wd u.flt.cause, 0]
      (notifyForced .stateChange [0x0B01, wd u.flt.cause] u))))

/-- A burst granted to a terminal passes (from R102, R104, R105, R106, R108, R109, R115 to R117, R159, R183). Its reset pulse leaves. Its
verdict is good where its delimiter is found in its search window, and its header and ONU-ID are right, missing without delimiter or
energy, else failed with or without energy; it is counted, its shares pass, and a good one's content is taken and its offset used, a
bad one counts against the terminal. One in a ranging window is measured, or counted and missed. LOB_N bad ones raise a loss defect,
which after DEACT_MS deactivates. A fragment waits 16 PON frames. What it says by the model's choice is in log entries 45, 124. -/
def Obligations.BurstsAreJudgedAndTaken : Prop :=
  (∀ (p map start i : Nat) (m : BwMap) (b : Burst5) (t : Terminal) (rx : BurstRx) (s : State),
    (mapsAt s p).out.find? (fun m => m.num = map) = some m → powered s (0x80 + p) = true →
    m.bursts.find? (fun b => b.start = start && b.verdict = 0 && (rx.granted.isNone || b.term = rx.granted)) = some b →
    b.term = some i → termAt s i = some t → hasOnu t = true →
    let codes := windowCodes s p map b rx
    let loud := (codes.filter ((cfgAt s p).energyTh < ·)).length
    let found := delimFound s p map b.window.isSome rx = true
    let good := found ∧ rx.hecOk = true ∧ rx.onu = i % 512
    let words (x : Share) : Nat := match rx.parts.find? fun y => y.alloc = x.id with | some y => y.words | none => 0
    let counted (v pos : Nat) (words : Share → Nat) : State :=
      forEach b.shares (fun x u => sharePassed (treeOf s p) v x (words x) u)
        (bumpPon pos p (some i) t.world (burstEvents p v t.world loud rx
          (markBurst p map b v (0 < loud) (burstReset p map start s))))
    (good → b.window = none → exec (.burstReceived p map start rx) s =
      .next (closeMap p map (useOffset i rx.offset (goodBurst i (goodContent p i map t rx codes (counted 1 0 words)))))) ∧
    (good → b.window ≠ none → exec (.burstReceived p map start rx) s = .next (closeMap p map (burstPower i codes
      (goodCounts p i t rx (counted 1 0 words))))) ∧
    (¬ found → loud = 0 → b.window = none → exec (.burstReceived p map start rx) s =
      .next (closeMap p map (badContent p i 2 false b t (counted 2 1 fun _ => 0)))) ∧
    (¬ found → loud = 0 → b.window ≠ none → exec (.burstReceived p map start rx) s =
      .next (closeMap p map (rangingMissed i (badBurst i true (counted 2 1 fun _ => 0))))) ∧
    (¬ good → 0 < loud → b.window = none → exec (.burstReceived p map start rx) s =
      .next (closeMap p map (badContent p i 3 (2 ≤ loud) b t (counted 3 2 fun _ => 0)))) ∧
    (¬ good → 0 < loud → b.window ≠ none → exec (.burstReceived p map start rx) s =
      .next (closeMap p map (rangingMissed i (badBurst i false (counted 3 2 fun _ => 0))))) ∧
    (¬ good → found → loud = 0 → b.window = none → exec (.burstReceived p map start rx) s =
      .next (closeMap p map (badContent p i 4 false b t (counted 4 2 fun _ => 0)))) ∧
    (¬ good → found → loud = 0 → b.window ≠ none → exec (.burstReceived p map start rx) s =
      .next (closeMap p map (rangingMissed i (badBurst i false (counted 4 2 fun _ => 0)))))) ∧
  (∀ (p m : Nat) (window : Bool) (rx : BurstRx) (s : State),
    (delimFound s p m window rx = true → rx.locked = true ∧ ∃ e, rx.delimiter = some e ∧ e ≤ delimErrors (upKind s p)) ∧
    (delimFound s p m false rx = true → -2048 ≤ rx.offset ∧ rx.offset ≤ 2048)) ∧
  (∀ (p map start : Nat) (s : State), (burstReset p map start s).out =
    s.out ++ [.burstReset p map start (max 1 ((burstProfile s p map).1 / 2))]) ∧
  (∀ (i : Nat) (missing : Bool) (t : Terminal) (s : State), termAt s i = some t →
    let u := updTerm i (fun t => { t with good := 0, bad := t.bad + 1 }) s
    (t.bad + 1 < (cfgAt s t.port).lobN ∨ termLoss t = true → badBurst i missing s = u) ∧
    ((cfgAt s t.port).lobN ≤ t.bad + 1 → termLoss t = false → badBurst i missing s =
      reportLoss i (updTerm i (fun t => { t with los := missing, lol := !missing, lossAt := s.mono, lossFrame := s.time.sfc }) u))) ∧
  (∀ (i : Nat) (t : Terminal) (s : State), termAt s i = some t → termLoss t = true →
    t.lossAt + (cfgAt s t.port).deactMs * ms ≤ s.mono → exec (.deactTimeout i) s = .next (
      updTerm i (fun t => { t with bad := 0, good := 0, eqd := 0, rtd := 0, drift := 0 })
        (endActivation i .pending true (recordEv 0x0007 3 0x02 0 t.port t.world [wd i, t.sn0, t.sn1] s)))) ∧
  (∀ (i alloc : Nat) (t : Terminal) (f : UpFrag) (s : State), termAt s i = some t → mget t.frags alloc = some f →
    (f.started + 16 ≤ s.time.sfc → exec (.reassemblyTimeoutPon i alloc) s = .next (bumpPon 10 t.port (some i) t.world
      (updTerm i (fun t => { t with frags := mdel t.frags alloc }) s))) ∧
    (s.time.sfc < f.started + 16 → exec (.reassemblyTimeoutPon i alloc) s = .next s))

/-- Messages of a terminal and its keys (from R100, R107, R120 to R124, R283, R307, R309, R336, R340). A PLOAM message or an OMCI
frame whose MIC passes goes to the bound host queue, or is counted; extensions both sides have are confirmed. A key switch is
followed by a request, which is repeated three times and then given up; the answer, in one part or two, travels to the secure
island, which writes its slot. What it says by the model's choice is in log entries 64, 126, 127. -/
def Obligations.MessagesAndTerminalKeysTravel : Prop :=
  (∀ (i : Nat) (bs : List Byte) (mic : Bool) (t : Terminal) (s : State), termAt s i = some t →
    (mic = false ∨ s.vault.registered.contains i = false → exec (.ploamuMessage i bs mic) s =
      .next (countEvent 0x48 0x101 t.world 1 (bumpPon 11 t.port (some i) t.world s))) ∧
    (mic = true → s.vault.registered.contains i = true → exec (.ploamuMessage i bs mic) s =
      .next (countEvent 0x48 0x101 t.world 1 (toOmci i t bs s)))) ∧
  (∀ (i : Nat) (t : Terminal) (bs : List Byte) (s : State), ((portAt s (treeOf s t.port)).omci = none →
      toOmci i t bs s = bumpPon 13 t.port (some i) t.world s) ∧
    (∀ q, (portAt s (treeOf s t.port)).omci = some q → (hrqAt s q).enable = true → hrqFull (hrqAt s q) = false →
      let f : Frame := { epoch := s.epoch.current.toNat, rver := s.rules.current, source := t.port, dir := 1, world := t.world,
                         term := some i, len := bs.length, bytes := bs }
      toOmci i t bs s = toHost q f [] s)) ∧
  (∀ (i key : Nat) (pos : XgemPlace) (bs : List Byte) (mic : Bool) (t : Terminal) (s : State), termAt s i = some t →
    (key = 3 → exec (.upstreamOmciFrame i key pos bs mic) s = .next (bumpPon 8 t.port (some i) t.world s)) ∧
    (key = 0 → mic = true → s.vault.registered.contains i = true → exec (.upstreamOmciFrame i key pos bs mic) s =
      .next (countEvent 0x48 0x101 t.world 1 (toOmci i t bs s))) ∧
    (key = 0 → (mic = false ∨ s.vault.registered.contains i = false) → exec (.upstreamOmciFrame i key pos bs mic) s =
      .next (countEvent 0x48 0x101 t.world 1 (bumpPon 12 t.port (some i) t.world s))) ∧
    (key = 1 ∨ key = 2 → admits s 1 = true → engineUse s (keySlot t key) t.world useDecrypt (t.ext.testBit 1) = false →
      exec (.upstreamOmciFrame i key pos bs mic) s = .next (bumpPon 8 t.port (some i) t.world s)) ∧
    (key = 1 ∨ key = 2 → admits s 1 = false →
      exec (.upstreamOmciFrame i key pos bs mic) s = .next (bumpW (cid 9 10 22) 2 i t.world s)) ∧
    (key = 1 ∨ key = 2 → engineUse s (keySlot t key) t.world useDecrypt (t.ext.testBit 1) = true → admits s 1 = true → mic = true →
      s.vault.registered.contains i = true → exec (.upstreamOmciFrame i key pos bs mic) s =
        .next (countEvent 0x48 0x101 t.world 1
          (toOmci i t (xgemCrypt true t (slotBytes s (keySlot t key)) pos.frame pos.word bs) s)))) ∧
  (∀ (i accept : Nat) (t : Terminal) (s : State), termAt s i = some t → (t.st = .operating ∨ t.st = .reranging) →
    s.vault.registered.contains i = true →
    let bits := (2 * b2n (cfgAt s t.port).aes256 + 4 * b2n (cfgAt s t.port).fcast) &&& accept
    exec (.extAccept ⟨i, true⟩ accept) s = .next (countEvent 0x48 0x101 t.world 1
      (ownPloam i (.extConfirm bits) (updTerm i (fun t => { t with confirm := some bits }) s)))) ∧
  (∀ (i accept frag : Nat) (body : List Byte) (mic : Bool) (t : Terminal) (s : State), termAt s i = some t →
    (mic = false ∨ s.vault.registered.contains i = false) →
    let counted := countEvent 0x48 0x101 t.world 1 (bumpPon 11 t.port (some i) t.world s)
    exec (.extAccept ⟨i, mic⟩ accept) s = .next counted ∧ exec (.acknowledge ⟨i, mic⟩) s = .next counted ∧
      exec (.keyReport i frag body mic) s = .next counted) ∧
  (∀ (i old n : Nat) (t : Terminal) (s : State), termAt s i = some t → t.switched = some (old, n) → n + 7 ≤ s.time.sfc →
    let r : KeyReq := { index := old, sent := s.time.sfc, tries := 1 }
    exec (.keyRequest i) s = .next (ownPloam i (.keyControl old)
      (updTerm i (fun t => { t with keyReq := some r, asked := true }) (updTerm i (fun t => { t with switched := none }) s)))) ∧
  (∀ (i : Nat) (t : Terminal) (r : KeyReq) (s : State), termAt s i = some t → t.keyReq = some r → r.sent + 3 ≤ s.time.sfc →
    (∀ m ∈ t.own, ploamType m ≠ 3) →
    (r.tries < 3 → exec (.keyRequestTimeout i) s = .next (ownPloam i (.keyControl r.index)
      (updTerm i (fun t => { t with keyReq := some { r with sent := s.time.sfc, tries := r.tries + 1, frags := [] }, asked := true }) s))) ∧
    (3 ≤ r.tries → exec (.keyRequestTimeout i) s = .next (raise 0x07 0 1 i 0x0710 0 0
      (bumpW (cid 9 10 23) 2 i t.world (updTerm i (fun t => { t with keyReq := none }) s))))) ∧
  (∀ (i frag : Nat) (body : List Byte) (t : Terminal) (r : KeyReq) (s : State), termAt s i = some t → t.keyReq = some r → frag < 2 →
    s.vault.registered.contains i = true →
    let send (bs : List Byte) : State :=
      let u := updTerm i (fun t => { t with keyReq := none }) s
      countEvent 0x48 0x101 t.world 1 { u with pon := { u.pon with keysIn := u.pon.keysIn ++ [(i, r.index, bs)] } }
    (t.ext.testBit 1 = false → exec (.keyReport i frag body true) s = .next (send body)) ∧
    (∀ other, t.ext.testBit 1 = true → mget r.frags (1 - frag) = some other → exec (.keyReport i frag body true) s =
      .next (send (if frag = 0 then body ++ other else other ++ body))) ∧
    (t.ext.testBit 1 = true → mget r.frags (1 - frag) = none → exec (.keyReport i frag body true) s =
      .next (countEvent 0x48 0x101 t.world 1 (updTerm i (fun t =>
        { t with keyReq := some { r with frags := mset r.frags frag body }, asked := true }) s)))) ∧
  (∀ s : State, s.pon.keysIn = [] → exec .ponKeyWrite s = .next s) ∧
  (∀ (i index : Nat) (bs : List Byte) (rest : List (Nat × Nat × List Byte)) (t : Terminal) (s : State),
    s.pon.keysIn = (i, index, bs) :: rest → termAt s i = some t →
    let u := { s with pon := { s.pon with keysIn := rest } }
    let slot := keySlot t index
    let body := Config.ponUnwrap (termKeys s i t) bs
    let own := s.vault.registered.contains i
    let a := (slotAt s slot).attr
    (own = false → exec .ponKeyWrite s = .next u) ∧
    (own = true → mustWait s slot = false → exec .ponKeyWrite s =
      .next (slotOp slot (writeKey slot a 5 body (readsBack s) (if isPersistent slot a then takeFree u else u)))) ∧
    (own = true → mustWait s slot = true → exec .ponKeyWrite s =
      .next { u with vault := { u.vault with waiting := u.vault.waiting ++ [.ponKey i index body] } }))

/-- Discovery (from R120, R139, R142, R143, R145, R146, R148 to R152, R155, R551, R552). A serial number heard in a window assigns its
pending record, is counted once in 10 s where no record has it, or names a duplicate; one whose MIC fails is counted, and one outside
every window, or while a change of reach is prepared, does nothing. A window opens at the first map that can hold it, once per
spacing. An Awl cycle takes up to 16 pending records with the codes of their serial numbers; a second crowded one pauses Awl for 1 s; a
detection in the search range assigns its terminal. What it says by the model's choice is in log entries 79, 80, 107, 146. -/
def Obligations.DiscoveryFindsTerminals : Prop :=
  (∀ (p i : Nat) (sn0 sn1 : Word) (arrival : Int) (bs : List Byte) (t : Terminal) (s : State), p < 64 → inService s p = true →
    inSnWindow s p arrival = true → reachHeld s p = false → bySerial s p sn0 sn1 = some (i, t) → termAt s i = some t →
    let hi := arrival + uiCeil s p 2000000
    let w := (WinKind.classic, hi - uiCeil s p (min 50000000 (10000000 * (discAt s p).diff + 2000000)), hi)
    let seen (u : State) : Res := .next (countEvent 0x48 0x101 t.world 1 u)
    (t.st = .pending → exec (.serialNumberOnu p sn0 sn1 arrival ⟨bs, true⟩) s = seen (
      let u := updTerm i (fun t => { t with st := .assigned, method := 0, port := p, tries := 0, wait := none, window := some w }) s
      ownPloam i (.assignOnuId (i % 512) t.sn0 t.sn1) u)) ∧
    (t.st = .assigned → exec (.serialNumberOnu p sn0 sn1 arrival ⟨bs, true⟩) s = seen s) ∧
    (∀ n, t.st = .operating → t.lastGood = some n → s.time.sfc ≤ n + 8 → exec (.serialNumberOnu p sn0 sn1 arrival ⟨bs, true⟩) s =
      seen (rangeRecord 4 i [wd i, t.sn0, t.sn1] (bump (cid 17 7 6) 1 p s))) ∧
    (∀ n, t.st = .operating → t.lastGood = some n → n + 8 < s.time.sfc → exec (.serialNumberOnu p sn0 sn1 arrival ⟨bs, true⟩) s =
      seen (assign i p 0 w (endActivation i .pending true s))) ∧
    exec (.serialNumberOnu p sn0 sn1 arrival ⟨bs, false⟩) s = seen (bumpPon 11 p (some i) t.world s)) ∧
  (∀ (p : Nat) (sn0 sn1 : Word) (arrival : Int) (bs : List Byte) (s : State), p < 64 → inService s p = true →
    inSnWindow s p arrival = true → reachHeld s p = false → bySerial s p sn0 sn1 = none →
    let t := bump (cid 17 7 7) 1 p s
    let key := sn0.toNat + sn1.toNat * 2 ^ 32
    ((portAt s (treeOf s p)).omci = none → exec (.serialNumberOnu p sn0 sn1 arrival ⟨bs, true⟩) s =
      .next (countEvent 0x48 0x101 0x0100 1 t)) ∧
    (∀ q, (portAt t (treeOf t p)).omci = some q → mget (portAt t p).snSeen key = none →
      exec (.serialNumberOnu p sn0 sn1 arrival ⟨bs, true⟩) s = .next (countEvent 0x48 0x101 0x0100 1 (
        let f : Frame := { epoch := t.epoch.current.toNat, rver := t.rules.current, source := p, dir := 1, len := bs.length, bytes := bs }
        toHost q f [] (updPort p (fun x => { x with snSeen := mset x.snSeen key t.mono }) t))))) ∧
  (∀ (p : Nat) (sn0 sn1 : Word) (arrival : Int) (bs : List Byte) (mic : Bool) (s : State), p < 64 →
    (inSnWindow s p arrival = false ∨ reachHeld s p = true) → exec (.serialNumberOnu p sn0 sn1 arrival ⟨bs, mic⟩) s = .next s) ∧
  (∀ (p : Nat) (s : State), p < 64 → inService s p = true → snSpacing s p ≠ 0 → reachHeld s p = false →
    ((treeTerms s (treeOf s p)).filter fun e => e.2.st ≠ .pending).length < 512 →
    let lo := nearest s p
    let hi := nearest s p + uiCeil s p (10000000 * (discAt s p).diff + 500000 * (discAt s p).near + 50000000)
    let found := findSn s p lo hi 64 (max (snFloor s p) (s.time.sfc + 1))
    (∀ x, found = some x → x.map ≤ s.time.sfc + 8 → mayPlace s p x = true ∧ x.start = zeroArrival s p x.map 0 + lo ∧
      x.fin = zeroArrival s p x.map 0 + hi ∧ snFloor s p ≤ x.map ∧ exec (.snWindowOpen p) s =
        .next (updPort p (fun q => { q with lastSn := some x.start.toNat, prevSn := q.lastSn }) (putWindow p x s))) ∧
    (found = none → exec (.snWindowOpen p) s = .next s) ∧
    (∀ x, found = some x → s.time.sfc + 8 < x.map → exec (.snWindowOpen p) s = .next s)) ∧
  (∀ (p i : Nat) (rtd : Int) (t : Terminal) (s : State), termAt s i = some t → p < 64 → t.st = .pending →
    ((portAt s p).codes.any fun e => e.1 = i) = true → (portAt s p).running = true → reachHeld s p = false →
    let hi := nearest s p + uiCeil s p (10000000 * (discAt s p).diff + 2000000 + 500000 * (discAt s p).near)
    (nearest s p ≤ rtd → rtd ≤ hi → exec (.awlDetection p i rtd) s = .next (assign i p 1 (directedSpan s p t rtd) s)) ∧
    (rtd < nearest s p ∨ hi < rtd → exec (.awlDetection p i rtd) s = .next s)) ∧
  (∀ (p : Nat) (level : Option Nat) (s : State), p < 64 → inService s p = true → s.time.sfc % 128 = 0 →
    ((portAt s p).running = false → exec (.awlCycleBoundary p level) s = .next (updPort p (fun x => { x with codes := [] }) s)) ∧
    ((portAt s p).running = true →
      let u := judgeCrowd p level s
      let codes := if (portAt u p).pause.isNone then awlCodes u p else []
      codes.length ≤ 16 ∧ ∃ t, exec (.awlCycleBoundary p level) s = .next t ∧ (portAt t p).codes.map Prod.fst = codes ∧
        ∀ e ∈ (portAt t p).codes, ∀ x, termAt u e.1 = some x → e.2 = awlCode x.sn0 x.sn1)) ∧
  (∀ (p : Nat) (s : State), awlOffer p s = updPort p (fun x => { x with
    tail := if x.offering && !(discAt s p).awl then 256 else if (discAt s p).awl then 0 else x.tail, offering := (discAt s p).awl,
    running := (discAt s p).awl && (portAt s p).pause.isNone && !reachHeld s p && !(portAt s p).noOptics }) s) ∧
  (∀ (p v : Nat) (s : State), (crowded s p v = false → judgeCrowd p (some v) s = updPort p (fun x => { x with crowd := 0 }) s) ∧
    (crowded s p v = true → (portAt s p).crowd = 0 →
      judgeCrowd p (some v) s = updPort p (fun x => { x with crowd := x.crowd + 1 }) s) ∧
    (crowded s p v = true → 1 ≤ (portAt s p).crowd → (portAt s p).awlCrowd = false → judgeCrowd p (some v) s =
      raise 0x02 1 p 0 0x0210 0 0 (updPort p (fun x => { x with crowd := 0, pause := some s.mono, awlCrowd := true }) s))) ∧
  (∀ (p t0 : Nat) (s : State), p < 64 → (portAt s p).pause = some t0 → t0 + sec ≤ s.mono →
    exec (.awlPauseEnd p) s =
      .next (lower 0x02 1 p 0 0x0210 0 (updPort p (fun x => { x with pause := none, awlCrowd := false }) s)))

/-- Ranging, corrections and steps (from R140, R154 to R160, R336). A burst in a ranging window registers the terminal and sends TEQD
less its RTD in whole UI, or holds a terminal beyond the reach. The Acknowledge makes it OPERATING, or applies a correction.
A message without Acknowledge is sent three times; then a correction re-ranges, a ranging ends. A third missed grant ends it
too. D follows the offset by an eighth; beyond 8 UI a correction is sent; two offsets apart from D and near each other are a
step. What it says by the model's choice is in log entries 64, 131, 132. -/
def Obligations.RangingSetsAndKeepsTheDelay : Prop :=
  (∀ (i : Nat) (rtd : Int) (t : Terminal) (s : State), termAt s i = some t → (t.st = .assigned ∨ t.st = .reranging) → t.wait = none →
    t.window ≠ none →
    let u := countEvent 0x48 0x101 t.world 1 { s with vault := rebuildKeys i s.vault }
    let v := updTerm i (fun t => { t with window := none, tries := 0, rtd := rtd }) (goodBurst i u)
    let q : Int := teqd s t.port
    (rtd ≤ 16 * (q - 64) → exec (.rangingBurst ⟨i, true⟩ rtd) s = .next (
      let w : RtWait := { eqd := (16 * q - rtd + 8) / 16, sent := s.time.sfc, sends := 1, rtd := some rtd, corr := 0 }
      ownPloam i (.rangingTime w.eqd.toNat) (updTerm i (fun t => { t with wait := some w, asked := true }) v))) ∧
    (16 * (q - 64) < rtd → exec (.rangingBurst ⟨i, true⟩ rtd) s =
      .next (rangeRecord 2 i [wd i, wd (unsigned 32 rtd)] (endActivation i .held true v)))) ∧
  (∀ (i : Nat) (t : Terminal) (w : RtWait) (s : State), termAt s i = some t → t.wait = some w → w.rtd = none →
    s.vault.registered.contains i = true →
    exec (.acknowledge ⟨i, true⟩) s = .next (countEvent 0x48 0x101 t.world 1 (updTerm i (fun t => { t with
      wait := none, eqd := w.eqd, drift := t.drift - 16 * w.corr, lastCorr := w.corr, corrs := satAdd 0xFFFF t.corrs 1 }) s))) ∧
  (∀ (i : Nat) (t : Terminal) (w : RtWait) (rtd : Int) (s : State), termAt s i = some t → t.wait = some w → w.rtd = some rtd →
    s.vault.registered.contains i = true →
    t.st = .assigned → ∃ u x, exec (.acknowledge ⟨i, true⟩) s = .next u ∧ termAt u i = some x ∧ x.st = .operating ∧ x.eqd = w.eqd ∧
      x.rtd = rtd ∧ x.drift = 16 * w.eqd - (16 * (teqd s t.port : Int) - rtd) ∧ x.wait = none ∧ x.window = none ∧ x.measured = 0 ∧
      x.ref = none ∧ x.keyReq = some { index := 1, sent := s.time.sfc, tries := 1 }) ∧
  (∀ (i : Nat) (t : Terminal) (w : RtWait) (s : State), termAt s i = some t → t.wait = some w → w.sent + 3 ≤ s.time.sfc →
    (∀ m ∈ t.own, ploamType m ≠ 1) →
    (w.sends < 3 → exec (.rangingTimeTimeout i) s = .next (sendRanging i { w with sends := w.sends + 1, sent := s.time.sfc } s)) ∧
    (3 ≤ w.sends → w.rtd = none → exec (.rangingTimeTimeout i) s =
      .next (rerange i 4 0 (directedSpan s t.port t (16 * (teqd s t.port : Int) + t.lastOffset)) s)) ∧
    (3 ≤ w.sends → w.rtd ≠ none → exec (.rangingTimeTimeout i) s = .next (endActivation i .pending true
      (rangeRecord 5 i [wd i, t.sn0, t.sn1] (bumpW (cid 17 7 8) 2 i t.world s))))) ∧
  (∀ (i : Nat) (t : Terminal) (s : State), termAt s i = some t →
    (t.st = .assigned → t.tries < 2 → rangingMissed i s = placeGrant i 0 (updTerm i (fun t => { t with tries := t.tries + 1 }) s)) ∧
    (t.st = .assigned → 2 ≤ t.tries → rangingMissed i s = endActivation i .pending true (bumpW (cid 17 7 8) 2 i t.world s)) ∧
    (t.st = .reranging → 2 ≤ t.tries → rangingMissed i s = endActivation i .pending true (rangeRecord 3 i [wd i, t.sn0, t.sn1] s))) ∧
  (∀ (i : Nat) (o : Int) (t : Terminal) (s : State), termAt s i = some t → t.st = .operating →
    let u := updTerm i (fun t => { t with lastOffset := o }) s
    ((o - t.drift).natAbs ≤ 1024 → t.wait = none → useOffset i o s =
      correct i (updTerm i (fun t => { t with drift := t.drift + (o - t.drift).tdiv 8, cand := none }) u)) ∧
    (1024 < (o - t.drift).natAbs → t.cand = none → useOffset i o s = updTerm i (fun t => { t with cand := some o }) u) ∧
    (∀ c, 1024 < (o - t.drift).natAbs → t.cand = some c → (o - c).natAbs ≤ 64 → useOffset i o s =
      rerange i 1 (o - t.drift) (directedSpan s t.port t (16 * (teqd s t.port : Int) + o)) u) ∧
    (∀ c, 1024 < (o - t.drift).natAbs → t.cand = some c → 64 < (o - c).natAbs → useOffset i o s =
      bumpW (cid 17 7 9) 2 i t.world (updTerm i (fun t => { t with cand := some o }) u)) ∧
    (t.energyFails = 0 → failedWithEnergy i s = updTerm i (fun t => { t with energyFails := t.energyFails + 1 }) s) ∧
    (1 ≤ t.energyFails → failedWithEnergy i s = rerange i 2 0 (fullWindow s t.port) s)) ∧
  (∀ (i : Nat) (t : Terminal) (s : State), termAt s i = some t → (t.drift.natAbs ≤ 128 → correct i s = s) ∧
    (128 < t.drift.natAbs → t.wait = none →
      let c := roundDiv t.drift 16
      correct i s = sendRanging i { eqd := t.eqd - c, sent := s.time.sfc, sends := 1, rtd := none, corr := c } s))

/-- The module frame boundary (from R19, R76, R90, R94 to R97, R114, R121, R126, R130, R146). It comes when the counter without its
steps has reached a further multiple of 125 µs, not before. Late maps then meet their deadline, the superframe count rises by one, and
every port in service begins its PON frame: energy outside bursts is judged, 40 samples above ENERGY_TH in a row being rogue, framing
that starts releases the transmitter, key switches that are due apply, each 128th frame turns the Awl offer, and a port that frames and
transmits sends the frame with its PON-ID and its messages; the 8,192nd latches the time of day with TX_DELAY. Own messages go before
the host's, and the broadcasts of a frame are those of R90, R95 and R121. What it says by the model's choice is in log entries 65, 105. -/
def Obligations.FramesBeginAtTheBoundary : Prop :=
  (∀ (energy : List (Nat × List Nat)) (s : State),
    (s.time.frames + 1) * (125000 * nsUnit) ≤ ((s.time.tc : Int) - s.time.stepped).toNat →
    let n := s.time.sfc + 1
    let late (p : Nat) (t : State) : State := if granting t p = true ∧ (mapsAt t p).handed < n then deadline p n t else t
    let t := forBelow 64 late s
    exec (.moduleFrameBoundary energy) s = .next (forBelow 64 (fun p u => beginFrame p n (rogueSeen u p energy) u)
      { t with time := { t.time with sfc := n, sfcAt := t.mono, frames := t.time.frames + 1 } })) ∧
  (∀ (energy : List (Nat × List Nat)) (s : State),
    ((s.time.tc : Int) - s.time.stepped).toNat < (s.time.frames + 1) * (125000 * nsUnit) →
    exec (.moduleFrameBoundary energy) s = .next s) ∧
  (∀ (energy : List (Nat × List Nat)) (s : State),
    (s.time.frames + 1) * (125000 * nsUnit) ≤ ((s.time.tc : Int) - s.time.stepped).toNat → (∀ p < 64, inService s p = false) →
    exec (.moduleFrameBoundary energy) s =
      .next { s with time := { s.time with sfc := s.time.sfc + 1, sfcAt := s.mono, frames := s.time.frames + 1 } }) ∧
  (∀ (s : State) (p : Nat) (codes before after : List Nat), codes.length = 40 →
    (∀ c ∈ codes, (cfgAt s p).energyTh < c ∧ c < 2 ^ 14) →
    let at_ (k : Nat) : Int := uiFloor s p ((s.time.sfc - 1) * 125000000 + k * 25000)
    (∀ k, before.length ≤ k → k < before.length + 40 → ∀ x ∈ heldSpans s p, at_ (k + 1) ≤ x.1 ∨ x.2 ≤ at_ k) →
    rogueSeen s p [(p, before ++ codes ++ after)] = true) ∧
  (∀ (s : State) (p : Nat) (codes : List Nat) (x : Int × Int), x ∈ heldSpans s p →
    let at_ (k : Nat) : Int := uiFloor s p ((s.time.sfc - 1) * 125000000 + k * 25000)
    (∀ k, k < codes.length → x.1 < at_ (k + 1) ∧ at_ k < x.2) → rogueSeen s p [(p, codes)] = false) ∧
  (∀ (s : State) (p : Nat) (e : Nat × List Nat), e.1 ≠ p ∨ (∀ c ∈ e.2, c ≤ (cfgAt s p).energyTh) ∨ e.2.length < 40 →
    rogueSeen s p [e] = false) ∧
  (∀ (p n : Nat) (rogue : Bool) (s : State), inService s p = true →
    let t := startFraming p (judgeRogue p rogue (updPort p (applyProfile (oldestMap s p n)) (endFrame p n s)))
    let u := forEach (portTerms t p) (applySwitch n) t
    let v := if n % 128 = 0 then awlOffer p u else u
    beginFrame p n rogue s = updPort p (fun x => { x with tail := x.tail - 1 })
      (if (portAt v p).framing = true ∧ (portAt v p).txdis = false then sendFrameN p n v else v)) ∧
  (∀ (p n : Nat) (s : State), n % 8192 ≠ 0 →
    (s.out ++ [.ponFrame p n (cfgAt s p).ponId]) <+: (sendFrameN p n s).out) ∧
  (∀ (p n : Nat) (s : State), p < 64 → n % 8192 = 0 → (portAt (sendFrameN p n s) p).tod =
    (n, ((s.time.tc : Int) + (asymAt s.time.asymPon p).txDelay * (fracUnit : Int)).toNat)) ∧
  (∀ (p : Nat) (s : State), (portAt s p).starting = true → (portAt s p).noOptics = false → (portAt s p).lolTx = false →
    (portAt s p).release = none → startFraming p s =
      setTxdis p false (updPort p (fun x => { x with framing := true, starting := false }) s)) ∧
  (∀ (i index at_ n : Nat) (t : Terminal) (s : State), t.switch = some (index, at_) →
    let u := updTerm i (fun t => { t with keyIndex := index, switch := none, switched := some (t.keyIndex, n) }) s
    (n < at_ → applySwitch n (i, t) s = s) ∧ (n = at_ → applySwitch n (i, t) s = u) ∧
    (at_ < n → applySwitch n (i, t) s = bumpPon 14 t.port (some i) t.world u)) ∧
  (∀ (p n i : Nat) (m : Ploam) (rest : List Ploam) (t : Terminal) (s : State), termAt s i = some t →
    (t.own = m :: rest → sendTerm p n i s =
      ploamSent i n m (sendPloam p (i % 512) m (updTerm i (fun t => { t with own := rest }) s))) ∧
    (t.own = [] → t.hostMsgs = m :: rest → sendTerm p n i s =
      sendPloam p (i % 512) m (updTerm i (fun t => { t with hostMsgs := rest }) s))) ∧
  (∀ (p n k : Nat) (s : State), (portAt s p).stopping = some k → (.deactivate ∈ broadcasts s p n ↔ k ≤ n ∧ n < k + 3)) ∧
  (∀ (p : Nat) (s : State), (portAt s p).rogueRun = 3 → (portAt s p).rogue = false →
    judgeRogue p true s = portDefect p 0x0113 1 true (updPort p (fun x => { x with rogue := true })
      (updPort p (fun x => { x with rogueRun := 4, cleanRun := 0 }) s)))

/-- Optics and the transmitter (from R101, R127, R129, R130, R553). A port in service whose PLL unlocks, or whose optic leaves,
asserts TXDIS and counts what it held; the defect is reported. An inserted optic clears its defect, and 100 ms later the
transmitter is released. A present optic's flags are read each second with its MSEL_L asserted; a line held low that nine clocks and
a stop do not free makes the bus stuck, tried again each second. What it says by the model's choice is in log entry 106. -/
def Obligations.OpticsAreWatched : Prop :=
  (∀ (p : Nat) (s : State), p < 64 → inService s p = true → (portAt s p).lolTx = false →
    let t := setTxdis p true (updPort p (fun x => { x with txq := [] })
      (forEach (portAt s p).txq (fun x s => bumpPon 15 p (some x.term) x.world s) s))
    exec (.ponTxPllUnlock p) s = .next (raise 0x01 0 p 0 0x0112 2 0 (updLane (128 + p)
      (fun x => { x with lolEvents := min 0xFFFF (x.lolEvents + 1) }) (updPort p (fun x => { x with lolTx := true }) t)))) ∧
  (∀ (p : Nat) (s : State), p < 64 →
    let u := updPort p (fun x => { x with pres := false, release := none }) s
    (inService s p = true → (portAt s p).noOptics = false → exec (.opticsRemoved p) s = .next (raise 0x01 0 p 0 0x0114 1 0
      (updPort p (fun x => { x with noOptics := true, release := none, running := false, codes := [] }) (holdTx p u)))) ∧
    (inService s p = false ∨ (portAt s p).noOptics = true → exec (.opticsRemoved p) s = .next u)) ∧
  (∀ (p : Nat) (s : State), p < 64 →
    let u := updPort p (fun x => { x with pres := true }) s
    ((portAt s p).noOptics = true → exec (.opticsInserted p) s = .next (lower 0x01 0 p 0 0x0114 1
      (updPort p (fun x => { x with noOptics := false, release := some s.mono }) u))) ∧
    ((portAt s p).noOptics = false → exec (.opticsInserted p) s = .next u)) ∧
  (∀ (p t0 : Nat) (s : State), p < 64 → (portAt s p).release = some t0 → t0 + 100 * ms ≤ s.mono →
    let u := updPort p (fun x => { x with release := none, starting := true }) s
    exec (.opticsTxdisRelease p) s = .next (if (portAt s p).lolTx = true then u else setTxdis p false u)) ∧
  (∀ (p t0 : Nat) (s : State), p < 64 → (portAt s p).release = some t0 → s.mono < t0 + 100 * ms →
    exec (.opticsTxdisRelease p) s = .next s) ∧
  (∀ (p outcome : Nat) (released : Bool) (s : State), p < 64 → (portAt s p).pres = true → mget s.pon.stuck (p / 8) = none →
    (∀ t0, mget s.pon.polled p = some t0 → t0 + sec ≤ s.mono) →
    let u : State := { s with pon := { s.pon with polled := mset s.pon.polled p s.mono } }
    let (dev, reg, n) := Config.opticsFlags
    let v := emit (.pin "PON_MSEL_L" p 1) (emit (.optics (p / 8) dev reg [] n) (emit (.pin "PON_MSEL_L" p 0) u))
    exec (.opticsPoll p outcome released) s = .next (if outcome = 3 then recoverBus (p / 8) released v else v)) ∧
  (∀ (bus t0 : Nat) (s : State), bus < 8 → mget s.pon.stuck bus = some t0 → t0 + sec ≤ s.mono →
    let u := emit (.opticsRecovery bus) s
    exec (.opticsBusRecovery bus true) s =
      .next (lower 0x01 0 (8 * bus) bus 0x011A 1 { u with pon := { u.pon with stuck := mdel s.pon.stuck bus } }) ∧
    exec (.opticsBusRecovery bus false) s = .next { u with pon := { u.pon with stuck := mset s.pon.stuck bus s.mono } }) ∧
  (∀ (bus : Nat) (s : State), mget s.pon.stuck bus = none →
    let u := emit (.opticsRecovery bus) s
    recoverBus bus true s = { u with pon := { u.pon with stuck := mdel s.pon.stuck bus } } ∧
    recoverBus bus false s =
      raise 0x01 0 (8 * bus) bus 0x011A 1 0 { u with pon := { u.pon with stuck := mset s.pon.stuck bus s.mono } })

/-- The sampling instant (from R270 to R273). Every ring's unit is written where its records fit and it is in time, a period record
and one for each queue of the world that is sampled and nonempty now or before, and is counted lost otherwise; an empty unit
writes nothing unless records were lost. Every queue's maxima are taken, and which queues hold frames is noted. What it says
by the model's choice is in log entry 101. -/
def Obligations.SamplesFillTheRings : Prop :=
  (∀ (inTime : Bool) (s : State), s.tm.lastSample = some (s.time.tc / (10000 * nsUnit)) → exec (.samplingInstant inTime) s = .next s) ∧
  (∀ (inTime : Bool) (s : State), s.tm.lastSample ≠ some (s.time.tc / (10000 * nsUnit)) → exec (.samplingInstant inTime) s = .next (
    let t := forEach s.tm.rings (fun e s => ringUnit e.1 e.2 inTime s) s
    let qs := mmap t.tm.queues fun _ q => { sampleQueue t q with was := !q.held.isEmpty }
    { t with tm := { t.tm with queues := qs, lastSample := some (t.time.tc / (10000 * nsUnit)) } })) ∧
  (∀ (world : Nat) (r : Ring) (inTime : Bool) (s : State),
    let qs := unitQueues s world
    let put (r : Ring) (s : State) : State := { s with tm := { s.tm with rings := mset s.tm.rings world r } }
    let n := qs.length + 1
    (qs = [] → r.lost = 0 → ringUnit world r inTime s = s) ∧
    (qs ≠ [] ∨ r.lost ≠ 0 → r.size < r.written - r.consumed.getD 0 + n ∨ inTime = false → ringUnit world r inTime s =
      bumpBy { cid := cid 8 9 10, world := world } qs.length
        (put { r with lost := satAdd 0xFFFF r.lost qs.length, lostAll := satAdd 0xFFFFFFFF r.lostAll qs.length } s)) ∧
    (qs ≠ [] ∨ r.lost ≠ 0 → r.written - r.consumed.getD 0 + n ≤ r.size → inTime = true →
      let recs := (qs.zip (List.range qs.length)).map fun e => sampleWords s r (r.written + 1 + e.2) e.1
      ringUnit world r inTime s = put { r with written := r.written + n, lost := 0 }
        (writeRecords r r.written (periodWords s r qs.length :: recs) s))) ∧
  (∀ (r : Ring) (k : Nat) (recs : List (List Word)) (s : State),
    (writeRecords r k recs s).out = s.out ++ (recs.zip (List.range recs.length)).map fun e =>
      .dma r.fn (r.addr + (k + e.2) % r.size * 16) (bytesOfWords e.1))

/-- A step runs the command at the front of the queue with the queue's rest; with none it lets the queue pairs fetch what waits (the
model's choice, log entry 1), which leaves a block as it is whose pairs hold nothing. The table gives no row any bits: no word
spells a command. -/
def Obligations.StepRunsTheFrontCommand : Prop :=
  (∀ (c : Instr) (rest : List Instr) (s : State), s.pending = c :: rest → step s = exec c { s with pending := rest }) ∧
  (∀ s : State, s.pending = [] → step s = .next (pumpAll s)) ∧
  (∀ s : State, s.pending = [] → s.host.heldOrder = [] → (∀ e ∈ s.host.pairs, e.2.written = []) → step s = .next s) ∧
  (∀ (n w : Nat) (s : State), decodeTableWord n w = none ∧ s.withFetchWord n w = s)

/-- Whatever the state, a command of the block runs: none is refused by the model, and the only fault is that of an event or of a
packet that names an object which the part does not have (from R546 judges the targets that a packet names). A command packet of a
pair below 64 always answers a next state. What it says by the model's choice is in log entry 5. -/
def Obligations.EveryCommandRunsOrNamesNoObject : Prop :=
  (∀ (c : Instr) (s : State), (∃ t, exec c s = .next t) ∨ exec c s = .fault .noSuchObject) ∧
  (∀ (row : Packet → Instr) (op : OpSpec), (∀ p s, exec (row p) s = command op p s) →
    ∀ (p : Packet) (n : Nat) (s : State), p.src = .pair n → n < 64 → ∃ t, exec (row p) s = .next t)

/-- Completion of the command packets (from R40, R47, R57, R549): whichever row of the table carries it, a packet that is read, that no
ground of R549 refuses and that is not staged runs its opcode's handler on the state with the packet taken out of its queue, and ends
as the handler says: with OK and its result words in the reply, or in the result buffer where they are more than 13; as a command in
progress where it waits for an event; and with the handler's own answer where the opcode writes nothing that can be staged. -/
def Obligations.AcceptedPacketsComplete : Prop :=
  (∀ e ∈ packetRows, ∀ (p : Packet) (s : State), exec (e.1 p) s = command e.2 p s) ∧
  (∀ e ∈ packetRows, ∀ (p : Packet) (s : State), accepts e.2 p s = true →
    let f := fetched e.2 p s
    let r := e.2.run (ctxOf e.2 p f) f
    (∀ t ws, r = .done t ws → ws.length ≤ 13 → exec (e.1 p) s = .next (replyTo p .ok ws ws.length (kept e.2 f t))) ∧
    (∀ t ws, r = .done t ws → 13 < ws.length → holdsResult p (4 * ws.length) = true →
      exec (e.1 p) s = .next (replyTo p .ok [] (min 31 ws.length) (toBuffer p (bytesOfWords ws) (kept e.2 f t)))) ∧
    (∀ t data, r = .wait t data → exec (e.1 p) s = .next (setExecuting p e.2.code data (kept e.2 f t))) ∧
    (e.2.stage ≠ .stageable → (∀ t data, r ≠ .wait t data) →
      exec (e.1 p) s = .next (answer p (flagResultBuf p) (bufLenOf p) (keptAnswer e.2 f r) f)))

/-- Refusals (from R44, R46, R49, R50, R54, R549). A packet that is read and that a ground of R549 refuses changes nothing but its
pair, the programmable counters and what its reply does: the reply carries the ground's status and words. The grounds come in
order: LENGTH, SEQ, the header's reserved fields, the opcode's LENGTH, the master and the life cycle, the world, the safe
state, the target, the epoch's flags, the parameters' reserved fields, the data that cannot be fetched, and a unit out of service. What it says by
the model's choice is in log entry 11. -/
def Obligations.RefusedPacketsHaveNoEffect : Prop :=
  (∀ (row : Packet → Instr) (op : OpSpec), (∀ p s, exec (row p) s = command op p s) →
    ∀ (p : Packet) (st : Status) (ws : List Word) (s : State), readable op p s = true → judge op p s = some (st, ws) →
      exec (row p) s = .next (replyTo p st ws (min 13 ws.length) (fetched op p s))) ∧
  (∀ (op : OpSpec) (p : Packet) (n : Nat) (s : State), p.src = .pair n →
    fetched op p s = { s with host := { s.host with pairs := (fetched op p s).host.pairs },
                              ctr := { s.ctr with prog := (fetched op p s).ctr.prog } } ∧
    (∀ k, k ≠ n → pairAt (fetched op p s) k = pairAt s k) ∧ (pairAt (fetched op p s) n).seqExp = some (p.seq + 1)) ∧
  (∀ (op : OpSpec) (p : Packet) (s : State),
    (p.length.toNat < 8 ∨ 4096 < p.length.toNat → judge op p s = some (.badLength, [])) ∧
    (8 ≤ p.length.toNat → p.length.toNat ≤ 4096 →
      (∀ g, seqGround p s = some g → judge op p s = some g) ∧
      (seqGround p s = none →
        (∀ i, headerGround p = some i → judge op p s = some (.badReserved, [wd i])) ∧
        (headerGround p = none →
          ((paramWords p).length < descWords p ∨ op.len (ownWords p) = false → judge op p s = some (.badLength, [])) ∧
          (descWords p ≤ (paramWords p).length → op.len (ownWords p) = true →
            (∀ g, masterGround op p s = some g → judge op p s = some g) ∧
            (masterGround op p s = none →
              let frozen := (s.boot.state = .safe ∨ s.flt.frozen = true ∨ s.boot.restarting = true) ∧ op.code ∉ safeOps
              (worldOk op p s = false → judge op p s = some (.badWorld, [])) ∧
              (worldOk op p s = true → frozen → judge op p s = some (.busySafe, [])) ∧
              (worldOk op p s = true → ¬ frozen → targetOk op p = false → judge op p s = some (.badTarget, [])) ∧
              (worldOk op p s = true → ¬ frozen → targetOk op p = true →
                (∀ g, epochGround p s = some g → judge op p s = some g) ∧
                (epochGround p s = none →
                  (∀ i, paramGround op p = some i → judge op p s = some (.badReserved, [wd i])) ∧
                  (paramGround op p = none → flagData p = true → p.env.dataOk = false →
                    judge op p s = some (.dmaError, [wd 0])) ∧
                  (paramGround op p = none → flagData p = false ∨ p.env.dataOk = true → toFailed op p s = true →
                    judge op p s = some (.unitFailed, []))))))))))

/-- Staged commands (from R72, R545). A staged packet of an opcode that may be staged, which its own rules do not refuse on the staged content
and for which the staging area has room, waits for the activation: it joins the staged commands with the objects that it writes and its
charge, what it writes again is charged no more, and it is answered with OK; nothing else of the state changes but its pair and the
programmable counters. -/
def Obligations.StagedCommandsWaitForTheEpoch : Prop :=
  ∀ (row : Packet → Instr) (op : OpSpec), (∀ p s, exec (row p) s = command op p s) →
    ∀ (p : Packet) (s : State), acceptsStaged op p s = true →
      (∀ st ws, op.run { ctxOf op p (fetched op p s) with accepting := true } (staged (fetched op p s)).1 ≠ .refuse st ws) →
      hasRoom op p (fetched op p s) = true →
      exec (row p) s = .next (replyTo p .ok [] 0 (
        let f := fetched op p s
        let kept := f.epoch.cmds.map fun x => if x.objs.any (op.objs (ownWords p)).contains then { x with charge := 0 } else x
        let new : StagedCmd := { op := op.code, pkt := p, objs := op.objs (ownWords p), charge := stageCharge p }
        { f with epoch := { f.epoch with cmds := kept ++ [new] } }))

/-- Replies (from R42, R47, R57, R547, R548). A reply to a packet of a pair is written at once where its reply queue has room and none waits: its
16 words at RQ_TAIL, which moves on, PHASE inverted at the wrap, PENDING set, and the vector sent unless it is masked. With no room it
waits. A failed write sets ERROR 3 and loses it. A reply with status OK is left out under NO_REPLY. -/
def Obligations.RepliesEnterTheReplyQueue : Prop :=
  ∀ (p : Packet) (n : Nat) (st : Status) (ws : List Word) (count : Nat) (s : State), p.src = .pair n →
    let x := pairAt s n
    let r : Reply := { tag := p.tag, status := statusCode st, epoch := s.epoch.current, count := count, words := ws,
                       seq := p.seq, dmaOk := p.env.replyOk }
    (st = .ok → flagNoReply p = true → replyTo p st ws count s = s) ∧
    (st ≠ .ok ∨ flagNoReply p = false →
      (x.held = [] → x.rqTail + 1 ≠ x.rqHead → p.env.replyOk = true →
        let words := [pack [(p.tag.toNat, 16, 16), (statusCode st, 16, 0)],
                      pack [(b2n x.phase, 1, 31), (s.epoch.current.toNat, 16, 8), (count, 5, 0)]]
                     ++ (ws ++ List.replicate 13 0).take 13 ++ [wd p.seq.toNat]
        let new : Pair := { x with rqTail := x.rqTail + 1, phase := if x.rqTail + 1 = 0 then !x.phase else x.phase }
        let t := { s with out := s.out ++ [.reply n x.rqTail.toNat words],
                          host := { s.host with pairs := mset s.host.pairs n new, pending := s.host.pending ||| (1#64 <<< n) } }
        replyTo p st ws count s = if s.host.mask.getLsbD n then t else emit (.msix x.bound x.vector) t) ∧
      (x.held = [] → x.rqTail + 1 ≠ x.rqHead → p.env.replyOk = false →
        replyTo p st ws count s = updPair n (fun x => { x with error := 3 }) s) ∧
      (x.held ≠ [] ∨ x.rqTail + 1 = x.rqHead →
        replyTo p st ws count s = updPair n (fun x => { x with held := x.held ++ [r] }) s))

/-- The canonical form of the Hide memory is kept by every step: addresses rise strictly and no entry is what an unlisted address
reads as (0, the model's choice). What it says by the model's choice is in log entry 119. -/
def Obligations.MemoryStaysCanonical : Prop :=
  ∀ s t : State, Memory.wf s.mem.cells = true → step s = .next t → Memory.wf t.mem.cells = true

/-- Reset (from R42). The block right after reset masks every interrupt with none pending. By the model's choice (log entry 2) it
holds no command and no output, the module is BOOTING with no feed valid, at epoch 0 with nothing staged and no frame in flight,
and masks no notification; no port, terminal, frame, key slot or fault is there, every named counter is 0, and the memory, which
lists nothing, has its canonical form. -/
def Obligations.ResetHoldsTheSpecValues : Prop :=
  let s := State.reset
  s.pending = [] ∧ s.out = [] ∧ s.boot.state = .booting ∧ s.power.stage = .off ∧ s.power.a.valid = false ∧ s.power.b.valid = false ∧ s.epoch.current = 0 ∧ s.epoch.phase = .none ∧
  s.epoch.cmds = [] ∧ s.epoch.inFlight = 0 ∧ s.host.mask = BitVec.allOnes 64 ∧ s.host.pending = 0 ∧ s.host.notifyMask = 0 ∧
  s.pon.ports = [] ∧ s.pon.terms = [] ∧ s.pkt.flights = [] ∧ s.vault.slots = [] ∧ s.flt.table = [] ∧ s.flt.queue = [] ∧
  s.ctr.named = [] ∧ s.halter.stage = .outside ∧ Memory.wf s.mem.cells = true ∧ s.mem.cells = []

/-- An in-band packet is read as it was sent (from R5, R58, R407): the packet that a frame of TYPE 2 gives, its header words, parameters and
trailer laid out as bytes, is the packet itself with its OPCODE, whatever each of its fields holds. The setting in force at its first
cell (R78) is no part of its bytes. -/
def Obligations.InbandPacketsReadAsSent : Prop :=
  ∀ (op : Nat) (p : Packet) (env : Outside), op < 65536 →
    parsePacket (bytesOfWords (headerWords op p ++ p.params) ++ beBytes 16 p.trailer.toNat) env =
      some { op := op, pkt := { p with src := .pair 0, inband := {}, env := env } }

/-- R456. HALTER_EXIT is refused with NOT_PERMITTED when the module is neither in Halter nor entering it; nothing else changes. -/
def Obligations.HalterExitOutsideIsRefused : Prop :=
  ∀ (p : Packet) (s : State), accepts opHalterExit p s = true → s.halter.stage = .outside →
    exec (.halterExit p) s = .next (replyTo p .notPermitted [] 0 (fetched opHalterExit p s))

/-- R89. A PORT_CONFIG that changes a nonzero MODE to another nonzero MODE is refused with NOT_PERMITTED, and so is one that sets mode 4 or
5 while a port of the pair is not in mode 0. Where PORT_CONFIG ends with success, the port's mode is what it was, or was 0, or is 0. -/
def Obligations.PortModesChangeFromOrToZero : Prop :=
  (∀ (p : Packet) (s : State), accepts opPortConfig p s = true →
    let f := fetched opPortConfig p s
    let w := nthW (ownWords p) 0
    let i := fld w 5 0
    let mode := fld w 10 8
    let old := (portCfgAt f i).mode
    p.inst.toNat = i → (portAt f i).stopping = none → ¬ (paired f i = true ∧ i % 2 = 1) → mode ≤ 5 → (4 ≤ mode → i % 2 = 0) →
    ((old ≠ 0 ∧ mode ≠ 0 ∧ mode ≠ old) ∨ (4 ≤ mode ∧ old = 0 ∧ (portCfgAt f (i + 1)).mode ≠ 0)) →
    exec (.portConfig p) s = .next (replyTo p .notPermitted [] 0 f)) ∧
  (∀ (c : Ctx) (f t : State) (ws : List Word), opPortConfig.run c f = .done t ws →
    let i := fld (c.w 0) 5 0
    (portCfgAt t i).mode = (portCfgAt f i).mode ∨ (portCfgAt f i).mode = 0 ∨ (portCfgAt t i).mode = 0)
end

