-- ==== Sys2Proof/Laws/Ops.lean ====
section
/-! SUPPORT. What the shared operations leave unchanged: one lemma per operation and field. -/

namespace Sys2Proof.Machine

variable (s : State)


section Emit
variable (o : Out)

@[simp] theorem emit_pending : (emit o s).pending = s.pending := rfl
@[simp] theorem emit_mono : (emit o s).mono = s.mono := rfl
@[simp] theorem emit_free : (emit o s).free = s.free := rfl
@[simp] theorem emit_host : (emit o s).host = s.host := rfl
@[simp] theorem emit_epoch : (emit o s).epoch = s.epoch := rfl
@[simp] theorem emit_boot : (emit o s).boot = s.boot := rfl
@[simp] theorem emit_time : (emit o s).time = s.time := rfl
@[simp] theorem emit_flt : (emit o s).flt = s.flt := rfl
@[simp] theorem emit_pat : (emit o s).pat = s.pat := rfl
@[simp] theorem emit_evr : (emit o s).evr = s.evr := rfl
@[simp] theorem emit_ctr : (emit o s).ctr = s.ctr := rfl
@[simp] theorem emit_vault : (emit o s).vault = s.vault := rfl
@[simp] theorem emit_cipher : (emit o s).cipher = s.cipher := rfl
@[simp] theorem emit_power : (emit o s).power = s.power := rfl
@[simp] theorem emit_link : (emit o s).link = s.link := rfl
@[simp] theorem emit_halter : (emit o s).halter = s.halter := rfl
@[simp] theorem emit_pon : (emit o s).pon = s.pon := rfl
@[simp] theorem emit_weaver : (emit o s).weaver = s.weaver := rfl
@[simp] theorem emit_pkt : (emit o s).pkt = s.pkt := rfl
@[simp] theorem emit_rules : (emit o s).rules = s.rules := rfl
@[simp] theorem emit_tm : (emit o s).tm = s.tm := rfl
@[simp] theorem emit_mem : (emit o s).mem = s.mem := rfl

end Emit

section TakeFree

@[simp] theorem takeFree_pending : (takeFree s).pending = s.pending := rfl
@[simp] theorem takeFree_out : (takeFree s).out = s.out := rfl
@[simp] theorem takeFree_mono : (takeFree s).mono = s.mono := rfl
@[simp] theorem takeFree_host : (takeFree s).host = s.host := rfl
@[simp] theorem takeFree_epoch : (takeFree s).epoch = s.epoch := rfl
@[simp] theorem takeFree_boot : (takeFree s).boot = s.boot := rfl
@[simp] theorem takeFree_time : (takeFree s).time = s.time := rfl
@[simp] theorem takeFree_flt : (takeFree s).flt = s.flt := rfl
@[simp] theorem takeFree_pat : (takeFree s).pat = s.pat := rfl
@[simp] theorem takeFree_evr : (takeFree s).evr = s.evr := rfl
@[simp] theorem takeFree_ctr : (takeFree s).ctr = s.ctr := rfl
@[simp] theorem takeFree_vault : (takeFree s).vault = s.vault := rfl
@[simp] theorem takeFree_cipher : (takeFree s).cipher = s.cipher := rfl
@[simp] theorem takeFree_power : (takeFree s).power = s.power := rfl
@[simp] theorem takeFree_link : (takeFree s).link = s.link := rfl
@[simp] theorem takeFree_halter : (takeFree s).halter = s.halter := rfl
@[simp] theorem takeFree_pon : (takeFree s).pon = s.pon := rfl
@[simp] theorem takeFree_weaver : (takeFree s).weaver = s.weaver := rfl
@[simp] theorem takeFree_pkt : (takeFree s).pkt = s.pkt := rfl
@[simp] theorem takeFree_rules : (takeFree s).rules = s.rules := rfl
@[simp] theorem takeFree_tm : (takeFree s).tm = s.tm := rfl
@[simp] theorem takeFree_mem : (takeFree s).mem = s.mem := rfl

end TakeFree

section BumpBy
variable (k : CKey) (n : Nat)

@[simp] theorem bumpBy_pending : (bumpBy k n s).pending = s.pending := rfl
@[simp] theorem bumpBy_out : (bumpBy k n s).out = s.out := rfl
@[simp] theorem bumpBy_mono : (bumpBy k n s).mono = s.mono := rfl
@[simp] theorem bumpBy_free : (bumpBy k n s).free = s.free := rfl
@[simp] theorem bumpBy_host : (bumpBy k n s).host = s.host := rfl
@[simp] theorem bumpBy_epoch : (bumpBy k n s).epoch = s.epoch := rfl
@[simp] theorem bumpBy_boot : (bumpBy k n s).boot = s.boot := rfl
@[simp] theorem bumpBy_time : (bumpBy k n s).time = s.time := rfl
@[simp] theorem bumpBy_flt : (bumpBy k n s).flt = s.flt := rfl
@[simp] theorem bumpBy_pat : (bumpBy k n s).pat = s.pat := rfl
@[simp] theorem bumpBy_evr : (bumpBy k n s).evr = s.evr := rfl
@[simp] theorem bumpBy_vault : (bumpBy k n s).vault = s.vault := rfl
@[simp] theorem bumpBy_cipher : (bumpBy k n s).cipher = s.cipher := rfl
@[simp] theorem bumpBy_power : (bumpBy k n s).power = s.power := rfl
@[simp] theorem bumpBy_link : (bumpBy k n s).link = s.link := rfl
@[simp] theorem bumpBy_halter : (bumpBy k n s).halter = s.halter := rfl
@[simp] theorem bumpBy_pon : (bumpBy k n s).pon = s.pon := rfl
@[simp] theorem bumpBy_weaver : (bumpBy k n s).weaver = s.weaver := rfl
@[simp] theorem bumpBy_pkt : (bumpBy k n s).pkt = s.pkt := rfl
@[simp] theorem bumpBy_rules : (bumpBy k n s).rules = s.rules := rfl
@[simp] theorem bumpBy_tm : (bumpBy k n s).tm = s.tm := rfl
@[simp] theorem bumpBy_mem : (bumpBy k n s).mem = s.mem := rfl

end BumpBy

section Bump
variable (c scope idx : Nat)

@[simp] theorem bump_pending : (bump c scope idx s).pending = s.pending := rfl
@[simp] theorem bump_out : (bump c scope idx s).out = s.out := rfl
@[simp] theorem bump_mono : (bump c scope idx s).mono = s.mono := rfl
@[simp] theorem bump_free : (bump c scope idx s).free = s.free := rfl
@[simp] theorem bump_host : (bump c scope idx s).host = s.host := rfl
@[simp] theorem bump_epoch : (bump c scope idx s).epoch = s.epoch := rfl
@[simp] theorem bump_boot : (bump c scope idx s).boot = s.boot := rfl
@[simp] theorem bump_time : (bump c scope idx s).time = s.time := rfl
@[simp] theorem bump_flt : (bump c scope idx s).flt = s.flt := rfl
@[simp] theorem bump_pat : (bump c scope idx s).pat = s.pat := rfl
@[simp] theorem bump_evr : (bump c scope idx s).evr = s.evr := rfl
@[simp] theorem bump_vault : (bump c scope idx s).vault = s.vault := rfl
@[simp] theorem bump_cipher : (bump c scope idx s).cipher = s.cipher := rfl
@[simp] theorem bump_power : (bump c scope idx s).power = s.power := rfl
@[simp] theorem bump_link : (bump c scope idx s).link = s.link := rfl
@[simp] theorem bump_halter : (bump c scope idx s).halter = s.halter := rfl
@[simp] theorem bump_pon : (bump c scope idx s).pon = s.pon := rfl
@[simp] theorem bump_weaver : (bump c scope idx s).weaver = s.weaver := rfl
@[simp] theorem bump_pkt : (bump c scope idx s).pkt = s.pkt := rfl
@[simp] theorem bump_rules : (bump c scope idx s).rules = s.rules := rfl
@[simp] theorem bump_tm : (bump c scope idx s).tm = s.tm := rfl
@[simp] theorem bump_mem : (bump c scope idx s).mem = s.mem := rfl

end Bump

section BumpW
variable (c scope idx world : Nat)

@[simp] theorem bumpW_pending : (bumpW c scope idx world s).pending = s.pending := rfl
@[simp] theorem bumpW_out : (bumpW c scope idx world s).out = s.out := rfl
@[simp] theorem bumpW_mono : (bumpW c scope idx world s).mono = s.mono := rfl
@[simp] theorem bumpW_free : (bumpW c scope idx world s).free = s.free := rfl
@[simp] theorem bumpW_host : (bumpW c scope idx world s).host = s.host := rfl
@[simp] theorem bumpW_epoch : (bumpW c scope idx world s).epoch = s.epoch := rfl
@[simp] theorem bumpW_boot : (bumpW c scope idx world s).boot = s.boot := rfl
@[simp] theorem bumpW_time : (bumpW c scope idx world s).time = s.time := rfl
@[simp] theorem bumpW_flt : (bumpW c scope idx world s).flt = s.flt := rfl
@[simp] theorem bumpW_pat : (bumpW c scope idx world s).pat = s.pat := rfl
@[simp] theorem bumpW_evr : (bumpW c scope idx world s).evr = s.evr := rfl
@[simp] theorem bumpW_vault : (bumpW c scope idx world s).vault = s.vault := rfl
@[simp] theorem bumpW_cipher : (bumpW c scope idx world s).cipher = s.cipher := rfl
@[simp] theorem bumpW_power : (bumpW c scope idx world s).power = s.power := rfl
@[simp] theorem bumpW_link : (bumpW c scope idx world s).link = s.link := rfl
@[simp] theorem bumpW_halter : (bumpW c scope idx world s).halter = s.halter := rfl
@[simp] theorem bumpW_pon : (bumpW c scope idx world s).pon = s.pon := rfl
@[simp] theorem bumpW_weaver : (bumpW c scope idx world s).weaver = s.weaver := rfl
@[simp] theorem bumpW_pkt : (bumpW c scope idx world s).pkt = s.pkt := rfl
@[simp] theorem bumpW_rules : (bumpW c scope idx world s).rules = s.rules := rfl
@[simp] theorem bumpW_tm : (bumpW c scope idx world s).tm = s.tm := rfl
@[simp] theorem bumpW_mem : (bumpW c scope idx world s).mem = s.mem := rfl

end BumpW

section ClearCounters
variable (scope idx : Nat)

@[simp] theorem clearCounters_pending : (clearCounters scope idx s).pending = s.pending := rfl
@[simp] theorem clearCounters_out : (clearCounters scope idx s).out = s.out := rfl
@[simp] theorem clearCounters_mono : (clearCounters scope idx s).mono = s.mono := rfl
@[simp] theorem clearCounters_free : (clearCounters scope idx s).free = s.free := rfl
@[simp] theorem clearCounters_host : (clearCounters scope idx s).host = s.host := rfl
@[simp] theorem clearCounters_epoch : (clearCounters scope idx s).epoch = s.epoch := rfl
@[simp] theorem clearCounters_boot : (clearCounters scope idx s).boot = s.boot := rfl
@[simp] theorem clearCounters_time : (clearCounters scope idx s).time = s.time := rfl
@[simp] theorem clearCounters_flt : (clearCounters scope idx s).flt = s.flt := rfl
@[simp] theorem clearCounters_pat : (clearCounters scope idx s).pat = s.pat := rfl
@[simp] theorem clearCounters_evr : (clearCounters scope idx s).evr = s.evr := rfl
@[simp] theorem clearCounters_vault : (clearCounters scope idx s).vault = s.vault := rfl
@[simp] theorem clearCounters_cipher : (clearCounters scope idx s).cipher = s.cipher := rfl
@[simp] theorem clearCounters_power : (clearCounters scope idx s).power = s.power := rfl
@[simp] theorem clearCounters_link : (clearCounters scope idx s).link = s.link := rfl
@[simp] theorem clearCounters_halter : (clearCounters scope idx s).halter = s.halter := rfl
@[simp] theorem clearCounters_pon : (clearCounters scope idx s).pon = s.pon := rfl
@[simp] theorem clearCounters_weaver : (clearCounters scope idx s).weaver = s.weaver := rfl
@[simp] theorem clearCounters_pkt : (clearCounters scope idx s).pkt = s.pkt := rfl
@[simp] theorem clearCounters_rules : (clearCounters scope idx s).rules = s.rules := rfl
@[simp] theorem clearCounters_tm : (clearCounters scope idx s).tm = s.tm := rfl
@[simp] theorem clearCounters_mem : (clearCounters scope idx s).mem = s.mem := rfl

end ClearCounters

section CountEvent
variable (island ev world n : Nat)

@[simp] theorem countEvent_pending : (countEvent island ev world n s).pending = s.pending := rfl
@[simp] theorem countEvent_out : (countEvent island ev world n s).out = s.out := rfl
@[simp] theorem countEvent_mono : (countEvent island ev world n s).mono = s.mono := rfl
@[simp] theorem countEvent_free : (countEvent island ev world n s).free = s.free := rfl
@[simp] theorem countEvent_host : (countEvent island ev world n s).host = s.host := rfl
@[simp] theorem countEvent_epoch : (countEvent island ev world n s).epoch = s.epoch := rfl
@[simp] theorem countEvent_boot : (countEvent island ev world n s).boot = s.boot := rfl
@[simp] theorem countEvent_time : (countEvent island ev world n s).time = s.time := rfl
@[simp] theorem countEvent_flt : (countEvent island ev world n s).flt = s.flt := rfl
@[simp] theorem countEvent_pat : (countEvent island ev world n s).pat = s.pat := rfl
@[simp] theorem countEvent_evr : (countEvent island ev world n s).evr = s.evr := rfl
@[simp] theorem countEvent_vault : (countEvent island ev world n s).vault = s.vault := rfl
@[simp] theorem countEvent_cipher : (countEvent island ev world n s).cipher = s.cipher := rfl
@[simp] theorem countEvent_power : (countEvent island ev world n s).power = s.power := rfl
@[simp] theorem countEvent_link : (countEvent island ev world n s).link = s.link := rfl
@[simp] theorem countEvent_halter : (countEvent island ev world n s).halter = s.halter := rfl
@[simp] theorem countEvent_pon : (countEvent island ev world n s).pon = s.pon := rfl
@[simp] theorem countEvent_weaver : (countEvent island ev world n s).weaver = s.weaver := rfl
@[simp] theorem countEvent_pkt : (countEvent island ev world n s).pkt = s.pkt := rfl
@[simp] theorem countEvent_rules : (countEvent island ev world n s).rules = s.rules := rfl
@[simp] theorem countEvent_tm : (countEvent island ev world n s).tm = s.tm := rfl
@[simp] theorem countEvent_mem : (countEvent island ev world n s).mem = s.mem := rfl

end CountEvent

section FrameIn
variable (island world len : Nat)

@[simp] theorem frameIn_pending : (frameIn island world len s).pending = s.pending := rfl
@[simp] theorem frameIn_out : (frameIn island world len s).out = s.out := rfl
@[simp] theorem frameIn_mono : (frameIn island world len s).mono = s.mono := rfl
@[simp] theorem frameIn_free : (frameIn island world len s).free = s.free := rfl
@[simp] theorem frameIn_host : (frameIn island world len s).host = s.host := rfl
@[simp] theorem frameIn_epoch : (frameIn island world len s).epoch = s.epoch := rfl
@[simp] theorem frameIn_boot : (frameIn island world len s).boot = s.boot := rfl
@[simp] theorem frameIn_time : (frameIn island world len s).time = s.time := rfl
@[simp] theorem frameIn_flt : (frameIn island world len s).flt = s.flt := rfl
@[simp] theorem frameIn_pat : (frameIn island world len s).pat = s.pat := rfl
@[simp] theorem frameIn_evr : (frameIn island world len s).evr = s.evr := rfl
@[simp] theorem frameIn_vault : (frameIn island world len s).vault = s.vault := rfl
@[simp] theorem frameIn_cipher : (frameIn island world len s).cipher = s.cipher := rfl
@[simp] theorem frameIn_power : (frameIn island world len s).power = s.power := rfl
@[simp] theorem frameIn_link : (frameIn island world len s).link = s.link := rfl
@[simp] theorem frameIn_halter : (frameIn island world len s).halter = s.halter := rfl
@[simp] theorem frameIn_pon : (frameIn island world len s).pon = s.pon := rfl
@[simp] theorem frameIn_weaver : (frameIn island world len s).weaver = s.weaver := rfl
@[simp] theorem frameIn_pkt : (frameIn island world len s).pkt = s.pkt := rfl
@[simp] theorem frameIn_rules : (frameIn island world len s).rules = s.rules := rfl
@[simp] theorem frameIn_tm : (frameIn island world len s).tm = s.tm := rfl
@[simp] theorem frameIn_mem : (frameIn island world len s).mem = s.mem := rfl

end FrameIn

section RecordWith
variable (una : Bool) (typ code cplx unit inst world : Nat) (detail : List Word)

@[simp] theorem recordWith_pending : (recordWith una typ code cplx unit inst world detail s).pending = s.pending := by unfold recordWith; split <;> rfl
@[simp] theorem recordWith_out : (recordWith una typ code cplx unit inst world detail s).out = s.out := by unfold recordWith; split <;> rfl
@[simp] theorem recordWith_mono : (recordWith una typ code cplx unit inst world detail s).mono = s.mono := by unfold recordWith; split <;> rfl
@[simp] theorem recordWith_free : (recordWith una typ code cplx unit inst world detail s).free = s.free := by unfold recordWith; split <;> rfl
@[simp] theorem recordWith_host : (recordWith una typ code cplx unit inst world detail s).host = s.host := by unfold recordWith; split <;> rfl
@[simp] theorem recordWith_epoch : (recordWith una typ code cplx unit inst world detail s).epoch = s.epoch := by unfold recordWith; split <;> rfl
@[simp] theorem recordWith_boot : (recordWith una typ code cplx unit inst world detail s).boot = s.boot := by unfold recordWith; split <;> rfl
@[simp] theorem recordWith_time : (recordWith una typ code cplx unit inst world detail s).time = s.time := by unfold recordWith; split <;> rfl
@[simp] theorem recordWith_flt : (recordWith una typ code cplx unit inst world detail s).flt = s.flt := by unfold recordWith; split <;> rfl
@[simp] theorem recordWith_pat : (recordWith una typ code cplx unit inst world detail s).pat = s.pat := by unfold recordWith; split <;> rfl
@[simp] theorem recordWith_vault : (recordWith una typ code cplx unit inst world detail s).vault = s.vault := by unfold recordWith; split <;> rfl
@[simp] theorem recordWith_cipher : (recordWith una typ code cplx unit inst world detail s).cipher = s.cipher := by unfold recordWith; split <;> rfl
@[simp] theorem recordWith_power : (recordWith una typ code cplx unit inst world detail s).power = s.power := by unfold recordWith; split <;> rfl
@[simp] theorem recordWith_link : (recordWith una typ code cplx unit inst world detail s).link = s.link := by unfold recordWith; split <;> rfl
@[simp] theorem recordWith_halter : (recordWith una typ code cplx unit inst world detail s).halter = s.halter := by unfold recordWith; split <;> rfl
@[simp] theorem recordWith_pon : (recordWith una typ code cplx unit inst world detail s).pon = s.pon := by unfold recordWith; split <;> rfl
@[simp] theorem recordWith_weaver : (recordWith una typ code cplx unit inst world detail s).weaver = s.weaver := by unfold recordWith; split <;> rfl
@[simp] theorem recordWith_pkt : (recordWith una typ code cplx unit inst world detail s).pkt = s.pkt := by unfold recordWith; split <;> rfl
@[simp] theorem recordWith_rules : (recordWith una typ code cplx unit inst world detail s).rules = s.rules := by unfold recordWith; split <;> rfl
@[simp] theorem recordWith_tm : (recordWith una typ code cplx unit inst world detail s).tm = s.tm := by unfold recordWith; split <;> rfl
@[simp] theorem recordWith_mem : (recordWith una typ code cplx unit inst world detail s).mem = s.mem := by unfold recordWith; split <;> rfl

end RecordWith

section RecordEv
variable (typ code cplx unit inst world : Nat) (detail : List Word)

@[simp] theorem recordEv_pending : (recordEv typ code cplx unit inst world detail s).pending = s.pending := by simp [recordEv]
@[simp] theorem recordEv_out : (recordEv typ code cplx unit inst world detail s).out = s.out := by simp [recordEv]
@[simp] theorem recordEv_mono : (recordEv typ code cplx unit inst world detail s).mono = s.mono := by simp [recordEv]
@[simp] theorem recordEv_free : (recordEv typ code cplx unit inst world detail s).free = s.free := by simp [recordEv]
@[simp] theorem recordEv_host : (recordEv typ code cplx unit inst world detail s).host = s.host := by simp [recordEv]
@[simp] theorem recordEv_epoch : (recordEv typ code cplx unit inst world detail s).epoch = s.epoch := by simp [recordEv]
@[simp] theorem recordEv_boot : (recordEv typ code cplx unit inst world detail s).boot = s.boot := by simp [recordEv]
@[simp] theorem recordEv_time : (recordEv typ code cplx unit inst world detail s).time = s.time := by simp [recordEv]
@[simp] theorem recordEv_flt : (recordEv typ code cplx unit inst world detail s).flt = s.flt := by simp [recordEv]
@[simp] theorem recordEv_pat : (recordEv typ code cplx unit inst world detail s).pat = s.pat := by simp [recordEv]
@[simp] theorem recordEv_vault : (recordEv typ code cplx unit inst world detail s).vault = s.vault := by simp [recordEv]
@[simp] theorem recordEv_cipher : (recordEv typ code cplx unit inst world detail s).cipher = s.cipher := by simp [recordEv]
@[simp] theorem recordEv_power : (recordEv typ code cplx unit inst world detail s).power = s.power := by simp [recordEv]
@[simp] theorem recordEv_link : (recordEv typ code cplx unit inst world detail s).link = s.link := by simp [recordEv]
@[simp] theorem recordEv_halter : (recordEv typ code cplx unit inst world detail s).halter = s.halter := by simp [recordEv]
@[simp] theorem recordEv_pon : (recordEv typ code cplx unit inst world detail s).pon = s.pon := by simp [recordEv]
@[simp] theorem recordEv_weaver : (recordEv typ code cplx unit inst world detail s).weaver = s.weaver := by simp [recordEv]
@[simp] theorem recordEv_pkt : (recordEv typ code cplx unit inst world detail s).pkt = s.pkt := by simp [recordEv]
@[simp] theorem recordEv_rules : (recordEv typ code cplx unit inst world detail s).rules = s.rules := by simp [recordEv]
@[simp] theorem recordEv_tm : (recordEv typ code cplx unit inst world detail s).tm = s.tm := by simp [recordEv]
@[simp] theorem recordEv_mem : (recordEv typ code cplx unit inst world detail s).mem = s.mem := by simp [recordEv]

end RecordEv

section UpdPair
variable (q : Nat) (f : Pair → Pair)

@[simp] theorem updPair_pending : (updPair q f s).pending = s.pending := rfl
@[simp] theorem updPair_out : (updPair q f s).out = s.out := rfl
@[simp] theorem updPair_mono : (updPair q f s).mono = s.mono := rfl
@[simp] theorem updPair_free : (updPair q f s).free = s.free := rfl
@[simp] theorem updPair_epoch : (updPair q f s).epoch = s.epoch := rfl
@[simp] theorem updPair_boot : (updPair q f s).boot = s.boot := rfl
@[simp] theorem updPair_time : (updPair q f s).time = s.time := rfl
@[simp] theorem updPair_flt : (updPair q f s).flt = s.flt := rfl
@[simp] theorem updPair_pat : (updPair q f s).pat = s.pat := rfl
@[simp] theorem updPair_evr : (updPair q f s).evr = s.evr := rfl
@[simp] theorem updPair_ctr : (updPair q f s).ctr = s.ctr := rfl
@[simp] theorem updPair_vault : (updPair q f s).vault = s.vault := rfl
@[simp] theorem updPair_cipher : (updPair q f s).cipher = s.cipher := rfl
@[simp] theorem updPair_power : (updPair q f s).power = s.power := rfl
@[simp] theorem updPair_link : (updPair q f s).link = s.link := rfl
@[simp] theorem updPair_halter : (updPair q f s).halter = s.halter := rfl
@[simp] theorem updPair_pon : (updPair q f s).pon = s.pon := rfl
@[simp] theorem updPair_weaver : (updPair q f s).weaver = s.weaver := rfl
@[simp] theorem updPair_pkt : (updPair q f s).pkt = s.pkt := rfl
@[simp] theorem updPair_rules : (updPair q f s).rules = s.rules := rfl
@[simp] theorem updPair_tm : (updPair q f s).tm = s.tm := rfl
@[simp] theorem updPair_mem : (updPair q f s).mem = s.mem := rfl

end UpdPair

section WriteReply
variable (q : Nat) (r : Reply)

@[simp] theorem writeReply_pending : (writeReply q r s).pending = s.pending := by unfold writeReply; dsimp only; (repeat' split) <;> rfl
@[simp] theorem writeReply_mono : (writeReply q r s).mono = s.mono := by unfold writeReply; dsimp only; (repeat' split) <;> rfl
@[simp] theorem writeReply_free : (writeReply q r s).free = s.free := by unfold writeReply; dsimp only; (repeat' split) <;> rfl
@[simp] theorem writeReply_epoch : (writeReply q r s).epoch = s.epoch := by unfold writeReply; dsimp only; (repeat' split) <;> rfl
@[simp] theorem writeReply_boot : (writeReply q r s).boot = s.boot := by unfold writeReply; dsimp only; (repeat' split) <;> rfl
@[simp] theorem writeReply_time : (writeReply q r s).time = s.time := by unfold writeReply; dsimp only; (repeat' split) <;> rfl
@[simp] theorem writeReply_flt : (writeReply q r s).flt = s.flt := by unfold writeReply; dsimp only; (repeat' split) <;> rfl
@[simp] theorem writeReply_pat : (writeReply q r s).pat = s.pat := by unfold writeReply; dsimp only; (repeat' split) <;> rfl
@[simp] theorem writeReply_evr : (writeReply q r s).evr = s.evr := by unfold writeReply; dsimp only; (repeat' split) <;> rfl
@[simp] theorem writeReply_ctr : (writeReply q r s).ctr = s.ctr := by unfold writeReply; dsimp only; (repeat' split) <;> rfl
@[simp] theorem writeReply_vault : (writeReply q r s).vault = s.vault := by unfold writeReply; dsimp only; (repeat' split) <;> rfl
@[simp] theorem writeReply_cipher : (writeReply q r s).cipher = s.cipher := by unfold writeReply; dsimp only; (repeat' split) <;> rfl
@[simp] theorem writeReply_power : (writeReply q r s).power = s.power := by unfold writeReply; dsimp only; (repeat' split) <;> rfl
@[simp] theorem writeReply_link : (writeReply q r s).link = s.link := by unfold writeReply; dsimp only; (repeat' split) <;> rfl
@[simp] theorem writeReply_halter : (writeReply q r s).halter = s.halter := by unfold writeReply; dsimp only; (repeat' split) <;> rfl
@[simp] theorem writeReply_pon : (writeReply q r s).pon = s.pon := by unfold writeReply; dsimp only; (repeat' split) <;> rfl
@[simp] theorem writeReply_weaver : (writeReply q r s).weaver = s.weaver := by unfold writeReply; dsimp only; (repeat' split) <;> rfl
@[simp] theorem writeReply_pkt : (writeReply q r s).pkt = s.pkt := by unfold writeReply; dsimp only; (repeat' split) <;> rfl
@[simp] theorem writeReply_rules : (writeReply q r s).rules = s.rules := by unfold writeReply; dsimp only; (repeat' split) <;> rfl
@[simp] theorem writeReply_tm : (writeReply q r s).tm = s.tm := by unfold writeReply; dsimp only; (repeat' split) <;> rfl
@[simp] theorem writeReply_mem : (writeReply q r s).mem = s.mem := by unfold writeReply; dsimp only; (repeat' split) <;> rfl

end WriteReply

section PostReply
variable (q : Nat) (r : Reply)

@[simp] theorem postReply_pending : (postReply q r s).pending = s.pending := by unfold postReply; dsimp only; (repeat' split) <;> simp
@[simp] theorem postReply_mono : (postReply q r s).mono = s.mono := by unfold postReply; dsimp only; (repeat' split) <;> simp
@[simp] theorem postReply_free : (postReply q r s).free = s.free := by unfold postReply; dsimp only; (repeat' split) <;> simp
@[simp] theorem postReply_epoch : (postReply q r s).epoch = s.epoch := by unfold postReply; dsimp only; (repeat' split) <;> simp
@[simp] theorem postReply_boot : (postReply q r s).boot = s.boot := by unfold postReply; dsimp only; (repeat' split) <;> simp
@[simp] theorem postReply_time : (postReply q r s).time = s.time := by unfold postReply; dsimp only; (repeat' split) <;> simp
@[simp] theorem postReply_flt : (postReply q r s).flt = s.flt := by unfold postReply; dsimp only; (repeat' split) <;> simp
@[simp] theorem postReply_pat : (postReply q r s).pat = s.pat := by unfold postReply; dsimp only; (repeat' split) <;> simp
@[simp] theorem postReply_evr : (postReply q r s).evr = s.evr := by unfold postReply; dsimp only; (repeat' split) <;> simp
@[simp] theorem postReply_vault : (postReply q r s).vault = s.vault := by unfold postReply; dsimp only; (repeat' split) <;> simp
@[simp] theorem postReply_cipher : (postReply q r s).cipher = s.cipher := by unfold postReply; dsimp only; (repeat' split) <;> simp
@[simp] theorem postReply_power : (postReply q r s).power = s.power := by unfold postReply; dsimp only; (repeat' split) <;> simp
@[simp] theorem postReply_link : (postReply q r s).link = s.link := by unfold postReply; dsimp only; (repeat' split) <;> simp
@[simp] theorem postReply_halter : (postReply q r s).halter = s.halter := by unfold postReply; dsimp only; (repeat' split) <;> simp
@[simp] theorem postReply_pon : (postReply q r s).pon = s.pon := by unfold postReply; dsimp only; (repeat' split) <;> simp
@[simp] theorem postReply_weaver : (postReply q r s).weaver = s.weaver := by unfold postReply; dsimp only; (repeat' split) <;> simp
@[simp] theorem postReply_pkt : (postReply q r s).pkt = s.pkt := by unfold postReply; dsimp only; (repeat' split) <;> simp
@[simp] theorem postReply_rules : (postReply q r s).rules = s.rules := by unfold postReply; dsimp only; (repeat' split) <;> simp
@[simp] theorem postReply_tm : (postReply q r s).tm = s.tm := by unfold postReply; dsimp only; (repeat' split) <;> simp
@[simp] theorem postReply_mem : (postReply q r s).mem = s.mem := by unfold postReply; dsimp only; (repeat' split) <;> simp

end PostReply

section NotifyForced
variable (n : Note) (ws : List Word)

@[simp] theorem notifyForced_pending : (notifyForced n ws s).pending = s.pending := by simp [notifyForced]
@[simp] theorem notifyForced_mono : (notifyForced n ws s).mono = s.mono := by simp [notifyForced]
@[simp] theorem notifyForced_free : (notifyForced n ws s).free = s.free := by simp [notifyForced]
@[simp] theorem notifyForced_epoch : (notifyForced n ws s).epoch = s.epoch := by simp [notifyForced]
@[simp] theorem notifyForced_boot : (notifyForced n ws s).boot = s.boot := by simp [notifyForced]
@[simp] theorem notifyForced_time : (notifyForced n ws s).time = s.time := by simp [notifyForced]
@[simp] theorem notifyForced_flt : (notifyForced n ws s).flt = s.flt := by simp [notifyForced]
@[simp] theorem notifyForced_pat : (notifyForced n ws s).pat = s.pat := by simp [notifyForced]
@[simp] theorem notifyForced_evr : (notifyForced n ws s).evr = s.evr := by simp [notifyForced]
@[simp] theorem notifyForced_vault : (notifyForced n ws s).vault = s.vault := by simp [notifyForced]
@[simp] theorem notifyForced_cipher : (notifyForced n ws s).cipher = s.cipher := by simp [notifyForced]
@[simp] theorem notifyForced_power : (notifyForced n ws s).power = s.power := by simp [notifyForced]
@[simp] theorem notifyForced_link : (notifyForced n ws s).link = s.link := by simp [notifyForced]
@[simp] theorem notifyForced_halter : (notifyForced n ws s).halter = s.halter := by simp [notifyForced]
@[simp] theorem notifyForced_pon : (notifyForced n ws s).pon = s.pon := by simp [notifyForced]
@[simp] theorem notifyForced_weaver : (notifyForced n ws s).weaver = s.weaver := by simp [notifyForced]
@[simp] theorem notifyForced_pkt : (notifyForced n ws s).pkt = s.pkt := by simp [notifyForced]
@[simp] theorem notifyForced_rules : (notifyForced n ws s).rules = s.rules := by simp [notifyForced]
@[simp] theorem notifyForced_tm : (notifyForced n ws s).tm = s.tm := by simp [notifyForced]
@[simp] theorem notifyForced_mem : (notifyForced n ws s).mem = s.mem := by simp [notifyForced]

end NotifyForced

section Notify
variable (n : Note) (ws : List Word)

@[simp] theorem notify_pending : (notify n ws s).pending = s.pending := by unfold notify; split <;> simp
@[simp] theorem notify_mono : (notify n ws s).mono = s.mono := by unfold notify; split <;> simp
@[simp] theorem notify_free : (notify n ws s).free = s.free := by unfold notify; split <;> simp
@[simp] theorem notify_epoch : (notify n ws s).epoch = s.epoch := by unfold notify; split <;> simp
@[simp] theorem notify_boot : (notify n ws s).boot = s.boot := by unfold notify; split <;> simp
@[simp] theorem notify_time : (notify n ws s).time = s.time := by unfold notify; split <;> simp
@[simp] theorem notify_flt : (notify n ws s).flt = s.flt := by unfold notify; split <;> simp
@[simp] theorem notify_pat : (notify n ws s).pat = s.pat := by unfold notify; split <;> simp
@[simp] theorem notify_evr : (notify n ws s).evr = s.evr := by unfold notify; split <;> simp
@[simp] theorem notify_vault : (notify n ws s).vault = s.vault := by unfold notify; split <;> simp
@[simp] theorem notify_cipher : (notify n ws s).cipher = s.cipher := by unfold notify; split <;> simp
@[simp] theorem notify_power : (notify n ws s).power = s.power := by unfold notify; split <;> simp
@[simp] theorem notify_link : (notify n ws s).link = s.link := by unfold notify; split <;> simp
@[simp] theorem notify_halter : (notify n ws s).halter = s.halter := by unfold notify; split <;> simp
@[simp] theorem notify_pon : (notify n ws s).pon = s.pon := by unfold notify; split <;> simp
@[simp] theorem notify_weaver : (notify n ws s).weaver = s.weaver := by unfold notify; split <;> simp
@[simp] theorem notify_pkt : (notify n ws s).pkt = s.pkt := by unfold notify; split <;> simp
@[simp] theorem notify_rules : (notify n ws s).rules = s.rules := by unfold notify; split <;> simp
@[simp] theorem notify_tm : (notify n ws s).tm = s.tm := by unfold notify; split <;> simp
@[simp] theorem notify_mem : (notify n ws s).mem = s.mem := by unfold notify; split <;> simp

end Notify

section StateChange
variable (w : Nat) (ws : List Word)

@[simp] theorem stateChange_pending : (stateChange w ws s).pending = s.pending := by simp [stateChange]
@[simp] theorem stateChange_mono : (stateChange w ws s).mono = s.mono := by simp [stateChange]
@[simp] theorem stateChange_free : (stateChange w ws s).free = s.free := by simp [stateChange]
@[simp] theorem stateChange_epoch : (stateChange w ws s).epoch = s.epoch := by simp [stateChange]
@[simp] theorem stateChange_boot : (stateChange w ws s).boot = s.boot := by simp [stateChange]
@[simp] theorem stateChange_time : (stateChange w ws s).time = s.time := by simp [stateChange]
@[simp] theorem stateChange_flt : (stateChange w ws s).flt = s.flt := by simp [stateChange]
@[simp] theorem stateChange_pat : (stateChange w ws s).pat = s.pat := by simp [stateChange]
@[simp] theorem stateChange_evr : (stateChange w ws s).evr = s.evr := by simp [stateChange]
@[simp] theorem stateChange_vault : (stateChange w ws s).vault = s.vault := by simp [stateChange]
@[simp] theorem stateChange_cipher : (stateChange w ws s).cipher = s.cipher := by simp [stateChange]
@[simp] theorem stateChange_power : (stateChange w ws s).power = s.power := by simp [stateChange]
@[simp] theorem stateChange_link : (stateChange w ws s).link = s.link := by simp [stateChange]
@[simp] theorem stateChange_halter : (stateChange w ws s).halter = s.halter := by simp [stateChange]
@[simp] theorem stateChange_pon : (stateChange w ws s).pon = s.pon := by simp [stateChange]
@[simp] theorem stateChange_weaver : (stateChange w ws s).weaver = s.weaver := by simp [stateChange]
@[simp] theorem stateChange_pkt : (stateChange w ws s).pkt = s.pkt := by simp [stateChange]
@[simp] theorem stateChange_rules : (stateChange w ws s).rules = s.rules := by simp [stateChange]
@[simp] theorem stateChange_tm : (stateChange w ws s).tm = s.tm := by simp [stateChange]
@[simp] theorem stateChange_mem : (stateChange w ws s).mem = s.mem := by simp [stateChange]

end StateChange

section DiscardEpoch

@[simp] theorem discardEpoch_pending : (discardEpoch s).pending = s.pending := rfl
@[simp] theorem discardEpoch_out : (discardEpoch s).out = s.out := rfl
@[simp] theorem discardEpoch_mono : (discardEpoch s).mono = s.mono := rfl
@[simp] theorem discardEpoch_free : (discardEpoch s).free = s.free := rfl
@[simp] theorem discardEpoch_host : (discardEpoch s).host = s.host := rfl
@[simp] theorem discardEpoch_boot : (discardEpoch s).boot = s.boot := rfl
@[simp] theorem discardEpoch_time : (discardEpoch s).time = s.time := rfl
@[simp] theorem discardEpoch_flt : (discardEpoch s).flt = s.flt := rfl
@[simp] theorem discardEpoch_pat : (discardEpoch s).pat = s.pat := rfl
@[simp] theorem discardEpoch_evr : (discardEpoch s).evr = s.evr := rfl
@[simp] theorem discardEpoch_ctr : (discardEpoch s).ctr = s.ctr := rfl
@[simp] theorem discardEpoch_vault : (discardEpoch s).vault = s.vault := rfl
@[simp] theorem discardEpoch_cipher : (discardEpoch s).cipher = s.cipher := rfl
@[simp] theorem discardEpoch_power : (discardEpoch s).power = s.power := rfl
@[simp] theorem discardEpoch_link : (discardEpoch s).link = s.link := rfl
@[simp] theorem discardEpoch_halter : (discardEpoch s).halter = s.halter := rfl
@[simp] theorem discardEpoch_pon : (discardEpoch s).pon = s.pon := rfl
@[simp] theorem discardEpoch_weaver : (discardEpoch s).weaver = s.weaver := rfl
@[simp] theorem discardEpoch_pkt : (discardEpoch s).pkt = s.pkt := rfl
@[simp] theorem discardEpoch_rules : (discardEpoch s).rules = s.rules := rfl
@[simp] theorem discardEpoch_tm : (discardEpoch s).tm = s.tm := rfl
@[simp] theorem discardEpoch_mem : (discardEpoch s).mem = s.mem := rfl

end DiscardEpoch

section CancelEpoch
variable (code : Nat)

@[simp] theorem cancelEpoch_pending : (cancelEpoch code s).pending = s.pending := by unfold cancelEpoch; split <;> simp
@[simp] theorem cancelEpoch_mono : (cancelEpoch code s).mono = s.mono := by unfold cancelEpoch; split <;> simp
@[simp] theorem cancelEpoch_free : (cancelEpoch code s).free = s.free := by unfold cancelEpoch; split <;> simp
@[simp] theorem cancelEpoch_boot : (cancelEpoch code s).boot = s.boot := by unfold cancelEpoch; split <;> simp
@[simp] theorem cancelEpoch_time : (cancelEpoch code s).time = s.time := by unfold cancelEpoch; split <;> simp
@[simp] theorem cancelEpoch_flt : (cancelEpoch code s).flt = s.flt := by unfold cancelEpoch; split <;> simp
@[simp] theorem cancelEpoch_pat : (cancelEpoch code s).pat = s.pat := by unfold cancelEpoch; split <;> simp
@[simp] theorem cancelEpoch_vault : (cancelEpoch code s).vault = s.vault := by unfold cancelEpoch; split <;> simp
@[simp] theorem cancelEpoch_cipher : (cancelEpoch code s).cipher = s.cipher := by unfold cancelEpoch; split <;> simp
@[simp] theorem cancelEpoch_power : (cancelEpoch code s).power = s.power := by unfold cancelEpoch; split <;> simp
@[simp] theorem cancelEpoch_link : (cancelEpoch code s).link = s.link := by unfold cancelEpoch; split <;> simp
@[simp] theorem cancelEpoch_halter : (cancelEpoch code s).halter = s.halter := by unfold cancelEpoch; split <;> simp
@[simp] theorem cancelEpoch_pon : (cancelEpoch code s).pon = s.pon := by unfold cancelEpoch; split <;> simp
@[simp] theorem cancelEpoch_weaver : (cancelEpoch code s).weaver = s.weaver := by unfold cancelEpoch; split <;> simp
@[simp] theorem cancelEpoch_pkt : (cancelEpoch code s).pkt = s.pkt := by unfold cancelEpoch; split <;> simp
@[simp] theorem cancelEpoch_rules : (cancelEpoch code s).rules = s.rules := by unfold cancelEpoch; split <;> simp
@[simp] theorem cancelEpoch_tm : (cancelEpoch code s).tm = s.tm := by unfold cancelEpoch; split <;> simp
@[simp] theorem cancelEpoch_mem : (cancelEpoch code s).mem = s.mem := by unfold cancelEpoch; split <;> simp

end CancelEpoch

section Strike
variable (e : Err)

@[simp] theorem strike_pending : (strike e s).pending = s.pending := by unfold strike; dsimp only; split <;> simp
@[simp] theorem strike_mono : (strike e s).mono = s.mono := by unfold strike; dsimp only; split <;> simp
@[simp] theorem strike_free : (strike e s).free = s.free := by unfold strike; dsimp only; split <;> simp
@[simp] theorem strike_boot : (strike e s).boot = s.boot := by unfold strike; dsimp only; split <;> simp
@[simp] theorem strike_time : (strike e s).time = s.time := by unfold strike; dsimp only; split <;> simp
@[simp] theorem strike_pat : (strike e s).pat = s.pat := by unfold strike; dsimp only; split <;> simp
@[simp] theorem strike_vault : (strike e s).vault = s.vault := by unfold strike; dsimp only; split <;> simp
@[simp] theorem strike_cipher : (strike e s).cipher = s.cipher := by unfold strike; dsimp only; split <;> simp
@[simp] theorem strike_power : (strike e s).power = s.power := by unfold strike; dsimp only; split <;> simp
@[simp] theorem strike_link : (strike e s).link = s.link := by unfold strike; dsimp only; split <;> simp
@[simp] theorem strike_halter : (strike e s).halter = s.halter := by unfold strike; dsimp only; split <;> simp
@[simp] theorem strike_pon : (strike e s).pon = s.pon := by unfold strike; dsimp only; split <;> simp
@[simp] theorem strike_weaver : (strike e s).weaver = s.weaver := by unfold strike; dsimp only; split <;> simp
@[simp] theorem strike_pkt : (strike e s).pkt = s.pkt := by unfold strike; dsimp only; split <;> simp
@[simp] theorem strike_rules : (strike e s).rules = s.rules := by unfold strike; dsimp only; split <;> simp
@[simp] theorem strike_tm : (strike e s).tm = s.tm := by unfold strike; dsimp only; split <;> simp
@[simp] theorem strike_mem : (strike e s).mem = s.mem := by unfold strike; dsimp only; split <;> simp

end Strike

section Strikes
variable (e : Err)

@[simp] theorem strikes_pending : (strikes e s).pending = s.pending := by unfold strikes; split <;> simp
@[simp] theorem strikes_mono : (strikes e s).mono = s.mono := by unfold strikes; split <;> simp
@[simp] theorem strikes_free : (strikes e s).free = s.free := by unfold strikes; split <;> simp
@[simp] theorem strikes_boot : (strikes e s).boot = s.boot := by unfold strikes; split <;> simp
@[simp] theorem strikes_time : (strikes e s).time = s.time := by unfold strikes; split <;> simp
@[simp] theorem strikes_pat : (strikes e s).pat = s.pat := by unfold strikes; split <;> simp
@[simp] theorem strikes_vault : (strikes e s).vault = s.vault := by unfold strikes; split <;> simp
@[simp] theorem strikes_cipher : (strikes e s).cipher = s.cipher := by unfold strikes; split <;> simp
@[simp] theorem strikes_power : (strikes e s).power = s.power := by unfold strikes; split <;> simp
@[simp] theorem strikes_link : (strikes e s).link = s.link := by unfold strikes; split <;> simp
@[simp] theorem strikes_halter : (strikes e s).halter = s.halter := by unfold strikes; split <;> simp
@[simp] theorem strikes_pon : (strikes e s).pon = s.pon := by unfold strikes; split <;> simp
@[simp] theorem strikes_weaver : (strikes e s).weaver = s.weaver := by unfold strikes; split <;> simp
@[simp] theorem strikes_pkt : (strikes e s).pkt = s.pkt := by unfold strikes; split <;> simp
@[simp] theorem strikes_rules : (strikes e s).rules = s.rules := by unfold strikes; split <;> simp
@[simp] theorem strikes_tm : (strikes e s).tm = s.tm := by unfold strikes; split <;> simp
@[simp] theorem strikes_mem : (strikes e s).mem = s.mem := by unfold strikes; split <;> simp

end Strikes

section TakeUp

@[simp] theorem takeUp_pending : (takeUp s).pending = s.pending := by unfold takeUp; (repeat' split) <;> rfl
@[simp] theorem takeUp_out : (takeUp s).out = s.out := by unfold takeUp; (repeat' split) <;> rfl
@[simp] theorem takeUp_mono : (takeUp s).mono = s.mono := by unfold takeUp; (repeat' split) <;> rfl
@[simp] theorem takeUp_free : (takeUp s).free = s.free := by unfold takeUp; (repeat' split) <;> rfl
@[simp] theorem takeUp_host : (takeUp s).host = s.host := by unfold takeUp; (repeat' split) <;> rfl
@[simp] theorem takeUp_epoch : (takeUp s).epoch = s.epoch := by unfold takeUp; (repeat' split) <;> rfl
@[simp] theorem takeUp_boot : (takeUp s).boot = s.boot := by unfold takeUp; (repeat' split) <;> rfl
@[simp] theorem takeUp_time : (takeUp s).time = s.time := by unfold takeUp; (repeat' split) <;> rfl
@[simp] theorem takeUp_pat : (takeUp s).pat = s.pat := by unfold takeUp; (repeat' split) <;> rfl
@[simp] theorem takeUp_evr : (takeUp s).evr = s.evr := by unfold takeUp; (repeat' split) <;> rfl
@[simp] theorem takeUp_ctr : (takeUp s).ctr = s.ctr := by unfold takeUp; (repeat' split) <;> rfl
@[simp] theorem takeUp_vault : (takeUp s).vault = s.vault := by unfold takeUp; (repeat' split) <;> rfl
@[simp] theorem takeUp_cipher : (takeUp s).cipher = s.cipher := by unfold takeUp; (repeat' split) <;> rfl
@[simp] theorem takeUp_power : (takeUp s).power = s.power := by unfold takeUp; (repeat' split) <;> rfl
@[simp] theorem takeUp_link : (takeUp s).link = s.link := by unfold takeUp; (repeat' split) <;> rfl
@[simp] theorem takeUp_halter : (takeUp s).halter = s.halter := by unfold takeUp; (repeat' split) <;> rfl
@[simp] theorem takeUp_pon : (takeUp s).pon = s.pon := by unfold takeUp; (repeat' split) <;> rfl
@[simp] theorem takeUp_weaver : (takeUp s).weaver = s.weaver := by unfold takeUp; (repeat' split) <;> rfl
@[simp] theorem takeUp_pkt : (takeUp s).pkt = s.pkt := by unfold takeUp; (repeat' split) <;> rfl
@[simp] theorem takeUp_rules : (takeUp s).rules = s.rules := by unfold takeUp; (repeat' split) <;> rfl
@[simp] theorem takeUp_tm : (takeUp s).tm = s.tm := by unfold takeUp; (repeat' split) <;> rfl
@[simp] theorem takeUp_mem : (takeUp s).mem = s.mem := by unfold takeUp; (repeat' split) <;> rfl

end TakeUp

section EnqueueErr
variable (e : Err)

@[simp] theorem enqueueErr_pending : (enqueueErr e s).pending = s.pending := by unfold enqueueErr; dsimp only; (repeat' split) <;> simp
@[simp] theorem enqueueErr_mono : (enqueueErr e s).mono = s.mono := by unfold enqueueErr; dsimp only; (repeat' split) <;> simp
@[simp] theorem enqueueErr_free : (enqueueErr e s).free = s.free := by unfold enqueueErr; dsimp only; (repeat' split) <;> simp
@[simp] theorem enqueueErr_boot : (enqueueErr e s).boot = s.boot := by unfold enqueueErr; dsimp only; (repeat' split) <;> simp
@[simp] theorem enqueueErr_time : (enqueueErr e s).time = s.time := by unfold enqueueErr; dsimp only; (repeat' split) <;> simp
@[simp] theorem enqueueErr_pat : (enqueueErr e s).pat = s.pat := by unfold enqueueErr; dsimp only; (repeat' split) <;> simp
@[simp] theorem enqueueErr_vault : (enqueueErr e s).vault = s.vault := by unfold enqueueErr; dsimp only; (repeat' split) <;> simp
@[simp] theorem enqueueErr_cipher : (enqueueErr e s).cipher = s.cipher := by unfold enqueueErr; dsimp only; (repeat' split) <;> simp
@[simp] theorem enqueueErr_power : (enqueueErr e s).power = s.power := by unfold enqueueErr; dsimp only; (repeat' split) <;> simp
@[simp] theorem enqueueErr_link : (enqueueErr e s).link = s.link := by unfold enqueueErr; dsimp only; (repeat' split) <;> simp
@[simp] theorem enqueueErr_halter : (enqueueErr e s).halter = s.halter := by unfold enqueueErr; dsimp only; (repeat' split) <;> simp
@[simp] theorem enqueueErr_pon : (enqueueErr e s).pon = s.pon := by unfold enqueueErr; dsimp only; (repeat' split) <;> simp
@[simp] theorem enqueueErr_weaver : (enqueueErr e s).weaver = s.weaver := by unfold enqueueErr; dsimp only; (repeat' split) <;> simp
@[simp] theorem enqueueErr_pkt : (enqueueErr e s).pkt = s.pkt := by unfold enqueueErr; dsimp only; (repeat' split) <;> simp
@[simp] theorem enqueueErr_rules : (enqueueErr e s).rules = s.rules := by unfold enqueueErr; dsimp only; (repeat' split) <;> simp
@[simp] theorem enqueueErr_tm : (enqueueErr e s).tm = s.tm := by unfold enqueueErr; dsimp only; (repeat' split) <;> simp
@[simp] theorem enqueueErr_mem : (enqueueErr e s).mem = s.mem := by unfold enqueueErr; dsimp only; (repeat' split) <;> simp

end EnqueueErr

section Report
variable (e : Err)

@[simp] theorem report_pending : (report e s).pending = s.pending := by unfold report; dsimp only; (repeat' split) <;> simp
@[simp] theorem report_mono : (report e s).mono = s.mono := by unfold report; dsimp only; (repeat' split) <;> simp
@[simp] theorem report_free : (report e s).free = s.free := by unfold report; dsimp only; (repeat' split) <;> simp
@[simp] theorem report_boot : (report e s).boot = s.boot := by unfold report; dsimp only; (repeat' split) <;> simp
@[simp] theorem report_time : (report e s).time = s.time := by unfold report; dsimp only; (repeat' split) <;> simp
@[simp] theorem report_pat : (report e s).pat = s.pat := by unfold report; dsimp only; (repeat' split) <;> simp
@[simp] theorem report_vault : (report e s).vault = s.vault := by unfold report; dsimp only; (repeat' split) <;> simp
@[simp] theorem report_cipher : (report e s).cipher = s.cipher := by unfold report; dsimp only; (repeat' split) <;> simp
@[simp] theorem report_power : (report e s).power = s.power := by unfold report; dsimp only; (repeat' split) <;> simp
@[simp] theorem report_link : (report e s).link = s.link := by unfold report; dsimp only; (repeat' split) <;> simp
@[simp] theorem report_halter : (report e s).halter = s.halter := by unfold report; dsimp only; (repeat' split) <;> simp
@[simp] theorem report_pon : (report e s).pon = s.pon := by unfold report; dsimp only; (repeat' split) <;> simp
@[simp] theorem report_weaver : (report e s).weaver = s.weaver := by unfold report; dsimp only; (repeat' split) <;> simp
@[simp] theorem report_pkt : (report e s).pkt = s.pkt := by unfold report; dsimp only; (repeat' split) <;> simp
@[simp] theorem report_rules : (report e s).rules = s.rules := by unfold report; dsimp only; (repeat' split) <;> simp
@[simp] theorem report_tm : (report e s).tm = s.tm := by unfold report; dsimp only; (repeat' split) <;> simp
@[simp] theorem report_mem : (report e s).mem = s.mem := by unfold report; dsimp only; (repeat' split) <;> simp

end Report

section Raise
variable (cplx unit inst res code cls : Nat) (d : Word)

@[simp] theorem raise_pending : (raise cplx unit inst res code cls d s).pending = s.pending := by simp [raise]
@[simp] theorem raise_mono : (raise cplx unit inst res code cls d s).mono = s.mono := by simp [raise]
@[simp] theorem raise_free : (raise cplx unit inst res code cls d s).free = s.free := by simp [raise]
@[simp] theorem raise_boot : (raise cplx unit inst res code cls d s).boot = s.boot := by simp [raise]
@[simp] theorem raise_time : (raise cplx unit inst res code cls d s).time = s.time := by simp [raise]
@[simp] theorem raise_pat : (raise cplx unit inst res code cls d s).pat = s.pat := by simp [raise]
@[simp] theorem raise_vault : (raise cplx unit inst res code cls d s).vault = s.vault := by simp [raise]
@[simp] theorem raise_cipher : (raise cplx unit inst res code cls d s).cipher = s.cipher := by simp [raise]
@[simp] theorem raise_power : (raise cplx unit inst res code cls d s).power = s.power := by simp [raise]
@[simp] theorem raise_link : (raise cplx unit inst res code cls d s).link = s.link := by simp [raise]
@[simp] theorem raise_halter : (raise cplx unit inst res code cls d s).halter = s.halter := by simp [raise]
@[simp] theorem raise_pon : (raise cplx unit inst res code cls d s).pon = s.pon := by simp [raise]
@[simp] theorem raise_weaver : (raise cplx unit inst res code cls d s).weaver = s.weaver := by simp [raise]
@[simp] theorem raise_pkt : (raise cplx unit inst res code cls d s).pkt = s.pkt := by simp [raise]
@[simp] theorem raise_rules : (raise cplx unit inst res code cls d s).rules = s.rules := by simp [raise]
@[simp] theorem raise_tm : (raise cplx unit inst res code cls d s).tm = s.tm := by simp [raise]
@[simp] theorem raise_mem : (raise cplx unit inst res code cls d s).mem = s.mem := by simp [raise]

end Raise

section Lower
variable (cplx unit inst res code cls : Nat)

@[simp] theorem lower_pending : (lower cplx unit inst res code cls s).pending = s.pending := by simp [lower]
@[simp] theorem lower_mono : (lower cplx unit inst res code cls s).mono = s.mono := by simp [lower]
@[simp] theorem lower_free : (lower cplx unit inst res code cls s).free = s.free := by simp [lower]
@[simp] theorem lower_boot : (lower cplx unit inst res code cls s).boot = s.boot := by simp [lower]
@[simp] theorem lower_time : (lower cplx unit inst res code cls s).time = s.time := by simp [lower]
@[simp] theorem lower_pat : (lower cplx unit inst res code cls s).pat = s.pat := by simp [lower]
@[simp] theorem lower_vault : (lower cplx unit inst res code cls s).vault = s.vault := by simp [lower]
@[simp] theorem lower_cipher : (lower cplx unit inst res code cls s).cipher = s.cipher := by simp [lower]
@[simp] theorem lower_power : (lower cplx unit inst res code cls s).power = s.power := by simp [lower]
@[simp] theorem lower_link : (lower cplx unit inst res code cls s).link = s.link := by simp [lower]
@[simp] theorem lower_halter : (lower cplx unit inst res code cls s).halter = s.halter := by simp [lower]
@[simp] theorem lower_pon : (lower cplx unit inst res code cls s).pon = s.pon := by simp [lower]
@[simp] theorem lower_weaver : (lower cplx unit inst res code cls s).weaver = s.weaver := by simp [lower]
@[simp] theorem lower_pkt : (lower cplx unit inst res code cls s).pkt = s.pkt := by simp [lower]
@[simp] theorem lower_rules : (lower cplx unit inst res code cls s).rules = s.rules := by simp [lower]
@[simp] theorem lower_tm : (lower cplx unit inst res code cls s).tm = s.tm := by simp [lower]
@[simp] theorem lower_mem : (lower cplx unit inst res code cls s).mem = s.mem := by simp [lower]

end Lower

section WriteSetting
variable (i : Nat) (ws : List Word)

@[simp] theorem writeSetting_pending : (writeSetting i ws s).pending = s.pending := by unfold writeSetting; dsimp only; split <;> (first | rfl | (split <;> rfl))
@[simp] theorem writeSetting_out : (writeSetting i ws s).out = s.out := by unfold writeSetting; dsimp only; split <;> (first | rfl | (split <;> rfl))
@[simp] theorem writeSetting_mono : (writeSetting i ws s).mono = s.mono := by unfold writeSetting; dsimp only; split <;> (first | rfl | (split <;> rfl))
@[simp] theorem writeSetting_free : (writeSetting i ws s).free = s.free := by unfold writeSetting; dsimp only; split <;> (first | rfl | (split <;> rfl))
@[simp] theorem writeSetting_host : (writeSetting i ws s).host = s.host := by unfold writeSetting; dsimp only; split <;> (first | rfl | (split <;> rfl))
@[simp] theorem writeSetting_epoch : (writeSetting i ws s).epoch = s.epoch := by unfold writeSetting; dsimp only; split <;> (first | rfl | (split <;> rfl))
@[simp] theorem writeSetting_time : (writeSetting i ws s).time = s.time := by unfold writeSetting; dsimp only; split <;> (first | rfl | (split <;> rfl))
@[simp] theorem writeSetting_flt : (writeSetting i ws s).flt = s.flt := by unfold writeSetting; dsimp only; split <;> (first | rfl | (split <;> rfl))
@[simp] theorem writeSetting_pat : (writeSetting i ws s).pat = s.pat := by unfold writeSetting; dsimp only; split <;> (first | rfl | (split <;> rfl))
@[simp] theorem writeSetting_evr : (writeSetting i ws s).evr = s.evr := by unfold writeSetting; dsimp only; split <;> (first | rfl | (split <;> rfl))
@[simp] theorem writeSetting_ctr : (writeSetting i ws s).ctr = s.ctr := by unfold writeSetting; dsimp only; split <;> (first | rfl | (split <;> rfl))
@[simp] theorem writeSetting_vault : (writeSetting i ws s).vault = s.vault := by unfold writeSetting; dsimp only; split <;> (first | rfl | (split <;> rfl))
@[simp] theorem writeSetting_cipher : (writeSetting i ws s).cipher = s.cipher := by unfold writeSetting; dsimp only; split <;> (first | rfl | (split <;> rfl))
@[simp] theorem writeSetting_power : (writeSetting i ws s).power = s.power := by unfold writeSetting; dsimp only; split <;> (first | rfl | (split <;> rfl))
@[simp] theorem writeSetting_link : (writeSetting i ws s).link = s.link := by unfold writeSetting; dsimp only; split <;> (first | rfl | (split <;> rfl))
@[simp] theorem writeSetting_halter : (writeSetting i ws s).halter = s.halter := by unfold writeSetting; dsimp only; split <;> (first | rfl | (split <;> rfl))
@[simp] theorem writeSetting_pon : (writeSetting i ws s).pon = s.pon := by unfold writeSetting; dsimp only; split <;> (first | rfl | (split <;> rfl))
@[simp] theorem writeSetting_weaver : (writeSetting i ws s).weaver = s.weaver := by unfold writeSetting; dsimp only; split <;> (first | rfl | (split <;> rfl))
@[simp] theorem writeSetting_pkt : (writeSetting i ws s).pkt = s.pkt := by unfold writeSetting; dsimp only; split <;> (first | rfl | (split <;> rfl))
@[simp] theorem writeSetting_rules : (writeSetting i ws s).rules = s.rules := by unfold writeSetting; dsimp only; split <;> (first | rfl | (split <;> rfl))
@[simp] theorem writeSetting_tm : (writeSetting i ws s).tm = s.tm := by unfold writeSetting; dsimp only; split <;> (first | rfl | (split <;> rfl))
@[simp] theorem writeSetting_mem : (writeSetting i ws s).mem = s.mem := by unfold writeSetting; dsimp only; split <;> (first | rfl | (split <;> rfl))

end WriteSetting

section StoreSetting
variable (i : Nat) (ws : List Word) (ok : Bool)

@[simp] theorem storeSetting_pending : (storeSetting i ws ok s).pending = s.pending := by unfold storeSetting settingFault tornSetting; (repeat' split) <;> simp
@[simp] theorem storeSetting_mono : (storeSetting i ws ok s).mono = s.mono := by unfold storeSetting settingFault tornSetting; (repeat' split) <;> simp
@[simp] theorem storeSetting_time : (storeSetting i ws ok s).time = s.time := by unfold storeSetting settingFault tornSetting; (repeat' split) <;> simp
@[simp] theorem storeSetting_pat : (storeSetting i ws ok s).pat = s.pat := by unfold storeSetting settingFault tornSetting; (repeat' split) <;> simp
@[simp] theorem storeSetting_vault : (storeSetting i ws ok s).vault = s.vault := by unfold storeSetting settingFault tornSetting; (repeat' split) <;> simp
@[simp] theorem storeSetting_cipher : (storeSetting i ws ok s).cipher = s.cipher := by unfold storeSetting settingFault tornSetting; (repeat' split) <;> simp
@[simp] theorem storeSetting_power : (storeSetting i ws ok s).power = s.power := by unfold storeSetting settingFault tornSetting; (repeat' split) <;> simp
@[simp] theorem storeSetting_link : (storeSetting i ws ok s).link = s.link := by unfold storeSetting settingFault tornSetting; (repeat' split) <;> simp
@[simp] theorem storeSetting_halter : (storeSetting i ws ok s).halter = s.halter := by unfold storeSetting settingFault tornSetting; (repeat' split) <;> simp
@[simp] theorem storeSetting_pon : (storeSetting i ws ok s).pon = s.pon := by unfold storeSetting settingFault tornSetting; (repeat' split) <;> simp
@[simp] theorem storeSetting_weaver : (storeSetting i ws ok s).weaver = s.weaver := by unfold storeSetting settingFault tornSetting; (repeat' split) <;> simp
@[simp] theorem storeSetting_pkt : (storeSetting i ws ok s).pkt = s.pkt := by unfold storeSetting settingFault tornSetting; (repeat' split) <;> simp
@[simp] theorem storeSetting_rules : (storeSetting i ws ok s).rules = s.rules := by unfold storeSetting settingFault tornSetting; (repeat' split) <;> simp
@[simp] theorem storeSetting_tm : (storeSetting i ws ok s).tm = s.tm := by unfold storeSetting settingFault tornSetting; (repeat' split) <;> simp
@[simp] theorem storeSetting_mem : (storeSetting i ws ok s).mem = s.mem := by unfold storeSetting settingFault tornSetting; (repeat' split) <;> simp
@[simp] theorem storeSetting_free : (storeSetting i ws ok s).free = s.free := by unfold storeSetting settingFault tornSetting; (repeat' split) <;> simp

@[simp] theorem ownSetting_pending : (ownSetting i ws s).pending = s.pending := by simp [ownSetting, takeFree]
@[simp] theorem ownSetting_mono : (ownSetting i ws s).mono = s.mono := by simp [ownSetting, takeFree]
@[simp] theorem ownSetting_time : (ownSetting i ws s).time = s.time := by simp [ownSetting, takeFree]
@[simp] theorem ownSetting_pat : (ownSetting i ws s).pat = s.pat := by simp [ownSetting, takeFree]
@[simp] theorem ownSetting_vault : (ownSetting i ws s).vault = s.vault := by simp [ownSetting, takeFree]
@[simp] theorem ownSetting_cipher : (ownSetting i ws s).cipher = s.cipher := by simp [ownSetting, takeFree]
@[simp] theorem ownSetting_power : (ownSetting i ws s).power = s.power := by simp [ownSetting, takeFree]
@[simp] theorem ownSetting_link : (ownSetting i ws s).link = s.link := by simp [ownSetting, takeFree]
@[simp] theorem ownSetting_halter : (ownSetting i ws s).halter = s.halter := by simp [ownSetting, takeFree]
@[simp] theorem ownSetting_pon : (ownSetting i ws s).pon = s.pon := by simp [ownSetting, takeFree]
@[simp] theorem ownSetting_weaver : (ownSetting i ws s).weaver = s.weaver := by simp [ownSetting, takeFree]
@[simp] theorem ownSetting_pkt : (ownSetting i ws s).pkt = s.pkt := by simp [ownSetting, takeFree]
@[simp] theorem ownSetting_rules : (ownSetting i ws s).rules = s.rules := by simp [ownSetting, takeFree]
@[simp] theorem ownSetting_tm : (ownSetting i ws s).tm = s.tm := by simp [ownSetting, takeFree]
@[simp] theorem ownSetting_mem : (ownSetting i ws s).mem = s.mem := by simp [ownSetting, takeFree]

end StoreSetting

section NoteWake
variable (cause : Nat)

@[simp] theorem noteWake_pending : (noteWake cause s).pending = s.pending := by unfold noteWake; split <;> rfl
@[simp] theorem noteWake_out : (noteWake cause s).out = s.out := by unfold noteWake; split <;> rfl
@[simp] theorem noteWake_mono : (noteWake cause s).mono = s.mono := by unfold noteWake; split <;> rfl
@[simp] theorem noteWake_free : (noteWake cause s).free = s.free := by unfold noteWake; split <;> rfl
@[simp] theorem noteWake_host : (noteWake cause s).host = s.host := by unfold noteWake; split <;> rfl
@[simp] theorem noteWake_epoch : (noteWake cause s).epoch = s.epoch := by unfold noteWake; split <;> rfl
@[simp] theorem noteWake_boot : (noteWake cause s).boot = s.boot := by unfold noteWake; split <;> rfl
@[simp] theorem noteWake_time : (noteWake cause s).time = s.time := by unfold noteWake; split <;> rfl
@[simp] theorem noteWake_flt : (noteWake cause s).flt = s.flt := by unfold noteWake; split <;> rfl
@[simp] theorem noteWake_pat : (noteWake cause s).pat = s.pat := by unfold noteWake; split <;> rfl
@[simp] theorem noteWake_evr : (noteWake cause s).evr = s.evr := by unfold noteWake; split <;> rfl
@[simp] theorem noteWake_ctr : (noteWake cause s).ctr = s.ctr := by unfold noteWake; split <;> rfl
@[simp] theorem noteWake_vault : (noteWake cause s).vault = s.vault := by unfold noteWake; split <;> rfl
@[simp] theorem noteWake_cipher : (noteWake cause s).cipher = s.cipher := by unfold noteWake; split <;> rfl
@[simp] theorem noteWake_power : (noteWake cause s).power = s.power := by unfold noteWake; split <;> rfl
@[simp] theorem noteWake_link : (noteWake cause s).link = s.link := by unfold noteWake; split <;> rfl
@[simp] theorem noteWake_pon : (noteWake cause s).pon = s.pon := by unfold noteWake; split <;> rfl
@[simp] theorem noteWake_weaver : (noteWake cause s).weaver = s.weaver := by unfold noteWake; split <;> rfl
@[simp] theorem noteWake_pkt : (noteWake cause s).pkt = s.pkt := by unfold noteWake; split <;> rfl
@[simp] theorem noteWake_rules : (noteWake cause s).rules = s.rules := by unfold noteWake; split <;> rfl
@[simp] theorem noteWake_tm : (noteWake cause s).tm = s.tm := by unfold noteWake; split <;> rfl
@[simp] theorem noteWake_mem : (noteWake cause s).mem = s.mem := by unfold noteWake; split <;> rfl

end NoteWake

section UpdSlot
variable (n : Nat) (f : Slot → Slot)

@[simp] theorem updSlot_pending : (updSlot n f s).pending = s.pending := rfl
@[simp] theorem updSlot_out : (updSlot n f s).out = s.out := rfl
@[simp] theorem updSlot_mono : (updSlot n f s).mono = s.mono := rfl
@[simp] theorem updSlot_free : (updSlot n f s).free = s.free := rfl
@[simp] theorem updSlot_host : (updSlot n f s).host = s.host := rfl
@[simp] theorem updSlot_epoch : (updSlot n f s).epoch = s.epoch := rfl
@[simp] theorem updSlot_boot : (updSlot n f s).boot = s.boot := rfl
@[simp] theorem updSlot_time : (updSlot n f s).time = s.time := rfl
@[simp] theorem updSlot_flt : (updSlot n f s).flt = s.flt := rfl
@[simp] theorem updSlot_pat : (updSlot n f s).pat = s.pat := rfl
@[simp] theorem updSlot_evr : (updSlot n f s).evr = s.evr := rfl
@[simp] theorem updSlot_ctr : (updSlot n f s).ctr = s.ctr := rfl
@[simp] theorem updSlot_cipher : (updSlot n f s).cipher = s.cipher := rfl
@[simp] theorem updSlot_power : (updSlot n f s).power = s.power := rfl
@[simp] theorem updSlot_link : (updSlot n f s).link = s.link := rfl
@[simp] theorem updSlot_halter : (updSlot n f s).halter = s.halter := rfl
@[simp] theorem updSlot_pon : (updSlot n f s).pon = s.pon := rfl
@[simp] theorem updSlot_weaver : (updSlot n f s).weaver = s.weaver := rfl
@[simp] theorem updSlot_pkt : (updSlot n f s).pkt = s.pkt := rfl
@[simp] theorem updSlot_rules : (updSlot n f s).rules = s.rules := rfl
@[simp] theorem updSlot_tm : (updSlot n f s).tm = s.tm := rfl
@[simp] theorem updSlot_mem : (updSlot n f s).mem = s.mem := rfl

end UpdSlot

section QueueCells
variable (side : Nat) (t : TxFrame)

@[simp] theorem queueCells_pending : (queueCells side t s).pending = s.pending := by unfold queueCells; split <;> rfl
@[simp] theorem queueCells_out : (queueCells side t s).out = s.out := by unfold queueCells; split <;> rfl
@[simp] theorem queueCells_mono : (queueCells side t s).mono = s.mono := by unfold queueCells; split <;> rfl
@[simp] theorem queueCells_free : (queueCells side t s).free = s.free := by unfold queueCells; split <;> rfl
@[simp] theorem queueCells_host : (queueCells side t s).host = s.host := by unfold queueCells; split <;> rfl
@[simp] theorem queueCells_epoch : (queueCells side t s).epoch = s.epoch := by unfold queueCells; split <;> rfl
@[simp] theorem queueCells_boot : (queueCells side t s).boot = s.boot := by unfold queueCells; split <;> rfl
@[simp] theorem queueCells_time : (queueCells side t s).time = s.time := by unfold queueCells; split <;> rfl
@[simp] theorem queueCells_flt : (queueCells side t s).flt = s.flt := by unfold queueCells; split <;> rfl
@[simp] theorem queueCells_pat : (queueCells side t s).pat = s.pat := by unfold queueCells; split <;> rfl
@[simp] theorem queueCells_evr : (queueCells side t s).evr = s.evr := by unfold queueCells; split <;> rfl
@[simp] theorem queueCells_ctr : (queueCells side t s).ctr = s.ctr := by unfold queueCells; split <;> rfl
@[simp] theorem queueCells_vault : (queueCells side t s).vault = s.vault := by unfold queueCells; split <;> rfl
@[simp] theorem queueCells_cipher : (queueCells side t s).cipher = s.cipher := by unfold queueCells; split <;> rfl
@[simp] theorem queueCells_power : (queueCells side t s).power = s.power := by unfold queueCells; split <;> rfl
@[simp] theorem queueCells_halter : (queueCells side t s).halter = s.halter := by unfold queueCells; split <;> rfl
@[simp] theorem queueCells_pon : (queueCells side t s).pon = s.pon := by unfold queueCells; split <;> rfl
@[simp] theorem queueCells_weaver : (queueCells side t s).weaver = s.weaver := by unfold queueCells; split <;> rfl
@[simp] theorem queueCells_pkt : (queueCells side t s).pkt = s.pkt := by unfold queueCells; split <;> rfl
@[simp] theorem queueCells_rules : (queueCells side t s).rules = s.rules := by unfold queueCells; split <;> rfl
@[simp] theorem queueCells_tm : (queueCells side t s).tm = s.tm := by unfold queueCells; split <;> rfl
@[simp] theorem queueCells_mem : (queueCells side t s).mem = s.mem := by unfold queueCells; split <;> rfl

end QueueCells

end Sys2Proof.Machine
end

