-- ==== Sys2Proof/Laws/Serve.lean ====
section
/-! SUPPORT. What serving an Obric packet does: one law for a packet that is accepted, cited by every statement about an opcode. -/

namespace Sys2Proof.Machine

theorem mget_mset_self {κ α : Type} [DecidableEq κ] (m : Map κ α) (k : κ) (a : α) : mget (mset m k a) k = some a := by
  induction m with
  | nil => simp [mset, mget]
  | cons e r ih => obtain ⟨k', b⟩ := e; by_cases h : k' = k <;> simp [mset, mget, h, ih]

theorem mget_mset_other {κ α : Type} [DecidableEq κ] (m : Map κ α) (k j : κ) (a : α) (h : k ≠ j) :
    mget (mset m k a) j = mget m j := by
  induction m with
  | nil => simp [mset, mget, h]
  | cons e r ih =>
    obtain ⟨k', b⟩ := e
    by_cases h1 : k' = k
    · subst h1; simp [mset, mget, h]
    · by_cases h2 : k' = j
      · subst h2; simp [mset, mget, h1]
      · simp [mset, mget, h1, h2, ih]

@[simp] theorem pairAt_updPair_self (q : Nat) (f : Pair → Pair) (s : State) : pairAt (updPair q f s) q = f (pairAt s q) := by
  simp [pairAt, updPair, mgetD, mget_mset_self]

theorem pairAt_updPair_other (q r : Nat) (f : Pair → Pair) (s : State) (h : q ≠ r) : pairAt (updPair q f s) r = pairAt s r := by
  simp [pairAt, updPair, mgetD, mget_mset_other _ _ _ _ h]

/-- A field of a pair that an update keeps reads as before, whichever pair was updated. -/
theorem pairAt_updPair_field {α : Type} (g : Pair → α) (q r : Nat) (f : Pair → Pair) (s : State)
    (h : ∀ x, g (f x) = g x) : g (pairAt (updPair q f s) r) = g (pairAt s r) := by
  by_cases e : q = r
  · subst e; simp [h]
  · rw [pairAt_updPair_other q r f s e]

/-- A test of the entries that an update cannot change, and that a default entry fails, holds of some entry as before. -/
theorem any_mset {κ α : Type} [DecidableEq κ] (m : Map κ α) (k : κ) (d : α) (f : α → α) (t : α → Bool)
    (hd : t d = false) (hf : ∀ x, t (f x) = t x) :
    (mset m k (f (mgetD m k d))).any (fun e => t e.2) = m.any (fun e => t e.2) := by
  induction m with
  | nil => simp [mset, mgetD, mget, hf, hd]
  | cons e r ih =>
    obtain ⟨k', b⟩ := e
    by_cases h1 : k' = k
    · subst h1; simp [mset, mgetD, mget, hf]
    · simp only [mset, h1, if_false, List.any_cons]
      have : mgetD ((k', b) :: r) k d = mgetD r k d := by simp [mgetD, mget, h1]
      rw [this, ih]

section Rung
variable (p : Packet) (s : State)

/-- Ringing a doorbell alters only the pairs. -/
theorem rung_eq : rung p s = { s with host := { s.host with pairs := (rung p s).host.pairs } } := by
  unfold rung; split <;> rfl

/-- Ringing a doorbell keeps every field of a pair but CQ_TAIL. -/
theorem rung_field {α : Type} (g : Pair → α) (h : ∀ x t, g { x with cqTail := t } = g x) (q : Nat) :
    g (pairAt (rung p s) q) = g (pairAt s q) := by
  unfold rung; split
  · exact pairAt_updPair_field g _ _ _ _ fun x => h x _
  · rfl

@[simp] theorem rung_executing (q : Nat) : (pairAt (rung p s) q).executing = (pairAt s q).executing :=
  rung_field p s Pair.executing (fun _ _ => rfl) q
@[simp] theorem rung_enable (q : Nat) : (pairAt (rung p s) q).enable = (pairAt s q).enable :=
  rung_field p s Pair.enable (fun _ _ => rfl) q
@[simp] theorem rung_served (q : Nat) : (pairAt (rung p s) q).served = (pairAt s q).served :=
  rung_field p s Pair.served (fun _ _ => rfl) q
@[simp] theorem rung_error (q : Nat) : (pairAt (rung p s) q).error = (pairAt s q).error :=
  rung_field p s Pair.error (fun _ _ => rfl) q
@[simp] theorem rung_held (q : Nat) : (pairAt (rung p s) q).held = (pairAt s q).held :=
  rung_field p s Pair.held (fun _ _ => rfl) q
@[simp] theorem rung_written (q : Nat) : (pairAt (rung p s) q).written = (pairAt s q).written :=
  rung_field p s Pair.written (fun _ _ => rfl) q
@[simp] theorem rung_bound (q : Nat) : (pairAt (rung p s) q).bound = (pairAt s q).bound :=
  rung_field p s Pair.bound (fun _ _ => rfl) q
@[simp] theorem rung_world (q : Nat) : (pairAt (rung p s) q).world = (pairAt s q).world :=
  rung_field p s Pair.world (fun _ _ => rfl) q
@[simp] theorem rung_seqExp (q : Nat) : (pairAt (rung p s) q).seqExp = (pairAt s q).seqExp :=
  rung_field p s Pair.seqExp (fun _ _ => rfl) q
@[simp] theorem rung_full (q : Nat) : rqFull (pairAt (rung p s) q) = rqFull (pairAt s q) :=
  rung_field p s rqFull (fun _ _ => rfl) q

@[simp] theorem rung_boot : (rung p s).boot = s.boot := by rw [rung_eq]
@[simp] theorem rung_power : (rung p s).power = s.power := by rw [rung_eq]
@[simp] theorem rung_flt : (rung p s).flt = s.flt := by rw [rung_eq]
@[simp] theorem rung_vault : (rung p s).vault = s.vault := by rw [rung_eq]
@[simp] theorem rung_epoch : (rung p s).epoch = s.epoch := by rw [rung_eq]
@[simp] theorem rung_inHigh : (rung p s).host.inHigh = s.host.inHigh := by rw [rung_eq]
@[simp] theorem rung_inGroups : (rung p s).host.inGroups = s.host.inGroups := by rw [rung_eq]

@[simp] theorem canFetch_rung (q : Nat) : canFetch q (rung p s) = canFetch q s := by simp [canFetch, serving]

@[simp] theorem preparing_rung : preparing (rung p s) = preparing s := by
  unfold preparing rung; split
  · exact any_mset s.host.pairs _ {} (fun x => { x with cqTail := x.cqTail + BitVec.ofNat 12 (entriesOf p) }) (fun x => match x.executing with | some y => decide (y.op = 5) | none => false) rfl
      fun _ => rfl
  · rfl

@[simp] theorem heldBack_rung (op : OpSpec) : heldBack op (rung p s) = heldBack op s := by simp [heldBack]

@[simp] theorem masterOf_rung (p' : Packet) : masterOf p' (rung p s) = masterOf p' s := by
  unfold masterOf; split <;> simp

/-- The grounds of R549 do not depend on CQ_TAIL. -/
@[simp] theorem judge_rung (op : OpSpec) (p' : Packet) : judge op p' (rung p s) = judge op p' s := by
  have h1 : seqGround p' (rung p s) = seqGround p' s := by unfold seqGround; split <;> simp
  have h2 : masterGround op p' (rung p s) = masterGround op p' s := by
    unfold masterGround; simp [inbandMay]
  have h3 : worldOk op p' (rung p s) = worldOk op p' s := by unfold worldOk; simp
  have h4 : epochGround p' (rung p s) = epochGround p' s := by unfold epochGround; simp [committing]
  have h5 : toFailed op p' (rung p s) = toFailed op p' s := by unfold toFailed; simp
  unfold judge; rw [h1, h2, h3, h4, h5]; simp

end Rung

section Fetched
variable (op : OpSpec) (p : Packet) (s : State)

/-- The state in which a handler runs differs from the one before only in its pair and in programmable counters. -/
theorem fetched_eq (n : Nat) (h : p.src = .pair n) :
    fetched op p s = { s with host := { s.host with pairs := (fetched op p s).host.pairs },
                              ctr := { s.ctr with prog := (fetched op p s).ctr.prog } } := by
  unfold fetched takePacket rung
  rw [h]
  by_cases hf : op.fast <;> simp [hf, updPair, countEvent]

end Fetched

/-- A packet that is read, whose target answers and that no ground of R549 refuses is performed. -/
theorem command_performs (op : OpSpec) (p : Packet) (s : State) (hr : readable op p s = true) (hsil : p.env.silent = false)
    (hj : judge op p s = none) :
    ∃ n, p.src = .pair n ∧ command op p s = .next (match perform op p staged (fetched op p s) with
      | .wait s2 data => setExecuting p op.code data s2
      | r => answer p (flagResultBuf p) (bufLenOf p) r (fetched op p s)) := by
  unfold readable at hr
  cases hs : p.src with
  | inband side => simp [hs] at hr
  | pair n =>
    refine ⟨n, rfl, ?_⟩
    simp only [hs, Bool.and_eq_true, decide_eq_true_eq, Bool.not_eq_true'] at hr
    obtain ⟨⟨⟨⟨hn, hc⟩, hw⟩, hb⟩, hf⟩ := hr
    have hq : queueOf p = n := by simp [queueOf, hs]
    have hserve : serve op staged p s = execute op staged p (rung p s) := by
      have hd : serve op staged p s =
          if canFetch (queueOf p) (rung p s) && (pairAt (rung p s) (queueOf p)).written.isEmpty then
            if !p.env.fetchOk then fetchFault (queueOf p) (appendWritten op.code p (rung p s))
            else if heldBack op (rung p s) then holdBack (queueOf p) (appendWritten op.code p (rung p s))
            else execute op staged p (rung p s)
          else appendWritten op.code p (rung p s) := rfl
      rw [hd]
      simp only [hq, canFetch_rung, rung_written, heldBack_rung, hc, hw, hb, hf, Bool.not_true, Bool.and_self, if_true, Bool.false_eq_true, if_false]
    simp only [command, hs, onObject, hn, decide_true, if_true, hserve]
    unfold execute
    simp only [judge_rung, hj, hsil]
    have hfe : takePacket p (countEvent 0x4C 0x100 p.world.toNat 1
        (if op.fast then countEvent 0x4C 0x101 p.world.toNat 1 (rung p s) else rung p s)) = fetched op p s := rfl
    have ht (x : State) : markTorn p x = false := by simp [markTorn, hs]
    simp only [hfe, ht, ctxOf, Bool.false_and, Bool.false_eq_true, if_false]
    all_goals rfl

/-- The answer to a packet that is accepted is that of its handler. -/
theorem command_accepts (op : OpSpec) (p : Packet) (s : State) (h : accepts op p s = true) :
    ∃ n, p.src = .pair n ∧ command op p s = .next (match performNow op p staged (fetched op p s) with
      | .wait s2 data => setExecuting p op.code data s2
      | r => answer p (flagResultBuf p) (bufLenOf p) r (fetched op p s)) := by
  unfold accepts at h
  simp only [Bool.and_eq_true, decide_eq_true_eq, Bool.not_eq_true', Bool.or_eq_true, ne_eq] at h
  obtain ⟨⟨⟨⟨⟨hr, hsil⟩, hj⟩, hst⟩, ho⟩, hc2⟩ := h
  obtain ⟨n, hs, he⟩ := command_performs op p s hr hsil (by simpa using hj)
  have hep : (fetched op p s).epoch = s.epoch := by rw [fetched_eq op p s n hs]
  have hconf : stageConflict op p (fetched op p s) = stageConflict op p s := by
    unfold stageConflict committing; rw [hep]
  have hperf : perform op p staged (fetched op p s) = performNow op p staged (fetched op p s) := by
    unfold perform
    have hg : stageGround op p (fetched op p s) = none := by
      unfold stageGround
      rw [if_neg (by simp [hst]), if_neg (by simpa using ho), hconf]
      rcases hc2 with h2 | h2
      · simp [h2]
      · simp [h2.1.1]
    simp [hg, hst]
  exact ⟨n, hs, by rw [he, hperf]⟩

/-- A packet accepted into the staged content is kept for the activation. -/
theorem command_staged (op : OpSpec) (p : Packet) (s : State) (h : acceptsStaged op p s = true)
    (hrun : ∀ st ws, op.run { ctxOf op p (fetched op p s) with accepting := true } (staged (fetched op p s)).1 ≠ .refuse st ws)
    (hroom : hasRoom op p (fetched op p s) = true) :
    command op p s = .next (replyTo p .ok [] 0 (keepStaged op p (fetched op p s))) := by
  unfold acceptsStaged at h
  simp only [Bool.and_eq_true, decide_eq_true_eq, Bool.not_eq_true', Bool.or_eq_true] at h
  obtain ⟨⟨⟨⟨hr, hsil⟩, hj⟩, hst⟩, ho⟩ := h
  obtain ⟨n, -, he⟩ := command_performs op p s hr hsil (by simpa using hj)
  have hsc : stageCommand op p (staged (fetched op p s)).1 (fetched op p s) = .done (keepStaged op p (fetched op p s)) [] := by
    simp only [hasRoom, decide_eq_true_eq] at hroom
    unfold stageCommand
    cases hh : op.run { ctxOf op p (fetched op p s) with accepting := true } (staged (fetched op p s)).1 with
    | refuse st ws => exact absurd hh (hrun st ws)
    | _ =>
      have hw : (ctxOf op p (fetched op p s)).words = ownWords p := rfl
      simp only [hh]
      simp only [hw]
      rw [if_neg (Nat.not_lt.mpr hroom)]
      rfl
  have hp : perform op p staged (fetched op p s) = .done (keepStaged op p (fetched op p s)) [] := by
    have hg : stageGround op p (fetched op p s) = none := by
      unfold stageGround
      rcases ho with h | h <;> simp [hst, h]
    unfold perform
    rcases ho with h | h <;> simp [hg, hst, h, hsc]
  rw [he, hp]
  simp [answer]

section Outcomes
variable {op : OpSpec} {p : Packet} {s t : State} {ws : List Word}

/-- A handler that ends with success at once keeps its words; the state that it leaves is kept. -/
theorem performNow_done (h : accepts op p s = true)
    (hr : op.run (ctxOf op p (fetched op p s)) (fetched op p s) = .done t ws) :
    performNow op p staged (fetched op p s) = .done (kept op (fetched op p s) t) ws := by
  obtain ⟨n, hs, -⟩ := command_accepts op p s h
  have hep : (fetched op p s).epoch = s.epoch := by rw [fetched_eq op p s n hs]
  unfold accepts at h
  simp only [Bool.and_eq_true, decide_eq_true_eq, Bool.or_eq_true, ne_eq, Bool.not_eq_true'] at h
  have hk : (op.stage = .stageable && !keepsReserve staged (fetched op p s) t) = false := by
    rcases h.2 with h2 | h2
    · simp [h2]
    · simp [keepsReserve, hep, h2.1.2, h2.2]
  unfold performNow
  simp only [hr, HRes.success, HRes.left, hk, if_true, HRes.mapState, Bool.false_eq_true, if_false]

/-- An accepted packet whose handler ends with at most 13 result words. -/
theorem command_done (h : accepts op p s = true)
    (hr : op.run (ctxOf op p (fetched op p s)) (fetched op p s) = .done t ws) (hl : ws.length ≤ 13) :
    command op p s = repliedOk op p ws t s := by
  obtain ⟨n, -, he⟩ := command_accepts op p s h
  rw [he, performNow_done h hr]
  simp [answer, hl, repliedOk]

/-- An accepted packet whose handler ends with more than 13 result words. -/
theorem command_long (h : accepts op p s = true)
    (hr : op.run (ctxOf op p (fetched op p s)) (fetched op p s) = .done t ws) (hl : 13 < ws.length)
    (hb : holdsResult p (4 * ws.length) = true) :
    command op p s = repliedLong op p ws t s := by
  obtain ⟨n, -, he⟩ := command_accepts op p s h
  simp only [holdsResult, Bool.and_eq_true, decide_eq_true_eq] at hb
  rw [he, performNow_done h hr]
  simp [answer, repliedLong, hb.1.1, hb.2, Nat.not_le.mpr hl, Nat.not_lt.mpr hb.1.2]

/-- An accepted packet whose handler ends with data for the result buffer. -/
theorem command_data {bs : List Byte} (h : accepts op p s = true) (hp : op.stage ≠ .stageable)
    (hr : op.run (ctxOf op p (fetched op p s)) (fetched op p s) = .doneBuf t ws bs)
    (hb : holdsResult p bs.length = true) :
    command op p s = repliedData op p ws bs t s := by
  obtain ⟨n, -, he⟩ := command_accepts op p s h
  simp only [holdsResult, Bool.and_eq_true, decide_eq_true_eq] at hb
  have hpn : performNow op p staged (fetched op p s) = .doneBuf (kept op (fetched op p s) t) ws bs := by
    unfold performNow
    simp only [hr, HRes.success, HRes.left, if_true, HRes.mapState, hp, decide_false, Bool.false_and, Bool.false_eq_true, if_false]
  rw [he, hpn]
  simp [answer, repliedData, hb.1.1, hb.2, Nat.not_lt.mpr hb.1.2]

/-- An accepted packet whose handler waits for what ends it. -/
theorem command_waits {data : List Nat} (h : accepts op p s = true)
    (hr : op.run (ctxOf op p (fetched op p s)) (fetched op p s) = .wait t data) :
    command op p s = .next (setExecuting p op.code data (kept op (fetched op p s) t)) := by
  obtain ⟨n, hs, he⟩ := command_accepts op p s h
  have hep : (fetched op p s).epoch = s.epoch := by rw [fetched_eq op p s n hs]
  unfold accepts at h
  simp only [Bool.and_eq_true, decide_eq_true_eq, Bool.or_eq_true, ne_eq, Bool.not_eq_true'] at h
  have hk : (op.stage = .stageable && !keepsReserve staged (fetched op p s) t) = false := by
    rcases h.2 with h2 | h2
    · simp [h2]
    · simp [keepsReserve, hep, h2.1.2, h2.2]
  have hpn : performNow op p staged (fetched op p s) = .wait (kept op (fetched op p s) t) data := by
    unfold performNow
    simp only [hr, HRes.success, HRes.left, hk, if_true, HRes.mapState, Bool.false_eq_true, if_false]
  rw [he, hpn]

/-- An accepted packet of a command that writes nothing that can be staged ends with its handler's answer. -/
theorem command_runs (h : accepts op p s = true) (hst : op.stage ≠ .stageable) :
    command op p s = .next (match keptAnswer op (fetched op p s) (op.run (ctxOf op p (fetched op p s)) (fetched op p s)) with
      | .wait s2 data => setExecuting p op.code data s2
      | r => answer p (flagResultBuf p) (bufLenOf p) r (fetched op p s)) := by
  obtain ⟨n, -, he⟩ := command_accepts op p s h
  have hpn : performNow op p staged (fetched op p s) =
      keptAnswer op (fetched op p s) (op.run (ctxOf op p (fetched op p s)) (fetched op p s)) := by
    unfold performNow keptAnswer
    simp [hst]
  rw [he, hpn]

end Outcomes

/-- A row whose handler ends with at most 13 result words wherever its conditions hold. -/
theorem endsOk {row : Packet → Instr} {op : OpSpec} {ok : Ctx → State → Prop} {ws : Ctx → State → List Word}
    {left : Ctx → State → State} (hrow : ∀ p s, exec (row p) s = command op p s)
    (hrun : ∀ c f, c.accepting = false → ok c f → op.run c f = .done (left c f) (ws c f))
    (hlen : ∀ c f, ok c f → (ws c f).length ≤ 13) : EndsOk row op ok ws left := by
  intro p s h hok
  rw [hrow]
  exact command_done h (hrun _ _ rfl hok) (hlen _ _ hok)

/-- A row whose handler ends with more than 13 result words wherever its conditions hold. -/
theorem endsLong {row : Packet → Instr} {op : OpSpec} {ok : Ctx → State → Prop} {ws : Ctx → State → List Word}
    {left : Ctx → State → State} (hrow : ∀ p s, exec (row p) s = command op p s)
    (hrun : ∀ c f, c.accepting = false → ok c f → op.run c f = .done (left c f) (ws c f))
    (hlen : ∀ c f, ok c f → 13 < (ws c f).length) : EndsLong row op ok ws left := by
  intro p s h hok hb
  rw [hrow]
  exact command_long h (hrun _ _ rfl hok) (hlen _ _ hok) hb

/-- A row whose handler ends with data for the result buffer wherever its conditions hold. -/
theorem endsData {row : Packet → Instr} {op : OpSpec} {ok : Ctx → State → Prop} {ws : Ctx → State → List Word}
    {bs : Ctx → State → List Byte} {left : Ctx → State → State} (hrow : ∀ p s, exec (row p) s = command op p s)
    (hst : op.stage ≠ .stageable)
    (hrun : ∀ c f, c.accepting = false → ok c f → op.run c f = .doneBuf (left c f) (ws c f) (bs c f)) :
    EndsData row op ok ws bs left := by
  intro p s h hok hb
  rw [hrow]
  exact command_data h hst (hrun _ _ rfl hok) hb

/-- A row whose handler waits wherever its conditions hold. -/
theorem starts {row : Packet → Instr} {op : OpSpec} {ok : Ctx → State → Prop} {data : Ctx → State → List Nat}
    {left : Ctx → State → State} (hrow : ∀ p s, exec (row p) s = command op p s)
    (hrun : ∀ c f, c.accepting = false → ok c f → op.run c f = .wait (left c f) (data c f)) : Starts row op ok data left := by
  intro p s h hok
  rw [hrow]
  exact command_waits h (hrun _ _ rfl hok)

/-- A row whose handler answers as `r` says wherever its conditions hold. -/
theorem answers {row : Packet → Instr} {op : OpSpec} {ok : Ctx → State → Prop} {r : Ctx → State → HRes}
    (hrow : ∀ p s, exec (row p) s = command op p s) (hst : op.stage ≠ .stageable)
    (hrun : ∀ c f, c.accepting = false → ok c f → op.run c f = r c f) (hw : ∀ c f t d, ok c f → r c f ≠ .wait t d) :
    Answers row op ok r := by
  intro p s h hok
  rw [hrow, command_runs h hst, hrun _ _ rfl hok]
  have hn := fun t d => hw _ _ t d hok
  cases hr : r (ctxOf op p (fetched op p s)) (fetched op p s) with
  | wait t d => exact absurd hr (hn t d)
  | _ => rfl

end Sys2Proof.Machine
end

