-- ==== Sys2Proof/Laws/Lanes.lean ====
section
/-! SUPPORT. Lanes and sides: what the aligner, the selector and the defects leave of the lanes, and what a move of a lane does; and
what the references and the state of the PCIe link rest on. -/

namespace Sys2Proof.Machine

@[simp] theorem laneAt_updLane_self (l : Nat) (f : Lane → Lane) (s : State) : laneAt (updLane l f s) l = f (laneAt s l) := by
  simp [laneAt, updLane, mgetD, mget_mset_self]

theorem laneAt_updLane_other (l k : Nat) (f : Lane → Lane) (s : State) (h : l ≠ k) : laneAt (updLane l f s) k = laneAt s k := by
  simp [laneAt, updLane, mgetD, mget_mset_other _ _ _ _ h]

theorem sideAt_updSide_self (i : Nat) (f : Side → Side) (s : State) : sideAt (updSide i f s) i = f (sideAt s i) := by
  unfold sideAt updSide; split <;> simp_all

/-- Of the link complex only the sides and the selector may differ. -/
def SidesOnly (s t : State) : Prop := ∃ a b sel, t.link = { s.link with a := a, b := b, sel := sel }

theorem SidesOnly.refl (s : State) : SidesOnly s s := ⟨_, _, _, rfl⟩

theorem SidesOnly.of_eq {s t : State} (h : t.link = s.link) : SidesOnly s t := ⟨_, _, _, h⟩

theorem SidesOnly.trans {s t u : State} (h : SidesOnly s t) (k : SidesOnly t u) : SidesOnly s u := by
  obtain ⟨a, b, c, h⟩ := h
  obtain ⟨d, e, f, k⟩ := k
  exact ⟨d, e, f, by rw [k, h]⟩

theorem SidesOnly.sel {s t : State} (h : SidesOnly s t) (x : Selector) : SidesOnly s { t with link := { t.link with sel := x } } := by
  obtain ⟨a, b, c, h⟩ := h
  exact ⟨a, b, x, by simp only [h]⟩

theorem SidesOnly.lane {s t : State} (h : SidesOnly s t) (l : Nat) : laneAt t l = laneAt s l := by
  obtain ⟨a, b, c, h⟩ := h
  unfold laneAt; rw [h]

theorem SidesOnly.card {s t : State} (h : SidesOnly s t) : t.link.card = s.link.card ∧ t.link.pauseMs = s.link.pauseMs := by
  obtain ⟨a, b, c, h⟩ := h
  rw [h]; exact ⟨rfl, rfl⟩

theorem sidesOnly_updSide (i : Nat) (f : Side → Side) (s : State) : SidesOnly s (updSide i f s) := by
  unfold updSide; split
  · exact ⟨f s.link.a, s.link.b, s.link.sel, rfl⟩
  · exact ⟨s.link.a, f s.link.b, s.link.sel, rfl⟩

theorem sidesOnly_updSel (f : Selector → Selector) (s : State) : SidesOnly s (updSel f s) := ⟨s.link.a, s.link.b, f s.link.sel, rfl⟩

theorem sidesOnly_plaitDefect (i k c : Nat) (v : Bool) (s : State) : SidesOnly s (plaitDefect i k c v s) := by
  unfold plaitDefect; split <;> exact .of_eq (by simp)

theorem sidesOnly_setLoa (i : Nat) (v : Bool) (s : State) : SidesOnly s (setLoa i v s) := by
  unfold setLoa
  split
  · exact .refl s
  · exact (sidesOnly_updSide _ _ _).trans (sidesOnly_plaitDefect _ _ _ _ _)

theorem sidesOnly_setTim (i : Nat) (v : Bool) (s : State) : SidesOnly s (setTim i v s) := by
  unfold setTim
  split
  · exact .refl s
  · exact (sidesOnly_updSide _ _ _).trans (sidesOnly_plaitDefect _ _ _ _ _)

theorem sidesOnly_setBoth (v : Bool) (s : State) : SidesOnly s (setBoth v s) := by
  unfold setBoth
  split
  · exact .refl s
  · exact (sidesOnly_updSel (fun x => { x with both := v }) s).trans (.of_eq (by split <;> simp [updSel]))

theorem sidesOnly_bumpSide (i p n : Nat) (s : State) : SidesOnly s (bumpSide i p n s) := .of_eq (by simp [bumpSide])

theorem sidesOnly_dropContexts (i : Nat) (b : Bool) (s : State) : SidesOnly s (dropContexts i b s) :=
  (sidesOnly_updSide _ _ _).trans (sidesOnly_bumpSide _ _ _ _)

theorem sidesOnly_moveTo (side : Nat) (b : Bool) (s : State) : SidesOnly s (moveTo side b s) := by
  unfold moveTo
  dsimp only
  split
  · exact .refl s
  · refine SidesOnly.trans ?_ ((sidesOnly_bumpSide _ _ _ _).trans (.of_eq (recordEv_link ..)))
    refine SidesOnly.sel ?_ _
    cases b
    · rw [if_neg Bool.false_ne_true]
      exact (sidesOnly_updSide _ _ s).trans (sidesOnly_updSide _ _ _)
    · rw [if_pos rfl]
      exact ((sidesOnly_updSide _ _ s).trans (sidesOnly_updSide _ _ _)).trans (sidesOnly_dropContexts _ _ _)

theorem sidesOnly_selectorMove (s : State) : SidesOnly s (selectorMove s) := by
  have h0 : SidesOnly s s := .refl s
  have h1 : ∀ f, SidesOnly s (updSel f s) := fun f => sidesOnly_updSel f s
  have h2 : ∀ side b, SidesOnly s (moveTo side b s) := fun side b => sidesOnly_moveTo side b s
  have h3 : ∀ side b f, SidesOnly s (moveTo side b (updSel f s)) := fun side b f =>
    (sidesOnly_updSel f s).trans (sidesOnly_moveTo side b _)
  unfold selectorMove
  extract_lets x sf other
  by_cases c1 : x.st = .fs
  · rw [if_pos c1]; exact h0
  · rw [if_neg c1]
    split
    · exact h0
    · split
      · exact h3 _ _ _
      · split
        · split
          · exact h1 _
          · exact h0
        · split
          · split
            · exact h1 _
            · exact h1 _
          · exact h0
        · split
          · exact h2 _ _
          · exact h0
        · exact h0

/-- Following the signal fail of the sides changes sides and selector alone. -/
theorem sidesOnly_updateSf (s : State) : SidesOnly s (updateSf s) := by
  unfold updateSf
  extract_lets step s1 s2
  have hs : ∀ i u, SidesOnly u (step i u) := by
    intro i u
    simp only [step]
    split
    · exact sidesOnly_updSel _ _
    · exact sidesOnly_updSel _ _
  exact ((((hs 0 s).trans (hs 1 _)).trans (sidesOnly_setBoth _ _)).trans (sidesOnly_selectorMove _)).trans
    ((sidesOnly_selectorMove _).trans (sidesOnly_selectorMove _))

theorem sidesOnly_alignLost (i : Nat) (s : State) : SidesOnly s (alignLost i s) := by
  unfold alignLost
  split
  · exact (((sidesOnly_updSide _ _ s).trans (sidesOnly_dropContexts _ _ _)).trans (sidesOnly_setLoa _ _ _)).trans
      (sidesOnly_updateSf _)
  · exact (sidesOnly_updSide _ _ s).trans (sidesOnly_updateSf _)

theorem sidesOnly_laneLost (l : Nat) (s : State) : SidesOnly s (laneLost l s) := by
  unfold laneLost
  split
  · exact sidesOnly_alignLost _ _
  · exact .refl s

theorem sidesOnly_laneFault (l k c : Nat) (v : Bool) (s : State) : SidesOnly s (laneFault l k c v s) := by
  unfold laneFault; split <;> exact .of_eq (by simp)

theorem sidesOnly_replyTo (p : Packet) (st : Status) (ws : List Word) (n : Nat) (s : State) : SidesOnly s (replyTo p st ws n s) := by
  unfold replyTo
  split
  · exact .refl s
  · dsimp only
    split
    · refine .of_eq ?_
      unfold postReply writeReply
      dsimp only
      (repeat' split) <;> simp [updPair]
    · unfold queueCells
      split
      · exact ⟨_, s.link.b, s.link.sel, rfl⟩
      · exact ⟨s.link.a, _, s.link.sel, rfl⟩

theorem sidesOnly_forEach {α : Type} (xs : List α) (f : α → State → State) (h : ∀ a u, SidesOnly u (f a u)) (s : State) :
    SidesOnly s (forEach xs f s) := by
  unfold forEach
  induction xs generalizing s with
  | nil => exact .refl s
  | cons a r ih => exact (h a s).trans (ih _)

theorem sidesOnly_scanReply (l : Nat) (s : State) (h : (laneAt s l).scanning = true) :
    SidesOnly (updLane l (fun x => { x with scanning := false }) s) (abortScan l s) := by
  unfold abortScan
  simp only [h, Bool.not_true, Bool.false_eq_true, if_false]
  refine sidesOnly_forEach _ _ (fun q u => ?_) _
  unfold finish
  split
  · exact .refl _
  · dsimp only
    split
    · exact .of_eq rfl
    · exact SidesOnly.trans (.of_eq rfl) (sidesOnly_replyTo _ _ _ _ _)

/-- The end of a scan clears the lane's mark. -/
theorem laneAt_abortScan (l : Nat) (s : State) : laneAt (abortScan l s) l = { laneAt s l with scanning := false } := by
  by_cases h : (laneAt s l).scanning = true
  · rw [(sidesOnly_scanReply l s h).lane, laneAt_updLane_self]
  · have h' : (laneAt s l).scanning = false := by simpa using h
    have : abortScan l s = s := by unfold abortScan; simp [h']
    rw [this]
    generalize laneAt s l = x at h'
    cases x; simp_all

/-- The end of a scan leaves every other lane. -/
theorem laneAt_abortScan_other (l k : Nat) (s : State) (hk : l ≠ k) : laneAt (abortScan l s) k = laneAt s k := by
  by_cases h : (laneAt s l).scanning = true
  · rw [(sidesOnly_scanReply l s h).lane, laneAt_updLane_other _ _ _ _ hk]
  · have : abortScan l s = s := by unfold abortScan; simp [h]
    rw [this]

theorem card_abortScan (l : Nat) (s : State) :
    (abortScan l s).link.card = s.link.card ∧ (abortScan l s).link.pauseMs = s.link.pauseMs := by
  by_cases h : (laneAt s l).scanning = true
  · exact (sidesOnly_scanReply l s h).card
  · have : abortScan l s = s := by unfold abortScan; simp [h]
    rw [this]; exact ⟨rfl, rfl⟩

/-- A move of a lane sets its state and instant, and ends its scan where it leaves ACTIVE. -/
theorem laneAt_laneTo (l : Nat) (st : LaneState) (s : State) :
    laneAt (laneTo l st s) l = { laneAt s l with
      st := st, since := s.mono, stale := false,
      scanning := (laneAt s l).scanning && !((laneAt s l).st = .active && st ≠ .active) } := by
  unfold laneTo
  dsimp only
  split
  · rename_i h
    have h1 : ((laneAt s l).st = .active ∧ ¬ st = .active) := by simpa using h
    rw [(sidesOnly_laneLost _ _).lane, laneAt_abortScan, laneAt_updLane_self]
    simp [h1]
  · rename_i h
    have e : (laneAt s l).scanning = ((laneAt s l).scanning && !(decide ((laneAt s l).st = .active) && decide (st ≠ .active))) := by
      have : (decide ((laneAt s l).st = .active) && decide (st ≠ .active)) = false := by simpa using h
      rw [this]; simp
    rw [← e]
    split
    · rw [(sidesOnly_updateSf _).lane, laneAt_updLane_self]
    · rw [laneAt_updLane_self]

/-- A move of a lane leaves every other lane. -/
theorem laneAt_laneTo_other (l k : Nat) (st : LaneState) (s : State) (h : l ≠ k) : laneAt (laneTo l st s) k = laneAt s k := by
  unfold laneTo
  dsimp only
  split
  · rw [(sidesOnly_laneLost _ _).lane, laneAt_abortScan_other _ _ _ h, laneAt_updLane_other _ _ _ _ h]
  · split
    · rw [(sidesOnly_updateSf _).lane, laneAt_updLane_other _ _ _ _ h]
    · rw [laneAt_updLane_other _ _ _ _ h]

theorem card_laneTo (l : Nat) (st : LaneState) (s : State) :
    (laneTo l st s).link.card = s.link.card ∧ (laneTo l st s).link.pauseMs = s.link.pauseMs := by
  unfold laneTo
  dsimp only
  split
  · have a := (sidesOnly_laneLost l (abortScan l (updLane l (fun x => { x with st := st, since := s.mono, stale := false }) s))).card
    have b := card_abortScan l (updLane l (fun x => { x with st := st, since := s.mono, stale := false }) s)
    exact ⟨a.1.trans (b.1.trans rfl), a.2.trans (b.2.trans rfl)⟩
  · split
    · have a := (sidesOnly_updateSf (updLane l (fun x => { x with st := st, since := s.mono, stale := false }) s)).card
      exact ⟨a.1.trans rfl, a.2.trans rfl⟩
    · exact ⟨rfl, rfl⟩

theorem laneAt_laneFault (l k c : Nat) (v : Bool) (s : State) (j : Nat) : laneAt (laneFault l k c v s) j = laneAt s j :=
  (sidesOnly_laneFault l k c v s).lane j

/-! ## References and the PCIe link -/

/-- What every round of a loop keeps, the loop keeps. -/
theorem forBelow_keeps {α : Type} (g : State → α) (n : Nat) (f : Nat → State → State) (h : ∀ i u, g (f i u) = g u) (s : State) :
    g (forBelow n f s) = g s := by
  unfold forBelow
  generalize List.range n = l
  induction l generalizing s with
  | nil => rfl
  | cons a r ih => simp [ih, h]

@[simp] theorem sendEsmc_power (s : State) : (sendEsmc s).power = s.power :=
  forBelow_keeps State.power _ _ (fun _ _ => by split <;> simp) s

@[simp] theorem sendEsmc_boot (s : State) : (sendEsmc s).boot = s.boot :=
  forBelow_keeps State.boot _ _ (fun _ _ => by split <;> simp) s

@[simp] theorem reselect_power (s : State) : (reselect s).power = s.power := by
  unfold reselect
  dsimp only
  (repeat' split) <;> simp [takeFree, setCorr]

@[simp] theorem reselect_boot (s : State) : (reselect s).boot = s.boot := by
  unfold reselect
  dsimp only
  (repeat' split) <;> simp [takeFree, setCorr]

@[simp] theorem trackSources_power (s : State) : (trackSources s).power = s.power := by
  unfold trackSources
  apply forBelow_keeps State.power
  intro i u
  dsimp only
  (repeat' split) <;> simp [updSource]

@[simp] theorem trackSources_boot (s : State) : (trackSources s).boot = s.boot := by
  unfold trackSources
  apply forBelow_keeps State.boot
  intro i u
  dsimp only
  (repeat' split) <;> simp [updSource]

/-- The state of the PCIe link rests on the boot timeline, the power stage and the time alone. -/
theorem pcieUp_congr {s t : State} (hb : t.boot = s.boot) (hp : t.power = s.power) (hm : t.mono = s.mono) : pcieUp t = pcieUp s := by
  unfold pcieUp bootTime
  rw [hb, hp, hm]

/-- The PCIe link is up exactly where the boot timeline has run for 100 ms, PERST_L is high, PCIE_REFCLK is valid and no thermal
shutdown stands. -/
theorem pcieUp_iff (s : State) : pcieUp s = true ↔
    (s.boot.phase = .rom ∨ s.boot.phase = .firmware ∨ s.boot.phase = .up) ∧ 100 * ms ≤ bootTime s ∧ s.power.shutdown = false ∧
      s.power.perstLow = false ∧ (refAt s 4).valid = true := by
  simp [pcieUp, refAt, mgetD, and_assoc, or_assoc]

end Sys2Proof.Machine
end

