-- ==== Sys2Proof/Laws/Memory.lean ====
section
/-! SUPPORT. The bytes of HBM: a read after a write, the bytes that a write leaves, and the canonical form that it keeps. -/

namespace Sys2Proof.Machine

/-- A list in canonical form above a bound is so above every lower one. -/
theorem memWfFrom_mono {lo hi : Nat} (h : lo ≤ hi) (m : List Host.Cell) (w : memWfFrom hi m = true) : memWfFrom lo m = true := by
  cases m with
  | nil => rfl
  | cons e r => obtain ⟨k, b⟩ := e; simp only [memWfFrom, Bool.and_eq_true, decide_eq_true_eq] at *; exact ⟨⟨by omega, w.1.2⟩, w.2⟩

/-- Nothing is listed below the bound of the canonical form. -/
theorem memRead_below {lo : Nat} (m : List Host.Cell) (w : memWfFrom lo m = true) {a : Nat} (h : a < lo) : memRead m a = 0 := by
  induction m generalizing lo with
  | nil => rfl
  | cons e r ih =>
    obtain ⟨k, b⟩ := e
    simp only [memWfFrom, Bool.and_eq_true, decide_eq_true_eq] at w
    simp only [memRead]
    rw [if_neg (by omega)]
    exact ih w.2 (by omega)

/-- A write keeps the canonical form. -/
theorem memWfFrom_write {lo : Nat} (m : List Host.Cell) (w : memWfFrom lo m = true) {a : Nat} (h : lo ≤ a) (b : Byte) :
    memWfFrom lo (memWrite m a b) = true := by
  induction m generalizing lo with
  | nil => simp only [memWrite]; split <;> simp_all [memWfFrom]
  | cons e r ih =>
    obtain ⟨k, c⟩ := e
    have w' := w
    simp only [memWfFrom, Bool.and_eq_true, decide_eq_true_eq] at w
    simp only [memWrite]
    split
    · split
      · exact w'
      · simp only [memWfFrom, Bool.and_eq_true, decide_eq_true_eq]
        exact ⟨⟨h, by simpa using ‹¬b = 0›⟩, ⟨by omega, w.1.2⟩, w.2⟩
    · split
      · split
        · exact memWfFrom_mono (by omega) r w.2
        · simp only [memWfFrom, Bool.and_eq_true, decide_eq_true_eq]
          exact ⟨⟨h, by simpa using ‹¬b = 0›⟩, by subst_vars; exact w.2⟩
      · simp only [memWfFrom, Bool.and_eq_true, decide_eq_true_eq]
        exact ⟨w.1, ih w.2 (by omega)⟩

/-- A read of the address written gives the byte written. -/
theorem memRead_write_self {lo : Nat} (m : List Host.Cell) (w : memWfFrom lo m = true) (a : Nat) (b : Byte) :
    memRead (memWrite m a b) a = b := by
  induction m generalizing lo with
  | nil => simp only [memWrite]; split <;> simp_all [memRead]
  | cons e r ih =>
    obtain ⟨k, c⟩ := e
    simp only [memWfFrom, Bool.and_eq_true, decide_eq_true_eq] at w
    simp only [memWrite]
    split
    · split
      · rename_i h1 h2
        have hw : memWfFrom (a + 1) ((k, c) :: r) = true := by
          simp only [memWfFrom, Bool.and_eq_true, decide_eq_true_eq]; exact ⟨⟨by omega, w.1.2⟩, w.2⟩
        rw [memRead_below _ hw (by omega), h2]
      · simp [memRead]
    · split
      · split
        · subst_vars; exact memRead_below _ w.2 (by omega)
        · simp [memRead]
      · simp only [memRead]
        rw [if_neg (by omega)]
        exact ih w.2

/-- A read of another address gives what it gave before. -/
theorem memRead_write_other {lo : Nat} (m : List Host.Cell) (w : memWfFrom lo m = true) {a c : Nat} (h : c ≠ a) (b : Byte) :
    memRead (memWrite m a b) c = memRead m c := by
  induction m generalizing lo with
  | nil => simp only [memWrite]; split <;> simp [memRead, Ne.symm h]
  | cons e r ih =>
    obtain ⟨k, d⟩ := e
    simp only [memWfFrom, Bool.and_eq_true, decide_eq_true_eq] at w
    simp only [memWrite]
    split
    · split
      · rfl
      · simp [memRead, Ne.symm h]
    · split
      · rename_i h1 h2
        subst h2
        split
        · simp only [memRead]; rw [if_neg (Ne.symm h)]
        · simp [memRead, Ne.symm h]
      · simp only [memRead]; split
        · rfl
        · exact ih w.2

/-- A write of some bytes keeps the canonical form. -/
theorem memWf_writeN (m : List Host.Cell) (w : Memory.wf m = true) (a : Nat) (bs : List Byte) :
    Memory.wf (memWriteN m a bs) = true := by
  induction bs generalizing m a with
  | nil => exact w
  | cons b r ih => exact ih _ (memWfFrom_write m w (Nat.zero_le a) b) (a + 1)

/-- A write of some bytes leaves every byte outside them. -/
theorem memRead_writeN_other (m : List Host.Cell) (w : Memory.wf m = true) (a : Nat) (bs : List Byte) (c : Nat)
    (h : c < a ∨ a + bs.length ≤ c) : memRead (memWriteN m a bs) c = memRead m c := by
  induction bs generalizing m a with
  | nil => rfl
  | cons b r ih =>
    simp only [List.length_cons] at h
    simp only [memWriteN]
    rw [ih _ (memWfFrom_write m w (Nat.zero_le a) b) (a + 1) (by omega), memRead_write_other m w (by omega)]

/-- A read of the bytes written gives them. -/
theorem memRead_writeN_self (m : List Host.Cell) (w : Memory.wf m = true) (a : Nat) (bs : List Byte) (i : Nat) (h : i < bs.length) :
    memRead (memWriteN m a bs) (a + i) = bs[i] := by
  induction bs generalizing m a i with
  | nil => simp at h
  | cons b r ih =>
    simp only [memWriteN]
    have w' := memWfFrom_write m w (Nat.zero_le a) b
    cases i with
    | zero =>
      rw [memRead_writeN_other _ w' (a + 1) r (a + 0) (by omega)]
      simpa using memRead_write_self m w a b
    | succ j =>
      have := ih _ w' (a + 1) j (by simpa using h)
      rw [show a + (j + 1) = a + 1 + j by omega]
      simpa using this

/-- A read of as many bytes as were written, from where they were written. -/
theorem memReadN_writeN (m : List Host.Cell) (w : Memory.wf m = true) (a : Nat) (bs : List Byte) :
    memReadN (memWriteN m a bs) a bs.length = bs := by
  unfold memReadN
  apply List.ext_getElem (by simp)
  intro i h1 h2
  simpa using memRead_writeN_self m w a bs i h2

/-- A listed byte that is kept or dropped by its address leaves the canonical form. -/
theorem memWfFrom_filter (lo : Nat) (m : List Host.Cell) (w : memWfFrom lo m = true) (p : Host.Cell → Bool) :
    memWfFrom lo (m.filter p) = true := by
  induction m generalizing lo with
  | nil => rfl
  | cons e r ih =>
    obtain ⟨k, b⟩ := e
    simp only [memWfFrom, Bool.and_eq_true, decide_eq_true_eq] at w
    simp only [List.filter]
    split
    · simp only [memWfFrom, Bool.and_eq_true, decide_eq_true_eq]; exact ⟨w.1, ih _ w.2⟩
    · exact memWfFrom_mono (by omega) _ (ih _ w.2)

/-- Dropping listed bytes keeps the canonical form. -/
theorem memWf_filter (m : List Host.Cell) (w : Memory.wf m = true) (p : Host.Cell → Bool) : Memory.wf (m.filter p) = true :=
  memWfFrom_filter 0 m w p

end Sys2Proof.Machine
end

