-- ==== Sys2Proof/Laws/Recorder.lean ====
section
/-! SUPPORT. What the use of a recorder slot brings: one lemma for each case of R492. -/

namespace Sys2Proof.Machine

theorem afterSlot_plain (s : State) (h1 : s.evr.store.length ≠ 30000) (h2 : s.evr.store.length ≠ storeSlots) :
    afterSlot s = s := by
  unfold afterSlot; simp only [h1, h2, if_false]

theorem afterSlot_notice (s : State) (h : s.evr.store.length = 30000) : afterSlot s = stateChange 0x0B02 [] s := by
  unfold afterSlot; simp only [h, if_true]

theorem afterSlot_full (s : State) (h : s.evr.store.length = storeSlots) :
    afterSlot s = stateChange 0x0B03 [] { s with evr := { s.evr with full := true } } := by
  unfold afterSlot
  have : s.evr.store.length ≠ 30000 := by rw [h]; unfold storeSlots; omega
  simp only [this, if_false]
  rw [if_pos h]

end Sys2Proof.Machine
end

