-- ==== Sys2Proof/Laws/State.lean ====
section
/-! SUPPORT. What each update of the state leaves unchanged, one lemma per update and field, and what it makes its entry read. -/

namespace Sys2Proof.Machine

variable (s : State)

section
variable (q : Nat) (f : HostQ → HostQ)

@[simp] theorem updHrq_pending : (updHrq q f s).pending = s.pending := rfl
@[simp] theorem updHrq_out : (updHrq q f s).out = s.out := rfl
@[simp] theorem updHrq_mono : (updHrq q f s).mono = s.mono := rfl
@[simp] theorem updHrq_free : (updHrq q f s).free = s.free := rfl
@[simp] theorem updHrq_epoch : (updHrq q f s).epoch = s.epoch := rfl
@[simp] theorem updHrq_boot : (updHrq q f s).boot = s.boot := rfl
@[simp] theorem updHrq_time : (updHrq q f s).time = s.time := rfl
@[simp] theorem updHrq_flt : (updHrq q f s).flt = s.flt := rfl
@[simp] theorem updHrq_pat : (updHrq q f s).pat = s.pat := rfl
@[simp] theorem updHrq_evr : (updHrq q f s).evr = s.evr := rfl
@[simp] theorem updHrq_ctr : (updHrq q f s).ctr = s.ctr := rfl
@[simp] theorem updHrq_vault : (updHrq q f s).vault = s.vault := rfl
@[simp] theorem updHrq_cipher : (updHrq q f s).cipher = s.cipher := rfl
@[simp] theorem updHrq_power : (updHrq q f s).power = s.power := rfl
@[simp] theorem updHrq_link : (updHrq q f s).link = s.link := rfl
@[simp] theorem updHrq_halter : (updHrq q f s).halter = s.halter := rfl
@[simp] theorem updHrq_pon : (updHrq q f s).pon = s.pon := rfl
@[simp] theorem updHrq_weaver : (updHrq q f s).weaver = s.weaver := rfl
@[simp] theorem updHrq_pkt : (updHrq q f s).pkt = s.pkt := rfl
@[simp] theorem updHrq_rules : (updHrq q f s).rules = s.rules := rfl
@[simp] theorem updHrq_tm : (updHrq q f s).tm = s.tm := rfl
@[simp] theorem updHrq_mem : (updHrq q f s).mem = s.mem := rfl
@[simp] theorem hrqAt_updHrq_self : hrqAt (updHrq q f s) q = f (hrqAt s q) := by
  simp [hrqAt, updHrq, mgetD, mget_mset_self]
theorem hrqAt_updHrq_other (j : Nat) (h : q ≠ j) : hrqAt (updHrq q f s) j = hrqAt s j := by
  simp [hrqAt, updHrq, mgetD, mget_mset_other _ _ _ _ h]
end

section
variable (q : Nat) (f : HostQ → HostQ)

@[simp] theorem updHiq_pending : (updHiq q f s).pending = s.pending := rfl
@[simp] theorem updHiq_out : (updHiq q f s).out = s.out := rfl
@[simp] theorem updHiq_mono : (updHiq q f s).mono = s.mono := rfl
@[simp] theorem updHiq_free : (updHiq q f s).free = s.free := rfl
@[simp] theorem updHiq_epoch : (updHiq q f s).epoch = s.epoch := rfl
@[simp] theorem updHiq_boot : (updHiq q f s).boot = s.boot := rfl
@[simp] theorem updHiq_time : (updHiq q f s).time = s.time := rfl
@[simp] theorem updHiq_flt : (updHiq q f s).flt = s.flt := rfl
@[simp] theorem updHiq_pat : (updHiq q f s).pat = s.pat := rfl
@[simp] theorem updHiq_evr : (updHiq q f s).evr = s.evr := rfl
@[simp] theorem updHiq_ctr : (updHiq q f s).ctr = s.ctr := rfl
@[simp] theorem updHiq_vault : (updHiq q f s).vault = s.vault := rfl
@[simp] theorem updHiq_cipher : (updHiq q f s).cipher = s.cipher := rfl
@[simp] theorem updHiq_power : (updHiq q f s).power = s.power := rfl
@[simp] theorem updHiq_link : (updHiq q f s).link = s.link := rfl
@[simp] theorem updHiq_halter : (updHiq q f s).halter = s.halter := rfl
@[simp] theorem updHiq_pon : (updHiq q f s).pon = s.pon := rfl
@[simp] theorem updHiq_weaver : (updHiq q f s).weaver = s.weaver := rfl
@[simp] theorem updHiq_pkt : (updHiq q f s).pkt = s.pkt := rfl
@[simp] theorem updHiq_rules : (updHiq q f s).rules = s.rules := rfl
@[simp] theorem updHiq_tm : (updHiq q f s).tm = s.tm := rfl
@[simp] theorem updHiq_mem : (updHiq q f s).mem = s.mem := rfl
@[simp] theorem hiqAt_updHiq_self : hiqAt (updHiq q f s) q = f (hiqAt s q) := by
  simp [hiqAt, updHiq, mgetD, mget_mset_self]
theorem hiqAt_updHiq_other (j : Nat) (h : q ≠ j) : hiqAt (updHiq q f s) j = hiqAt s j := by
  simp [hiqAt, updHiq, mgetD, mget_mset_other _ _ _ _ h]
end

section
variable (k : Nat) (f : Copy → Copy)

@[simp] theorem updCopy_pending : (updCopy k f s).pending = s.pending := rfl
@[simp] theorem updCopy_out : (updCopy k f s).out = s.out := rfl
@[simp] theorem updCopy_mono : (updCopy k f s).mono = s.mono := rfl
@[simp] theorem updCopy_free : (updCopy k f s).free = s.free := rfl
@[simp] theorem updCopy_host : (updCopy k f s).host = s.host := rfl
@[simp] theorem updCopy_epoch : (updCopy k f s).epoch = s.epoch := rfl
@[simp] theorem updCopy_time : (updCopy k f s).time = s.time := rfl
@[simp] theorem updCopy_flt : (updCopy k f s).flt = s.flt := rfl
@[simp] theorem updCopy_pat : (updCopy k f s).pat = s.pat := rfl
@[simp] theorem updCopy_evr : (updCopy k f s).evr = s.evr := rfl
@[simp] theorem updCopy_ctr : (updCopy k f s).ctr = s.ctr := rfl
@[simp] theorem updCopy_vault : (updCopy k f s).vault = s.vault := rfl
@[simp] theorem updCopy_cipher : (updCopy k f s).cipher = s.cipher := rfl
@[simp] theorem updCopy_power : (updCopy k f s).power = s.power := rfl
@[simp] theorem updCopy_link : (updCopy k f s).link = s.link := rfl
@[simp] theorem updCopy_halter : (updCopy k f s).halter = s.halter := rfl
@[simp] theorem updCopy_pon : (updCopy k f s).pon = s.pon := rfl
@[simp] theorem updCopy_weaver : (updCopy k f s).weaver = s.weaver := rfl
@[simp] theorem updCopy_pkt : (updCopy k f s).pkt = s.pkt := rfl
@[simp] theorem updCopy_rules : (updCopy k f s).rules = s.rules := rfl
@[simp] theorem updCopy_tm : (updCopy k f s).tm = s.tm := rfl
@[simp] theorem updCopy_mem : (updCopy k f s).mem = s.mem := rfl
@[simp] theorem copyAt_updCopy_self : copyAt (updCopy k f s) k = f (copyAt s k) := by
  simp [copyAt, updCopy, mgetD, mget_mset_self]
theorem copyAt_updCopy_other (j : Nat) (h : k ≠ j) : copyAt (updCopy k f s) j = copyAt s j := by
  simp [copyAt, updCopy, mgetD, mget_mset_other _ _ _ _ h]
end

section
variable (i : Nat) (f : SyncSrc → SyncSrc)

@[simp] theorem updSource_pending : (updSource i f s).pending = s.pending := rfl
@[simp] theorem updSource_out : (updSource i f s).out = s.out := rfl
@[simp] theorem updSource_mono : (updSource i f s).mono = s.mono := rfl
@[simp] theorem updSource_free : (updSource i f s).free = s.free := rfl
@[simp] theorem updSource_host : (updSource i f s).host = s.host := rfl
@[simp] theorem updSource_epoch : (updSource i f s).epoch = s.epoch := rfl
@[simp] theorem updSource_boot : (updSource i f s).boot = s.boot := rfl
@[simp] theorem updSource_flt : (updSource i f s).flt = s.flt := rfl
@[simp] theorem updSource_pat : (updSource i f s).pat = s.pat := rfl
@[simp] theorem updSource_evr : (updSource i f s).evr = s.evr := rfl
@[simp] theorem updSource_ctr : (updSource i f s).ctr = s.ctr := rfl
@[simp] theorem updSource_vault : (updSource i f s).vault = s.vault := rfl
@[simp] theorem updSource_cipher : (updSource i f s).cipher = s.cipher := rfl
@[simp] theorem updSource_power : (updSource i f s).power = s.power := rfl
@[simp] theorem updSource_link : (updSource i f s).link = s.link := rfl
@[simp] theorem updSource_halter : (updSource i f s).halter = s.halter := rfl
@[simp] theorem updSource_pon : (updSource i f s).pon = s.pon := rfl
@[simp] theorem updSource_weaver : (updSource i f s).weaver = s.weaver := rfl
@[simp] theorem updSource_pkt : (updSource i f s).pkt = s.pkt := rfl
@[simp] theorem updSource_rules : (updSource i f s).rules = s.rules := rfl
@[simp] theorem updSource_tm : (updSource i f s).tm = s.tm := rfl
@[simp] theorem updSource_mem : (updSource i f s).mem = s.mem := rfl
end

section
variable (i : Nat) (f : Feed → Feed)

@[simp] theorem updFeed_pending : (updFeed i f s).pending = s.pending := by unfold updFeed; split <;> rfl
@[simp] theorem updFeed_out : (updFeed i f s).out = s.out := by unfold updFeed; split <;> rfl
@[simp] theorem updFeed_mono : (updFeed i f s).mono = s.mono := by unfold updFeed; split <;> rfl
@[simp] theorem updFeed_free : (updFeed i f s).free = s.free := by unfold updFeed; split <;> rfl
@[simp] theorem updFeed_host : (updFeed i f s).host = s.host := by unfold updFeed; split <;> rfl
@[simp] theorem updFeed_epoch : (updFeed i f s).epoch = s.epoch := by unfold updFeed; split <;> rfl
@[simp] theorem updFeed_boot : (updFeed i f s).boot = s.boot := by unfold updFeed; split <;> rfl
@[simp] theorem updFeed_time : (updFeed i f s).time = s.time := by unfold updFeed; split <;> rfl
@[simp] theorem updFeed_flt : (updFeed i f s).flt = s.flt := by unfold updFeed; split <;> rfl
@[simp] theorem updFeed_pat : (updFeed i f s).pat = s.pat := by unfold updFeed; split <;> rfl
@[simp] theorem updFeed_evr : (updFeed i f s).evr = s.evr := by unfold updFeed; split <;> rfl
@[simp] theorem updFeed_ctr : (updFeed i f s).ctr = s.ctr := by unfold updFeed; split <;> rfl
@[simp] theorem updFeed_vault : (updFeed i f s).vault = s.vault := by unfold updFeed; split <;> rfl
@[simp] theorem updFeed_cipher : (updFeed i f s).cipher = s.cipher := by unfold updFeed; split <;> rfl
@[simp] theorem updFeed_link : (updFeed i f s).link = s.link := by unfold updFeed; split <;> rfl
@[simp] theorem updFeed_halter : (updFeed i f s).halter = s.halter := by unfold updFeed; split <;> rfl
@[simp] theorem updFeed_pon : (updFeed i f s).pon = s.pon := by unfold updFeed; split <;> rfl
@[simp] theorem updFeed_weaver : (updFeed i f s).weaver = s.weaver := by unfold updFeed; split <;> rfl
@[simp] theorem updFeed_pkt : (updFeed i f s).pkt = s.pkt := by unfold updFeed; split <;> rfl
@[simp] theorem updFeed_rules : (updFeed i f s).rules = s.rules := by unfold updFeed; split <;> rfl
@[simp] theorem updFeed_tm : (updFeed i f s).tm = s.tm := by unfold updFeed; split <;> rfl
@[simp] theorem updFeed_mem : (updFeed i f s).mem = s.mem := by unfold updFeed; split <;> rfl
end

section
variable (i : Nat) (f : Lane → Lane)

@[simp] theorem updLane_pending : (updLane i f s).pending = s.pending := rfl
@[simp] theorem updLane_out : (updLane i f s).out = s.out := rfl
@[simp] theorem updLane_mono : (updLane i f s).mono = s.mono := rfl
@[simp] theorem updLane_free : (updLane i f s).free = s.free := rfl
@[simp] theorem updLane_host : (updLane i f s).host = s.host := rfl
@[simp] theorem updLane_epoch : (updLane i f s).epoch = s.epoch := rfl
@[simp] theorem updLane_boot : (updLane i f s).boot = s.boot := rfl
@[simp] theorem updLane_time : (updLane i f s).time = s.time := rfl
@[simp] theorem updLane_flt : (updLane i f s).flt = s.flt := rfl
@[simp] theorem updLane_pat : (updLane i f s).pat = s.pat := rfl
@[simp] theorem updLane_evr : (updLane i f s).evr = s.evr := rfl
@[simp] theorem updLane_ctr : (updLane i f s).ctr = s.ctr := rfl
@[simp] theorem updLane_vault : (updLane i f s).vault = s.vault := rfl
@[simp] theorem updLane_cipher : (updLane i f s).cipher = s.cipher := rfl
@[simp] theorem updLane_power : (updLane i f s).power = s.power := rfl
@[simp] theorem updLane_halter : (updLane i f s).halter = s.halter := rfl
@[simp] theorem updLane_pon : (updLane i f s).pon = s.pon := rfl
@[simp] theorem updLane_weaver : (updLane i f s).weaver = s.weaver := rfl
@[simp] theorem updLane_pkt : (updLane i f s).pkt = s.pkt := rfl
@[simp] theorem updLane_rules : (updLane i f s).rules = s.rules := rfl
@[simp] theorem updLane_tm : (updLane i f s).tm = s.tm := rfl
@[simp] theorem updLane_mem : (updLane i f s).mem = s.mem := rfl
end

section
variable (i : Nat) (f : Side → Side)

@[simp] theorem updSide_pending : (updSide i f s).pending = s.pending := by unfold updSide; split <;> rfl
@[simp] theorem updSide_out : (updSide i f s).out = s.out := by unfold updSide; split <;> rfl
@[simp] theorem updSide_mono : (updSide i f s).mono = s.mono := by unfold updSide; split <;> rfl
@[simp] theorem updSide_free : (updSide i f s).free = s.free := by unfold updSide; split <;> rfl
@[simp] theorem updSide_host : (updSide i f s).host = s.host := by unfold updSide; split <;> rfl
@[simp] theorem updSide_epoch : (updSide i f s).epoch = s.epoch := by unfold updSide; split <;> rfl
@[simp] theorem updSide_boot : (updSide i f s).boot = s.boot := by unfold updSide; split <;> rfl
@[simp] theorem updSide_time : (updSide i f s).time = s.time := by unfold updSide; split <;> rfl
@[simp] theorem updSide_flt : (updSide i f s).flt = s.flt := by unfold updSide; split <;> rfl
@[simp] theorem updSide_pat : (updSide i f s).pat = s.pat := by unfold updSide; split <;> rfl
@[simp] theorem updSide_evr : (updSide i f s).evr = s.evr := by unfold updSide; split <;> rfl
@[simp] theorem updSide_ctr : (updSide i f s).ctr = s.ctr := by unfold updSide; split <;> rfl
@[simp] theorem updSide_vault : (updSide i f s).vault = s.vault := by unfold updSide; split <;> rfl
@[simp] theorem updSide_cipher : (updSide i f s).cipher = s.cipher := by unfold updSide; split <;> rfl
@[simp] theorem updSide_power : (updSide i f s).power = s.power := by unfold updSide; split <;> rfl
@[simp] theorem updSide_halter : (updSide i f s).halter = s.halter := by unfold updSide; split <;> rfl
@[simp] theorem updSide_pon : (updSide i f s).pon = s.pon := by unfold updSide; split <;> rfl
@[simp] theorem updSide_weaver : (updSide i f s).weaver = s.weaver := by unfold updSide; split <;> rfl
@[simp] theorem updSide_pkt : (updSide i f s).pkt = s.pkt := by unfold updSide; split <;> rfl
@[simp] theorem updSide_rules : (updSide i f s).rules = s.rules := by unfold updSide; split <;> rfl
@[simp] theorem updSide_tm : (updSide i f s).tm = s.tm := by unfold updSide; split <;> rfl
@[simp] theorem updSide_mem : (updSide i f s).mem = s.mem := by unfold updSide; split <;> rfl
end

section
variable (f : Selector → Selector)

@[simp] theorem updSel_pending : (updSel f s).pending = s.pending := rfl
@[simp] theorem updSel_out : (updSel f s).out = s.out := rfl
@[simp] theorem updSel_mono : (updSel f s).mono = s.mono := rfl
@[simp] theorem updSel_free : (updSel f s).free = s.free := rfl
@[simp] theorem updSel_host : (updSel f s).host = s.host := rfl
@[simp] theorem updSel_epoch : (updSel f s).epoch = s.epoch := rfl
@[simp] theorem updSel_boot : (updSel f s).boot = s.boot := rfl
@[simp] theorem updSel_time : (updSel f s).time = s.time := rfl
@[simp] theorem updSel_flt : (updSel f s).flt = s.flt := rfl
@[simp] theorem updSel_pat : (updSel f s).pat = s.pat := rfl
@[simp] theorem updSel_evr : (updSel f s).evr = s.evr := rfl
@[simp] theorem updSel_ctr : (updSel f s).ctr = s.ctr := rfl
@[simp] theorem updSel_vault : (updSel f s).vault = s.vault := rfl
@[simp] theorem updSel_cipher : (updSel f s).cipher = s.cipher := rfl
@[simp] theorem updSel_power : (updSel f s).power = s.power := rfl
@[simp] theorem updSel_halter : (updSel f s).halter = s.halter := rfl
@[simp] theorem updSel_pon : (updSel f s).pon = s.pon := rfl
@[simp] theorem updSel_weaver : (updSel f s).weaver = s.weaver := rfl
@[simp] theorem updSel_pkt : (updSel f s).pkt = s.pkt := rfl
@[simp] theorem updSel_rules : (updSel f s).rules = s.rules := rfl
@[simp] theorem updSel_tm : (updSel f s).tm = s.tm := rfl
@[simp] theorem updSel_mem : (updSel f s).mem = s.mem := rfl
end

section
variable (p : Nat) (f : UplinkPort → UplinkPort)

@[simp] theorem updUp_pending : (updUp p f s).pending = s.pending := rfl
@[simp] theorem updUp_out : (updUp p f s).out = s.out := rfl
@[simp] theorem updUp_mono : (updUp p f s).mono = s.mono := rfl
@[simp] theorem updUp_free : (updUp p f s).free = s.free := rfl
@[simp] theorem updUp_host : (updUp p f s).host = s.host := rfl
@[simp] theorem updUp_epoch : (updUp p f s).epoch = s.epoch := rfl
@[simp] theorem updUp_boot : (updUp p f s).boot = s.boot := rfl
@[simp] theorem updUp_time : (updUp p f s).time = s.time := rfl
@[simp] theorem updUp_flt : (updUp p f s).flt = s.flt := rfl
@[simp] theorem updUp_pat : (updUp p f s).pat = s.pat := rfl
@[simp] theorem updUp_evr : (updUp p f s).evr = s.evr := rfl
@[simp] theorem updUp_ctr : (updUp p f s).ctr = s.ctr := rfl
@[simp] theorem updUp_vault : (updUp p f s).vault = s.vault := rfl
@[simp] theorem updUp_cipher : (updUp p f s).cipher = s.cipher := rfl
@[simp] theorem updUp_power : (updUp p f s).power = s.power := rfl
@[simp] theorem updUp_halter : (updUp p f s).halter = s.halter := rfl
@[simp] theorem updUp_pon : (updUp p f s).pon = s.pon := rfl
@[simp] theorem updUp_weaver : (updUp p f s).weaver = s.weaver := rfl
@[simp] theorem updUp_pkt : (updUp p f s).pkt = s.pkt := rfl
@[simp] theorem updUp_rules : (updUp p f s).rules = s.rules := rfl
@[simp] theorem updUp_tm : (updUp p f s).tm = s.tm := rfl
@[simp] theorem updUp_mem : (updUp p f s).mem = s.mem := rfl
@[simp] theorem upPort_updUp_self : upPort (updUp p f s) p = f (upPort s p) := by
  simp [upPort, updUp, mgetD, mget_mset_self]
theorem upPort_updUp_other (j : Nat) (h : p ≠ j) : upPort (updUp p f s) j = upPort s j := by
  simp [upPort, updUp, mgetD, mget_mset_other _ _ _ _ h]
end

section
variable (p : Nat) (f : Port → Port)

@[simp] theorem updPort_pending : (updPort p f s).pending = s.pending := rfl
@[simp] theorem updPort_out : (updPort p f s).out = s.out := rfl
@[simp] theorem updPort_mono : (updPort p f s).mono = s.mono := rfl
@[simp] theorem updPort_free : (updPort p f s).free = s.free := rfl
@[simp] theorem updPort_host : (updPort p f s).host = s.host := rfl
@[simp] theorem updPort_epoch : (updPort p f s).epoch = s.epoch := rfl
@[simp] theorem updPort_boot : (updPort p f s).boot = s.boot := rfl
@[simp] theorem updPort_time : (updPort p f s).time = s.time := rfl
@[simp] theorem updPort_flt : (updPort p f s).flt = s.flt := rfl
@[simp] theorem updPort_pat : (updPort p f s).pat = s.pat := rfl
@[simp] theorem updPort_evr : (updPort p f s).evr = s.evr := rfl
@[simp] theorem updPort_ctr : (updPort p f s).ctr = s.ctr := rfl
@[simp] theorem updPort_vault : (updPort p f s).vault = s.vault := rfl
@[simp] theorem updPort_cipher : (updPort p f s).cipher = s.cipher := rfl
@[simp] theorem updPort_power : (updPort p f s).power = s.power := rfl
@[simp] theorem updPort_link : (updPort p f s).link = s.link := rfl
@[simp] theorem updPort_halter : (updPort p f s).halter = s.halter := rfl
@[simp] theorem updPort_weaver : (updPort p f s).weaver = s.weaver := rfl
@[simp] theorem updPort_pkt : (updPort p f s).pkt = s.pkt := rfl
@[simp] theorem updPort_rules : (updPort p f s).rules = s.rules := rfl
@[simp] theorem updPort_tm : (updPort p f s).tm = s.tm := rfl
@[simp] theorem updPort_mem : (updPort p f s).mem = s.mem := rfl
@[simp] theorem portAt_updPort_self : portAt (updPort p f s) p = f (portAt s p) := by
  simp [portAt, updPort, mgetD, mget_mset_self]
theorem portAt_updPort_other (j : Nat) (h : p ≠ j) : portAt (updPort p f s) j = portAt s j := by
  simp [portAt, updPort, mgetD, mget_mset_other _ _ _ _ h]
end

section
variable (i : Nat) (f : Terminal → Terminal)

@[simp] theorem updTerm_pending : (updTerm i f s).pending = s.pending := by unfold updTerm; split <;> rfl
@[simp] theorem updTerm_out : (updTerm i f s).out = s.out := by unfold updTerm; split <;> rfl
@[simp] theorem updTerm_mono : (updTerm i f s).mono = s.mono := by unfold updTerm; split <;> rfl
@[simp] theorem updTerm_free : (updTerm i f s).free = s.free := by unfold updTerm; split <;> rfl
@[simp] theorem updTerm_host : (updTerm i f s).host = s.host := by unfold updTerm; split <;> rfl
@[simp] theorem updTerm_epoch : (updTerm i f s).epoch = s.epoch := by unfold updTerm; split <;> rfl
@[simp] theorem updTerm_boot : (updTerm i f s).boot = s.boot := by unfold updTerm; split <;> rfl
@[simp] theorem updTerm_time : (updTerm i f s).time = s.time := by unfold updTerm; split <;> rfl
@[simp] theorem updTerm_flt : (updTerm i f s).flt = s.flt := by unfold updTerm; split <;> rfl
@[simp] theorem updTerm_pat : (updTerm i f s).pat = s.pat := by unfold updTerm; split <;> rfl
@[simp] theorem updTerm_evr : (updTerm i f s).evr = s.evr := by unfold updTerm; split <;> rfl
@[simp] theorem updTerm_ctr : (updTerm i f s).ctr = s.ctr := by unfold updTerm; split <;> rfl
@[simp] theorem updTerm_vault : (updTerm i f s).vault = s.vault := by unfold updTerm; split <;> rfl
@[simp] theorem updTerm_cipher : (updTerm i f s).cipher = s.cipher := by unfold updTerm; split <;> rfl
@[simp] theorem updTerm_power : (updTerm i f s).power = s.power := by unfold updTerm; split <;> rfl
@[simp] theorem updTerm_link : (updTerm i f s).link = s.link := by unfold updTerm; split <;> rfl
@[simp] theorem updTerm_halter : (updTerm i f s).halter = s.halter := by unfold updTerm; split <;> rfl
@[simp] theorem updTerm_weaver : (updTerm i f s).weaver = s.weaver := by unfold updTerm; split <;> rfl
@[simp] theorem updTerm_pkt : (updTerm i f s).pkt = s.pkt := by unfold updTerm; split <;> rfl
@[simp] theorem updTerm_rules : (updTerm i f s).rules = s.rules := by unfold updTerm; split <;> rfl
@[simp] theorem updTerm_tm : (updTerm i f s).tm = s.tm := by unfold updTerm; split <;> rfl
@[simp] theorem updTerm_mem : (updTerm i f s).mem = s.mem := by unfold updTerm; split <;> rfl
end

section
variable (k : Nat) (f : Lane5 → Lane5)

@[simp] theorem updLane5_pending : (updLane5 k f s).pending = s.pending := rfl
@[simp] theorem updLane5_out : (updLane5 k f s).out = s.out := rfl
@[simp] theorem updLane5_mono : (updLane5 k f s).mono = s.mono := rfl
@[simp] theorem updLane5_free : (updLane5 k f s).free = s.free := rfl
@[simp] theorem updLane5_host : (updLane5 k f s).host = s.host := rfl
@[simp] theorem updLane5_epoch : (updLane5 k f s).epoch = s.epoch := rfl
@[simp] theorem updLane5_boot : (updLane5 k f s).boot = s.boot := rfl
@[simp] theorem updLane5_time : (updLane5 k f s).time = s.time := rfl
@[simp] theorem updLane5_flt : (updLane5 k f s).flt = s.flt := rfl
@[simp] theorem updLane5_pat : (updLane5 k f s).pat = s.pat := rfl
@[simp] theorem updLane5_evr : (updLane5 k f s).evr = s.evr := rfl
@[simp] theorem updLane5_ctr : (updLane5 k f s).ctr = s.ctr := rfl
@[simp] theorem updLane5_vault : (updLane5 k f s).vault = s.vault := rfl
@[simp] theorem updLane5_cipher : (updLane5 k f s).cipher = s.cipher := rfl
@[simp] theorem updLane5_power : (updLane5 k f s).power = s.power := rfl
@[simp] theorem updLane5_link : (updLane5 k f s).link = s.link := rfl
@[simp] theorem updLane5_halter : (updLane5 k f s).halter = s.halter := rfl
@[simp] theorem updLane5_pon : (updLane5 k f s).pon = s.pon := rfl
@[simp] theorem updLane5_pkt : (updLane5 k f s).pkt = s.pkt := rfl
@[simp] theorem updLane5_rules : (updLane5 k f s).rules = s.rules := rfl
@[simp] theorem updLane5_tm : (updLane5 k f s).tm = s.tm := rfl
@[simp] theorem updLane5_mem : (updLane5 k f s).mem = s.mem := rfl
@[simp] theorem laneAt5_updLane5_self : laneAt5 (updLane5 k f s) k = f (laneAt5 s k) := by
  simp [laneAt5, updLane5, mgetD, mget_mset_self]
theorem laneAt5_updLane5_other (j : Nat) (h : k ≠ j) : laneAt5 (updLane5 k f s) j = laneAt5 s j := by
  simp [laneAt5, updLane5, mgetD, mget_mset_other _ _ _ _ h]
end

section
variable (k : Nat) (f : Alloc → Alloc)

@[simp] theorem updAlloc_pending : (updAlloc k f s).pending = s.pending := by unfold updAlloc; split <;> rfl
@[simp] theorem updAlloc_out : (updAlloc k f s).out = s.out := by unfold updAlloc; split <;> rfl
@[simp] theorem updAlloc_mono : (updAlloc k f s).mono = s.mono := by unfold updAlloc; split <;> rfl
@[simp] theorem updAlloc_free : (updAlloc k f s).free = s.free := by unfold updAlloc; split <;> rfl
@[simp] theorem updAlloc_host : (updAlloc k f s).host = s.host := by unfold updAlloc; split <;> rfl
@[simp] theorem updAlloc_epoch : (updAlloc k f s).epoch = s.epoch := by unfold updAlloc; split <;> rfl
@[simp] theorem updAlloc_boot : (updAlloc k f s).boot = s.boot := by unfold updAlloc; split <;> rfl
@[simp] theorem updAlloc_time : (updAlloc k f s).time = s.time := by unfold updAlloc; split <;> rfl
@[simp] theorem updAlloc_flt : (updAlloc k f s).flt = s.flt := by unfold updAlloc; split <;> rfl
@[simp] theorem updAlloc_pat : (updAlloc k f s).pat = s.pat := by unfold updAlloc; split <;> rfl
@[simp] theorem updAlloc_evr : (updAlloc k f s).evr = s.evr := by unfold updAlloc; split <;> rfl
@[simp] theorem updAlloc_ctr : (updAlloc k f s).ctr = s.ctr := by unfold updAlloc; split <;> rfl
@[simp] theorem updAlloc_vault : (updAlloc k f s).vault = s.vault := by unfold updAlloc; split <;> rfl
@[simp] theorem updAlloc_cipher : (updAlloc k f s).cipher = s.cipher := by unfold updAlloc; split <;> rfl
@[simp] theorem updAlloc_power : (updAlloc k f s).power = s.power := by unfold updAlloc; split <;> rfl
@[simp] theorem updAlloc_link : (updAlloc k f s).link = s.link := by unfold updAlloc; split <;> rfl
@[simp] theorem updAlloc_halter : (updAlloc k f s).halter = s.halter := by unfold updAlloc; split <;> rfl
@[simp] theorem updAlloc_pon : (updAlloc k f s).pon = s.pon := by unfold updAlloc; split <;> rfl
@[simp] theorem updAlloc_pkt : (updAlloc k f s).pkt = s.pkt := by unfold updAlloc; split <;> rfl
@[simp] theorem updAlloc_rules : (updAlloc k f s).rules = s.rules := by unfold updAlloc; split <;> rfl
@[simp] theorem updAlloc_tm : (updAlloc k f s).tm = s.tm := by unfold updAlloc; split <;> rfl
@[simp] theorem updAlloc_mem : (updAlloc k f s).mem = s.mem := by unfold updAlloc; split <;> rfl
end

section
variable (p : Nat) (f : PortMaps → PortMaps)

@[simp] theorem updMaps_pending : (updMaps p f s).pending = s.pending := rfl
@[simp] theorem updMaps_out : (updMaps p f s).out = s.out := rfl
@[simp] theorem updMaps_mono : (updMaps p f s).mono = s.mono := rfl
@[simp] theorem updMaps_free : (updMaps p f s).free = s.free := rfl
@[simp] theorem updMaps_host : (updMaps p f s).host = s.host := rfl
@[simp] theorem updMaps_epoch : (updMaps p f s).epoch = s.epoch := rfl
@[simp] theorem updMaps_boot : (updMaps p f s).boot = s.boot := rfl
@[simp] theorem updMaps_time : (updMaps p f s).time = s.time := rfl
@[simp] theorem updMaps_flt : (updMaps p f s).flt = s.flt := rfl
@[simp] theorem updMaps_pat : (updMaps p f s).pat = s.pat := rfl
@[simp] theorem updMaps_evr : (updMaps p f s).evr = s.evr := rfl
@[simp] theorem updMaps_ctr : (updMaps p f s).ctr = s.ctr := rfl
@[simp] theorem updMaps_vault : (updMaps p f s).vault = s.vault := rfl
@[simp] theorem updMaps_cipher : (updMaps p f s).cipher = s.cipher := rfl
@[simp] theorem updMaps_power : (updMaps p f s).power = s.power := rfl
@[simp] theorem updMaps_link : (updMaps p f s).link = s.link := rfl
@[simp] theorem updMaps_halter : (updMaps p f s).halter = s.halter := rfl
@[simp] theorem updMaps_pon : (updMaps p f s).pon = s.pon := rfl
@[simp] theorem updMaps_pkt : (updMaps p f s).pkt = s.pkt := rfl
@[simp] theorem updMaps_rules : (updMaps p f s).rules = s.rules := rfl
@[simp] theorem updMaps_tm : (updMaps p f s).tm = s.tm := rfl
@[simp] theorem updMaps_mem : (updMaps p f s).mem = s.mem := rfl
@[simp] theorem mapsAt_updMaps_self : mapsAt (updMaps p f s) p = f (mapsAt s p) := by
  simp [mapsAt, updMaps, mgetD, mget_mset_self]
theorem mapsAt_updMaps_other (j : Nat) (h : p ≠ j) : mapsAt (updMaps p f s) j = mapsAt s j := by
  simp [mapsAt, updMaps, mgetD, mget_mset_other _ _ _ _ h]
end

section
variable (id : Nat) (x : Flight)

@[simp] theorem setFlight_pending : (setFlight id x s).pending = s.pending := rfl
@[simp] theorem setFlight_out : (setFlight id x s).out = s.out := rfl
@[simp] theorem setFlight_mono : (setFlight id x s).mono = s.mono := rfl
@[simp] theorem setFlight_free : (setFlight id x s).free = s.free := rfl
@[simp] theorem setFlight_host : (setFlight id x s).host = s.host := rfl
@[simp] theorem setFlight_epoch : (setFlight id x s).epoch = s.epoch := rfl
@[simp] theorem setFlight_boot : (setFlight id x s).boot = s.boot := rfl
@[simp] theorem setFlight_time : (setFlight id x s).time = s.time := rfl
@[simp] theorem setFlight_flt : (setFlight id x s).flt = s.flt := rfl
@[simp] theorem setFlight_pat : (setFlight id x s).pat = s.pat := rfl
@[simp] theorem setFlight_evr : (setFlight id x s).evr = s.evr := rfl
@[simp] theorem setFlight_ctr : (setFlight id x s).ctr = s.ctr := rfl
@[simp] theorem setFlight_vault : (setFlight id x s).vault = s.vault := rfl
@[simp] theorem setFlight_cipher : (setFlight id x s).cipher = s.cipher := rfl
@[simp] theorem setFlight_power : (setFlight id x s).power = s.power := rfl
@[simp] theorem setFlight_link : (setFlight id x s).link = s.link := rfl
@[simp] theorem setFlight_halter : (setFlight id x s).halter = s.halter := rfl
@[simp] theorem setFlight_pon : (setFlight id x s).pon = s.pon := rfl
@[simp] theorem setFlight_weaver : (setFlight id x s).weaver = s.weaver := rfl
@[simp] theorem setFlight_rules : (setFlight id x s).rules = s.rules := rfl
@[simp] theorem setFlight_tm : (setFlight id x s).tm = s.tm := rfl
@[simp] theorem setFlight_mem : (setFlight id x s).mem = s.mem := rfl
end

section
variable (v : Nat) (f : Version → Version)

@[simp] theorem updVersion_pending : (updVersion v f s).pending = s.pending := rfl
@[simp] theorem updVersion_out : (updVersion v f s).out = s.out := rfl
@[simp] theorem updVersion_mono : (updVersion v f s).mono = s.mono := rfl
@[simp] theorem updVersion_free : (updVersion v f s).free = s.free := rfl
@[simp] theorem updVersion_host : (updVersion v f s).host = s.host := rfl
@[simp] theorem updVersion_epoch : (updVersion v f s).epoch = s.epoch := rfl
@[simp] theorem updVersion_boot : (updVersion v f s).boot = s.boot := rfl
@[simp] theorem updVersion_time : (updVersion v f s).time = s.time := rfl
@[simp] theorem updVersion_flt : (updVersion v f s).flt = s.flt := rfl
@[simp] theorem updVersion_pat : (updVersion v f s).pat = s.pat := rfl
@[simp] theorem updVersion_evr : (updVersion v f s).evr = s.evr := rfl
@[simp] theorem updVersion_ctr : (updVersion v f s).ctr = s.ctr := rfl
@[simp] theorem updVersion_vault : (updVersion v f s).vault = s.vault := rfl
@[simp] theorem updVersion_cipher : (updVersion v f s).cipher = s.cipher := rfl
@[simp] theorem updVersion_power : (updVersion v f s).power = s.power := rfl
@[simp] theorem updVersion_link : (updVersion v f s).link = s.link := rfl
@[simp] theorem updVersion_halter : (updVersion v f s).halter = s.halter := rfl
@[simp] theorem updVersion_pon : (updVersion v f s).pon = s.pon := rfl
@[simp] theorem updVersion_weaver : (updVersion v f s).weaver = s.weaver := rfl
@[simp] theorem updVersion_pkt : (updVersion v f s).pkt = s.pkt := rfl
@[simp] theorem updVersion_tm : (updVersion v f s).tm = s.tm := rfl
@[simp] theorem updVersion_mem : (updVersion v f s).mem = s.mem := rfl
@[simp] theorem versionAt_updVersion_self : versionAt (updVersion v f s) v = f (versionAt s v) := by
  simp [versionAt, updVersion, mgetD, mget_mset_self]
theorem versionAt_updVersion_other (j : Nat) (h : v ≠ j) : versionAt (updVersion v f s) j = versionAt s j := by
  simp [versionAt, updVersion, mgetD, mget_mset_other _ _ _ _ h]
end

section
variable (k : Nat) (t : MacTable)

@[simp] theorem setMac_pending : (setMac k t s).pending = s.pending := rfl
@[simp] theorem setMac_out : (setMac k t s).out = s.out := rfl
@[simp] theorem setMac_mono : (setMac k t s).mono = s.mono := rfl
@[simp] theorem setMac_free : (setMac k t s).free = s.free := rfl
@[simp] theorem setMac_host : (setMac k t s).host = s.host := rfl
@[simp] theorem setMac_epoch : (setMac k t s).epoch = s.epoch := rfl
@[simp] theorem setMac_boot : (setMac k t s).boot = s.boot := rfl
@[simp] theorem setMac_time : (setMac k t s).time = s.time := rfl
@[simp] theorem setMac_flt : (setMac k t s).flt = s.flt := rfl
@[simp] theorem setMac_pat : (setMac k t s).pat = s.pat := rfl
@[simp] theorem setMac_evr : (setMac k t s).evr = s.evr := rfl
@[simp] theorem setMac_ctr : (setMac k t s).ctr = s.ctr := rfl
@[simp] theorem setMac_vault : (setMac k t s).vault = s.vault := rfl
@[simp] theorem setMac_cipher : (setMac k t s).cipher = s.cipher := rfl
@[simp] theorem setMac_power : (setMac k t s).power = s.power := rfl
@[simp] theorem setMac_link : (setMac k t s).link = s.link := rfl
@[simp] theorem setMac_halter : (setMac k t s).halter = s.halter := rfl
@[simp] theorem setMac_pon : (setMac k t s).pon = s.pon := rfl
@[simp] theorem setMac_weaver : (setMac k t s).weaver = s.weaver := rfl
@[simp] theorem setMac_pkt : (setMac k t s).pkt = s.pkt := rfl
@[simp] theorem setMac_tm : (setMac k t s).tm = s.tm := rfl
@[simp] theorem setMac_mem : (setMac k t s).mem = s.mem := rfl
end

section
variable (src r : Nat)

@[simp] theorem setRelease_pending : (setRelease src r s).pending = s.pending := rfl
@[simp] theorem setRelease_out : (setRelease src r s).out = s.out := rfl
@[simp] theorem setRelease_mono : (setRelease src r s).mono = s.mono := rfl
@[simp] theorem setRelease_free : (setRelease src r s).free = s.free := rfl
@[simp] theorem setRelease_host : (setRelease src r s).host = s.host := rfl
@[simp] theorem setRelease_epoch : (setRelease src r s).epoch = s.epoch := rfl
@[simp] theorem setRelease_boot : (setRelease src r s).boot = s.boot := rfl
@[simp] theorem setRelease_time : (setRelease src r s).time = s.time := rfl
@[simp] theorem setRelease_flt : (setRelease src r s).flt = s.flt := rfl
@[simp] theorem setRelease_pat : (setRelease src r s).pat = s.pat := rfl
@[simp] theorem setRelease_evr : (setRelease src r s).evr = s.evr := rfl
@[simp] theorem setRelease_ctr : (setRelease src r s).ctr = s.ctr := rfl
@[simp] theorem setRelease_vault : (setRelease src r s).vault = s.vault := rfl
@[simp] theorem setRelease_cipher : (setRelease src r s).cipher = s.cipher := rfl
@[simp] theorem setRelease_power : (setRelease src r s).power = s.power := rfl
@[simp] theorem setRelease_link : (setRelease src r s).link = s.link := rfl
@[simp] theorem setRelease_halter : (setRelease src r s).halter = s.halter := rfl
@[simp] theorem setRelease_pon : (setRelease src r s).pon = s.pon := rfl
@[simp] theorem setRelease_weaver : (setRelease src r s).weaver = s.weaver := rfl
@[simp] theorem setRelease_pkt : (setRelease src r s).pkt = s.pkt := rfl
@[simp] theorem setRelease_tm : (setRelease src r s).tm = s.tm := rfl
@[simp] theorem setRelease_mem : (setRelease src r s).mem = s.mem := rfl
end

section
variable (n : NodeId) (f : Queue → Queue)

@[simp] theorem updQueue_pending : (updQueue n f s).pending = s.pending := rfl
@[simp] theorem updQueue_out : (updQueue n f s).out = s.out := rfl
@[simp] theorem updQueue_mono : (updQueue n f s).mono = s.mono := rfl
@[simp] theorem updQueue_free : (updQueue n f s).free = s.free := rfl
@[simp] theorem updQueue_host : (updQueue n f s).host = s.host := rfl
@[simp] theorem updQueue_epoch : (updQueue n f s).epoch = s.epoch := rfl
@[simp] theorem updQueue_boot : (updQueue n f s).boot = s.boot := rfl
@[simp] theorem updQueue_time : (updQueue n f s).time = s.time := rfl
@[simp] theorem updQueue_flt : (updQueue n f s).flt = s.flt := rfl
@[simp] theorem updQueue_pat : (updQueue n f s).pat = s.pat := rfl
@[simp] theorem updQueue_evr : (updQueue n f s).evr = s.evr := rfl
@[simp] theorem updQueue_ctr : (updQueue n f s).ctr = s.ctr := rfl
@[simp] theorem updQueue_vault : (updQueue n f s).vault = s.vault := rfl
@[simp] theorem updQueue_cipher : (updQueue n f s).cipher = s.cipher := rfl
@[simp] theorem updQueue_power : (updQueue n f s).power = s.power := rfl
@[simp] theorem updQueue_link : (updQueue n f s).link = s.link := rfl
@[simp] theorem updQueue_halter : (updQueue n f s).halter = s.halter := rfl
@[simp] theorem updQueue_pon : (updQueue n f s).pon = s.pon := rfl
@[simp] theorem updQueue_weaver : (updQueue n f s).weaver = s.weaver := rfl
@[simp] theorem updQueue_pkt : (updQueue n f s).pkt = s.pkt := rfl
@[simp] theorem updQueue_rules : (updQueue n f s).rules = s.rules := rfl
@[simp] theorem updQueue_mem : (updQueue n f s).mem = s.mem := rfl
@[simp] theorem queueAt_updQueue_self : queueAt (updQueue n f s) n = f (queueAt s n) := by
  simp [queueAt, updQueue, mgetD, mget_mset_self]
theorem queueAt_updQueue_other (j : NodeId) (h : n ≠ j) : queueAt (updQueue n f s) j = queueAt s j := by
  simp [queueAt, updQueue, mgetD, mget_mset_other _ _ _ _ h]
end

section
variable (n : NodeId) (f : Node → Node)

@[simp] theorem updNode_pending : (updNode n f s).pending = s.pending := rfl
@[simp] theorem updNode_out : (updNode n f s).out = s.out := rfl
@[simp] theorem updNode_mono : (updNode n f s).mono = s.mono := rfl
@[simp] theorem updNode_free : (updNode n f s).free = s.free := rfl
@[simp] theorem updNode_host : (updNode n f s).host = s.host := rfl
@[simp] theorem updNode_epoch : (updNode n f s).epoch = s.epoch := rfl
@[simp] theorem updNode_boot : (updNode n f s).boot = s.boot := rfl
@[simp] theorem updNode_time : (updNode n f s).time = s.time := rfl
@[simp] theorem updNode_flt : (updNode n f s).flt = s.flt := rfl
@[simp] theorem updNode_pat : (updNode n f s).pat = s.pat := rfl
@[simp] theorem updNode_evr : (updNode n f s).evr = s.evr := rfl
@[simp] theorem updNode_ctr : (updNode n f s).ctr = s.ctr := rfl
@[simp] theorem updNode_vault : (updNode n f s).vault = s.vault := rfl
@[simp] theorem updNode_cipher : (updNode n f s).cipher = s.cipher := rfl
@[simp] theorem updNode_power : (updNode n f s).power = s.power := rfl
@[simp] theorem updNode_link : (updNode n f s).link = s.link := rfl
@[simp] theorem updNode_halter : (updNode n f s).halter = s.halter := rfl
@[simp] theorem updNode_pon : (updNode n f s).pon = s.pon := rfl
@[simp] theorem updNode_weaver : (updNode n f s).weaver = s.weaver := rfl
@[simp] theorem updNode_pkt : (updNode n f s).pkt = s.pkt := rfl
@[simp] theorem updNode_rules : (updNode n f s).rules = s.rules := rfl
@[simp] theorem updNode_mem : (updNode n f s).mem = s.mem := rfl
@[simp] theorem nodeAt8_updNode_self : nodeAt8 (updNode n f s) n = f (nodeAt8 s n) := by
  simp [nodeAt8, updNode, mgetD, mget_mset_self]
theorem nodeAt8_updNode_other (j : NodeId) (h : n ≠ j) : nodeAt8 (updNode n f s) j = nodeAt8 s j := by
  simp [nodeAt8, updNode, mgetD, mget_mset_other _ _ _ _ h]
end

section
variable (p : Nat) (f : Pool → Pool)

@[simp] theorem updPool_pending : (updPool p f s).pending = s.pending := rfl
@[simp] theorem updPool_out : (updPool p f s).out = s.out := rfl
@[simp] theorem updPool_mono : (updPool p f s).mono = s.mono := rfl
@[simp] theorem updPool_free : (updPool p f s).free = s.free := rfl
@[simp] theorem updPool_host : (updPool p f s).host = s.host := rfl
@[simp] theorem updPool_epoch : (updPool p f s).epoch = s.epoch := rfl
@[simp] theorem updPool_boot : (updPool p f s).boot = s.boot := rfl
@[simp] theorem updPool_time : (updPool p f s).time = s.time := rfl
@[simp] theorem updPool_flt : (updPool p f s).flt = s.flt := rfl
@[simp] theorem updPool_pat : (updPool p f s).pat = s.pat := rfl
@[simp] theorem updPool_evr : (updPool p f s).evr = s.evr := rfl
@[simp] theorem updPool_ctr : (updPool p f s).ctr = s.ctr := rfl
@[simp] theorem updPool_vault : (updPool p f s).vault = s.vault := rfl
@[simp] theorem updPool_cipher : (updPool p f s).cipher = s.cipher := rfl
@[simp] theorem updPool_power : (updPool p f s).power = s.power := rfl
@[simp] theorem updPool_link : (updPool p f s).link = s.link := rfl
@[simp] theorem updPool_halter : (updPool p f s).halter = s.halter := rfl
@[simp] theorem updPool_pon : (updPool p f s).pon = s.pon := rfl
@[simp] theorem updPool_weaver : (updPool p f s).weaver = s.weaver := rfl
@[simp] theorem updPool_pkt : (updPool p f s).pkt = s.pkt := rfl
@[simp] theorem updPool_rules : (updPool p f s).rules = s.rules := rfl
@[simp] theorem updPool_tm : (updPool p f s).tm = s.tm := rfl
@[simp] theorem poolAt_updPool_self : poolAt (updPool p f s) p = f (poolAt s p) := by
  simp [poolAt, updPool, mgetD, mget_mset_self]
theorem poolAt_updPool_other (j : Nat) (h : p ≠ j) : poolAt (updPool p f s) j = poolAt s j := by
  simp [poolAt, updPool, mgetD, mget_mset_other _ _ _ _ h]
end

section
variable (level idx : Nat) (c : Counters)

@[simp] theorem setNode_pending : (setNode level idx c s).pending = s.pending := rfl
@[simp] theorem setNode_out : (setNode level idx c s).out = s.out := rfl
@[simp] theorem setNode_mono : (setNode level idx c s).mono = s.mono := rfl
@[simp] theorem setNode_free : (setNode level idx c s).free = s.free := rfl
@[simp] theorem setNode_host : (setNode level idx c s).host = s.host := rfl
@[simp] theorem setNode_epoch : (setNode level idx c s).epoch = s.epoch := rfl
@[simp] theorem setNode_boot : (setNode level idx c s).boot = s.boot := rfl
@[simp] theorem setNode_time : (setNode level idx c s).time = s.time := rfl
@[simp] theorem setNode_flt : (setNode level idx c s).flt = s.flt := rfl
@[simp] theorem setNode_pat : (setNode level idx c s).pat = s.pat := rfl
@[simp] theorem setNode_evr : (setNode level idx c s).evr = s.evr := rfl
@[simp] theorem setNode_ctr : (setNode level idx c s).ctr = s.ctr := rfl
@[simp] theorem setNode_vault : (setNode level idx c s).vault = s.vault := rfl
@[simp] theorem setNode_cipher : (setNode level idx c s).cipher = s.cipher := rfl
@[simp] theorem setNode_power : (setNode level idx c s).power = s.power := rfl
@[simp] theorem setNode_link : (setNode level idx c s).link = s.link := rfl
@[simp] theorem setNode_halter : (setNode level idx c s).halter = s.halter := rfl
@[simp] theorem setNode_pon : (setNode level idx c s).pon = s.pon := rfl
@[simp] theorem setNode_weaver : (setNode level idx c s).weaver = s.weaver := rfl
@[simp] theorem setNode_pkt : (setNode level idx c s).pkt = s.pkt := rfl
@[simp] theorem setNode_rules : (setNode level idx c s).rules = s.rules := rfl
@[simp] theorem setNode_tm : (setNode level idx c s).tm = s.tm := rfl
end

/-- A terminal that is there reads as its update says. -/
theorem termAt_updTerm_self (i : Nat) (f : Terminal → Terminal) (t : Terminal) (h : termAt s i = some t) :
    termAt (updTerm i f s) i = some (f t) := by
  unfold updTerm
  rw [h]
  exact mget_mset_self ..

theorem termAt_updTerm_other (i j : Nat) (f : Terminal → Terminal) (h : i ≠ j) : termAt (updTerm i f s) j = termAt s j := by
  unfold updTerm
  split
  · simp [termAt, mget_mset_other _ _ _ _ h]
  · rfl

theorem allocAt_updAlloc_self (k : Nat) (f : Alloc → Alloc) (a : Alloc) (h : allocAt s k = some a) :
    allocAt (updAlloc k f s) k = some (f a) := by
  unfold updAlloc
  rw [h]
  exact mget_mset_self ..

theorem flightAt_setFlight_self (id : Nat) (x : Flight) : flightAt (setFlight id x s) id = some x := by
  simp [flightAt, setFlight, mget_mset_self]

theorem flightAt_setFlight_other (id j : Nat) (x : Flight) (h : id ≠ j) : flightAt (setFlight id x s) j = flightAt s j := by
  simp [flightAt, setFlight, mget_mset_other _ _ _ _ h]

theorem macAt_setMac_self (k : Nat) (t : MacTable) : macAt (setMac k t s) k = t := by
  simp [macAt, setMac, mgetD, mget_mset_self]

theorem slotAt_updSlot_self (n : Nat) (f : Slot → Slot) : slotAt (updSlot n f s) n = f (slotAt s n) := by
  simp [slotAt, updSlot, mgetD, mget_mset_self]

theorem slotAt_updSlot_other (n k : Nat) (f : Slot → Slot) (h : n ≠ k) : slotAt (updSlot n f s) k = slotAt s k := by
  simp [slotAt, updSlot, mgetD, mget_mset_other _ _ _ _ h]

end Sys2Proof.Machine
end

