-- ==== Sys2Proof/Laws/Zeroise.lean ====
section
/-! SUPPORT. What zeroisation leaves: an aborted frame changes neither the store, the array nor the clock, and an alarm's effects on
the store come from its class alone. -/

namespace Sys2Proof.Machine

/-- The store, the array and the clock stand as they were. -/
def StoreKept (s t : State) : Prop := t.vault = s.vault ∧ t.cipher = s.cipher ∧ t.mono = s.mono

theorem StoreKept.refl (s : State) : StoreKept s s := ⟨rfl, rfl, rfl⟩

theorem StoreKept.trans {s t u : State} (h : StoreKept s t) (k : StoreKept t u) : StoreKept s u :=
  ⟨k.1.trans h.1, k.2.1.trans h.2.1, k.2.2.trans h.2.2⟩

theorem storeKept_forEach {α : Type} (l : List α) (f : α → State → State) (h : ∀ a s, StoreKept s (f a s)) (s : State) :
    StoreKept s (forEach l f s) := by
  unfold forEach
  induction l generalizing s with
  | nil => exact .refl s
  | cons a r ih => exact (h a s).trans (ih _)

theorem storeKept_bumpW (c i j w : Nat) (s : State) : StoreKept s (bumpW c i j w s) := by simp [StoreKept]

theorem storeKept_leaveVersion (id : Nat) (s : State) : StoreKept s (leaveVersion id s) := by
  unfold leaveVersion; (repeat' split) <;> exact .refl _

theorem storeKept_giveCells (p : Nat) (hs : List Nat) (s : State) : StoreKept s (giveCells p hs s) := by
  have h : ∀ u, StoreKept u (keepCache p u) := by
    intro u; unfold keepCache; split <;> exact .refl _
  exact StoreKept.trans (.refl s) (h _)

theorem storeKept_release (w p : Nat) (cs : List Nat) (s : State) : StoreKept s (release w p cs s) := by
  have h : ∀ u, StoreKept u (giveCells p cs u) := storeKept_giveCells p cs
  unfold release
  dsimp only
  (repeat' split) <;>
    first
    | exact .refl _
    | exact ⟨(h s).1, (h s).2.1, (h s).2.2⟩
    | (refine ⟨(h _).1.trans ?_, (h _).2.1.trans ?_, (h _).2.2.trans ?_⟩ <;> rfl)

theorem storeKept_freeFrame (f : Frame) (s : State) : StoreKept s (freeFrame f s) := storeKept_release _ _ _ s

theorem storeKept_epochOut (e : Nat) (s : State) : StoreKept s (epochOut e s) := by
  unfold epochOut; split <;> exact .refl _

theorem storeKept_dropFlight (id : Nat) (s : State) : StoreKept s (dropFlight id s) := by
  unfold dropFlight
  split
  · rename_i x _
    split
    · exact .refl _
    · have h := (storeKept_leaveVersion id s).trans
        ((storeKept_epochOut x.frame.epoch _).trans (storeKept_freeFrame x.frame (epochOut x.frame.epoch (leaveVersion id s))))
      dsimp only
      split
      · exact h.trans (.refl _)
      · exact h.trans (.refl _)
  · exact .refl _

theorem storeKept_settleAll (s : State) : StoreKept s (settleAll s) := by
  unfold settleAll
  refine storeKept_forEach _ _ (fun e s => ?_) s
  split
  · unfold settleQueue settle
    refine storeKept_forEach _ _ (fun n s => ?_) s
    split <;> exact .refl _
  · exact .refl _

theorem storeKept_cutEnd (id chan world : Nat) (pass : Bool) (s : State) : StoreKept s (cutEnd id chan world pass s) := by
  have h1 : ∀ s, StoreKept s (endInQueues id pass s) := by
    intro s
    unfold endInQueues
    dsimp only
    split
    · exact .refl _
    · have h := storeKept_forEach (s.tm.queues.flatMap fun e => (e.2.held.filter fun h => h.frame.wait && h.frame.num = id).map Held.frame)
        (fun f s => release f.world f.pool (f.cells ++ f.lists) s) (fun f s => storeKept_release _ _ _ s) s
      exact ⟨(storeKept_settleAll _).1.trans h.1, (storeKept_settleAll _).2.1.trans h.2.1, (storeKept_settleAll _).2.2.trans h.2.2⟩
  have h0 : StoreKept s (endInHostQueues id pass s) := by
    unfold endInHostQueues
    dsimp only
    split
    · exact .refl _
    · exact (storeKept_forEach _ _ storeKept_freeFrame s).trans (.refl _)
  have h2 : ∀ u, StoreKept u (endOnSides id chan world pass u) := by
    intro u
    unfold endOnSides
    dsimp only
    split
    · exact (StoreKept.refl u).trans (storeKept_bumpW _ _ _ _ _)
    · exact .refl _
  refine ((h0.trans (h1 _)).trans (h2 _)).trans ?_
  unfold cutEnd
  dsimp only
  split
  · split
    · split
      · exact .refl _
      · exact storeKept_dropFlight _ _
    · exact .refl _
  · exact .refl _

theorem storeKept_fillIdle (p cap : Nat) (s : State) : StoreKept s (fillIdle p cap s) := by
  unfold fillIdle; split <;> simp [StoreKept]

theorem storeKept_abortFrame (a : Admitted) (s : State) : StoreKept s (abortFrame a s) := by
  unfold abortFrame
  dsimp only
  split
  · split <;> simp [StoreKept]
  · split <;> simp [StoreKept]
  · exact (storeKept_bumpW _ _ _ _ _).trans (storeKept_dropFlight _ _)
  · exact (storeKept_bumpW _ _ _ _ _).trans (storeKept_cutEnd _ _ _ _ _)
  · exact (storeKept_bumpW _ _ _ _ _).trans (storeKept_fillIdle _ _ _)

/-- Aborting the frames that a test picks takes them out of the array and leaves the store. -/
theorem abortWhere_store (p : Admitted → Bool) (s : State) :
    (abortWhere p s).vault = s.vault ∧ (abortWhere p s).mono = s.mono ∧
      (abortWhere p s).cipher = { s.cipher with inPipes := s.cipher.inPipes.filter fun a => !p a } := by
  have h := storeKept_forEach (s.cipher.inPipes.filter p) abortFrame storeKept_abortFrame
    { s with cipher := { s.cipher with inPipes := s.cipher.inPipes.filter fun a => !p a } }
  exact ⟨h.1, h.2.2, h.2.1⟩

theorem storeKept_replyTo (p : Packet) (st : Status) (ws : List Word) (n : Nat) (s : State) : StoreKept s (replyTo p st ws n s) := by
  unfold replyTo
  dsimp only
  split
  · exact .refl _
  · split <;> simp [StoreKept]

/-- Ending the slot operations that wait leaves everything else of the store. -/
theorem abortSlotOps_store (s : State) : (abortSlotOps s).vault = { s.vault with waiting := [] } ∧
    (abortSlotOps s).cipher = s.cipher ∧ (abortSlotOps s).mono = s.mono := by
  have key : ∀ u : State, StoreKept s u → ({ u with vault := { u.vault with waiting := [] } } : State).vault =
      { s.vault with waiting := [] } ∧ u.cipher = s.cipher ∧ u.mono = s.mono :=
    fun u h => ⟨by simp only [h.1], h.2.1, h.2.2⟩
  refine key _ (storeKept_forEach s.vault.waiting _ (fun w s => ?_) s)
  split
  · split
    · split
      · exact .refl _
      · exact (storeKept_replyTo _ _ _ _ s).trans (.refl _)
    · exact .refl _
  · exact .refl _

/-- Hide's loss of its key leaves the store, the array and the clock. -/
theorem storeKept_hideLost (s : State) : StoreKept s (hideLost s) := by
  unfold hideLost
  refine (storeKept_forEach s.host.pairs _ (fun e s => ?_) s).trans (.refl _)
  split
  · split
    · split
      · exact .refl _
      · exact (storeKept_replyTo _ _ _ _ s).trans (.refl _)
    · exact .refl _
  · exact .refl _

/-- A test that a map's altered entries and the default pass holds of what is read at any key. -/
theorem mgetD_mmap_all {κ α : Type} [DecidableEq κ] (m : Map κ α) (f : α → α) (k : κ) (d : α) (t : α → Prop) (hf : ∀ x, t (f x))
    (hd : t d) : t (mgetD (mmap m fun _ x => f x) k d) := by
  induction m with
  | nil => simpa [mmap, mgetD, mget] using hd
  | cons e r ih =>
    obtain ⟨j, b⟩ := e
    by_cases hj : j = k
    · subst hj; simpa [mmap, mgetD, mget] using hf b
    · simpa [mmap, mgetD, mget, hj] using ih

/-- A volatile module key is gone once an alarm of class 2 has struck. -/
theorem moduleNow_volatile (keys n : Nat) (h : 1 ≤ keys) : (moduleNow keys n).attr.persist = false → (moduleNow keys n).valid = false := by
  unfold moduleNow
  split
  · rename_i hk
    simp only [Bool.or_eq_true, decide_eq_true_eq, Bool.and_eq_true] at hk
    intro hp
    rcases hk with hk | hk
    · omega
    · rw [hk.2] at hp; cases hp
  · intro _; rfl

/-- Emptying the volatile slots leaves the array, the clock, and of the store everything but slots, the terminal key table and
the waiting operations. -/
theorem alarmEmpty_store (s : State) : (alarmEmpty s).cipher = s.cipher ∧ (alarmEmpty s).mono = s.mono ∧
    (alarmEmpty s).vault.life = s.vault.life ∧ (alarmEmpty s).vault.hold = s.vault.hold ∧
    (alarmEmpty s).vault.counts = s.vault.counts ∧ (alarmEmpty s).vault.raised = s.vault.raised ∧
    ∀ k, (slotAt (alarmEmpty s) k).attr.persist = false → (slotAt (alarmEmpty s) k).valid = false := by
  have h := storeKept_hideLost (abortSlotOps s)
  have h2 := abortSlotOps_store s
  have hv : (hideLost (abortSlotOps s)).vault = { s.vault with waiting := [] } := h.1.trans h2.1
  refine ⟨h.2.1.trans h2.2.1, h.2.2.trans h2.2.2, ?_, ?_, ?_, ?_, fun k => ?_⟩
  · show (hideLost (abortSlotOps s)).vault.life = _; rw [hv]; rfl
  · show (hideLost (abortSlotOps s)).vault.hold = _; rw [hv]
  · show (hideLost (abortSlotOps s)).vault.counts = _; rw [hv]
  · show (hideLost (abortSlotOps s)).vault.raised = _; rw [hv]
  · refine mgetD_mmap_all (hideLost (abortSlotOps s)).vault.slots (fun x => if x.attr.persist then { x with old := none } else emptySlot x)
      k _ (fun x => x.attr.persist = false → x.valid = false) (fun x => ?_) ?_
    · split
      · rename_i hp; intro h; rw [hp] at h; cases h
      · intro _; rfl
    · split
      · exact moduleNow_volatile _ k (Nat.le_max_left ..)
      · intro _; rfl

/-- Erasing everything leaves no key. -/
theorem eraseAll_store (s : State) : (eraseAll s).cipher = { s.cipher with inPipes := [] } ∧ (eraseAll s).mono = s.mono ∧
    (eraseAll s).vault.hold = s.vault.hold ∧ (eraseAll s).vault.counts = s.vault.counts ∧
    (eraseAll s).vault.raised = s.vault.raised ∧ ∀ k, (slotAt (eraseAll s) k).valid = false := by
  have h := abortWhere_store (fun _ => true) s
  have k := alarmEmpty_store (abortWhere (fun _ => true) s)
  refine ⟨k.1.trans (by rw [h.2.2]; simp), k.2.1.trans h.2.1, k.2.2.2.1.trans (by rw [h.1]), k.2.2.2.2.1.trans (by rw [h.1]),
    k.2.2.2.2.2.1.trans (by rw [h.1]), fun j => ?_⟩
  refine mgetD_mmap_all (alarmEmpty (abortWhere (fun _ => true) s)).vault.slots (fun x => { emptySlot x with stored := false })
    j _ (fun x => x.valid = false) (fun _ => rfl) ?_
  split
  · show (moduleNow 2 j).valid = false
    rfl
  · rfl

/-- With row 31 burned as SCRAPPED the life-cycle is SCRAPPED (R322). -/
theorem lifeOf_scrapped (m : Map Nat LifeRow) : lifeOf (mset m 31 ⟨.scrapped, true⟩) = .scrapped := by
  have h : List.range 32 = List.range 31 ++ [31] := by decide
  unfold lifeOf
  rw [h, List.foldl_append]
  simp [mget_mset_self]

/-- What class 3 leaves once the scrap-pending bit is burned: no key, and SCRAPPED. -/
theorem scrapRest_store (s : State) : (scrapRest s).cipher = { s.cipher with inPipes := [] } ∧ (scrapRest s).mono = s.mono ∧
    (scrapRest s).vault.hold = s.vault.hold ∧ (scrapRest s).vault.counts = s.vault.counts ∧
    (scrapRest s).vault.raised = s.vault.raised ∧ (scrapRest s).vault.life = .scrapped ∧ ∀ k, (slotAt (scrapRest s) k).valid = false := by
  have h := eraseAll_store s
  exact ⟨h.1, h.2.1, h.2.2.1, h.2.2.2.1, h.2.2.2.2.1, lifeOf_scrapped _, h.2.2.2.2.2⟩

/-- The scrap-pending bit stays burned. -/
theorem scrapRest_pending (s : State) : (scrapRest s).vault.scrapPending = s.vault.scrapPending := by
  have h := storeKept_hideLost (abortSlotOps (abortWhere (fun _ => true) s))
  show (hideLost (abortSlotOps (abortWhere (fun _ => true) s))).vault.scrapPending = _
  rw [h.1, (abortSlotOps_store _).1, (abortWhere_store _ s).1]

/-- What an alarm's class does (Table 10.11); where the loss of power cuts class 3 short, it burns the scrap-pending bit alone (R347). -/
theorem alarmEffects_store (cls : Nat) (s : State) (h1 : 1 ≤ cls) (h2 : cls ≤ 3) :
    (alarmEffects cls s).cipher.inPipes = [] ∧ (alarmEffects cls s).vault.hold = some s.mono ∧
      (alarmEffects cls s).vault.counts = s.vault.counts ∧ (alarmEffects cls s).vault.raised = s.vault.raised ∧
      (cls ≠ 3 → (alarmEffects cls s).vault.life = s.vault.life) ∧
      (cls = 3 → (alarmEffects cls s).vault.scrapPending = true) ∧
      (cls = 3 → s.vault.under = false →
        (alarmEffects cls s).vault.life = .scrapped ∧ ∀ k, (slotAt (alarmEffects cls s) k).valid = false) ∧
      (cls = 2 → ∀ k, (slotAt (alarmEffects cls s) k).attr.persist = false → (slotAt (alarmEffects cls s) k).valid = false) := by
  have h := abortWhere_store (fun _ => true) s
  have hh : (alarmHold s).cipher.inPipes = [] ∧ (alarmHold s).mono = s.mono ∧
      (alarmHold s).vault = { s.vault with hold := some s.mono } := by
    refine ⟨?_, h.2.1, ?_⟩
    · show (abortWhere (fun _ => true) s).cipher.inPipes = []
      rw [h.2.2]; simp
    · show { (abortWhere (fun _ => true) s).vault with hold := some (abortWhere (fun _ => true) s).mono } = _
      rw [h.1, h.2.1]
  unfold alarmEffects
  rw [if_pos h1]
  dsimp only
  generalize alarmHold s = t at hh
  obtain rfl | rfl | rfl : cls = 1 ∨ cls = 2 ∨ cls = 3 := by omega
  · simp [hh.1, hh.2.2, VaultSt.life]
  · have k := alarmEmpty_store (countEvent 0x48 0x100 0x0100 1 t)
    simp only [Nat.reduceLeDiff, if_true]
    refine ⟨?_, ?_, ?_, ?_, fun _ => ?_, by simp, by simp, fun _ => k.2.2.2.2.2.2⟩
    · rw [k.1]; simpa using hh.1
    · rw [k.2.2.2.1]; simp [hh.2.2]
    · rw [k.2.2.2.2.1]; simp [hh.2.2]
    · rw [k.2.2.2.2.2.1]; simp [hh.2.2]
    · rw [k.2.2.1]; simp [hh.2.2, VaultSt.life]
  · have k := scrapRest_store { countEvent 0x48 0x100 0x0100 1 t with vault := { (countEvent 0x48 0x100 0x0100 1 t).vault with scrapPending := true } }
    have p := scrapRest_pending { countEvent 0x48 0x100 0x0100 1 t with vault := { (countEvent 0x48 0x100 0x0100 1 t).vault with scrapPending := true } }
    simp only [Nat.reduceLeDiff, if_true, Nat.reduceEqDiff, if_false, scrap]
    split
    · rename_i hu
      refine ⟨by simpa using hh.1, by simp [hh.2.2], by simp [hh.2.2], by simp [hh.2.2], by simp, fun _ => rfl, fun _ h0 => ?_, by simp⟩
      simp [hh.2.2, h0] at hu
    · refine ⟨?_, ?_, ?_, ?_, by simp, fun _ => p, fun _ _ => ⟨k.2.2.2.2.2.1, k.2.2.2.2.2.2⟩, by simp⟩
      · rw [k.1]
      · rw [k.2.2.1]; simp [hh.2.2]
      · rw [k.2.2.2.1]; simp [hh.2.2]
      · rw [k.2.2.2.2.1]; simp [hh.2.2]

/-- An alarm leaves the store as its class does, with its count raised. -/
theorem alarm_store (n : Nat) (s : State) :
    let s0 := extendHold { s with vault := { s.vault with raised := s.vault.raised ||| 2 ^ n } }
    let s1 := alarmEffects (alarmClass n) s0
    let counts := mset s1.vault.counts (alarmClass n) (satAdd 0xFFFFFFFF (mgetD s1.vault.counts (alarmClass n) 0) 1)
    (alarm n s).cipher = s1.cipher ∧ (alarm n s).vault = { s1.vault with counts := counts } := by
  intro s0 s1 counts
  unfold alarm
  simp [s1, s0, counts]

end Sys2Proof.Machine
end

