-- ==== Sys2Proof/WellFormed.lean ====
section
/-! DEFINITION. Which commands are well formed: every operand lies in the range of the object that it names. -/

namespace Sys2Proof

/-- The queue that a packet comes from exists, and its LENGTH, where it is one of R44, covers the header of 8 words and the words
that follow. -/
def Packet.wellFormed (p : Packet) : Bool :=
  (match p.src with | .pair n => decide (n < 64) | .inband side => decide (side < 2)) &&
  (decide (p.length.toNat < 8) || decide (4096 < p.length.toNat) || decide (p.params.length + 8 = p.length.toNat))

/-- A command is well formed: the objects that its operands name lie in the ranges of the spec. -/
def Instr.wellFormed (i : Instr) : Bool :=
  match i with
  | .cqTail fn pair tail packets => fn < 64 && pair < 64 && tail < 4096 && packets.all fun w => w.op < 65536 && w.pkt.wellFormed
  | .rqHead fn pair value => fn < 64 && pair < 64 && value < 4096
  | .qpEnable fn pair _ => fn < 64 && pair < 64
  | .pending fn _ => fn < 64
  | .hiqTail fn queue value => fn < 64 && queue < 64 && value < 65536
  | .hrqHead fn queue value => fn < 64 && queue < 256 && value < 65536
  | .registerWrite fn offset _ => fn < 64 && offset % 4 = 0 && offset < (if fn = 0 then 65536 else 16384)
  | .nop p => p.wellFormed
  | .identify p => p.wellFormed
  | .statusRead p => p.wellFormed
  | .epochStage p => p.wellFormed
  | .epochPrepare p => p.wellFormed
  | .epochPrepareTimeout => true
  | .epochActivate p => p.wellFormed
  | .epochAbort p => p.wellFormed
  | .epochActivationTick => true
  | .epochDrained => true
  | .epochDrainLate => true
  | .queueBind p => p.wellFormed
  | .imageWrite p => p.wellFormed
  | .imageStatus p => p.wellFormed
  | .settingsStatus p => p.wellFormed
  | .moduleReset p => p.wellFormed
  | .firmwareRestartComplete => true
  | .inbandConfig p => p.wellFormed
  | .notifyMask p => p.wellFormed
  | .hostqConfig p => p.wellFormed
  | .portConfig p => p.wellFormed
  | .portDisableComplete port => port < 64
  | .portState p => p.wellFormed
  | .terminalAdd p => p.wellFormed
  | .terminalRemove p => p.wellFormed
  | .ploamSend p => p.wellFormed
  | .bpmRead p => p.wellFormed
  | .opticsAccess p => p.wellFormed
  | .omciBind p => p.wellFormed
  | .discoveryConfig p => p.wellFormed
  | .rangingRead p => p.wellFormed
  | .terminalRerange p => p.wellFormed
  | .allocWrite p => p.wellFormed
  | .allocRead p => p.wellFormed
  | .allocDelete p => p.wellFormed
  | .scheduleHint p => p.wellFormed
  | .cinchBudget p => p.wellFormed
  | .weaverStats p => p.wellFormed
  | .upstreamGateLoad p => p.wellFormed
  | .parseGraphLoad p => p.wellFormed
  | .ruleTreeLoad p => p.wellFormed
  | .ruleUpdate p => p.wellFormed
  | .ruleVersionCommit p => p.wellFormed
  | .ruleVersionStatus p => p.wellFormed
  | .ruleVersionRetired v => v < 8
  | .rverDrainLate v => v < 8
  | .exceptionConfig p => p.wellFormed
  | .macStaticAdd p => p.wellFormed
  | .macDelete p => p.wellFormed
  | .macLookup p => p.wellFormed
  | .macFlush p => p.wellFormed
  | .ageingConfig p => p.wellFormed
  | .lpmAdd p => p.wellFormed
  | .lpmDelete p => p.wellFormed
  | .lpmLoad p => p.wellFormed
  | .stitchConfig p => p.wellFormed
  | .queueConfig p => p.wellFormed
  | .schedNodeConfig p => p.wellFormed
  | .shaperConfig p => p.wellFormed
  | .gateListLoad p => p.wellFormed
  | .gateListStart target => target < 192
  | .queueStats p => p.wellFormed
  | .sampleRingConfig p => p.wellFormed
  | .sampleRingRead p => p.wellFormed
  | .scConfig p => p.wellFormed
  | .saConfig p => p.wellFormed
  | .saActivate p => p.wellFormed
  | .ponKeySwitch p => p.wellFormed
  | .keyGenerate p => p.wellFormed
  | .keyWrap p => p.wellFormed
  | .shedarUpdate p => p.wellFormed
  | .slotErase p => p.wellFormed
  | .slotInfo p => p.wellFormed
  | .attestOperator p => p.wellFormed
  | .attestTenant p => p.wellFormed
  | .encReserve p => p.wellFormed
  | .updateEpochAdvance p => p.wellFormed
  | .alarmStatus p => p.wellFormed
  | .poolConfig p => p.wellFormed
  | .poolStats p => p.wellFormed
  | .hideKeyChange p => p.wellFormed
  | .hideStatus p => p.wellFormed
  | .regionReinit p => p.wellFormed
  | .rightsWrite p => p.wellFormed
  | .uplinkConfig p => p.wellFormed
  | .laneConfig p => p.wellFormed
  | .laneStatus p => p.wellFormed
  | .plaitConfig p => p.wellFormed
  | .protectionCommand p => p.wellFormed
  | .laneEyeScan p => p.wellFormed
  | .timeRead p => p.wellFormed
  | .timeSet p => p.wellFormed
  | .ptpConfig p => p.wellFormed
  | .asymmetrySet p => p.wellFormed
  | .synceConfig p => p.wellFormed
  | .tsQueueRead p => p.wellFormed
  | .halterEnter p => p.wellFormed
  | .halterExit p => p.wellFormed
  | .domainControl p => p.wellFormed
  | .feedConfig p => p.wellFormed
  | .powerStatus p => p.wellFormed
  | .faultRead p => p.wellFormed
  | .faultClear p => p.wellFormed
  | .recorderRead p => p.wellFormed
  | .recorderErase p => p.wellFormed
  | .counterConfig p => p.wellFormed
  | .counterRead p => p.wellFormed
  | .patinaScan p => p.wellFormed
  | .patinaStatus p => p.wellFormed
  | .vfCounterGrant p => p.wellFormed
  | .vendorDiagnostics n p => n < 4096 && p.wellFormed
  | .inbandPacket side op p => side < 2 && op < 65536 && p.wellFormed
  | .feedValidated feed _ => feed < 2
  | .feedInvalid feed _ cause => feed < 2 && 1 ≤ cause && cause ≤ 2
  | .feedVoltageCrossing _ _ => true
  | .returnMsExpiry => true
  | .feedFlapClear => true
  | .softStartComplete => true
  | .rideExpiry => true
  | .feedOvercurrent feed => feed < 2
  | .feedOvercurrentRelease feed => feed < 2
  | .oringFail feed => feed < 2
  | .cardSeated => true
  | .cardUnseated => true
  | .perstLAssert _ => true
  | .romBoot flash => flash.length = 4
  | .firmwareStartTimeout => true
  | .configurationApplied config => config.all fun w => w.op < 65536
  | .tempHigh rail _ _ => rail < 24
  | .thermalShutdown rail _ => rail < 24
  | .refLos ref => ref < 5
  | .refRestore ref => ref < 5
  | .timeTick _ => true
  | .moduleFrameBoundary energy => energy.all fun e => e.1 < 64 && e.2.all (· < 16384)
  | .samplingInstant _ => true
  | .burstReceived port _ _ rx => port < 64 && rx.onu < 1024
  | .deactTimeout terminal => terminal < 32768
  | .terminalDelayChange terminal => terminal < 32768
  | .reassemblyTimeoutPon terminal alloc => terminal < 32768 && alloc < 16384
  | .serialNumberOnu port _ _ _ _ => port < 64
  | .rangingBurst sender _ => sender.terminal < 32768
  | .acknowledge sender => sender.terminal < 32768
  | .rangingTimeTimeout terminal => terminal < 32768
  | .extAccept sender _ => sender.terminal < 32768
  | .forecastAck sender alloc received used period =>
    sender.terminal < 32768 && alloc < 16384 && received < 65536 && used < 65536 && period < 65536
  | .keyReport terminal frag _ _ => terminal < 32768 && frag < 2
  | .ponKeyWrite => true
  | .keyRequest terminal => terminal < 32768
  | .keyRequestTimeout terminal => terminal < 32768
  | .ploamuMessage terminal _ _ => terminal < 32768
  | .upstreamOmciFrame terminal key _ _ _ => terminal < 32768 && key < 4
  | .snWindowOpen port => port < 64
  | .awlCycleBoundary port _ => port < 64
  | .awlPauseEnd port => port < 64
  | .awlDetection port terminal _ => port < 64 && terminal < 32768
  | .ponTxPllUnlock port => port < 64
  | .opticsRemoved port => port < 64
  | .opticsInserted port => port < 64
  | .opticsTxdisRelease port => port < 64
  | .opticsPoll port outcome _ => port < 64 && outcome < 4
  | .opticsBusRecovery bus _ => bus < 8
  | .mapCutoff lane => lane < 8
  | .reportAbsorb lane => lane < 8
  | .resolvePasses lane => lane < 8
  | .cinchFill => true
  | .cinchStale lane => lane < 8
  | .capsLate lane => lane < 8
  | .cappedRerun lane => lane < 8
  | .placement lane => lane < 8
  | .mapHandoff port => port < 64
  | .frameIngress source card _ _ => 64 ≤ source && source < 82 && card < 64
  | .macsecReceive _ => true
  | .macsecVerdict _ => true
  | .distributorSpray _ => true
  | .parseWalk _ => true
  | .classify _ => true
  | .forwardLookup _ => true
  | .learnRequest slice => slice < 4
  | .ageingScan slice => slice < 4
  | .compareAndDelete slice => slice < 4
  | .stitchArrival _ => true
  | .stitchTimeout _ => true
  | .enqueue _ _ => true
  | .reinDecision side _ => side < 2
  | .hostqRecordWrite queue _ => queue < 256
  | .hostqModerationExpiry queue => queue < 256
  | .injectionFetch _ _ _ _ => true
  | .macsecTransmit point => point < 80
  | .retiringCopyRelease => true
  | .alarm sensor _ => sensor < 7
  | .zeroisationRelease => true
  | .debugToken _ => true
  | .debugAccess master addr kind _ => master < 2 && addr < 0x1000000000 && 1 ≤ kind.code && kind.code ≤ 3
  | .osierCacheRefill pool _ => pool < 16
  | .osierCacheSpill pool => pool < 16
  | .cellFree pool _ _ => pool < 16
  | .hideLineAccess engine addr write data _ => engine < 3 && addr < 0x1000000000 && (!write || data.length = 64)
  | .counterCacheEvict level _ => 1 ≤ level && level ≤ 4
  | .counterPatrol _ failing => failing.all fun f => 1 ≤ f.1 && f.1 ≤ 4
  | .hideInit => true
  | .plaitFrameReceive side bytes _ _ _ _ => side < 2 && bytes.length = 8192
  | .reassemblyTimeout side src ctx _ => side < 2 && src < 64 && ctx < 64
  | .plaitFrameTransmit side => side < 2
  | .excWindow side => side < 2
  | .pauseStuck side card => side < 2 && card < 64
  | .protectionHoldOff side => side < 2
  | .wtrExpiry => true
  | .switchTransitionEnd => true
  | .widthChange side => side < 2
  | .uplinkFaultChange port _ _ => port < 16
  | .uplinkPortUp port => port < 16
  | .uplinkFrameReceive port _ _ => port < 16
  | .laneTrainingComplete lane peak _ _ post pre swing _ =>
    lane < 80 && peak < 32 && post ≤ 40 && pre ≤ 25 && 40 ≤ swing && swing ≤ 100
  | .laneTrainingTimeout lane => lane < 80
  | .laneIdleRequest lane => lane < 80
  | .laneExitRequest lane => lane < 80
  | .laneIdleStale lane => lane < 80
  | .fastExitTimeout lane _ => lane < 80
  | .laneEnableChange lane => lane < 80
  | .laneLos lane _ => lane < 80
  | .laneLol lane _ _ => lane < 80
  | .laneFlapHoldEnd lane => lane < 80
  | .txFault lane => lane < 80
  | .peakingReevaluate lane move => lane < 80 && move < 3
  | .peakingStep lane => lane < 80 || (128 ≤ lane && lane < 192)
  | .eyeScanComplete lane _ => lane < 80 || (128 ≤ lane && lane < 192)
  | .ptpFrameReceive port _ => port < 16
  | .ptpFrameTransmit port _ => port < 16
  | .servoMeasurement port _ _ => port < 16
  | .servoMeasurementLapse => true
  | .ppsInEdge => true
  | .todInMessage _ _ => true
  | .ppsInMissing => true
  | .ppsOutEdge => true
  | .synceSourceChange source esmc => source < 20 && esmc.all (· < 16)
  | .esmcLapse port => port < 16
  | .halterStageEnd _ => true
  | .halterS3Timeout => true
  | .halterWake _ => true
  | .domainRestore domain _ => domain < 256
  | .keeperFrame _ => true
  | .prxPowerCycle port _ => port < 64
  | .faultReport cplx unit inst res code cls _ _ => cplx < 256 && unit < 256 && inst < 65536 && res < 2 ^ 24 && code / 256 = cplx && cls < 4
  | .stickyPoll => true
  | .faultHandling => true
  | .unitRecovery cplx unit inst _ => cplx < 256 && unit < 256 && inst < 65536
  | .safeStateEntry => true
  | .handlerFail => true
  | .recordWrite _ => true
  | .operatingSecond => true
  | .operatingSecondsPersist => true
  | .patinaPeriodicPlan rails _ => rails.all fun r => r.rail < 24
  | .patinaPlanWrite _ => true
  | .railOffsetStep rail => rail < 24
  | .settingsRecordWrite record _ => record < 9
  | .functionLevelReset fn => 1 ≤ fn && fn < 64
  | .unitTimeout queue => queue ≤ 64
  | .perstLDeassert => true
  | .rawDetectorStateChange lane _ _ => lane < 80
  | .hideSweepComplete => true
  | .patinaScanComplete rails _ => rails.all fun r => r.rail < 24
  | .abkouxServiceMessage _ _ _ _ => true

end Sys2Proof
end

