-- ==== Sys2Proof/Tests/Slice0.lean ====
section
/-! SUPPORT. Small tests: ill-formed commands that WellFormed refuses, and for every statement states and operands that meet its
hypotheses, clause by clause. -/

namespace Sys2Proof.Tests

open Sys2Proof Sys2Proof.Machine

set_option Elab.async false
set_option linter.unusedVariables false

/-! ## Fixtures -/

/-- A booted module with one pair, bound to the physical function. -/
def up : State := { State.reset with
  boot := { state := .ready, phase := .up }, host := { pairs := [(0, { enable := true, served := true, world := 0x100 })] } }

/-- A packet of the pair with parameter words and an INSTANCE. -/
def pk (ws : List Word) (inst : BitVec 16 := 0) : Packet := { length := BitVec.ofNat 16 (8 + ws.length), params := ws, inst := inst }

/-- A packet with data. -/
def pkd (ws : List Word) (bs : List Byte) : Packet :=
  { length := BitVec.ofNat 16 (12 + ws.length), params := [0, 0, BitVec.ofNat 32 bs.length, 0] ++ ws, flags := 4, env := { data := bs } }

/-- A packet with a result buffer of 64 KiB. -/
def pkr (ws : List Word) (inst : BitVec 16 := 0) : Packet :=
  { length := BitVec.ofNat 16 (12 + ws.length), params := [0, 0, 65536, 0] ++ ws, flags := 8, inst := inst }

/-- The booted module with an epoch state. -/
def upE (e : EpochSt) : State := { up with epoch := e }

/-- The booted module with a power stage. -/
def upP (p : PowerSt) : State := { up with power := p }

/-- The booted module with a command in progress on its pair. -/
def upX (x : Exec) : State :=
  { up with host := { pairs := [(0, { enable := true, served := true, world := 0x100, executing := some x })] } }

/-- A terminal of the common world at port 0. -/
def term0 : Terminal := { world := 0x100, sn0 := 1, sn1 := 2, slot1 := 0x10000, slot2 := 0x10001, upFec := 0, port := 0 }

/-- Port 0 in service with MODE 1, and a terminal record 0. -/
def upT (t : Terminal) : State :=
  { up with pon := { ports := [(0, { cfg := { mode := 1, guard := 2, preamble := 5 }, framing := true })], terms := [(0, t)] } }

/-- A slot body's attributes that let the engine encrypt and decrypt. -/
def engineSlot : Slot := { attr := { life := 2, masters := 32, usage := 3 }, valid := true, body := List.replicate 32 1 }

/-- An operating terminal. -/
def opTerm : Terminal := { term0 with st := .operating }

theorem some_pair {α β : Type} {x : Option (α × β)} (d : α × β) (h : x.isSome = true) : x = some ((x.getD d).1, (x.getD d).2) := by
  cases x <;> simp_all

/-- A rule about an entry that is not there holds. -/
theorem of_none {α : Type} {P : α → Prop} {o : Option α} (h : o.isNone = true) : ∀ g, o = some g → P g := by
  intro g e; subst e; cases h

/-- A rule about each element of a list, checked one by one. -/
theorem of_all {α : Type} {P : α → Prop} [DecidablePred P] {l : List α} (h : (l.all fun d => decide (P d)) = true) :
    ∀ d ∈ l, P d := by
  intro d hd; simpa using List.all_eq_true.mp h d hd

/-- What an image decodes to, read off as an option. -/
theorem of_ok {ε α : Type} {x : Except ε α} {g : α} (h : x.toOption = some g) : x = .ok g := by
  cases x with
  | error e => cases h
  | ok a => cases h; rfl

/-- A gate list image of one entry (R266). -/
def gateBytes (target base : Nat) : List Byte :=
  let tail := List.replicate 28 0 ++ leBytes 4 0xFF0003E8
  [0x45, 0x54, 0x41, 0x47] ++ leBytes 4 1 ++ leBytes 4 target ++ leBytes 4 1 ++ leBytes 8 base ++ leBytes 4 0 ++ leBytes 4 1000
    ++ leBytes 4 (crc32 tail).toNat ++ tail

/-- A parse graph image of one empty node (Table 6.3). -/
def graphBytes : List Byte :=
  [0x50, 0x52, 0x47, 0x44] ++ leBytes 4 1 ++ leBytes 4 1 ++ leBytes 4 0x8A4DD118 ++ List.replicate 1520 0

/-- A rule tree image of one node with two empty children (Table 6.8), for a tree. -/
def treeBytes (idx : Nat) : List Byte :=
  let tail := List.replicate 12 0 ++ leBytes 4 0x10000000 ++ List.replicate 12 0
  [0x45, 0x52, 0x54, 0x44] ++ leBytes 4 1 ++ leBytes 4 idx ++ leBytes 4 0x100 ++ leBytes 4 0 ++ leBytes 4 1 ++ leBytes 4 2
    ++ leBytes 4 0 ++ leBytes 4 1 ++ leBytes 4 0 ++ leBytes 8 0 ++ leBytes 4 (crc32 tail).toNat ++ tail

/-- The tree that the image holds. -/
def treeOne : Tree := { image := 1, size := 80, nodes := [(0x10000000, 0)], children := [0, 0] }

/-- An LPM image of one IPv4 prefix of length 0 for the common world (R245). -/
def lpmBytes : List Byte :=
  let tail := List.replicate 36 0 ++ leBytes 4 0x01000000 ++ List.replicate 28 0
  [0x54, 0x4D, 0x50, 0x4C] ++ leBytes 4 1 ++ leBytes 4 0x100 ++ leBytes 4 1 ++ leBytes 8 5 ++ leBytes 4 (crc32 tail).toNat ++ tail

/-- A frame of 64 zero bytes from uplink port 0. -/
def frame0 : Frame := { source := 64, len := 64, bytes := List.replicate 64 0, dir := 1 }

/-- The booted module with a lane. -/
def upL (l : Nat) (x : Lane) : State := { up with link := { up.link with lanes := [(l, x)] } }

/-- Fabric side B of one active lane, in an aligner state. -/
def upB (x : Side) : State := { up with link := { up.link with b := { x with width := 3, rxWidth := 3 }, lanes := [(48, { st := .active })] } }


/-! ## Ill-formed commands are refused -/

/-- A rail measurement of a rail that does not exist. -/
def badRail : RailScan := { rail := 24, ageing := 0, s0 := 0, s1 := 0, sLow := 0, sPlan := 0 }

theorem test_ill_formed_1 : ([
    .cqTail 0 0 0 [{ op := 65536, pkt := {} }],
    .cqTail 0 0 0 [{ op := 0, pkt := { src := .pair 64 } }],
    .cqTail 64 0 0 [],
    .cqTail 0 64 0 [],
    .cqTail 0 0 4096 [],
    .rqHead 64 0 0,
    .rqHead 0 64 0,
    .rqHead 0 0 4096,
    .qpEnable 64 0 0,
    .qpEnable 0 64 0,
    .pending 64 0,
    .hiqTail 64 0 0,
    .hiqTail 0 64 0,
    .hiqTail 0 0 65536,
    .hrqHead 64 0 0,
    .hrqHead 0 256 0,
    .hrqHead 0 0 65536,
    .registerWrite 64 0 0,
    .registerWrite 0 2 0,
    .registerWrite 0 65536 0,
    .registerWrite 1 16384 0,
    .portDisableComplete 64,
    .ruleVersionRetired 8,
    .rverDrainLate 8,
    .gateListStart 192,
    .vendorDiagnostics 4096 {},
    .inbandPacket 2 0 {},
    .inbandPacket 0 65536 {},
    .feedValidated 2 0,
    .feedInvalid 2 0 1,
    .feedInvalid 0 0 0,
    .feedInvalid 0 0 3,
    .feedOvercurrent 2,
    .feedOvercurrentRelease 2,
    .oringFail 2,
    .romBoot [[], [], []],
    .configurationApplied [{ op := 65536, pkt := {} }],
    .tempHigh 24 0 0,
    .thermalShutdown 24 0,
    .refLos 5] : List Instr).all (fun i => !i.wellFormed) = true := by decide +kernel

theorem test_ill_formed_2 : ([
    .refRestore 5,
    .moduleFrameBoundary [(64, [])],
    .moduleFrameBoundary [(0, [16384])],
    .burstReceived 64 0 0 {},
    .burstReceived 0 0 0 { onu := 1024 },
    .deactTimeout 32768,
    .terminalDelayChange 32768,
    .reassemblyTimeoutPon 32768 0,
    .reassemblyTimeoutPon 0 16384,
    .serialNumberOnu 64 0 0 0 ⟨[], true⟩,
    .rangingBurst ⟨32768, true⟩ 0,
    .acknowledge ⟨32768, true⟩,
    .rangingTimeTimeout 32768,
    .extAccept ⟨32768, true⟩ 0,
    .forecastAck ⟨32768, true⟩ 0 0 0 0,
    .forecastAck ⟨0, true⟩ 16384 0 0 0,
    .forecastAck ⟨0, true⟩ 0 0 0 65536,
    .keyReport 32768 0 [] false,
    .keyReport 0 2 [] false,
    .keyRequest 32768,
    .keyRequestTimeout 32768,
    .ploamuMessage 32768 [] false,
    .upstreamOmciFrame 32768 0 ⟨0, 0⟩ [] false,
    .upstreamOmciFrame 0 4 ⟨0, 0⟩ [] false,
    .snWindowOpen 64,
    .awlCycleBoundary 64 none,
    .awlPauseEnd 64,
    .awlDetection 64 0 0,
    .awlDetection 0 32768 0,
    .ponTxPllUnlock 64,
    .opticsRemoved 64,
    .opticsInserted 64,
    .opticsTxdisRelease 64,
    .opticsPoll 64 0 false,
    .opticsPoll 0 4 false,
    .opticsBusRecovery 8 false,
    .mapCutoff 8,
    .reportAbsorb 8,
    .resolvePasses 8,
    .cinchStale 8,
    .capsLate 8] : List Instr).all (fun i => !i.wellFormed) = true := by decide +kernel

theorem test_ill_formed_3 : ([
    .cappedRerun 8,
    .placement 8,
    .mapHandoff 64,
    .frameIngress 63 0 [] false,
    .frameIngress 82 0 [] false,
    .frameIngress 64 64 [] false,
    .learnRequest 4,
    .ageingScan 4,
    .compareAndDelete 4,
    .reinDecision 2 0,
    .hostqRecordWrite 256 false,
    .hostqModerationExpiry 256,
    .macsecTransmit 80,
    .alarm 7 false,
    .debugAccess 2 0 ⟨1, .good⟩ [],
    .debugAccess 0 0x1000000000 ⟨1, .good⟩ [],
    .debugAccess 0 0 ⟨0, .good⟩ [],
    .debugAccess 0 0 ⟨4, .good⟩ [],
    .osierCacheRefill 16 0,
    .osierCacheSpill 16,
    .cellFree 16 0 false,
    .hideLineAccess 3 0 false [] .good,
    .hideLineAccess 0 0x1000000000 false [] .good,
    .hideLineAccess 0 0 true [] .good,
    .counterCacheEvict 0 0,
    .counterCacheEvict 5 0,
    .counterPatrol 0 [(0, 0)],
    .counterPatrol 0 [(5, 0)],
    .plaitFrameReceive 2 (List.replicate 8192 0) false 0 false {},
    .plaitFrameReceive 0 [] false 0 false {},
    .reassemblyTimeout 2 0 0 0,
    .reassemblyTimeout 0 64 0 0,
    .reassemblyTimeout 0 0 64 0,
    .plaitFrameTransmit 2,
    .excWindow 2,
    .pauseStuck 2 0,
    .pauseStuck 0 64,
    .protectionHoldOff 2,
    .widthChange 2,
    .uplinkFaultChange 16 false false,
    .uplinkPortUp 16,
    .uplinkFrameReceive 16 [] false] : List Instr).all (fun i => !i.wellFormed) = true := by decide +kernel

theorem test_ill_formed_4 : ([
    .laneTrainingComplete 80 0 0 [] 10 5 80 false,
    .laneTrainingComplete 0 32 0 [] 10 5 80 false,
    .laneTrainingComplete 0 0 0 [] 41 5 80 false,
    .laneTrainingComplete 0 0 0 [] 10 26 80 false,
    .laneTrainingComplete 0 0 0 [] 10 5 39 false,
    .laneTrainingComplete 0 0 0 [] 10 5 101 false,
    .laneTrainingTimeout 80,
    .laneIdleRequest 80,
    .laneExitRequest 80,
    .laneIdleStale 80,
    .fastExitTimeout 80 false,
    .laneEnableChange 80,
    .laneLos 80 false,
    .laneLol 80 false 0,
    .laneFlapHoldEnd 80,
    .txFault 80,
    .peakingReevaluate 80 0,
    .peakingReevaluate 0 3,
    .peakingStep 80,
    .peakingStep 127,
    .peakingStep 192,
    .eyeScanComplete 80 [],
    .eyeScanComplete 127 [],
    .eyeScanComplete 192 [],
    .ptpFrameReceive 16 [],
    .ptpFrameTransmit 16 [],
    .servoMeasurement 16 0 0,
    .synceSourceChange 20 none,
    .synceSourceChange 0 (some 16),
    .esmcLapse 16,
    .domainRestore 256 [],
    .prxPowerCycle 64 false,
    .faultReport 256 0 0 0 256 0 0 none,
    .faultReport 1 256 0 0 256 0 0 none,
    .faultReport 1 0 65536 0 256 0 0 none,
    .faultReport 1 0 0 16777216 256 0 0 none,
    .faultReport 1 0 0 0 512 0 0 none,
    .faultReport 1 0 0 0 256 4 0 none,
    .unitRecovery 256 0 0 false,
    .unitRecovery 0 256 0 false,
    .unitRecovery 0 0 65536 false,
    .patinaPeriodicPlan [badRail] [],
    .railOffsetStep 24,
    .settingsRecordWrite 9 false] : List Instr).all (fun i => !i.wellFormed) = true := by decide +kernel

theorem test_ill_formed_5 : ([
    .functionLevelReset 0,
    .functionLevelReset 64,
    .unitTimeout 65,
    .rawDetectorStateChange 80 false false,
    .patinaScanComplete [badRail] []] : List Instr).all (fun i => !i.wellFormed) = true := by decide +kernel

theorem test_well_formed_1 : ([
    .cqTail 0 0 0 [],
    .rqHead 0 0 0,
    .qpEnable 0 0 0,
    .pending 0 0,
    .hiqTail 0 0 0,
    .hrqHead 0 0 0,
    .registerWrite 0 0 0,
    .portDisableComplete 0,
    .ruleVersionRetired 0,
    .rverDrainLate 0,
    .gateListStart 0,
    .vendorDiagnostics 0 {},
    .inbandPacket 0 0 {},
    .feedValidated 0 0,
    .feedInvalid 0 0 1,
    .feedOvercurrent 0,
    .feedOvercurrentRelease 0,
    .oringFail 0,
    .romBoot [[], [], [], []],
    .configurationApplied [],
    .tempHigh 0 0 0,
    .thermalShutdown 0 0,
    .refLos 0,
    .refRestore 0,
    .moduleFrameBoundary [],
    .burstReceived 0 0 0 {},
    .deactTimeout 0,
    .terminalDelayChange 0,
    .reassemblyTimeoutPon 0 0,
    .serialNumberOnu 0 0 0 0 ⟨[], true⟩,
    .rangingBurst ⟨0, true⟩ 0,
    .acknowledge ⟨0, true⟩,
    .rangingTimeTimeout 0,
    .extAccept ⟨0, true⟩ 0,
    .forecastAck ⟨0, true⟩ 0 0 0 0,
    .keyReport 0 0 [] false,
    .keyRequest 0,
    .keyRequestTimeout 0,
    .ploamuMessage 0 [] false,
    .upstreamOmciFrame 0 0 ⟨0, 0⟩ [] false,
    .snWindowOpen 0,
    .awlCycleBoundary 0 none,
    .awlPauseEnd 0,
    .awlDetection 0 0 0,
    .ponTxPllUnlock 0,
    .opticsRemoved 0,
    .opticsInserted 0,
    .opticsTxdisRelease 0,
    .opticsPoll 0 0 false,
    .opticsBusRecovery 0 false,
    .mapCutoff 0,
    .reportAbsorb 0,
    .resolvePasses 0,
    .cinchStale 0,
    .capsLate 0,
    .cappedRerun 0,
    .placement 0,
    .mapHandoff 0,
    .frameIngress 64 0 [] false,
    .learnRequest 0] : List Instr).all Instr.wellFormed = true := by decide +kernel

theorem test_well_formed_2 : ([
    .ageingScan 0,
    .compareAndDelete 0,
    .reinDecision 0 0,
    .hostqRecordWrite 0 false,
    .hostqModerationExpiry 0,
    .macsecTransmit 0,
    .alarm 0 false,
    .debugAccess 0 0 ⟨1, .good⟩ [],
    .osierCacheRefill 0 0,
    .osierCacheSpill 0,
    .cellFree 0 0 false,
    .hideLineAccess 0 0 false [] .good,
    .counterCacheEvict 1 0,
    .counterPatrol 0 [],
    .plaitFrameReceive 0 (List.replicate 8192 0) false 0 false {},
    .reassemblyTimeout 0 0 0 0,
    .plaitFrameTransmit 0,
    .excWindow 0,
    .pauseStuck 0 0,
    .protectionHoldOff 0,
    .widthChange 0,
    .uplinkFaultChange 0 false false,
    .uplinkPortUp 0,
    .uplinkFrameReceive 0 [] false,
    .laneTrainingComplete 0 0 0 [] 10 5 80 false,
    .laneTrainingTimeout 0,
    .laneIdleRequest 0,
    .laneExitRequest 0,
    .laneIdleStale 0,
    .fastExitTimeout 0 false,
    .laneEnableChange 0,
    .laneLos 0 false,
    .laneLol 0 false 0,
    .laneFlapHoldEnd 0,
    .txFault 0,
    .peakingReevaluate 0 0,
    .peakingStep 0,
    .eyeScanComplete 0 [],
    .ptpFrameReceive 0 [],
    .ptpFrameTransmit 0 [],
    .servoMeasurement 0 0 0,
    .synceSourceChange 0 none,
    .esmcLapse 0,
    .domainRestore 0 [],
    .prxPowerCycle 0 false,
    .faultReport 1 0 0 0 256 0 0 none,
    .unitRecovery 0 0 0 false,
    .patinaPeriodicPlan [] [],
    .railOffsetStep 0,
    .settingsRecordWrite 0 false,
    .functionLevelReset 1,
    .unitTimeout 0,
    .rawDetectorStateChange 0 false false,
    .patinaScanComplete [] []] : List Instr).all Instr.wellFormed = true := by decide +kernel

theorem test_ill_formed_packets : ([
    { src := .pair 64 }, { src := .inband 2 }, { length := 9 }, { params := [0] }] : List Packet).all
    (fun p => !p.wellFormed && !(Instr.nop p).wellFormed) = true := by decide +kernel

theorem test_ill_formed_packet_1 : ([
    .nop { src := .pair 64 },
    .identify { src := .pair 64 },
    .statusRead { src := .pair 64 },
    .epochStage { src := .pair 64 },
    .epochPrepare { src := .pair 64 },
    .epochActivate { src := .pair 64 },
    .epochAbort { src := .pair 64 },
    .queueBind { src := .pair 64 },
    .imageWrite { src := .pair 64 },
    .imageStatus { src := .pair 64 },
    .settingsStatus { src := .pair 64 },
    .moduleReset { src := .pair 64 },
    .inbandConfig { src := .pair 64 },
    .notifyMask { src := .pair 64 },
    .hostqConfig { src := .pair 64 },
    .portConfig { src := .pair 64 },
    .portState { src := .pair 64 },
    .terminalAdd { src := .pair 64 },
    .terminalRemove { src := .pair 64 },
    .ploamSend { src := .pair 64 },
    .bpmRead { src := .pair 64 },
    .opticsAccess { src := .pair 64 },
    .omciBind { src := .pair 64 },
    .discoveryConfig { src := .pair 64 },
    .rangingRead { src := .pair 64 },
    .terminalRerange { src := .pair 64 },
    .allocWrite { src := .pair 64 },
    .allocRead { src := .pair 64 },
    .allocDelete { src := .pair 64 },
    .scheduleHint { src := .pair 64 },
    .cinchBudget { src := .pair 64 },
    .weaverStats { src := .pair 64 },
    .upstreamGateLoad { src := .pair 64 },
    .parseGraphLoad { src := .pair 64 },
    .ruleTreeLoad { src := .pair 64 },
    .ruleUpdate { src := .pair 64 },
    .ruleVersionCommit { src := .pair 64 },
    .ruleVersionStatus { src := .pair 64 },
    .exceptionConfig { src := .pair 64 },
    .macStaticAdd { src := .pair 64 },
    .macDelete { src := .pair 64 },
    .macLookup { src := .pair 64 },
    .macFlush { src := .pair 64 },
    .ageingConfig { src := .pair 64 },
    .lpmAdd { src := .pair 64 },
    .lpmDelete { src := .pair 64 },
    .lpmLoad { src := .pair 64 },
    .stitchConfig { src := .pair 64 },
    .queueConfig { src := .pair 64 },
    .schedNodeConfig { src := .pair 64 },
    .shaperConfig { src := .pair 64 },
    .gateListLoad { src := .pair 64 },
    .queueStats { src := .pair 64 },
    .sampleRingConfig { src := .pair 64 },
    .sampleRingRead { src := .pair 64 },
    .scConfig { src := .pair 64 },
    .saConfig { src := .pair 64 },
    .saActivate { src := .pair 64 },
    .ponKeySwitch { src := .pair 64 },
    .keyGenerate { src := .pair 64 }] : List Instr).all (fun i => !i.wellFormed) = true := by decide +kernel

theorem test_ill_formed_packet_2 : ([
    .keyWrap { src := .pair 64 },
    .shedarUpdate { src := .pair 64 },
    .slotErase { src := .pair 64 },
    .slotInfo { src := .pair 64 },
    .attestOperator { src := .pair 64 },
    .attestTenant { src := .pair 64 },
    .encReserve { src := .pair 64 },
    .updateEpochAdvance { src := .pair 64 },
    .alarmStatus { src := .pair 64 },
    .poolConfig { src := .pair 64 },
    .poolStats { src := .pair 64 },
    .hideKeyChange { src := .pair 64 },
    .hideStatus { src := .pair 64 },
    .regionReinit { src := .pair 64 },
    .rightsWrite { src := .pair 64 },
    .uplinkConfig { src := .pair 64 },
    .laneConfig { src := .pair 64 },
    .laneStatus { src := .pair 64 },
    .plaitConfig { src := .pair 64 },
    .protectionCommand { src := .pair 64 },
    .laneEyeScan { src := .pair 64 },
    .timeRead { src := .pair 64 },
    .timeSet { src := .pair 64 },
    .ptpConfig { src := .pair 64 },
    .asymmetrySet { src := .pair 64 },
    .synceConfig { src := .pair 64 },
    .tsQueueRead { src := .pair 64 },
    .halterEnter { src := .pair 64 },
    .halterExit { src := .pair 64 },
    .domainControl { src := .pair 64 },
    .feedConfig { src := .pair 64 },
    .powerStatus { src := .pair 64 },
    .faultRead { src := .pair 64 },
    .faultClear { src := .pair 64 },
    .recorderRead { src := .pair 64 },
    .recorderErase { src := .pair 64 },
    .counterConfig { src := .pair 64 },
    .counterRead { src := .pair 64 },
    .patinaScan { src := .pair 64 },
    .patinaStatus { src := .pair 64 },
    .vfCounterGrant { src := .pair 64 },
    .vendorDiagnostics 0 { src := .pair 64 },
    .inbandPacket 0 0 { src := .pair 64 }] : List Instr).all (fun i => !i.wellFormed) = true := by decide +kernel

theorem test_reset_memory_canonical : Memory.wf State.reset.mem.cells = true := by decide +kernel

theorem test_no_word_spells_a_command : decodeTableWord 0 0 = none ∧ decodeTableWord 32 0xFFFFFFFF = none := ⟨rfl, rfl⟩

theorem test_idle_step_leaves_reset : step State.reset = .next State.reset := rfl

/-- The commands of the queue run first in, first out. -/
theorem test_front_command_runs : ∃ t, step { up with pending := [.ppsOutEdge, .handlerFail] } = .next t ∧ t.pending = [.handlerFail] :=
  ⟨_, rfl, by decide +kernel⟩

/-! ## Witnesses

One theorem for each statement: a state and operands for each of its clauses that meet the clause's hypotheses. The comment before each
part gives the clause's number, and a part of it, in the statement. -/

theorem witness_ModuleReadsAnswer :
    -- 1
    (∃ (p : Packet) (s : State),
    accepts opNop p s = true) ∧
    -- 2
    (∃ (p : Packet) (s : State),
    accepts opIdentify p s = true) ∧
    -- 3
    (∃ (p : Packet) (s : State),
    accepts opStatusRead p s = true) ∧
    -- 4
    (∃ (p : Packet) (s : State),
    accepts opImageStatus p s = true) ∧
    -- 5
    (∃ (p : Packet) (s : State),
    accepts opSettingsStatus p s = true) :=
  ⟨⟨(pk []), up, by decide +kernel⟩,
  ⟨(pk []), up, by decide +kernel⟩,
  ⟨(pk []), up, by decide +kernel⟩,
  ⟨(pk []), up, by decide +kernel⟩,
  ⟨(pk []), up, by decide +kernel⟩⟩

def st_ModuleWritesTakeEffect_2_s : State :=
  updSlot 5 (fun x => { x with valid := true, attr := { x.attr with masters := 4, usage := 1, ktype := 1 } }) up

theorem witness_ModuleWritesTakeEffect :
    -- 1
    (∃ (p : Packet) (s : State),
    accepts opNotifyMask p s = true ∧
    (let c := (ctxOf opNotifyMask p (fetched opNotifyMask p s));
    bit (c.w 0) 4 = false)) ∧
    -- 2
    (∃ (p : Packet) (s : State),
    accepts opInbandConfig p s = true ∧
    (let c := (ctxOf opInbandConfig p (fetched opInbandConfig p s));
    let f := (fetched opInbandConfig p s);
    fld (c.w 0) 17 0 < 0x10000 ∧ (fld (c.w 1) 15 0).testBit 6 = false ∧ (fld (c.w 1) 15 0).testBit 15 = false ∧ (slotAt f (fld (c.w 0) 17 0)).valid = true ∧ inbandSlot (slotAt f (fld (c.w 0) 17 0)) = true)) ∧
    -- 3
    (∃ (p : Packet) (s : State),
    accepts opHostqConfig p s = true ∧
    (let c := (ctxOf opHostqConfig p (fetched opHostqConfig p s));
    let f := (fetched opHostqConfig p s);
    ((bit (c.w 0) 30 = true → fld (c.w 0) 7 0 ≤ 63) ∧ fld (c.w 0) 23 16 ≤ 63 ∧ fld (c.w 1) 3 0 ≤ 10 ∧ worldCode (fld (c.w 1) 31 16) = true ∧ fld (c.w 1) 15 8 < msixEntries (fld (c.w 0) 23 16) ∧ fld (c.w 2) 11 0 = 0 ∧ (fld (c.w 0) 23 16 ≠ 0 → vfInWorld f (fld (c.w 0) 23 16) (fld (c.w 1) 31 16) = true) ∧ (bit (c.w 0) 31 = true → (if bit (c.w 0) 30 then hiqAt f (fld (c.w 0) 7 0) else hrqAt f (fld (c.w 0) 7 0)).enable = false)))) ∧
    -- 3_injection
    (∃ (p : Packet) (s : State),
    accepts opHostqConfig p s = true ∧
    (let c := (ctxOf opHostqConfig p (fetched opHostqConfig p s));
    let f := (fetched opHostqConfig p s);
    ((bit (c.w 0) 30 = true → fld (c.w 0) 7 0 ≤ 63) ∧ fld (c.w 0) 23 16 ≤ 63 ∧ fld (c.w 1) 3 0 ≤ 10 ∧ worldCode (fld (c.w 1) 31 16) = true ∧ fld (c.w 1) 15 8 < msixEntries (fld (c.w 0) 23 16) ∧ fld (c.w 2) 11 0 = 0 ∧ (fld (c.w 0) 23 16 ≠ 0 → vfInWorld f (fld (c.w 0) 23 16) (fld (c.w 1) 31 16) = true) ∧ (bit (c.w 0) 31 = true → (if bit (c.w 0) 30 then hiqAt f (fld (c.w 0) 7 0) else hrqAt f (fld (c.w 0) 7 0)).enable = false)))) ∧
    -- 4
    (∃ (p : Packet) (s : State),
    accepts opQueueBind p s = true ∧
    (let c := (ctxOf opQueueBind p (fetched opQueueBind p s));
    let f := (fetched opQueueBind p s);
    (fld (c.w 0) 5 0 ≠ 0 ∧ (pairAt f (fld (c.w 0) 5 0)).enable = false ∧ (pairAt f (fld (c.w 0) 5 0)).executing = none ∧ (pairAt f (fld (c.w 0) 5 0)).cqHead = (pairAt f (fld (c.w 0) 5 0)).cqTail ∧ ((fld (c.w 0) 31 24 = 0 ∧ fld (c.w 1) 15 0 = 0x0100 ∧ fld (c.w 1) 31 16 < 64) ∨ (1 ≤ fld (c.w 0) 31 24 ∧ fld (c.w 0) 31 24 ≤ 63 ∧ fld (c.w 1) 15 0 ≤ 0xFF ∧ fld (c.w 1) 31 16 < 8 ∧ ∀ e ∈ pairsOf f (fld (c.w 0) 31 24), e.1 ≠ fld (c.w 0) 5 0 → e.2.world = fld (c.w 1) 15 0))))) ∧
    -- 5
    (∃ (p : Packet) (s : State),
    accepts opImageWrite p s = true ∧
    (let c := (ctxOf opImageWrite p (fetched opImageWrite p s));
    let f := (fetched opImageWrite p s);
    (c.hasData = true ∧ (fld (c.w 0) 1 0 = 1 ∨ fld (c.w 0) 1 0 = 2) ∧ (∀ i < 2, (copyAt f (2 * (fld (c.w 0) 1 0 - 1) + i)).valid = true → (copyAt f (2 * (fld (c.w 0) 1 0 - 1) + i)).sequence < imageSeq c.data)))) :=
  ⟨⟨(pk [0x6]), up, by decide +kernel⟩,
  ⟨(pk [0x80000005, 0x3]), st_ModuleWritesTakeEffect_2_s, by decide +kernel⟩,
  ⟨(pk [0x800000FF, 0x0100000A, 0, 0, 0]), up, by decide +kernel⟩,
  ⟨(pk [0xC000003F, 0x0100000A, 0, 0, 0]), up, by decide +kernel⟩,
  ⟨(pk [0x3F, 0x003F0100]), up, by decide +kernel⟩,
  ⟨(pkd [2] (List.replicate 256 0)), up, by decide +kernel⟩⟩

def st_EpochCommandsAdvanceCommit_2_s : State :=
  upE { phase := .staged, staged := 1 }

def st_EpochCommandsAdvanceCommit_3_first_s : State :=
  upE { phase := .prepared, staged := 1 }

def st_EpochCommandsAdvanceCommit_3_last_s : State :=
  upE { phase := .prepared, staged := 1 }

def st_EpochCommandsAdvanceCommit_3_time_first_s : State :=
  upE { phase := .prepared, staged := 1 }

def st_EpochCommandsAdvanceCommit_3_time_last_s : State :=
  upE { phase := .prepared, staged := 1 }

def st_EpochCommandsAdvanceCommit_4_s : State :=
  upE { phase := .staged, staged := 1 }

def st_EpochCommandsAdvanceCommit_4_armed_s : State :=
  upE { phase := .armed, staged := 1, point := 1 }

theorem witness_EpochCommandsAdvanceCommit :
    -- 1
    (∃ (p : Packet) (s : State),
    accepts opEpochStage p s = true ∧
    (let c := (ctxOf opEpochStage p (fetched opEpochStage p s));
    let f := (fetched opEpochStage p s);
    f.halter.stage ≠ .halter ∧ f.epoch.phase = .none ∧ epochOf c = f.epoch.current + 1)) ∧
    -- 1_wraps
    (∃ (p : Packet) (s : State),
    accepts opEpochStage p s = true ∧
    (let c := (ctxOf opEpochStage p (fetched opEpochStage p s));
    let f := (fetched opEpochStage p s);
    f.halter.stage ≠ .halter ∧ f.epoch.phase = .none ∧ epochOf c = f.epoch.current + 1)) ∧
    -- 2
    (∃ (p : Packet) (s : State),
    accepts opEpochPrepare p s = true ∧
    (let c := (ctxOf opEpochPrepare p (fetched opEpochPrepare p s));
    let f := (fetched opEpochPrepare p s);
    f.halter.stage ≠ .halter ∧ f.epoch.phase = .staged ∧ epochOf c = f.epoch.staged ∧ silentOf c.pkt f = [] ∧ stagedFailures f.epoch.cmds f = [])) ∧
    -- 3_first
    (∃ (p : Packet) (s : State),
    accepts opEpochActivate p s = true ∧
    (let c := (ctxOf opEpochActivate p (fetched opEpochActivate p s));
    let f := (fetched opEpochActivate p s);
    (f.halter.stage ≠ .halter ∧ f.epoch.phase = .prepared ∧ epochOf c = f.epoch.staged ∧ (bit (c.w 0) 31 = true → (c.w 3).toNat ≤ 999999999 ∧ f.time.tc + 500000 * nsUnit ≤ (join64 (c.w 1) (c.w 2) * 1000000000 + (c.w 3).toNat) * nsUnit ∧ (join64 (c.w 1) (c.w 2) * 1000000000 + (c.w 3).toNat) * nsUnit ≤ f.time.tc + 60000000000 * nsUnit) ∧ (bit (c.w 0) 31 = false → f.time.sfc + 4 ≤ join64 (c.w 1) (c.w 2) ∧ join64 (c.w 1) (c.w 2) ≤ f.time.sfc + 480000)))) ∧
    -- 3_last
    (∃ (p : Packet) (s : State),
    accepts opEpochActivate p s = true ∧
    (let c := (ctxOf opEpochActivate p (fetched opEpochActivate p s));
    let f := (fetched opEpochActivate p s);
    (f.halter.stage ≠ .halter ∧ f.epoch.phase = .prepared ∧ epochOf c = f.epoch.staged ∧ (bit (c.w 0) 31 = true → (c.w 3).toNat ≤ 999999999 ∧ f.time.tc + 500000 * nsUnit ≤ (join64 (c.w 1) (c.w 2) * 1000000000 + (c.w 3).toNat) * nsUnit ∧ (join64 (c.w 1) (c.w 2) * 1000000000 + (c.w 3).toNat) * nsUnit ≤ f.time.tc + 60000000000 * nsUnit) ∧ (bit (c.w 0) 31 = false → f.time.sfc + 4 ≤ join64 (c.w 1) (c.w 2) ∧ join64 (c.w 1) (c.w 2) ≤ f.time.sfc + 480000)))) ∧
    -- 3_time_first
    (∃ (p : Packet) (s : State),
    accepts opEpochActivate p s = true ∧
    (let c := (ctxOf opEpochActivate p (fetched opEpochActivate p s));
    let f := (fetched opEpochActivate p s);
    (f.halter.stage ≠ .halter ∧ f.epoch.phase = .prepared ∧ epochOf c = f.epoch.staged ∧ (bit (c.w 0) 31 = true → (c.w 3).toNat ≤ 999999999 ∧ f.time.tc + 500000 * nsUnit ≤ (join64 (c.w 1) (c.w 2) * 1000000000 + (c.w 3).toNat) * nsUnit ∧ (join64 (c.w 1) (c.w 2) * 1000000000 + (c.w 3).toNat) * nsUnit ≤ f.time.tc + 60000000000 * nsUnit) ∧ (bit (c.w 0) 31 = false → f.time.sfc + 4 ≤ join64 (c.w 1) (c.w 2) ∧ join64 (c.w 1) (c.w 2) ≤ f.time.sfc + 480000)))) ∧
    -- 3_time_last
    (∃ (p : Packet) (s : State),
    accepts opEpochActivate p s = true ∧
    (let c := (ctxOf opEpochActivate p (fetched opEpochActivate p s));
    let f := (fetched opEpochActivate p s);
    (f.halter.stage ≠ .halter ∧ f.epoch.phase = .prepared ∧ epochOf c = f.epoch.staged ∧ (bit (c.w 0) 31 = true → (c.w 3).toNat ≤ 999999999 ∧ f.time.tc + 500000 * nsUnit ≤ (join64 (c.w 1) (c.w 2) * 1000000000 + (c.w 3).toNat) * nsUnit ∧ (join64 (c.w 1) (c.w 2) * 1000000000 + (c.w 3).toNat) * nsUnit ≤ f.time.tc + 60000000000 * nsUnit) ∧ (bit (c.w 0) 31 = false → f.time.sfc + 4 ≤ join64 (c.w 1) (c.w 2) ∧ join64 (c.w 1) (c.w 2) ≤ f.time.sfc + 480000)))) ∧
    -- 4
    (∃ (p : Packet) (s : State),
    accepts opEpochAbort p s = true ∧
    (let c := (ctxOf opEpochAbort p (fetched opEpochAbort p s));
    let f := (fetched opEpochAbort p s);
    ((f.epoch.phase = .staged ∨ f.epoch.phase = .prepared ∨ (f.epoch.phase = .armed ∧ epochMayAbort f = true)) ∧ epochOf c = f.epoch.staged))) ∧
    -- 4_armed
    (∃ (p : Packet) (s : State),
    accepts opEpochAbort p s = true ∧
    (let c := (ctxOf opEpochAbort p (fetched opEpochAbort p s));
    let f := (fetched opEpochAbort p s);
    ((f.epoch.phase = .staged ∨ f.epoch.phase = .prepared ∨ (f.epoch.phase = .armed ∧ epochMayAbort f = true)) ∧ epochOf c = f.epoch.staged))) :=
  ⟨⟨(pk [1]), up, by decide +kernel⟩,
  ⟨(pk [0]), (upE { current := 0xFFFF }), by decide +kernel⟩,
  ⟨(pk [1]), st_EpochCommandsAdvanceCommit_2_s, by decide +kernel⟩,
  ⟨(pk [1, 4, 0, 0]), st_EpochCommandsAdvanceCommit_3_first_s, by decide +kernel⟩,
  ⟨(pk [1, 480000, 0, 0]), st_EpochCommandsAdvanceCommit_3_last_s, by decide +kernel⟩,
  ⟨(pk [0x80000001, 0, 0, 500000]), st_EpochCommandsAdvanceCommit_3_time_first_s, by decide +kernel⟩,
  ⟨(pk [0x80000001, 60, 0, 0]), st_EpochCommandsAdvanceCommit_3_time_last_s, by decide +kernel⟩,
  ⟨(pk [1]), st_EpochCommandsAdvanceCommit_4_s, by decide +kernel⟩,
  ⟨(pk [1]), st_EpochCommandsAdvanceCommit_4_armed_s, by decide +kernel⟩⟩

def st_EpochEventsRunCommit_1_s : State :=
  upE { phase := .armed, staged := 1, point := 0 }

def st_EpochEventsRunCommit_2_s : State :=
  upE { phase := .draining, current := 1, previous := some 0 }

def st_EpochEventsRunCommit_3_s : State :=
  { upE { phase := .draining, current := 1, previous := some 0, inFlightPrev := 1 } with mono := ms }

def st_EpochEventsRunCommit_4_s : State :=
  { upE { phase := .staged, staged := 1, cmds := [{ op := 0x8001, pkt := pk [0], objs := [], charge := 0 }] } with mono := ms, host := { pairs := [(0, { enable := true, served := true, world := 0x100, executing := some { op := 5, pkt := { pk [1] with env := { silentUnits := [(0x0A, 1, 0)] } }, data := [0] } })] } }

theorem witness_EpochEventsRunCommit :
    -- 1
    (∃ (s : State),
    activationDue s = true) ∧
    -- 2
    (∃ (s : State) (e : BitVec 16),
    s.epoch.phase = .draining ∧
    s.epoch.inFlightPrev = 0 ∧
    s.epoch.previous = some e) ∧
    -- 3
    (∃ (s : State),
    s.epoch.phase = .draining ∧
    s.epoch.inFlightPrev ≠ 0 ∧
    s.epoch.mark + ms ≤ s.mono) ∧
    -- 4
    (∃ (s : State) (q : Nat) (x : Exec) (u : Nat × Nat × Nat) (st : Status),
    executingQ s 0x0005 (prepareDue s) = [q] ∧
    (pairAt s q).executing = some x ∧
    x.discard = false ∧
    (let f := updPair q (fun p => { p with executing := none }) s;
    let fails := (stagedFailures f.epoch.cmds f).filter (fun e => !(silentOf x.pkt f).contains e.1) ++ (silentOf x.pkt f).eraseDups.map fun u => (u, Status.unitTimeout);
    lowestFailure fails = some (u, st))) :=
  ⟨⟨st_EpochEventsRunCommit_1_s, by decide +kernel⟩,
  ⟨st_EpochEventsRunCommit_2_s, 0, by decide +kernel⟩,
  ⟨st_EpochEventsRunCommit_3_s, by decide +kernel⟩,
  ⟨st_EpochEventsRunCommit_4_s, 0, { op := 5, pkt := { pk [1] with env := { silentUnits := [(0x0A, 1, 0)] } }, data := [0] }, ((0x0A, 1, 0)), .unitTimeout, by decide +kernel⟩⟩

theorem witness_DoorbellsMoveQueues :
    -- 1
    (∃ (fn : Nat) (pair : Nat) (tail : Nat) (packets : List Written) (s : State),
    fn < 64 ∧
    pair < 64 ∧
    seesPair s fn pair = true) ∧
    -- 2
    (∃ (fn : Nat) (pair : Nat) (value : Nat) (s : State),
    fn < 64 ∧
    pair < 64 ∧
    seesPair s fn pair = true) ∧
    -- 3
    (∃ (fn : Nat) (pair : Nat) (v : Word) (s : State),
    fn < 64 ∧
    pair < 64 ∧
    seesPair s fn pair = true) ∧
    -- 4
    (∃ (fn : Nat) (bits : BitVec 64) (s : State),
    fn < 64) ∧
    -- 5
    (∃ (fn : Nat) (queue : Nat) (value : Nat) (s : State),
    fn < 64 ∧
    queue < 64 ∧
    reachesQueue fn (hiqAt s queue) = true) ∧
    -- 6
    (∃ (fn : Nat) (queue : Nat) (value : Nat) (s : State),
    fn < 64 ∧
    queue < 256 ∧
    reachesQueue fn (hrqAt s queue) = true) :=
  ⟨⟨0, 0, 4095, [], up, by decide +kernel⟩,
  ⟨0, 0, 4095, up, by decide +kernel⟩,
  ⟨0, 63, 1, up, by decide +kernel⟩,
  ⟨63, 1, up, by decide +kernel⟩,
  ⟨0, 63, 64, up, by decide +kernel⟩,
  ⟨0, 255, 0, up, by decide +kernel⟩⟩

theorem witness_WindowWritesAndVendorOpcodes :
    -- 1
    (∃ (fn : Nat) (n : Nat) (k : Nat) (v : Word) (s : State),
    fn < 64 ∧
    n < 64 ∧
    k < 4 ∧
    seesPair s fn n = true) ∧
    -- 2
    (∃ (fn : Nat) (n : Nat) (v : Word) (s : State),
    fn < 64 ∧
    n < 64 ∧
    seesPair s fn n = true) ∧
    -- 3
    (∃ (fn : Nat) (v : Word) (s : State),
    fn < 64) ∧
    -- 4
    (∃ (fn : Nat) (v : Word) (s : State),
    fn < 64) ∧
    -- 5_1
    (∃ (fn : Nat) (q : Nat) (v : Word) (s : State),
    fn < 64 ∧
    q < 256 ∧
    reachesQueue fn (hrqAt s q) = true) ∧
    -- 5_2
    (∃ (fn : Nat) (q : Nat) (v : Word) (s : State),
    fn < 64 ∧
    q < 64 ∧
    reachesQueue fn (hiqAt s q) = true) ∧
    -- 6
    (∃ (fn : Nat) (k : Nat) (v : Word) (s : State),
    fn < 64 ∧
    4 * k < (if fn = 0 then 65536 else 16384) ∧
    (4 * k < 0x1000 → seesPair s fn (k / 16) = false ∨ k % 16 = 5 ∨ k % 16 = 7 ∨ 9 ≤ k % 16) ∧
    (0x1000 ≤ 4 * k → 4 * k < 0x2000 → 0x1010 ≤ 4 * k) ∧
    (0x2000 ≤ 4 * k → 4 * k < 0x3000 → k % 4 ≠ 0 ∨ reachesQueue fn (hrqAt s ((k - 0x800) / 4)) = false) ∧
    (0x3000 ≤ 4 * k → 4 * k < 0x3400 → k % 4 ≠ 1 ∨ reachesQueue fn (hiqAt s ((k - 0xC00) / 4)) = false)) ∧
    -- 7_1
    (∃ (fn : Nat) (n : Nat) (s : State) (k : _),
    n < 64 ∧
    seesPair s fn n = false ∧
    k < 16) ∧
    -- 7_2_1
    (∃ (fn : Nat) (n : Nat) (s : State),
    n < 64 ∧
    seesPair s fn n = true) ∧
    -- 7_2_6
    (∃ (fn : Nat) (n : Nat) (s : State) (k : _),
    n < 64 ∧
    seesPair s fn n = true ∧
    10 ≤ k ∧
    k < 16) ∧
    -- 8_2
    (∃ (fn : Nat) (s : State),
    fn = 0) ∧
    -- 8_3
    (∃ (fn : Nat) (s : State),
    fn ≠ 0) ∧
    -- 8_4
    (∃ (fn : Nat) (s : State) (q : _),
    q < 256 ∧
    reachesQueue fn (hrqAt s q) = false) ∧
    -- 9
    (∃ (fn : Nat) (s : State),
    1 ≤ fn ∧
    fn < 64) ∧
    -- 10
    (∃ (n : Nat) (p : Packet) (s : State),
    n < 4096 ∧
    readable (opVendor n) p s = true ∧
    8 ≤ p.length.toNat ∧
    p.length.toNat ≤ 4096 ∧
    seqGround p s = none ∧
    headerGround p = none ∧
    descWords p ≤ (paramWords p).length) :=
  ⟨⟨0, 63, 3, 0, up, by decide +kernel⟩,
  ⟨0, 63, 3, up, by decide +kernel⟩,
  ⟨63, 0, up, by decide +kernel⟩,
  ⟨63, 0, up, by decide +kernel⟩,
  ⟨0, 255, 3, up, by decide +kernel⟩,
  ⟨0, 63, 3, up, by decide +kernel⟩,
  ⟨0, 16383, 0, up, by decide +kernel⟩,
  ⟨1, 63, up, 15, by decide +kernel⟩,
  ⟨0, 63, up, by decide +kernel⟩,
  ⟨0, 63, up, 15, by decide +kernel⟩,
  ⟨0, up, by decide +kernel⟩,
  ⟨63, up, by decide +kernel⟩,
  ⟨63, up, by decide +kernel⟩,
  ⟨63, up, by decide +kernel⟩,
  ⟨4095, (pk []), up, by decide +kernel⟩⟩

def st_PacketsAndHostQueuesServed_2_s : State :=
  { up with host := { pairs := [(0, { enable := true, served := true, world := 0x100, executing := some { op := 0x8003, pkt := pk [0], data := [0, 0x0A, 0, 1] } })] } }

def st_PacketsAndHostQueuesServed_3_s : State :=
  { up with host := { up.host with hrq := [(255, { enable := true, bound := 0, waiting := [({}, [])] })] } }

def st_PacketsAndHostQueuesServed_4_s : State :=
  { up with host := { up.host with hrq := [(255, { enable := true, bound := 0, unsignalled := true })] } }

def st_PacketsAndHostQueuesServed_5_s : State :=
  { up with host := { up.host with hiq := [(63, { enable := true, bound := 0, world := 0x100, tail := 1 })] } }

def st_PacketsAndHostQueuesServed_6_shortest_s : State :=
  { up with host := { up.host with hiq := [(63, { enable := true, bound := 0, world := 0x100, tail := 1 })] } }

def st_PacketsAndHostQueuesServed_6_longest_s : State :=
  { up with host := { up.host with hiq := [(63, { enable := true, bound := 0, world := 0x100, tail := 1 })] } }

theorem witness_PacketsAndHostQueuesServed :
    -- 1
    (∃ (side : Nat) (op : Nat) (p : Packet) (spec : OpSpec) (s : State),
    side < 2 ∧
    op < 65536 ∧
    specOf op = some spec) ∧
    -- 2
    (∃ (q : Nat) (a : Nat) (cplx : Nat) (unit : Nat) (inst : Nat) (x : Exec) (s : State),
    q ≤ 64 ∧
    (pairAt s q).executing = some x ∧
    x.discard = false ∧
    x.data = [a, cplx, unit, inst]) ∧
    -- 3
    (∃ (q : Nat) (f : Frame) (ext : List Word) (rest : List (Frame × List Word)) (s : State),
    q < 256 ∧
    (hrqAt s q).waiting = (f, ext) :: rest ∧
    (hrqAt s q).enable = true ∧
    (hrqAt s q).bound ≠ 0xFF ∧
    f.wait = false ∧
    f.poison = false ∧
    48 + f.len ≤ slotBytesOf (hrqAt s q) ∧
    ringUsed (hrqAt s q) + 1 < ringSlots (hrqAt s q)) ∧
    -- 4
    (∃ (q : Nat) (ok : Bool) (f : Frame) (ext : List Word) (rest : List (Frame × List Word)) (s : State),
    q < 256 ∧
    (hrqAt s q).waiting = (f, ext) :: rest ∧
    f.wait = false ∧
    f.poison = true) ∧
    -- 5
    (∃ (q : Nat) (s : State),
    q < 256 ∧
    (hrqAt s q).unsignalled = true) ∧
    -- 6
    (∃ (q : Nat) (ws : List Word) (bs : List Byte) (s : State),
    nextInjection s = some q) ∧
    -- 7_shortest
    (∃ (q : Nat) (ws : List Word) (bs : List Byte) (s : State),
    nextInjection s = some q ∧
    fld (nthW ws 0) 31 30 = 0 ∧
    60 ≤ fld (nthW ws 0) 13 0 ∧
    fld (nthW ws 0) 13 0 ≤ 12284) ∧
    -- 7_longest
    (∃ (q : Nat) (ws : List Word) (bs : List Byte) (s : State),
    nextInjection s = some q ∧
    fld (nthW ws 0) 31 30 = 0 ∧
    60 ≤ fld (nthW ws 0) 13 0 ∧
    fld (nthW ws 0) 13 0 ≤ 12284) :=
  ⟨⟨1, 0x0001, (pk []), opNop, up, by exact ⟨by decide, by decide, rfl⟩⟩,
  ⟨0, 0, 0x0A, 0, 1, { op := 0x8003, pkt := pk [0], data := [0, 0x0A, 0, 1] }, st_PacketsAndHostQueuesServed_2_s, by decide +kernel⟩,
  ⟨255, {}, [], [], st_PacketsAndHostQueuesServed_3_s, by decide +kernel⟩,
  ⟨255, true, { poison := true }, [], [], { up with host := { up.host with hrq := [(255, { waiting := [({ poison := true }, [])] })] } }, by decide +kernel⟩,
  ⟨255, st_PacketsAndHostQueuesServed_4_s, by decide +kernel⟩,
  ⟨63, [], [], st_PacketsAndHostQueuesServed_5_s, by decide +kernel⟩,
  ⟨63, [60], [], st_PacketsAndHostQueuesServed_6_shortest_s, by decide +kernel⟩,
  ⟨63, [12284], [], st_PacketsAndHostQueuesServed_6_longest_s, by decide +kernel⟩⟩

def st_FeedsStartSwitchAndExclude_2_s : State :=
  { upP { stage := .ride, entered := 0 } with mono := 20 * us }

def st_FeedsStartSwitchAndExclude_3_ride_s : State :=
  upP { stage := .run, a := { valid := true } }

def st_FeedsStartSwitchAndExclude_3_over_s : State :=
  upP { stage := .run, a := { valid := true }, b := { valid := true, volts := 5400 } }

def st_FeedsStartSwitchAndExclude_5_s : State :=
  { upP { stage := .run, active := 1, pref := 0, a := { valid := true, goodSince := some 0 }, b := { valid := true } } with mono := 100 * ms }

def st_FeedsStartSwitchAndExclude_6_s : State :=
  { upP { flap := true } with mono := 60 * sec }

def st_FeedsStartSwitchAndExclude_8_s : State :=
  { upP { b := { outSince := some 0 } } with mono := sec }

theorem witness_FeedsStartSwitchAndExclude :
    -- 1
    (∃ (f : Nat) (volts : Nat) (s : State),
    f < 2 ∧
    880 < volts ∧
    volts < 6150 ∧
    ((feedAt s f).overVolt = true → volts < 6100) ∧
    (feedAt s f).excluded = false ∧
    (feedAt s f).outSince = none ∧
    s.power.stage = .off ∧
    (feedAt s (otherFeed f)).valid = false) ∧
    -- 1_highest
    (∃ (f : Nat) (volts : Nat) (s : State),
    f < 2 ∧
    880 < volts ∧
    volts < 6150 ∧
    ((feedAt s f).overVolt = true → volts < 6100) ∧
    (feedAt s f).excluded = false ∧
    (feedAt s f).outSince = none ∧
    s.power.stage = .off ∧
    (feedAt s (otherFeed f)).valid = false) ∧
    -- 2
    (∃ (f : Nat) (volts : Nat) (s : State),
    f < 2 ∧
    (feedAt s f).overVolt = true ∧
    6100 ≤ volts) ∧
    -- 3
    (∃ (f : Nat) (volts : Nat) (s : State),
    f < 2 ∧
    880 < volts ∧
    volts < 6150 ∧
    ((feedAt s f).overVolt = true → volts < 6100) ∧
    (feedAt s f).excluded = false ∧
    (feedAt s f).outSince = none ∧
    s.power.stage = .ride ∧
    s.mono ≤ s.power.entered + 20 * us) ∧
    -- 4_ride
    (∃ (f : Nat) (volts : Nat) (cause : Nat) (s : State),
    f < 2 ∧
    (feedAt s f).valid = true ∧
    (cause = 1 ∧ volts < 830 ∨ cause = 2 ∧ 6150 < volts) ∧
    s.power.stage = .run) ∧
    -- 4_over
    (∃ (f : Nat) (volts : Nat) (cause : Nat) (s : State),
    f < 2 ∧
    (feedAt s f).valid = true ∧
    (cause = 1 ∧ volts < 830 ∨ cause = 2 ∧ 6150 < volts) ∧
    s.power.stage = .run) ∧
    -- 6
    (∃ (s : State),
    returnDue s = true) ∧
    -- 7
    (∃ (s : State),
    s.power.flap = true ∧
    s.power.lastSwitch + 60 * sec ≤ s.mono) ∧
    -- 8
    (∃ (f : Nat) (s : State),
    f < 2 ∧
    (s.power.stage = .run ∨ s.power.stage = .ride)) ∧
    -- 9
    (∃ (f : Nat) (at_ : Nat) (s : State),
    f < 2 ∧
    (feedAt s f).outSince = some at_ ∧
    at_ + sec ≤ s.mono) ∧
    -- 10
    (∃ (f : Nat) (s : State),
    f < 2 ∧
    s.power.stage = .run) :=
  ⟨⟨1, 881, up, by decide +kernel⟩,
  ⟨0, 6149, up, by decide +kernel⟩,
  ⟨1, 6100, upP { b := { overVolt := true } }, by decide +kernel⟩,
  ⟨1, 881, st_FeedsStartSwitchAndExclude_2_s, by decide +kernel⟩,
  ⟨0, 829, 1, st_FeedsStartSwitchAndExclude_3_ride_s, by decide +kernel⟩,
  ⟨0, 6151, 2, st_FeedsStartSwitchAndExclude_3_over_s, by decide +kernel⟩,
  ⟨st_FeedsStartSwitchAndExclude_5_s, by decide +kernel⟩,
  ⟨st_FeedsStartSwitchAndExclude_6_s, by decide +kernel⟩,
  ⟨1, (upP { stage := .run }), by decide +kernel⟩,
  ⟨1, 0, st_FeedsStartSwitchAndExclude_8_s, by decide +kernel⟩,
  ⟨1, (upP { stage := .run }), by decide +kernel⟩⟩

def st_PowerStageRunsAndReports_1_s : State :=
  { upP { stage := .softStart } with mono := 20 * ms }

def st_PowerStageRunsAndReports_2_s : State :=
  { upP { stage := .ride } with mono := 20 * us }

def st_PowerStageRunsAndReports_10_longest_s : State :=
  upP { stage := .run, a := { valid := true }, b := { valid := true } }

theorem witness_PowerStageRunsAndReports :
    -- 1
    (∃ (s : State),
    s.power.stage = .softStart ∧
    s.power.entered + 20 * ms ≤ s.mono) ∧
    -- 2
    (∃ (s : State),
    s.power.stage = .ride ∧
    s.power.entered + 20 * us ≤ s.mono) ∧
    -- 3
    (∃ (rail : Nat) (tj : Int) (tc : Int) (s : State),
    rail < 24) ∧
    -- 4
    (∃ (rail : Nat) (tj : Int) (s : State),
    rail < 24 ∧
    120 ≤ tj ∧
    s.power.shutdown = false) ∧
    -- 5
    (∃ (ns : Nat) (s : State),
    1000 ≤ ns) ∧
    -- 8
    (∃ (s : State),
    s.power.seated = false) ∧
    -- 9
    (∃ (s : State),
    s.power.seated = true) ∧
    -- 10_shortest
    (∃ (p : Packet) (s : State),
    accepts opFeedConfig p s = true ∧
    (let c := (ctxOf opFeedConfig p (fetched opFeedConfig p s));
    fld (c.w 0) 1 0 ≠ 3 ∧ 10 ≤ fld (c.w 0) 31 16 ∧ fld (c.w 0) 31 16 ≤ 10000)) ∧
    -- 10_longest
    (∃ (p : Packet) (s : State),
    accepts opFeedConfig p s = true ∧
    (let c := (ctxOf opFeedConfig p (fetched opFeedConfig p s));
    fld (c.w 0) 1 0 ≠ 3 ∧ 10 ≤ fld (c.w 0) 31 16 ∧ fld (c.w 0) 31 16 ≤ 10000)) ∧
    -- 11
    (∃ (p : Packet) (s : State),
    accepts opPowerStatus p s = true ∧
    (let c := (ctxOf opPowerStatus p (fetched opPowerStatus p s));
    c.answers.length = 3)) :=
  ⟨⟨st_PowerStageRunsAndReports_1_s, by decide +kernel⟩,
  ⟨st_PowerStageRunsAndReports_2_s, by decide +kernel⟩,
  ⟨23, 105, 25, up, by decide +kernel⟩,
  ⟨23, 120, up, by decide +kernel⟩,
  ⟨1000, up, by decide +kernel⟩,
  ⟨up, by decide +kernel⟩,
  ⟨(upP { seated := true }), by decide +kernel⟩,
  ⟨(pk [0x000A0002]), up, by decide +kernel⟩,
  ⟨(pk [0x27100001]), st_PowerStageRunsAndReports_10_longest_s, by decide +kernel⟩,
  ⟨{ pk [] with env := { answers := [100, 100, 5000] } }, up, by decide +kernel⟩⟩

def st_ReferencesFallBackAndReturn_4_s : State :=
  upP { refs := [(3, { valid := false })] }

def st_ReferencesFallBackAndReturn_5_s : State :=
  upP { refs := [(4, { valid := false })] }

def st_ReferencesFallBackAndReturn_6_s : State :=
  { up with mono := 200 * us, link := { up.link with sel := { transition := some 0 } } }

theorem witness_ReferencesFallBackAndReturn :
    -- 1
    (∃ (s : State),
    (refAt s 0).valid = true) ∧
    -- 2
    (∃ (s : State),
    (refAt s 4).valid = true) ∧
    -- 3
    (∃ (i : Nat) (s : State),
    i < 2 ∧
    (refAt s (i + 1)).valid = true ∧
    (refAt s 3).valid = true ∧
    s.power.fallback.contains i = false) ∧
    -- 4
    (∃ (r : Nat) (s : State),
    r < 3 ∧
    (refAt s r).valid = false) ∧
    -- 5
    (∃ (s : State),
    (refAt s 3).valid = false) ∧
    -- 6
    (∃ (s : State),
    (refAt s 4).valid = false) ∧
    -- 7
    (∃ (at_ : Nat) (s : State),
    s.link.sel.transition = some at_ ∧
    at_ + 200 * us ≤ s.mono) :=
  ⟨⟨up, by decide +kernel⟩,
  ⟨up, by decide +kernel⟩,
  ⟨1, up, by decide +kernel⟩,
  ⟨0, upP { refs := [(0, { valid := false })] }, by decide +kernel⟩,
  ⟨upP { refs := [(3, { valid := false })] }, by decide +kernel⟩,
  ⟨st_ReferencesFallBackAndReturn_5_s, by decide +kernel⟩,
  ⟨0, st_ReferencesFallBackAndReturn_6_s, by decide +kernel⟩⟩

def st_BootAndResetReachTheirStates_2_s : State :=
  { up with boot := { up.boot with restarting := true } }

def st_BootAndResetReachTheirStates_3_s : State :=
  { upP { shutdown := true, tjMax := 95 } with boot := { up.boot with phase := .rom } }

def st_BootAndResetReachTheirStates_4_s : State :=
  { up with boot := { up.boot with phase := .rom } }

def st_BootAndResetReachTheirStates_4_hottest_s : State :=
  { upP { shutdown := true, tjMax := 94 } with boot := { up.boot with phase := .rom } }

def st_BootAndResetReachTheirStates_5_s : State :=
  { up with mono := 5 * sec, boot := { up.boot with phase := .firmware, copies := [(0, { valid := true, selected := true })] } }

def st_BootAndResetReachTheirStates_6_s : State :=
  { up with boot := { up.boot with phase := .firmware }, mem := { initialised := true } }

theorem witness_BootAndResetReachTheirStates :
    -- 1
    (∃ (p : Packet) (s : State),
    accepts opModuleReset p s = true) ∧
    -- 2
    (∃ (s : State),
    s.boot.restarting = true) ∧
    -- 3_hot
    (∃ (flash : List (List Byte)) (s : State),
    s.boot.phase = .rom ∧
    (coolEnough s = false ∨ s.power.testMode = true)) ∧
    -- 3_test
    (∃ (flash : List (List Byte)) (s : State),
    s.boot.phase = .rom ∧
    (coolEnough s = false ∨ s.power.testMode = true)) ∧
    -- 4
    (∃ (flash : List (List Byte)) (s : State),
    s.boot.phase = .rom ∧
    coolEnough s = true ∧
    s.power.testMode = false) ∧
    -- 5_1
    (∃ (k : Nat) (s : State),
    s.boot.phase = .firmware ∧
    s.boot.started + 5 * sec ≤ s.mono ∧
    selectedCopy s 1 = some k) ∧
    -- 5_5
    (∃ (k : Nat) (s : State),
    s.boot.phase = .firmware ∧
    s.boot.started + 5 * sec ≤ s.mono ∧
    selectedCopy s 1 = some k ∧
    s.power.stage ≠ .ride ∧
    s.vault.provisioning = false) ∧
    -- 6
    (∃ (config : List Written) (s : State),
    s.boot.phase = .firmware ∧
    s.mem.initialised = true) :=
  ⟨⟨(pk [1]), up, by decide +kernel⟩,
  ⟨st_BootAndResetReachTheirStates_2_s, by decide +kernel⟩,
  ⟨[], st_BootAndResetReachTheirStates_3_s, by decide +kernel⟩,
  ⟨[], { st_BootAndResetReachTheirStates_4_s with power := { testMode := true } }, by decide +kernel⟩,
  ⟨[], st_BootAndResetReachTheirStates_4_hottest_s, by decide +kernel⟩,
  ⟨0, st_BootAndResetReachTheirStates_5_s, by decide +kernel⟩,
  ⟨0, st_BootAndResetReachTheirStates_5_s, by decide +kernel⟩,
  ⟨[], st_BootAndResetReachTheirStates_6_s, by decide +kernel⟩⟩

def st_RecorderAndSettingsWrite_1_s : State :=
  { up with evr := { queue := [{ seq := 1, words := List.replicate 32 0 }] } }

def st_RecorderAndSettingsWrite_1_1_s : State :=
  { up with evr := { queue := [{ seq := 1, words := List.replicate 32 0 }] } }

def st_RecorderAndSettingsWrite_1_2_s : State :=
  { up with evr := { queue := [{ seq := 1, words := List.replicate 32 0 }], store := List.replicate 29999 { seq := 1, words := List.replicate 32 0 } } }

def st_RecorderAndSettingsWrite_1_3_s : State :=
  { up with evr := { queue := [{ seq := 1, words := List.replicate 32 0 }], store := List.replicate (storeSlots - 1) { seq := 1, words := List.replicate 32 0 } } }

def st_RecorderAndSettingsWrite_3_s : State :=
  { up with evr := { opSec := 60 } }

def st_RecorderAndSettingsWrite_6_last_s : State :=
  { up with evr := { store := [{ seq := 1, words := List.replicate 32 0 }] } }

theorem witness_RecorderAndSettingsWrite :
    -- 1_1
    (∃ (r : Record) (rest : List Record) (s : State),
    s.evr.full = false ∧
    s.power.stage ≠ .ride ∧
    s.evr.queue = r :: rest ∧
    (let t := { s with evr := { s.evr with store := s.evr.store ++ [r], queue := rest } };
    t.evr.store.length ≠ 30000 ∧
    t.evr.store.length ≠ storeSlots)) ∧
    -- 1_2
    (∃ (r : Record) (rest : List Record) (s : State),
    s.evr.full = false ∧
    s.power.stage ≠ .ride ∧
    s.evr.queue = r :: rest ∧
    (let t := { s with evr := { s.evr with store := s.evr.store ++ [r], queue := rest } };
    t.evr.store.length = 30000)) ∧
    -- 1_3
    (∃ (r : Record) (rest : List Record) (s : State),
    s.evr.full = false ∧
    s.power.stage ≠ .ride ∧
    s.evr.queue = r :: rest ∧
    (let t := { s with evr := { s.evr with store := s.evr.store ++ [r], queue := rest } };
    t.evr.store.length = storeSlots)) ∧
    -- 1_4
    (∃ (r : Record) (rest : List Record) (s : State),
    s.evr.full = false ∧
    s.power.stage ≠ .ride ∧
    s.evr.queue = r :: rest) ∧
    -- 2
    (∃ (s : State),
    (s.power.a.valid || s.power.b.valid) = true) ∧
    -- 3
    (∃ (s : State),
    s.evr.persisted + 60 ≤ s.evr.opSec) ∧
    -- 4
    (∃ (i : Nat) (s : State),
    i < 9 ∧
    testRoot s = false ∧
    s.power.stage ≠ .ride) ∧
    -- 5
    (∃ (i : Nat) (s : State),
    i < 9 ∧
    s.power.stage ≠ .ride) ∧
    -- 6
    (∃ (i : Nat) (ok : Bool) (s : State),
    i < 9 ∧
    s.power.stage = .ride) ∧
    -- 7
    (∃ (p : Packet) (s : State),
    accepts opRecorderRead p s = true ∧
    (let c := (ctxOf opRecorderRead p (fetched opRecorderRead p s));
    c.hasBuf = true ∧ 1 ≤ fld (c.w 1) 10 0 ∧ fld (c.w 1) 10 0 ≤ 1024 ∧ 128 * fld (c.w 1) 10 0 ≤ c.bufLen ∧
    holdsResult p ((fun c f => (((visible f).filter fun r => (c.w 0).toNat ≤ r.seq).take (fld (c.w 1) 10 0)).flatMap fun r => bytesOfWords r.words) (ctxOf opRecorderRead p (fetched opRecorderRead p s)) (fetched opRecorderRead p s)).length = true)) ∧
    -- 7_first
    (∃ (p : Packet) (s : State),
    accepts opRecorderRead p s = true ∧
    (let c := (ctxOf opRecorderRead p (fetched opRecorderRead p s));
    c.hasBuf = true ∧ 1 ≤ fld (c.w 1) 10 0 ∧ fld (c.w 1) 10 0 ≤ 1024 ∧ 128 * fld (c.w 1) 10 0 ≤ c.bufLen ∧
    holdsResult p ((fun c f => (((visible f).filter fun r => (c.w 0).toNat ≤ r.seq).take (fld (c.w 1) 10 0)).flatMap fun r => bytesOfWords r.words) (ctxOf opRecorderRead p (fetched opRecorderRead p s)) (fetched opRecorderRead p s)).length = true)) ∧
    -- 8
    (∃ (p : Packet) (s : State),
    accepts opRecorderErase p s = true ∧
    (let c := (ctxOf opRecorderErase p (fetched opRecorderErase p s));
    let f := (fetched opRecorderErase p s);
    beNat (slice (bytesOfWords c.words) 0 4) = 0x545A4552 ∧ beNat (slice (bytesOfWords c.words) 0x1C 4) = 0 ∧ c.words.length = 32 ∧ beNat (slice (bytesOfWords c.words) 0x14 4) = f.evr.eraseCount + 1 ∧ (keptRecords f (beNat (slice (bytesOfWords c.words) 0x18 4))).length ≤ 1024)) :=
  ⟨⟨{ seq := 1, words := List.replicate 32 0 }, [], st_RecorderAndSettingsWrite_1_1_s, by decide +kernel⟩,
  ⟨{ seq := 1, words := List.replicate 32 0 }, [], st_RecorderAndSettingsWrite_1_2_s, rfl, by decide, rfl, (by simp only [st_RecorderAndSettingsWrite_1_2_s, List.length_append, List.length_replicate]; rfl)⟩,
  ⟨{ seq := 1, words := List.replicate 32 0 }, [], st_RecorderAndSettingsWrite_1_3_s, rfl, by decide, rfl, (by simp only [st_RecorderAndSettingsWrite_1_3_s, List.length_append, List.length_replicate]; rfl)⟩,
  ⟨{ seq := 1, words := List.replicate 32 0 }, [], st_RecorderAndSettingsWrite_1_s, by decide +kernel⟩,
  ⟨(upP { stage := .run, a := { valid := true } }), by decide +kernel⟩,
  ⟨st_RecorderAndSettingsWrite_3_s, by decide +kernel⟩,
  ⟨8, up, by decide +kernel⟩,
  ⟨8, up, by decide +kernel⟩,
  ⟨8, true, upP { stage := .ride }, by decide +kernel⟩,
  ⟨{ pkr [0, 1024] with params := [0, 0, 131072, 0, 0, 1024] }, st_RecorderAndSettingsWrite_6_last_s, by decide +kernel⟩,
  ⟨(pkr [0, 1]), up, by decide +kernel⟩,
  ⟨(pk (0x52455A54#32 :: List.replicate 4 0 ++ 0x01000000#32 :: List.replicate 26 0)), up, by decide +kernel⟩⟩

def st_CountersAndPatinaAnswer_9_s : State :=
  { up with pat := { due := true } }

def st_CountersAndPatinaAnswer_10_s : State :=
  { up with pat := { written := some {} } }

def st_CountersAndPatinaAnswer_12_s : State :=
  { upX { op := 0xB007, pkt := pkr [0], data := [0] } with pat := { scanning := true } }

theorem witness_CountersAndPatinaAnswer :
    -- 1
    (∃ (p : Packet) (s : State),
    accepts opCounterConfig p s = true ∧
    (let c := (ctxOf opCounterConfig p (fetched opCounterConfig p s));
    let f := (fetched opCounterConfig p s);
    (isIsland (fld (c.w 0) 23 16) = true ∧ fld (c.w 0) 2 0 < islandCounters (fld (c.w 0) 23 16) ∧ eventOk (fld (c.w 0) 23 16) (fld (c.w 1) 27 16) = true ∧ (0xF00 ≤ fld (c.w 1) 27 16 → f.vault.life ≠ .deployed) ∧ (match grantee f (fld (c.w 0) 2 0) with | some g => g = fnOf c.master | none => fnOf c.master = 0) ∧ (fnOf c.master ≠ 0 → fld (c.w 1) 15 0 = c.world) ∧ worldCode (fld (c.w 1) 15 0) = true))) ∧
    -- 2
    (∃ (p : Packet) (s : State),
    accepts opCounterRead p s = true ∧
    (let c := (ctxOf opCounterRead p (fetched opCounterRead p s));
    let f := (fetched opCounterRead p s);
    fld (c.w 0) 31 30 = 0 ∧ isIsland (fld (c.w 0) 23 16) = true ∧ readGround f c = none)) ∧
    -- 3
    (∃ (p : Packet) (s : State),
    accepts opCounterRead p s = true ∧
    (let c := (ctxOf opCounterRead p (fetched opCounterRead p s));
    let f := (fetched opCounterRead p s);
    fld (c.w 0) 31 30 = 1 ∧ isIsland (fld (c.w 0) 23 16) = true ∧ fld (c.w 0) 2 0 < islandCounters (fld (c.w 0) 23 16) ∧ readGround f c = none)) ∧
    -- 4
    (∃ (p : Packet) (s : State),
    accepts opCounterRead p s = true ∧
    (let c := (ctxOf opCounterRead p (fetched opCounterRead p s));
    let f := (fetched opCounterRead p s);
    fld (c.w 0) 31 30 = 2 ∧ fld (c.w 2) 31 28 < 12 ∧ readGround f c = none ∧ (namedRead f (fld (c.w 1) 15 0) (fld (c.w 2) 31 28) (fld (c.w 2) 23 0) (fld (c.w 1) 31 16)).isSome = true)) ∧
    -- 5
    (∃ (p : Packet) (s : State),
    accepts opVfCounterGrant p s = true ∧
    (let c := (ctxOf opVfCounterGrant p (fetched opVfCounterGrant p s));
    let f := (fetched opVfCounterGrant p s);
    (fld (c.w 0) 13 8 ≠ 0 ∧ ∀ k < 8, (fld (c.w 0) 7 0).testBit k = true → ∀ g, grantee f k = some g → g = fld (c.w 0) 13 8))) ∧
    -- 6
    (∃ (p : Packet) (s : State),
    accepts opPatinaScan p s = true ∧
    (let c := (ctxOf opPatinaScan p (fetched opPatinaScan p s));
    let f := (fetched opPatinaScan p s);
    ((c.hasBuf = true → planBytes ≤ c.bufLen) ∧ f.pat.scanning = false))) ∧
    -- 7
    (∃ (p : Packet) (s : State),
    accepts opPatinaStatus p s = true ∧
    (let c := (ctxOf opPatinaStatus p (fetched opPatinaStatus p s));
    c.hasBuf = false)) ∧
    -- 8
    (∃ (p : Packet) (s : State),
    accepts opPatinaStatus p s = true ∧
    (let c := (ctxOf opPatinaStatus p (fetched opPatinaStatus p s));
    c.hasBuf = true ∧
    holdsResult p ((fun _ f => bytesOfWords (planEntries f.pat.plan)) (ctxOf opPatinaStatus p (fetched opPatinaStatus p s)) (fetched opPatinaStatus p s)).length = true)) ∧
    -- 9
    (∃ (rails : List RailScan) (lanes : List LaneScan) (s : State),
    (s.pat.nextHours ≤ opHours s ∨ s.pat.due = true) ∧
    s.pat.written = none ∧
    s.pat.scanning = false ∧
    s.boot.state ≠ .halter ∧
    managerRuns s = true ∧
    frozenNow s = false) ∧
    -- 10
    (∃ (pl : Plan) (s : State),
    s.pat.written = some pl ∧
    managerRuns s = true ∧
    frozenNow s = false) ∧
    -- 11
    (∃ (r : Nat) (s : State),
    r < 24 ∧
    (∀ m, mget s.pat.movedAt r = some m → m + ms ≤ s.mono)) ∧
    -- 12
    (∃ (q : Nat) (d : Nat) (x : Exec) (rails : List RailScan) (lanes : List LaneScan) (s : State),
    s.pat.scanning = true ∧
    executingQ s 0xB007 (fun l => l.length = 1) = [q] ∧
    (pairAt s q).executing = some x ∧
    x.discard = false ∧
    x.data = [d]) :=
  ⟨⟨(pk [0xC04D0003, 0x00060100]), up, by refine ⟨?_, ?_, ?_, ?_, ?_, rfl, ?_⟩ <;> decide +kernel⟩,
  ⟨(pk [0x004D0000, 0, 0]), up, by decide +kernel⟩,
  ⟨(pk [0x404D0003, 0, 0]), up, by decide +kernel⟩,
  ⟨(pk [0x80000000, 0xFFFF45CB, 0]), up, by decide +kernel⟩,
  ⟨(pk [0x80003FFF]), up, by refine ⟨?_, ?_, ?_⟩ <;> decide +kernel⟩,
  ⟨(pk [2]), up, by decide +kernel⟩,
  ⟨(pk []), up, by decide +kernel⟩,
  ⟨(pkr []), up, by decide +kernel⟩,
  ⟨[], [], st_CountersAndPatinaAnswer_9_s, by decide +kernel⟩,
  ⟨{}, st_CountersAndPatinaAnswer_10_s, by decide +kernel⟩,
  ⟨23, { up with pat := { movedAt := [(23, 0)] }, mono := ms }, by decide, fun _ h => by cases h; decide⟩,
  ⟨0, 0, { op := 0xB007, pkt := pkr [0], data := [0] }, [], [], st_CountersAndPatinaAnswer_12_s, by decide +kernel⟩⟩

def st_PortsConfiguredReadAndDisabled_4_s : State :=
  { upX { op := 0x1001, pkt := pk [0x0, 0, 0x03E80304, 0, 0, 0, 0, 0] 0, data := [0, 0] } with pon := { ports := [(0, { cfg := { mode := 1 }, framing := true, stopping := some 1 })] }, time := { sfc := 4 } }

def st_PortsConfiguredReadAndDisabled_7_s : State :=
  { up with host := { up.host with hrq := [(0, { bound := 0, world := 0x100 })] } }

theorem witness_PortsConfiguredReadAndDisabled :
    -- 1
    (∃ (p : Packet) (s : State),
    accepts opPortConfig p s = true ∧
    (let c := (ctxOf opPortConfig p (fetched opPortConfig p s));
    let f := (fetched opPortConfig p s);
    c.inst = pcPort c.words ∧ (portAt f (pcPort c.words)).stopping = none ∧ modeGround f c.words = none ∧ paired f (pcPort c.words) = false ∧ portParamGround (modeKind (pcPort c.words) (pcMode c.words)) c.words = none ∧ (portCfgAt f (pcPort c.words)).mode = 0 ∧ pcMode c.words = 0)) ∧
    -- 2_pair
    (∃ (p : Packet) (s : State),
    accepts opPortConfig p s = true ∧
    (let c := (ctxOf opPortConfig p (fetched opPortConfig p s));
    let f := (fetched opPortConfig p s);
    c.inst = pcPort c.words ∧ (portAt f (pcPort c.words)).stopping = none ∧ modeGround f c.words = none ∧ paired f (pcPort c.words) = false ∧ portParamGround (modeKind (pcPort c.words) (pcMode c.words)) c.words = none ∧ (portCfgAt f (pcPort c.words)).mode = 0 ∧ pcMode c.words ≠ 0)) ∧
    -- 2_single
    (∃ (p : Packet) (s : State),
    accepts opPortConfig p s = true ∧
    (let c := (ctxOf opPortConfig p (fetched opPortConfig p s));
    let f := (fetched opPortConfig p s);
    c.inst = pcPort c.words ∧ (portAt f (pcPort c.words)).stopping = none ∧ modeGround f c.words = none ∧ paired f (pcPort c.words) = false ∧ portParamGround (modeKind (pcPort c.words) (pcMode c.words)) c.words = none ∧ (portCfgAt f (pcPort c.words)).mode = 0 ∧ pcMode c.words ≠ 0)) ∧
    -- 3
    (∃ (p : Packet) (s : State),
    accepts opPortConfig p s = true ∧
    (let c := (ctxOf opPortConfig p (fetched opPortConfig p s));
    let f := (fetched opPortConfig p s);
    c.inst = pcPort c.words ∧ (portAt f (pcPort c.words)).stopping = none ∧ modeGround f c.words = none ∧ paired f (pcPort c.words) = false ∧ portParamGround (modeKind (pcPort c.words) (pcMode c.words)) c.words = none ∧ (portCfgAt f (pcPort c.words)).mode ≠ 0 ∧ pcMode c.words = 0)) ∧
    -- 4
    (∃ (n : Nat) (from_ : Nat) (q : Nat) (x : Exec) (s : State),
    n < 64 ∧
    (portAt s n).stopping = some from_ ∧
    from_ + 3 ≤ s.time.sfc ∧
    (let root := if paired s n then n / 2 * 2 else n;
    let d := forEach (modePorts s root) disablePort s;
    let t := updPair q (fun y => { y with executing := none }) d;
    executingQ d 0x1001 (· = [root, 0]) = [q] ∧
    (pairAt d q).executing = some x ∧
    x.discard = false ∧
    executingQ (replyTo x.pkt .ok [] 0 t) 0x1001 (fun l => (modePorts s root).any fun k => l = [k, 1]) = [])) ∧
    -- 6
    (∃ (p : Packet) (s : State),
    accepts opPortState p s = true ∧
    (let c := (ctxOf opPortState p (fetched opPortState p s));
    c.inst = pcPort c.words ∧
    holdsResult p (4 * ((fun (c : Ctx) (f : State) => match c.master with | .vf _ => List.replicate 8 0 ++ ((portStateWords f (pcPort c.words)).drop 8).take 6 ++ List.replicate 30 0 | _ => portStateWords f (pcPort c.words)) (ctxOf opPortState p (fetched opPortState p s)) (fetched opPortState p s)).length) = true)) ∧
    -- 7
    (∃ (p : Packet) (s : State),
    accepts opOmciBind p s = true ∧
    (let c := (ctxOf opOmciBind p (fetched opOmciBind p s));
    let f := (fetched opOmciBind p s);
    (c.inst = pcPort c.words ∧ (paired f (pcPort c.words) = false ∨ pcPort c.words % 2 = 0) ∧ (bit (c.w 0) 31 = true → (hrqAt f (fld (c.w 0) 15 8)).bound ≠ 0xFF ∧ (hrqAt f (fld (c.w 0) 15 8)).world = 0x0100)))) ∧
    -- 8
    (∃ (p : Packet) (s : State),
    accepts opOpticsAccess p s = true ∧
    (let c := (ctxOf opOpticsAccess p (fetched opOpticsAccess p s));
    let f := (fetched opOpticsAccess p s);
    c.inst ≤ 63 ∧ c.inst / 8 = fld (c.w 0) 26 24 ∧ 1 ≤ fld (c.w 0) 7 0 ∧ fld (c.w 0) 7 0 ≤ 52 ∧ bit (c.w 0) 31 = false ∧ mhas f.pon.stuck (fld (c.w 0) 26 24) = false ∧ c.answers.head? = some 0)) ∧
    -- 9
    (∃ (p : Packet) (s : State),
    accepts opOpticsAccess p s = true ∧
    (let c := (ctxOf opOpticsAccess p (fetched opOpticsAccess p s));
    let f := (fetched opOpticsAccess p s);
    c.inst ≤ 63 ∧ c.inst / 8 = fld (c.w 0) 26 24 ∧ 53 ≤ fld (c.w 0) 7 0 ∧ fld (c.w 0) 7 0 ≤ 128 ∧ bit (c.w 0) 31 = false ∧ mhas f.pon.stuck (fld (c.w 0) 26 24) = false ∧ c.answers.head? = some 0 ∧
    holdsResult p (4 * ((fun c _ => wordsOfBytes (ceilDiv (fld (c.w 0) 7 0) 4) ((c.answers.tail.map (BitVec.ofNat 8)).take (fld (c.w 0) 7 0))) (ctxOf opOpticsAccess p (fetched opOpticsAccess p s)) (fetched opOpticsAccess p s)).length) = true)) ∧
    -- 10
    (∃ (p : Packet) (s : State),
    accepts opOpticsAccess p s = true ∧
    (let c := (ctxOf opOpticsAccess p (fetched opOpticsAccess p s));
    let f := (fetched opOpticsAccess p s);
    c.inst ≤ 63 ∧ c.inst / 8 = fld (c.w 0) 26 24 ∧ 1 ≤ fld (c.w 0) 7 0 ∧ fld (c.w 0) 7 0 ≤ 128 ∧ bit (c.w 0) 31 = true ∧ mhas f.pon.stuck (fld (c.w 0) 26 24) = false ∧ c.answers.head? = some 0)) :=
  ⟨⟨(pk [0x3F, 0, 0x03E80304, 0, 0, 0, 0, 0] 63), up, by decide +kernel⟩,
  ⟨(pk [0x53E, 0, 0x03E80304, 0, 0, 0, 0, 0] 62), up, by decide +kernel⟩,
  ⟨(pk [0x100, 0, 0x03E80304, 0, 0, 0, 0, 0] 0), up, by decide +kernel⟩,
  ⟨(pk [0x0, 0, 0x03E80304, 0, 0, 0, 0, 0] 0), (upT term0), by decide +kernel⟩,
  ⟨0, 1, 0, { op := 0x1001, pkt := pk [0x0, 0, 0x03E80304, 0, 0, 0, 0, 0] 0, data := [0, 0] }, st_PortsConfiguredReadAndDisabled_4_s, by decide +kernel⟩,
  ⟨(pkr [63] 63), up, by decide +kernel⟩,
  ⟨(pk [0x8000003F] 63), st_PortsConfiguredReadAndDisabled_7_s, by decide +kernel⟩,
  ⟨{ pk [0x07500034] 63 with env := { answers := [0] } }, up, by decide +kernel⟩,
  ⟨{ pkr [0x07500035] 63 with env := { answers := [0] } }, up, by decide +kernel⟩,
  ⟨{ pk [0x87500001, 0] 63 with env := { answers := [0] } }, up, by decide +kernel⟩⟩

def st_TerminalCommandsTakeEffect_1_s : State :=
  { up with vault := { slots := [(0x1FFFE, engineSlot), (0x1FFFF, engineSlot)] } }

def st_TerminalCommandsTakeEffect_5_first_s : State :=
  { upT opTerm with vault := { slots := [(0x10001, engineSlot)] } }

def st_TerminalCommandsTakeEffect_5_last_s : State :=
  { upT opTerm with vault := { slots := [(0x10001, engineSlot)] } }

theorem witness_TerminalCommandsTakeEffect :
    -- 1
    (∃ (p : Packet) (s : State),
    accepts opTerminalAdd p s = true ∧
    (let c := (ctxOf opTerminalAdd p (fetched opTerminalAdd p s));
    let f := (fetched opTerminalAdd p s);
    (termOf c / 512 = c.inst ∧ (paired f c.inst = false ∨ c.inst % 2 = 0) ∧ worldCode (fld (c.w 0) 31 16) = true ∧ reaches c.world (fld (c.w 0) 31 16) = true ∧ termNodeOk f (termOf c) (fld (c.w 0) 31 16) = true ∧ isPonSlot (fld (c.w 3) 17 0) = true ∧ isPonSlot (fld (c.w 4) 17 0) = true ∧ fld (c.w 3) 17 0 ≠ fld (c.w 4) 17 0 ∧ fld (c.w 5) 1 0 ≠ 3 ∧ termAt f (termOf c) = none ∧ (treeTerms f (termOf c / 512)).any (fun e => e.2.sn0 = c.w 1 && e.2.sn1 = c.w 2) = false ∧ slotBound f (fld (c.w 3) 17 0) = false ∧ slotBound f (fld (c.w 4) 17 0) = false ∧ ponSlotOk f (fld (c.w 3) 17 0) (fld (c.w 0) 31 16) = true ∧ ponSlotOk f (fld (c.w 4) 17 0) (fld (c.w 0) 31 16) = true))) ∧
    -- 2
    (∃ (t : Terminal) (p : Packet) (s : State),
    accepts opTerminalRemove p s = true ∧
    (let c := (ctxOf opTerminalRemove p (fetched opTerminalRemove p s));
    let f := (fetched opTerminalRemove p s);
    termAt f (termOf c) = some t ∧ reaches c.world t.world = true)) ∧
    -- 3
    (∃ (p : Packet) (s : State),
    accepts opPloamSend p s = true ∧
    (let c := (ctxOf opPloamSend p (fetched opPloamSend p s));
    let f := (fetched opPloamSend p s);
    (∃ t, termAt f (termOf c) = some t ∧ reaches c.world t.world = true ∧ hasOnu t = true ∧ fld (c.w 1) 7 0 ∉ [0x01, 0x03, 0x04, 0x05, 0x06, 0x0D, 0x1B, 0xE0, 0xE1, 0xE2, 0xE3] ∧ t.hostMsgs.length < 8))) ∧
    -- 4
    (∃ (t : Terminal) (p : Packet) (s : State),
    accepts opBpmRead p s = true ∧
    (let c := (ctxOf opBpmRead p (fetched opBpmRead p s));
    let f := (fetched opBpmRead p s);
    termAt f (termOf c) = some t ∧ reaches c.world t.world = true)) ∧
    -- 5_first
    (∃ (p : Packet) (s : State),
    accepts opPonKeySwitch p s = true ∧
    (let c := (ctxOf opPonKeySwitch p (fetched opPonKeySwitch p s));
    let f := (fetched opPonKeySwitch p s);
    (∃ t, termAt f (termOf c) = some t ∧ reaches c.world t.world = true ∧ (fld (c.w 0) 17 16 = 1 ∨ fld (c.w 0) 17 16 = 2) ∧ t.switch = none ∧ fld (c.w 0) 17 16 ≠ t.keyIndex ∧ f.time.sfc + 16 ≤ join64 (c.w 1) (c.w 2) ∧ join64 (c.w 1) (c.w 2) ≤ f.time.sfc + 1048576 ∧ (slotAt f (keySlot t (fld (c.w 0) 17 16))).valid = true))) ∧
    -- 5_last
    (∃ (p : Packet) (s : State),
    accepts opPonKeySwitch p s = true ∧
    (let c := (ctxOf opPonKeySwitch p (fetched opPonKeySwitch p s));
    let f := (fetched opPonKeySwitch p s);
    (∃ t, termAt f (termOf c) = some t ∧ reaches c.world t.world = true ∧ (fld (c.w 0) 17 16 = 1 ∨ fld (c.w 0) 17 16 = 2) ∧ t.switch = none ∧ fld (c.w 0) 17 16 ≠ t.keyIndex ∧ f.time.sfc + 16 ≤ join64 (c.w 1) (c.w 2) ∧ join64 (c.w 1) (c.w 2) ≤ f.time.sfc + 1048576 ∧ (slotAt f (keySlot t (fld (c.w 0) 17 16))).valid = true))) ∧
    -- 6
    (∃ (p : Packet) (s : State),
    accepts opDiscoveryConfig p s = true ∧
    (let c := (ctxOf opDiscoveryConfig p (fetched opDiscoveryConfig p s));
    let f := (fetched opDiscoveryConfig p s);
    (c.inst = fld (c.w 0) 5 0 ∧ (paired f c.inst = false ∨ c.inst % 2 = 0) ∧ 1 ≤ fld (c.w 0) 31 24 ∧ fld (c.w 0) 31 24 ≤ 40 ∧ fld (c.w 0) 23 16 ≤ 40 ∧ fld (c.w 0) 23 16 + fld (c.w 0) 31 24 ≤ 60 ∧ (fld (c.w 1) 31 16 = 0 ∨ 10 ≤ fld (c.w 1) 31 16 ∧ fld (c.w 1) 31 16 ≤ 60000) ∧ (fld (c.w 0) 31 24 = (portAt f c.inst).disc.diff ∧ fld (c.w 0) 23 16 = (portAt f c.inst).disc.near ∨ ∀ e ∈ treeTerms f c.inst, e.2.st = .pending)))) ∧
    -- 7
    (∃ (t : Terminal) (p : Packet) (s : State),
    accepts opRangingRead p s = true ∧
    (let c := (ctxOf opRangingRead p (fetched opRangingRead p s));
    let f := (fetched opRangingRead p s);
    termAt f (fld (c.w 0) 14 0) = some t ∧ reaches c.world t.world = true)) ∧
    -- 8
    (∃ (t : Terminal) (p : Packet) (s : State),
    accepts opTerminalRerange p s = true ∧
    (let c := (ctxOf opTerminalRerange p (fetched opTerminalRerange p s));
    let f := (fetched opTerminalRerange p s);
    termAt f (fld (c.w 0) 14 0) = some t ∧ reaches c.world t.world = true)) :=
  ⟨⟨(pk [0x01007FFF, 1, 2, 0x1FFFE, 0x1FFFF, 2] 63), st_TerminalCommandsTakeEffect_1_s, by decide +kernel⟩,
  ⟨term0, (pk [0]), upT term0, by decide +kernel⟩,
  ⟨(pk (0 :: 0xFF :: List.replicate 9 0)), (upT opTerm), by refine ⟨by decide +kernel, ?_⟩; exact ⟨opTerm, by decide +kernel⟩⟩,
  ⟨opTerm, ⟨(pk [0]), (upT opTerm), by decide +kernel⟩⟩,
  ⟨(pk [0x20000, 16, 0]), st_TerminalCommandsTakeEffect_5_first_s, by refine ⟨by decide +kernel, ?_⟩; exact ⟨opTerm, by decide +kernel⟩⟩,
  ⟨(pk [0x20000, 1048576, 0]), st_TerminalCommandsTakeEffect_5_last_s, by refine ⟨by decide +kernel, ?_⟩; exact ⟨opTerm, by decide +kernel⟩⟩,
  ⟨(pk [0x2814003F, 0xEA600000] 63), up, by decide +kernel⟩,
  ⟨opTerm, ⟨(pk [0]), (upT opTerm), by decide +kernel⟩⟩,
  ⟨opTerm, ⟨(pk [0]), (upT opTerm), by decide +kernel⟩⟩⟩

def st_WeaverCommandsTakeEffect_2_s : State :=
  { upT opTerm with weaver := { allocs := [(1024, { terminal := 0, cls := 4, hintEn := true })] } }

def st_WeaverCommandsTakeEffect_3_s : State :=
  { upT opTerm with weaver := { allocs := [(1024, { terminal := 0, cls := 4, hintEn := true })] } }

def st_WeaverCommandsTakeEffect_4_s : State :=
  { upT opTerm with weaver := { allocs := [(1024, { terminal := 0, cls := 4, hintEn := true })] } }

def st_WeaverCommandsTakeEffect_4_last_s : State :=
  { upT opTerm with weaver := { allocs := [(1024, { terminal := 0, cls := 4, hintEn := true })] } }

theorem witness_WeaverCommandsTakeEffect :
    -- 1
    (∃ (t : Terminal) (p : Packet) (s : State),
    accepts opAllocWrite p s = true ∧
    (let c := (ctxOf opAllocWrite p (fetched opAllocWrite p s));
    let f := (fetched opAllocWrite p s);
    (c.inst = laneOf (fld (c.w 1) 13 8) ∧ termAt f (fld (c.w 0) 14 0) = some t ∧ fld (c.w 0) 14 0 / 512 = fld (c.w 1) 13 8 ∧ fld (c.w 1) 31 16 = t.world ∧ reaches c.world t.world = true ∧ let k := allocKey (fld (c.w 1) 13 8) (fld (c.w 0) 29 16); let a := allocWritten c.words ((allocAt f k).getD { fcEn := bit (c.w 8) 9, fcPriv := bit (c.w 8) 9 }); allocFaults (fld (c.w 0) 29 16) (if inService f t.port then some (frameWords (upKind f t.port)) else none) a = [] ∧ (∀ o, allocAt f k = some o → o.terminal = fld (c.w 0) 14 0) ∧ overCapacity (setAlloc k a f) (fld (c.w 1) 13 8) t.port = false))) ∧
    -- 2
    (∃ (a : Alloc) (p : Packet) (s : State),
    accepts opAllocRead p s = true ∧
    (let c := (ctxOf opAllocRead p (fetched opAllocRead p s));
    let f := (fetched opAllocRead p s);
    c.inst = laneOf (fld (c.w 0) 5 0) ∧ allocAt f (allocKey (fld (c.w 0) 5 0) (fld (c.w 0) 29 16)) = some a ∧ reaches c.world a.world = true ∧
    holdsResult p (4 * ((fun c _ => [ pack [(fld (c.w 0) 29 16, 14, 16), (a.terminal, 15, 0)], pack [(a.world, 16, 16), (fld (c.w 0) 5 0, 6, 8), (a.cls, 4, 4), (a.prio, 2, 0)], rateWord a.fixed, rateWord a.assured, rateWord a.nonassured, rateWord a.besteffort, rateWord a.maximum, rateWord a.fcast, pack [(a.weight, 14, 16), (b2n a.gated, 1, 11), (b2n a.hintEn, 1, 10), (b2n a.fcEn, 1, 9), (b2n a.fcPriv, 1, 8), (a.gateClass, 3, 0)], pack [(a.period, 8, 24), (a.lastArr, 8, 16), (a.conf, 4, 12), (a.unusedRun, 4, 8), (a.privLosses, 8, 0)], pack [(a.ewma, 28, 0)], pack [(a.peak, 18, 0)], pack [(b2n (mhas a.hints 4), 1, 31), (b2n (mhas a.hints 3), 1, 30), (b2n (mhas a.hints 2), 1, 29), (b2n (mhas a.hints 1), 1, 28), (hintAt a 2, 14, 14), (hintAt a 1, 14, 0)], pack [(hintAt a 4, 14, 14), (hintAt a 3, 14, 0)], pack [(a.repAge, 8, 24), (a.lastReport, 24, 0)], pack [(a.grantBits, 8, 24), (a.inflight, 24, 0)] ]) (ctxOf opAllocRead p (fetched opAllocRead p s)) (fetched opAllocRead p s)).length) = true)) ∧
    -- 3
    (∃ (a : Alloc) (p : Packet) (s : State),
    accepts opAllocDelete p s = true ∧
    (let c := (ctxOf opAllocDelete p (fetched opAllocDelete p s));
    let f := (fetched opAllocDelete p s);
    c.inst = laneOf (fld (c.w 0) 5 0) ∧ allocAt f (allocKey (fld (c.w 0) 5 0) (fld (c.w 0) 29 16)) = some a ∧ reaches c.world a.world = true)) ∧
    -- 4
    (∃ (a : Alloc) (p : Packet) (s : State),
    accepts opScheduleHint p s = true ∧
    (let c := (ctxOf opScheduleHint p (fetched opScheduleHint p s));
    let f := (fetched opScheduleHint p s);
    unitFailed f 0x03 0 (laneOf (fld (c.w 0) 5 0)) = false ∧ allocAt f (allocKey (fld (c.w 0) 5 0) (fld (c.w 0) 29 16)) = some a ∧ reaches c.world a.world = true ∧ a.hintEn = true ∧ f.halter.grantMode = false ∧ 1 ≤ fld (c.w 0) 10 8 ∧ fld (c.w 0) 10 8 ≤ 4)) ∧
    -- 5
    (∃ (p : Packet) (s : State),
    accepts opCinchBudget p s = true ∧
    (let c := (ctxOf opCinchBudget p (fetched opCinchBudget p s));
    let f := (fetched opCinchBudget p s);
    ((fld (c.w 0) 27 0 = 0 ∨ guarSum f.weaver.allocs ≤ fld (c.w 0) 27 0) ∧ ∀ e ∈ cinchWeights c.words, e.2 ≠ 0))) ∧
    -- 6
    (∃ (p : Packet) (s : State),
    accepts opWeaverStats p s = true ∧
    (let c := (ctxOf opWeaverStats p (fetched opWeaverStats p s));
    (fld (c.w 0) 15 0 = 0xFFFF ∨ laneOf (fld (c.w 0) 15 0) = c.inst) ∧
    holdsResult p (4 * ((fun c f => (List.range 17).flatMap fun pos => let n := if fld (c.w 0) 15 0 = 0xFFFF then worldCount f (c5 pos) 7 c.inst c.world else worldCount f (c5 pos) 8 (fld (c.w 0) 15 0) c.world; [lo32 n, hi32 n]) (ctxOf opWeaverStats p (fetched opWeaverStats p s)) (fetched opWeaverStats p s)).length) = true)) :=
  ⟨⟨opTerm, ⟨(pk [0x04000000, 0x01000040, 0, 0, 0, 0x00000001, 0x1, 0, 0x00010000, 0, 0, 0, 0, 0, 0, 0]), (upT opTerm), by
    refine ⟨by decide +kernel, by decide +kernel, by decide +kernel, by decide +kernel, by decide +kernel, by decide +kernel, by decide +kernel, ?_, by decide +kernel⟩
    exact of_none (by decide +kernel)⟩⟩,
  ⟨{ terminal := 0, cls := 4, hintEn := true }, ⟨(pkr [0x04000000]), st_WeaverCommandsTakeEffect_2_s, by decide +kernel⟩⟩,
  ⟨{ terminal := 0, cls := 4, hintEn := true }, ⟨(pk [0x04000000]), st_WeaverCommandsTakeEffect_3_s, by decide +kernel⟩⟩,
  ⟨{ terminal := 0, cls := 4, hintEn := true }, ⟨(pk [0x04000400, 0]), st_WeaverCommandsTakeEffect_4_last_s, by decide +kernel⟩⟩,
  ⟨(pk (0 :: List.replicate 32 0x00010001)), up, by decide +kernel⟩,
  ⟨(pkr [0xFFFF] 7), up, by decide +kernel⟩⟩

def st_WeaverEventsRunAMap_2_s : State :=
  { up with weaver := { lanes := [(7, { reports := [{ tree := 0, id := 0, value := 0, rx := 0, frame := 0 }] })] } }

def st_WeaverEventsRunAMap_3_s : State :=
  { upT opTerm with weaver := { ports := [(0, { closed := some { map := 1 } })] } }

def st_WeaverEventsRunAMap_4_s : State :=
  { upT opTerm with weaver := { lanes := [(0, { given := true })] } }

def st_WeaverEventsRunAMap_8_s : State :=
  { up with weaver := { lanes := [(7, { capsIn := true })] } }

def st_WeaverEventsRunAMap_9_s : State :=
  { upT opTerm with weaver := { ports := [(0, { built := some { num := 1, bursts := [] } })] } }

def st_WeaverEventsRunAMap_7_s : State :=
  { upT opTerm with weaver := { lanes := [(0, { capsIn := true, caps := [(0, 0)] })], ports := [(0, { work := some { inp := { map := 1, cands := [{ id := 1024, ctx := { cls := 4, terminal := 0 }, rep := 10, pre := 0, kind := 0 }] }, cap := 1000, grants := [{ id := 1024, term := 0, gated := false, be := 10 }] } })] } }

theorem witness_WeaverEventsRunAMap :
    -- 1
    (∃ (k : Nat) (s : State),
    k < 8 ∧
    (laneAt5 s k).cutoff ≤ s.time.sfc) ∧
    -- 2
    (∃ (k : Nat) (r : Report) (rest : List Report) (s : State),
    k < 8 ∧
    (laneAt5 s k).reports = r :: rest) ∧
    -- 3
    (∃ (k : Nat) (s : State),
    k < 8 ∧
    (∃ p ∈ lanePorts s k, (mapsAt s p).closed.isSome = true)) ∧
    -- 4
    (∃ (s : State),
    (∀ k ∈ lanesDue s, (laneAt5 s k).given = true)) ∧
    -- 5
    (∃ (k : Nat) (s : State),
    k < 8 ∧
    (laneAt5 s k).given = false ∧
    k ∈ lanesDue s) ∧
    -- 6
    (∃ (k : Nat) (s : State),
    k < 8 ∧
    (laneAt5 s k).capsIn = false) ∧
    -- 7
    (∃ (k : Nat) (tree : Nat) (cap : Nat) (p : Nat) (w : Work) (s : State),
    k < 8 ∧
    (laneAt5 s k).capsIn = true ∧
    (laneAt5 s k).caps = [(tree, cap)] ∧
    treePorts s tree = [p] ∧
    (mapsAt s p).work = some w ∧
    w.capped = none ∧
    (aggregate s w).2 ≠ 0) ∧
    -- 8
    (∃ (k : Nat) (s : State),
    k < 8 ∧
    (laneAt5 s k).capsIn = true) ∧
    -- 9
    (∃ (p : Nat) (m : BwMap) (s : State),
    p < 64 ∧
    granting s p = true ∧
    (mapsAt s p).handed ≤ s.time.sfc ∧
    (mapsAt s p).built = some m ∧
    m.num = s.time.sfc + 1) ∧
    -- 10
    (∃ (i : Nat) (id : Nat) (rx : Nat) (used : Nat) (period : Nat) (t : Terminal) (s : State),
    termAt s i = some t ∧
    s.vault.registered.contains i = true ∧
    t.ext.testBit 2 = true) ∧
    -- 11
    (∃ (i : Nat) (id : Nat) (rx : Nat) (used : Nat) (period : Nat) (t : Terminal) (s : State),
    termAt s i = some t) :=
  ⟨⟨7, up, by decide +kernel⟩,
  ⟨7, { tree := 0, id := 0, value := 0, rx := 0, frame := 0 }, [], st_WeaverEventsRunAMap_2_s, by decide +kernel⟩,
  ⟨0, st_WeaverEventsRunAMap_3_s, by decide +kernel⟩,
  ⟨st_WeaverEventsRunAMap_4_s, by decide +kernel⟩,
  ⟨0, (upT opTerm), by decide +kernel⟩,
  ⟨7, up, by decide +kernel⟩,
  ⟨0, 0, 0, 0, { inp := { map := 1, cands := [{ id := 1024, ctx := { cls := 4, terminal := 0 }, rep := 10, pre := 0, kind := 0 }] }, cap := 1000, grants := [{ id := 1024, term := 0, gated := false, be := 10 }] }, st_WeaverEventsRunAMap_7_s, by decide +kernel⟩,
  ⟨7, st_WeaverEventsRunAMap_8_s, by decide +kernel⟩,
  ⟨0, { num := 1, bursts := [] }, st_WeaverEventsRunAMap_9_s, by decide +kernel⟩,
  ⟨0, 0, 0, 0, 127, { opTerm with ext := 4 }, { upT { opTerm with ext := 4 } with vault := { registered := [0] } }, by decide +kernel⟩,
  ⟨0, 0, 0, 0, 127, { opTerm with ext := 4 }, (upT { opTerm with ext := 4 }), by decide +kernel⟩⟩

theorem witness_QueueConfigWritesItsObject :
    -- 1
    (∃ (p : Packet) (s : State),
    accepts opQueueConfig p s = true ∧
    (let c := (ctxOf opQueueConfig p (fetched opQueueConfig p s));
    let f := (fetched opQueueConfig p s);
    (qcObj c.words = 0 ∧ qcIndex c.words < 262144 ∧ reaches c.world (nodeWorld f (downQueue (qcIndex c.words))) = true ∧ xgemTaken f (qcIndex c.words) (fld (c.w 1) 15 0) = false ∧ (bit (c.w 1) 29 = true → sampledBut f (downQueue (qcIndex c.words)) < 8192)))) ∧
    -- 2
    (∃ (p : Packet) (s : State),
    accepts opQueueConfig p s = true ∧
    (let c := (ctxOf opQueueConfig p (fetched opQueueConfig p s));
    let f := (fetched opQueueConfig p s);
    (qcObj c.words = 1 ∧ qcIndex c.words < 65536 ∧ worldCode (fld (c.w 2) 31 16) = true ∧ reaches c.world (fld (c.w 2) 31 16) = true ∧ reaches c.world (queueAt f (netQueue (qcIndex c.words))).world = true ∧ hangs (nodeAt8 f ⟨1, 2, fld (c.w 2) 11 0⟩).world (fld (c.w 2) 31 16) = true ∧ (bit (c.w 1) 29 = true → sampledBut f (netQueue (qcIndex c.words)) < 8192)))) ∧
    -- 3
    (∃ (p : Packet) (s : State),
    accepts opQueueConfig p s = true ∧
    (let c := (ctxOf opQueueConfig p (fetched opQueueConfig p s));
    qcObj c.words = 2 ∧ qcIndex c.words < 64 ∧ c.world = 0x0100)) ∧
    -- 4
    (∃ (p : Packet) (s : State),
    accepts opQueueConfig p s = true ∧
    (let c := (ctxOf opQueueConfig p (fetched opQueueConfig p s));
    qcObj c.words = 3 ∧ qcIndex c.words < 257 ∧ reaches c.world (qcIndex c.words) = true)) ∧
    -- 5
    (∃ (p : Packet) (s : State),
    accepts opQueueConfig p s = true ∧
    (let c := (ctxOf opQueueConfig p (fetched opQueueConfig p s));
    let f := (fetched opQueueConfig p s);
    (qcObj c.words = 4 ∧ qcIndex c.words < 65536 ∧ worldCode (fld (c.w 1) 31 16) = true ∧ fld (c.w 1) 10 0 = 0 ∧ reaches c.world (fld (c.w 1) 31 16) = true ∧ (∀ g, mget f.tm.groups (qcIndex c.words) = some g → reaches c.world g.world = true)))) ∧
    -- 6_one
    (∃ (p : Packet) (s : State),
    accepts opQueueConfig p s = true ∧
    (let c := (ctxOf opQueueConfig p (fetched opQueueConfig p s));
    let f := (fetched opQueueConfig p s);
    (
      let n := fld (c.w 1) 10 0
      let ds := wordsOfBytes n c.data
      qcObj c.words = 4 ∧ qcIndex c.words < 65536 ∧ worldCode (fld (c.w 1) 31 16) = true ∧ 1 ≤ n ∧ n ≤ 1024 ∧ c.hasData = true ∧
      c.data.length = 4 * n ∧ reaches c.world (fld (c.w 1) 31 16) = true ∧
      (∀ g, mget f.tm.groups (qcIndex c.words) = some g → reaches c.world g.world = true) ∧
      (∀ d ∈ ds, destKind d ≤ 3 ∧ destOk d = true ∧ memberForeign f (fld (c.w 1) 31 16) d = false) ∧
      membersBut f (qcIndex c.words) + n ≤ 262144))) ∧
    -- 6_most
    (∃ (p : Packet) (s : State),
    accepts opQueueConfig p s = true ∧
    (let c := (ctxOf opQueueConfig p (fetched opQueueConfig p s));
    let f := (fetched opQueueConfig p s);
    (
      let n := fld (c.w 1) 10 0
      let ds := wordsOfBytes n c.data
      qcObj c.words = 4 ∧ qcIndex c.words < 65536 ∧ worldCode (fld (c.w 1) 31 16) = true ∧ 1 ≤ n ∧ n ≤ 1024 ∧ c.hasData = true ∧
      c.data.length = 4 * n ∧ reaches c.world (fld (c.w 1) 31 16) = true ∧
      (∀ g, mget f.tm.groups (qcIndex c.words) = some g → reaches c.world g.world = true) ∧
      (∀ d ∈ ds, destKind d ≤ 3 ∧ destOk d = true ∧ memberForeign f (fld (c.w 1) 31 16) d = false) ∧
      membersBut f (qcIndex c.words) + n ≤ 262144))) ∧
    -- 7
    (∃ (p : Packet) (s : State),
    accepts opQueueConfig p s = true ∧
    (let c := (ctxOf opQueueConfig p (fetched opQueueConfig p s));
    let f := (fetched opQueueConfig p s);
    (qcObj c.words = 5 ∧ qcIndex c.words < 64 ∧ destKind (c.w 1) ≠ 4 ∧ destOk (c.w 1) = true ∧ worldCode (fld (c.w 2) 31 16) = true ∧ reaches c.world (fld (c.w 2) 31 16) = true ∧ (∀ x, mget f.tm.sessions (qcIndex c.words) = some x → reaches c.world x.world = true) ∧ memberForeign f (fld (c.w 2) 31 16) (c.w 1) = false))) :=
  ⟨⟨(pk [0x0003FFFF, 0xA0000001]), up, by decide +kernel⟩,
  ⟨(pk [0x2000FFFF, 0xA0000000, 0x01000FFF]), up, by decide +kernel⟩,
  ⟨(pk [0x4000003F, 1, 1, 1, 0]), up, by decide +kernel⟩,
  ⟨(pk [0x60000100, 1, 1]), up, by decide +kernel⟩,
  ⟨(pk [0x8000FFFF, 0x01000000]), up, by refine ⟨?_, ?_, ?_, ?_, ?_, ?_, ?_⟩ <;> decide +kernel⟩,
  ⟨(pkd [0x8000FFFF, 0x01000001] [0, 0, 0, 0x10]), up, by refine ⟨?_, ?_, ?_, ?_, ?_, ?_, ?_, ?_, ?_, ?_, ?_, ?_⟩ <;> first | exact of_all (by decide +kernel) | decide +kernel⟩,
  ⟨(pkd [0x80000000, 0x01000400] (List.replicate 4096 0)), (upT term0), by refine ⟨?_, ?_, ?_, ?_, ?_, ?_, ?_, ?_, ?_, ?_, ?_, ?_⟩ <;> first | exact of_all (by decide +kernel) | decide +kernel⟩,
  ⟨(pk [0xA000003F, 0x50000000, 0x01000000]), up, by refine ⟨?_, ?_, ?_, ?_, ?_, ?_, ?_, ?_, ?_⟩ <;> decide +kernel⟩⟩

def st_TrafficCommandsTakeEffect_7_s : State :=
  { up with host := { pairs := up.host.pairs ++ [(1, { served := true, bound := 63, world := 0xFF })] } }

def st_TrafficCommandsTakeEffect_8_s : State :=
  { up with tm := { rings := [(0x100, { fn := 0, addr := 0, size := 256 })] } }

def st_TrafficCommandsTakeEffect_8_only_read_s : State :=
  { up with tm := { rings := [(0x100, { fn := 0, addr := 0, size := 256 })] } }

def st_TrafficCommandsTakeEffect_5_s : State :=
  { up with time := { tc := 5 * nsUnit }, tm := { gates := [(191, { pending := some ({ base := 0, cycle := 1000, entries := [(255, 1000)] }, 5) })] } }

def st_TrafficCommandsTakeEffect_4_s : State :=
  { up with time := { tc := 1000000000 * nsUnit } }

theorem witness_TrafficCommandsTakeEffect :
    -- 1
    (∃ (p : Packet) (s : State),
    accepts opSchedNodeConfig p s = true ∧
    (let c := (ctxOf opSchedNodeConfig p (fetched opSchedNodeConfig p s));
    let f := (fetched opSchedNodeConfig p s);
    (
      let n := nodeOf (c.w 0)
      let t := updNode n (fun _ => nodeWritten c.words n (nodeAt8 f n)) f
      nodeOk n = true ∧ 1 ≤ fld (c.w 2) 27 16 ∧ 1 ≤ fld (c.w 2) 11 0 ∧
      (holdsWorld n = true → worldCode (fld (c.w 3) 31 16) = true) ∧ fld (c.w 3) 15 0 % 8 = 0 ∧
      parentBad n (fld (c.w 1) 15 0) = false ∧
      (c.world ≠ 0x0100 → nodeWorld f n = c.world ∧ (holdsWorld n = true → fld (c.w 3) 31 16 = c.world)) ∧
      hangs (parentWorld t n) (nodeWorld t n) = true ∧ (holdsWorld n = true → childForeign t n (fld (c.w 3) 31 16) = false)))) ∧
    -- 2
    (∃ (p : Packet) (s : State),
    accepts opShaperConfig p s = true ∧
    (let c := (ctxOf opShaperConfig p (fetched opShaperConfig p s));
    let f := (fetched opShaperConfig p s);
    (((nodeOf (c.w 0)).level = 2 ∨ (nodeOf (c.w 0)).level = 3) ∧ nodeOk (nodeOf (c.w 0)) = true ∧ -64 ≤ signed 8 (fld (c.w 1) 7 0) ∧ (c.w 2).toNat ≤ (c.w 3).toNat ∧ 16384 ≤ fld (c.w 4) 23 0 ∧ 16384 ≤ fld (c.w 5) 23 0 ∧ (c.world = 0x0100 ∨ nodeWorld f (nodeOf (c.w 0)) = c.world)))) ∧
    -- 3
    (∃ (g : GateList) (p : Packet) (s : State),
    accepts opGateListLoad p s = true ∧
    (let c := (ctxOf opGateListLoad p (fetched opGateListLoad p s));
    let f := (fetched opGateListLoad p s);
    (c.hasData = true ∧ (fld (c.w 0) 31 30 = 0 ∨ fld (c.w 0) 31 30 = 1 ∧ treeOf f (fld (c.w 0) 5 0) = fld (c.w 0) 5 0) ∧ gateImage (c.w 0) c.data = .ok g))) ∧
    -- 4
    (∃ (g : GateList) (p : Packet) (s : State),
    accepts opUpstreamGateLoad p s = true ∧
    (let c := (ctxOf opUpstreamGateLoad p (fetched opUpstreamGateLoad p s));
    let f := (fetched opUpstreamGateLoad p s);
    c.hasData = true ∧ fld (c.w 0) 31 30 = 2 ∧ treeOf f (fld (c.w 0) 5 0) = fld (c.w 0) 5 0 ∧ gateImage (c.w 0) c.data = .ok g)) ∧
    -- 5
    (∃ (k : Nat) (start : Nat) (g : GateList) (s : State),
    k < 192 ∧
    (gateAt s k).pending = some (g, start) ∧
    start * nsUnit ≤ s.time.tc) ∧
    -- 6
    (∃ (p : Packet) (s : State),
    accepts opQueueStats p s = true ∧
    (let c := (ctxOf opQueueStats p (fetched opQueueStats p s));
    let f := (fetched opQueueStats p s);
    (nodeOk ⟨fld (c.w 0) 31 31, 4, fld (c.w 0) 17 0⟩ = true ∧ (c.world = 0x0100 ∨ nodeWorld f ⟨fld (c.w 0) 31 31, 4, fld (c.w 0) 17 0⟩ = c.world)))) ∧
    -- 7
    (∃ (p : Packet) (s : State),
    accepts opSampleRingConfig p s = true ∧
    (let c := (ctxOf opSampleRingConfig p (fetched opSampleRingConfig p s));
    let f := (fetched opSampleRingConfig p s);
    (worldCode (fld (c.w 0) 15 0) = true ∧ fld (c.w 0) 23 16 ≤ 63 ∧ fld (c.w 1) 11 0 = 0 ∧ ((c.w 3).toNat = 0 ∨ ∃ k < 13, (c.w 3).toNat = 2 ^ (8 + k)) ∧ reaches c.world (fld (c.w 0) 15 0) = true ∧ boundTo f (fld (c.w 0) 23 16) (fld (c.w 0) 15 0) = true))) ∧
    -- 7_remove
    (∃ (p : Packet) (s : State),
    accepts opSampleRingConfig p s = true ∧
    (let c := (ctxOf opSampleRingConfig p (fetched opSampleRingConfig p s));
    let f := (fetched opSampleRingConfig p s);
    (worldCode (fld (c.w 0) 15 0) = true ∧ fld (c.w 0) 23 16 ≤ 63 ∧ fld (c.w 1) 11 0 = 0 ∧ ((c.w 3).toNat = 0 ∨ ∃ k < 13, (c.w 3).toNat = 2 ^ (8 + k)) ∧ reaches c.world (fld (c.w 0) 15 0) = true ∧ boundTo f (fld (c.w 0) 23 16) (fld (c.w 0) 15 0) = true))) ∧
    -- 8
    (∃ (r : Ring) (p : Packet) (s : State),
    accepts opSampleRingRead p s = true ∧
    (let c := (ctxOf opSampleRingRead p (fetched opSampleRingRead p s));
    let f := (fetched opSampleRingRead p s);
    (reaches c.world (fld (c.w 0) 15 0) = true ∧ mget f.tm.rings (fld (c.w 0) 15 0) = some r ∧ ((c.w 1).toNat = 0xFFFFFFFF ∨ (c.w 1).toNat < r.size)))) :=
  ⟨⟨(pk [0xA0000000, 0, 0x00010001, 0x01000000]), up, by decide +kernel⟩,
  ⟨(pk [0x20000000, 0x800000C0, 1, 1, 16384, 0x00FFFFFF]), up, by decide +kernel⟩,
  ⟨{ base := 1000000000, cycle := 1000, entries := [(255, 1000)] }, ⟨(pkd [0x4000003F] (gateBytes 0x4000003F 1)), up, by decide +kernel⟩⟩,
  ⟨{ base := 0, cycle := 1000, entries := [(255, 1000)] }, ⟨(pkd [0x8000003F] (gateBytes 0x8000003F 0)), st_TrafficCommandsTakeEffect_4_s, by decide +kernel⟩⟩,
  ⟨191, 5, { base := 0, cycle := 1000, entries := [(255, 1000)] }, st_TrafficCommandsTakeEffect_5_s, by decide +kernel⟩,
  ⟨(pk [0x3FFFF]), up, by decide +kernel⟩,
  ⟨(pk [0x003F00FF, 0, 0, 0x00100000]), st_TrafficCommandsTakeEffect_7_s, by refine ⟨?_, ?_, ?_, ?_, ?_, ?_, ?_⟩ <;> decide +kernel⟩,
  ⟨(pk [0x00000100, 0, 0, 0]), up, by refine ⟨?_, ?_, ?_, ?_, ?_, ?_, ?_⟩ <;> decide +kernel⟩,
  ⟨{ fn := 0, addr := 0, size := 256 }, ⟨(pk [0x100, 0xFFFFFFFF]), st_TrafficCommandsTakeEffect_8_only_read_s, by decide +kernel⟩⟩⟩

def st_RuleCommandsTakeEffect_1_s : State :=
  upE { phase := .staged, staged := 1 }

set_option maxRecDepth 100000 in
theorem witness_RuleCommandsTakeEffect_1 :
    ∃ (p : Packet) (g : Graph) (s : State),
    acceptsStaged opParseGraphLoad p s = true ∧
    p.env.dataOk = true ∧
    (ctxOf opParseGraphLoad p (fetched opParseGraphLoad p s)).hasData = true ∧
    graphImage (ctxOf opParseGraphLoad p (fetched opParseGraphLoad p s)).data = .ok g ∧
    hasRoom opParseGraphLoad p (fetched opParseGraphLoad p s) = true :=
  ⟨{ pkd [] graphBytes with flags := 20, epochExp := 1 }, { nodes := [List.replicate 16 0], sourceSel := List.replicate 96 0, tenantSel := List.replicate 256 0 }, st_RuleCommandsTakeEffect_1_s, by refine ⟨?_, ?_, ?_, ?_, ?_⟩ <;> decide +kernel⟩

def st_RuleCommandsTakeEffect_3_s : State :=
  { up with rules := { versions := [(0, { st := .current, trees := [(63, treeOne)] })], worlds := [(63, 0x100)] } }

def st_RuleCommandsTakeEffect_4_s : State :=
  { up with rules := { versions := [(0, { st := .current }), (1, { st := .opened })] } }

def st_RuleCommandsTakeEffect_6_all_sources_s : State :=
  { up with host := { up.host with hrq := [(255, { bound := 0, world := 0x100 })] } }

def st_RuleCommandsTakeEffect_6_last_source_s : State :=
  { up with host := { up.host with hrq := [(255, { bound := 0, world := 0x100 })] } }

def st_RuleCommandsTakeEffect_7_s : State :=
  { up with rules := { versions := [(7, { st := .draining })] } }

def st_RuleCommandsTakeEffect_8_s : State :=
  { up with mono := ms, rules := { versions := [(7, { st := .draining, inFlight := 1 })] } }

theorem witness_RuleCommandsTakeEffect :
    -- 2
    (∃ (t : Tree) (v : Nat) (trees : Map Nat Tree) (p : Packet) (s : State),
    accepts opRuleTreeLoad p s = true ∧
    (let c := (ctxOf opRuleTreeLoad p (fetched opRuleTreeLoad p s));
    let f := (fetched opRuleTreeLoad p s);
    c.hasData = true ∧ treeImage f (fld (c.w 0) 5 0) c.data = .ok t ∧ worldCode t.world = true ∧ reaches c.world t.world = true ∧ treeGround c f (fld (c.w 0) 5 0) (some t.world) = none ∧ openVersion f = some (v, trees) ∧ storeFull f v (mset trees (fld (c.w 0) 5 0) t) = false)) ∧
    -- 3
    (∃ (t : Tree) (t' : Tree) (v : Nat) (k : Nat) (m : Nat) (trees : Map Nat Tree) (p : Packet) (s : State),
    accepts opRuleUpdate p s = true ∧
    (let c := (ctxOf opRuleUpdate p (fetched opRuleUpdate p s));
    let f := (fetched opRuleUpdate p s);
    treeGround c f (fld (c.w 0) 5 0) none = none ∧ openVersion f = some (v, trees) ∧ mget trees (fld (c.w 0) 5 0) = some t ∧ applyRecs f v (fld (c.w 0) 5 0) ((updateRecs c.words).getD []) t f.rules.copies f.rules.sides = .ok (t', k, m) ∧ storeFull f v (mset trees (fld (c.w 0) 5 0) t') = false)) ∧
    -- 4
    (∃ (v : Nat) (x : Version) (p : Packet) (s : State),
    accepts opRuleVersionCommit p s = true ∧
    (let f := (fetched opRuleVersionCommit p s);
    f.halter.stage ≠ .halter ∧ f.rules.versions.find? (fun e => e.2.st = .opened) = some (v, x))) ∧
    -- 5
    (∃ (p : Packet) (s : State),
    accepts opRuleVersionStatus p s = true) ∧
    -- 6
    (∃ (p : Packet) (s : State),
    accepts opExceptionConfig p s = true ∧
    (let c := (ctxOf opExceptionConfig p (fetched opExceptionConfig p s));
    let f := (fetched opExceptionConfig p s);
    (
      let a : Action := ⟨c.w 2, c.w 3⟩
      fld (c.w 0) 25 24 ∈ excPermitted (fld (c.w 0) 23 16) ∧ (fld (c.w 0) 7 0 ≤ 84 ∨ fld (c.w 0) 7 0 = 0xFF) ∧
      1 ≤ fld (c.w 1) 31 16 ∧ actOp a ≤ 1 ∧ actForce a = false ∧ actColour a ≠ 3 ∧ (hrqAt f (fld (c.w 1) 7 0)).bound ≠ 0xFF ∧
      (hrqAt f (fld (c.w 1) 7 0)).world = 0x0100))) ∧
    -- 6_sources
    (∃ (p : Packet) (s : State),
    accepts opExceptionConfig p s = true ∧
    (let c := (ctxOf opExceptionConfig p (fetched opExceptionConfig p s));
    let f := (fetched opExceptionConfig p s);
    (
      let a : Action := ⟨c.w 2, c.w 3⟩
      fld (c.w 0) 25 24 ∈ excPermitted (fld (c.w 0) 23 16) ∧ (fld (c.w 0) 7 0 ≤ 84 ∨ fld (c.w 0) 7 0 = 0xFF) ∧
      1 ≤ fld (c.w 1) 31 16 ∧ actOp a ≤ 1 ∧ actForce a = false ∧ actColour a ≠ 3 ∧ (hrqAt f (fld (c.w 1) 7 0)).bound ≠ 0xFF ∧
      (hrqAt f (fld (c.w 1) 7 0)).world = 0x0100))) ∧
    -- 7
    (∃ (v : Nat) (s : State),
    v < 8 ∧
    (versionAt s v).st = .draining ∧
    (versionAt s v).inFlight = 0) ∧
    -- 8
    (∃ (v : Nat) (s : State),
    v < 8 ∧
    (versionAt s v).st = .draining ∧
    (versionAt s v).inFlight ≠ 0 ∧
    (versionAt s v).since + ms ≤ s.mono) :=
  ⟨⟨treeOne, 1, [], ⟨(pkd [63] (treeBytes 63)), up, by refine ⟨?_, ?_, ?_, ?_, ?_, ?_⟩ <;> decide +kernel⟩⟩,
  ⟨treeOne, { treeOne with side := [(1, { id := 5, prio := 0xFFFFF, present := 0, cmp := [], r0 := none, r1 := none, act := {} })] }, 1, 0, 1, [(63, treeOne)], ⟨(pk [63, 0x08000005, 0x000FFFFF, 0, 0, 0, 0, 0, 0]), st_RuleCommandsTakeEffect_3_s, by refine ⟨?_, ?_, ?_, ?_, ?_, ?_⟩ <;> decide +kernel⟩⟩,
  ⟨1, { st := .opened }, ⟨(pk []), st_RuleCommandsTakeEffect_4_s, by decide +kernel⟩⟩,
  ⟨(pk []), up, by decide +kernel⟩,
  ⟨(pk [0x01200054, 0xFFFF00FF, 0x20000000, 0x40007]), st_RuleCommandsTakeEffect_6_last_source_s, by decide +kernel⟩,
  ⟨(pk [0x030100FF, 0x000100FF, 0, 0]), st_RuleCommandsTakeEffect_6_all_sources_s, by decide +kernel⟩,
  ⟨7, st_RuleCommandsTakeEffect_7_s, by decide +kernel⟩,
  ⟨7, st_RuleCommandsTakeEffect_8_s, by decide +kernel⟩⟩

def st_TableCommandsTakeEffect_2_s : State :=
  { up with rules := { mac := [(3, { stash := [{ world := 0x100, vid := 0, mac := 1, static := true, age := 0, dest := 0x1000000F }], ovf := [(macBuckets (0x100, 0, 1)).1] })] } }

def st_TableCommandsTakeEffect_3_s : State :=
  { up with rules := { mac := [(3, { stash := [{ world := 0x100, vid := 0, mac := 1, static := true, age := 0, dest := 0x1000000F }], ovf := [(macBuckets (0x100, 0, 1)).1] })] } }

def st_TableCommandsTakeEffect_4_dest_s : State :=
  { up with rules := { mac := [(3, { stash := [{ world := 0x100, vid := 0, mac := 1, static := true, age := 0, dest := 0x1000000F }], ovf := [(macBuckets (0x100, 0, 1)).1] })] } }

def st_TableCommandsTakeEffect_4_world_s : State :=
  { up with rules := { mac := [(3, { stash := [{ world := 0x100, vid := 0, mac := 1, static := true, age := 0, dest := 0x1000000F }], ovf := [(macBuckets (0x100, 0, 1)).1] })] } }

def st_TableCommandsTakeEffect_4_port_s : State :=
  { up with rules := { mac := [(3, { stash := [{ world := 0x100, vid := 0, mac := 1, static := true, age := 0, dest := 0x1000000F }], ovf := [(macBuckets (0x100, 0, 1)).1] })] } }

def st_TableCommandsTakeEffect_6_s : State :=
  { up with rules := { lpm := [(0x100, { routerMac := 5, prefixes := [{ v6 := false, len := 32, addr := 1, nhMac := 0, nhVid := 0 }] })] } }

def st_TableCommandsTakeEffect_7_s : State :=
  { up with rules := { lpm := [(0x100, { routerMac := 5, prefixes := [{ v6 := false, len := 32, addr := 1, nhMac := 0, nhVid := 0 }] })] } }

theorem witness_TableCommandsTakeEffect :
    -- 1
    (∃ (p : Packet) (s : State),
    accepts opMacStaticAdd p s = true ∧
    (let c := (ctxOf opMacStaticAdd p (fetched opMacStaticAdd p s));
    let f := (fetched opMacStaticAdd p s);
    (
      let lost := lostSlices f (wordsKey c)
      keyGround c = none ∧ destOk (c.w 0) = true ∧
      (∀ n, c.master = .vf n → serves (destWorld f (c.w 0)) c.world = true) ∧
      (lost = [] → ∀ i < 4, ∀ e, macFind (macAt f i) (wordsKey c) = some e → e.static = false) ∧
      ∀ i ∈ (if lost.isEmpty then [0, 1, 2, 3] else lost), (macPut (staticEntry c f) (macAt f i)).isSome = true))) ∧
    -- 2
    (∃ (p : Packet) (s : State),
    accepts opMacDelete p s = true ∧
    (let c := (ctxOf opMacDelete p (fetched opMacDelete p s));
    let f := (fetched opMacDelete p s);
    (keyGround c = none ∧ (fld (c.w 0) 3 0 ≤ 3 ∨ fld (c.w 0) 3 0 = 0xF) ∧ ∃ i ∈ sliceList (fld (c.w 0) 3 0), (macFind (macAt f i) (wordsKey c)).isSome = true))) ∧
    -- 3
    (∃ (e : MacEntry) (p : Packet) (s : State),
    accepts opMacLookup p s = true ∧
    (let c := (ctxOf opMacLookup p (fetched opMacLookup p s));
    let f := (fetched opMacLookup p s);
    keyGround c = none ∧ fld (c.w 0) 3 0 ≤ 3 ∧ macFind (macAt f (fld (c.w 0) 3 0)) (wordsKey c) = some e)) ∧
    -- 4_dest
    (∃ (p : Packet) (s : State),
    accepts opMacFlush p s = true ∧
    (let c := (ctxOf opMacFlush p (fetched opMacFlush p s));
    ((fld (c.w 0) 31 30 = 0 → destOk (c.w 1) = true) ∧ (fld (c.w 0) 31 30 = 3 → fld (c.w 0) 15 0 ≤ 63) ∧ (fld (c.w 0) 31 30 = 1 → worldCode (fld (c.w 0) 15 0) = true ∧ reaches c.world (fld (c.w 0) 15 0) = true)))) ∧
    -- 4_world
    (∃ (p : Packet) (s : State),
    accepts opMacFlush p s = true ∧
    (let c := (ctxOf opMacFlush p (fetched opMacFlush p s));
    ((fld (c.w 0) 31 30 = 0 → destOk (c.w 1) = true) ∧ (fld (c.w 0) 31 30 = 3 → fld (c.w 0) 15 0 ≤ 63) ∧ (fld (c.w 0) 31 30 = 1 → worldCode (fld (c.w 0) 15 0) = true ∧ reaches c.world (fld (c.w 0) 15 0) = true)))) ∧
    -- 4_port
    (∃ (p : Packet) (s : State),
    accepts opMacFlush p s = true ∧
    (let c := (ctxOf opMacFlush p (fetched opMacFlush p s));
    ((fld (c.w 0) 31 30 = 0 → destOk (c.w 1) = true) ∧ (fld (c.w 0) 31 30 = 3 → fld (c.w 0) 15 0 ≤ 63) ∧ (fld (c.w 0) 31 30 = 1 → worldCode (fld (c.w 0) 15 0) = true ∧ reaches c.world (fld (c.w 0) 15 0) = true)))) ∧
    -- 5
    (∃ (p : Packet) (s : State),
    accepts opAgeingConfig p s = true ∧
    (let c := (ctxOf opAgeingConfig p (fetched opAgeingConfig p s));
    let f := (fetched opAgeingConfig p s);
    ((worldCode (fld (c.w 0) 15 0) = true ∨ fld (c.w 0) 15 0 = 0xFFFF) ∧ fld (c.w 1) 19 0 ≤ 524288 ∧ (if fld (c.w 2) 31 16 = 0 then f.rules.bank.ageS else fld (c.w 2) 31 16) + (if fld (c.w 2) 15 0 = 0 then f.rules.bank.scanS else fld (c.w 2) 15 0) ≤ 32767 ∧ (fld (c.w 2) 31 16 = 0 ∨ 10 ≤ fld (c.w 2) 31 16)))) ∧
    -- 6
    (∃ (t : Lpm) (x : Prefix) (p : Packet) (s : State),
    accepts opLpmAdd p s = true ∧
    (let c := (ctxOf opLpmAdd p (fetched opLpmAdd p s));
    let f := (fetched opLpmAdd p s);
    worldCode (fld (c.w 0) 31 16) = true ∧ reaches c.world (fld (c.w 0) 31 16) = true ∧ mget f.rules.lpm (fld (c.w 0) 31 16) = some t ∧ prefixOf c.words = .ok x ∧ lpmUnits (mset f.rules.lpm (fld (c.w 0) 31 16) { t with prefixes := putPrefix t.prefixes x }) ≤ 1048576)) ∧
    -- 7
    (∃ (t : Lpm) (x : Prefix) (p : Packet) (s : State),
    accepts opLpmDelete p s = true ∧
    (let c := (ctxOf opLpmDelete p (fetched opLpmDelete p s));
    let f := (fetched opLpmDelete p s);
    worldCode (fld (c.w 0) 31 16) = true ∧ reaches c.world (fld (c.w 0) 31 16) = true ∧ mget f.rules.lpm (fld (c.w 0) 31 16) = some t ∧ prefixOf c.words = .ok x ∧ t.prefixes.any (samePrefix x) = true ∧ lpmUnits (mset f.rules.lpm (fld (c.w 0) 31 16) { t with prefixes := t.prefixes.filter fun y => !samePrefix x y }) ≤ 1048576)) ∧
    -- 8
    (∃ (l : List Prefix) (p : Packet) (s : State),
    accepts opLpmLoad p s = true ∧
    (let c := (ctxOf opLpmLoad p (fetched opLpmLoad p s));
    let f := (fetched opLpmLoad p s);
    (c.hasData = true ∧ worldCode (fld (c.w 0) 15 0) = true ∧ reaches c.world (fld (c.w 0) 15 0) = true ∧ lpmUnits f.rules.lpm + lpmNeed c.data ≤ 1048576 ∧ (wordAt c.data 0x0C).toNat ≤ 1048576 ∧ wordAt c.data 0 = 0x4C504D54#32 ∧ wordAt c.data 4 = 1 ∧ (wordAt c.data 8).toNat = fld (c.w 0) 15 0 ∧ c.data.length = 64 + 32 * (wordAt c.data 0x0C).toNat ∧ crc32 (c.data.drop 0x1C) = wordAt c.data 0x18 ∧ (∀ b ∈ slice c.data 0x1C 36, b = 0) ∧ fld (wordAt c.data 0x14) 31 16 = 0 ∧ lpmRecords (fld (c.w 0) 15 0) (wordAt c.data 0x0C).toNat 0 (c.data.drop 64) [] = .ok l))) ∧
    -- 9
    (∃ (p : Packet) (s : State),
    accepts opStitchConfig p s = true ∧
    (let c := (ctxOf opStitchConfig p (fetched opStitchConfig p s));
    fld (c.w 0) 7 0 ≤ 84)) :=
  ⟨⟨(pk [0x1000000F, 1, 0, 0x01000000]), up, by
    refine ⟨by decide +kernel, by decide +kernel, by decide +kernel, ?_, ?_, by decide +kernel⟩
    · intro n h
      have h : Master.pf = .vf n := h
      cases h
    · intro _ i hi
      match i, hi with
      | 0, _ => exact of_none (by decide +kernel)
      | 1, _ => exact of_none (by decide +kernel)
      | 2, _ => exact of_none (by decide +kernel)
      | 3, _ => exact of_none (by decide +kernel)⟩,
  ⟨(pk [0xF, 1, 0, 0x01000000]), st_TableCommandsTakeEffect_2_s, by decide +kernel⟩,
  ⟨{ world := 0x100, vid := 0, mac := 1, static := true, age := 0, dest := 0x1000000F }, ⟨(pk [3, 1, 0, 0x01000000]), st_TableCommandsTakeEffect_3_s, by decide +kernel⟩⟩,
  ⟨(pk [0x00000000, 0x1000000F]), st_TableCommandsTakeEffect_4_dest_s, by decide +kernel⟩,
  ⟨(pk [0x40000100, 0]), st_TableCommandsTakeEffect_4_world_s, by decide +kernel⟩,
  ⟨(pk [0xC000003F, 0]), st_TableCommandsTakeEffect_4_port_s, by decide +kernel⟩,
  ⟨(pk [0x8000FFFF, 0x80000, 0x000A7FF5]), up, by decide +kernel⟩,
  ⟨{ routerMac := 5, prefixes := [{ v6 := false, len := 32, addr := 1, nhMac := 0, nhVid := 0 }] }, { v6 := true, len := 64, addr := 1, nhMac := 7, nhVid := 1 }, ⟨(pk [0x01004001, 0, 1, 0, 0, 7, 0x00010000]), st_TableCommandsTakeEffect_6_s, by refine ⟨?_, ?_, ?_, ?_, ?_, ?_⟩ <;> decide +kernel⟩⟩,
  ⟨{ routerMac := 5, prefixes := [{ v6 := false, len := 32, addr := 1, nhMac := 0, nhVid := 0 }] }, { v6 := false, len := 32, addr := 1, nhMac := 0, nhVid := 0 }, ⟨(pk [0x01002000, 1, 0, 0, 0]), st_TableCommandsTakeEffect_7_s, by refine ⟨?_, ?_, ?_, ?_, ?_, ?_, ?_⟩ <;> decide +kernel⟩⟩,
  ⟨[{ v6 := false, len := 0, addr := 0, nhMac := 0, nhVid := 0 }], ⟨(pkd [0x100] lpmBytes), up, by refine ⟨?_, ?_, ?_, ?_, ?_, ?_, ?_, ?_, ?_, ?_, ?_, ?_, ?_⟩ <;> first | exact of_all (by decide +kernel) | decide +kernel⟩⟩,
  ⟨(pk [0x54]), up, by decide +kernel⟩⟩

def st_FramesPassTheSlices_2_s : State :=
  { up with pkt := { flights := [(5, { frame := frame0, place := .ingress })], next := 6 } }

def st_FramesPassTheSlices_3_s : State :=
  { up with pkt := { flights := [(5, { frame := frame0, place := .sprayed })], next := 6 } }

def st_FramesPassTheSlices_4_s : State :=
  { up with pkt := { flights := [(5, { frame := frame0, place := .parsed })], next := 6 }, rules := { bank := { graph := some { nodes := [], sourceSel := List.replicate 64 0 ++ [0x80000000] } }, versions := [(0, { st := .current, trees := [(0, treeOne)] })] } }

def st_FramesPassTheSlices_5_s : State :=
  { up with pkt := { flights := [(5, { frame := frame0, place := .classified })], next := 6 }, rules := { bank := { learn := [(0x100, { enable := false })] }, mac := [(0, { stash := [{ world := 0x100, vid := 0, mac := 0, static := true, age := 0, dest := 0x20000005 }], ovf := [(macBuckets (0x100, 0, 0)).1] })] } }

def st_FramesPassTheSlices_6_s : State :=
  { up with pkt := { flights := [(5, { frame := { frame0 with poison := true }, place := .sprayed })], next := 6 } }

theorem witness_FramesPassTheSlices :
    -- 1_1
    (∃ (source : Nat) (card : Nat) (bytes : List Byte) (fits : Bool) (s : State),
    64 ≤ source ∧
    source < 82 ∧
    card < 64 ∧
    source < 80 ∧
    recognised s (source - 64) bytes = true) ∧
    -- 1_2_1_short
    (∃ (source : Nat) (card : Nat) (bytes : List Byte) (fits : Bool) (s : State),
    64 ≤ source ∧
    source < 82 ∧
    card < 64 ∧
    (let n := judgedLen s source (if source < 80 then 0 else card) bytes;
    (source < 80 → recognised s (source - 64) bytes = false) ∧
    (n < 64 ∨ 12288 < n))) ∧
    -- 1_2_1_long
    (∃ (source : Nat) (card : Nat) (bytes : List Byte) (fits : Bool) (s : State),
    64 ≤ source ∧
    source < 82 ∧
    card < 64 ∧
    (let n := judgedLen s source (if source < 80 then 0 else card) bytes;
    (source < 80 → recognised s (source - 64) bytes = false) ∧
    (n < 64 ∨ 12288 < n))) ∧
    -- 1_2_1_port
    (∃ (source : Nat) (card : Nat) (bytes : List Byte) (fits : Bool) (s : State),
    64 ≤ source ∧
    source < 82 ∧
    card < 64 ∧
    (let n := judgedLen s source (if source < 80 then 0 else card) bytes;
    (source < 80 → recognised s (source - 64) bytes = false) ∧
    (n < 64 ∨ 12288 < n))) ∧
    -- 1_2_2
    (∃ (source : Nat) (card : Nat) (bytes : List Byte) (fits : Bool) (s : State),
    64 ≤ source ∧
    source < 82 ∧
    card < 64 ∧
    (let n := judgedLen s source (if source < 80 then 0 else card) bytes;
    (source < 80 → recognised s (source - 64) bytes = false) ∧
    64 ≤ n ∧
    n ≤ 12288 ∧
    fits = false)) ∧
    -- 1_2_3_shortest
    (∃ (source : Nat) (card : Nat) (bytes : List Byte) (fits : Bool) (s : State),
    64 ≤ source ∧
    source < 82 ∧
    card < 64 ∧
    (let n := judgedLen s source (if source < 80 then 0 else card) bytes;
    (source < 80 → recognised s (source - 64) bytes = false) ∧
    64 ≤ n ∧
    n ≤ 12288 ∧
    fits = true)) ∧
    -- 1_2_3_longest
    (∃ (source : Nat) (card : Nat) (bytes : List Byte) (fits : Bool) (s : State),
    64 ≤ source ∧
    source < 82 ∧
    card < 64 ∧
    (let n := judgedLen s source (if source < 80 then 0 else card) bytes;
    (source < 80 → recognised s (source - 64) bytes = false) ∧
    64 ≤ n ∧
    n ≤ 12288 ∧
    fits = true)) ∧
    -- 2
    (∃ (id : Nat) (x : Flight) (s : State),
    flightAt s id = some x ∧
    x.place = .ingress ∧
    x.void = false ∧
    x.direct = false ∧
    earlierWaits s id x.frame.source = false ∧
    s.halter.stage = .outside ∧
    s.halter.leaving = [] ∧
    x.frame.poison = false ∧
    enabledSlices s ≠ []) ∧
    -- 3
    (∃ (id : Nat) (x : Flight) (b : Bank) (s : State),
    flightAt s id = some x ∧
    x.place = .sprayed ∧
    x.void = false ∧
    x.frame.poison = false ∧
    bankOf s x.frame = some b ∧
    (let w := walkGraph (graphOf b) (fld (nthW (graphOf b).sourceSel x.frame.source) 7 0) x.frame.bytes x.frame.len;
    w.exc = 0)) ∧
    -- 4
    (∃ (id : Nat) (x : Flight) (b : Bank) (op : Action) (world : Nat) (hit : Bool) (s : State),
    flightAt s id = some x ∧
    x.place = .parsed ∧
    x.void = false ∧
    x.frame.poison = false ∧
    bankOf s x.frame = some b ∧
    (versionAt s x.frame.rver).st ≠ .free ∧
    x.key.excAct = false ∧
    x.chan = none ∧
    walkBoth b (versionAt s x.frame.rver) x.frame x.key = .ok (op, none, world, hit) ∧
    actOp op = 0) ∧
    -- 5
    (∃ (id : Nat) (x : Flight) (b : Bank) (e : MacEntry) (s : State),
    flightAt s id = some x ∧
    x.place = .classified ∧
    x.void = false ∧
    x.frame.poison = false ∧
    bankOf s x.frame = some b ∧
    mget s.rules.lpm x.frame.world = none ∧
    macFind (macAt s x.frame.slice) (x.frame.world, keyVid x.key, keyDst x.key) = some e ∧
    (learnCfg b x.frame.world).enable = false ∧
    ownEntry x.frame x.frame.card e.dest = false ∧
    destKind e.dest ≠ 5 ∧
    s.halter.stage ≠ .s1) ∧
    -- 6
    (∃ (id : Nat) (x : Flight) (s : State),
    flightAt s id = some x ∧
    x.place = .sprayed ∧
    x.void = false ∧
    x.frame.poison = true) :=
  ⟨⟨64, 0, (List.replicate 12 0 ++ [0x88, 0xF7] ++ List.replicate 50 0), true, { up with time := { ptp := [(0, { mode := 1 })] } }, by decide +kernel⟩,
  ⟨81, 63, (List.replicate 63 0), true, up, by decide +kernel⟩,
  ⟨81, 63, (List.replicate 12289 0), true, up, by decide +kernel⟩,
  ⟨64, 0, (List.replicate 63 0), true, up, by decide +kernel⟩,
  ⟨81, 63, (List.replicate 64 0), false, up, by decide +kernel⟩,
  ⟨81, 63, (List.replicate 64 0), true, up, by decide +kernel⟩,
  ⟨81, 63, (List.replicate 12288 0), true, up, by decide +kernel⟩,
  ⟨5, { frame := frame0, place := .ingress }, st_FramesPassTheSlices_2_s, by decide +kernel⟩,
  ⟨5, { frame := frame0, place := .sprayed }, {}, st_FramesPassTheSlices_3_s, by decide +kernel⟩,
  ⟨5, { frame := frame0, place := .parsed }, { graph := some { nodes := [], sourceSel := List.replicate 64 0 ++ [0x80000000] } }, {}, 0x100, false, st_FramesPassTheSlices_4_s, by refine ⟨?_, ?_, ?_, ?_, ?_, ?_, ?_, ?_, ?_⟩ <;> decide +kernel⟩,
  ⟨5, { frame := frame0, place := .classified }, { learn := [(0x100, { enable := false })] }, { world := 0x100, vid := 0, mac := 0, static := true, age := 0, dest := 0x20000005 }, st_FramesPassTheSlices_5_s, by decide +kernel⟩,
  ⟨5, { frame := { frame0 with poison := true }, place := .sprayed }, st_FramesPassTheSlices_6_s, by decide +kernel⟩⟩

def st_FramesLearnOrderAndQueue_1_1_s : State :=
  { up with rules := { mac := [(3, { learns := [{ world := 0x100, vid := 1, mac := 2, dest := 0x10000000 }] })], bank := { learn := [(0x100, { limit := 0 })] } } }

def st_FramesLearnOrderAndQueue_1_2_s : State :=
  { up with rules := { mac := [(3, { learns := [{ world := 0x100, vid := 1, mac := 2, dest := 0x10000000 }] })], bank := { learn := [(0x100, { limit := 1 })] } } }

def st_FramesLearnOrderAndQueue_3_s : State :=
  { up with rules := { mac := [(3, { stash := [{ world := 0x100, vid := 1, mac := 2, static := false, age := 0, dest := 0x10000000 }], ovf := [(macBuckets (0x100, 1, 2)).1], deletes := [{ world := 0x100, vid := 1, mac := 2, static := false, age := 0, dest := 0x10000000 }] })] } }

def st_FramesLearnOrderAndQueue_4_1_s : State :=
  { up with pkt := { flights := [(5, { frame := frame0, place := .out })], next := 6 } }

def st_FramesLearnOrderAndQueue_4_2_next_s : State :=
  { up with pkt := { flights := [(5, { frame := { frame0 with seq := 1 }, place := .out })] } }

def st_FramesLearnOrderAndQueue_4_2_far_s : State :=
  { up with pkt := { flights := [(5, { frame := { frame0 with seq := 0x7FFFF }, place := .out })] } }

def st_FramesLearnOrderAndQueue_4_3_s : State :=
  { up with pkt := { flights := [(5, { frame := frame0, place := .out })], next := 6 }, rules := { bank := { stitch := [(64, false)] } } }

def st_FramesLearnOrderAndQueue_5_s : State :=
  { up with pkt := { flights := [(5, { frame := frame0, place := .stitch })], next := 6 }, mono := 8 * us }

def st_FramesLearnOrderAndQueue_6_s : State :=
  { up with pkt := { flights := [(5, { frame := frame0, place := .released, dest := 0x10000000 })], order := [5] }, mem := { pools := [(0, { enable := true, cache := [(0, 1024)] })] } }

def st_FramesLearnOrderAndQueue_6_t : State :=
  ((takeCells 0 (dataCells 64) (frameIn 0x46 0x100 64 (endFlight 5 (epochOut 0 (leaveVersion 5 st_FramesLearnOrderAndQueue_6_s))))).getD ([], up)).2

def st_FramesLearnOrderAndQueue_7_1_s : State :=
  { up with tm := { nodes := [(⟨1, 0, 16⟩, { enable := false })] } }

def st_FramesLearnOrderAndQueue_7_2_s : State :=
  { up with pon := { ports := [(0, { cfg := { mode := 1 }, framing := true, txdis := false })], terms := [(0, opTerm)] }, tm := { nodes := [(⟨0, 1, 0⟩, { enable := true }), (⟨0, 2, 0⟩, { enable := true })], queues := [(⟨0, 4, 0⟩, { enable := true, held := [{ frame := frame0, at_ := 0 }] })] } }

def st_FramesLearnOrderAndQueue_7_2_t : State :=
  ((descend 4 ⟨0, 0, 0⟩ (livePaths (dropAllHeads ⟨0, 0, 0⟩ st_FramesLearnOrderAndQueue_7_2_s) ⟨0, 0, 0⟩) (dropAllHeads ⟨0, 0, 0⟩ st_FramesLearnOrderAndQueue_7_2_s)).getD ([], up)).2

theorem witness_FramesLearnOrderAndQueue :
    -- 1_1
    (∃ (k : Nat) (r : LearnReq) (rest : List LearnReq) (s : State),
    k < 4 ∧
    powered s k = true ∧
    (macAt s k).learns = r :: rest ∧
    macFind (macAt s k) (r.world, r.vid, r.mac) = none ∧
    (learnCfg s.rules.bank r.world).limit ≤ learnedOf (macAt s k) r.world) ∧
    -- 1_2
    (∃ (k : Nat) (r : LearnReq) (rest : List LearnReq) (s : State),
    k < 4 ∧
    powered s k = true ∧
    (macAt s k).learns = r :: rest ∧
    macFind (macAt s k) (r.world, r.vid, r.mac) = none ∧
    learnedOf (macAt s k) r.world < (learnCfg s.rules.bank r.world).limit) ∧
    -- 2
    (∃ (k : Nat) (s : State),
    k < 4 ∧
    powered s k = true ∧
    (macAt s k).scanAt + s.rules.bank.scanS * sec ≤ s.mono) ∧
    -- 3
    (∃ (k : Nat) (d : MacEntry) (e : MacEntry) (rest : List MacEntry) (s : State),
    k < 4 ∧
    powered s k = true ∧
    (macAt s k).learns = [] ∧
    (macAt s k).deletes = d :: rest ∧
    macFind { macAt s k with deletes := rest } d.key = some e) ∧
    -- 4_1
    (∃ (id : Nat) (x : Flight) (b : Bank) (s : State),
    flightAt s id = some x ∧
    x.place = .out ∧
    bankOf s x.frame = some b ∧
    (x.frame.poison = false ∨ x.void = true) ∧
    (let a := seqAhead (releasePoint s x.frame.source) x.frame.seq;
    stitchOn s b x.frame = true ∧
    a = 0)) ∧
    -- 4_2_next
    (∃ (id : Nat) (x : Flight) (b : Bank) (s : State),
    flightAt s id = some x ∧
    x.place = .out ∧
    bankOf s x.frame = some b ∧
    (x.frame.poison = false ∨ x.void = true) ∧
    (let a := seqAhead (releasePoint s x.frame.source) x.frame.seq;
    stitchOn s b x.frame = true ∧
    1 ≤ a ∧
    a < 2 ^ 19 ∧
    stitchHeld s < 8192)) ∧
    -- 4_2_far
    (∃ (id : Nat) (x : Flight) (b : Bank) (s : State),
    flightAt s id = some x ∧
    x.place = .out ∧
    bankOf s x.frame = some b ∧
    (x.frame.poison = false ∨ x.void = true) ∧
    (let a := seqAhead (releasePoint s x.frame.source) x.frame.seq;
    stitchOn s b x.frame = true ∧
    1 ≤ a ∧
    a < 2 ^ 19 ∧
    stitchHeld s < 8192)) ∧
    -- 4_3
    (∃ (id : Nat) (x : Flight) (b : Bank) (s : State),
    flightAt s id = some x ∧
    x.place = .out ∧
    bankOf s x.frame = some b ∧
    (x.frame.poison = false ∨ x.void = true) ∧
    stitchOn s b x.frame = false ∧
    stitchLingers s x.frame.source = false) ∧
    -- 4_4
    (∃ (id : Nat) (x : Flight) (b : Bank) (s : State),
    flightAt s id = some x ∧
    x.place = .out ∧
    bankOf s x.frame = some b ∧
    (x.frame.poison = false ∨ x.void = true) ∧
    stitchOn s b x.frame = false ∧
    stitchLingers s x.frame.source = true) ∧
    -- 5_1
    (∃ (id : Nat) (x : Flight) (s : State),
    flightAt s id = some x ∧
    x.place = .out ∧
    x.void = false ∧
    x.frame.poison = true) ∧
    -- 5_2
    (∃ (id : Nat) (x : Flight) (s : State),
    flightAt s id = some x ∧
    x.place = .out ∧
    x.void = false ∧
    x.frame.poison = false ∧
    bankOf s x.frame = none) ∧
    -- 6_1
    (∃ (id : Nat) (x : Flight) (s : State),
    flightAt s id = some x ∧
    x.place = .stitch ∧
    x.at_ + 8 * us ≤ s.mono ∧
    (let src := x.frame.source;
    let a := seqAhead (releasePoint s src) x.frame.seq;
    a < 2 ^ 19)) ∧
    -- 6_2
    (∃ (id : Nat) (x : Flight) (s : State),
    flightAt s id = some x ∧
    x.place = .stitch ∧
    x.at_ + 8 * us ≤ s.mono ∧
    (let src := x.frame.source;
    let a := seqAhead (releasePoint s src) x.frame.seq;
    2 ^ 19 ≤ a)) ∧
    -- 7
    (∃ (id : Nat) (room : Bool) (x : Flight) (cells : List Nat) (t : State) (s : State),
    flightAt s id = some x ∧
    x.place = .released ∧
    mayRunAhead s x = true ∧
    firstReleased s id x = true ∧
    x.frame.poison = false ∧
    x.frame.cells = [] ∧
    x.act.mirrors = [] ∧
    moveOpen s x.frame 1 = true ∧
    destKind x.dest < 4 ∧
    takeCells 0 (dataCells x.frame.len) (frameIn 0x46 x.frame.world x.frame.len (endFlight id (epochOut x.frame.epoch (leaveVersion id s)))) = some (cells, t)) ∧
    -- 8_1
    (∃ (side : Nat) (i : Nat) (s : State),
    side < 2 ∧
    i < nodeCount side 0 ∧
    rootReady s ⟨side, 0, i⟩ = false) ∧
    -- 8_2
    (∃ (side : Nat) (i : Nat) (s : State) (path : _) (t : _),
    side < 2 ∧
    i < nodeCount side 0 ∧
    rootReady s ⟨side, 0, i⟩ = true ∧
    descend 4 ⟨side, 0, i⟩ (livePaths (dropAllHeads ⟨side, 0, i⟩ s) ⟨side, 0, i⟩) (dropAllHeads ⟨side, 0, i⟩ s) = some (path, t)) :=
  ⟨⟨3, { world := 0x100, vid := 1, mac := 2, dest := 0x10000000 }, [], st_FramesLearnOrderAndQueue_1_1_s, by decide +kernel⟩,
  ⟨3, { world := 0x100, vid := 1, mac := 2, dest := 0x10000000 }, [], st_FramesLearnOrderAndQueue_1_2_s, by decide +kernel⟩,
  ⟨3, { up with mono := 4 * 30 * sec }, by decide +kernel⟩,
  ⟨3, { world := 0x100, vid := 1, mac := 2, static := false, age := 0, dest := 0x10000000 }, { world := 0x100, vid := 1, mac := 2, static := false, age := 0, dest := 0x10000000 }, [], st_FramesLearnOrderAndQueue_3_s, by decide +kernel⟩,
  ⟨5, { frame := frame0, place := .out }, {}, st_FramesLearnOrderAndQueue_4_1_s, by decide +kernel⟩,
  ⟨5, { frame := { frame0 with seq := 1 }, place := .out }, {}, st_FramesLearnOrderAndQueue_4_2_next_s, by decide +kernel⟩,
  ⟨5, { frame := { frame0 with seq := 0x7FFFF }, place := .out }, {}, st_FramesLearnOrderAndQueue_4_2_far_s, by decide +kernel⟩,
  ⟨5, { frame := frame0, place := .out }, { stitch := [(64, false)] }, st_FramesLearnOrderAndQueue_4_3_s, by decide +kernel⟩,
  ⟨5, { frame := frame0, place := .out }, { stitch := [(64, false)] }, { st_FramesLearnOrderAndQueue_4_3_s with epoch := { previous := some 7 } }, by decide +kernel⟩,
  ⟨5, { frame := { frame0 with poison := true }, place := .out }, { up with pkt := { flights := [(5, { frame := { frame0 with poison := true }, place := .out })] } }, by decide +kernel⟩,
  ⟨5, { frame := { frame0 with epoch := 7 }, place := .out }, { up with pkt := { flights := [(5, { frame := { frame0 with epoch := 7 }, place := .out })] } }, by decide +kernel⟩,
  ⟨5, { frame := frame0, place := .stitch }, st_FramesLearnOrderAndQueue_5_s, by decide +kernel⟩,
  ⟨5, { frame := { frame0 with seq := 0xFFFFF }, place := .stitch }, { up with pkt := { flights := [(5, { frame := { frame0 with seq := 0xFFFFF }, place := .stitch })], next := 6 }, mono := 8 * us }, by decide +kernel⟩,
  ⟨5, true, { frame := frame0, place := .released, dest := 0x10000000 }, (((takeCells 0 (dataCells 64) (frameIn 0x46 0x100 64 (endFlight 5 (epochOut 0 (leaveVersion 5 st_FramesLearnOrderAndQueue_6_s))))).getD ([], up)).1), st_FramesLearnOrderAndQueue_6_t, st_FramesLearnOrderAndQueue_6_s, by decide +kernel, by decide +kernel, by decide +kernel, by decide +kernel, by decide +kernel, by decide +kernel, by decide +kernel, by decide +kernel, by decide +kernel, some_pair _ (by decide +kernel)⟩,
  ⟨1, 16, st_FramesLearnOrderAndQueue_7_1_s, by decide +kernel⟩,
  ⟨0, 0, st_FramesLearnOrderAndQueue_7_2_s, (((descend 4 ⟨0, 0, 0⟩ (livePaths (dropAllHeads ⟨0, 0, 0⟩ st_FramesLearnOrderAndQueue_7_2_s) ⟨0, 0, 0⟩) (dropAllHeads ⟨0, 0, 0⟩ st_FramesLearnOrderAndQueue_7_2_s)).getD ([], up)).1), st_FramesLearnOrderAndQueue_7_2_t, by decide +kernel, by decide +kernel, by decide +kernel, some_pair _ (by decide +kernel)⟩⟩

def st_CipherCommandsTakeEffect_3_s : State :=
  { up with cipher := { reserve := [(159, { rate := 100 })], channels := [] } }

def st_CipherCommandsTakeEffect_4_s : State :=
  { up with cipher := { reserve := [(159, { rate := 100 })], channels := [(0, { point := 79, rx := true, suite := 2, world := 0x100 })] } }

def st_CipherCommandsTakeEffect_5_s : State :=
  { up with cipher := { channels := [(3, { point := 79, rx := true, suite := 2, world := 0x100 })], assocs := [(15, { slot := 5 })] }, vault := { slots := [(5, engineSlot)] } }

def st_CipherCommandsTakeEffect_6_s : State :=
  { up with cipher := { channels := [(3, { point := 79, rx := true, suite := 2, world := 0x100 })], assocs := [(15, { slot := 5 })] }, vault := { slots := [(5, engineSlot)] } }

theorem witness_CipherCommandsTakeEffect :
    -- 1
    (∃ (p : Packet) (s : State),
    accepts opEncReserve p s = true ∧
    (let c := (ctxOf opEncReserve p (fetched opEncReserve p s));
    let f := (fetched opEncReserve p s);
    (fld (c.w 0) 7 0 ≤ 79 ∧ (bit (c.w 0) 30 = true → fld (c.w 0) 31 31 = 1) ∧ (fld (c.w 0) 7 0 < 16 → uplinkRate f (fld (c.w 0) 7 0) ≠ 0) ∧ (fld (c.w 1) 15 0 = 0 → pointHasChannel f (fld (c.w 0) 7 0) (decide (fld (c.w 0) 31 31 = 1)) = false) ∧ reservedBut f (fld (c.w 0) 31 31) (fld (c.w 0) 7 0) + reservedRate f (fld (c.w 0) 7 0) { rate := fld (c.w 1) 15 0, cut := bit (c.w 0) 30 } ≤ 32768))) ∧
    -- 2
    (∃ (p : Packet) (s : State),
    accepts opScConfig p s = true ∧
    (let c := (ctxOf opScConfig p (fetched opScConfig p s));
    let f := (fetched opScConfig p s);
    (worldCode (fld (c.w 1) 31 16) = true ∧ (c.world = 0x0100 ∨ (fld (c.w 1) 31 16 = c.world ∧ ∀ o, mget f.cipher.channels (fld (c.w 0) 29 16) = some o → o.world = c.world)) ∧ bit (c.w 0) 6 = false ∧ fld (c.w 0) 15 8 ≤ 79 ∧ secured f (fld (c.w 0) 15 8) (b2n (bit (c.w 0) 7)) = true ∧ fld (c.w 0) 3 0 ≤ 3 ∧ fld (c.w 0) 5 4 ≠ 3 ∧ fld (c.w 1) 14 13 ≠ 3 ∧ (2 ≤ fld (c.w 0) 3 0 → (c.w 7).toNat < 2 ^ 30)))) ∧
    -- 3
    (∃ (p : Packet) (s : State),
    accepts opScConfig p s = true ∧
    (let c := (ctxOf opScConfig p (fetched opScConfig p s));
    let f := (fetched opScConfig p s);
    (worldCode (fld (c.w 1) 31 16) = true ∧ (c.world = 0x0100 ∨ fld (c.w 1) 31 16 = c.world) ∧ bit (c.w 0) 6 = true ∧ fld (c.w 0) 15 8 ≤ 79 ∧ secured f (fld (c.w 0) 15 8) (b2n (bit (c.w 0) 7)) = true ∧ fld (c.w 0) 3 0 ≤ 3 ∧ fld (c.w 0) 5 4 ≠ 3 ∧ fld (c.w 1) 14 13 ≠ 3 ∧ (2 ≤ fld (c.w 0) 3 0 → (c.w 7).toNat < 2 ^ 30) ∧ mget f.cipher.channels (fld (c.w 0) 29 16) = none ∧ channelClash f (fld (c.w 0) 29 16) (channelOf c) = false))) ∧
    -- 4
    (∃ (o : Channel) (p : Packet) (s : State),
    accepts opScConfig p s = true ∧
    (let c := (ctxOf opScConfig p (fetched opScConfig p s));
    let f := (fetched opScConfig p s);
    (worldCode (fld (c.w 1) 31 16) = true ∧ (c.world = 0x0100 ∨ fld (c.w 1) 31 16 = c.world) ∧ bit (c.w 0) 6 = true ∧ fld (c.w 0) 15 8 ≤ 79 ∧ secured f (fld (c.w 0) 15 8) (b2n (bit (c.w 0) 7)) = true ∧ fld (c.w 0) 3 0 ≤ 3 ∧ fld (c.w 0) 5 4 ≠ 3 ∧ fld (c.w 1) 14 13 ≠ 3 ∧ (2 ≤ fld (c.w 0) 3 0 → (c.w 7).toNat < 2 ^ 30) ∧ mget f.cipher.channels (fld (c.w 0) 29 16) = some o ∧ sameFixed o (channelOf c) = true))) ∧
    -- 5
    (∃ (x : Channel) (p : Packet) (s : State),
    accepts opSaConfig p s = true ∧
    (let c := (ctxOf opSaConfig p (fetched opSaConfig p s));
    let f := (fetched opSaConfig p s);
    (mget f.cipher.channels (fld (c.w 0) 29 16) = some x ∧ (c.world = 0x0100 ∨ x.world = c.world) ∧ mhas f.cipher.assocs (fld (c.w 0) 29 16 * 4 + fld (c.w 0) 1 0) = true ∧ bit (c.w 0) 4 = true ∧ (x.rx = true ∨ channelAn x ≠ fld (c.w 0) 1 0)))) ∧
    -- 6
    (∃ (x : Channel) (p : Packet) (s : State),
    accepts opSaConfig p s = true ∧
    (let c := (ctxOf opSaConfig p (fetched opSaConfig p s));
    let f := (fetched opSaConfig p s);
    (mget f.cipher.channels (fld (c.w 0) 29 16) = some x ∧ (c.world = 0x0100 ∨ x.world = c.world) ∧ bit (c.w 0) 4 = false ∧ isPonSlot (fld (c.w 1) 16 0) = false ∧ (slotAt f (fld (c.w 1) 16 0)).valid = true ∧ permits f (slotAt f (fld (c.w 1) 16 0)).attr engineBit x.world (some (if x.rx then useDecrypt else useEncrypt)) = true ∧ ((x.suite = 1 ∨ x.suite = 3) → (slotAt f (fld (c.w 1) 16 0)).attr.ktype ≠ 0) ∧ join64 (c.w 3) (c.w 4) ≠ 0 ∧ (isXpn x.suite = false → c.w 4 = 0) ∧ (x.rx = true ∨ channelAn x ≠ fld (c.w 0) 1 0 ∨ mhas f.cipher.assocs (fld (c.w 0) 29 16 * 4 + fld (c.w 0) 1 0) = false)))) ∧
    -- 7
    (∃ (x : Channel) (a : Assoc) (p : Packet) (s : State),
    a.exhausted = false ∧
    accepts opSaActivate p s = true ∧
    (let c := (ctxOf opSaActivate p (fetched opSaActivate p s));
    let f := (fetched opSaActivate p s);
    (mget f.cipher.channels (fld (c.w 0) 29 16) = some x ∧ (c.world = 0x0100 ∨ x.world = c.world) ∧ mget f.cipher.assocs (fld (c.w 0) 29 16 * 4 + fld (c.w 0) 1 0) = some a))) :=
  ⟨⟨(pk [0xC000004F, 32768]), up, by decide +kernel⟩,
  ⟨(pk [0x3FFF4F80, 0x01000000, 0, 0, 0, 0, 0, 0]), st_CipherCommandsTakeEffect_3_s, by refine ⟨?_, ?_, ?_, ?_, ?_, ?_, ?_, ?_, ?_, ?_⟩ <;> decide +kernel⟩,
  ⟨(pk [0x3FFF4FD3, 0x01000000, 0, 0, 0, 1, 2, 0x3FFFFFFF]), st_CipherCommandsTakeEffect_3_s, by decide +kernel⟩,
  ⟨{ point := 79, rx := true, suite := 2, world := 0x100 }, ⟨(pk [0x00004FC2, 0x01000000, 0, 0, 0, 0, 0, 0]), st_CipherCommandsTakeEffect_4_s, by decide +kernel⟩⟩,
  ⟨{ point := 79, rx := true, suite := 2, world := 0x100 }, ⟨(pk [0x00030013, 0, 0, 0, 0, 0, 0, 0, 0, 0, 0, 0, 0, 0, 0, 0]), st_CipherCommandsTakeEffect_5_s, by decide +kernel⟩⟩,
  ⟨{ point := 79, rx := true, suite := 2, world := 0x100 }, ⟨(pk [0x00030003, 5, 0, 0, 0x80000000, 0, 0, 0, 0, 0, 0, 0, 0, 0, 0, 0]), st_CipherCommandsTakeEffect_6_s, by decide +kernel⟩⟩,
  ⟨{ point := 79, rx := true, suite := 2, world := 0x100 }, { slot := 5 }, ⟨(pk [0x00030003, 0, 0]), st_CipherCommandsTakeEffect_5_s, by decide +kernel⟩⟩⟩

def st_MacsecReceivesJudgesAndSends_1_s : State :=
  { up with pkt := { flights := [(5, { frame := frame0, place := .array })], next := 6 }, cipher := {}, vault := { slots := [(5, engineSlot)] } }

def st_MacsecReceivesJudgesAndSends_2_s : State :=
  { up with pkt := { flights := [(5, { frame := frame0, place := .array })], next := 6 }, cipher := { channels := [(3, { point := 0, rx := true, suite := 2, world := 0x100, implicit := true })] }, vault := { slots := [(5, engineSlot)] } }

def st_MacsecReceivesJudgesAndSends_3_s : State :=
  { up with pkt := { flights := [(5, { frame := { frame0 with bytes := List.replicate 12 0 ++ [0x88, 0xE5, 0x80] ++ List.replicate 72 0 }, place := .array })], next := 6 }, cipher := {}, vault := { slots := [(5, engineSlot)] } }

def st_MacsecReceivesJudgesAndSends_4_1_s : State :=
  { up with pkt := { flights := [(5, { frame := { frame0 with bytes := List.replicate 12 0 ++ [0x88, 0xE5, 0x20, 0, 0, 0, 0, 1, 0, 0, 0, 1, 0, 0, 0, 0] ++ List.replicate 72 0 }, place := .array })], next := 6 }, cipher := { channels := [(3, { point := 0, rx := true, suite := 0, world := 0x100, sciHi := 1 })], assocs := [(12, { slot := 5, nextPn := 2 })] }, vault := { slots := [(5, engineSlot)] } }

def st_MacsecReceivesJudgesAndSends_4_2_s : State :=
  { up with pkt := { flights := [(5, { frame := { frame0 with bytes := List.replicate 12 0 ++ [0x88, 0xE5, 0x20, 0, 0, 0, 0, 1, 0, 0, 0, 1, 0, 0, 0, 0] ++ List.replicate 72 0 }, place := .array })], next := 6 }, cipher := { channels := [(3, { point := 0, rx := true, suite := 0, world := 0x100, sciHi := 1 })], assocs := [(12, { slot := 5, nextPn := 1 })] }, vault := { slots := [(5, engineSlot)] } }

def st_MacsecReceivesJudgesAndSends_5_1_s : State :=
  { up with cipher := { inPipes := [{ traffic := .rxHeld, slot := 5, gen := 0, at_ := 0, chan := 3, world := 0x100, frame := 5, validate := 2, valid := true, cbit := true }] } }

def st_MacsecReceivesJudgesAndSends_5_2_s : State :=
  { up with cipher := { inPipes := [{ traffic := .rxHeld, slot := 5, gen := 0, at_ := 0, chan := 3, world := 0x100, frame := 5, validate := 2, valid := false, cbit := true }] } }

def st_MacsecReceivesJudgesAndSends_5_3_s : State :=
  { up with cipher := { inPipes := [{ traffic := .rxHeld, slot := 5, gen := 0, at_ := 0, chan := 3, world := 0x100, frame := 5, validate := 1, valid := false, cbit := false }] } }

def st_MacsecReceivesJudgesAndSends_6_1_s : State :=
  { up with tm := { egress := [(79, [frame0])] }, cipher := { channels := [], assocs := [] }, vault := { slots := [(5, engineSlot)] } }

def st_MacsecReceivesJudgesAndSends_6_2_s : State :=
  { up with tm := { egress := [(79, [frame0])] }, cipher := { channels := [(3, { point := 79, rx := false, suite := 0, world := 0x100 })], assocs := [] }, vault := { slots := [(5, engineSlot)] } }

def st_MacsecReceivesJudgesAndSends_6_3_first_s : State :=
  { up with tm := { egress := [(79, [frame0])] }, cipher := { channels := [(3, { point := 79, rx := false, suite := 0, world := 0x100 })], assocs := [(12, { slot := 5, nextPn := 1 })] }, vault := { slots := [(5, engineSlot)] } }

def st_MacsecReceivesJudgesAndSends_6_3_last_s : State :=
  { up with tm := { egress := [(79, [frame0])] }, cipher := { channels := [(3, { point := 79, rx := false, suite := 0, world := 0x100 })], assocs := [(12, { slot := 5, nextPn := 0xFFFFFFFE })] }, vault := { slots := [(5, engineSlot)] } }

theorem witness_MacsecReceivesJudgesAndSends :
    -- 1_1
    (∃ (id : Nat) (p : Nat) (x : Flight) (s : State),
    flightAt s id = some x ∧
    x.place = .array ∧
    admits s 0 = true ∧
    rxPoint x.frame.source x.frame.card = some p ∧
    x.frame.poison = true) ∧
    -- 1_2
    (∃ (id : Nat) (p : Nat) (x : Flight) (s : State),
    flightAt s id = some x ∧
    x.place = .array ∧
    admits s 0 = true ∧
    rxPoint x.frame.source x.frame.card = some p ∧
    x.frame.poison = false ∧
    bankOf s x.frame = none) ∧
    -- 2
    (∃ (id : Nat) (p : Nat) (x : Flight) (s : State),
    flightAt s id = some x ∧
    x.place = .array ∧
    admits s 0 = true ∧
    rxPoint x.frame.source x.frame.card = some p ∧
    x.frame.poison = false ∧
    (bankOf s x.frame).isSome = true ∧
    etherType x.frame.bytes ≠ 0x88E5) ∧
    -- 3
    (∃ (id : Nat) (p : Nat) (x : Flight) (s : State),
    flightAt s id = some x ∧
    x.place = .array ∧
    admits s 0 = true ∧
    rxPoint x.frame.source x.frame.card = some p ∧
    x.frame.poison = false ∧
    (bankOf s x.frame).isSome = true ∧
    etherType x.frame.bytes = 0x88E5 ∧
    badTag x.frame.bytes = true) ∧
    -- 4_1
    (∃ (id : Nat) (p : Nat) (i : Nat) (x : Flight) (c : Channel) (a : Assoc) (s : State),
    flightAt s id = some x ∧
    x.place = .array ∧
    admits s 0 = true ∧
    rxPoint x.frame.source x.frame.card = some p ∧
    x.frame.poison = false ∧
    (bankOf s x.frame).isSome = true ∧
    etherType x.frame.bytes = 0x88E5 ∧
    badTag x.frame.bytes = false ∧
    (let v := rxView s x.frame;
    rxChannel v p x.frame.bytes = some (i, c) ∧
    (let an := (x.frame.bytes.getD 14 0).toNat % 4;
    mget v.cipher.assocs (i * 4 + an) = some a ∧
    engineUse s a.slot c.world useDecrypt (wideSuite c.suite) = true ∧
    c.validate ≠ 0 ∧
    c.replay = true ∧
    framePn c a x.frame.bytes < lowestPn c a an))) ∧
    -- 4_2
    (∃ (id : Nat) (p : Nat) (i : Nat) (x : Flight) (c : Channel) (a : Assoc) (s : State),
    flightAt s id = some x ∧
    x.place = .array ∧
    admits s 0 = true ∧
    rxPoint x.frame.source x.frame.card = some p ∧
    x.frame.poison = false ∧
    (bankOf s x.frame).isSome = true ∧
    etherType x.frame.bytes = 0x88E5 ∧
    badTag x.frame.bytes = false ∧
    (let v := rxView s x.frame;
    rxChannel v p x.frame.bytes = some (i, c) ∧
    (let an := (x.frame.bytes.getD 14 0).toNat % 4;
    mget v.cipher.assocs (i * 4 + an) = some a ∧
    engineUse s a.slot c.world useDecrypt (wideSuite c.suite) = true ∧
    (c.validate = 0 ∨ c.replay = false ∨ lowestPn c a an ≤ framePn c a x.frame.bytes) ∧
    (reserveAt v p 1).cut = false))) ∧
    -- 5_1
    (∃ (id : Nat) (y : Admitted) (s : State),
    s.cipher.inPipes.find? (fun a => isRx a && a.frame = id) = some y ∧
    y.validate ≠ 0 ∧
    y.valid = true) ∧
    -- 5_2
    (∃ (id : Nat) (y : Admitted) (s : State),
    s.cipher.inPipes.find? (fun a => isRx a && a.frame = id) = some y ∧
    y.validate ≠ 0 ∧
    y.valid = false ∧
    (y.validate = 2 ∨ y.cbit = true)) ∧
    -- 5_3
    (∃ (id : Nat) (y : Admitted) (s : State),
    s.cipher.inPipes.find? (fun a => isRx a && a.frame = id) = some y ∧
    y.validate = 1 ∧
    y.valid = false ∧
    y.cbit = false) ∧
    -- 6_1
    (∃ (p : Nat) (f : Frame) (rest : List Frame) (s : State),
    p < 80 ∧
    mgetD s.tm.egress p [] = f :: rest ∧
    admits s 0 = true ∧
    f.poison = true) ∧
    -- 6_2
    (∃ (p : Nat) (f : Frame) (rest : List Frame) (s : State),
    p < 80 ∧
    mgetD s.tm.egress p [] = f :: rest ∧
    admits s 0 = true ∧
    (let s1 := { s with tm := { s.tm with egress := mset s.tm.egress p rest } };
    f.poison = false ∧
    txChannel s1 p f.world = none)) ∧
    -- 6_3
    (∃ (p : Nat) (f : Frame) (rest : List Frame) (s : State) (i : _) (x : _),
    p < 80 ∧
    mgetD s.tm.egress p [] = f :: rest ∧
    admits s 0 = true ∧
    (let s1 := { s with tm := { s.tm with egress := mset s.tm.egress p rest } };
    f.poison = false ∧
    txChannel s1 p f.world = some (i, x) ∧
    mget s.cipher.assocs (i * 4 + channelAn x) = none)) ∧
    -- 6_4
    (∃ (p : Nat) (f : Frame) (rest : List Frame) (s : State) (i : _) (x : _) (a : _),
    p < 80 ∧
    mgetD s.tm.egress p [] = f :: rest ∧
    admits s 0 = true ∧
    (let s1 := { s with tm := { s.tm with egress := mset s.tm.egress p rest } };
    f.poison = false ∧
    txChannel s1 p f.world = some (i, x) ∧
    mget s.cipher.assocs (i * 4 + channelAn x) = some a ∧
    a.exhausted = false ∧
    engineUse s a.slot x.world useEncrypt (wideSuite x.suite) = true ∧
    a.nextPn < lastPn x.suite)) :=
  ⟨⟨5, 0, { frame := { frame0 with poison := true }, place := .array }, { up with pkt := { flights := [(5, { frame := { frame0 with poison := true }, place := .array })] } }, by decide +kernel⟩,
  ⟨5, 0, { frame := { frame0 with epoch := 7 }, place := .array }, { up with pkt := { flights := [(5, { frame := { frame0 with epoch := 7 }, place := .array })] } }, by decide +kernel⟩,
  ⟨5, 0, { frame := frame0, place := .array }, st_MacsecReceivesJudgesAndSends_1_s, by decide +kernel⟩,
  ⟨5, 0, { frame := { frame0 with bytes := List.replicate 12 0 ++ [0x88, 0xE5, 0x80] ++ List.replicate 72 0 }, place := .array }, st_MacsecReceivesJudgesAndSends_3_s, by decide +kernel⟩,
  ⟨5, 0, 3, { frame := { frame0 with bytes := List.replicate 12 0 ++ [0x88, 0xE5, 0x20, 0, 0, 0, 0, 1, 0, 0, 0, 1, 0, 0, 0, 0] ++ List.replicate 72 0 }, place := .array }, { point := 0, rx := true, suite := 0, world := 0x100, sciHi := 1 }, { slot := 5, nextPn := 2 }, st_MacsecReceivesJudgesAndSends_4_1_s, by decide +kernel⟩,
  ⟨5, 0, 3, { frame := { frame0 with bytes := List.replicate 12 0 ++ [0x88, 0xE5, 0x20, 0, 0, 0, 0, 1, 0, 0, 0, 1, 0, 0, 0, 0] ++ List.replicate 72 0 }, place := .array }, { point := 0, rx := true, suite := 0, world := 0x100, sciHi := 1 }, { slot := 5, nextPn := 1 }, st_MacsecReceivesJudgesAndSends_4_2_s, by decide +kernel⟩,
  ⟨5, { traffic := .rxHeld, slot := 5, gen := 0, at_ := 0, chan := 3, world := 0x100, frame := 5, validate := 2, valid := true, cbit := true }, st_MacsecReceivesJudgesAndSends_5_1_s, by decide +kernel⟩,
  ⟨5, { traffic := .rxHeld, slot := 5, gen := 0, at_ := 0, chan := 3, world := 0x100, frame := 5, validate := 2, valid := false, cbit := true }, st_MacsecReceivesJudgesAndSends_5_2_s, by decide +kernel⟩,
  ⟨5, { traffic := .rxHeld, slot := 5, gen := 0, at_ := 0, chan := 3, world := 0x100, frame := 5, validate := 1, valid := false, cbit := false }, st_MacsecReceivesJudgesAndSends_5_3_s, by decide +kernel⟩,
  ⟨79, { frame0 with poison := true }, [], { up with tm := { egress := [(79, [{ frame0 with poison := true }])] } }, by decide +kernel⟩,
  ⟨79, frame0, [], st_MacsecReceivesJudgesAndSends_6_1_s, by decide +kernel⟩,
  ⟨79, frame0, [], st_MacsecReceivesJudgesAndSends_6_2_s, 3, { point := 79, rx := false, suite := 0, world := 0x100 }, by decide +kernel⟩,
  ⟨79, frame0, [], st_MacsecReceivesJudgesAndSends_6_3_first_s, 3, { point := 79, rx := false, suite := 0, world := 0x100 }, { slot := 5, nextPn := 1 }, by decide +kernel⟩⟩

def st_SlotCommandsTakeEffect_2_s : State :=
  { up with vault := { slots := [(1, { attr := { life := 2, masters := 3, usage := 12 }, valid := true, body := List.replicate 32 1 })] } }

def st_SlotCommandsTakeEffect_4_s : State :=
  { up with vault := { slots := [(1, { attr := { life := 2, masters := 3, usage := 12 }, valid := true, body := List.replicate 32 1 })] } }

def st_SlotCommandsTakeEffect_5_s : State :=
  { up with vault := { slots := [(1, { attr := { life := 2, masters := 3, usage := 12 }, valid := true, body := List.replicate 32 1 })] } }

def st_SlotCommandsTakeEffect_6_s : State :=
  { up with vault := { slots := [(1, { attr := { life := 2, masters := 3, usage := 12 }, valid := true, body := List.replicate 32 1 }), (2, { attr := { life := 2, masters := 3, usage := 12 }, valid := true, body := List.replicate 32 1 })] } }

def st_SlotCommandsTakeEffect_7_general_s : State :=
  { up with vault := { slots := [(1, { attr := { life := 2, masters := 3, usage := 12 }, valid := true, body := List.replicate 32 1 })] } }

def st_SlotCommandsTakeEffect_9_s : State :=
  { up with vault := { slots := [(0x20000, { attr := { world := 0x200, ktype := 2 }, valid := true, body := List.replicate 97 0 })] } }

theorem witness_SlotCommandsTakeEffect :
    -- 1
    (∃ (p : Packet) (s : State),
    (let plain (c : Ctx) (_ : State) : Prop := fld (c.w 4) 15 8 ≤ 16 ∧ fld (c.w 4) 7 0 ≤ 64 ∧ worldCode (attrWords c).world = true ∧ (attrWords c).ktype ≠ 3;
    let target (c : Ctx) (f : State) : Prop := inRange (fld (c.w 0) 17 0) = true ∧ isControl (fld (c.w 0) 17 0) = false ∧ isPonSlot (fld (c.w 0) 17 0) = false ∧ (attrWords c).ktype ≠ 2 ∧ targetGround c f (fld (c.w 0) 17 0) (attrWords c) = none ∧ persistFull f (fld (c.w 0) 17 0) (attrWords c).persist = false ∧ mustWait f (fld (c.w 0) 17 0) = false ∧ lands f (fld (c.w 0) 17 0) (attrWords c) c.pkt.env.norOk = true;
    accepts opKeyGenerate p s = true ∧
    (let c := (ctxOf opKeyGenerate p (fetched opKeyGenerate p s));
    let f := (fetched opKeyGenerate p s);
    plain c f ∧ target c f ∧ fld (c.w 0) 31 29 = 0))) ∧
    -- 2
    (∃ (p : Packet) (s : State),
    (let plain (c : Ctx) (_ : State) : Prop := fld (c.w 4) 15 8 ≤ 16 ∧ fld (c.w 4) 7 0 ≤ 64 ∧ worldCode (attrWords c).world = true ∧ (attrWords c).ktype ≠ 3;
    let target (c : Ctx) (f : State) : Prop := inRange (fld (c.w 0) 17 0) = true ∧ isControl (fld (c.w 0) 17 0) = false ∧ isPonSlot (fld (c.w 0) 17 0) = false ∧ (attrWords c).ktype ≠ 2 ∧ targetGround c f (fld (c.w 0) 17 0) (attrWords c) = none ∧ persistFull f (fld (c.w 0) 17 0) (attrWords c).persist = false ∧ mustWait f (fld (c.w 0) 17 0) = false ∧ lands f (fld (c.w 0) 17 0) (attrWords c) c.pkt.env.norOk = true;
    let parent (c : Ctx) (f : State) (use : Nat) : Prop := inRange (fld (c.w 3) 17 0) = true ∧ isPonSlot (fld (c.w 3) 17 0) = false ∧ isWorldS (fld (c.w 3) 17 0) = false ∧ mayUse f (fld (c.w 3) 17 0) (masterBit c.master) c.world use = true ∧ (slotAt f (fld (c.w 3) 17 0)).attr.world = (attrWords c).world;
    accepts opKeyGenerate p s = true ∧
    (let c := (ctxOf opKeyGenerate p (fetched opKeyGenerate p s));
    let f := (fetched opKeyGenerate p s);
    plain c f ∧ target c f ∧ parent c f useDerive ∧ fld (c.w 0) 31 29 = 1))) ∧
    -- 3
    (∃ (p : Packet) (s : State),
    (let plain (c : Ctx) (_ : State) : Prop := fld (c.w 4) 15 8 ≤ 16 ∧ fld (c.w 4) 7 0 ≤ 64 ∧ worldCode (attrWords c).world = true ∧ (attrWords c).ktype ≠ 3;
    accepts opKeyGenerate p s = true ∧
    (let c := (ctxOf opKeyGenerate p (fetched opKeyGenerate p s));
    let f := (fetched opKeyGenerate p s);
    (plain c f ∧ c.master = .pf ∧ fld (c.w 0) 31 29 = 2 ∧ (c.world = 0x0100 ∨ (slotAt f (fld (c.w 0) 17 0)).attr.world = c.world ∧ (attrWords c).world = c.world) ∧ lands f (fld (c.w 0) 17 0) (attrWords c) c.pkt.env.norOk = true ∧ inRange (fld (c.w 0) 17 0) = true ∧ isControl (fld (c.w 0) 17 0) = false ∧ (slotAt f (fld (c.w 0) 17 0)).valid = false ∧ persistFull f (fld (c.w 0) 17 0) (attrWords c).persist = false ∧ opsWait f = false)))) ∧
    -- 4
    (∃ (p : Packet) (s : State),
    (let plain (c : Ctx) (_ : State) : Prop := fld (c.w 4) 15 8 ≤ 16 ∧ fld (c.w 4) 7 0 ≤ 64 ∧ worldCode (attrWords c).world = true ∧ (attrWords c).ktype ≠ 3;
    let target (c : Ctx) (f : State) : Prop := inRange (fld (c.w 0) 17 0) = true ∧ isControl (fld (c.w 0) 17 0) = false ∧ isPonSlot (fld (c.w 0) 17 0) = false ∧ (attrWords c).ktype ≠ 2 ∧ targetGround c f (fld (c.w 0) 17 0) (attrWords c) = none ∧ persistFull f (fld (c.w 0) 17 0) (attrWords c).persist = false ∧ mustWait f (fld (c.w 0) 17 0) = false ∧ lands f (fld (c.w 0) 17 0) (attrWords c) c.pkt.env.norOk = true;
    let parent (c : Ctx) (f : State) (use : Nat) : Prop := inRange (fld (c.w 3) 17 0) = true ∧ isPonSlot (fld (c.w 3) 17 0) = false ∧ isWorldS (fld (c.w 3) 17 0) = false ∧ mayUse f (fld (c.w 3) 17 0) (masterBit c.master) c.world use = true ∧ (slotAt f (fld (c.w 3) 17 0)).attr.world = (attrWords c).world;
    accepts opKeyGenerate p s = true ∧
    (let c := (ctxOf opKeyGenerate p (fetched opKeyGenerate p s));
    let f := (fetched opKeyGenerate p s);
    plain c f ∧ target c f ∧ parent c f useWrap ∧ fld (c.w 0) 31 29 = 3 ∧ fld (c.w 4) 7 0 = (if (attrWords c).ktype = 0 then 24 else 40)))) ∧
    -- 5
    (∃ (p : Packet) (s : State),
    (let plain (c : Ctx) (_ : State) : Prop := fld (c.w 4) 15 8 ≤ 16 ∧ fld (c.w 4) 7 0 ≤ 64 ∧ worldCode (attrWords c).world = true ∧ (attrWords c).ktype ≠ 3;
    let parent (c : Ctx) (f : State) (use : Nat) : Prop := inRange (fld (c.w 3) 17 0) = true ∧ isPonSlot (fld (c.w 3) 17 0) = false ∧ isWorldS (fld (c.w 3) 17 0) = false ∧ mayUse f (fld (c.w 3) 17 0) (masterBit c.master) c.world use = true ∧ (slotAt f (fld (c.w 3) 17 0)).attr.world = (attrWords c).world;
    accepts opKeyGenerate p s = true ∧
    (let c := (ctxOf opKeyGenerate p (fetched opKeyGenerate p s));
    let f := (fetched opKeyGenerate p s);
    plain c f ∧ (attrWords c).ktype ≠ 2 ∧ parent c f useDerive ∧ fld (c.w 0) 31 29 = 4 ∧ opsWait f = false))) ∧
    -- 6
    (∃ (p : Packet) (s : State),
    accepts opKeyWrap p s = true ∧
    (let c := (ctxOf opKeyWrap p (fetched opKeyWrap p s));
    let f := (fetched opKeyWrap p s);
    inRange (fld (c.w 0) 17 0) = true ∧ isPonSlot (fld (c.w 0) 17 0) = false ∧ isWorldS (fld (c.w 0) 17 0) = false ∧ inRange (fld (c.w 1) 17 0) = true ∧ isPonSlot (fld (c.w 1) 17 0) = false ∧ isWorldS (fld (c.w 1) 17 0) = false ∧ mayUse f (fld (c.w 0) 17 0) (masterBit c.master) c.world useWrap = true ∧ mayUse f (fld (c.w 1) 17 0) (masterBit c.master) c.world useWrap = true ∧ (slotAt f (fld (c.w 0) 17 0)).attr.neverExport = false ∧ (slotAt f (fld (c.w 0) 17 0)).attr.ktype ≠ 2 ∧ (slotAt f (fld (c.w 0) 17 0)).attr.world = (slotAt f (fld (c.w 1) 17 0)).attr.world ∧ opsWait f = false)) ∧
    -- 7
    (∃ (p : Packet) (s : State),
    accepts opSlotErase p s = true ∧
    (let c := (ctxOf opSlotErase p (fetched opSlotErase p s));
    let f := (fetched opSlotErase p s);
    (inRange (fld (c.w 0) 17 0) = true ∧ isControl (fld (c.w 0) 17 0) = false ∧ opsWait f = false ∧ ((c.master = .pf ∧ (c.world = 0x0100 ∨ (slotAt f (fld (c.w 0) 17 0)).attr.world = c.world)) ∨ (bit (c.w 0) 31 = false ∧ (slotAt f (fld (c.w 0) 17 0)).attr.world = c.world ∧ (slotAt f (fld (c.w 0) 17 0)).attr.masters.testBit 1 = true))))) ∧
    -- 8
    (∃ (p : Packet) (s : State),
    accepts opSlotInfo p s = true ∧
    (let c := (ctxOf opSlotInfo p (fetched opSlotInfo p s));
    let f := (fetched opSlotInfo p s);
    (opsWait f = false ∧ inRange (fld (c.w 0) 17 0) = true ∧ (c.world = 0x0100 ∨ (slotAt f (fld (c.w 0) 17 0)).attr.world = c.world) ∧ ¬ (isControl (fld (c.w 0) 17 0) = true ∧ (slotAt f (fld (c.w 0) 17 0)).attr.ktype = 2)))) ∧
    -- 9
    (∃ (p : Packet) (s : State),
    accepts opSlotInfo p s = true ∧
    (let c := (ctxOf opSlotInfo p (fetched opSlotInfo p s));
    let f := (fetched opSlotInfo p s);
    (opsWait f = false ∧ inRange (fld (c.w 0) 17 0) = true ∧ (c.world = 0x0100 ∨ (slotAt f (fld (c.w 0) 17 0)).attr.world = c.world) ∧ isControl (fld (c.w 0) 17 0) = true ∧ (slotAt f (fld (c.w 0) 17 0)).attr.ktype = 2) ∧
    holdsResult p (4 * ((fun c f => let x := slotAt f (fld (c.w 0) 17 0); [lo32 (attrBits x.attr), hi32 (attrBits x.attr), pack [(b2n x.valid, 1, 31), (b2n x.old.isSome, 1, 30), (b2n x.stored, 1, 29), (b2n x.exported, 1, 28), (x.gen, 16, 0)]] ++ wordsOfBytes 12 (Config.sha384 (x.body.take 97))) (ctxOf opSlotInfo p (fetched opSlotInfo p s)) (fetched opSlotInfo p s)).length) = true)) :=
  ⟨⟨(pk [0x0000FFFF, 0, 0x01000800, 0, 0]), up, by decide +kernel⟩,
  ⟨(pk [0x20000000, 0, 0x01000800, 1, 0]), st_SlotCommandsTakeEffect_2_s, by decide +kernel⟩,
  ⟨(pk [0x4001FFFF, 0, 0x01000800, 0, 0]), up, by decide +kernel⟩,
  ⟨(pk (0x60000000 :: 0 :: 0x01000800 :: 1 :: 24 :: List.replicate 10 0)), st_SlotCommandsTakeEffect_4_s, by decide +kernel⟩,
  ⟨(pk [0x80000000, 0, 0x01000800, 1, 0]), st_SlotCommandsTakeEffect_5_s, by decide +kernel⟩,
  ⟨(pk [1, 2]), st_SlotCommandsTakeEffect_6_s, by decide +kernel⟩,
  ⟨(pk [0x8001FFFF]), up, by decide +kernel⟩,
  ⟨(pk [0xFFFF]), up, by decide +kernel⟩,
  ⟨(pkr [0x20000]), st_SlotCommandsTakeEffect_9_s, by decide +kernel⟩⟩

def st_MessagesAndStatementsAnswer_2_2_s : State :=
  { up with vault := { slots := [(1, { attr := { life := 2, masters := 3, usage := 12 }, valid := true, body := List.replicate 32 1 })] } }

def st_MessagesAndStatementsAnswer_6_s : State :=
  { up with vault := { slots := [(1, { attr := { world := 255 }, valid := true })] } }

theorem witness_MessagesAndStatementsAnswer :
    -- 1
    (∃ (p : Packet) (s : State),
    accepts opShedarUpdate p s = true ∧
    (let c := (ctxOf opShedarUpdate p (fetched opShedarUpdate p s));
    let f := (fetched opShedarUpdate p s);
    shOp (bytesOfWords c.words) ≠ 8 ∧ storedCounter f < 0xFFFFFFFFFFFF ∧ storedCounter f < shCounter (bytesOfWords c.words) ∧ shedarWaits (bytesOfWords c.words) f = false)) ∧
    -- 2
    (∃ (p : Packet) (s : State),
    accepts opShedarUpdate p s = true ∧
    (let c := (ctxOf opShedarUpdate p (fetched opShedarUpdate p s));
    let f := (fetched opShedarUpdate p s);
    shOp (bytesOfWords c.words) = 8 ∧ opsWait f = false)) ∧
    -- 3_1
    (∃ (n : Nat) (body : List Byte) (a : Nat) (s : State),
    inRange n = true ∧
    isPonSlot n = false ∧
    isWorldS n = false ∧
    (slotAt s n).attr.world ≠ 0x0200 ∧
    isControl n = false ∧
    isHideSlot n = false ∧
    body.length = 32 ∧
    (slotAt s n).valid = false ∧
    (attrOf a).ktype < 2 ∧
    worldCode (attrOf a).world = true ∧
    a % 2 ^ 24 = 0 ∧
    bodyFits n (attrOf a).ktype body = true ∧
    persistFull s n (attrOf a).persist = false) ∧
    -- 3_2
    (∃ (n : Nat) (body : List Byte) (a : Nat) (s : State),
    inRange n = true ∧
    isPonSlot n = false ∧
    isWorldS n = false ∧
    (slotAt s n).attr.world ≠ 0x0200 ∧
    isHideSlot n = false ∧
    body.length = (if isControl n then 128 else 32) ∧
    (slotAt s n).valid = true ∧
    bodyFits n (slotAt s n).attr.ktype body = true) ∧
    -- 3_3
    (∃ (n : Nat) (body : List Byte) (a : Nat) (s : State),
    inRange n = true ∧
    isPonSlot n = false ∧
    isWorldS n = false ∧
    (slotAt s n).attr.world ≠ 0x0200 ∧
    (slotAt s n).valid = true) ∧
    -- 3_4
    (∃ (n : Nat) (body : List Byte) (a : Nat) (s : State),
    inRange n = true ∧
    isPonSlot n = false ∧
    isWorldS n = false ∧
    (slotAt s n).attr.world ≠ 0x0200 ∧
    (slotAt s n).valid = true ∧
    narrows (attrOf a) (slotAt s n).attr = true ∧
    a % 2 ^ 24 = 0) ∧
    -- 4
    (∃ (n : Nat) (key : List Byte) (s : State),
    n < 32768 ∧
    key.length = 16) ∧
    -- 5
    (∃ (s : State),
    s.vault.life = .provisioned ∧
    mget s.vault.lifeRows 31 = none ∧
    nextLifeRow s < 31) ∧
    -- 6
    (∃ (p : Packet) (s : State),
    accepts opUpdateEpochAdvance p s = true ∧
    (let c := (ctxOf opUpdateEpochAdvance p (fetched opUpdateEpochAdvance p s));
    let f := (fetched opUpdateEpochAdvance p s);
    shOp (bytesOfWords c.words) = 8 ∧ shCounter (bytesOfWords c.words) = 0 ∧ updateEpoch f ≠ 63 ∧ f.vault.epochRows.length < 64 ∧ opsWait f = false ∧ c.pkt.env.norOk = true)) ∧
    -- 7_1
    (∃ (p : List Byte) (k : Nat) (s : State),
    p.length = 97 ∧
    k ≤ 1) ∧
    -- 7_2
    (∃ (p : List Byte) (k : Nat) (s : State),
    p.length = 97 ∧
    2 ≤ k) ∧
    -- 7_4
    (∃ (p : List Byte) (k : Nat) (s : State),
    p.length = 97 ∧
    3 ≤ k) ∧
    -- 7_5
    (∃ (p : List Byte) (k : Nat) (s : State),
    p.length = 97 ∧
    4 ≤ k) ∧
    -- 8
    (∃ (p : Packet) (s : State),
    accepts opAttestOperator p s = true ∧
    (let c := (ctxOf opAttestOperator p (fetched opAttestOperator p s));
    c.hasBuf = true)) ∧
    -- 9
    (∃ (p : Packet) (s : State),
    accepts opAttestTenant p s = true ∧
    (let c := (ctxOf opAttestTenant p (fetched opAttestTenant p s));
    let f := (fetched opAttestTenant p s);
    (c.hasBuf = true ∧ opsWait f = false ∧ inRange (fld (c.w 0) 17 0) = true ∧ isPonSlot (fld (c.w 0) 17 0) = false ∧ isWorldS (fld (c.w 0) 17 0) = false ∧ (slotAt f (fld (c.w 0) 17 0)).attr.world ≤ 255 ∧ (c.world = 0x0100 ∨ (slotAt f (fld (c.w 0) 17 0)).attr.world = c.world) ∧ (slotAt f (fld (c.w 0) 17 0)).valid = true))) ∧
    -- 10
    (∃ (p : Packet) (s : State),
    accepts opAlarmStatus p s = true) :=
  ⟨⟨(pk (List.replicate 6 0 ++ [0, 0x0100] ++ List.replicate 52 0)), up, by decide +kernel⟩,
  ⟨(pk (0 :: 0x08000000#32 :: List.replicate 58 0)), up, by decide +kernel⟩,
  ⟨0xFFFF, (List.replicate 32 1), 0x0100080010000000, up, by decide +kernel⟩,
  ⟨1, (List.replicate 32 1), 0, { up with vault := { slots := [(1, { attr := { life := 2, masters := 3, usage := 12, ktype := 1 }, valid := true, body := List.replicate 32 1 })] } }, by decide +kernel⟩,
  ⟨1, (List.replicate 32 1), 0, st_MessagesAndStatementsAnswer_2_2_s, by decide +kernel⟩,
  ⟨1, (List.replicate 32 1), 0x0100080000000000, { up with vault := { slots := [(1, { attr := { life := 2, masters := 3, usage := 12 }, valid := true, body := List.replicate 32 1 })] } }, by decide +kernel⟩,
  ⟨32767, List.replicate 16 1, up, by decide +kernel⟩,
  ⟨{ up with vault := { lifeRows := [(0, ⟨.provisioned, true⟩)] } }, by decide +kernel⟩,
  ⟨(pk (List.replicate 1 0 ++ [0x08000000] ++ List.replicate 58 0)), up, by decide +kernel⟩,
  ⟨List.replicate 97 4, 1, up, by decide +kernel⟩,
  ⟨List.replicate 97 4, 2, up, by decide +kernel⟩,
  ⟨List.replicate 97 4, 3, up, by decide +kernel⟩,
  ⟨List.replicate 97 4, 4, up, by decide +kernel⟩,
  ⟨(pkr (List.replicate 8 0)), up, by decide +kernel⟩,
  ⟨(pkr (1 :: List.replicate 8 0)), st_MessagesAndStatementsAnswer_6_s, by decide +kernel⟩,
  ⟨(pk []), up, by decide +kernel⟩⟩

def st_AlarmsZeroiseAndRelease_3_feed_s : State :=
  { up with vault := { under := false } }

def st_AlarmsZeroiseAndRelease_4_s : State :=
  { up with mono := 10 * us, vault := { hold := some 0 } }

def st_AlarmsZeroiseAndRelease_8_s : State :=
  { up with vault := { lifeRows := [(0, ⟨.returned, true⟩)] } }

theorem witness_AlarmsZeroiseAndRelease :
    -- 1
    (∃ (n : Nat) (s : State),
    n < 7) ∧
    -- 2
    (∃ (n : Nat) (s : State),
    n < 2 ∧
    s.vault.under = true) ∧
    -- 3_1_mesh
    (∃ (n : Nat) (s : State),
    n < 7 ∧
    (s.vault.under = false ∨ 2 ≤ n)) ∧
    -- 3_1_feed
    (∃ (n : Nat) (s : State),
    n < 7 ∧
    (s.vault.under = false ∨ 2 ≤ n)) ∧
    -- 3_7_1
    (∃ (n : Nat) (s : State),
    n < 7 ∧
    (s.vault.under = false ∨ 2 ≤ n) ∧
    alarmClass n = 3) ∧
    -- 3_7_2_1
    (∃ (n : Nat) (s : State),
    n < 7 ∧
    (s.vault.under = false ∨ 2 ≤ n) ∧
    alarmClass n = 3 ∧
    s.vault.under = false) ∧
    -- 3_7_2_2
    (∃ (n : Nat) (s : State) (k : Nat),
    n < 7 ∧
    (s.vault.under = false ∨ 2 ≤ n) ∧
    alarmClass n = 3 ∧
    s.vault.under = false) ∧
    -- 3_8
    (∃ (n : Nat) (s : State),
    n < 7 ∧
    (s.vault.under = false ∨ 2 ≤ n) ∧
    alarmClass n ≠ 3) ∧
    -- 3_9
    (∃ (n : Nat) (s : State) (k : Nat),
    n < 7 ∧
    (s.vault.under = false ∨ 2 ≤ n) ∧
    alarmClass n = 2 ∧
    (slotAt (alarm n { s with vault := { s.vault with present := s.vault.present ||| 2 ^ n } }) k).attr.persist = false) ∧
    -- 4
    (∃ (n : Nat) (s : State),
    alarmClass n = 0) ∧
    -- 5
    (∃ (t : Nat) (s : State),
    s.vault.hold = some t ∧
    t + 10 * us ≤ s.mono ∧
    s.vault.present % 128 = 0 ∧
    s.mem.lost = false) ∧
    -- 6
    (∃ (s : State),
    s.mem.lost = true) ∧
    -- 8
    (∃ (m : List Byte) (s : State),
    s.vault.tokensRefused = true) ∧
    -- 9
    (∃ (m : List Byte) (s : State),
    s.vault.tokensRefused = false ∧
    opsWait s = true) ∧
    -- 10
    (∃ (m : List Byte) (s : State),
    s.vault.tokensRefused = false ∧
    opsWait s = false ∧
    shOp m ≠ 8 ∧
    storedCounter s < 0xFFFFFFFFFFFF ∧
    storedCounter s < shCounter m) ∧
    -- 11_1
    (∃ (m : List Byte) (s : State),
    s.vault.tokensRefused = false ∧
    opsWait s = false ∧
    ((shedarHead m true s).isSome = true ∨ shOp m = 8 ∨ storedCounter s = 0xFFFFFFFFFFFF ∨ shCounter m ≤ storedCounter s)) ∧
    -- 11_5
    (∃ (m : List Byte) (s : State),
    s.vault.tokensRefused = false ∧
    opsWait s = false ∧
    ((shedarHead m true s).isSome = true ∨ shOp m = 8 ∨ storedCounter s = 0xFFFFFFFFFFFF ∨ shCounter m ≤ storedCounter s) ∧
    7 ≤ s.vault.tokenFails) ∧
    -- 12
    (∃ (row : Nat) (scraps : Bool) (owner : List Byte) (sig : List Byte) (s : State),
    opsWait s = true) ∧
    -- 13
    (∃ (owner : List Byte) (sig : List Byte) (s : State),
    opsWait s = false ∧
    s.vault.life ≠ .scrapped) ∧
    -- 14_1
    (∃ (owner : List Byte) (sig : List Byte) (s : State),
    opsWait s = false ∧
    nextLifeRow s < 31 ∧
    s.vault.epochRows.length < 64 ∧
    s.vault.life = .returned) ∧
    -- 14_2
    (∃ (owner : List Byte) (sig : List Byte) (s : State),
    opsWait s = false ∧
    nextLifeRow s < 31 ∧
    s.vault.epochRows.length < 64 ∧
    s.vault.life = .blank) ∧
    -- 15
    (∃ (owner : List Byte) (s : State),
    owner.length = 97) :=
  ⟨⟨6, up, by decide +kernel⟩,
  ⟨1, up, by decide +kernel⟩,
  ⟨6, up, by decide +kernel⟩,
  ⟨1, st_AlarmsZeroiseAndRelease_3_feed_s, by decide +kernel⟩,
  ⟨3, up, by decide +kernel⟩,
  ⟨3, { up with vault := { under := false } }, by decide +kernel⟩,
  ⟨3, { up with vault := { under := false } }, 5, by decide +kernel⟩,
  ⟨6, up, by decide +kernel⟩,
  ⟨2, up, 5, by decide, by decide, by decide, by
    simp only [alarm, ownSetting, readsBack]; generalize Config.readsBack _ = b; revert b; decide +kernel⟩,
  ⟨8, up, by decide +kernel⟩,
  ⟨0, st_AlarmsZeroiseAndRelease_4_s, by decide +kernel⟩,
  ⟨{ up with mem := { lost := true } }, by decide +kernel⟩,
  ⟨[], { up with vault := { tokensRefused := true } }, by decide +kernel⟩,
  ⟨[1], { up with vault := { waiting := [.token []] } }, by decide +kernel⟩,
  ⟨List.replicate 29 0 ++ [1], up, by decide +kernel⟩,
  ⟨[], up, by decide +kernel⟩,
  ⟨[], { up with vault := { tokenFails := 7 } }, by decide +kernel⟩,
  ⟨1, true, [], [], { up with vault := { waiting := [.token []] } }, by decide +kernel⟩,
  ⟨[], [], up, by decide +kernel⟩,
  ⟨[], [], st_AlarmsZeroiseAndRelease_8_s, by decide +kernel⟩,
  ⟨[], [], { up with vault := { lifeRows := [] } }, by decide +kernel⟩,
  ⟨List.replicate 97 4, up, by decide +kernel⟩⟩

def st_MemoryCommandsTakeEffect_1_last_region_s : State :=
  { up with mem := { pools := [(1, {})] } }

def st_MemoryCommandsTakeEffect_7_s : State :=
  { up with mem := { regionPoison := [31] } }

def st_MemoryCommandsTakeEffect_8_s : State :=
  { up with mem := { pools := [(1, {})] } }

theorem witness_MemoryCommandsTakeEffect :
    -- 1
    (∃ (p : Packet) (s : State),
    accepts opPoolConfig p s = true ∧
    (let c := (ctxOf opPoolConfig p (fetched opPoolConfig p s));
    let f := (fetched opPoolConfig p s);
    (f.halter.stage ≠ .halter ∧ fld (c.w 0) 19 16 ≠ 0 ∧ worldCode (fld (c.w 0) 15 0) = true ∧ 1 ≤ fld (c.w 1) 5 0 ∧ fld (c.w 1) 12 8 + fld (c.w 1) 5 0 ≤ 32 ∧ ((poolAt f (fld (c.w 0) 19 16)).enable = true → (poolAt f (fld (c.w 0) 19 16)).allocated = 0) ∧ (∀ q, 1 ≤ q → q < 16 → q ≠ fld (c.w 0) 19 16 → (poolAt f q).enable = true → ((poolAt f q).first + (poolAt f q).regions ≤ fld (c.w 1) 12 8 ∨ fld (c.w 1) 12 8 + fld (c.w 1) 5 0 ≤ (poolAt f q).first) ∧ (poolAt f q).world ≠ fld (c.w 0) 15 0) ∧ ∀ e ∈ f.mem.rights, 2 ≤ e.2.mode → e.2.pages ≠ 0 → fld (c.w 1) 12 8 + fld (c.w 1) 5 0 ≤ e.2.base / 262144 ∨ (e.2.base + e.2.pages - 1) / 262144 < fld (c.w 1) 12 8))) ∧
    -- 2
    (∃ (p : Packet) (s : State),
    accepts opPoolStats p s = true ∧
    (let c := (ctxOf opPoolStats p (fetched opPoolStats p s));
    let f := (fetched opPoolStats p s);
    (c.world = 0x0100 ∨ (poolAt f (fld (c.w 0) 3 0)).world = c.world))) ∧
    -- 3
    (∃ (p : Packet) (s : State),
    accepts opHideKeyChange p s = true ∧
    (let f := (fetched opHideKeyChange p s);
    f.halter.stage ≠ .halter ∧ f.mem.retiring = none ∧ opsWait f = false)) ∧
    -- 4
    (∃ (p : Packet) (s : State),
    accepts opHideStatus p s = true ∧
    (let c := (ctxOf opHideStatus p (fetched opHideStatus p s));
    c.hasBuf = false)) ∧
    -- 5
    (∃ (p : Packet) (s : State),
    accepts opHideStatus p s = true ∧
    (let c := (ctxOf opHideStatus p (fetched opHideStatus p s));
    c.hasBuf = true ∧
    holdsResult p ((fun _ f => bytesOfWords (poisonWords f)) (ctxOf opHideStatus p (fetched opHideStatus p s)) (fetched opHideStatus p s)).length = true)) ∧
    -- 6
    (∃ (f : State),
    f.mem.retiring = none) ∧
    -- 7
    (∃ (f : State) (old : Nat),
    f.mem.retiring = some old) ∧
    -- 8
    (∃ (p : Packet) (s : State),
    accepts opRegionReinit p s = true ∧
    (let c := (ctxOf opRegionReinit p (fetched opRegionReinit p s));
    let f := (fetched opRegionReinit p s);
    f.halter.stage ≠ .halter ∧ regionAffected f (fld (c.w 0) 4 0) = false)) ∧
    -- 9_1
    (∃ (p : _) (s : _),
    accepts opRegionReinit p s = true ∧
    (let f := fetched opRegionReinit p s;
    let r := fld ((ownWords p).getD 0 0) 4 0;
    f.halter.stage ≠ .halter ∧
    regionAffected f r = true)) ∧
    -- 9_2
    (∃ (p : _) (s : _),
    accepts opRegionReinit p s = true ∧
    (let f := fetched opRegionReinit p s;
    let r := fld ((ownWords p).getD 0 0) 4 0;
    f.halter.stage ≠ .halter ∧
    regionAffected f r = true ∧
    f.mem.regionPoison.contains r = true)) ∧
    -- 9_5
    (∃ (p : _) (s : _) (k : Nat) (x : Pool) (h : Nat),
    accepts opRegionReinit p s = true ∧
    (let f := fetched opRegionReinit p s;
    let r := fld ((ownWords p).getD 0 0) 4 0;
    f.halter.stage ≠ .halter ∧
    regionAffected f r = true ∧
    mget (reinit r f).mem.pools k = some x ∧
    h ∈ x.withdrawn)) ∧
    -- 10
    (∃ (p : Packet) (s : State),
    accepts opRightsWrite p s = true ∧
    (let c := (ctxOf opRightsWrite p (fetched opRightsWrite p s));
    let f := (fetched opRightsWrite p s);
    (fld (c.w 0) 31 29 ≤ 1 ∧ (fld (c.w 2) 23 0 ≠ 0 → fld (c.w 1) 23 0 + fld (c.w 2) 23 0 ≤ 12582912 ∧ (2 ≤ fld (c.w 3) 1 0 → pagesUnpooled f (fld (c.w 1) 23 0) (fld (c.w 2) 23 0) = true ∧ (fld (c.w 0) 31 29 = 1 → f.vault.life ≠ .deployed)))))) ∧
    -- 10_remove
    (∃ (p : Packet) (s : State),
    accepts opRightsWrite p s = true ∧
    (let c := (ctxOf opRightsWrite p (fetched opRightsWrite p s));
    let f := (fetched opRightsWrite p s);
    (fld (c.w 0) 31 29 ≤ 1 ∧ (fld (c.w 2) 23 0 ≠ 0 → fld (c.w 1) 23 0 + fld (c.w 2) 23 0 ≤ 12582912 ∧ (2 ≤ fld (c.w 3) 1 0 → pagesUnpooled f (fld (c.w 1) 23 0) (fld (c.w 2) 23 0) = true ∧ (fld (c.w 0) 31 29 = 1 → f.vault.life ≠ .deployed)))))) :=
  ⟨⟨(pk [0x800F0100, 0x00001F01]), st_MemoryCommandsTakeEffect_1_last_region_s, by
    have h : ∀ q < 16, 2 ≤ q → (poolAt (fetched opPoolConfig (pk [0x800F0100, 0x00001F01]) st_MemoryCommandsTakeEffect_1_last_region_s) q).enable = false := by decide +kernel
    refine ⟨by decide +kernel, by decide +kernel, by decide +kernel, by decide +kernel, by decide +kernel, by decide +kernel, by decide +kernel, ?_, by decide +kernel⟩
    intro q h1 h2 _ h4
    rcases Nat.lt_or_ge q 2 with hq | hq
    · obtain rfl : q = 1 := by omega
      exact absurd h4 (by decide +kernel)
    · exact absurd h4 (Bool.eq_false_iff.mp (h q h2 hq))⟩,
  ⟨(pk [15]), up, by decide +kernel⟩,
  ⟨(pk []), up, by decide +kernel⟩,
  ⟨(pk []), up, by decide +kernel⟩,
  ⟨(pkr []), up, by decide +kernel⟩,
  ⟨up, by decide +kernel⟩,
  ⟨{ up with mem := { retiring := some 3 } }, 3, by decide +kernel⟩,
  ⟨(pk [31]), up, by decide +kernel⟩,
  ⟨(pk [31]), st_MemoryCommandsTakeEffect_7_s, by decide +kernel⟩,
  ⟨(pk [31]), st_MemoryCommandsTakeEffect_7_s, by decide +kernel⟩,
  ⟨pk [31], { up with mem := { regionPoison := [31], pools := [(1, { enable := true, regions := 32, withdrawn := [5] })] } }, 1, { enable := true, regions := 32, withdrawn := [5] }, 5, by decide +kernel⟩,
  ⟨(pk [0x2000000F, 8388607, 1, 3]), st_MemoryCommandsTakeEffect_8_s, by decide +kernel⟩,
  ⟨(pk [0, 0, 0, 0]), up, by decide +kernel⟩⟩

def st_MemoryEventsKeepPoolsAndTree_1_s : State :=
  { up with mem := { pools := [(15, { enable := true, cache := [(0, 3072)] })] } }

def st_MemoryEventsKeepPoolsAndTree_2_s : State :=
  { up with mem := { pools := [(15, { enable := true, cache := [(0, 1024)] })] } }

def st_MemoryEventsKeepPoolsAndTree_4_s : State :=
  { up with tm := { queues := [(⟨0, 4, 0⟩, { held := [{ frame := { frame0 with pool := 15, cells := [5] }, at_ := 0 }] })] } }

def st_MemoryEventsKeepPoolsAndTree_5_1_s : State :=
  { up with mem := { cached := [nodeKey 1 0] } }

def st_MemoryEventsKeepPoolsAndTree_5_2_s : State :=
  { up with mem := { cached := [nodeKey 4 0], dirty := [nodeKey 4 0] } }

def st_MemoryEventsKeepPoolsAndTree_5_3_s : State :=
  { up with mem := { cached := [nodeKey 3 64], dirty := [nodeKey 3 64] } }

def st_MemoryEventsKeepPoolsAndTree_8_s : State :=
  { up with mem := { keyId := 1, retiring := some 0 } }

theorem witness_MemoryEventsKeepPoolsAndTree :
    -- 1
    (∃ (p : Nat) (s : State),
    p < 16 ∧
    ringOpen s p = true ∧
    (poolAt s p).enable = true ∧
    3072 ≤ runLen (poolAt s p).cache) ∧
    -- 2
    (∃ (p : Nat) (s : State),
    p < 16 ∧
    ringOpen s p = true ∧
    (poolAt s p).enable = true ∧
    runLen (poolAt s p).cache ≤ 1024 ∧
    s.mem.poison = [] ∧
    s.mem.regionPoison = [] ∧
    (poolAt s p).gone = []) ∧
    -- 3
    (∃ (p : Nat) (n : Nat) (s : State),
    p < 16 ∧
    hbmOpen s = false ∧
    p ≠ 0) ∧
    -- 4
    (∃ (p : Nat) (h : Nat) (r : Bool) (s : State),
    p < 16 ∧
    heldChain s p h = none) ∧
    -- 5
    (∃ (p : Nat) (h : Nat) (f : Frame) (s : State),
    p < 16 ∧
    heldChain s p h = some f) ∧
    -- 6_1
    (∃ (p : Nat) (h : Nat) (n : NodeId) (s : State),
    queueHolder s p h = some n) ∧
    -- 6_3
    (∃ (p : Nat) (h : Nat) (n : NodeId) (s : State) (k : _),
    queueHolder s p h = some n ∧
    k ≠ n) ∧
    -- 7_1
    (∃ (level : Nat) (i : Nat) (s : State),
    i < levelNodes level ∧
    hbmOpen s = true ∧
    s.mem.cached.length ≤ 32768 ∧
    s.mem.cached.contains (nodeKey level i) = true ∧
    (let k := nodeKey level i;
    s.mem.dirty.contains k = false)) ∧
    -- 7_2
    (∃ (level : Nat) (i : Nat) (s : State),
    i < levelNodes level ∧
    hbmOpen s = true ∧
    s.mem.cached.length ≤ 32768 ∧
    s.mem.cached.contains (nodeKey level i) = true ∧
    (let k := nodeKey level i;
    s.mem.dirty.contains k = true ∧
    level = 4)) ∧
    -- 7_3
    (∃ (level : Nat) (i : Nat) (s : State),
    i < levelNodes level ∧
    hbmOpen s = true ∧
    s.mem.cached.length ≤ 32768 ∧
    s.mem.cached.contains (nodeKey level i) = true ∧
    (let k := nodeKey level i;
    s.mem.dirty.contains k = true ∧
    level < 4)) ∧
    -- 8
    (∃ (n : Nat) (failing : List (Nat × Nat)) (s : State),
    (∀ f ∈ failing, f.2 < levelNodes f.1) ∧
    hbmOpen s = true) ∧
    -- 9
    (∃ (s : State),
    s.mem.initialised = false) ∧
    -- 10
    (∃ (old : Nat) (s : State),
    s.mem.retiring = some old ∧
    hbmOpen s = true ∧
    (∀ k ∈ s.mem.dirty, 1 ≤ k / 2 ^ 23 ∧ k / 2 ^ 23 ≤ 4)) :=
  ⟨⟨15, st_MemoryEventsKeepPoolsAndTree_1_s, by decide +kernel⟩,
  ⟨15, st_MemoryEventsKeepPoolsAndTree_2_s, by decide +kernel⟩,
  ⟨15, 5, { up with halter := { refresh := true } }, by decide +kernel⟩,
  ⟨15, 5, true, up, by decide +kernel⟩,
  ⟨15, 5, { frame0 with pool := 15, cells := [5] }, st_MemoryEventsKeepPoolsAndTree_4_s, by decide +kernel⟩,
  ⟨15, 5, ⟨0, 4, 0⟩, st_MemoryEventsKeepPoolsAndTree_4_s, by decide +kernel⟩,
  ⟨15, 5, ⟨0, 4, 0⟩, st_MemoryEventsKeepPoolsAndTree_4_s, ⟨0, 4, 1⟩, by decide +kernel⟩,
  ⟨1, 0, st_MemoryEventsKeepPoolsAndTree_5_1_s, by decide +kernel⟩,
  ⟨4, 0, st_MemoryEventsKeepPoolsAndTree_5_2_s, by decide +kernel⟩,
  ⟨3, 64, st_MemoryEventsKeepPoolsAndTree_5_3_s, by decide +kernel⟩,
  ⟨1, [(4, 0)], up, by decide +kernel⟩,
  ⟨up, by decide +kernel⟩,
  ⟨0, st_MemoryEventsKeepPoolsAndTree_8_s, by decide +kernel⟩⟩

def st_MemoryAccessesReadAndWriteLines_4_s : State :=
  { up with mem := { poison := [{ level := 0, index := 0 }] } }

def st_MemoryAccessesReadAndWriteLines_5_s : State :=
  { up with mem := { rights := [(16, { base := 0, pages := 1, mode := 2 })] } }

def st_MemoryAccessesReadAndWriteLines_6_s : State :=
  { up with mem := { rights := [(16, { base := 0, pages := 1, mode := 3 })] } }

def st_MemoryAccessesReadAndWriteLines_7_lowest_s : State :=
  { up with mem := { rights := [(16, { base := 0, pages := 1, mode := 1 })] } }

def st_MemoryAccessesReadAndWriteLines_7_highest_s : State :=
  { up with mem := { rights := [(16, { base := 0, pages := 1, mode := 3 })] } }

def st_MemoryAccessesReadAndWriteLines_8_s : State :=
  { up with mem := { rights := [(16, { base := 0, pages := 1, mode := 2 })] } }

def st_MemoryAccessesReadAndWriteLines_10_s : State :=
  { up with vault := { hold := some 1 } }

theorem witness_MemoryAccessesReadAndWriteLines :
    -- 1_1
    (∃ (a : Nat) (data : List Byte) (s : State),
    (let serves (s : State) : Prop := hbmOpen s = true;
    engineMay s 0 (a / 64 * 64) = true ∧
    serves s ∧
    data.length = 64 ∧
    poisonedCell s (a / 128) = false ∧
    Memory.wf s.mem.cells = true)) ∧
    -- 1_3
    (∃ (a : Nat) (data : List Byte) (s : State) (b : _),
    (let serves (s : State) : Prop := hbmOpen s = true;
    engineMay s 0 (a / 64 * 64) = true ∧
    serves s ∧
    data.length = 64 ∧
    poisonedCell s (a / 128) = false ∧
    Memory.wf s.mem.cells = true ∧
    (b < a / 64 * 64 ∨ a / 64 * 64 + 64 ≤ b))) ∧
    -- 1_4
    (∃ (a : Nat) (data : List Byte) (s : State),
    (let serves (s : State) : Prop := hbmOpen s = true;
    engineMay s 0 (a / 64 * 64) = true ∧
    serves s ∧
    data.length = 64 ∧
    poisonedCell s (a / 128) = false ∧
    Memory.wf s.mem.cells = true ∧
    s.mem.bad = [])) ∧
    -- 2_1_tm
    (∃ (engine : Nat) (a : Nat) (data : List Byte) (s : State),
    (let serves (s : State) : Prop := hbmOpen s = true;
    engine < 3 ∧
    accessMay s engine (a / 64 * 64) false = true ∧
    areaOf (a / 64 * 64) = .guarded ∧
    serves s ∧
    poisonedCell s (a / 128) = false)) ∧
    -- 2_1_sweep
    (∃ (engine : Nat) (a : Nat) (data : List Byte) (s : State),
    (let serves (s : State) : Prop := hbmOpen s = true;
    engine < 3 ∧
    accessMay s engine (a / 64 * 64) false = true ∧
    areaOf (a / 64 * 64) = .guarded ∧
    serves s ∧
    poisonedCell s (a / 128) = false)) ∧
    -- 2_4
    (∃ (engine : Nat) (a : Nat) (data : List Byte) (s : State),
    (let serves (s : State) : Prop := hbmOpen s = true;
    engine < 3 ∧
    accessMay s engine (a / 64 * 64) false = true ∧
    areaOf (a / 64 * 64) = .guarded ∧
    serves s ∧
    poisonedCell s (a / 128) = false ∧
    s.mem.bad = [])) ∧
    -- 3
    (∃ (a : Nat) (w : Bool) (data : List Byte) (s : State),
    (let serves (s : State) : Prop := hbmOpen s = true;
    engineMay s 0 (a / 64 * 64) = true ∧
    serves s ∧
    (w = true → data.length = 64) ∧
    poisonedCell s (a / 128) = false)) ∧
    -- 4
    (∃ (a : Nat) (w : Bool) (data : List Byte) (check : LineCheck) (s : State),
    (let serves (s : State) : Prop := hbmOpen s = true;
    engineMay s 0 (a / 64 * 64) = true ∧
    serves s ∧
    (w = true → data.length = 64) ∧
    poisonedCell s (a / 128) = true)) ∧
    -- 5
    (∃ (a : Nat) (p : Nat) (data : List Byte) (s : State),
    (let serves (s : State) : Prop := hbmOpen s = true;
    ringPool s (a / 64 * 64) = some p ∧
    areaOf (a / 64 * 64) = .rings ∧
    serves s)) ∧
    -- 6
    (∃ (a : Nat) (p : Nat) (pass : Nat) (w : Bool) (data : List Byte) (s : State),
    (let serves (s : State) : Prop := hbmOpen s = true;
    ringPool s (a / 64 * 64) = some p ∧
    areaOf (a / 64 * 64) = .rings ∧
    serves s ∧
    (w = true → data.length = 64) ∧
    s.cipher.inPipes = [] ∧
    pass ≠ passOf p (poolAt s p) (if w then (poolAt s p).tail else (poolAt s p).head))) ∧
    -- 7
    (∃ (master : Nat) (a : Nat) (data : List Byte) (s : State),
    (let serves (s : State) : Prop := hbmOpen s = true;
    master < 2 ∧
    serves s ∧
    areaOf (a / 64 * 64) = .guarded ∧
    poisonedCell s (a / 64 * 64 / 128) = false ∧
    2 ≤ rightOf s master (a / 4096))) ∧
    -- 8
    (∃ (master : Nat) (a : Nat) (data : List Byte) (s : State),
    (let serves (s : State) : Prop := hbmOpen s = true;
    master < 2 ∧
    serves s ∧
    areaOf (a / 64 * 64) = .guarded ∧
    poisonedCell s (a / 64 * 64 / 128) = false ∧
    rightOf s master (a / 4096) = 3)) ∧
    -- 9_read
    (∃ (master : Nat) (a : Nat) (kind : Nat) (data : List Byte) (s : State),
    (let serves (s : State) : Prop := hbmOpen s = true;
    master < 2 ∧
    serves s ∧
    areaOf (a / 64 * 64) = .guarded ∧
    poisonedCell s (a / 64 * 64 / 128) = false ∧
    2 ≤ kind ∧
    kind ≤ 3 ∧
    kind ≤ rightOf s master (a / 4096) ∧
    rightOf s master (a / 4096) ≤ 3)) ∧
    -- 9_write
    (∃ (master : Nat) (a : Nat) (kind : Nat) (data : List Byte) (s : State),
    (let serves (s : State) : Prop := hbmOpen s = true;
    master < 2 ∧
    serves s ∧
    areaOf (a / 64 * 64) = .guarded ∧
    poisonedCell s (a / 64 * 64 / 128) = false ∧
    2 ≤ kind ∧
    kind ≤ 3 ∧
    kind ≤ rightOf s master (a / 4096) ∧
    rightOf s master (a / 4096) ≤ 3)) ∧
    -- 10_highest
    (∃ (master : Nat) (a : Nat) (check : LineCheck) (data : List Byte) (s : State),
    (let serves (s : State) : Prop := hbmOpen s = true;
    master < 2 ∧
    serves s ∧
    s.mem.retiring = none ∧
    areaOf (a / 64 * 64) = .guarded ∧
    1 ≤ rightOf s master (a / 4096) ∧
    rightOf s master (a / 4096) ≤ 3)) ∧
    -- 10_lowest
    (∃ (master : Nat) (a : Nat) (check : LineCheck) (data : List Byte) (s : State),
    (let serves (s : State) : Prop := hbmOpen s = true;
    master < 2 ∧
    serves s ∧
    s.mem.retiring = none ∧
    areaOf (a / 64 * 64) = .guarded ∧
    1 ≤ rightOf s master (a / 4096) ∧
    rightOf s master (a / 4096) ≤ 3)) ∧
    -- 11
    (∃ (master : Nat) (a : Nat) (p : Nat) (data : List Byte) (s : State),
    (let serves (s : State) : Prop := hbmOpen s = true;
    master < 2 ∧
    serves s ∧
    s.mem.retiring = none ∧
    areaOf (a / 64 * 64) = .rings ∧
    ringPool s (a / 64 * 64) = some p ∧
    1 ≤ rightOf s master (a / 4096) ∧
    rightOf s master (a / 4096) ≤ 3)) ∧
    -- 12
    (∃ (master : Nat) (a : Nat) (level : Nat) (data : List Byte) (s : State),
    (let serves (s : State) : Prop := hbmOpen s = true;
    master < 2 ∧
    serves s ∧
    s.mem.retiring = none ∧
    areaOf (a / 64 * 64) = .counters level ∧
    level < 4 ∧
    1 ≤ rightOf s master (a / 4096) ∧
    rightOf s master (a / 4096) ≤ 3)) ∧
    -- 13
    (∃ (master : Nat) (a : Nat) (old : Nat) (data : List Byte) (s : State),
    (let serves (s : State) : Prop := hbmOpen s = true;
    master < 2 ∧
    serves s ∧
    s.mem.retiring = some old ∧
    areaOf (a / 64 * 64) = .guarded ∧
    1 ≤ rightOf s master (a / 4096) ∧
    rightOf s master (a / 4096) ≤ 3)) ∧
    -- 14
    (∃ (master : Nat) (a : Nat) (kind : Nat) (data : List Byte) (s : State),
    (let serves (s : State) : Prop := hbmOpen s = true;
    master < 2 ∧
    serves s ∧
    1 ≤ kind ∧
    kind ≤ 3 ∧
    (areaOf (a / 64 * 64) = .none ∨ rightOf s master (a / 4096) = 0 ∨ (2 ≤ kind ∧ rightOf s master (a / 4096) < kind)))) ∧
    -- 15
    (∃ (engine : Nat) (a : Nat) (w : Bool) (data : List Byte) (check : LineCheck) (s : State),
    (let serves (s : State) : Prop := hbmOpen s = true;
    engine < 3 ∧
    serves s ∧
    (w = true → data.length = 64) ∧
    accessMay s engine (a / 64 * 64) w = false)) ∧
    -- 16_lost
    (∃ (engine : Nat) (master : Nat) (a : Nat) (kind : Nat) (w : Bool) (data : List Byte) (check : LineCheck) (s : State),
    engine < 3 ∧
    master < 2 ∧
    1 ≤ kind ∧
    kind ≤ 3 ∧
    (w = true → data.length = 64) ∧
    (s.vault.hold.isSome = true ∨ (quarterUp s 2 = false ∧ quarterUp s 3 = false) ∨ s.halter.refresh = true)) ∧
    -- 16_held
    (∃ (engine : Nat) (master : Nat) (a : Nat) (kind : Nat) (w : Bool) (data : List Byte) (check : LineCheck) (s : State),
    engine < 3 ∧
    master < 2 ∧
    1 ≤ kind ∧
    kind ≤ 3 ∧
    (w = true → data.length = 64) ∧
    (s.vault.hold.isSome = true ∨ (quarterUp s 2 = false ∧ quarterUp s 3 = false) ∨ s.halter.refresh = true)) ∧
    -- 16_refresh
    (∃ (engine : Nat) (master : Nat) (a : Nat) (kind : Nat) (w : Bool) (data : List Byte) (check : LineCheck) (s : State),
    engine < 3 ∧
    master < 2 ∧
    1 ≤ kind ∧
    kind ≤ 3 ∧
    (w = true → data.length = 64) ∧
    (s.vault.hold.isSome = true ∨ (quarterUp s 2 = false ∧ quarterUp s 3 = false) ∨ s.halter.refresh = true)) :=
  ⟨⟨0x7FFFFFFFF, (List.replicate 64 1), up, by decide +kernel⟩,
  ⟨0x7FFFFFFFF, (List.replicate 64 1), up, 0, by decide +kernel⟩,
  ⟨0x7FFFFFFFF, (List.replicate 64 1), up, by decide +kernel⟩,
  ⟨0, 0x7FFFFFFFF, [], { up with mem := { pools := [(1, { enable := true, regions := 32 })] } }, by decide +kernel⟩,
  ⟨2, 0x7FFFFFFFF, [], { up with mem := { retiring := some 7 } }, by decide +kernel⟩,
  ⟨0, 0x7FFFFFFFF, [], { up with mem := { pools := [(1, { enable := true, regions := 32 })] } }, by decide +kernel⟩,
  ⟨0x7FFFFFFFF, true, List.replicate 64 1, { up with mem := { pools := [(1, { enable := true, regions := 32 })] } }, by decide +kernel⟩,
  ⟨0, true, List.replicate 64 1, .good, { up with mem := { poison := [{ level := 0, index := 0 }], pools := [(1, { enable := true, regions := 32 })] } }, by decide +kernel⟩,
  ⟨0x840000000, 1, [], up, by decide +kernel⟩,
  ⟨0x840000000, 1, 1, false, [], up, by decide +kernel⟩,
  ⟨1, 4095, [1], st_MemoryAccessesReadAndWriteLines_5_s, by decide +kernel⟩,
  ⟨1, 4095, [1], st_MemoryAccessesReadAndWriteLines_6_s, by decide +kernel⟩,
  ⟨1, 4095, 2, [1], st_MemoryAccessesReadAndWriteLines_5_s, by decide +kernel⟩,
  ⟨1, 4095, 3, [1], st_MemoryAccessesReadAndWriteLines_6_s, by decide +kernel⟩,
  ⟨1, 4095, .good, [1], st_MemoryAccessesReadAndWriteLines_7_highest_s, by decide +kernel⟩,
  ⟨1, 4095, .mismatch, [1], st_MemoryAccessesReadAndWriteLines_7_lowest_s, by decide +kernel⟩,
  ⟨1, 0x840000000, 1, [], { up with mem := { pools := [(1, { enable := true, regions := 32, tail := 16 })], rights := [(16, { base := 0x840000, pages := 1, mode := 1 })] } }, by decide +kernel⟩,
  ⟨1, 0x800000000, 1, [], { up with mem := { rights := [(16, { base := 0x800000, pages := 1, mode := 1 })] } }, by decide +kernel⟩,
  ⟨1, 4095, 7, [], { up with mem := { rights := [(16, { base := 0, pages := 1, mode := 1 })], retiring := some 7 } }, by decide +kernel⟩,
  ⟨0, 0x7FFFFFFFF, 1, [1], up, by decide +kernel⟩,
  ⟨2, 0x7FFFFFFFF, true, List.replicate 64 1, .good, up, by decide +kernel⟩,
  ⟨2, 1, 0x7FFFFFFFF, 3, true, List.replicate 64 1, .good, { up with flt := { failed := [(7, 0, 2), (7, 0, 3)] } }, by decide +kernel⟩,
  ⟨2, 1, 0x7FFFFFFFF, 3, true, List.replicate 64 1, .good, st_MemoryAccessesReadAndWriteLines_10_s, by decide +kernel⟩,
  ⟨2, 1, 0x7FFFFFFFF, 3, false, [], .good, { up with halter := { refresh := true } }, by decide +kernel⟩⟩

def st_LanesTrainIdleAndAnswer_4_s : State :=
  { upX { op := 0x8006, pkt := pkr [79] 79, data := [79] } with link := { lanes := [(79, { scanning := true })] } }

def st_LanesTrainIdleAndAnswer_8_s : State :=
  upL 79 { st := .training, cfg := { peakAuto := false } }

def st_LanesTrainIdleAndAnswer_9_s : State :=
  { upL 79 { st := .training, fails := 2 } with mono := 100 * ms }

def st_LanesTrainIdleAndAnswer_10_s : State :=
  upL 79 { st := .active, cfg := { idle := 1 } }

def st_LanesTrainIdleAndAnswer_12_s : State :=
  { upL 79 { st := .idle } with mono := 100 * ms }

def st_LanesTrainIdleAndAnswer_13_2_s : State :=
  { upL 79 { st := .exit } with mono := us }

theorem witness_LanesTrainIdleAndAnswer :
    -- 1_1_pon
    (∃ (p : _) (s : _),
    accepts opLaneConfig p s = true ∧
    (let f := fetched opLaneConfig p s;
    let c := ctxOf opLaneConfig p f;
    let l := fld (c.w 0) 7 0;
    let g := laneCfgOf (c.w 1) (c.w 2);
    isLane l = true ∧
    c.inst = l ∧
    laneCfgBad l g = none)) ∧
    -- 1_1_lane
    (∃ (p : _) (s : _),
    accepts opLaneConfig p s = true ∧
    (let f := fetched opLaneConfig p s;
    let c := ctxOf opLaneConfig p f;
    let l := fld (c.w 0) 7 0;
    let g := laneCfgOf (c.w 1) (c.w 2);
    isLane l = true ∧
    c.inst = l ∧
    laneCfgBad l g = none)) ∧
    -- 1_5
    (∃ (p : _) (s : _),
    accepts opLaneConfig p s = true ∧
    (let f := fetched opLaneConfig p s;
    let c := ctxOf opLaneConfig p f;
    let l := fld (c.w 0) 7 0;
    let g := laneCfgOf (c.w 1) (c.w 2);
    isLane l = true ∧
    c.inst = l ∧
    laneCfgBad l g = none ∧
    isPonLane l = true)) ∧
    -- 1_6
    (∃ (p : _) (s : _),
    accepts opLaneConfig p s = true ∧
    (let f := fetched opLaneConfig p s;
    let c := ctxOf opLaneConfig p f;
    let l := fld (c.w 0) 7 0;
    let g := laneCfgOf (c.w 1) (c.w 2);
    isLane l = true ∧
    c.inst = l ∧
    laneCfgBad l g = none ∧
    (laneAt f l).txFault = false ∧
    (laneAt f l).st = .active ∧
    g.idle = 2 ∧
    g.precode = (laneAt f l).cfg.precode)) ∧
    -- 1_7_active
    (∃ (p : _) (s : _),
    accepts opLaneConfig p s = true ∧
    (let f := fetched opLaneConfig p s;
    let c := ctxOf opLaneConfig p f;
    let l := fld (c.w 0) 7 0;
    let g := laneCfgOf (c.w 1) (c.w 2);
    isLane l = true ∧
    c.inst = l ∧
    laneCfgBad l g = none ∧
    (laneAt f l).txFault = false ∧
    ((laneAt f l).st = .active ∨ (laneAt f l).st = .idle ∨ (laneAt f l).st = .exit) ∧
    g.precode ≠ (laneAt f l).cfg.precode)) ∧
    -- 1_7_exit
    (∃ (p : _) (s : _),
    accepts opLaneConfig p s = true ∧
    (let f := fetched opLaneConfig p s;
    let c := ctxOf opLaneConfig p f;
    let l := fld (c.w 0) 7 0;
    let g := laneCfgOf (c.w 1) (c.w 2);
    isLane l = true ∧
    c.inst = l ∧
    laneCfgBad l g = none ∧
    (laneAt f l).txFault = false ∧
    ((laneAt f l).st = .active ∨ (laneAt f l).st = .idle ∨ (laneAt f l).st = .exit) ∧
    g.precode ≠ (laneAt f l).cfg.precode)) ∧
    -- 1_7_idle
    (∃ (p : _) (s : _),
    accepts opLaneConfig p s = true ∧
    (let f := fetched opLaneConfig p s;
    let c := ctxOf opLaneConfig p f;
    let l := fld (c.w 0) 7 0;
    let g := laneCfgOf (c.w 1) (c.w 2);
    isLane l = true ∧
    c.inst = l ∧
    laneCfgBad l g = none ∧
    (laneAt f l).txFault = false ∧
    ((laneAt f l).st = .active ∨ (laneAt f l).st = .idle ∨ (laneAt f l).st = .exit) ∧
    g.precode ≠ (laneAt f l).cfg.precode)) ∧
    -- 1_8
    (∃ (p : _) (s : _) (k : _),
    accepts opLaneConfig p s = true ∧
    (let f := fetched opLaneConfig p s;
    let c := ctxOf opLaneConfig p f;
    let l := fld (c.w 0) 7 0;
    let g := laneCfgOf (c.w 1) (c.w 2);
    isLane l = true ∧
    c.inst = l ∧
    laneCfgBad l g = none ∧
    k ≠ l)) ∧
    -- 2
    (∃ (p : Packet) (s : State),
    accepts opLaneStatus p s = true ∧
    (let c := (ctxOf opLaneStatus p (fetched opLaneStatus p s));
    isLane (fld (c.w 0) 7 0) = true ∧ c.inst = fld (c.w 0) 7 0)) ∧
    -- 3_1_idle
    (∃ (l : Nat) (s : State),
    (laneAt s l).rampAt = none ∧
    ((laneAt s l).st ≠ .active ∨ (laneAt s l).cfg.dfe ≠ 0)) ∧
    -- 3_1_frozen
    (∃ (l : Nat) (s : State),
    (laneAt s l).rampAt = none ∧
    ((laneAt s l).st ≠ .active ∨ (laneAt s l).cfg.dfe ≠ 0)) ∧
    -- 3_2
    (∃ (l : Nat) (s : State) (t0 : _),
    (laneAt s l).rampAt = some t0 ∧
    t0 + 100 * us ≤ s.mono) ∧
    -- 4
    (∃ (p : Packet) (s : State),
    accepts opLaneEyeScan p s = true ∧
    (let c := (ctxOf opLaneEyeScan p (fetched opLaneEyeScan p s));
    let f := (fetched opLaneEyeScan p s);
    isLane (fld (c.w 0) 7 0) = true ∧ c.inst = fld (c.w 0) 7 0 ∧ scansRunning f < 8 ∧ (if isPonLane (fld (c.w 0) 7 0) then (mgetD f.pon.ports (fld (c.w 0) 7 0 - 128) {}).cfg.mode ≠ 0 else (laneAt f (fld (c.w 0) 7 0)).st = .active))) ∧
    -- 5
    (∃ (l : Nat) (q : Nat) (ws : List Word) (x : Exec) (s : State),
    isLane l = true ∧
    (laneAt s l).scanning = true ∧
    (let f := updLane l (fun x => { x with scanning := false }) s;
    executingQ f 0x8006 (· = [l]) = [q] ∧
    (pairAt f q).executing = some x ∧
    x.discard = false)) ∧
    -- 6
    (∃ (l : Nat) (s : State),
    l < 80) ∧
    -- 7_2
    (∃ (l : Nat) (st : LaneState) (s : State) (k : _),
    k ≠ l) ∧
    -- 8_highest
    (∃ (l : Nat) (peak : Nat) (freq : Int) (taps : List Int) (po : Nat) (pr : Nat) (sw : Nat) (pre : Bool) (s : State),
    l < 80 ∧
    (laneAt s l).st = .training ∧
    laneClocked s l = true ∧
    (laneAt s l).since ≤ s.mono ∧
    (laneAt s l).cfg.peakAuto = true ∧
    (laneWindow (laneAt s l)).1 ≤ peak ∧
    peak ≤ (laneWindow (laneAt s l)).2) ∧
    -- 8_lowest
    (∃ (l : Nat) (peak : Nat) (freq : Int) (taps : List Int) (po : Nat) (pr : Nat) (sw : Nat) (pre : Bool) (s : State),
    l < 80 ∧
    (laneAt s l).st = .training ∧
    laneClocked s l = true ∧
    (laneAt s l).since ≤ s.mono ∧
    (laneAt s l).cfg.peakAuto = true ∧
    (laneWindow (laneAt s l)).1 ≤ peak ∧
    peak ≤ (laneWindow (laneAt s l)).2) ∧
    -- 9
    (∃ (l : Nat) (peak : Nat) (freq : Int) (taps : List Int) (po : Nat) (pr : Nat) (sw : Nat) (pre : Bool) (s : State),
    l < 80 ∧
    (laneAt s l).st = .training ∧
    laneClocked s l = true ∧
    (laneAt s l).since ≤ s.mono ∧
    (laneAt s l).cfg.peakAuto = false) ∧
    -- 10_clock
    (∃ (l : Nat) (peak : Nat) (freq : Int) (taps : List Int) (po : Nat) (pr : Nat) (sw : Nat) (pre : Bool) (s : State),
    l < 80 ∧
    (laneClocked s l = false ∨ s.mono < (laneAt s l).since)) ∧
    -- 10_wait
    (∃ (l : Nat) (peak : Nat) (freq : Int) (taps : List Int) (po : Nat) (pr : Nat) (sw : Nat) (pre : Bool) (s : State),
    l < 80 ∧
    (laneClocked s l = false ∨ s.mono < (laneAt s l).since)) ∧
    -- 11
    (∃ (l : Nat) (s : State),
    l < 80 ∧
    (laneAt s l).st = .training ∧
    (laneAt s l).since + 100 * ms ≤ s.mono) ∧
    -- 12
    (∃ (l : Nat) (s : State),
    l < 80 ∧
    (laneAt s l).st = .active ∧
    (laneAt s l).cfg.idle = 1) ∧
    -- 13
    (∃ (l : Nat) (s : State),
    l < 80 ∧
    (laneAt s l).st = .idle ∧
    (laneAt s l).cfg.idle ≠ 2) ∧
    -- 14
    (∃ (l : Nat) (s : State),
    l < 80 ∧
    (laneAt s l).st = .idle ∧
    (laneAt s l).since + 100 * ms ≤ s.mono) ∧
    -- 15_1
    (∃ (l : Nat) (s : State),
    l < 80 ∧
    (laneAt s l).st = .exit ∧
    (laneAt s l).stale = false ∧
    (laneAt s l).cfg.idle ≠ 2) ∧
    -- 15_2
    (∃ (l : Nat) (s : State),
    l < 80 ∧
    (laneAt s l).st = .exit ∧
    (laneAt s l).stale = false ∧
    (laneAt s l).since + us ≤ s.mono) :=
  ⟨⟨(pk [0xBF, 0x001F1F20, 0x00000050] 191), up, by decide +kernel⟩,
  ⟨(pk [15, 0x80001F09, 0x00190028] 15), up, by decide +kernel⟩,
  ⟨(pk [128, 0x00001F20, 0x00190028] 128), up, by decide +kernel⟩,
  ⟨(pk [15, 0x80001F08, 0x00190028] 15), upL 15 { st := .active }, by decide +kernel⟩,
  ⟨(pk [15, 0x80001F09, 0x00190028] 15), upL 15 { st := .active }, by decide +kernel⟩,
  ⟨(pk [15, 0x80001F09, 0x00190028] 15), upL 15 { st := .exit }, by decide +kernel⟩,
  ⟨(pk [15, 0x80001F09, 0x00190028] 15), upL 15 { st := .idle }, by decide +kernel⟩,
  ⟨(pk [15, 0x80001F09, 0x00190028] 15), up, 16, by decide +kernel⟩,
  ⟨(pk [191] 191), up, by decide +kernel⟩,
  ⟨79, (upL 79 { st := .idle }), by decide +kernel⟩,
  ⟨79, upL 79 { st := .active, cfg := { dfe := 1 } }, by decide +kernel⟩,
  ⟨79, { upL 79 { rampAt := some 0 } with mono := 100 * us }, 0, by decide +kernel⟩,
  ⟨(pk [79] 79), (upL 79 { st := .active }), by decide +kernel⟩,
  ⟨79, 0, [], { op := 0x8006, pkt := pkr [79] 79, data := [79] }, st_LanesTrainIdleAndAnswer_4_s, by decide +kernel⟩,
  ⟨79, up, by decide +kernel⟩,
  ⟨79, .idle, up, 78, by decide +kernel⟩,
  ⟨79, 31, 0, [], 40, 25, 100, false, (upL 79 { st := .training }), by decide +kernel⟩,
  ⟨79, 0, 0, [], 40, 25, 100, false, (upL 79 { st := .training }), by decide +kernel⟩,
  ⟨79, 0, 0, [], 40, 25, 100, false, st_LanesTrainIdleAndAnswer_8_s, by decide +kernel⟩,
  ⟨79, 0, 0, [], 40, 25, 100, false, upP { refs := [(2, { valid := false })] }, by decide +kernel⟩,
  ⟨79, 0, 0, [], 40, 25, 100, false, upL 79 { st := .training, since := 1 }, by decide +kernel⟩,
  ⟨79, st_LanesTrainIdleAndAnswer_9_s, by decide +kernel⟩,
  ⟨79, st_LanesTrainIdleAndAnswer_10_s, by decide +kernel⟩,
  ⟨79, (upL 79 { st := .idle }), by decide +kernel⟩,
  ⟨79, st_LanesTrainIdleAndAnswer_12_s, by decide +kernel⟩,
  ⟨79, (upL 79 { st := .exit }), by decide +kernel⟩,
  ⟨79, st_LanesTrainIdleAndAnswer_13_2_s, by decide +kernel⟩⟩

def st_LanesFollowTheirSignals_3_tenth_s : State :=
  upL 79 { st := .active, losTimes := List.replicate 9 0 }

def st_LanesFollowTheirSignals_7_s : State :=
  { upL 79 { flapAt := some 0 } with mono := sec }

def st_LanesFollowTheirSignals_10_s : State :=
  { upL 79 { st := .active } with mono := 100 * ms }

def st_LanesFollowTheirSignals_11_s : State :=
  { upL 191 { st := .active } with mono := 10 * us }

theorem witness_LanesFollowTheirSignals :
    -- 1
    (∃ (l : Nat) (s : State),
    l < 80 ∧
    (laneAt s l).los = true ∧
    ((laneAt s l).signal = true ∨ (laneAt s l).st ≠ .idle ∨ (laneAt s l).cfg.idle = 2)) ∧
    -- 2
    (∃ (l : Nat) (s : State),
    l < 80 ∧
    (laneAt s l).los = false ∧
    ((laneAt s l).signal = true ∨ (laneAt s l).st ≠ .idle ∨ (laneAt s l).cfg.idle = 2)) ∧
    -- 3
    (∃ (l : Nat) (s : State),
    l < 80 ∧
    (laneAt s l).st = .idle ∧
    (laneAt s l).signal = false ∧
    (laneAt s l).cfg.idle ≠ 2) ∧
    -- 4_1_first
    (∃ (l : Nat) (s : State),
    l < 80 ∧
    (laneAt s l).los = false ∧
    (laneAt s l).st ≠ .idle ∧
    (laneAt s l).st ≠ .disabled) ∧
    -- 4_1_tenth
    (∃ (l : Nat) (s : State),
    l < 80 ∧
    (laneAt s l).los = false ∧
    (laneAt s l).st ≠ .idle ∧
    (laneAt s l).st ≠ .disabled) ∧
    -- 4_5
    (∃ (l : Nat) (s : State),
    l < 80 ∧
    (laneAt s l).los = false ∧
    (laneAt s l).st ≠ .idle ∧
    (laneAt s l).st ≠ .disabled ∧
    (let times := ((laneAt s l).losTimes.filter fun t => s.mono < t + sec) ++ [s.mono];
    times.length < 10)) ∧
    -- 4_6
    (∃ (l : Nat) (s : State),
    l < 80 ∧
    (laneAt s l).los = false ∧
    (laneAt s l).st ≠ .idle ∧
    (laneAt s l).st ≠ .disabled ∧
    (let times := ((laneAt s l).losTimes.filter fun t => s.mono < t + sec) ++ [s.mono];
    10 ≤ times.length ∧
    (laneAt s l).flap = false)) ∧
    -- 5
    (∃ (l : Nat) (s : State),
    l < 80 ∧
    ((laneAt s l).los = true ∨ (laneAt s l).st = .idle ∨ (laneAt s l).st = .disabled)) ∧
    -- 6
    (∃ (l : Nat) (freq : Int) (s : State),
    l < 80 ∧
    (laneAt s l).lol = false ∧
    (laneAt s l).los = false) ∧
    -- 7
    (∃ (l : Nat) (freq : Int) (s : State),
    l < 80) ∧
    -- 8
    (∃ (l : Nat) (t0 : Nat) (s : State),
    l < 80 ∧
    (laneAt s l).flapAt = some t0 ∧
    t0 + sec ≤ s.mono) ∧
    -- 9_1
    (∃ (l : Nat) (s : State),
    l < 80) ∧
    -- 9_4
    (∃ (l : Nat) (s : State) (k : _),
    l < 80 ∧
    k ≠ l) ∧
    -- 10
    (∃ (l : Nat) (los : Bool) (lol : Bool) (s : State),
    l < 80) ∧
    -- 11
    (∃ (l : Nat) (move : Nat) (s : State),
    l < 80 ∧
    (laneAt s l).st = .active ∧
    (laneAt s l).cfg.peakAuto = true ∧
    (laneAt s l).evalAt + 100 * ms ≤ s.mono) ∧
    -- 12
    (∃ (l : Nat) (s : State),
    isLane l = true ∧
    (laneAt s l).st = .active ∧
    (laneAt s l).lastMove + 10 * us ≤ s.mono) :=
  ⟨⟨79, upL 79 { los := true, signal := true }, by decide +kernel⟩,
  ⟨79, st_LanesFollowTheirSignals_3_tenth_s, by decide +kernel⟩,
  ⟨79, upL 79 { st := .idle }, by decide +kernel⟩,
  ⟨79, (upL 79 { st := .active }), by decide +kernel⟩,
  ⟨79, st_LanesFollowTheirSignals_3_tenth_s, by decide +kernel⟩,
  ⟨79, upL 79 { st := .active, losTimes := List.replicate 8 0 }, by decide +kernel⟩,
  ⟨79, st_LanesFollowTheirSignals_3_tenth_s, by decide +kernel⟩,
  ⟨79, up, by decide +kernel⟩,
  ⟨79, 0, up, by decide +kernel⟩,
  ⟨79, 0, up, by decide +kernel⟩,
  ⟨79, 0, st_LanesFollowTheirSignals_7_s, by decide +kernel⟩,
  ⟨79, up, by decide +kernel⟩,
  ⟨79, up, 78, by decide +kernel⟩,
  ⟨79, true, true, up, by decide +kernel⟩,
  ⟨79, 1, st_LanesFollowTheirSignals_10_s, by decide +kernel⟩,
  ⟨191, st_LanesFollowTheirSignals_11_s, by decide +kernel⟩⟩

def st_PlaitFramesAlignAndCarryCells_2_4_s : State :=
  upB { align := .presync, k := 1 }

def st_PlaitFramesAlignAndCarryCells_2_5_s : State :=
  upB { align := .presync, k := 2 }

def st_PlaitFramesAlignAndCarryCells_2_7_s : State :=
  upB { align := .sync, errored := 3 }

def st_PlaitFramesAlignAndCarryCells_4_s : State :=
  { upB { ctxs := [(63 * 256 + 63 * 4 + 2, { bytes := [], next := 0, last := 0 })] } with mono := 10 * us }

def st_PlaitFramesAlignAndCarryCells_6_s : State :=
  { up with mono := 10 * ms, link := { a := { backSince := [(63, 0)] } } }

def st_PlaitFramesAlignAndCarryCells_7_s : State :=
  { up with link := { b := { width := 1, announced := 64 } } }

theorem witness_PlaitFramesAlignAndCarryCells :
    -- 1
    (∃ (i : Nat) (fill : Nat) (bytes : List Byte) (fits : Bool) (env : Outside) (s : State),
    i < 2 ∧
    bytes.length = 8192 ∧
    (sideAt s i).enable = true ∧
    powered s (0x40 + i) = true) ∧
    -- 2_1
    (∃ (i : Nat) (fill : Nat) (bytes : List Byte) (fits : Bool) (env : Outside) (s : State),
    i < 2 ∧
    bytes.length = 8192 ∧
    (sideAt s i).enable = true ∧
    powered s (0x40 + i) = true ∧
    (let s1 := followWidth i bytes (takeFill i fill s);
    groupReady s1 i = false)) ∧
    -- 2_2_1
    (∃ (i : Nat) (fill : Nat) (bytes : List Byte) (fits : Bool) (env : Outside) (s : State),
    i < 2 ∧
    bytes.length = 8192 ∧
    (sideAt s i).enable = true ∧
    powered s (0x40 + i) = true ∧
    (let s1 := followWidth i bytes (takeFill i fill s);
    let x := sideAt s1 i;
    groupReady s1 i = true ∧
    x.align = .hunt ∧
    beNat (bytes.take 8) ≠ alignWord)) ∧
    -- 2_2_2
    (∃ (i : Nat) (fill : Nat) (bytes : List Byte) (fits : Bool) (env : Outside) (s : State),
    i < 2 ∧
    bytes.length = 8192 ∧
    (sideAt s i).enable = true ∧
    powered s (0x40 + i) = true ∧
    (let s1 := followWidth i bytes (takeFill i fill s);
    let x := sideAt s1 i;
    groupReady s1 i = true ∧
    x.align = .hunt ∧
    beNat (bytes.take 8) = alignWord ∧
    x.n ≠ 1)) ∧
    -- 2_2_3
    (∃ (i : Nat) (fill : Nat) (bytes : List Byte) (fits : Bool) (env : Outside) (s : State),
    i < 2 ∧
    bytes.length = 8192 ∧
    (sideAt s i).enable = true ∧
    powered s (0x40 + i) = true ∧
    (let s1 := followWidth i bytes (takeFill i fill s);
    let x := sideAt s1 i;
    groupReady s1 i = true ∧
    x.align = .presync ∧
    beNat (bytes.take 8) ≠ alignWord)) ∧
    -- 2_2_4
    (∃ (i : Nat) (fill : Nat) (bytes : List Byte) (fits : Bool) (env : Outside) (s : State),
    i < 2 ∧
    bytes.length = 8192 ∧
    (sideAt s i).enable = true ∧
    powered s (0x40 + i) = true ∧
    (let s1 := followWidth i bytes (takeFill i fill s);
    let x := sideAt s1 i;
    groupReady s1 i = true ∧
    x.align = .presync ∧
    beNat (bytes.take 8) = alignWord ∧
    x.k + 1 ≠ x.n)) ∧
    -- 2_2_5
    (∃ (i : Nat) (fill : Nat) (bytes : List Byte) (fits : Bool) (env : Outside) (s : State),
    i < 2 ∧
    bytes.length = 8192 ∧
    (sideAt s i).enable = true ∧
    powered s (0x40 + i) = true ∧
    (let s1 := followWidth i bytes (takeFill i fill s);
    let x := sideAt s1 i;
    groupReady s1 i = true ∧
    x.align = .presync ∧
    beNat (bytes.take 8) = alignWord ∧
    x.k + 1 = x.n)) ∧
    -- 2_2_6
    (∃ (i : Nat) (fill : Nat) (bytes : List Byte) (fits : Bool) (env : Outside) (s : State),
    i < 2 ∧
    bytes.length = 8192 ∧
    (sideAt s i).enable = true ∧
    powered s (0x40 + i) = true ∧
    (let s1 := followWidth i bytes (takeFill i fill s);
    let x := sideAt s1 i;
    groupReady s1 i = true ∧
    x.align = .sync ∧
    alignErrors (beNat (bytes.take 8)) ≤ 2)) ∧
    -- 2_2_7
    (∃ (i : Nat) (fill : Nat) (bytes : List Byte) (fits : Bool) (env : Outside) (s : State),
    i < 2 ∧
    bytes.length = 8192 ∧
    (sideAt s i).enable = true ∧
    powered s (0x40 + i) = true ∧
    (let s1 := followWidth i bytes (takeFill i fill s);
    let x := sideAt s1 i;
    groupReady s1 i = true ∧
    x.align = .sync ∧
    2 < alignErrors (beNat (bytes.take 8)) ∧
    x.errored + 1 = x.m)) ∧
    -- 3_1
    (∃ (i : Nat) (s : State),
    i < 2 ∧
    (sideAt s i).enable = true ∧
    powered s (0x40 + i) = true) ∧
    -- 3_6_1
    (∃ (i : Nat) (s : State),
    i < 2 ∧
    (sideAt s i).enable = true ∧
    powered s (0x40 + i) = true ∧
    widthDue s i = false) ∧
    -- 4_disabled
    (∃ (i : Nat) (s : State),
    i < 2 ∧
    ((sideAt s i).enable = false ∨ powered s (0x40 + i) = false)) ∧
    -- 4_dark
    (∃ (i : Nat) (s : State),
    i < 2 ∧
    ((sideAt s i).enable = false ∨ powered s (0x40 + i) = false)) ∧
    -- 5
    (∃ (i : Nat) (src : Nat) (ctx : Nat) (kind : Nat) (r : Reasm) (s : State),
    i < 2 ∧
    src < 64 ∧
    ctx < 64 ∧
    (let key := src * 256 + ctx * 4 + (if kind = 1 then 1 else 2);
    mget (sideAt s i).ctxs key = some r ∧
    r.last + 10 * us ≤ s.mono)) ∧
    -- 6
    (∃ (i : Nat) (s : State),
    i < 2 ∧
    (sideAt s i).windowAt + 100 * us ≤ s.mono) ∧
    -- 7
    (∃ (i : Nat) (card : Nat) (t0 : Nat) (s : State),
    i < 2 ∧
    card < 64 ∧
    s.link.sel.side = i ∧
    (sideAt s i).stuck.contains card = false ∧
    mget (sideAt s i).backSince card = some t0 ∧
    t0 + s.link.pauseMs * ms ≤ s.mono) ∧
    -- 8
    (∃ (i : Nat) (s : State),
    i < 2 ∧
    nextWidth s i ≠ (sideAt s i).txWidth ∧
    nextWidth s i = (sideAt s i).told ∧
    64 ≤ (sideAt s i).announced ∧
    (sideAt s i).txMfi = 0) :=
  ⟨⟨1, 0, (List.replicate 8192 0), true, {}, up, by decide +kernel⟩,
  ⟨1, 0, (List.replicate 8192 0), true, {}, { up with link := { b := { width := 3, rxWidth := 3 } } }, by decide +kernel⟩,
  ⟨1, 0, (List.replicate 8192 0), true, {}, (upB {}), by decide +kernel⟩,
  ⟨1, 0, (beBytes 8 alignWord ++ List.replicate 8184 0), true, {}, (upB {}), by decide +kernel⟩,
  ⟨1, 0, (List.replicate 8192 0), true, {}, (upB { align := .presync }), by decide +kernel⟩,
  ⟨1, 0, (beBytes 8 alignWord ++ List.replicate 8184 0), true, {}, st_PlaitFramesAlignAndCarryCells_2_4_s, by decide +kernel⟩,
  ⟨1, 0, (beBytes 8 alignWord ++ List.replicate 8184 0), true, {}, st_PlaitFramesAlignAndCarryCells_2_5_s, by decide +kernel⟩,
  ⟨1, 0, (beBytes 8 alignWord ++ List.replicate 8184 0), true, {}, (upB { align := .sync }), by decide +kernel⟩,
  ⟨1, 0, (List.replicate 8192 0), true, {}, st_PlaitFramesAlignAndCarryCells_2_7_s, by decide +kernel⟩,
  ⟨1, up, by decide +kernel⟩,
  ⟨1, up, by decide +kernel⟩,
  ⟨1, { up with link := { b := { enable := false } } }, by decide +kernel⟩,
  ⟨1, { up with halter := { gated := [0x41] } }, by decide +kernel⟩,
  ⟨1, 63, 63, 2, { bytes := [], next := 0, last := 0 }, st_PlaitFramesAlignAndCarryCells_4_s, by decide +kernel⟩,
  ⟨1, { up with mono := 100 * us }, by decide +kernel⟩,
  ⟨0, 63, 0, st_PlaitFramesAlignAndCarryCells_6_s, by decide +kernel⟩,
  ⟨1, { up with link := { b := { width := 1, told := 1, announced := 64 } } }, by decide +kernel⟩⟩

def st_ProtectionAndUplinkPortsMove_4_s : State :=
  { up with mono := 300 * sec, link := { sel := { st := .wtr } } }

def st_ProtectionAndUplinkPortsMove_7_s : State :=
  { up with mono := 10 * ms, link := { uplinks := [(3, { portEn := 15, arrange := 1 })], ports := [(15, { localFault := false })] } }

def st_ProtectionAndUplinkPortsMove_8_1_s : State :=
  { up with mono := 10 * ms, link := { uplinks := [(3, { portEn := 15, arrange := 1 })], ports := [(15, { localFault := false })] } }

def st_ProtectionAndUplinkPortsMove_8_2_s : State :=
  { up with mono := 10 * ms, link := { uplinks := [(3, { portEn := 15, arrange := 1 })], ports := [(15, { localFault := false })] } }

def st_ProtectionAndUplinkPortsMove_8_3_s : State :=
  { up with mono := 10 * ms, link := { uplinks := [(3, { portEn := 15, arrange := 1 })], ports := [(15, { localFault := false })] } }

theorem witness_ProtectionAndUplinkPortsMove :
    -- 1
    (∃ (p : _) (s : _),
    accepts opPlaitConfig p s = true ∧
    (let f := fetched opPlaitConfig p s;
    let w := ownWords p;
    let i := fld (nthW w 0) 31 31;
    plaitBad w = none ∧
    (f.link.sel.side = i → fld (nthW w 0) 30 30 = (sideAt f i).mode ∧ bit (nthW w 0) 26 = true))) ∧
    -- 2_force
    (∃ (p : Packet) (s : State),
    accepts opProtectionCommand p s = true ∧
    (let c := (ctxOf opProtectionCommand p (fetched opProtectionCommand p s));
    let f := (fetched opProtectionCommand p s);
    (fld (c.w 0) 31 29 ≤ 3 ∧ fld (c.w 0) 25 16 ≤ 50 ∧ 10 ≤ fld (c.w 0) 15 0 ∧ fld (c.w 0) 15 0 ≤ 720 ∧ (fld (c.w 0) 31 29 = 2 → sideFails f (fld (c.w 0) 28 28) = false ∧ f.link.sel.st ≠ .fs)))) ∧
    -- 2_set
    (∃ (p : Packet) (s : State),
    accepts opProtectionCommand p s = true ∧
    (let c := (ctxOf opProtectionCommand p (fetched opProtectionCommand p s));
    let f := (fetched opProtectionCommand p s);
    (fld (c.w 0) 31 29 ≤ 3 ∧ fld (c.w 0) 25 16 ≤ 50 ∧ 10 ≤ fld (c.w 0) 15 0 ∧ fld (c.w 0) 15 0 ≤ 720 ∧ (fld (c.w 0) 31 29 = 2 → sideFails f (fld (c.w 0) 28 28) = false ∧ f.link.sel.st ≠ .fs)))) ∧
    -- 3
    (∃ (i : Nat) (s : State),
    i < 2 ∧
    sideFails s i = true ∧
    mgetD s.link.sel.sfSince i s.mono + s.link.sel.holdOff * 10 * us ≤ s.mono) ∧
    -- 4
    (∃ (s : State),
    s.link.sel.st = .wtr ∧
    s.link.sel.wtrAt + s.link.sel.wtrS * sec ≤ s.mono) ∧
    -- 5_one_of_400G
    (∃ (p : Packet) (s : State),
    accepts opUplinkConfig p s = true ∧
    (let c := (ctxOf opUplinkConfig p (fetched opUplinkConfig p s));
    let f := (fetched opUplinkConfig p s);
    (
      let new : UplinkGroup := { portEn := fld (c.w 0) 31 28, fec := fld (c.w 0) 25 24, arrange := fld (c.w 0) 17 16 }
      let old := mgetD f.link.uplinks (fld (c.w 0) 1 0) {}
      let t := { f with link := { f.link with uplinks := mset f.link.uplinks (fld (c.w 0) 1 0) new } }
      c.inst = fld (c.w 0) 1 0 ∧ new.fec ≤ 1 ∧ new.arrange ≤ 2 ∧ (new.arrange = 2 → new.portEn ≤ 1) ∧
      (old.arrange = new.arrange ∨ old.arrange = 0 ∨ new.arrange = 0) ∧
      ∀ d < 2, reservedAll t d ≤ 32768 ∨ reservedAll t d ≤ reservedAll f d))) ∧
    -- 5_four
    (∃ (p : Packet) (s : State),
    accepts opUplinkConfig p s = true ∧
    (let c := (ctxOf opUplinkConfig p (fetched opUplinkConfig p s));
    let f := (fetched opUplinkConfig p s);
    (
      let new : UplinkGroup := { portEn := fld (c.w 0) 31 28, fec := fld (c.w 0) 25 24, arrange := fld (c.w 0) 17 16 }
      let old := mgetD f.link.uplinks (fld (c.w 0) 1 0) {}
      let t := { f with link := { f.link with uplinks := mset f.link.uplinks (fld (c.w 0) 1 0) new } }
      c.inst = fld (c.w 0) 1 0 ∧ new.fec ≤ 1 ∧ new.arrange ≤ 2 ∧ (new.arrange = 2 → new.portEn ≤ 1) ∧
      (old.arrange = new.arrange ∨ old.arrange = 0 ∨ new.arrange = 0) ∧
      ∀ d < 2, reservedAll t d ≤ 32768 ∨ reservedAll t d ≤ reservedAll f d))) ∧
    -- 6
    (∃ (n : Nat) (l : Bool) (r : Bool) (s : State),
    n < 16) ∧
    -- 7
    (∃ (n : Nat) (s : State),
    n < 16 ∧
    upEnabled s n = true ∧
    (upPort s n).localFault = false ∧
    (upPort s n).remoteFault = false ∧
    (upPort s n).clearSince + 10 * ms ≤ s.mono) ∧
    -- 8_1
    (∃ (n : Nat) (bs : List Byte) (fits : Bool) (s : State),
    n < 16 ∧
    upEnabled s n = true ∧
    powered s (0x30 + n / 4) = true ∧
    (upPort s n).localFault = false ∧
    withFcs bs ≠ bs) ∧
    -- 8_2
    (∃ (n : Nat) (bs : List Byte) (fits : Bool) (s : State),
    n < 16 ∧
    upEnabled s n = true ∧
    powered s (0x30 + n / 4) = true ∧
    (upPort s n).localFault = false ∧
    withFcs bs = bs ∧
    isPause bs = true) ∧
    -- 8_3
    (∃ (n : Nat) (bs : List Byte) (fits : Bool) (s : State),
    n < 16 ∧
    upEnabled s n = true ∧
    powered s (0x30 + n / 4) = true ∧
    (upPort s n).localFault = false ∧
    withFcs bs = bs ∧
    isPause bs = false ∧
    recognised s n bs = false) :=
  ⟨⟨(pk ([0x84610FFF, 0x03E8003F] ++ List.replicate 32 0)), up, by decide +kernel⟩,
  ⟨(pk [0x7832000A]), up, by decide +kernel⟩,
  ⟨(pk [0x000002D0]), up, by decide +kernel⟩,
  ⟨1, up, by decide +kernel⟩,
  ⟨st_ProtectionAndUplinkPortsMove_4_s, by decide +kernel⟩,
  ⟨(pk [0x11020003] 3), up, by decide +kernel⟩,
  ⟨(pk [0xF0010000]), up, by decide +kernel⟩,
  ⟨15, true, true, up, by decide +kernel⟩,
  ⟨15, st_ProtectionAndUplinkPortsMove_7_s, by decide +kernel⟩,
  ⟨15, (List.replicate 64 0), true, st_ProtectionAndUplinkPortsMove_8_1_s, by decide +kernel⟩,
  ⟨15, (withFcs (List.replicate 12 0 ++ [0x88, 8, 1, 1] ++ List.replicate 48 0)), true, st_ProtectionAndUplinkPortsMove_8_2_s, by decide +kernel⟩,
  ⟨15, (withFcs (List.replicate 64 0)), true, st_ProtectionAndUplinkPortsMove_8_3_s, by decide +kernel⟩⟩

def st_TimeCommandsTakeEffect_4_s : State :=
  { up with time := { servo := .holdover } }

def st_TimeCommandsTakeEffect_5_s : State :=
  { up with time := { source := 3 } }

def st_TimeCommandsTakeEffect_6_s : State :=
  { up with host := { up.host with hrq := [(255, { bound := 0, world := 0x100 })] } }

def st_TimeCommandsTakeEffect_7_lowest_s : State :=
  { up with time := { ptp := [(0, { mode := 1 })] } }

def st_TimeCommandsTakeEffect_11_s : State :=
  { up with time := { tsq := [(3, [{ msgType := 0, port := 15, id := 0, stamp := 0 }])] } }

def st_TimeCommandsTakeEffect_12_s : State :=
  { up with time := { tsq := [(3, [{ msgType := 0, port := 15, id := 0, stamp := 0 }])] } }

theorem witness_TimeCommandsTakeEffect :
    -- 1
    (∃ (p : Packet) (s : State),
    accepts opTimeRead p s = true) ∧
    -- 2
    (∃ (p : Packet) (s : State),
    accepts opTimeSet p s = true ∧
    (let c := (ctxOf opTimeSet p (fetched opTimeSet p s));
    fld (c.w 0) 1 0 = 0 ∧ (c.w 3).toNat < 1000000000)) ∧
    -- 3
    (∃ (v : Int) (p : Packet) (s : State),
    accepts opTimeSet p s = true ∧
    (let c := (ctxOf opTimeSet p (fetched opTimeSet p s));
    fld (c.w 0) 1 0 = 1 ∧ timeValue c = .ok v)) ∧
    -- 4
    (∃ (p : Packet) (s : State),
    accepts opTimeSet p s = true ∧
    (let c := (ctxOf opTimeSet p (fetched opTimeSet p s));
    let f := (fetched opTimeSet p s);
    fld (c.w 0) 1 0 = 2 ∧ f.time.servo = .holdover)) ∧
    -- 5
    (∃ (v : Int) (p : Packet) (s : State),
    accepts opTimeSet p s = true ∧
    (let c := (ctxOf opTimeSet p (fetched opTimeSet p s));
    let f := (fetched opTimeSet p s);
    fld (c.w 0) 1 0 = 3 ∧ timeValue c = .ok v ∧ f.time.source = 3)) ∧
    -- 6
    (∃ (p : Packet) (s : State),
    accepts opPtpConfig p s = true ∧
    (let c := (ctxOf opPtpConfig p (fetched opPtpConfig p s));
    let f := (fetched opPtpConfig p s);
    bit (c.w 0) 31 = true ∧ fld (c.w 0) 30 29 ≠ 3 ∧ fld (c.w 0) 15 8 ≠ 0 ∧ (hrqAt f (fld (c.w 0) 23 16)).bound ≠ 0xFF ∧ (hrqAt f (fld (c.w 0) 23 16)).world = 0x0100)) ∧
    -- 7
    (∃ (p : Packet) (s : State),
    (let range (w : Word) (lo hi : Nat) : Prop := lo ≤ w.toNat ∧ w.toNat ≤ hi;
    accepts opPtpConfig p s = true ∧
    (let c := (ctxOf opPtpConfig p (fetched opPtpConfig p s));
    let f := (fetched opPtpConfig p s);
    (bit (c.w 0) 31 = false ∧ fld (c.w 0) 30 28 ≤ 3 ∧ 24 ≤ fld (c.w 0) 23 16 ∧ fld (c.w 0) 23 16 ≤ 43 ∧ 1 ≤ fld (c.w 0) 15 0 ∧ fld (c.w 0) 15 0 ≤ 500 ∧ range (c.w 1) 100 1000000 ∧ range (c.w 2) 50 1000000 ∧ 1 ≤ fld (c.w 3) 31 16 ∧ (fld (c.w 0) 30 28 = 1 → f.time.ptp.any (fun e => e.2.mode ≠ 0) = true))))) ∧
    -- 7_highest
    (∃ (p : Packet) (s : State),
    (let range (w : Word) (lo hi : Nat) : Prop := lo ≤ w.toNat ∧ w.toNat ≤ hi;
    accepts opPtpConfig p s = true ∧
    (let c := (ctxOf opPtpConfig p (fetched opPtpConfig p s));
    let f := (fetched opPtpConfig p s);
    (bit (c.w 0) 31 = false ∧ fld (c.w 0) 30 28 ≤ 3 ∧ 24 ≤ fld (c.w 0) 23 16 ∧ fld (c.w 0) 23 16 ≤ 43 ∧ 1 ≤ fld (c.w 0) 15 0 ∧ fld (c.w 0) 15 0 ≤ 500 ∧ range (c.w 1) 100 1000000 ∧ range (c.w 2) 50 1000000 ∧ 1 ≤ fld (c.w 3) 31 16 ∧ (fld (c.w 0) 30 28 = 1 → f.time.ptp.any (fun e => e.2.mode ≠ 0) = true))))) ∧
    -- 8
    (∃ (p : Packet) (s : State),
    accepts opAsymmetrySet p s = true ∧
    (let c := (ctxOf opAsymmetrySet p (fetched opAsymmetrySet p s));
    bit (c.w 0) 31 = true)) ∧
    -- 9
    (∃ (p : Packet) (s : State),
    accepts opAsymmetrySet p s = true ∧
    (let c := (ctxOf opAsymmetrySet p (fetched opAsymmetrySet p s));
    bit (c.w 0) 31 = false ∧ fld (c.w 0) 5 0 ≤ 15)) ∧
    -- 10
    (∃ (p : Packet) (s : State),
    accepts opSynceConfig p s = true ∧
    (let c := (ctxOf opSynceConfig p (fetched opSynceConfig p s));
    ((fld (c.w 0) 31 24 ≤ 15 ∨ fld (c.w 0) 31 24 = 0xFF) ∧ (fld (c.w 0) 23 16 ≤ 15 ∨ fld (c.w 0) 23 16 = 0xFF) ∧ 3 ≤ fld (c.w 0) 13 8 ∧ fld (c.w 0) 13 8 ≤ 18 ∧ fld (c.w 0) 7 0 ≤ 12))) ∧
    -- 10_highest
    (∃ (p : Packet) (s : State),
    accepts opSynceConfig p s = true ∧
    (let c := (ctxOf opSynceConfig p (fetched opSynceConfig p s));
    ((fld (c.w 0) 31 24 ≤ 15 ∨ fld (c.w 0) 31 24 = 0xFF) ∧ (fld (c.w 0) 23 16 ≤ 15 ∨ fld (c.w 0) 23 16 = 0xFF) ∧ 3 ≤ fld (c.w 0) 13 8 ∧ fld (c.w 0) 13 8 ≤ 18 ∧ fld (c.w 0) 7 0 ≤ 12))) ∧
    -- 11
    (∃ (p : Packet) (s : State),
    accepts opTsQueueRead p s = true ∧
    (let c := (ctxOf opTsQueueRead p (fetched opTsQueueRead p s));
    c.hasBuf = false)) ∧
    -- 12
    (∃ (pick : TsEntry → Bool) (n : Nat) (q : List TsEntry),
    ((∀ e ∈ q, pick e = true))) ∧
    -- 13_1
    (∃ (pick : TsEntry → Bool) (n : Nat) (q : List TsEntry) (e : _),
    (e ∈ (takeStamps pick n q).1)) ∧
    -- 13_2
    (∃ (pick : TsEntry → Bool) (n : Nat) (q : List TsEntry) (e : _),
    (e ∈ q ∧
    pick e = false)) :=
  ⟨⟨(pk []), up, by decide +kernel⟩,
  ⟨(pk [0, 0, 0, 999999999, 0xFFFF]), up, by decide +kernel⟩,
  ⟨-65536, ⟨(pk [1, 0, 0, 0xFFFFFFFF, 0]), up, by refine ⟨?_, ?_, ?_⟩ <;> decide +kernel⟩⟩,
  ⟨(pk [2]), st_TimeCommandsTakeEffect_4_s, by decide +kernel⟩,
  ⟨65536, ⟨(pk [3, 0, 0, 1, 0]), st_TimeCommandsTakeEffect_5_s, by refine ⟨?_, ?_, ?_, ?_⟩ <;> decide +kernel⟩⟩,
  ⟨(pk [0xC0FF010F]), st_TimeCommandsTakeEffect_6_s, by decide +kernel⟩,
  ⟨(pk [0x10180001, 100, 50, 0x00010000, 0, 0]), st_TimeCommandsTakeEffect_7_lowest_s, by decide +kernel⟩,
  ⟨(pk [0x302B01F4, 1000000, 1000000, 0xFFFF0000, 0xFFFFFFFF, 0xFFFFFFFF]), up, by decide +kernel⟩,
  ⟨(pk [0x8000003F, 1, 0, 0, 0x40000000]), up, by decide +kernel⟩,
  ⟨(pk [0x0000000F, 1, 2, 3, 0]), up, by decide +kernel⟩,
  ⟨(pk [0xFF0F0300, 0, 0, 0]), up, by decide +kernel⟩,
  ⟨(pk [0x0FFF120C, 0, 0, 0]), up, by decide +kernel⟩,
  ⟨(pk [3]), st_TimeCommandsTakeEffect_11_s, by decide +kernel⟩,
  ⟨fun e => decide (e.port = 15), 1, [⟨0, 15, 1, 2⟩], by decide +kernel⟩,
  ⟨fun e => decide (e.port = 15), 1, [⟨0, 15, 1, 2⟩], ⟨0, 15, 1, 2⟩, by decide +kernel⟩,
  ⟨fun e => decide (e.port = 15), 1, [⟨0, 14, 1, 2⟩], ⟨0, 14, 1, 2⟩, by decide +kernel⟩⟩

def st_TicksStepAndServoMeasures_3_s : State :=
  { up with time := { due := [⟨true, 5, 2⟩] } }

def st_TicksStepAndServoMeasures_4_s : State :=
  { Tests.up with time := { source := 1, ptp := [(15, { mode := 1 })] } }

def st_TicksStepAndServoMeasures_6_1_s : State :=
  { up with time := { servo := .acquiring, beyond := 0, good := 0 } }

def st_TicksStepAndServoMeasures_6_2_s : State :=
  { up with time := { servo := .acquiring, beyond := 1, good := 0 } }

def st_TicksStepAndServoMeasures_6_3_locks_s : State :=
  { up with time := { servo := .acquiring, beyond := 0, good := 15 } }

def st_TicksStepAndServoMeasures_6_3_zero_s : State :=
  { up with time := { servo := .acquiring, beyond := 0, good := 0 } }

def st_TicksStepAndServoMeasures_6_4_edge_s : State :=
  { up with time := { servo := .acquiring, beyond := 0, good := 0 } }

def st_TicksStepAndServoMeasures_6_4_first_s : State :=
  { up with time := { servo := .acquiring, beyond := 0, good := 0 } }

def st_TicksStepAndServoMeasures_7_s : State :=
  { up with mono := 4 * sec, time := { servo := .locked } }

theorem witness_TicksStepAndServoMeasures :
    -- 1
    (∃ (n : Nat) (s : State),
    s.time.due = [] ∧
    (n = 0 ∨ s.time.asymNext = [])) ∧
    -- 2
    (∃ (n : Nat) (d : AsymDue) (s : State),
    s.time.asymNext = [d]) ∧
    -- 3
    (∃ (n : Nat) (s : State),
    s.cipher.inPipes = []) ∧
    -- 4
    (∃ (d : StepDue) (n : Nat) (s : State),
    s.time.due = [d] ∧
    s.time.asymNext = [] ∧
    s.cipher.inPipes = []) ∧
    -- 5
    (∃ (port : Nat) (d : Bool) (v : Int) (s : State),
    port < 16 ∧
    s.time.source = 1 ∧
    (ptpAt s port).mode = 1 ∧
    (ptpAt s port).notSlave = false) ∧
    -- 6
    (∃ (port : Nat) (down : Int) (p : Int) (s : State),
    (s.time.servo = .acquiring ∨ s.time.servo = .locked) ∧
    s.time.meanPath = some p) ∧
    -- 7_1
    (∃ (port : Nat) (down : Int) (up : Int) (p : Int) (s : State),
    (s.time.servo = .acquiring ∨ s.time.servo = .locked) ∧
    s.time.down = some down ∧
    s.time.meanPath = some p ∧
    (let path := (down + up).tdiv 2;
    pathFar s path p = false)) ∧
    -- 7_2
    (∃ (port : Nat) (down : Int) (up : Int) (p : Int) (s : State),
    (s.time.servo = .acquiring ∨ s.time.servo = .locked) ∧
    s.time.down = some down ∧
    s.time.meanPath = some p ∧
    (let path := (down + up).tdiv 2;
    pathFar s path p = true ∧
    s.time.pathRun = 0)) ∧
    -- 7_3
    (∃ (port : Nat) (down : Int) (up : Int) (p : Int) (s : State),
    (s.time.servo = .acquiring ∨ s.time.servo = .locked) ∧
    s.time.down = some down ∧
    s.time.meanPath = some p ∧
    (let path := (down + up).tdiv 2;
    pathFar s path p = true ∧
    1 ≤ s.time.pathRun)) ∧
    -- 8
    (∃ (off : Int) (s : State),
    s.time.servo = .unset) ∧
    -- 9_1
    (∃ (off : Int) (s : State),
    (s.time.servo = .acquiring ∨ s.time.servo = .locked) ∧
    nsFrac s.time.stepTh < (off.natAbs : Int) ∧
    s.time.beyond = 0) ∧
    -- 9_2
    (∃ (off : Int) (s : State),
    (s.time.servo = .acquiring ∨ s.time.servo = .locked) ∧
    nsFrac s.time.stepTh < (off.natAbs : Int) ∧
    1 ≤ s.time.beyond) ∧
    -- 9_3_locks
    (∃ (off : Int) (s : State),
    (s.time.servo = .acquiring ∨ s.time.servo = .locked) ∧
    (off.natAbs : Int) ≤ nsFrac s.time.stepTh ∧
    (off.natAbs : Int) ≤ nsFrac 100) ∧
    -- 9_3_zero
    (∃ (off : Int) (s : State),
    (s.time.servo = .acquiring ∨ s.time.servo = .locked) ∧
    (off.natAbs : Int) ≤ nsFrac s.time.stepTh ∧
    (off.natAbs : Int) ≤ nsFrac 100) ∧
    -- 9_4_edge
    (∃ (off : Int) (s : State),
    (s.time.servo = .acquiring ∨ s.time.servo = .locked) ∧
    (off.natAbs : Int) ≤ nsFrac s.time.stepTh ∧
    nsFrac 100 < (off.natAbs : Int)) ∧
    -- 9_4_first
    (∃ (off : Int) (s : State),
    (s.time.servo = .acquiring ∨ s.time.servo = .locked) ∧
    (off.natAbs : Int) ≤ nsFrac s.time.stepTh ∧
    nsFrac 100 < (off.natAbs : Int)) ∧
    -- 10
    (∃ (s : State),
    s.time.servo = .locked ∧
    s.time.lastMeas + 4 * sec ≤ s.mono) ∧
    -- 12
    (∃ (i : Nat) (s : State),
    i < 20) ∧
    -- 13_2
    (∃ (s : State),
    selectSource s = s.time.selected) ∧
    -- 15
    (∃ (port : Nat) (s : State),
    port < 16 ∧
    (mgetD s.time.sources port {}).heard + 5 * sec ≤ s.mono) ∧
    -- 16
    (∃ (i : Nat) (t : Terminal) (s : State),
    termAt s i = some t) :=
  ⟨⟨1, up, by decide +kernel⟩,
  ⟨1, ⟨false, 0, {}⟩, { up with time := { asymNext := [⟨false, 0, {}⟩] } }, by decide +kernel⟩,
  ⟨1, up, by decide +kernel⟩,
  ⟨⟨true, 5, 2⟩, 0, st_TicksStepAndServoMeasures_3_s, by decide +kernel⟩,
  ⟨15, 0, 0, st_TicksStepAndServoMeasures_4_s, by decide +kernel⟩,
  ⟨15, 65536001, 0, { up with time := { servo := .acquiring, meanPath := some 0, pathRun := 0, down := some 1000000000000 } }, by decide +kernel⟩,
  ⟨15, 1000000000000, -1000000000000, 0, { up with time := { servo := .acquiring, meanPath := some 0, pathRun := 0, down := some 1000000000000 } }, by decide +kernel⟩,
  ⟨15, 1000000000000, 1000000000000, 0, { up with time := { servo := .acquiring, meanPath := some 0, pathRun := 0, down := some 1000000000000 } }, by decide +kernel⟩,
  ⟨15, 1000000000000, 1000000000000, 0, { up with time := { servo := .acquiring, meanPath := some 0, pathRun := 1, down := some 1000000000000 } }, by decide +kernel⟩,
  ⟨0, up, by decide +kernel⟩,
  ⟨65536001, st_TicksStepAndServoMeasures_6_1_s, by decide +kernel⟩,
  ⟨65536001, st_TicksStepAndServoMeasures_6_2_s, by decide +kernel⟩,
  ⟨6553600, st_TicksStepAndServoMeasures_6_3_locks_s, by decide +kernel⟩,
  ⟨0, st_TicksStepAndServoMeasures_6_3_zero_s, by decide +kernel⟩,
  ⟨65536000, st_TicksStepAndServoMeasures_6_4_edge_s, by decide +kernel⟩,
  ⟨6553601, st_TicksStepAndServoMeasures_6_4_first_s, by decide +kernel⟩,
  ⟨st_TicksStepAndServoMeasures_7_s, by decide +kernel⟩,
  ⟨19, up, by decide +kernel⟩,
  ⟨up, by decide +kernel⟩,
  ⟨15, { up with mono := 5 * sec }, by decide +kernel⟩,
  ⟨0, term0, (upT term0), by decide +kernel⟩⟩

def st_PtpFramesAndPulsesCarryTime_1_s : State :=
  { up with time := { ptp := [(15, { mode := 2 })] }, link := { ports := [(15, { up := true })] } }

def st_PtpFramesAndPulsesCarryTime_2_s : State :=
  { up with time := { ptp := [(15, { mode := 2 })] }, link := { ports := [(15, { up := true })] } }

def st_PtpFramesAndPulsesCarryTime_3_s : State :=
  { up with time := { ptp := [(15, { mode := 2 })] }, link := { ports := [(15, { up := false })] } }

def st_PtpFramesAndPulsesCarryTime_4_s : State :=
  { up with time := { servo := .locked } }

def st_PtpFramesAndPulsesCarryTime_5_s : State :=
  { up with mono := 900 * ms - 1, time := { source := 2, ppsEdgeAt := some 0 } }

def st_PtpFramesAndPulsesCarryTime_6_s : State :=
  { up with time := { source := 2 } }

def st_PtpFramesAndPulsesCarryTime_7_first_s : State :=
  { up with mono := ms, time := { source := 2, ppsEdge := some (0, 0) } }

def st_PtpFramesAndPulsesCarryTime_7_last_s : State :=
  { up with mono := 500 * ms, time := { source := 2, ppsEdge := some (0, 0) } }

def st_PtpFramesAndPulsesCarryTime_8_s : State :=
  { up with time := { source := 2 } }

def st_PtpFramesAndPulsesCarryTime_9_s : State :=
  { up with mono := 2 * sec, time := { source := 2 } }

theorem witness_PtpFramesAndPulsesCarryTime :
    -- 1
    (∃ (n : Nat) (bs : List Byte) (s : State),
    n < 16 ∧
    recognised s n bs = true) ∧
    -- 2_1
    (∃ (n : Nat) (bs : List Byte) (s : State),
    n < 16 ∧
    recognised s n bs = true ∧
    (upPort s n).up = true) ∧
    -- 2_3
    (∃ (n : Nat) (bs : List Byte) (s : State),
    n < 16 ∧
    recognised s n bs = true ∧
    (upPort s n).up = true ∧
    (let oneStep := ptpType bs = 0 ∧ (ptpAt s n).twoStep = false;
    ¬ oneStep)) ∧
    -- 2_4
    (∃ (n : Nat) (bs : List Byte) (s : State),
    n < 16 ∧
    recognised s n bs = true ∧
    (upPort s n).up = true ∧
    (let oneStep := ptpType bs = 0 ∧ (ptpAt s n).twoStep = false;
    oneStep)) ∧
    -- 2_5
    (∃ (n : Nat) (bs : List Byte) (s : State),
    n < 16 ∧
    recognised s n bs = true ∧
    (upPort s n).up = true ∧
    (let queued := (ptpType bs = 0 ∧ (ptpAt s n).twoStep = true) ∨ ptpType bs = 1;
    queued ∧
    (ptpAt s n).mode = 2 ∧
    (mgetD s.time.tsq (n / 4) []).length < 64)) ∧
    -- 3
    (∃ (n : Nat) (bs : List Byte) (s : State),
    n < 16 ∧
    recognised s n bs = true ∧
    (upPort s n).up = false) ∧
    -- 4
    (∃ (s : State),
    s.time.servo ≠ .unset ∧
    s.time.ppsHigh = false ∧
    ((stampAt s s.time.ppsOutDelay % tcSecond : Nat) : Int) < (14073748835533 : Int) + s.time.corr) ∧
    -- 5
    (∃ (t0 : Nat) (n : Nat) (s : State),
    s.time.todDue = [(t0, n)]) ∧
    -- 6
    (∃ (t0 : Nat) (s : State),
    s.time.source = 2 ∧
    s.time.ppsEdgeAt = some t0 ∧
    s.mono < t0 + 900 * ms) ∧
    -- 7
    (∃ (s : State),
    s.time.source = 2 ∧
    (∀ t0, s.time.ppsEdgeAt = some t0 → t0 + 900 * ms ≤ s.mono)) ∧
    -- 8_first
    (∃ (sec_ : Nat) (stamp : Nat) (at_ : Nat) (s : State),
    s.time.source = 2 ∧
    s.time.ppsEdge = some (stamp, at_) ∧
    at_ + ms ≤ s.mono ∧
    s.mono ≤ at_ + 500 * ms ∧
    (∀ p, s.time.todSecond = some p → sec_ = p + 1)) ∧
    -- 8_last
    (∃ (sec_ : Nat) (stamp : Nat) (at_ : Nat) (s : State),
    s.time.source = 2 ∧
    s.time.ppsEdge = some (stamp, at_) ∧
    at_ + ms ≤ s.mono ∧
    s.mono ≤ at_ + 500 * ms ∧
    (∀ p, s.time.todSecond = some p → sec_ = p + 1)) ∧
    -- 9
    (∃ (sec_ : Nat) (s : State),
    s.time.source = 2 ∧
    s.time.ppsEdge = none) ∧
    -- 10
    (∃ (s : State),
    s.time.source = 2 ∧
    s.time.ppsEdgeAt.getD 0 + 2 * sec ≤ s.mono ∧
    s.time.ppsMissAt + 2 * sec ≤ s.mono) :=
  ⟨⟨15, ((List.replicate 12 0 ++ [0x88, 0xF7] ++ List.replicate 50 0)), st_PtpFramesAndPulsesCarryTime_1_s, by decide +kernel⟩,
  ⟨15, ((List.replicate 12 0 ++ [0x88, 0xF7] ++ List.replicate 50 0)), st_PtpFramesAndPulsesCarryTime_2_s, by decide +kernel⟩,
  ⟨15, ((List.replicate 12 0 ++ [0x88, 0xF7] ++ List.replicate 50 0)), { up with time := { ptp := [(15, { mode := 2, twoStep := true })] }, link := { ports := [(15, { up := true })] } }, by decide +kernel⟩,
  ⟨15, ((List.replicate 12 0 ++ [0x88, 0xF7] ++ List.replicate 50 0)), st_PtpFramesAndPulsesCarryTime_2_s, by decide +kernel⟩,
  ⟨15, ((List.replicate 12 0 ++ [0x88, 0xF7] ++ List.replicate 50 0)), { up with time := { ptp := [(15, { mode := 2, twoStep := true })] }, link := { ports := [(15, { up := true })] } }, by decide +kernel⟩,
  ⟨15, ((List.replicate 12 0 ++ [0x88, 0xF7] ++ List.replicate 50 0)), st_PtpFramesAndPulsesCarryTime_3_s, by decide +kernel⟩,
  ⟨st_PtpFramesAndPulsesCarryTime_4_s, by decide +kernel⟩,
  ⟨5, 1, { up with time := { todDue := [(5, 1)] } }, by decide +kernel⟩,
  ⟨0, st_PtpFramesAndPulsesCarryTime_5_s, by decide +kernel⟩,
  ⟨st_PtpFramesAndPulsesCarryTime_6_s, by exact ⟨by decide +kernel, of_none (by decide +kernel)⟩⟩,
  ⟨5, 0, 0, st_PtpFramesAndPulsesCarryTime_7_first_s, by exact ⟨by decide +kernel, by decide +kernel, by decide +kernel, by decide +kernel, of_none (by decide +kernel)⟩⟩,
  ⟨5, 0, 0, st_PtpFramesAndPulsesCarryTime_7_last_s, by exact ⟨by decide +kernel, by decide +kernel, by decide +kernel, by decide +kernel, of_none (by decide +kernel)⟩⟩,
  ⟨5, st_PtpFramesAndPulsesCarryTime_8_s, by decide +kernel⟩,
  ⟨st_PtpFramesAndPulsesCarryTime_9_s, by decide +kernel⟩⟩

def st_HalterEntersAndWakes_2_s : State :=
  { up with halter := { stage := .s1 } }

def st_HalterEntersAndWakes_3_1_s : State :=
  { up with halter := { stage := .s1 } }

def st_HalterEntersAndWakes_3_2_s : State :=
  { up with halter := { stage := .s2 }, pkt := { flights := [(0, { frame := frame0 })] }, link := { a := { enable := false }, b := { txWidth := 3 } } }

def st_HalterEntersAndWakes_3_3_s : State :=
  { up with halter := { stage := .s3 }, pkt := { flights := [(0, { frame := frame0 })] } }

def st_HalterEntersAndWakes_3_4_s : State :=
  { up with halter := { stage := .s4 } }

def st_HalterEntersAndWakes_3_5_s : State :=
  { up with halter := { stage := .s5 } }

def st_HalterEntersAndWakes_4_s : State :=
  { up with halter := { stage := .s1, wake := some 1 } }

def st_HalterEntersAndWakes_5_s : State :=
  { up with halter := { stage := .s3 }, mono := 5 * ms }

def st_HalterEntersAndWakes_6_s : State :=
  { up with halter := { stage := .halter, wake := some 2 }, mono := 40 * us }

theorem witness_HalterEntersAndWakes :
    -- 1
    (∃ (p : Packet) (s : State),
    accepts opHalterEnter p s = true ∧
    (let f := (fetched opHalterEnter p s);
    (f.boot.state = .ready ∧ f.halter.stage = .outside ∧ f.epoch.phase = .none ∧ (∀ e ∈ f.rules.versions, e.2.st ≠ .draining) ∧ f.mem.retiring = none))) ∧
    -- 2
    (∃ (p : Packet) (s : State),
    accepts opHalterExit p s = true ∧
    (let f := (fetched opHalterExit p s);
    f.halter.stage ≠ .outside)) ∧
    -- 3_1
    (∃ (lost : List Upset) (s : State),
    s.halter.wake = none ∧
    s.halter.stage = .s1) ∧
    -- 3_2
    (∃ (lost : List Upset) (s : State),
    s.halter.wake = none ∧
    (let emptyPath := ∀ e ∈ s.pkt.flights, e.2.place = .ingress ∨ e.2.place = .array ∨ e.2.place = .held;
    s.halter.stage = .s2 ∧
    emptyPath ∧
    (∀ i < 2, (sideAt s i).enable = true → (sideAt s i).txWidth = 3))) ∧
    -- 3_3
    (∃ (lost : List Upset) (s : State),
    s.halter.wake = none ∧
    (let emptyPath := ∀ e ∈ s.pkt.flights, e.2.place = .ingress ∨ e.2.place = .array ∨ e.2.place = .held;
    s.halter.stage = .s3 ∧
    emptyPath ∧
    (∀ e ∈ s.tm.queues, e.2.held = []))) ∧
    -- 3_4
    (∃ (lost : List Upset) (s : State),
    s.halter.wake = none ∧
    (let flushed := flushTree (forBelow 16 (fun p s => spill p (runLen (poolAt s p).cache) s) s);
    s.halter.stage = .s4 ∧
    flushed.halter.wake = none)) ∧
    -- 3_5
    (∃ (lost : List Upset) (s : State),
    s.halter.wake = none ∧
    s.halter.stage = .s5 ∧
    (gateAll s).halter.wake = none) ∧
    -- 4
    (∃ (lost : List Upset) (w : Nat) (s : State),
    s.halter.wake = some w ∧
    s.halter.stage = .s1) ∧
    -- 5
    (∃ (s : State),
    s.halter.stage = .s3 ∧
    s.halter.since + 5 * ms ≤ s.mono) ∧
    -- 6
    (∃ (lost : List Upset) (w : Nat) (s : State),
    s.halter.stage = .halter ∧
    s.halter.wake = some w ∧
    s.halter.since + 40 * us ≤ s.mono) :=
  ⟨⟨(pk []), up, by decide +kernel⟩,
  ⟨(pk []), st_HalterEntersAndWakes_2_s, by decide +kernel⟩,
  ⟨[], st_HalterEntersAndWakes_3_1_s, by decide +kernel⟩,
  ⟨[], st_HalterEntersAndWakes_3_2_s, by decide +kernel⟩,
  ⟨[], st_HalterEntersAndWakes_3_3_s, by decide +kernel⟩,
  ⟨[{ place := 7, bytes := [1] }], st_HalterEntersAndWakes_3_4_s, by decide +kernel⟩,
  ⟨[{ place := 7, bytes := [1] }], st_HalterEntersAndWakes_3_5_s, by decide +kernel⟩,
  ⟨[{ place := 7, bytes := [1] }], 1, st_HalterEntersAndWakes_4_s, by decide +kernel⟩,
  ⟨st_HalterEntersAndWakes_5_s, by decide +kernel⟩,
  ⟨[{ place := 7, bytes := [1] }], 2, st_HalterEntersAndWakes_6_s, by decide +kernel⟩⟩

def st_DomainsGateAndKeeperForwards_1_s : State :=
  { up with halter := { gated := [0xF0] } }

def st_DomainsGateAndKeeperForwards_2_s : State :=
  { up with halter := { stage := .halter, gated := [3] } }

def st_DomainsGateAndKeeperForwards_4_s : State :=
  { up with pkt := { flights := [(0, { frame := { frame0 with slice := 3 }, place := .out })] } }

def st_DomainsGateAndKeeperForwards_5_s : State :=
  { up with halter := { stage := .halter, gated := [3] } }

def st_DomainsGateAndKeeperForwards_6_s : State :=
  { up with halter := { stage := .s5 } }

def st_DomainsGateAndKeeperForwards_7_1_s : State :=
  { up with halter := { stage := .s2 }, pkt := { flights := [(0, { frame := frame0 })] }, tm := { quotas := [(0x100, { ondie := 3 })] } }

def st_DomainsGateAndKeeperForwards_7_2_s : State :=
  { up with halter := { stage := .s2 }, pkt := { flights := [(0, { frame := frame0 })] }, tm := { quotas := [(0x100, { ondie := 4 })] } }

def st_DomainsGateAndKeeperForwards_8_s : State :=
  { up with halter := { stage := .s2 }, pkt := { flights := [(0, { frame := frame0 })] }, tm := { quotas := [(0x100, { ondie := 4 })] } }

def st_DomainsGateAndKeeperForwards_9_s : State :=
  { up with halter := { stage := .halter } }

theorem witness_DomainsGateAndKeeperForwards :
    -- 1
    (∃ (p : Packet) (s : State),
    accepts opDomainControl p s = true ∧
    (let c := (ctxOf opDomainControl p (fetched opDomainControl p s));
    isDomain (fld (c.w 0) 7 0) = true ∧ bit (c.w 0) 31 = true)) ∧
    -- 2
    (∃ (p : Packet) (s : State),
    accepts opDomainControl p s = true ∧
    (let c := (ctxOf opDomainControl p (fetched opDomainControl p s));
    let f := (fetched opDomainControl p s);
    isDomain (fld (c.w 0) 7 0) = true ∧ bit (c.w 0) 31 = false ∧ offPermitted f (fld (c.w 0) 7 0) = true ∧ powered f (fld (c.w 0) 7 0) = false)) ∧
    -- 3
    (∃ (p : Packet) (s : State),
    accepts opDomainControl p s = true ∧
    (let c := (ctxOf opDomainControl p (fetched opDomainControl p s));
    let f := (fetched opDomainControl p s);
    4 ≤ fld (c.w 0) 7 0 ∧ isDomain (fld (c.w 0) 7 0) = true ∧ bit (c.w 0) 31 = false ∧ powered f (fld (c.w 0) 7 0) = true ∧ f.halter.stage ≠ .halter ∧ offPermitted f (fld (c.w 0) 7 0) = true)) ∧
    -- 3_group
    (∃ (p : Packet) (s : State),
    accepts opDomainControl p s = true ∧
    (let c := (ctxOf opDomainControl p (fetched opDomainControl p s));
    let f := (fetched opDomainControl p s);
    4 ≤ fld (c.w 0) 7 0 ∧ isDomain (fld (c.w 0) 7 0) = true ∧ bit (c.w 0) 31 = false ∧ powered f (fld (c.w 0) 7 0) = true ∧ f.halter.stage ≠ .halter ∧ offPermitted f (fld (c.w 0) 7 0) = true)) ∧
    -- 4
    (∃ (p : Packet) (s : State),
    accepts opDomainControl p s = true ∧
    (let c := (ctxOf opDomainControl p (fetched opDomainControl p s));
    let f := (fetched opDomainControl p s);
    fld (c.w 0) 7 0 < 4 ∧ bit (c.w 0) 31 = false ∧ powered f (fld (c.w 0) 7 0) = true ∧ f.halter.leaving = [] ∧ f.halter.stage ≠ .halter ∧ offPermitted f (fld (c.w 0) 7 0) = true ∧ sliceEmpty f (fld (c.w 0) 7 0) = false)) ∧
    -- 5
    (∃ (d : Nat) (lost : List Upset) (s : State),
    s.halter.stage = .halter ∧
    s.halter.gated.contains d = true) ∧
    -- 7
    (∃ (b : Nat) (s : State),
    b < 8 ∧
    s.halter.lost.contains b = false) ∧
    -- 8_1
    (∃ (id : Nat) (x : Flight) (s : State),
    flightAt s id = some x ∧
    keeperPath s = true ∧
    x.place = .ingress ∧
    x.void = false ∧
    (∀ f ∈ s.halter.buffer, f.frame ≠ id) ∧
    keeperEarlier s id x.frame.source = false ∧
    x.chan = none ∧
    x.frame.poison = false ∧
    (bankOf s x.frame).isSome = true ∧
    (let t := frameIn 0x4D x.frame.world x.frame.len s;
    let mine := keeperBytes t (· = x.frame.world);
    keeperLookup x s = none ∧
    16 * (quotaAt t x.frame.world).ondie < mine + x.frame.len)) ∧
    -- 8_2
    (∃ (id : Nat) (x : Flight) (s : State),
    flightAt s id = some x ∧
    keeperPath s = true ∧
    x.place = .ingress ∧
    x.void = false ∧
    (∀ f ∈ s.halter.buffer, f.frame ≠ id) ∧
    keeperEarlier s id x.frame.source = false ∧
    x.chan = none ∧
    x.frame.poison = false ∧
    (bankOf s x.frame).isSome = true ∧
    (let t := frameIn 0x4D x.frame.world x.frame.len s;
    let mine := keeperBytes t (· = x.frame.world);
    keeperLookup x s = none ∧
    mine + x.frame.len ≤ 16 * (quotaAt t x.frame.world).ondie ∧
    keeperBytes t (fun _ => true) + x.frame.len ≤ 8388608)) ∧
    -- 9_1
    (∃ (id : Nat) (x : Flight) (s : State),
    flightAt s id = some x ∧
    keeperPath s = true ∧
    x.place = .ingress ∧
    x.void = false ∧
    (∀ f ∈ s.halter.buffer, f.frame ≠ id) ∧
    keeperEarlier s id x.frame.source = true) ∧
    -- 9_2
    (∃ (id : Nat) (x : Flight) (s : State),
    flightAt s id = some x ∧
    keeperPath s = true ∧
    x.place = .ingress ∧
    x.void = false ∧
    (∀ f ∈ s.halter.buffer, f.frame ≠ id) ∧
    keeperEarlier s id x.frame.source = false ∧
    x.frame.poison = true) ∧
    -- 9_3
    (∃ (id : Nat) (x : Flight) (s : State),
    flightAt s id = some x ∧
    keeperPath s = true ∧
    x.place = .ingress ∧
    x.void = false ∧
    (∀ f ∈ s.halter.buffer, f.frame ≠ id) ∧
    keeperEarlier s id x.frame.source = false ∧
    x.frame.poison = false ∧
    bankOf s x.frame = none) ∧
    -- 10
    (∃ (root : NodeId) (k : KeeperFrame) (o : Outcome15) (x : Flight) (s : State),
    flightAt s k.frame = some x) ∧
    -- 11
    (∃ (port : Nat) (s : State),
    port < 64 ∧
    s.halter.stage = .halter) :=
  ⟨⟨(pk [0x800000F0]), st_DomainsGateAndKeeperForwards_1_s, by decide +kernel⟩,
  ⟨(pk [3]), st_DomainsGateAndKeeperForwards_2_s, by decide +kernel⟩,
  ⟨(pk [0xBF]), up, by decide +kernel⟩,
  ⟨(pk [0x20]), up, by decide +kernel⟩,
  ⟨(pk [3]), st_DomainsGateAndKeeperForwards_4_s, by decide +kernel⟩,
  ⟨3, [{ place := 3, bytes := [1] }], st_DomainsGateAndKeeperForwards_5_s, by decide +kernel⟩,
  ⟨7, st_DomainsGateAndKeeperForwards_6_s, by decide +kernel⟩,
  ⟨0, { frame := frame0 }, st_DomainsGateAndKeeperForwards_7_1_s, by decide +kernel⟩,
  ⟨0, { frame := frame0 }, st_DomainsGateAndKeeperForwards_7_2_s, by decide +kernel⟩,
  ⟨1, { frame := frame0 }, { st_DomainsGateAndKeeperForwards_7_1_s with pkt := { flights := [(0, { frame := frame0 }), (1, { frame := frame0 })] } }, by decide +kernel⟩,
  ⟨0, { frame := { frame0 with poison := true } }, { st_DomainsGateAndKeeperForwards_7_1_s with pkt := { flights := [(0, { frame := { frame0 with poison := true } })] } }, by decide +kernel⟩,
  ⟨0, { frame := { frame0 with epoch := 7 } }, { st_DomainsGateAndKeeperForwards_7_1_s with pkt := { flights := [(0, { frame := { frame0 with epoch := 7 } })] } }, by decide +kernel⟩,
  ⟨⟨0, 1, 0⟩, { frame := 0, len := 64, world := 0x100 }, { key := [], world := 0x100, cls := 0, colour := 0, queue := 0, dest := 0 }, { frame := frame0 }, st_DomainsGateAndKeeperForwards_8_s, by decide +kernel⟩,
  ⟨63, st_DomainsGateAndKeeperForwards_9_s, by decide +kernel⟩⟩

def st_FaultsAreLoggedReadAndCleared_1_2_s : State :=
  { up with pkt := { flights := [(0, { frame := frame0 })] } }

def st_FaultsAreLoggedReadAndCleared_3_s : State :=
  { up with flt := { handling := some { cplx := 0x0C, unit := 0, inst := 0, res := 0, code := 0x0C03, cls := 0 } } }

def st_FaultsAreLoggedReadAndCleared_5_s : State :=
  { up with flt := { sticky := [{ cplx := 0x0C, unit := 0, inst := 0, res := 0, code := 0x0C03, cls := 2 }] } }

def st_FaultsAreLoggedReadAndCleared_7_s : State :=
  { up with flt := { handling := some { cplx := 0x0C, unit := 0, inst := 0, res := 0, code := 0x0C03, cls := 2 } } }

def st_FaultsAreLoggedReadAndCleared_12_s : State :=
  { up with flt := { table := [(255, { cls := 1 })] } }

def st_FaultsAreLoggedReadAndCleared_13_s : State :=
  { up with flt := { table := [(255, { cls := 2, active := true, outOfService := true, cplx := 0x0C })] } }

theorem witness_FaultsAreLoggedReadAndCleared :
    -- 1_1
    (∃ (cplx : Nat) (unit : Nat) (inst : Nat) (res : Nat) (cls : Nat) (code : Nat) (detail : Word) (s : State),
    isUnit cplx unit inst = true ∧
    res < 2 ^ 24 ∧
    code / 256 = cplx ∧
    collectorCode code cls = true) ∧
    -- 1_2
    (∃ (cplx : Nat) (unit : Nat) (inst : Nat) (res : Nat) (cls : Nat) (code : Nat) (detail : Word) (s : State) (id : Nat) (x : Flight),
    isUnit cplx unit inst = true ∧
    res < 2 ^ 24 ∧
    code / 256 = cplx ∧
    collectorCode code cls = true ∧
    flightAt s id = some x ∧
    code % 256 = 1 ∧
    cls = 1) ∧
    -- 2
    (∃ (e : Err) (s : State),
    e.cls < 2 ∧
    s.flt.queue.length < 64 ∧
    mgetD s.flt.channels (collectorOf e) [] = [] ∧
    s.flt.handling = none ∧
    s.flt.queue = []) ∧
    -- 3
    (∃ (e : Err) (h : Err) (s : State),
    e.cls = 0 ∧
    e.clear = false ∧
    h.clear = false ∧
    sameSource h { e with tc := s.time.tc } = true ∧
    mgetD s.flt.channels (collectorOf e) [] = [] ∧
    s.flt.handling = some h ∧
    s.flt.queue = []) ∧
    -- 4
    (∃ (s : State),
    s.flt.sticky = []) ∧
    -- 5
    (∃ (e : Err) (s : State),
    managerRuns s = true ∧
    s.flt.sticky = [e] ∧
    s.flt.queue.contains e = false ∧
    s.flt.handling ≠ some e ∧
    s.flt.queue.length < 64) ∧
    -- 6_rom
    (∃ (s : State),
    managerRuns s = false) ∧
    -- 6_restarting
    (∃ (s : State),
    managerRuns s = false) ∧
    -- 7
    (∃ (s : State),
    managerRuns s = true ∧
    s.flt.handling = none ∧
    s.flt.queue = [] ∧
    (∀ e ∈ s.flt.channels, e.2 = []) ∧
    (∀ e ∈ s.flt.overflow, e.2 = 0)) ∧
    -- 8
    (∃ (e : Err) (s : State),
    managerRuns s = true ∧
    s.flt.handling = some e) ∧
    -- 9_1
    (∃ (e : Err) (s : State),
    e.clear = false ∧
    s.boot.state ≠ .safe ∧
    s.flt.frozen = false ∧
    e.cls < 2) ∧
    -- 9_2
    (∃ (e : Err) (s : State),
    e.clear = false ∧
    s.boot.state ≠ .safe ∧
    s.flt.frozen = false ∧
    e.cls = 2 ∧
    critical e.cplx e.unit = false) ∧
    -- 10
    (∃ (e : Err) (i : Nat) (s : State),
    entryIndex (bump (cid 16 3 0) 11 e.cls s) e = some i ∧
    mget s.flt.table i = none ∧
    s.boot.state ≠ .safe ∧
    s.flt.frozen = false) ∧
    -- 11
    (∃ (p : Packet) (s : State),
    accepts opFaultRead p s = true ∧
    (let c := (ctxOf opFaultRead p (fetched opFaultRead p s));
    c.hasBuf = false)) ∧
    -- 12
    (∃ (p : Packet) (s : State),
    accepts opFaultRead p s = true ∧
    (let c := (ctxOf opFaultRead p (fetched opFaultRead p s));
    c.hasBuf = true ∧
    holdsResult p ((fun _ f => bytesOfWords ((List.range 256).flatMap (entryAt f))) (ctxOf opFaultRead p (fetched opFaultRead p s)) (fetched opFaultRead p s)).length = true)) ∧
    -- 13
    (∃ (x : FaultEntry) (p : Packet) (s : State),
    accepts opFaultClear p s = true ∧
    (let c := (ctxOf opFaultClear p (fetched opFaultClear p s));
    let f := (fetched opFaultClear p s);
    mget f.flt.table (fld (c.w 0) 7 0) = some x ∧ x.outOfService = false ∧ x.active = false)) ∧
    -- 14
    (∃ (x : FaultEntry) (p : Packet) (s : State),
    accepts opFaultClear p s = true ∧
    (let c := (ctxOf opFaultClear p (fetched opFaultClear p s));
    let f := (fetched opFaultClear p s);
    mget f.flt.table (fld (c.w 0) 7 0) = some x ∧ x.outOfService = true)) :=
  ⟨⟨0x0C, 8, 0, 16777215, 1, 0x0C01, 0, up, by decide +kernel⟩,
  ⟨0x0C, 8, 0, 0, 1, 0x0C01, 0, st_FaultsAreLoggedReadAndCleared_1_2_s, 0, { frame := frame0 }, by decide +kernel⟩,
  ⟨{ cplx := 0x0C, unit := 0, inst := 0, res := 0, code := 0x0C03, cls := 1 }, up, by decide +kernel⟩,
  ⟨{ cplx := 0x0C, unit := 0, inst := 0, res := 0, code := 0x0C03, cls := 0 }, { cplx := 0x0C, unit := 0, inst := 0, res := 0, code := 0x0C03, cls := 0 }, st_FaultsAreLoggedReadAndCleared_3_s, by decide +kernel⟩,
  ⟨up, by decide +kernel⟩,
  ⟨{ cplx := 0x0C, unit := 0, inst := 0, res := 0, code := 0x0C03, cls := 2 }, st_FaultsAreLoggedReadAndCleared_5_s, by decide +kernel⟩,
  ⟨{ up with boot := { phase := .rom } }, by decide +kernel⟩,
  ⟨{ up with boot := { up.boot with restarting := true } }, by decide +kernel⟩,
  ⟨up, by decide +kernel⟩,
  ⟨{ cplx := 0x0C, unit := 0, inst := 0, res := 0, code := 0x0C03, cls := 2 }, st_FaultsAreLoggedReadAndCleared_7_s, by decide +kernel⟩,
  ⟨{ cplx := 0x0C, unit := 0, inst := 0, res := 0, code := 0x0C03, cls := 1 }, up, by decide +kernel⟩,
  ⟨{ cplx := 0x0C, inst := 0, res := 0, code := 0x0C03, cls := 2, unit := 8 }, up, by decide +kernel⟩,
  ⟨{ cplx := 0x0C, unit := 0, inst := 0, res := 0, code := 0x0C03, cls := 1 }, 0, up, by decide +kernel⟩,
  ⟨(pk [255]), up, by decide +kernel⟩,
  ⟨(pkr [255]), up, by decide +kernel⟩,
  ⟨{ cls := 1 }, ⟨(pk [255]), st_FaultsAreLoggedReadAndCleared_12_s, by decide +kernel⟩⟩,
  ⟨{ cls := 2, active := true, outOfService := true, cplx := 0x0C }, ⟨(pk [255]), st_FaultsAreLoggedReadAndCleared_13_s, by decide +kernel⟩⟩⟩

def st_UnitsRecoverAndTheSafeStateIsEntered_3_s : State :=
  { up with flt := { failed := [(0x0C, 8, 0)], table := [(255, { cls := 2, active := true, cplx := 0x0C })] } }

def st_UnitsRecoverAndTheSafeStateIsEntered_4_2_s : State :=
  { up with halter := { stage := .s1 } }

def st_UnitsRecoverAndTheSafeStateIsEntered_6_s : State :=
  { up with flt := { frozen := true, cause := 0x0C03 } }

theorem witness_UnitsRecoverAndTheSafeStateIsEntered :
    -- 2_1
    (∃ (cplx : Nat) (unit : Nat) (inst : Nat) (s : State),
    unitFailed s cplx unit inst = false ∧
    cplx ≠ 1 ∧
    cplx ≠ 4 ∧
    cplx ≠ 5 ∧
    cplx ≠ 7) ∧
    -- 2_2
    (∃ (cplx : Nat) (unit : Nat) (inst : Nat) (s : State),
    unitFailed s cplx unit inst = false ∧
    cplx = 7) ∧
    -- 3
    (∃ (cplx : Nat) (unit : Nat) (inst : Nat) (s : State),
    isUnit cplx unit inst = true ∧
    managerRuns s = true ∧
    unitFailed s cplx unit inst = true ∧
    (∀ e ∈ s.flt.table, (e.2.cplx, e.2.unit, e.2.inst) = (cplx, unit, inst) → e.2.outOfService = false) ∧
    s.boot.state ≠ .safe ∧
    s.flt.frozen = false) ∧
    -- 4_1
    (∃ (code : Nat) (s : State),
    s.halter.stage = .outside) ∧
    -- 4_2
    (∃ (code : Nat) (s : State),
    s.halter.stage ≠ .outside ∧
    s.halter.wake = none) ∧
    -- 5
    (∃ (s : State),
    s.boot.state ≠ .safe ∧
    s.flt.frozen = false ∧
    s.halter.stage = .outside) ∧
    -- 6
    (∃ (s : State),
    s.flt.frozen = true ∧
    s.boot.state ≠ .safe) :=
  ⟨⟨0x0C, 8, 0, up, by decide +kernel⟩,
  ⟨7, 8, 0, up, by decide +kernel⟩,
  ⟨0x0C, 8, 0, st_UnitsRecoverAndTheSafeStateIsEntered_3_s, by decide +kernel⟩,
  ⟨0x0C03, up, by decide +kernel⟩,
  ⟨0x0C03, st_UnitsRecoverAndTheSafeStateIsEntered_4_2_s, by decide +kernel⟩,
  ⟨up, by decide +kernel⟩,
  ⟨st_UnitsRecoverAndTheSafeStateIsEntered_6_s, by decide +kernel⟩⟩

def st_BurstsAreJudgedAndTaken_1_1_s : State :=
  { upT opTerm with weaver := { ports := [(0, { out := [{ num := 3, bursts := [{ term := some 0, start := 20, len := 100, shares := [{ id := 0, grant := 1 }], ploamu := true, window := none }] }] })] } }

def st_BurstsAreJudgedAndTaken_1_2_s : State :=
  { upT opTerm with weaver := { ports := [(0, { out := [{ num := 3, bursts := [{ term := some 0, start := 20, len := 100, shares := [{ id := 0, grant := 1 }], ploamu := true, window := (some .directed) }] }] })] } }

def st_BurstsAreJudgedAndTaken_1_3_s : State :=
  { upT opTerm with weaver := { ports := [(0, { out := [{ num := 3, bursts := [{ term := some 0, start := 20, len := 100, shares := [{ id := 0, grant := 1 }], ploamu := true, window := none }] }] })] } }

def st_BurstsAreJudgedAndTaken_1_4_s : State :=
  { upT opTerm with weaver := { ports := [(0, { out := [{ num := 3, bursts := [{ term := some 0, start := 20, len := 100, shares := [{ id := 0, grant := 1 }], ploamu := true, window := (some .directed) }] }] })] } }

def st_BurstsAreJudgedAndTaken_1_5_header_s : State :=
  { upT opTerm with weaver := { ports := [(0, { out := [{ num := 3, bursts := [{ term := some 0, start := 20, len := 100, shares := [{ id := 0, grant := 1 }], ploamu := true, window := none }] }] })] } }

def st_BurstsAreJudgedAndTaken_1_5_delimiter_s : State :=
  { upT opTerm with weaver := { ports := [(0, { out := [{ num := 3, bursts := [{ term := some 0, start := 20, len := 100, shares := [{ id := 0, grant := 1 }], ploamu := true, window := none }] }] })] } }

def st_BurstsAreJudgedAndTaken_1_6_s : State :=
  { upT opTerm with weaver := { ports := [(0, { out := [{ num := 3, bursts := [{ term := some 0, start := 20, len := 100, shares := [{ id := 0, grant := 1 }], ploamu := true, window := none }] }] })] } }

def st_BurstsAreJudgedAndTaken_2_1_raised_s : State :=
  upT { opTerm with bad := 255, lol := true }

def st_BurstsAreJudgedAndTaken_3_s : State :=
  { upT { opTerm with los := true, lossAt := 0 } with mono := 1000 * ms }

def st_BurstsAreJudgedAndTaken_4_1_s : State :=
  { upT { opTerm with frags := [(7, { bytes := [], started := 0, last := 0, port := 0 })] } with time := { sfc := 16 } }

def st_BurstsAreJudgedAndTaken_4_2_s : State :=
  { upT { opTerm with frags := [(7, { bytes := [], started := 0, last := 0, port := 0 })] } with time := { sfc := 15 } }

theorem witness_BurstsAreJudgedAndTaken :
    -- 1_1
    (∃ (p : Nat) (map : Nat) (start : Nat) (i : Nat) (m : BwMap) (b : Burst5) (t : Terminal) (rx : BurstRx) (s : State),
    (mapsAt s p).out.find? (fun m => m.num = map) = some m ∧
    powered s (0x80 + p) = true ∧
    m.bursts.find? (fun b => b.start = start && b.verdict = 0 && (rx.granted.isNone || b.term = rx.granted)) = some b ∧
    b.term = some i ∧
    termAt s i = some t ∧
    hasOnu t = true ∧
    (let found := delimFound s p map b.window.isSome rx = true;
    let good := found ∧ rx.hecOk = true ∧ rx.onu = i % 512;
    good ∧
    b.window = none)) ∧
    -- 1_2
    (∃ (p : Nat) (map : Nat) (start : Nat) (i : Nat) (m : BwMap) (b : Burst5) (t : Terminal) (rx : BurstRx) (s : State),
    (mapsAt s p).out.find? (fun m => m.num = map) = some m ∧
    powered s (0x80 + p) = true ∧
    m.bursts.find? (fun b => b.start = start && b.verdict = 0 && (rx.granted.isNone || b.term = rx.granted)) = some b ∧
    b.term = some i ∧
    termAt s i = some t ∧
    hasOnu t = true ∧
    (let found := delimFound s p map b.window.isSome rx = true;
    let good := found ∧ rx.hecOk = true ∧ rx.onu = i % 512;
    good ∧
    b.window ≠ none)) ∧
    -- 1_3
    (∃ (p : Nat) (map : Nat) (start : Nat) (i : Nat) (m : BwMap) (b : Burst5) (t : Terminal) (rx : BurstRx) (s : State),
    (mapsAt s p).out.find? (fun m => m.num = map) = some m ∧
    powered s (0x80 + p) = true ∧
    m.bursts.find? (fun b => b.start = start && b.verdict = 0 && (rx.granted.isNone || b.term = rx.granted)) = some b ∧
    b.term = some i ∧
    termAt s i = some t ∧
    hasOnu t = true ∧
    (let codes := windowCodes s p map b rx;
    let loud := (codes.filter ((cfgAt s p).energyTh < ·)).length;
    let found := delimFound s p map b.window.isSome rx = true;
    ¬ found ∧
    loud = 0 ∧
    b.window = none)) ∧
    -- 1_4
    (∃ (p : Nat) (map : Nat) (start : Nat) (i : Nat) (m : BwMap) (b : Burst5) (t : Terminal) (rx : BurstRx) (s : State),
    (mapsAt s p).out.find? (fun m => m.num = map) = some m ∧
    powered s (0x80 + p) = true ∧
    m.bursts.find? (fun b => b.start = start && b.verdict = 0 && (rx.granted.isNone || b.term = rx.granted)) = some b ∧
    b.term = some i ∧
    termAt s i = some t ∧
    hasOnu t = true ∧
    (let codes := windowCodes s p map b rx;
    let loud := (codes.filter ((cfgAt s p).energyTh < ·)).length;
    let found := delimFound s p map b.window.isSome rx = true;
    ¬ found ∧
    loud = 0 ∧
    b.window ≠ none)) ∧
    -- 1_5_delimiter
    (∃ (p : Nat) (map : Nat) (start : Nat) (i : Nat) (m : BwMap) (b : Burst5) (t : Terminal) (rx : BurstRx) (s : State),
    (mapsAt s p).out.find? (fun m => m.num = map) = some m ∧
    powered s (0x80 + p) = true ∧
    m.bursts.find? (fun b => b.start = start && b.verdict = 0 && (rx.granted.isNone || b.term = rx.granted)) = some b ∧
    b.term = some i ∧
    termAt s i = some t ∧
    hasOnu t = true ∧
    (let codes := windowCodes s p map b rx;
    let loud := (codes.filter ((cfgAt s p).energyTh < ·)).length;
    let found := delimFound s p map b.window.isSome rx = true;
    let good := found ∧ rx.hecOk = true ∧ rx.onu = i % 512;
    ¬ good ∧
    0 < loud ∧
    b.window = none)) ∧
    -- 1_5_header
    (∃ (p : Nat) (map : Nat) (start : Nat) (i : Nat) (m : BwMap) (b : Burst5) (t : Terminal) (rx : BurstRx) (s : State),
    (mapsAt s p).out.find? (fun m => m.num = map) = some m ∧
    powered s (0x80 + p) = true ∧
    m.bursts.find? (fun b => b.start = start && b.verdict = 0 && (rx.granted.isNone || b.term = rx.granted)) = some b ∧
    b.term = some i ∧
    termAt s i = some t ∧
    hasOnu t = true ∧
    (let codes := windowCodes s p map b rx;
    let loud := (codes.filter ((cfgAt s p).energyTh < ·)).length;
    let found := delimFound s p map b.window.isSome rx = true;
    let good := found ∧ rx.hecOk = true ∧ rx.onu = i % 512;
    ¬ good ∧
    0 < loud ∧
    b.window = none)) ∧
    -- 1_6
    (∃ (p : Nat) (map : Nat) (start : Nat) (i : Nat) (m : BwMap) (b : Burst5) (t : Terminal) (rx : BurstRx) (s : State),
    (mapsAt s p).out.find? (fun m => m.num = map) = some m ∧
    powered s (0x80 + p) = true ∧
    m.bursts.find? (fun b => b.start = start && b.verdict = 0 && (rx.granted.isNone || b.term = rx.granted)) = some b ∧
    b.term = some i ∧
    termAt s i = some t ∧
    hasOnu t = true ∧
    (let codes := windowCodes s p map b rx;
    let loud := (codes.filter ((cfgAt s p).energyTh < ·)).length;
    let found := delimFound s p map b.window.isSome rx = true;
    let good := found ∧ rx.hecOk = true ∧ rx.onu = i % 512;
    ¬ good ∧
    0 < loud ∧
    b.window ≠ none)) ∧
    -- 1_7
    (∃ (p : Nat) (map : Nat) (start : Nat) (i : Nat) (m : BwMap) (b : Burst5) (t : Terminal) (rx : BurstRx) (s : State),
    (mapsAt s p).out.find? (fun m => m.num = map) = some m ∧
    powered s (0x80 + p) = true ∧
    m.bursts.find? (fun b => b.start = start && b.verdict = 0 && (rx.granted.isNone || b.term = rx.granted)) = some b ∧
    b.term = some i ∧
    termAt s i = some t ∧
    hasOnu t = true ∧
    (let codes := windowCodes s p map b rx;
    let loud := (codes.filter ((cfgAt s p).energyTh < ·)).length;
    let found := delimFound s p map b.window.isSome rx = true;
    let good := found ∧ rx.hecOk = true ∧ rx.onu = i % 512;
    ¬ good ∧
    found ∧
    loud = 0 ∧
    b.window = none)) ∧
    -- 1_8
    (∃ (p : Nat) (map : Nat) (start : Nat) (i : Nat) (m : BwMap) (b : Burst5) (t : Terminal) (rx : BurstRx) (s : State),
    (mapsAt s p).out.find? (fun m => m.num = map) = some m ∧
    powered s (0x80 + p) = true ∧
    m.bursts.find? (fun b => b.start = start && b.verdict = 0 && (rx.granted.isNone || b.term = rx.granted)) = some b ∧
    b.term = some i ∧
    termAt s i = some t ∧
    hasOnu t = true ∧
    (let codes := windowCodes s p map b rx;
    let loud := (codes.filter ((cfgAt s p).energyTh < ·)).length;
    let found := delimFound s p map b.window.isSome rx = true;
    let good := found ∧ rx.hecOk = true ∧ rx.onu = i % 512;
    ¬ good ∧
    found ∧
    loud = 0 ∧
    b.window ≠ none)) ∧
    -- 2_1
    (∃ (p : Nat) (m : Nat) (window : Bool) (rx : BurstRx) (s : State),
    delimFound s p m window rx = true) ∧
    -- 2_2
    (∃ (p : Nat) (m : Nat) (window : Bool) (rx : BurstRx) (s : State),
    delimFound s p m false rx = true) ∧
    -- 4_1_few
    (∃ (i : Nat) (missing : Bool) (t : Terminal) (s : State),
    termAt s i = some t ∧
    (t.bad + 1 < (cfgAt s t.port).lobN ∨ termLoss t = true)) ∧
    -- 4_1_raised
    (∃ (i : Nat) (missing : Bool) (t : Terminal) (s : State),
    termAt s i = some t ∧
    (t.bad + 1 < (cfgAt s t.port).lobN ∨ termLoss t = true)) ∧
    -- 4_2
    (∃ (i : Nat) (missing : Bool) (t : Terminal) (s : State),
    termAt s i = some t ∧
    (cfgAt s t.port).lobN ≤ t.bad + 1 ∧
    termLoss t = false) ∧
    -- 5
    (∃ (i : Nat) (t : Terminal) (s : State),
    termAt s i = some t ∧
    termLoss t = true ∧
    t.lossAt + (cfgAt s t.port).deactMs * ms ≤ s.mono) ∧
    -- 6_1
    (∃ (i : Nat) (alloc : Nat) (t : Terminal) (f : UpFrag) (s : State),
    termAt s i = some t ∧
    mget t.frags alloc = some f ∧
    f.started + 16 ≤ s.time.sfc) ∧
    -- 6_2
    (∃ (i : Nat) (alloc : Nat) (t : Terminal) (f : UpFrag) (s : State),
    termAt s i = some t ∧
    mget t.frags alloc = some f ∧
    s.time.sfc < f.started + 16) :=
  ⟨⟨0, 3, 20, 0, { num := 3, bursts := [{ term := some 0, start := 20, len := 100, shares := [{ id := 0, grant := 1 }], ploamu := true, window := none }] }, { term := some 0, start := 20, len := 100, shares := [{ id := 0, grant := 1 }], ploamu := true, window := none }, opTerm, { delimiter := some 0, offset := 1600, hecOk := true, onu := 0, codes := [200], parts := [{ alloc := 0, words := 100 }] }, st_BurstsAreJudgedAndTaken_1_1_s, by decide +kernel⟩,
  ⟨0, 3, 20, 0, { num := 3, bursts := [{ term := some 0, start := 20, len := 100, shares := [{ id := 0, grant := 1 }], ploamu := true, window := (some .directed) }] }, { term := some 0, start := 20, len := 100, shares := [{ id := 0, grant := 1 }], ploamu := true, window := (some .directed) }, opTerm, { delimiter := some 0, offset := 1600, hecOk := true, onu := 0, codes := [200], parts := [{ alloc := 0, words := 100 }] }, st_BurstsAreJudgedAndTaken_1_2_s, by decide +kernel⟩,
  ⟨0, 3, 20, 0, { num := 3, bursts := [{ term := some 0, start := 20, len := 100, shares := [{ id := 0, grant := 1 }], ploamu := true, window := none }] }, { term := some 0, start := 20, len := 100, shares := [{ id := 0, grant := 1 }], ploamu := true, window := none }, opTerm, { delimiter := none, hecOk := true, codes := [0] }, st_BurstsAreJudgedAndTaken_1_3_s, by decide +kernel⟩,
  ⟨0, 3, 20, 0, { num := 3, bursts := [{ term := some 0, start := 20, len := 100, shares := [{ id := 0, grant := 1 }], ploamu := true, window := (some .directed) }] }, { term := some 0, start := 20, len := 100, shares := [{ id := 0, grant := 1 }], ploamu := true, window := (some .directed) }, opTerm, { delimiter := none, hecOk := true, codes := [0] }, st_BurstsAreJudgedAndTaken_1_4_s, by decide +kernel⟩,
  ⟨0, 3, 20, 0, { num := 3, bursts := [{ term := some 0, start := 20, len := 100, shares := [{ id := 0, grant := 1 }], ploamu := true, window := none }] }, { term := some 0, start := 20, len := 100, shares := [{ id := 0, grant := 1 }], ploamu := true, window := none }, opTerm, { delimiter := some 4, hecOk := true, codes := [257] }, st_BurstsAreJudgedAndTaken_1_5_delimiter_s, by decide +kernel⟩,
  ⟨0, 3, 20, 0, { num := 3, bursts := [{ term := some 0, start := 20, len := 100, shares := [{ id := 0, grant := 1 }], ploamu := true, window := none }] }, { term := some 0, start := 20, len := 100, shares := [{ id := 0, grant := 1 }], ploamu := true, window := none }, opTerm, { delimiter := some 0, hecOk := false, codes := [257] }, st_BurstsAreJudgedAndTaken_1_5_header_s, by decide +kernel⟩,
  ⟨0, 3, 20, 0, { num := 3, bursts := [{ term := some 0, start := 20, len := 100, shares := [{ id := 0, grant := 1 }], ploamu := true, window := (some .directed) }] }, { term := some 0, start := 20, len := 100, shares := [{ id := 0, grant := 1 }], ploamu := true, window := (some .directed) }, opTerm, { delimiter := some 0, hecOk := false, codes := [257] }, st_BurstsAreJudgedAndTaken_1_2_s, by decide +kernel⟩,
  ⟨0, 3, 20, 0, { num := 3, bursts := [{ term := some 0, start := 20, len := 100, shares := [{ id := 0, grant := 1 }], ploamu := true, window := none }] }, { term := some 0, start := 20, len := 100, shares := [{ id := 0, grant := 1 }], ploamu := true, window := none }, opTerm, { delimiter := some 3, hecOk := false, codes := [0] }, st_BurstsAreJudgedAndTaken_1_1_s, by decide +kernel⟩,
  ⟨0, 3, 20, 0, { num := 3, bursts := [{ term := some 0, start := 20, len := 100, shares := [{ id := 0, grant := 1 }], ploamu := true, window := (some .directed) }] }, { term := some 0, start := 20, len := 100, shares := [{ id := 0, grant := 1 }], ploamu := true, window := (some .directed) }, opTerm, { delimiter := some 3, hecOk := false, codes := [0] }, st_BurstsAreJudgedAndTaken_1_2_s, by decide +kernel⟩,
  ⟨0, 3, true, { delimiter := some 3, offset := 4096 }, st_BurstsAreJudgedAndTaken_1_1_s, by decide +kernel⟩,
  ⟨0, 3, false, { delimiter := some 3, offset := 2048 }, st_BurstsAreJudgedAndTaken_1_1_s, by decide +kernel⟩,
  ⟨0, true, { opTerm with bad := 2 }, (upT { opTerm with bad := 2 }), by decide +kernel⟩,
  ⟨0, true, { opTerm with bad := 255, lol := true }, st_BurstsAreJudgedAndTaken_2_1_raised_s, by decide +kernel⟩,
  ⟨0, false, { opTerm with bad := 3 }, (upT { opTerm with bad := 3 }), by decide +kernel⟩,
  ⟨0, { opTerm with los := true, lossAt := 0 }, st_BurstsAreJudgedAndTaken_3_s, by decide +kernel⟩,
  ⟨0, 7, { opTerm with frags := [(7, { bytes := [], started := 0, last := 0, port := 0 })] }, { bytes := [], started := 0, last := 0, port := 0 }, st_BurstsAreJudgedAndTaken_4_1_s, by decide +kernel⟩,
  ⟨0, 7, { opTerm with frags := [(7, { bytes := [], started := 0, last := 0, port := 0 })] }, { bytes := [], started := 0, last := 0, port := 0 }, st_BurstsAreJudgedAndTaken_4_2_s, by decide +kernel⟩⟩

def st_MessagesAndTerminalKeysTravel_1_2_s : State :=
  { upT opTerm with vault := { registered := [0] } }

def st_MessagesAndTerminalKeysTravel_2_2_s : State :=
  { up with pon := { ports := [(0, { omci := some 255 })], terms := [(0, opTerm)] }, host := { up.host with hrq := [(255, { enable := true, world := 0x100, tail := 0 })] } }

def st_MessagesAndTerminalKeysTravel_3_2_s : State :=
  { upT opTerm with vault := { registered := [0] } }

def st_MessagesAndTerminalKeysTravel_3_3_1_s : State :=
  { upT opTerm with vault := { registered := [0], hold := some 0, slots := [(0x10000, engineSlot), (0x10001, engineSlot)] } }

def st_MessagesAndTerminalKeysTravel_3_3_2_s : State :=
  { upT opTerm with vault := { registered := [0], hold := some 0, slots := [(0x10000, engineSlot), (0x10001, engineSlot)] } }

def st_MessagesAndTerminalKeysTravel_3_4_1_s : State :=
  { upT opTerm with vault := { registered := [0], slots := [(0x10000, engineSlot), (0x10001, engineSlot)] } }

def st_MessagesAndTerminalKeysTravel_3_4_2_s : State :=
  { upT opTerm with vault := { registered := [0], slots := [(0x10000, engineSlot), (0x10001, engineSlot)] } }

def st_MessagesAndTerminalKeysTravel_4_reranging_s : State :=
  upT { opTerm with st := .reranging }

def st_MessagesAndTerminalKeysTravel_5_s : State :=
  { upT { opTerm with switched := some (1, 0) } with time := { sfc := 7 } }

def st_MessagesAndTerminalKeysTravel_6_1_s : State :=
  { upT { opTerm with keyReq := some { index := 1, sent := 0, tries := 2, frags := [] } } with time := { sfc := 3 } }

def st_MessagesAndTerminalKeysTravel_6_2_s : State :=
  { upT { opTerm with keyReq := some { index := 1, sent := 0, tries := 3, frags := [] } } with time := { sfc := 3 } }

def st_MessagesAndTerminalKeysTravel_7_1_s : State :=
  { upT { opTerm with keyReq := some { index := 1, sent := 0, tries := 1, frags := [] } } with vault := { registered := [0] } }

def st_MessagesAndTerminalKeysTravel_7_2_s : State :=
  { upT { opTerm with ext := 2, keyReq := some { index := 1, sent := 0, tries := 1, frags := [(0, List.replicate 16 1)] } } with vault := { registered := [0] } }

def st_MessagesAndTerminalKeysTravel_7_3_s : State :=
  { upT { opTerm with ext := 2, keyReq := some { index := 1, sent := 0, tries := 1, frags := [] } } with vault := { registered := [0] } }

def st_MessagesAndTerminalKeysTravel_9_1_s : State :=
  { up with pon := { terms := [(0, opTerm)], keysIn := [(0, 1, [])] }, vault := {} }

def st_MessagesAndTerminalKeysTravel_9_2_s : State :=
  { up with pon := { terms := [(0, opTerm)], keysIn := [(0, 1, [])] }, vault := { slots := [(0x10000, { engineSlot with old := some ([], 0) })] } }

theorem witness_MessagesAndTerminalKeysTravel :
    -- 1_1_mic
    (∃ (i : Nat) (bs : List Byte) (mic : Bool) (t : Terminal) (s : State),
    termAt s i = some t ∧
    (mic = false ∨ s.vault.registered.contains i = false)) ∧
    -- 1_1_reg
    (∃ (i : Nat) (bs : List Byte) (mic : Bool) (t : Terminal) (s : State),
    termAt s i = some t ∧
    (mic = false ∨ s.vault.registered.contains i = false)) ∧
    -- 1_2
    (∃ (i : Nat) (bs : List Byte) (mic : Bool) (t : Terminal) (s : State),
    termAt s i = some t ∧
    mic = true ∧
    s.vault.registered.contains i = true) ∧
    -- 2_1
    (∃ (i : Nat) (t : Terminal) (bs : List Byte) (s : State),
    (portAt s (treeOf s t.port)).omci = none) ∧
    -- 2_2
    (∃ (i : Nat) (t : Terminal) (bs : List Byte) (s : State) (q : _),
    (portAt s (treeOf s t.port)).omci = some q ∧
    (hrqAt s q).enable = true ∧
    hrqFull (hrqAt s q) = false) ∧
    -- 3_1
    (∃ (i : Nat) (key : Nat) (pos : XgemPlace) (bs : List Byte) (mic : Bool) (t : Terminal) (s : State),
    termAt s i = some t ∧
    key = 3) ∧
    -- 3_2
    (∃ (i : Nat) (key : Nat) (pos : XgemPlace) (bs : List Byte) (mic : Bool) (t : Terminal) (s : State),
    termAt s i = some t ∧
    key = 0 ∧
    mic = true ∧
    s.vault.registered.contains i = true) ∧
    -- 3_3
    (∃ (i : Nat) (key : Nat) (pos : XgemPlace) (bs : List Byte) (mic : Bool) (t : Terminal) (s : State),
    termAt s i = some t ∧
    key = 0 ∧
    (mic = false ∨ s.vault.registered.contains i = false)) ∧
    -- 3_4
    (∃ (i : Nat) (key : Nat) (pos : XgemPlace) (bs : List Byte) (mic : Bool) (t : Terminal) (s : State),
    termAt s i = some t ∧
    (key = 1 ∨ key = 2) ∧
    admits s 1 = true ∧
    engineUse s (keySlot t key) t.world useDecrypt (t.ext.testBit 1) = false) ∧
    -- 3_5
    (∃ (i : Nat) (key : Nat) (pos : XgemPlace) (bs : List Byte) (mic : Bool) (t : Terminal) (s : State),
    termAt s i = some t ∧
    (key = 1 ∨ key = 2) ∧
    admits s 1 = false) ∧
    -- 3_6
    (∃ (i : Nat) (key : Nat) (pos : XgemPlace) (bs : List Byte) (mic : Bool) (t : Terminal) (s : State),
    termAt s i = some t ∧
    (key = 1 ∨ key = 2) ∧
    engineUse s (keySlot t key) t.world useDecrypt (t.ext.testBit 1) = true ∧
    admits s 1 = true ∧
    mic = true ∧
    s.vault.registered.contains i = true) ∧
    -- 4
    (∃ (i : Nat) (accept : Nat) (t : Terminal) (s : State),
    termAt s i = some t ∧
    (t.st = .operating ∨ t.st = .reranging) ∧
    s.vault.registered.contains i = true) ∧
    -- 5
    (∃ (i : Nat) (accept : Nat) (frag : Nat) (body : List Byte) (mic : Bool) (t : Terminal) (s : State),
    termAt s i = some t ∧
    (mic = false ∨ s.vault.registered.contains i = false)) ∧
    -- 6
    (∃ (i : Nat) (old : Nat) (n : Nat) (t : Terminal) (s : State),
    termAt s i = some t ∧
    t.switched = some (old, n) ∧
    n + 7 ≤ s.time.sfc) ∧
    -- 7_1
    (∃ (i : Nat) (t : Terminal) (r : KeyReq) (s : State),
    termAt s i = some t ∧
    t.keyReq = some r ∧
    r.sent + 3 ≤ s.time.sfc ∧
    (∀ m ∈ t.own, ploamType m ≠ 3) ∧
    r.tries < 3) ∧
    -- 7_2
    (∃ (i : Nat) (t : Terminal) (r : KeyReq) (s : State),
    termAt s i = some t ∧
    t.keyReq = some r ∧
    r.sent + 3 ≤ s.time.sfc ∧
    (∀ m ∈ t.own, ploamType m ≠ 3) ∧
    3 ≤ r.tries) ∧
    -- 8_1
    (∃ (i : Nat) (frag : Nat) (body : List Byte) (t : Terminal) (r : KeyReq) (s : State),
    termAt s i = some t ∧
    t.keyReq = some r ∧
    frag < 2 ∧
    s.vault.registered.contains i = true ∧
    t.ext.testBit 1 = false) ∧
    -- 8_2
    (∃ (i : Nat) (frag : Nat) (body : List Byte) (t : Terminal) (r : KeyReq) (s : State) (other : _),
    termAt s i = some t ∧
    t.keyReq = some r ∧
    frag < 2 ∧
    s.vault.registered.contains i = true ∧
    t.ext.testBit 1 = true ∧
    mget r.frags (1 - frag) = some other) ∧
    -- 8_3
    (∃ (i : Nat) (frag : Nat) (body : List Byte) (t : Terminal) (r : KeyReq) (s : State),
    termAt s i = some t ∧
    t.keyReq = some r ∧
    frag < 2 ∧
    s.vault.registered.contains i = true ∧
    t.ext.testBit 1 = true ∧
    mget r.frags (1 - frag) = none) ∧
    -- 9
    (∃ (s : State),
    s.pon.keysIn = []) ∧
    -- 10_1
    (∃ (i : Nat) (index : Nat) (bs : List Byte) (rest : List (Nat × Nat × List Byte)) (t : Terminal) (s : State),
    s.pon.keysIn = (i, index, bs) :: rest ∧
    termAt s i = some t ∧
    (let own := s.vault.registered.contains i;
    own = false)) ∧
    -- 10_2
    (∃ (i : Nat) (index : Nat) (bs : List Byte) (rest : List (Nat × Nat × List Byte)) (t : Terminal) (s : State),
    s.pon.keysIn = (i, index, bs) :: rest ∧
    termAt s i = some t ∧
    (let slot := keySlot t index;
    let own := s.vault.registered.contains i;
    own = true ∧
    mustWait s slot = false)) ∧
    -- 10_3
    (∃ (i : Nat) (index : Nat) (bs : List Byte) (rest : List (Nat × Nat × List Byte)) (t : Terminal) (s : State),
    s.pon.keysIn = (i, index, bs) :: rest ∧
    termAt s i = some t ∧
    (let slot := keySlot t index;
    let own := s.vault.registered.contains i;
    own = true ∧
    mustWait s slot = true)) :=
  ⟨⟨0, [], false, opTerm, (upT opTerm), by decide +kernel⟩,
  ⟨0, [], true, opTerm, (upT opTerm), by decide +kernel⟩,
  ⟨0, [], true, opTerm, st_MessagesAndTerminalKeysTravel_1_2_s, by decide +kernel⟩,
  ⟨0, opTerm, [], (upT opTerm), by decide +kernel⟩,
  ⟨0, opTerm, [], st_MessagesAndTerminalKeysTravel_2_2_s, ⟨255, by decide +kernel⟩⟩,
  ⟨0, 3, ⟨0, 0⟩, [], true, opTerm, (upT opTerm), by decide +kernel⟩,
  ⟨0, 0, ⟨0, 0⟩, [], true, opTerm, st_MessagesAndTerminalKeysTravel_3_2_s, by decide +kernel⟩,
  ⟨0, 0, ⟨0, 0⟩, [], false, opTerm, st_MessagesAndTerminalKeysTravel_3_2_s, by decide +kernel⟩,
  ⟨0, 2, ⟨0, 0⟩, [], true, opTerm, upT opTerm, by decide +kernel⟩,
  ⟨0, 2, ⟨0, 0⟩, [], true, opTerm, st_MessagesAndTerminalKeysTravel_3_3_2_s, by decide +kernel⟩,
  ⟨0, 2, ⟨0, 0⟩, [], true, opTerm, st_MessagesAndTerminalKeysTravel_3_4_2_s, by decide +kernel⟩,
  ⟨0, 0, { opTerm with st := .reranging }, { st_MessagesAndTerminalKeysTravel_4_reranging_s with vault := { registered := [0] } }, by decide +kernel⟩,
  ⟨0, 0, 0, [], false, opTerm, upT opTerm, by decide +kernel⟩,
  ⟨0, 1, 0, { opTerm with switched := some (1, 0) }, st_MessagesAndTerminalKeysTravel_5_s, by decide +kernel⟩,
  ⟨0, { opTerm with keyReq := some { index := 1, sent := 0, tries := 2, frags := [] } }, { index := 1, sent := 0, tries := 2, frags := [] }, st_MessagesAndTerminalKeysTravel_6_1_s, by decide +kernel⟩,
  ⟨0, { opTerm with keyReq := some { index := 1, sent := 0, tries := 3, frags := [] } }, { index := 1, sent := 0, tries := 3, frags := [] }, st_MessagesAndTerminalKeysTravel_6_2_s, by decide +kernel⟩,
  ⟨0, 1, (List.replicate 32 1), { opTerm with keyReq := some { index := 1, sent := 0, tries := 1, frags := [] } }, { index := 1, sent := 0, tries := 1, frags := [] }, st_MessagesAndTerminalKeysTravel_7_1_s, by decide +kernel⟩,
  ⟨0, 0, List.replicate 16 1, { opTerm with ext := 2, keyReq := some { index := 1, sent := 0, tries := 1, frags := [(1, List.replicate 16 1)] } }, { index := 1, sent := 0, tries := 1, frags := [(1, List.replicate 16 1)] }, { upT { opTerm with ext := 2, keyReq := some { index := 1, sent := 0, tries := 1, frags := [(1, List.replicate 16 1)] } } with vault := { registered := [0] } }, List.replicate 16 1, by decide +kernel⟩,
  ⟨0, 0, (List.replicate 16 1), { opTerm with ext := 2, keyReq := some { index := 1, sent := 0, tries := 1, frags := [] } }, { index := 1, sent := 0, tries := 1, frags := [] }, st_MessagesAndTerminalKeysTravel_7_3_s, by decide +kernel⟩,
  ⟨up, by decide +kernel⟩,
  ⟨0, 1, [], [], opTerm, st_MessagesAndTerminalKeysTravel_9_1_s, by decide +kernel⟩,
  ⟨0, 1, [], [], opTerm, { st_MessagesAndTerminalKeysTravel_9_1_s with vault := { registered := [0] } }, by decide +kernel⟩,
  ⟨0, 1, [], [], opTerm, { st_MessagesAndTerminalKeysTravel_9_2_s with vault := { registered := [0], slots := [(0x10000, { engineSlot with old := some ([], 0) })] } }, by decide +kernel⟩⟩

def st_DiscoveryFindsTerminals_1_1_s : State :=
  { up with pon := { ports := [(0, { cfg := { mode := 1, guard := 2, preamble := 5 }, framing := true, windows := [{ kind := .sn, term := 0, map := 0, word := 0, start := 0, fin := 2000000000 }] })], terms := [(0, term0)] } }

def st_DiscoveryFindsTerminals_1_2_s : State :=
  { up with pon := { ports := [(0, { cfg := { mode := 1, guard := 2, preamble := 5 }, framing := true, windows := [{ kind := .sn, term := 0, map := 0, word := 0, start := 0, fin := 2000000000 }] })], terms := [(0, { term0 with st := .assigned })] } }

def st_DiscoveryFindsTerminals_1_3_s : State :=
  { up with pon := { ports := [(0, { cfg := { mode := 1, guard := 2, preamble := 5 }, framing := true, windows := [{ kind := .sn, term := 0, map := 0, word := 0, start := 0, fin := 2000000000 }] })], terms := [(0, { term0 with st := .operating, lastGood := some 1 })] }, time := { sfc := 9 } }

def st_DiscoveryFindsTerminals_1_4_s : State :=
  { up with pon := { ports := [(0, { cfg := { mode := 1, guard := 2, preamble := 5 }, framing := true, windows := [{ kind := .sn, term := 0, map := 0, word := 0, start := 0, fin := 2000000000 }] })], terms := [(0, { term0 with st := .operating, lastGood := some 0 })] }, time := { sfc := 9 } }

def st_DiscoveryFindsTerminals_2_1_s : State :=
  { up with pon := { ports := [(0, { cfg := { mode := 1, guard := 2, preamble := 5 }, framing := true, windows := [{ kind := .sn, term := 0, map := 0, word := 0, start := 0, fin := 2000000000 }] })], terms := [(0, term0)] } }

def st_DiscoveryFindsTerminals_2_2_s : State :=
  { up with pon := { ports := [(0, { cfg := { mode := 1, guard := 2, preamble := 5 }, framing := true, windows := [{ kind := .sn, term := 0, map := 0, word := 0, start := 0, fin := 2000000000 }], omci := some 255 })], terms := [(0, term0)] } }

def st_DiscoveryFindsTerminals_3_1_s : State :=
  { up with pon := { ports := [(0, { cfg := { mode := 1, guard := 2, preamble := 5 }, framing := true })], terms := [(0, term0)] } }

def st_DiscoveryFindsTerminals_3_2_s : State :=
  { up with pon := { ports := [(0, { cfg := { mode := 1, guard := 2, preamble := 5 }, framing := true, windows := [{ kind := .sn, term := 0, map := 0, word := 0, start := 0, fin := 2000000000 }] })], terms := [(0, term0)] } }

def st_DiscoveryFindsTerminals_3_3_s : State :=
  { up with pon := { ports := [(0, { cfg := { mode := 1, guard := 2, preamble := 5 }, framing := true, lastSn := some 0 })], terms := [(0, term0)] } }

def st_DiscoveryFindsTerminals_4_s : State :=
  { up with pon := { ports := [(0, { cfg := { mode := 1, guard := 2, preamble := 5 }, framing := true, codes := [(0, [])], running := true })], terms := [(0, term0)] } }

def st_DiscoveryFindsTerminals_5_s : State :=
  { up with pon := { ports := [(0, { cfg := { mode := 1, guard := 2, preamble := 5 }, framing := true, disc := { awl := true } })], terms := [(0, term0)] } }

def st_DiscoveryFindsTerminals_6_1_s : State :=
  { up with pon := { ports := [(0, { cfg := { mode := 1, guard := 2, preamble := 5 }, framing := true })], terms := [(0, { term0 with measured := 4, mean := 16 })] } }

def st_DiscoveryFindsTerminals_6_2_s : State :=
  { up with pon := { ports := [(0, { cfg := { mode := 1, guard := 2, preamble := 5 }, framing := true })], terms := [(0, { term0 with measured := 4, mean := 16 })] } }

def st_DiscoveryFindsTerminals_6_3_s : State :=
  { up with pon := { ports := [(0, { cfg := { mode := 1, guard := 2, preamble := 5 }, framing := true, crowd := 1 })], terms := [(0, { term0 with measured := 4, mean := 16 })] } }

def st_DiscoveryFindsTerminals_7_s : State :=
  { up with mono := sec, pon := { ports := [(63, { pause := some 0 })] } }

theorem witness_DiscoveryFindsTerminals :
    -- 1_1
    (∃ (p : Nat) (i : Nat) (sn0 : Word) (sn1 : Word) (arrival : Int) (bs : List Byte) (t : Terminal) (s : State),
    p < 64 ∧
    inService s p = true ∧
    inSnWindow s p arrival = true ∧
    reachHeld s p = false ∧
    bySerial s p sn0 sn1 = some (i, t) ∧
    termAt s i = some t ∧
    t.st = .pending) ∧
    -- 1_2
    (∃ (p : Nat) (i : Nat) (sn0 : Word) (sn1 : Word) (arrival : Int) (bs : List Byte) (t : Terminal) (s : State),
    p < 64 ∧
    inService s p = true ∧
    inSnWindow s p arrival = true ∧
    reachHeld s p = false ∧
    bySerial s p sn0 sn1 = some (i, t) ∧
    termAt s i = some t ∧
    t.st = .assigned) ∧
    -- 1_3
    (∃ (p : Nat) (i : Nat) (sn0 : Word) (sn1 : Word) (arrival : Int) (bs : List Byte) (t : Terminal) (s : State) (n : _),
    p < 64 ∧
    inService s p = true ∧
    inSnWindow s p arrival = true ∧
    reachHeld s p = false ∧
    bySerial s p sn0 sn1 = some (i, t) ∧
    termAt s i = some t ∧
    t.st = .operating ∧
    t.lastGood = some n ∧
    s.time.sfc ≤ n + 8) ∧
    -- 1_4
    (∃ (p : Nat) (i : Nat) (sn0 : Word) (sn1 : Word) (arrival : Int) (bs : List Byte) (t : Terminal) (s : State) (n : _),
    p < 64 ∧
    inService s p = true ∧
    inSnWindow s p arrival = true ∧
    reachHeld s p = false ∧
    bySerial s p sn0 sn1 = some (i, t) ∧
    termAt s i = some t ∧
    t.st = .operating ∧
    t.lastGood = some n ∧
    n + 8 < s.time.sfc) ∧
    -- 1_5
    (∃ (p : Nat) (i : Nat) (sn0 : Word) (sn1 : Word) (arrival : Int) (bs : List Byte) (t : Terminal) (s : State),
    p < 64 ∧
    inService s p = true ∧
    inSnWindow s p arrival = true ∧
    reachHeld s p = false ∧
    bySerial s p sn0 sn1 = some (i, t) ∧
    termAt s i = some t) ∧
    -- 2_1
    (∃ (p : Nat) (sn0 : Word) (sn1 : Word) (arrival : Int) (bs : List Byte) (s : State),
    p < 64 ∧
    inService s p = true ∧
    inSnWindow s p arrival = true ∧
    reachHeld s p = false ∧
    bySerial s p sn0 sn1 = none ∧
    (portAt s (treeOf s p)).omci = none) ∧
    -- 2_2
    (∃ (p : Nat) (sn0 : Word) (sn1 : Word) (arrival : Int) (bs : List Byte) (s : State) (q : _),
    p < 64 ∧
    inService s p = true ∧
    inSnWindow s p arrival = true ∧
    reachHeld s p = false ∧
    bySerial s p sn0 sn1 = none ∧
    (let t := bump (cid 17 7 7) 1 p s;
    let key := sn0.toNat + sn1.toNat * 2 ^ 32;
    (portAt t (treeOf t p)).omci = some q ∧
    mget (portAt t p).snSeen key = none)) ∧
    -- 3
    (∃ (p : Nat) (sn0 : Word) (sn1 : Word) (arrival : Int) (bs : List Byte) (mic : Bool) (s : State),
    p < 64 ∧
    (inSnWindow s p arrival = false ∨ reachHeld s p = true)) ∧
    -- 4_1
    (∃ (p : Nat) (s : State) (x : _),
    p < 64 ∧
    inService s p = true ∧
    snSpacing s p ≠ 0 ∧
    reachHeld s p = false ∧
    ((treeTerms s (treeOf s p)).filter fun e => e.2.st ≠ .pending).length < 512 ∧
    (let lo := nearest s p;
    let hi := nearest s p + uiCeil s p (10000000 * (discAt s p).diff + 500000 * (discAt s p).near + 50000000);
    let found := findSn s p lo hi 64 (max (snFloor s p) (s.time.sfc + 1));
    found = some x ∧
    x.map ≤ s.time.sfc + 8)) ∧
    -- 4_2
    (∃ (p : Nat) (s : State),
    p < 64 ∧
    inService s p = true ∧
    snSpacing s p ≠ 0 ∧
    reachHeld s p = false ∧
    ((treeTerms s (treeOf s p)).filter fun e => e.2.st ≠ .pending).length < 512 ∧
    (let lo := nearest s p;
    let hi := nearest s p + uiCeil s p (10000000 * (discAt s p).diff + 500000 * (discAt s p).near + 50000000);
    let found := findSn s p lo hi 64 (max (snFloor s p) (s.time.sfc + 1));
    found = none)) ∧
    -- 4_3
    (∃ (p : Nat) (s : State) (x : _),
    p < 64 ∧
    inService s p = true ∧
    snSpacing s p ≠ 0 ∧
    reachHeld s p = false ∧
    ((treeTerms s (treeOf s p)).filter fun e => e.2.st ≠ .pending).length < 512 ∧
    (let lo := nearest s p;
    let hi := nearest s p + uiCeil s p (10000000 * (discAt s p).diff + 500000 * (discAt s p).near + 50000000);
    let found := findSn s p lo hi 64 (max (snFloor s p) (s.time.sfc + 1));
    found = some x ∧
    s.time.sfc + 8 < x.map)) ∧
    -- 5_1
    (∃ (p : Nat) (i : Nat) (rtd : Int) (t : Terminal) (s : State),
    termAt s i = some t ∧
    p < 64 ∧
    t.st = .pending ∧
    ((portAt s p).codes.any fun e => e.1 = i) = true ∧
    (portAt s p).running = true ∧
    reachHeld s p = false ∧
    (let hi := nearest s p + uiCeil s p (10000000 * (discAt s p).diff + 2000000 + 500000 * (discAt s p).near);
    nearest s p ≤ rtd ∧
    rtd ≤ hi)) ∧
    -- 5_2
    (∃ (p : Nat) (i : Nat) (rtd : Int) (t : Terminal) (s : State),
    termAt s i = some t ∧
    p < 64 ∧
    t.st = .pending ∧
    ((portAt s p).codes.any fun e => e.1 = i) = true ∧
    (portAt s p).running = true ∧
    reachHeld s p = false ∧
    (let hi := nearest s p + uiCeil s p (10000000 * (discAt s p).diff + 2000000 + 500000 * (discAt s p).near);
    (rtd < nearest s p ∨ hi < rtd))) ∧
    -- 6_1
    (∃ (p : Nat) (level : Option Nat) (s : State),
    p < 64 ∧
    inService s p = true ∧
    s.time.sfc % 128 = 0 ∧
    (portAt s p).running = false) ∧
    -- 6_2_1
    (∃ (p : Nat) (level : Option Nat) (s : State),
    p < 64 ∧
    inService s p = true ∧
    s.time.sfc % 128 = 0 ∧
    (portAt s p).running = true) ∧
    -- 6_2_4
    (∃ (p : Nat) (level : Option Nat) (s : State) (e : Nat × List Byte) (x : Terminal),
    p < 64 ∧
    inService s p = true ∧
    s.time.sfc % 128 = 0 ∧
    (portAt s p).running = true ∧
    (let u := judgeCrowd p level s;
    e ∈ (portAt (awlCycle p level s) p).codes ∧
    termAt u e.1 = some x)) ∧
    -- 8_1
    (∃ (p : Nat) (v : Nat) (s : State),
    crowded s p v = false) ∧
    -- 8_2
    (∃ (p : Nat) (v : Nat) (s : State),
    crowded s p v = true ∧
    (portAt s p).crowd = 0) ∧
    -- 8_3
    (∃ (p : Nat) (v : Nat) (s : State),
    crowded s p v = true ∧
    1 ≤ (portAt s p).crowd ∧
    (portAt s p).awlCrowd = false) ∧
    -- 9
    (∃ (p : Nat) (t0 : Nat) (s : State),
    p < 64 ∧
    (portAt s p).pause = some t0 ∧
    t0 + sec ≤ s.mono) :=
  ⟨⟨0, 0, 1, 2, 0, [], term0, st_DiscoveryFindsTerminals_1_1_s, by decide +kernel⟩,
  ⟨0, 0, 1, 2, 0, [], { term0 with st := .assigned }, st_DiscoveryFindsTerminals_1_2_s, by decide +kernel⟩,
  ⟨0, 0, 1, 2, 0, [], { term0 with st := .operating, lastGood := some 1 }, st_DiscoveryFindsTerminals_1_3_s, 1, by decide +kernel⟩,
  ⟨0, 0, 1, 2, 0, [], { term0 with st := .operating, lastGood := some 0 }, st_DiscoveryFindsTerminals_1_4_s, 0, by decide +kernel⟩,
  ⟨0, 0, 1, 2, 0, [], term0, st_DiscoveryFindsTerminals_1_1_s, by decide +kernel⟩,
  ⟨0, 3, 4, 0, [], st_DiscoveryFindsTerminals_2_1_s, by decide +kernel⟩,
  ⟨0, 3, 4, 0, [], st_DiscoveryFindsTerminals_2_2_s, 255, by decide +kernel⟩,
  ⟨0, 3, 4, 0, [], true, up, by decide +kernel⟩,
  ⟨0, st_DiscoveryFindsTerminals_3_1_s, { kind := .sn, term := 0, map := 3, word := 0, start := 59723264, fin := 99536384 }, by decide +kernel⟩,
  ⟨0, st_DiscoveryFindsTerminals_3_2_s, by decide +kernel⟩,
  ⟨0, st_DiscoveryFindsTerminals_3_3_s, { kind := .sn, term := 0, map := 8000, word := 0, start := 159252483584, fin := 159292296704 }, by decide +kernel⟩,
  ⟨0, 0, 0, term0, st_DiscoveryFindsTerminals_4_s, by decide +kernel⟩,
  ⟨0, 0, -1, term0, st_DiscoveryFindsTerminals_4_s, by decide +kernel⟩,
  ⟨0, (some 5), st_DiscoveryFindsTerminals_5_s, by decide +kernel⟩,
  ⟨0, some 5, { st_DiscoveryFindsTerminals_4_s with time := { sfc := 128 } }, by decide +kernel⟩,
  ⟨0, some 5, { st_DiscoveryFindsTerminals_4_s with time := { sfc := 128 } }, (0, awlCode 1 2), term0, by decide, by decide +kernel, by decide, by decide, List.Mem.head _, by decide +kernel⟩,
  ⟨0, 0, st_DiscoveryFindsTerminals_6_1_s, by decide +kernel⟩,
  ⟨0, 1, st_DiscoveryFindsTerminals_6_2_s, by decide +kernel⟩,
  ⟨0, 1, st_DiscoveryFindsTerminals_6_3_s, by decide +kernel⟩,
  ⟨63, 0, st_DiscoveryFindsTerminals_7_s, by decide +kernel⟩⟩

def st_RangingSetsAndKeepsTheDelay_1_1_edge_s : State :=
  { up with pon := { ports := [(0, { cfg := { mode := 1, guard := 2, preamble := 5 }, framing := true })], terms := [(0, { term0 with st := .assigned, window := some (.directed, 0, 100) })] } }

def st_RangingSetsAndKeepsTheDelay_1_1_negative_s : State :=
  { up with pon := { ports := [(0, { cfg := { mode := 1, guard := 2, preamble := 5 }, framing := true })], terms := [(0, { term0 with st := .reranging, window := some (.directed, 0, 100) })] } }

def st_RangingSetsAndKeepsTheDelay_1_2_edge_s : State :=
  { up with pon := { ports := [(0, { cfg := { mode := 1, guard := 2, preamble := 5 }, framing := true })], terms := [(0, { term0 with st := .assigned, window := some (.directed, 0, 100) })] } }

def st_RangingSetsAndKeepsTheDelay_2_s : State :=
  { up with pon := { ports := [(0, { cfg := { mode := 1, guard := 2, preamble := 5 }, framing := true })], terms := [(0, { term0 with st := .operating, wait := some { eqd := 5, sent := 0, sends := 1, rtd := none, corr := 1 } })] } }

def st_RangingSetsAndKeepsTheDelay_3_s : State :=
  { up with pon := { ports := [(0, { cfg := { mode := 1, guard := 2, preamble := 5 }, framing := true })], terms := [(0, { term0 with st := .assigned, wait := some { eqd := 5, sent := 0, sends := 1, rtd := some 7, corr := 1 } })] } }

def st_RangingSetsAndKeepsTheDelay_4_1_s : State :=
  { up with pon := { ports := [(0, { cfg := { mode := 1, guard := 2, preamble := 5 }, framing := true })], terms := [(0, { term0 with st := .operating, wait := some { eqd := 5, sent := 0, sends := 2, rtd := none, corr := 1 } })] }, time := { sfc := 3 } }

def st_RangingSetsAndKeepsTheDelay_4_2_s : State :=
  { up with pon := { ports := [(0, { cfg := { mode := 1, guard := 2, preamble := 5 }, framing := true })], terms := [(0, { term0 with st := .operating, wait := some { eqd := 5, sent := 0, sends := 3, rtd := none, corr := 1 } })] }, time := { sfc := 3 } }

def st_RangingSetsAndKeepsTheDelay_4_3_s : State :=
  { up with pon := { ports := [(0, { cfg := { mode := 1, guard := 2, preamble := 5 }, framing := true })], terms := [(0, { term0 with st := .operating, wait := some { eqd := 5, sent := 0, sends := 3, rtd := some 7, corr := 1 } })] }, time := { sfc := 3 } }

def st_RangingSetsAndKeepsTheDelay_5_1_s : State :=
  { up with pon := { ports := [(0, { cfg := { mode := 1, guard := 2, preamble := 5 }, framing := true })], terms := [(0, { term0 with st := .assigned, tries := 1 })] } }

def st_RangingSetsAndKeepsTheDelay_5_2_s : State :=
  { up with pon := { ports := [(0, { cfg := { mode := 1, guard := 2, preamble := 5 }, framing := true })], terms := [(0, { term0 with st := .assigned, tries := 2 })] } }

def st_RangingSetsAndKeepsTheDelay_5_3_s : State :=
  { up with pon := { ports := [(0, { cfg := { mode := 1, guard := 2, preamble := 5 }, framing := true })], terms := [(0, { term0 with st := .reranging, tries := 2 })] } }

def st_RangingSetsAndKeepsTheDelay_6_1_edge_s : State :=
  { up with pon := { ports := [(0, { cfg := { mode := 1, guard := 2, preamble := 5 }, framing := true })], terms := [(0, opTerm)] } }

def st_RangingSetsAndKeepsTheDelay_6_1_negative_s : State :=
  { up with pon := { ports := [(0, { cfg := { mode := 1, guard := 2, preamble := 5 }, framing := true })], terms := [(0, opTerm)] } }

def st_RangingSetsAndKeepsTheDelay_6_2_s : State :=
  { up with pon := { ports := [(0, { cfg := { mode := 1, guard := 2, preamble := 5 }, framing := true })], terms := [(0, opTerm)] } }

def st_RangingSetsAndKeepsTheDelay_6_3_s : State :=
  { up with pon := { ports := [(0, { cfg := { mode := 1, guard := 2, preamble := 5 }, framing := true })], terms := [(0, { term0 with st := .operating, cand := some 1089 })] } }

def st_RangingSetsAndKeepsTheDelay_6_4_s : State :=
  { up with pon := { ports := [(0, { cfg := { mode := 1, guard := 2, preamble := 5 }, framing := true })], terms := [(0, { term0 with st := .operating, cand := some 1090 })] } }

def st_RangingSetsAndKeepsTheDelay_6_5_s : State :=
  { up with pon := { ports := [(0, { cfg := { mode := 1, guard := 2, preamble := 5 }, framing := true })], terms := [(0, opTerm)] } }

def st_RangingSetsAndKeepsTheDelay_6_6_s : State :=
  { up with pon := { ports := [(0, { cfg := { mode := 1, guard := 2, preamble := 5 }, framing := true })], terms := [(0, { term0 with st := .operating, energyFails := 1 })] } }

def st_RangingSetsAndKeepsTheDelay_7_1_s : State :=
  { up with pon := { ports := [(0, { cfg := { mode := 1, guard := 2, preamble := 5 }, framing := true })], terms := [(0, { term0 with drift := -128 })] } }

def st_RangingSetsAndKeepsTheDelay_7_2_s : State :=
  { up with pon := { ports := [(0, { cfg := { mode := 1, guard := 2, preamble := 5 }, framing := true })], terms := [(0, { term0 with drift := -129 })] } }

theorem witness_RangingSetsAndKeepsTheDelay :
    -- 1_1_edge
    (∃ (i : Nat) (rtd : Int) (t : Terminal) (s : State),
    termAt s i = some t ∧
    (t.st = .assigned ∨ t.st = .reranging) ∧
    t.wait = none ∧
    t.window ≠ none ∧
    (let q : Int := teqd s t.port;
    rtd ≤ 16 * (q - 64))) ∧
    -- 1_1_negative
    (∃ (i : Nat) (rtd : Int) (t : Terminal) (s : State),
    termAt s i = some t ∧
    (t.st = .assigned ∨ t.st = .reranging) ∧
    t.wait = none ∧
    t.window ≠ none ∧
    (let q : Int := teqd s t.port;
    rtd ≤ 16 * (q - 64))) ∧
    -- 1_2_edge
    (∃ (i : Nat) (rtd : Int) (t : Terminal) (s : State),
    termAt s i = some t ∧
    (t.st = .assigned ∨ t.st = .reranging) ∧
    t.wait = none ∧
    t.window ≠ none ∧
    (let q : Int := teqd s t.port;
    16 * (q - 64) < rtd)) ∧
    -- 2
    (∃ (i : Nat) (t : Terminal) (w : RtWait) (s : State),
    termAt s i = some t ∧
    t.wait = some w ∧
    w.rtd = none ∧
    s.vault.registered.contains i = true) ∧
    -- 3
    (∃ (i : Nat) (t : Terminal) (w : RtWait) (rtd : Int) (s : State),
    termAt s i = some t ∧
    t.wait = some w ∧
    w.rtd = some rtd ∧
    s.vault.registered.contains i = true ∧
    t.st = .assigned) ∧
    -- 4_1
    (∃ (i : Nat) (t : Terminal) (w : RtWait) (s : State),
    termAt s i = some t ∧
    t.wait = some w ∧
    w.sent + 3 ≤ s.time.sfc ∧
    (∀ m ∈ t.own, ploamType m ≠ 1) ∧
    w.sends < 3) ∧
    -- 4_2
    (∃ (i : Nat) (t : Terminal) (w : RtWait) (s : State),
    termAt s i = some t ∧
    t.wait = some w ∧
    w.sent + 3 ≤ s.time.sfc ∧
    (∀ m ∈ t.own, ploamType m ≠ 1) ∧
    3 ≤ w.sends ∧
    w.rtd = none) ∧
    -- 4_3
    (∃ (i : Nat) (t : Terminal) (w : RtWait) (s : State),
    termAt s i = some t ∧
    t.wait = some w ∧
    w.sent + 3 ≤ s.time.sfc ∧
    (∀ m ∈ t.own, ploamType m ≠ 1) ∧
    3 ≤ w.sends ∧
    w.rtd ≠ none) ∧
    -- 5_1
    (∃ (i : Nat) (t : Terminal) (s : State),
    termAt s i = some t ∧
    t.st = .assigned ∧
    t.tries < 2) ∧
    -- 5_2
    (∃ (i : Nat) (t : Terminal) (s : State),
    termAt s i = some t ∧
    t.st = .assigned ∧
    2 ≤ t.tries) ∧
    -- 5_3
    (∃ (i : Nat) (t : Terminal) (s : State),
    termAt s i = some t ∧
    t.st = .reranging ∧
    2 ≤ t.tries) ∧
    -- 6_1_edge
    (∃ (i : Nat) (o : Int) (t : Terminal) (s : State),
    termAt s i = some t ∧
    t.st = .operating ∧
    (o - t.drift).natAbs ≤ 1024 ∧
    t.wait = none) ∧
    -- 6_1_negative
    (∃ (i : Nat) (o : Int) (t : Terminal) (s : State),
    termAt s i = some t ∧
    t.st = .operating ∧
    (o - t.drift).natAbs ≤ 1024 ∧
    t.wait = none) ∧
    -- 6_2
    (∃ (i : Nat) (o : Int) (t : Terminal) (s : State),
    termAt s i = some t ∧
    t.st = .operating ∧
    1024 < (o - t.drift).natAbs ∧
    t.cand = none) ∧
    -- 6_3
    (∃ (i : Nat) (o : Int) (t : Terminal) (s : State) (c : _),
    termAt s i = some t ∧
    t.st = .operating ∧
    1024 < (o - t.drift).natAbs ∧
    t.cand = some c ∧
    (o - c).natAbs ≤ 64) ∧
    -- 6_4
    (∃ (i : Nat) (o : Int) (t : Terminal) (s : State) (c : _),
    termAt s i = some t ∧
    t.st = .operating ∧
    1024 < (o - t.drift).natAbs ∧
    t.cand = some c ∧
    64 < (o - c).natAbs) ∧
    -- 6_5
    (∃ (i : Nat) (o : Int) (t : Terminal) (s : State),
    termAt s i = some t ∧
    t.st = .operating ∧
    t.energyFails = 0) ∧
    -- 6_6
    (∃ (i : Nat) (o : Int) (t : Terminal) (s : State),
    termAt s i = some t ∧
    t.st = .operating ∧
    1 ≤ t.energyFails) ∧
    -- 7_1
    (∃ (i : Nat) (t : Terminal) (s : State),
    termAt s i = some t ∧
    t.drift.natAbs ≤ 128) ∧
    -- 7_2
    (∃ (i : Nat) (t : Terminal) (s : State),
    termAt s i = some t ∧
    128 < t.drift.natAbs ∧
    t.wait = none) :=
  ⟨⟨0, 33442000, { term0 with st := .assigned, window := some (.directed, 0, 100) }, st_RangingSetsAndKeepsTheDelay_1_1_edge_s, by decide +kernel⟩,
  ⟨0, -5, { term0 with st := .reranging, window := some (.directed, 0, 100) }, st_RangingSetsAndKeepsTheDelay_1_1_negative_s, by decide +kernel⟩,
  ⟨0, 33442001, { term0 with st := .assigned, window := some (.directed, 0, 100) }, st_RangingSetsAndKeepsTheDelay_1_2_edge_s, by decide +kernel⟩,
  ⟨0, { term0 with st := .operating, wait := some { eqd := 5, sent := 0, sends := 1, rtd := none, corr := 1 } }, { eqd := 5, sent := 0, sends := 1, rtd := none, corr := 1 }, { st_RangingSetsAndKeepsTheDelay_2_s with vault := { registered := [0] } }, by decide +kernel⟩,
  ⟨0, { term0 with st := .assigned, wait := some { eqd := 5, sent := 0, sends := 1, rtd := some 7, corr := 1 } }, { eqd := 5, sent := 0, sends := 1, rtd := some 7, corr := 1 }, 7, { st_RangingSetsAndKeepsTheDelay_3_s with vault := { registered := [0] } }, by decide +kernel⟩,
  ⟨0, { term0 with st := .operating, wait := some { eqd := 5, sent := 0, sends := 2, rtd := none, corr := 1 } }, { eqd := 5, sent := 0, sends := 2, rtd := none, corr := 1 }, st_RangingSetsAndKeepsTheDelay_4_1_s, by decide +kernel⟩,
  ⟨0, { term0 with st := .operating, wait := some { eqd := 5, sent := 0, sends := 3, rtd := none, corr := 1 } }, { eqd := 5, sent := 0, sends := 3, rtd := none, corr := 1 }, st_RangingSetsAndKeepsTheDelay_4_2_s, by decide +kernel⟩,
  ⟨0, { term0 with st := .operating, wait := some { eqd := 5, sent := 0, sends := 3, rtd := some 7, corr := 1 } }, { eqd := 5, sent := 0, sends := 3, rtd := some 7, corr := 1 }, st_RangingSetsAndKeepsTheDelay_4_3_s, by decide +kernel⟩,
  ⟨0, { term0 with st := .assigned, tries := 1 }, st_RangingSetsAndKeepsTheDelay_5_1_s, by decide +kernel⟩,
  ⟨0, { term0 with st := .assigned, tries := 2 }, st_RangingSetsAndKeepsTheDelay_5_2_s, by decide +kernel⟩,
  ⟨0, { term0 with st := .reranging, tries := 2 }, st_RangingSetsAndKeepsTheDelay_5_3_s, by decide +kernel⟩,
  ⟨0, 1024, opTerm, st_RangingSetsAndKeepsTheDelay_6_1_edge_s, by decide +kernel⟩,
  ⟨0, -1024, opTerm, st_RangingSetsAndKeepsTheDelay_6_1_negative_s, by decide +kernel⟩,
  ⟨0, -1025, opTerm, st_RangingSetsAndKeepsTheDelay_6_2_s, by decide +kernel⟩,
  ⟨0, 1025, { term0 with st := .operating, cand := some 1089 }, st_RangingSetsAndKeepsTheDelay_6_3_s, 1089, by decide +kernel⟩,
  ⟨0, 1025, { term0 with st := .operating, cand := some 1090 }, st_RangingSetsAndKeepsTheDelay_6_4_s, 1090, by decide +kernel⟩,
  ⟨0, 0, opTerm, st_RangingSetsAndKeepsTheDelay_6_5_s, by decide +kernel⟩,
  ⟨0, 0, { term0 with st := .operating, energyFails := 1 }, st_RangingSetsAndKeepsTheDelay_6_6_s, by decide +kernel⟩,
  ⟨0, { term0 with drift := -128 }, st_RangingSetsAndKeepsTheDelay_7_1_s, by decide +kernel⟩,
  ⟨0, { term0 with drift := -129 }, st_RangingSetsAndKeepsTheDelay_7_2_s, by decide +kernel⟩⟩

def st_FramesBeginAtTheBoundary_3_s : State :=
  { up with pon := { ports := [(0, { cfg := { mode := 1 }, framing := true })] } }

def st_FramesBeginAtTheBoundary_5_s : State :=
  { up with pon := { ports := [(0, { cfg := { mode := 1 }, starting := true })] } }

def st_FramesBeginAtTheBoundary_6_1_s : State :=
  upT { opTerm with switch := some (2, 5) }

def st_FramesBeginAtTheBoundary_6_2_s : State :=
  upT { opTerm with switch := some (2, 5) }

def st_FramesBeginAtTheBoundary_6_3_s : State :=
  upT { opTerm with switch := some (2, 5) }

def st_FramesBeginAtTheBoundary_7_1_s : State :=
  upT { opTerm with own := [.deactivate] }

def st_FramesBeginAtTheBoundary_7_2_s : State :=
  upT { opTerm with hostMsgs := [.deactivate] }

def st_FramesBeginAtTheBoundary_8_s : State :=
  { up with pon := { ports := [(63, { stopping := some 0 })] } }

def st_FramesBeginAtTheBoundary_9_s : State :=
  { up with pon := { ports := [(0, { cfg := { mode := 1 }, rogueRun := 3 })] } }

theorem witness_FramesBeginAtTheBoundary :
    -- 1
    (∃ (energy : List (Nat × List Nat)) (s : State),
    (s.time.frames + 1) * (125000 * nsUnit) ≤ ((s.time.tc : Int) - s.time.stepped).toNat) ∧
    -- 2
    (∃ (energy : List (Nat × List Nat)) (s : State),
    ((s.time.tc : Int) - s.time.stepped).toNat < (s.time.frames + 1) * (125000 * nsUnit)) ∧
    -- 3
    (∃ (energy : List (Nat × List Nat)) (s : State),
    (s.time.frames + 1) * (125000 * nsUnit) ≤ ((s.time.tc : Int) - s.time.stepped).toNat ∧
    (∀ p < 64, inService s p = false)) ∧
    -- 4
    (∃ (s : State) (p : Nat) (codes : List Nat) (before : List Nat) (after : List Nat),
    codes.length = 40 ∧
    (∀ c ∈ codes, (cfgAt s p).energyTh < c ∧ c < 2 ^ 14) ∧
    (let at_ (k : Nat) : Int := uiFloor s p ((s.time.sfc - 1) * 125000000 + k * 25000);
    (∀ k, before.length ≤ k → k < before.length + 40 → ∀ x ∈ heldSpans s p, at_ (k + 1) ≤ x.1 ∨ x.2 ≤ at_ k))) ∧
    -- 5
    (∃ (s : State) (p : Nat) (codes : List Nat) (x : Int × Int),
    x ∈ heldSpans s p ∧
    (let at_ (k : Nat) : Int := uiFloor s p ((s.time.sfc - 1) * 125000000 + k * 25000);
    (∀ k, k < codes.length → x.1 < at_ (k + 1) ∧ at_ k < x.2))) ∧
    -- 6
    (∃ (s : State) (p : Nat) (e : Nat × List Nat),
    (e.1 ≠ p ∨ (∀ c ∈ e.2, c ≤ (cfgAt s p).energyTh) ∨ e.2.length < 40)) ∧
    -- 7
    (∃ (p : Nat) (n : Nat) (rogue : Bool) (s : State),
    inService s p = true) ∧
    -- 8
    (∃ (p : Nat) (n : Nat) (s : State),
    n % 8192 ≠ 0) ∧
    -- 9
    (∃ (p : Nat) (n : Nat) (s : State),
    p < 64 ∧
    n % 8192 = 0) ∧
    -- 10
    (∃ (p : Nat) (s : State),
    (portAt s p).starting = true ∧
    (portAt s p).noOptics = false ∧
    (portAt s p).lolTx = false ∧
    (portAt s p).release = none) ∧
    -- 11_1
    (∃ (i : Nat) (index : Nat) (at_ : Nat) (n : Nat) (t : Terminal) (s : State),
    t.switch = some (index, at_) ∧
    n < at_) ∧
    -- 11_2
    (∃ (i : Nat) (index : Nat) (at_ : Nat) (n : Nat) (t : Terminal) (s : State),
    t.switch = some (index, at_) ∧
    n = at_) ∧
    -- 11_3
    (∃ (i : Nat) (index : Nat) (at_ : Nat) (n : Nat) (t : Terminal) (s : State),
    t.switch = some (index, at_) ∧
    at_ < n) ∧
    -- 12_1
    (∃ (p : Nat) (n : Nat) (i : Nat) (m : Ploam) (rest : List Ploam) (t : Terminal) (s : State),
    termAt s i = some t ∧
    t.own = m :: rest) ∧
    -- 12_2
    (∃ (p : Nat) (n : Nat) (i : Nat) (m : Ploam) (rest : List Ploam) (t : Terminal) (s : State),
    termAt s i = some t ∧
    t.own = [] ∧
    t.hostMsgs = m :: rest) ∧
    -- 13
    (∃ (p : Nat) (n : Nat) (k : Nat) (s : State),
    (portAt s p).stopping = some k) ∧
    -- 14
    (∃ (p : Nat) (s : State),
    (portAt s p).rogueRun = 3 ∧
    (portAt s p).rogue = false) :=
  ⟨⟨[(0, [])], { up with time := { tc := 125000 * nsUnit } }, by decide +kernel⟩,
  ⟨[], { up with time := { tc := 125000 * nsUnit - 1 } }, by decide +kernel⟩,
  ⟨[], { up with time := { tc := 125000 * nsUnit } }, by decide +kernel⟩,
  ⟨up, 0, List.replicate 40 257, [], [], by decide +kernel⟩,
  ⟨{ up with time := { sfc := 1 }, pon := { ports := [(0, { cfg := { mode := 1 }, windows := [{ kind := .sn, term := 0, map := 1, word := 0, start := 0, fin := 2000000 }] })] } }, 0, List.replicate 40 257, (0, 2000000), by decide +kernel⟩,
  ⟨up, 0, (0, List.replicate 39 257), by decide +kernel⟩,
  ⟨0, 1, true, st_FramesBeginAtTheBoundary_3_s, by decide +kernel⟩,
  ⟨0, 8193, up, by decide +kernel⟩,
  ⟨0, 8192, up, by decide +kernel⟩,
  ⟨0, st_FramesBeginAtTheBoundary_5_s, by decide +kernel⟩,
  ⟨0, 2, 5, 4, { opTerm with switch := some (2, 5) }, st_FramesBeginAtTheBoundary_6_1_s, by decide +kernel⟩,
  ⟨0, 2, 5, 5, { opTerm with switch := some (2, 5) }, st_FramesBeginAtTheBoundary_6_2_s, by decide +kernel⟩,
  ⟨0, 2, 5, 6, { opTerm with switch := some (2, 5) }, st_FramesBeginAtTheBoundary_6_3_s, by decide +kernel⟩,
  ⟨0, 1, 0, .deactivate, [], { opTerm with own := [.deactivate] }, st_FramesBeginAtTheBoundary_7_1_s, by decide +kernel⟩,
  ⟨0, 1, 0, .deactivate, [], { opTerm with hostMsgs := [.deactivate] }, st_FramesBeginAtTheBoundary_7_2_s, by decide +kernel⟩,
  ⟨63, 0, 0, st_FramesBeginAtTheBoundary_8_s, by decide +kernel⟩,
  ⟨0, st_FramesBeginAtTheBoundary_9_s, by decide +kernel⟩⟩

def st_OpticsAreWatched_1_s : State :=
  { up with pon := { ports := [(0, { cfg := { mode := 1 }, framing := true })] } }

def st_OpticsAreWatched_2_1_s : State :=
  { up with pon := { ports := [(0, { cfg := { mode := 1 }, framing := true })] } }

def st_OpticsAreWatched_2_2_absent_s : State :=
  { up with pon := { ports := [(0, { cfg := { mode := 1 }, noOptics := true })] } }

def st_OpticsAreWatched_3_1_s : State :=
  { up with pon := { ports := [(63, { pres := false, noOptics := true })] } }

def st_OpticsAreWatched_4_s : State :=
  { up with mono := 100 * ms, pon := { ports := [(63, { release := some 0 })] } }

def st_OpticsAreWatched_5_s : State :=
  { up with mono := 100 * ms - 1, pon := { ports := [(63, { release := some 0 })] } }

def st_OpticsAreWatched_7_s : State :=
  { up with mono := sec, pon := { stuck := [(7, 0)] } }

theorem witness_OpticsAreWatched :
    -- 1
    (∃ (p : Nat) (s : State),
    p < 64 ∧
    inService s p = true ∧
    (portAt s p).lolTx = false) ∧
    -- 2_1
    (∃ (p : Nat) (s : State),
    p < 64 ∧
    inService s p = true ∧
    (portAt s p).noOptics = false) ∧
    -- 2_2_unused
    (∃ (p : Nat) (s : State),
    p < 64 ∧
    (inService s p = false ∨ (portAt s p).noOptics = true)) ∧
    -- 2_2_absent
    (∃ (p : Nat) (s : State),
    p < 64 ∧
    (inService s p = false ∨ (portAt s p).noOptics = true)) ∧
    -- 3_1
    (∃ (p : Nat) (s : State),
    p < 64 ∧
    (portAt s p).noOptics = true) ∧
    -- 3_2
    (∃ (p : Nat) (s : State),
    p < 64 ∧
    (portAt s p).noOptics = false) ∧
    -- 4
    (∃ (p : Nat) (t0 : Nat) (s : State),
    p < 64 ∧
    (portAt s p).release = some t0 ∧
    t0 + 100 * ms ≤ s.mono) ∧
    -- 5
    (∃ (p : Nat) (t0 : Nat) (s : State),
    p < 64 ∧
    (portAt s p).release = some t0 ∧
    s.mono < t0 + 100 * ms) ∧
    -- 6
    (∃ (p : Nat) (outcome : Nat) (released : Bool) (s : State),
    p < 64 ∧
    (portAt s p).pres = true ∧
    mget s.pon.stuck (p / 8) = none ∧
    (∀ t0, mget s.pon.polled p = some t0 → t0 + sec ≤ s.mono)) ∧
    -- 7
    (∃ (bus : Nat) (t0 : Nat) (s : State),
    bus < 8 ∧
    mget s.pon.stuck bus = some t0 ∧
    t0 + sec ≤ s.mono) ∧
    -- 8
    (∃ (bus : Nat) (s : State),
    mget s.pon.stuck bus = none) :=
  ⟨⟨0, st_OpticsAreWatched_1_s, by decide +kernel⟩,
  ⟨0, st_OpticsAreWatched_2_1_s, by decide +kernel⟩,
  ⟨63, up, by decide +kernel⟩,
  ⟨0, st_OpticsAreWatched_2_2_absent_s, by decide +kernel⟩,
  ⟨63, st_OpticsAreWatched_3_1_s, by decide +kernel⟩,
  ⟨63, up, by decide +kernel⟩,
  ⟨63, 0, st_OpticsAreWatched_4_s, by decide +kernel⟩,
  ⟨63, 0, st_OpticsAreWatched_5_s, by decide +kernel⟩,
  ⟨63, 3, false, up, by refine ⟨?_, ?_, ?_, of_none (by decide +kernel)⟩ <;> decide +kernel⟩,
  ⟨7, 0, st_OpticsAreWatched_7_s, by decide +kernel⟩,
  ⟨7, up, by decide +kernel⟩⟩

def st_SamplesFillTheRings_2_s : State :=
  { up with time := { tc := 10000 * nsUnit } }

def st_SamplesFillTheRings_3_2_full_s : State :=
  { up with tm := { queues := [(⟨1, 4, 0⟩, { sample := true, was := true })] } }

def st_SamplesFillTheRings_3_3_queue_s : State :=
  { up with tm := { queues := [(⟨1, 4, 0⟩, { sample := true, was := true })] } }

theorem witness_SamplesFillTheRings :
    -- 1
    (∃ (inTime : Bool) (s : State),
    s.tm.lastSample = some (s.time.tc / (10000 * nsUnit))) ∧
    -- 2
    (∃ (inTime : Bool) (s : State),
    s.tm.lastSample ≠ some (s.time.tc / (10000 * nsUnit))) ∧
    -- 3_1
    (∃ (world : Nat) (r : Ring) (inTime : Bool) (s : State),
    (let qs := unitQueues s world;
    qs = [] ∧
    r.lost = 0)) ∧
    -- 3_2_full
    (∃ (world : Nat) (r : Ring) (inTime : Bool) (s : State),
    (let qs := unitQueues s world;
    let n := qs.length + 1;
    (qs ≠ [] ∨ r.lost ≠ 0) ∧
    (r.size < r.written - r.consumed.getD 0 + n ∨ inTime = false))) ∧
    -- 3_2_late
    (∃ (world : Nat) (r : Ring) (inTime : Bool) (s : State),
    (let qs := unitQueues s world;
    let n := qs.length + 1;
    (qs ≠ [] ∨ r.lost ≠ 0) ∧
    (r.size < r.written - r.consumed.getD 0 + n ∨ inTime = false))) ∧
    -- 3_3_queue
    (∃ (world : Nat) (r : Ring) (inTime : Bool) (s : State),
    (let qs := unitQueues s world;
    let n := qs.length + 1;
    (qs ≠ [] ∨ r.lost ≠ 0) ∧
    r.written - r.consumed.getD 0 + n ≤ r.size ∧
    inTime = true)) ∧
    -- 3_3_lost
    (∃ (world : Nat) (r : Ring) (inTime : Bool) (s : State),
    (let qs := unitQueues s world;
    let n := qs.length + 1;
    (qs ≠ [] ∨ r.lost ≠ 0) ∧
    r.written - r.consumed.getD 0 + n ≤ r.size ∧
    inTime = true)) :=
  ⟨⟨true, { up with tm := { lastSample := some 0 } }, by decide +kernel⟩,
  ⟨true, st_SamplesFillTheRings_2_s, by decide +kernel⟩,
  ⟨0x100, { fn := 0, addr := 4096, size := 2 }, true, up, by decide +kernel⟩,
  ⟨0x100, { fn := 0, addr := 4096, size := 1 }, true, st_SamplesFillTheRings_3_2_full_s, by decide +kernel⟩,
  ⟨0x100, { fn := 0, addr := 4096, size := 2, lost := 1 }, false, up, by decide +kernel⟩,
  ⟨0x100, { fn := 0, addr := 4096, size := 2 }, true, st_SamplesFillTheRings_3_3_queue_s, by decide +kernel⟩,
  ⟨0x100, { fn := 0, addr := 4096, size := 1, lost := 1 }, true, up, by decide +kernel⟩⟩

def st_StepRunsTheFrontCommand_1_s : State :=
  { up with pending := [.handlerFail] }

theorem witness_StepRunsTheFrontCommand :
    -- 1
    (∃ (c : Instr) (rest : List Instr) (s : State),
    s.pending = c :: rest) ∧
    -- 2
    (∃ (s : State),
    s.pending = []) ∧
    -- 3
    (∃ (s : State),
    s.pending = [] ∧
    s.host.heldOrder = [] ∧
    (∀ e ∈ s.host.pairs, e.2.written = [])) :=
  ⟨⟨.handlerFail, [], st_StepRunsTheFrontCommand_1_s, by decide +kernel⟩,
  ⟨up, by decide +kernel⟩,
  ⟨up, by decide +kernel⟩⟩

def st_PortModesChangeFromOrToZero_1_other_s : State :=
  { up with pon := { ports := [(0, { cfg := { mode := 2 } }), (1, { cfg := { mode := 0 } })] } }

def st_PortModesChangeFromOrToZero_1_pair_s : State :=
  { up with pon := { ports := [(0, { cfg := { mode := 0 } }), (1, { cfg := { mode := 1 } })] } }

theorem witness_PortModesChangeFromOrToZero :
    -- 1_other
    (∃ (p : Packet) (s : State),
    accepts opPortConfig p s = true ∧
    (let f := fetched opPortConfig p s;
    let w := nthW (ownWords p) 0;
    let i := fld w 5 0;
    let mode := fld w 10 8;
    let old := (portCfgAt f i).mode;
    p.inst.toNat = i ∧
    (portAt f i).stopping = none ∧
    (¬ (paired f i = true ∧ i % 2 = 1)) ∧
    mode ≤ 5 ∧
    (4 ≤ mode → i % 2 = 0) ∧
    ((old ≠ 0 ∧ mode ≠ 0 ∧ mode ≠ old) ∨ (4 ≤ mode ∧ old = 0 ∧ (portCfgAt f (i + 1)).mode ≠ 0)))) ∧
    -- 1_pair
    (∃ (p : Packet) (s : State),
    accepts opPortConfig p s = true ∧
    (let f := fetched opPortConfig p s;
    let w := nthW (ownWords p) 0;
    let i := fld w 5 0;
    let mode := fld w 10 8;
    let old := (portCfgAt f i).mode;
    p.inst.toNat = i ∧
    (portAt f i).stopping = none ∧
    (¬ (paired f i = true ∧ i % 2 = 1)) ∧
    mode ≤ 5 ∧
    (4 ≤ mode → i % 2 = 0) ∧
    ((old ≠ 0 ∧ mode ≠ 0 ∧ mode ≠ old) ∨ (4 ≤ mode ∧ old = 0 ∧ (portCfgAt f (i + 1)).mode ≠ 0)))) :=
  ⟨⟨(pk [0x100, 0, 0, 0, 0, 0, 0, 0]), st_PortModesChangeFromOrToZero_1_other_s, by decide +kernel⟩,
  ⟨(pk [0x400, 0, 0, 0, 0, 0, 0, 0]), st_PortModesChangeFromOrToZero_1_pair_s, by decide +kernel⟩⟩

/-- A result that is no refusal. -/
theorem of_notRefused {r : HRes} (h : (match r with | .refuse _ _ => true | _ => false) = false) :
    ∀ st ws, r ≠ .refuse st ws := by
  intro st ws e; subst e; cases h

/-- PROTECTION staged for epoch 1 on the pair. -/
def pkStaged : Packet := { pk [0x7832000A] with flags := 16, epochExp := 1 }

/-- The booted module with an epoch 1 staged. -/
def upStaged : State := upE { phase := .staged, staged := 1 }

theorem witness_StagedCommandsWaitForTheEpoch : ∃ (row : Packet → Instr) (op : OpSpec), (∀ p s, exec (row p) s = command op p s) ∧
    ∃ (p : Packet) (s : State), acceptsStaged op p s = true ∧
      (∀ st ws, op.run { ctxOf op p (fetched op p s) with accepting := true } (staged (fetched op p s)).1 ≠ .refuse st ws) ∧
      hasRoom op p (fetched op p s) = true :=
  ⟨Instr.protectionCommand, opProtectionCommand, fun _ _ => rfl, pkStaged, upStaged, by decide +kernel, of_notRefused (by decide +kernel), by decide +kernel⟩

theorem witness_EveryCommandRunsOrNamesNoObject_2 : ∃ (row : Packet → Instr) (op : OpSpec), (∀ p s, exec (row p) s = command op p s) ∧
    ∃ (p : Packet) (n : Nat), p.src = .pair n ∧ n < 64 :=
  ⟨Instr.timeRead, opTimeRead, fun _ _ => rfl, { pk [] with src := .pair 63 }, 63, rfl, by decide⟩

theorem witness_RefusedPacketsHaveNoEffect_1 : ∃ (row : Packet → Instr) (op : OpSpec), (∀ p s, exec (row p) s = command op p s) ∧
    ∃ (p : Packet) (st : Status) (ws : List Word) (s : State), readable op p s = true ∧ judge op p s = some (st, ws) :=
  ⟨Instr.timeRead, opTimeRead, fun _ _ => rfl, pk [1], .badLength, [], up, by decide +kernel, by decide +kernel⟩

theorem witness_RefusedPacketsHaveNoEffect_3_length :
    ({ pk [] with length := 7 } : Packet).length.toNat < 8 ∧ 4096 < ({ pk [] with length := 4097 } : Packet).length.toNat := by decide

/-- The earlier grounds of R549 that a packet does not meet, up to a step of the order. -/
def clearUpTo (k : Nat) (op : OpSpec) (p : Packet) (s : State) : Bool :=
  let frozen := decide ((s.boot.state = .safe ∨ s.flt.frozen = true ∨ s.boot.restarting = true) ∧ op.code ∉ safeOps)
  [decide (8 ≤ p.length.toNat ∧ p.length.toNat ≤ 4096), (seqGround p s).isNone, (headerGround p).isNone,
   decide (descWords p ≤ (paramWords p).length) && op.len (ownWords p), (masterGround op p s).isNone, worldOk op p s,
   !frozen, targetOk op p, (epochGround p s).isNone, (paramGround op p).isNone].take k |>.all id

/-- A packet of the function 1, whose pair 1 has the world 0. -/
def vfPk (q : Packet) : Packet := { q with src := .pair 1, world := 0 }

/-- The booted module with a pair 1 of a tenant's function. -/
def upVf : State :=
  { up with host := { pairs := [(1, { enable := true, served := true, world := 0, bound := 1 })] } }

theorem witness_RefusedPacketsHaveNoEffect_3_seq :
    clearUpTo 1 opTimeRead (pk []) ({ up with host := { pairs := [(0, { enable := true, served := true, world := 0x100, seqExp := some 5 })] } }) = true ∧
    seqGround (pk []) ({ up with host := { pairs := [(0, { enable := true, served := true, world := 0x100, seqExp := some 5 })] } }) = some (.badSequence, [5, 0]) := by
  refine ⟨?_, ?_⟩ <;> decide +kernel

theorem witness_RefusedPacketsHaveNoEffect_3_header :
    clearUpTo 2 opTimeRead ({ pk [] with flags := 64 }) (up) = true ∧
    headerGround ({ pk [] with flags := 64 }) = some 1 := by
  refine ⟨?_, ?_⟩ <;> decide +kernel

theorem witness_RefusedPacketsHaveNoEffect_3_parameters :
    clearUpTo 3 opTimeRead (pk [1]) (up) = true ∧
    opTimeRead.len (ownWords (pk [1])) = false := by
  refine ⟨?_, ?_⟩ <;> decide +kernel

theorem witness_RefusedPacketsHaveNoEffect_3_descriptors :
    clearUpTo 3 opTimeRead ({ pk [] with flags := 4 }) (up) = true ∧
    (paramWords ({ pk [] with flags := 4 })).length < descWords ({ pk [] with flags := 4 }) := by
  refine ⟨?_, ?_⟩ <;> decide +kernel

theorem witness_RefusedPacketsHaveNoEffect_3_master :
    clearUpTo 4 opFaultRead (vfPk (pk [0])) (upVf) = true ∧
    masterGround opFaultRead (vfPk (pk [0])) (upVf) = some (.notPermitted, []) := by
  refine ⟨?_, ?_⟩ <;> decide +kernel

theorem witness_RefusedPacketsHaveNoEffect_3_world :
    clearUpTo 5 opFaultClear ({ pk [0] with world := 5 }) (up) = true ∧
    worldOk opFaultClear ({ pk [0] with world := 5 }) (up) = false := by
  refine ⟨?_, ?_⟩ <;> decide +kernel

theorem witness_RefusedPacketsHaveNoEffect_3_frozen :
    clearUpTo 6 opFaultClear (pk [0]) ({ up with flt := { frozen := true } }) = true ∧
    (({ up with flt := { frozen := true } }) : State).flt.frozen = true ∧ opFaultClear.code ∉ safeOps := by
  refine ⟨?_, ?_⟩ <;> decide +kernel

theorem witness_RefusedPacketsHaveNoEffect_3_target :
    clearUpTo 7 opTimeRead ({ pk [] with unit := 7 }) (up) = true ∧
    targetOk opTimeRead ({ pk [] with unit := 7 }) = false := by
  refine ⟨?_, ?_⟩ <;> decide +kernel

theorem witness_RefusedPacketsHaveNoEffect_3_epoch :
    clearUpTo 8 opTimeRead ({ pk [] with flags := 1, epochExp := 5 }) (up) = true ∧
    epochGround ({ pk [] with flags := 1, epochExp := 5 }) (up) = some (.staleEpoch, [0]) := by
  refine ⟨?_, ?_⟩ <;> decide +kernel

theorem witness_RefusedPacketsHaveNoEffect_3_reserved :
    clearUpTo 9 opFaultRead (pk [0x100]) (up) = true ∧
    paramGround opFaultRead (pk [0x100]) = some 8 := by
  refine ⟨?_, ?_⟩ <;> decide +kernel

theorem witness_RefusedPacketsHaveNoEffect_3_data :
    clearUpTo 10 opTimeRead ({ pkd [] [] with env := { dataOk := false } }) (up) = true ∧
    (flagData ({ pkd [] [] with env := { dataOk := false } }) = true ∧ ({ pkd [] [] with env := { dataOk := false } }).env.dataOk = false) := by
  refine ⟨?_, ?_⟩ <;> decide +kernel

/-- The booted module with a unit out of service. -/
def upFailed : State := { up with flt := { failed := [(0x01, 0, 0)] } }

theorem witness_RefusedPacketsHaveNoEffect_3_failed :
    clearUpTo 10 opPortState (pkr [0]) upFailed = true ∧ (flagData (pkr [0]) = false ∨ (pkr [0]).env.dataOk = true) ∧
    toFailed opPortState (pkr [0]) upFailed = true := by
  refine ⟨?_, ?_, ?_⟩ <;> decide +kernel

theorem witness_RepliesEnterTheReplyQueue_1 :
    (pk []).src = .pair 0 ∧ Status.ok = .ok ∧ flagNoReply { pk [] with flags := 2 } = true := by
  decide +kernel

theorem witness_RepliesEnterTheReplyQueue_2 :
    (pk []).src = .pair 0 ∧ flagNoReply (pk []) = false ∧ (pairAt up 0).held = [] ∧ (pairAt up 0).rqTail + 1 ≠ (pairAt up 0).rqHead ∧ (pk []).env.replyOk = true := by
  decide +kernel

theorem witness_RepliesEnterTheReplyQueue_3 :
    (pairAt up 0).held = [] ∧ (pairAt up 0).rqTail + 1 ≠ (pairAt up 0).rqHead ∧
    ({ pk [] with env := { replyOk := false } } : Packet).env.replyOk = false := by
  decide +kernel

/-- The booted module with a full reply queue. -/
def upFullQueue : State :=
  { up with host := { pairs := [(0, { enable := true, served := true, world := 0x100, rqHead := 1 })] } }

theorem witness_RepliesEnterTheReplyQueue_4 :
    (pk []).src = .pair 0 ∧ flagNoReply (pk []) = false ∧ (pairAt upFullQueue 0).rqTail + 1 = (pairAt upFullQueue 0).rqHead := by
  decide +kernel

theorem witness_MemoryStaysCanonical : ∃ s t : State, Memory.wf s.mem.cells = true ∧ step s = .next t ∧ s.mem.cells ≠ [] :=
  ⟨{ up with mem := { cells := [(5, 1), (6, 1)] } }, { up with mem := { cells := [(5, 1), (6, 1)] } },
    by decide +kernel, rfl, by decide +kernel⟩

theorem witness_HalterExitOutsideIsRefused : accepts opHalterExit (pk []) up = true ∧ up.halter.stage = .outside := by
  decide +kernel

theorem witness_RefusedPacketsHaveNoEffect_2 : (pk []).src = .pair 0 := rfl

/-- A result that is done. -/
theorem of_done {r : HRes} (h : (match r with | .done _ _ => true | _ => false) = true) : ∃ t ws, r = .done t ws := by
  cases r <;> first | exact ⟨_, _, rfl⟩ | cases h

theorem witness_PortModesChangeFromOrToZero_2 : ∃ (c : Ctx) (f t : State) (ws : List Word), opPortConfig.run c f = .done t ws :=
  ⟨ctxOf opPortConfig (pk [0x100, 0, 0x03E80304, 0, 0, 0, 0, 0]) up, up, of_done (by decide +kernel)⟩

theorem witness_LanesTrainIdleAndAnswer_6 : ∃ k l : Nat, k ≠ l := ⟨79, 0, by decide⟩

theorem witness_InbandPacketsReadAsSent_1 : ∃ op : Nat, op < 65536 := ⟨65535, by decide⟩

theorem of_doneWith {r : HRes} {P : List Word → Bool} (h : (match r with | .done _ ws => P ws | _ => false) = true) :
    ∃ t ws, r = .done t ws ∧ P ws = true := by
  cases r <;> first | exact ⟨_, _, rfl, h⟩ | cases h

theorem of_wait {r : HRes} (h : (match r with | .wait _ _ => true | _ => false) = true) : ∃ t data, r = .wait t data := by
  cases r <;> first | exact ⟨_, _, rfl⟩ | cases h

theorem of_notWait {r : HRes} (h : (match r with | .wait _ _ => false | _ => true) = true) : ∀ t data, r ≠ .wait t data := by
  intro t data e; subst e; cases h

theorem witness_AcceptedPacketsComplete :
    -- 2_1
    (∃ e ∈ packetRows, ∃ (p : Packet) (s : State), accepts e.2 p s = true ∧
      ∃ t ws, e.2.run (ctxOf e.2 p (fetched e.2 p s)) (fetched e.2 p s) = .done t ws ∧ decide (ws.length ≤ 13) = true) ∧
    -- 2_2
    (∃ e ∈ packetRows, ∃ (p : Packet) (s : State), accepts e.2 p s = true ∧
      ∃ t ws, e.2.run (ctxOf e.2 p (fetched e.2 p s)) (fetched e.2 p s) = .done t ws ∧
        decide (13 < ws.length ∧ holdsResult p (4 * ws.length) = true) = true) ∧
    -- 2_3
    (∃ e ∈ packetRows, ∃ (p : Packet) (s : State), accepts e.2 p s = true ∧
      ∃ t data, e.2.run (ctxOf e.2 p (fetched e.2 p s)) (fetched e.2 p s) = .wait t data) ∧
    -- 2_4
    (∃ e ∈ packetRows, ∃ (p : Packet) (s : State), accepts e.2 p s = true ∧ e.2.stage ≠ .stageable ∧
      ∀ t data, e.2.run (ctxOf e.2 p (fetched e.2 p s)) (fetched e.2 p s) ≠ .wait t data) :=
  ⟨⟨(.identify, opIdentify), by simp [packetRows, packetRowsA], pk [], up, by decide +kernel, of_doneWith (by decide +kernel)⟩,
  ⟨(.portState, opPortState), by simp [packetRows, packetRowsA, packetRowsB], pkr [63] 63, up, by decide +kernel, of_doneWith (by decide +kernel)⟩,
  ⟨(.hideKeyChange, opHideKeyChange), by simp [packetRows, packetRowsC], pk [], up, by decide +kernel, of_wait (by decide +kernel)⟩,
  ⟨(.nop, opNop), by simp [packetRows, packetRowsA], pk [], up, by decide +kernel, by decide, of_notWait (by decide +kernel)⟩⟩

end Sys2Proof.Tests
end

section
/-! PROOFS. The mode of a port and PORT_CONFIG (R88 to R95): what an accepted refusal answers, when the mode asked for is a ground of
refusal, and what mode a success leaves. -/

namespace Sys2Proof.Machine

/-! ## The setting of a port -/

/-- The setting that PORT_CONFIG reads is the one in the port's record; a port without a record has the default one. -/
theorem portCfgAt_eq_cfg (s : State) (p : Nat) : portCfgAt s p = (portAt s p).cfg := by
  unfold portCfgAt portAt mgetD
  cases mget s.pon.ports p <;> rfl

@[simp] theorem portCfgAt_updPort_self (p : Nat) (g : Port → Port) (s : State) :
    portCfgAt (updPort p g s) p = (g (portAt s p)).cfg := by
  rw [portCfgAt_eq_cfg, portAt_updPort_self]

/-- A new burst profile waits in the port's record; the setting stays. -/
@[simp] theorem portCfgAt_changeProfile (p : Nat) (s : State) : portCfgAt (changeProfile p s) p = portCfgAt s p := by
  unfold changeProfile
  dsimp only
  split
  · rfl
  · rw [portCfgAt_updPort_self, portCfgAt_eq_cfg]

/-! ## An accepted packet that its handler refuses -/

/-- An accepted packet whose handler refuses it: the reply says the ground, and the state is the one in which the handler ran. -/
theorem command_refuses {op : OpSpec} {p : Packet} {s : State} {st : Status} {ws : List Word} (h : accepts op p s = true)
    (hr : op.run (ctxOf op p (fetched op p s)) (fetched op p s) = .refuse st ws) :
    command op p s = .next (replyTo p st ws (min 13 ws.length) (fetched op p s)) := by
  obtain ⟨n, -, he⟩ := command_accepts op p s h
  have hpn : performNow op p staged (fetched op p s) = .refuse st ws := by simp [performNow, hr, HRes.success]
  rw [he, hpn]
  rfl

/-! ## The ground of R88, R89 and R92 -/

section ModeGround
variable {s : State} {ws : List Word}

/-- For a port that is not the odd one of a pair and a MODE that it may take, the ground is that of R89 alone. -/
theorem modeGround_of_valid (hodd : ¬ (paired s (pcPort ws) = true ∧ pcPort ws % 2 = 1)) (hmode : pcMode ws ≤ 5)
    (heven : 4 ≤ pcMode ws → pcPort ws % 2 = 0) :
    modeGround s ws =
      if ((portCfgAt s (pcPort ws)).mode ≠ 0 ∧ pcMode ws ≠ 0 ∧ pcMode ws ≠ (portCfgAt s (pcPort ws)).mode) ∨
          (4 ≤ pcMode ws ∧ (portCfgAt s (pcPort ws)).mode = 0 ∧ (portCfgAt s (pcPort ws + 1)).mode ≠ 0)
      then some (.notPermitted, []) else none := by
  have hval : ¬ (6 ≤ pcMode ws ∨ (4 ≤ pcMode ws ∧ pcPort ws % 2 = 1)) := by omega
  unfold modeGround
  simp only [Bool.and_eq_true, Bool.or_eq_true, decide_eq_true_eq, hodd, hval, if_false, and_assoc, ite_or,
    ne_comm (a := pcMode ws) (b := (portCfgAt s (pcPort ws)).mode)]

/-- A MODE without a ground against it is the port's own, or one of the two is 0. -/
theorem mode_eq_of_modeGround_none (hodd : ¬ (paired s (pcPort ws) = true ∧ pcPort ws % 2 = 1)) (h : modeGround s ws = none) :
    (portCfgAt s (pcPort ws)).mode = 0 ∨ pcMode ws = 0 ∨ pcMode ws = (portCfgAt s (pcPort ws)).mode := by
  unfold modeGround at h
  simp only [Bool.and_eq_true, Bool.or_eq_true, decide_eq_true_eq, hodd, if_false] at h
  by_contra hne
  split_ifs at h
  omega

end ModeGround

/-! ## What PORT_CONFIG answers -/

section RunPortConfig
variable {c : Ctx} {s t : State} {ws : List Word}

/-- A ground against the mode is answered, unless the port is in the sequence of R90. -/
theorem runPortConfig_refuses {st : Status} (hinst : c.inst = pcPort c.words) (hstop : (portAt s (pcPort c.words)).stopping = none)
    (hg : modeGround s c.words = some (st, ws)) : runPortConfig c s = .refuse st ws := by
  simp [runPortConfig, refuseIf, hinst, hstop, hg]

/-- A PORT_CONFIG that ends at once with success on a port outside mode 0 leaves there a setting in the same mode, or in mode 0 on the
odd port of a pair, whose own MODE has no meaning (R92). -/
theorem runPortConfig_done_cfg (h : runPortConfig c s = .done t ws) (hold : (portCfgAt s (pcPort c.words)).mode ≠ 0) :
    ∃ x : PortCfg, (x.mode = 0 ∨ x.mode = (portCfgAt s (pcPort c.words)).mode) ∧
      t = changeProfile (pcPort c.words) (updPort (pcPort c.words) (fun y => { y with cfg := x }) s) := by
  unfold runPortConfig refuseIf at h
  dsimp only at h
  -- A wrong INSTANCE, the sequence of R90, a ground against the mode or against a parameter: none of them ends with success.
  split at h
  · cases h
  split at h
  · cases h
  split at h
  · cases h
  next hg =>
  split at h
  · cases h
  by_cases hodd : paired s (pcPort c.words) = true ∧ pcPort c.words % 2 = 1
  · rw [if_pos (by simpa using hodd)] at h
    injection h with ht
    exact ⟨_, .inl rfl, ht.symm⟩
  · rw [if_neg (by simpa using hodd)] at h
    by_cases hm : pcMode c.words = 0
    · rw [if_pos (by simp [hold, hm])] at h
      cases h
    · rw [if_neg (by simp [hm]), if_neg (by simp [hold]), if_pos hm] at h
      injection h with ht
      have hsame : pcMode c.words = (portCfgAt s (pcPort c.words)).mode :=
        ((mode_eq_of_modeGround_none hodd hg).resolve_left hold).resolve_left hm
      exact ⟨_, .inr hsame, ht.symm⟩

/-- The mode that a PORT_CONFIG leaves on its port when it ends at once with success. -/
theorem runPortConfig_done_mode (h : runPortConfig c s = .done t ws) :
    (portCfgAt t (pcPort c.words)).mode = (portCfgAt s (pcPort c.words)).mode ∨ (portCfgAt s (pcPort c.words)).mode = 0 ∨
      (portCfgAt t (pcPort c.words)).mode = 0 := by
  by_cases hold : (portCfgAt s (pcPort c.words)).mode = 0
  · exact .inr (.inl hold)
  obtain ⟨x, hx, rfl⟩ := runPortConfig_done_cfg h hold
  rw [portCfgAt_changeProfile, portCfgAt_updPort_self]
  rcases hx with h0 | hsame
  · exact .inr (.inr h0)
  · exact .inl hsame

end RunPortConfig

/-- Settles O59: the ground of R89 stands in `modeGround`, which the handler answers; a success outside mode 0 leaves a setting in
the same mode, but for the odd port of a pair, whose own mode is 0. -/
theorem portModesChangeFromOrToZero : Obligations.PortModesChangeFromOrToZero := by
  unfold Obligations.PortModesChangeFromOrToZero
  refine ⟨?_, fun c f t ws h => runPortConfig_done_mode h⟩
  intro p s h f w i mode old hinst hstop hodd hmode heven hbad
  have hg : modeGround f (ownWords p) = some (.notPermitted, []) :=
    (modeGround_of_valid hodd hmode heven).trans (if_pos hbad)
  exact command_refuses h (runPortConfig_refuses hinst hstop hg)

end Sys2Proof.Machine
end

section
/-! PROOFS. HALTER_EXIT outside Halter (R456): reading a packet leaves Halter as it was, and the handler refuses exactly at the stage
outside. -/

namespace Sys2Proof.Machine

/-- The handler of an accepted packet meets Halter as it was before the packet was read. -/
theorem fetched_halter_of_accepts {op : OpSpec} {p : Packet} {s : State} (h : accepts op p s = true) :
    (fetched op p s).halter = s.halter := by
  obtain ⟨n, hsrc, -⟩ := command_accepts op p s h
  rw [fetched_eq op p s n hsrc]

/-- The stage of Halter is the only ground on which HALTER_EXIT is refused. -/
theorem opHalterExit_refuses_iff (c : Ctx) (s : State) :
    opHalterExit.run c s = .refuse .notPermitted [] ↔ s.halter.stage = .outside := by
  unfold opHalterExit runHalterExit refuseIf
  by_cases hout : s.halter.stage = .outside
  · simp [hout]
  · simp [hout]

/-- Settles O58: the stage that the handler meets is the one before the packet was read, and at the stage outside it refuses. -/
theorem halterExitOutsideIsRefused : Obligations.HalterExitOutsideIsRefused := by
  unfold Obligations.HalterExitOutsideIsRefused
  intro p s h hout
  have hstage : (fetched opHalterExit p s).halter.stage = .outside := by rw [fetched_halter_of_accepts h, hout]
  exact command_refuses h ((opHalterExit_refuses_iff _ _).mpr hstage)

end Sys2Proof.Machine
end

section
/-! PROOFS. The byte layout of an in-band packet (R5, R58): words and big-endian numbers are read back from their bytes, fields from a
word that packs them, and so a packet from the frame that carries it. -/

namespace Sys2Proof.Machine

/-! ## Numbers as bytes -/

@[simp] theorem length_leBytes (n v : Nat) : (leBytes n v).length = n := by
  induction n generalizing v with
  | zero => rfl
  | succ n ih => simp [leBytes, ih]

@[simp] theorem length_beBytes (n v : Nat) : (beBytes n v).length = n := by simp [beBytes]

theorem leNat_leBytes (n v : Nat) : leNat (leBytes n v) = v % 256 ^ n := by
  induction n generalizing v with
  | zero => simp [leBytes, leNat, Nat.mod_one]
  | succ n ih => rw [leBytes, leNat, ih, BitVec.toNat_ofNat, Nat.pow_succ' (m := 256), Nat.mod_mul (a := 256)]

/-- Big-endian bytes read in reverse are little-endian ones. -/
theorem beNat_reverse (bs : List Byte) : beNat bs.reverse = leNat bs := by
  unfold beNat
  induction bs with
  | nil => rfl
  | cons b r ih => simp only [List.reverse_cons, List.foldl_append, List.foldl_cons, List.foldl_nil, ih, leNat]; omega

theorem beNat_beBytes (n v : Nat) : beNat (beBytes n v) = v % 256 ^ n := by rw [beBytes, beNat_reverse, leNat_leBytes]

/-! ## Words as bytes -/

@[simp] theorem bytesOfWords_cons (w : Word) (ws : List Word) : bytesOfWords (w :: ws) = leBytes 4 w.toNat ++ bytesOfWords ws := rfl

@[simp] theorem length_bytesOfWords (ws : List Word) : (bytesOfWords ws).length = 4 * ws.length := by
  induction ws with
  | nil => rfl
  | cons w r ih => simp [ih]; omega

theorem bytesOfWords_append (a b : List Word) : bytesOfWords (a ++ b) = bytesOfWords a ++ bytesOfWords b := by
  simp [bytesOfWords]

/-- The word that four little-endian bytes of a word spell is that word. -/
theorem wd_leNat_leBytes (w : Word) : wd (leNat (leBytes 4 w.toNat)) = w := by
  rw [leNat_leBytes, Nat.mod_eq_of_lt (by simpa using w.isLt), wd, BitVec.ofNat_toNat, BitVec.setWidth_eq]

/-- Words are read back from the front of their bytes. -/
theorem wordsOfBytes_bytesOfWords_append (ws : List Word) (rest : List Byte) :
    wordsOfBytes ws.length (bytesOfWords ws ++ rest) = ws := by
  induction ws with
  | nil => rfl
  | cons w r ih =>
    rw [List.length_cons, wordsOfBytes, bytesOfWords_cons, List.append_assoc, List.take_left' (length_leBytes 4 _),
      List.drop_left' (length_leBytes 4 _), ih, wd_leNat_leBytes]

/-! ## Fields of a packed word -/

theorem toNat_wd (n : Nat) : (wd n).toNat = n % 2 ^ 32 := rfl

section Halves
variable {a b : Nat}

theorem fld_pack_high (ha : a < 2 ^ 16) : fld (pack [(a, 16, 16), (b, 16, 0)]) 31 16 = a := by
  simp only [fld, pack, toNat_wd, List.foldl_cons, List.foldl_nil]
  omega

theorem fld_pack_low (hb : b < 2 ^ 16) : fld (pack [(a, 16, 16), (b, 16, 0)]) 15 0 = b := by
  simp only [fld, pack, toNat_wd, List.foldl_cons, List.foldl_nil]
  omega

end Halves

/-- The target path stands in one word (Table 2.3). -/
theorem fld_pack_path {i u x : Nat} (hi : i < 2 ^ 16) (hu : u < 2 ^ 8) (hx : x < 2 ^ 8) :
    fld (pack [(i, 16, 16), (u, 8, 8), (x, 8, 0)]) 31 16 = i ∧ fld (pack [(i, 16, 16), (u, 8, 8), (x, 8, 0)]) 15 8 = u ∧
      fld (pack [(i, 16, 16), (u, 8, 8), (x, 8, 0)]) 7 0 = x := by
  simp only [fld, pack, toNat_wd, List.foldl_cons, List.foldl_nil]
  omega

/-- A number of 64 bits is joined again from its two words. -/
theorem join64_halves (x : BitVec 64) : BitVec.ofNat 64 (join64 (lo32 x.toNat) (hi32 x.toNat)) = x := by
  have h : join64 (lo32 x.toNat) (hi32 x.toNat) = x.toNat := by
    have := x.isLt
    simp only [join64, lo32, hi32, toNat_wd]
    omega
  rw [h, BitVec.ofNat_toNat, BitVec.setWidth_eq]

/-! ## The packet -/

section Layout
variable (op : Nat) (p : Packet)

/-- The bytes of an in-band packet with its trailer. -/
def packetBytes : List Byte := bytesOfWords (headerWords op p ++ p.params) ++ beBytes 16 p.trailer.toNat

theorem length_headerWords : (headerWords op p).length = 8 := rfl

theorem length_packetBytes : (packetBytes op p).length = 48 + 4 * p.params.length := by
  simp [packetBytes, length_headerWords]; omega

/-- Without its trailer a packet is its header and its parameters. -/
theorem take_packetBytes : (packetBytes op p).take ((packetBytes op p).length - 16) =
    bytesOfWords (headerWords op p) ++ bytesOfWords p.params := by
  rw [length_packetBytes, packetBytes, bytesOfWords_append]
  exact List.take_left' (by simp [length_headerWords]; omega)

theorem drop_packetBytes : (packetBytes op p).drop ((packetBytes op p).length - 16) = beBytes 16 p.trailer.toNat := by
  rw [length_packetBytes, packetBytes]
  exact List.drop_left' (by simp [length_headerWords]; omega)

end Layout

/-- Settles O57: the words are read back from the bytes, and each field from its word. -/
theorem inbandPacketsReadAsSent : Obligations.InbandPacketsReadAsSent := by
  unfold Obligations.InbandPacketsReadAsSent
  intro op p env hop
  change parsePacket (packetBytes op p) env = _
  have hlen : ¬ (packetBytes op p).length < 48 := by rw [length_packetBytes]; omega
  have hhead : wordsOfBytes 8 (bytesOfWords (headerWords op p) ++ bytesOfWords p.params) = headerWords op p :=
    wordsOfBytes_bytesOfWords_append (headerWords op p) _
  have hparams : wordsOfBytes (((packetBytes op p).length - 48) / 4)
      ((bytesOfWords (headerWords op p) ++ bytesOfWords p.params).drop 32) = p.params := by
    rw [List.drop_left' (by simp [length_headerWords]), length_packetBytes,
      show (48 + 4 * p.params.length - 48) / 4 = p.params.length by omega]
    simpa using wordsOfBytes_bytesOfWords_append p.params []
  have htrailer : BitVec.ofNat 128 (beNat (beBytes 16 p.trailer.toNat)) = p.trailer := by
    rw [beNat_beBytes, Nat.mod_eq_of_lt (by simpa using p.trailer.isLt), BitVec.ofNat_toNat, BitVec.setWidth_eq]
  obtain ⟨hinst, hunit, hcplx⟩ := fld_pack_path p.inst.isLt p.unit.isLt p.cplx.isLt
  unfold parsePacket
  rw [if_neg hlen, take_packetBytes, drop_packetBytes]
  simp only [hhead, hparams, htrailer]
  simp only [headerWords, nthW, List.getD_cons_zero, List.getD_cons_succ, fld_pack_low hop,
    fld_pack_high (BitVec.isLt _), fld_pack_low (BitVec.isLt _), hinst, hunit, hcplx, join64_halves, BitVec.ofNat_toNat, BitVec.setWidth_eq]

end Sys2Proof.Machine
end

section
/-! PROOFS. What every command of the block does, whatever it is: it runs or names an object that is not there (R546), it is refused in
the order of R549, completes, or is staged (R72). -/

namespace Sys2Proof.Machine

/-! ## Every command runs -/

/-- The command runs, or names an object that the part does not have. -/
def Runs (r : Res) : Prop := (∃ t, r = .next t) ∨ r = .fault .noSuchObject

theorem runs_next (t : State) : Runs (.next t) := .inl ⟨t, rfl⟩

theorem runs_fault : Runs (.fault .noSuchObject) := .inr rfl

theorem runs_onObject (ok : Bool) (t : State) : Runs (onObject ok t) := by
  cases ok
  · exact runs_fault
  · exact runs_next t

theorem runs_command (op : OpSpec) (p : Packet) (s : State) : Runs (command op p s) := by
  unfold command
  split <;> exact runs_onObject _ _

theorem exec_runs (c : Instr) (s : State) : Runs (exec c s) := by
  cases c with
  | nop | identify | statusRead | epochStage | epochPrepare | epochActivate | epochAbort | queueBind | imageWrite
  | imageStatus | settingsStatus | moduleReset | inbandConfig | notifyMask | hostqConfig | portConfig | portState
  | terminalAdd | terminalRemove | ploamSend | bpmRead | opticsAccess | omciBind | discoveryConfig | rangingRead
  | terminalRerange | allocWrite | allocRead | allocDelete | scheduleHint | cinchBudget | weaverStats | upstreamGateLoad
  | parseGraphLoad | ruleTreeLoad | ruleUpdate | ruleVersionCommit | ruleVersionStatus | exceptionConfig | macStaticAdd
  | macDelete | macLookup | macFlush | ageingConfig | lpmAdd | lpmDelete | lpmLoad | stitchConfig | queueConfig
  | schedNodeConfig | shaperConfig | gateListLoad | queueStats | sampleRingConfig | sampleRingRead | scConfig | saConfig
  | saActivate | ponKeySwitch | keyGenerate | keyWrap | shedarUpdate | slotErase | slotInfo | attestOperator | attestTenant
  | encReserve | updateEpochAdvance | alarmStatus | poolConfig | poolStats | hideKeyChange | hideStatus | regionReinit
  | rightsWrite | uplinkConfig | laneConfig | laneStatus | plaitConfig | protectionCommand | laneEyeScan | timeRead
  | timeSet | ptpConfig | asymmetrySet | synceConfig | tsQueueRead | halterEnter | halterExit | domainControl | feedConfig
  | powerStatus | faultRead | faultClear | recorderRead | recorderErase | counterConfig | counterRead | patinaScan
  | patinaStatus | vfCounterGrant => exact runs_command _ _ _
  | cqTail | rqHead | qpEnable | pending | hiqTail | hrqHead | registerWrite | portDisableComplete | ruleVersionRetired
  | rverDrainLate | gateListStart | inbandPacket | feedValidated | feedInvalid | feedOvercurrent | feedOvercurrentRelease
  | oringFail | tempHigh | thermalShutdown | refLos | refRestore | serialNumberOnu | snWindowOpen | awlCycleBoundary
  | awlPauseEnd | ponTxPllUnlock | opticsRemoved | opticsInserted | opticsTxdisRelease | opticsPoll | opticsBusRecovery
  | mapCutoff | reportAbsorb | resolvePasses | cinchStale | capsLate | cappedRerun | placement | mapHandoff | frameIngress
  | learnRequest | ageingScan | compareAndDelete | reinDecision | hostqRecordWrite | hostqModerationExpiry | macsecTransmit
  | alarm | debugAccess | osierCacheRefill | osierCacheSpill | cellFree | hideLineAccess | counterCacheEvict | counterPatrol
  | plaitFrameReceive | plaitFrameTransmit | excWindow | pauseStuck | protectionHoldOff | widthChange | uplinkFaultChange
  | uplinkPortUp | uplinkFrameReceive | laneTrainingComplete | laneTrainingTimeout | laneIdleRequest | laneExitRequest
  | laneIdleStale | fastExitTimeout | laneEnableChange | laneLos | laneLol | laneFlapHoldEnd | txFault | peakingReevaluate
  | peakingStep | eyeScanComplete | ptpFrameReceive | ptpFrameTransmit | servoMeasurement | synceSourceChange | esmcLapse
  | prxPowerCycle | faultReport | unitRecovery | railOffsetStep | settingsRecordWrite | functionLevelReset | unitTimeout
  | rawDetectorStateChange => exact runs_onObject _ _
  | epochPrepareTimeout | epochActivationTick | epochDrained | epochDrainLate | firmwareRestartComplete
  | feedVoltageCrossing | returnMsExpiry | feedFlapClear | softStartComplete | rideExpiry | cardSeated | cardUnseated
  | perstLAssert | romBoot | firmwareStartTimeout | configurationApplied | timeTick | moduleFrameBoundary | samplingInstant
  | ponKeyWrite | cinchFill | injectionFetch | retiringCopyRelease | zeroisationRelease | debugToken | hideInit | wtrExpiry
  | switchTransitionEnd | servoMeasurementLapse | ppsInEdge | todInMessage | ppsInMissing | ppsOutEdge | halterStageEnd
  | halterS3Timeout | halterWake | domainRestore | stickyPoll | faultHandling | safeStateEntry | handlerFail | recordWrite
  | operatingSecond | operatingSecondsPersist | patinaPeriodicPlan | patinaPlanWrite | perstLDeassert | hideSweepComplete
  | patinaScanComplete | abkouxServiceMessage => exact runs_next _
  | reassemblyTimeout => exact runs_onObject _ _
  | awlDetection =>
    simp only [exec, execAwlDetection]
    split
    · exact runs_fault
    · exact runs_onObject _ _
  | deactTimeout | reassemblyTimeoutPon | rangingBurst | acknowledge | rangingTimeTimeout | extAccept | forecastAck
  | keyReport | keyRequest | keyRequestTimeout | ploamuMessage | upstreamOmciFrame  =>
    simp only [exec, execDeactTimeout, execReassemblyTimeoutPon, execRangingBurst, execAcknowledge, execRangingTimeTimeout,
      execExtAccept, execForecastAck, execKeyReport, execKeyRequest, execKeyRequestTimeout, execPloamuMessage,
      execUpstreamOmciFrame]
    split
    · exact runs_fault
    · exact runs_next _
  | macsecVerdict | distributorSpray | stitchArrival | stitchTimeout | enqueue | keeperFrame =>
    simp only [exec, execMacsecVerdict, execDistributorSpray, execStitchArrival, execStitchTimeout, execEnqueue,
      execKeeperFrame]
    split
    · exact runs_next _
    · exact runs_fault
  | parseWalk | classify | forwardLookup =>
    simp only [exec, execParseWalk, execClassify, execForwardLookup]
    split
    · split
      · exact runs_next _
      · split
        · exact runs_next _
        · split <;> exact runs_next _
    · exact runs_fault
  | terminalDelayChange =>
    simp only [exec, execTerminalDelayChange]
    split
    · exact runs_fault
    · split <;> exact runs_next _
  | vendorDiagnostics =>
    simp only [exec, execVendorDiagnostics]
    split
    · exact runs_command _ _ _
    · exact runs_fault
  | burstReceived =>
    simp only [exec, execBurstReceived]
    split
    · exact runs_fault
    · split
      · exact runs_next _
      · split
        · exact runs_fault
        · exact runs_next _
  | macsecReceive =>
    simp only [exec, execMacsecReceive]
    split
    · split <;> exact runs_next _
    · exact runs_fault

theorem command_runs_below (op : OpSpec) {p : Packet} {n : Nat} (s : State) (hs : p.src = .pair n) (hn : n < 64) :
    ∃ t, command op p s = .next t := by
  simp [command, hs, onObject, hn]

/-- Settles O51: each command is one of the few shapes that run or name an object. -/
theorem everyCommandRunsOrNamesNoObject : Obligations.EveryCommandRunsOrNamesNoObject := by
  unfold Obligations.EveryCommandRunsOrNamesNoObject
  refine ⟨exec_runs, fun row op hrow p n s hs hn => ?_⟩
  rw [hrow]
  exact command_runs_below op s hs hn

/-! ## A step (log entry 1) -/

/-- A queue whose pair holds nothing fetches nothing. -/
theorem pump_of_written_nil (fuel q : Nat) {s : State} (h : (pairAt s q).written = []) : pump fuel q s = s := by
  cases fuel with
  | zero => rfl
  | succ n => simp [pump, h]

/-- What every round of a loop leaves, the loop leaves. -/
theorem forEach_eq_self {α β : Type} (l : List α) (f : α → β → β) (b : β) (h : ∀ a ∈ l, f a b = b) : forEach l f b = b := by
  unfold forEach
  induction l with
  | nil => rfl
  | cons a r ih => rw [List.foldl_cons, h a List.mem_cons_self, ih fun x hx => h x (List.mem_cons_of_mem a hx)]

/-- What holds of every entry and of the default holds of what a look-up gives. -/
theorem mgetD_of_forall {κ α : Type} [DecidableEq κ] (m : Map κ α) (k : κ) (d : α) (t : α → Prop) (hm : ∀ e ∈ m, t e.2) (hd : t d) :
    t (mgetD m k d) := by
  induction m with
  | nil => exact hd
  | cons e r ih =>
    obtain ⟨j, a⟩ := e
    by_cases hj : j = k
    · simpa [mgetD, mget, hj] using hm (j, a) List.mem_cons_self
    · simpa [mgetD, mget, hj] using ih fun e he => hm e (List.mem_cons_of_mem _ he)

theorem pumpAll_of_nothing_written {s : State} (ho : s.host.heldOrder = []) (hw : ∀ e ∈ s.host.pairs, e.2.written = []) :
    pumpAll s = s := by
  have hheld : pumpHeld s = s := by
    rw [pumpHeld, ho]
    simp only [forEach, List.foldl_nil]
    rw [← ho]
  unfold pumpAll
  simp only [hheld]
  refine forEach_eq_self _ _ _ fun e _ => pump_of_written_nil _ _ ?_
  exact mgetD_of_forall s.host.pairs e.1 {} (fun x => x.written = []) hw rfl

/-- Settles O50. -/
theorem stepRunsTheFrontCommand : Obligations.StepRunsTheFrontCommand := by
  unfold Obligations.StepRunsTheFrontCommand
  refine ⟨fun c rest s h => ?_, fun s h => ?_, fun s h ho hw => ?_, fun n w s => ⟨rfl, rfl⟩⟩
  · simp only [step, h]
  · simp only [step, h]
  · simp only [step, h, pumpAll_of_nothing_written ho hw]

/-! ## Completion (R40, R47, R57) -/

/-- Every row of the table that carries a packet runs it as its opcode's command. -/
theorem exec_packetRow : ∀ e ∈ packetRows, ∀ p s, exec (e.1 p) s = command e.2 p s := by
  have hA : ∀ e ∈ packetRowsA, ∀ p s, exec (e.1 p) s = command e.2 p s := by
    simp only [packetRowsA, List.forall_mem_cons, List.not_mem_nil, false_implies, implies_true, and_true]
    and_intros <;> exact fun _ _ => rfl
  have hB : ∀ e ∈ packetRowsB, ∀ p s, exec (e.1 p) s = command e.2 p s := by
    simp only [packetRowsB, List.forall_mem_cons, List.not_mem_nil, false_implies, implies_true, and_true]
    and_intros <;> exact fun _ _ => rfl
  have hC : ∀ e ∈ packetRowsC, ∀ p s, exec (e.1 p) s = command e.2 p s := by
    simp only [packetRowsC, List.forall_mem_cons, List.not_mem_nil, false_implies, implies_true, and_true]
    and_intros <;> exact fun _ _ => rfl
  have hD : ∀ e ∈ packetRowsD, ∀ p s, exec (e.1 p) s = command e.2 p s := by
    simp only [packetRowsD, List.forall_mem_cons, List.not_mem_nil, false_implies, implies_true, and_true]
    and_intros <;> exact fun _ _ => rfl
  intro e he
  simp only [packetRows, List.mem_append] at he
  rcases he with ((he | he) | he) | he
  · exact hA e he
  · exact hB e he
  · exact hC e he
  · exact hD e he

/-- Settles O60: each outcome of the handler has its law in `Laws/Serve`. -/
theorem acceptedPacketsComplete : Obligations.AcceptedPacketsComplete := by
  unfold Obligations.AcceptedPacketsComplete
  refine ⟨exec_packetRow, fun e he p s h => ?_⟩
  dsimp only
  rw [exec_packetRow e he]
  refine ⟨fun t ws hr hl => command_done h hr hl, fun t ws hr hl hb => command_long h hr hl hb,
    fun t data hr => command_waits h hr, fun hst hw => ?_⟩
  rw [command_runs h hst]
  cases hr : e.2.run (ctxOf e.2 p (fetched e.2 p s)) (fetched e.2 p s) with
  | wait t data => exact absurd hr (hw t data)
  | _ => rfl

/-! ## Refusal (R549) -/

section Refusal
variable {op : OpSpec} {p : Packet} {s : State} {st : Status} {ws : List Word}

/-- A packet that is read is executed at once. -/
theorem serve_of_readable (hr : readable op p s = true) : ∃ n, p.src = .pair n ∧ n < 64 ∧ serve op staged p s = execute op staged p (rung p s) := by
  unfold readable at hr
  cases hs : p.src with
  | inband side => simp [hs] at hr
  | pair n =>
    simp only [hs, Bool.and_eq_true, decide_eq_true_eq, Bool.not_eq_true'] at hr
    obtain ⟨⟨⟨⟨hn, hc⟩, hw⟩, hb⟩, hf⟩ := hr
    have hq : queueOf p = n := by simp [queueOf, hs]
    have hserve : serve op staged p s =
        if canFetch (queueOf p) (rung p s) && (pairAt (rung p s) (queueOf p)).written.isEmpty then
          if !p.env.fetchOk then fetchFault (queueOf p) (appendWritten op.code p (rung p s))
          else if heldBack op (rung p s) then holdBack (queueOf p) (appendWritten op.code p (rung p s))
          else execute op staged p (rung p s)
        else appendWritten op.code p (rung p s) := rfl
    exact ⟨n, rfl, hn, by simp [hserve, hq, hc, hw, hb, hf]⟩

/-- A packet that is read and that a ground refuses is taken out of its queue and answered with the ground. -/
theorem command_judged (hr : readable op p s = true) (hj : judge op p s = some (st, ws)) :
    command op p s = .next (replyTo p st ws (min 13 ws.length) (fetched op p s)) := by
  obtain ⟨n, hs, hn, hserve⟩ := serve_of_readable hr
  simp only [command, hs, onObject, hn, decide_true, if_true, hserve, execute, judge_rung, hj]
  rfl

/-- Taking a packet out of its queue leaves every other pair as it is. -/
theorem pairAt_fetched_other {n k : Nat} (hs : p.src = .pair n) (hk : k ≠ n) : pairAt (fetched op p s) k = pairAt s k := by
  unfold fetched takePacket rung
  simp only [hs]
  rw [pairAt_updPair_other _ _ _ _ hk.symm]
  have hce : ∀ (i ev w m : Nat) (u : State), pairAt (countEvent i ev w m u) k = pairAt u k := fun _ _ _ _ _ => rfl
  rw [hce]
  split
  · rw [hce, pairAt_updPair_other _ _ _ _ hk.symm]
  · rw [pairAt_updPair_other _ _ _ _ hk.symm]

theorem pairAt_fetched_seqExp {n : Nat} (hs : p.src = .pair n) : (pairAt (fetched op p s) n).seqExp = some (p.seq + 1) := by
  unfold fetched takePacket
  simp [hs]

/-! Each ground of R549 is met where those before it are not. -/

theorem judge_length (h : p.length.toNat < 8 ∨ 4096 < p.length.toNat) : judge op p s = some (.badLength, []) := by
  simp [judge, h]

section Order
variable (h1 : 8 ≤ p.length.toNat) (h2 : p.length.toNat ≤ 4096)
include h1 h2

theorem judge_seq {g : Status × List Word} (h : seqGround p s = some g) : judge op p s = some g := by
  simp [judge, Nat.not_lt.mpr h1, Nat.not_lt.mpr h2, h]

variable (hseq : seqGround p s = none)
include hseq

theorem judge_header {i : Nat} (h : headerGround p = some i) : judge op p s = some (.badReserved, [wd i]) := by
  simp [judge, Nat.not_lt.mpr h1, Nat.not_lt.mpr h2, hseq, h]

variable (hhead : headerGround p = none)
include hhead

theorem judge_paramLength (h : (paramWords p).length < descWords p ∨ op.len (ownWords p) = false) :
    judge op p s = some (.badLength, []) := by
  simp [judge, Nat.not_lt.mpr h1, Nat.not_lt.mpr h2, hseq, hhead, h]

variable (hdesc : descWords p ≤ (paramWords p).length) (hlen : op.len (ownWords p) = true)
include hdesc hlen

theorem judge_master {g : Status × List Word} (h : masterGround op p s = some g) : judge op p s = some g := by
  simp [judge, Nat.not_lt.mpr h1, Nat.not_lt.mpr h2, hseq, hhead, Nat.not_lt.mpr hdesc, hlen, h]

/-- Past the master's ground those of the world, the safe state, the target, the epoch, the parameters, the data and the unit remain. -/
theorem judge_of_masterGround_none (hm : masterGround op p s = none) : judge op p s =
    if worldOk op p s = false then some (.badWorld, [])
    else if (s.boot.state = .safe ∨ s.flt.frozen = true ∨ s.boot.restarting = true) ∧ op.code ∉ safeOps then some (.busySafe, [])
    else if targetOk op p = false then some (.badTarget, [])
    else match epochGround p s with
    | some g => some g
    | none => match paramGround op p with
      | some i => some (.badReserved, [wd i])
      | none => if flagData p = true ∧ p.env.dataOk = false then some (.dmaError, [wd 0])
        else if toFailed op p s then some (.unitFailed, []) else none := by
  simp [judge, Nat.not_lt.mpr h1, Nat.not_lt.mpr h2, hseq, hhead, Nat.not_lt.mpr hdesc, hlen, hm, or_assoc] <;> rfl

end Order

end Refusal

/-- Settles O52: a ground that is met is answered, and the grounds stand in `judge` in the order of R549. -/
theorem refusedPacketsHaveNoEffect : Obligations.RefusedPacketsHaveNoEffect := by
  unfold Obligations.RefusedPacketsHaveNoEffect
  refine ⟨fun row op hrow p st ws s hr hj => ?_, fun op p n s hs => ⟨fetched_eq op p s n hs, fun k hk => pairAt_fetched_other hs hk,
    pairAt_fetched_seqExp hs⟩, fun op p s => ⟨judge_length, fun h1 h2 => ⟨fun g => judge_seq h1 h2, fun hseq =>
      ⟨fun i => judge_header h1 h2 hseq, fun hhead => ⟨judge_paramLength h1 h2 hseq hhead, fun hdesc hlen =>
        ⟨fun g => judge_master h1 h2 hseq hhead hdesc hlen, fun hm => ?_⟩⟩⟩⟩⟩⟩
  · rw [hrow]
    exact command_judged hr hj
  · dsimp only
    rw [judge_of_masterGround_none h1 h2 hseq hhead hdesc hlen hm]
    refine ⟨fun hw => if_pos hw, fun hw hf => ?_, fun hw hf ht => ?_, fun hw hf ht => ?_⟩
    · rw [if_neg (by simp [hw]), if_pos hf]
    · rw [if_neg (by simp [hw]), if_neg hf, if_pos ht]
    rw [if_neg (by simp [hw]), if_neg hf, if_neg (by simp [ht])]
    refine ⟨fun g he => by simp [he], fun he => ⟨fun i hp => by simp [he, hp], fun hp hd hok => by simp [he, hp, hd, hok],
      fun hp hd hfail => ?_⟩⟩
    have hdata : ¬ (flagData p = true ∧ p.env.dataOk = false) := by
      rcases hd with hd | hd <;> simp [hd]
    simp only [he, hp, if_neg hdata, if_pos hfail]

/-- Settles O53. -/
theorem stagedCommandsWaitForTheEpoch : Obligations.StagedCommandsWaitForTheEpoch := by
  unfold Obligations.StagedCommandsWaitForTheEpoch
  intro row op hrow p s h hrun hroom
  rw [hrow]
  exact command_staged op p s h hrun hroom

/-! ## Replies (R42, R47, R547, R548) -/

section Replies
variable {q : Nat} {r : Reply} {s : State}

/-- A reply that finds room and none before it is written; any other waits. -/
theorem postReply_room (hheld : (pairAt s q).held = []) (hroom : (pairAt s q).rqTail + 1 ≠ (pairAt s q).rqHead) :
    postReply q r s = writeReply q r s := by
  have hf : rqFull (pairAt s q) = false := beq_eq_false_iff_ne.mpr hroom
  simp [postReply, hf, hheld]

theorem postReply_waits (hnote : r.note = false) (h : (pairAt s q).held ≠ [] ∨ (pairAt s q).rqTail + 1 = (pairAt s q).rqHead) :
    postReply q r s = updPair q (fun p => { p with held := p.held ++ [r] }) s := by
  have hc : ((pairAt s q).held.isEmpty && !rqFull (pairAt s q)) = false := by
    rcases h with h | h
    · simp [h]
    · simp [show rqFull (pairAt s q) = true from beq_iff_eq.mpr h]
  simp [postReply, hc, hnote]

theorem replyTo_pair {p : Packet} {n : Nat} {st : Status} {ws : List Word} {count : Nat} (hs : p.src = .pair n)
    (h : st ≠ .ok ∨ flagNoReply p = false) :
    replyTo p st ws count s = postReply n { tag := p.tag, status := statusCode st, epoch := s.epoch.current, count := count, words := ws,
                                            seq := p.seq, dmaOk := p.env.replyOk } s := by
  have hc : ¬ (st = .ok && flagNoReply p) = true := by
    rcases h with h | h <;> simp [h]
  simp only [replyTo, if_neg hc, hs]

end Replies

/-- Settles O54. -/
theorem repliesEnterTheReplyQueue : Obligations.RepliesEnterTheReplyQueue := by
  unfold Obligations.RepliesEnterTheReplyQueue
  intro p n st ws count s hs
  dsimp only
  refine ⟨fun hok hno => by simp [replyTo, hok, hno], fun h => ⟨fun hheld hroom hw => ?_, fun hheld hroom hw => ?_, fun hwait => ?_⟩⟩
  · rw [replyTo_pair hs h, postReply_room hheld hroom, writeReply, if_pos hw]
    rfl
  · rw [replyTo_pair hs h, postReply_room hheld hroom, writeReply, if_neg (by simp [hw])]
  · rw [replyTo_pair hs h]
    exact postReply_waits rfl hwait

end Sys2Proof.Machine
end

section
/-! PROOFS. The commands of the module (R41 to R43, R67, R77 to R82). -/

namespace Sys2Proof.Machine

/-! ## Reads -/

/-- A single field from bit 0 is the number itself. -/
theorem pack_low {n w : Nat} (h : n < 2 ^ w) : pack [(n, w, 0)] = wd n := by
  simp [pack, Nat.mod_eq_of_lt h]

theorem b2n_lt_two (b : Bool) : b2n b < 2 := by cases b <;> decide

@[simp] theorem b2n_mod_two (b : Bool) : b2n b % 2 = b2n b := Nat.mod_eq_of_lt (b2n_lt_two b)

theorem statusWords_pf (s : State) : statusWords false s = [wd (stateCode s.boot.state),
    wd ((if committing s then s.epoch.staged.toNat else 0) * 65536 + s.epoch.current.toNat),
    wd (phaseCode s.epoch.phase), wd s.rules.current, wd (lifeCode s.vault.life),
    wd (s.vault.raised % 2048 + 65536 * b2n s.vault.hold.isSome + 131072 * b2n (testRoot s))] := by
  have h1 := s.epoch.current.isLt
  have h2 := s.epoch.staged.isLt
  have h3 : (if committing s then s.epoch.staged.toNat else 0) < 2 ^ 16 := by split <;> omega
  simp only [statusWords, alarmSummary, pack, List.foldl_cons, List.foldl_nil, Bool.false_eq_true, if_false]
  rw [Nat.mod_eq_of_lt h3, Nat.mod_eq_of_lt h1]
  simp [Nat.mul_comm (b2n _)]

theorem statusWords_vf (s : State) : statusWords true s =
    [wd (stateCode s.boot.state), wd s.epoch.current.toNat, 0, 0, 0, 0] := by
  simp [statusWords, pack_low s.epoch.current.isLt]

/-- Settles O1: the handlers answer the words as they are. -/
theorem moduleReadsAnswer : Obligations.ModuleReadsAnswer := by
  unfold Obligations.ModuleReadsAnswer
  refine ⟨?_, ?_, ?_, ?_, ?_⟩
  · exact endsOk (fun _ _ => rfl) (fun _ _ _ _ => rfl) (fun _ _ _ => by decide)
  · refine endsOk (fun _ _ => rfl) (fun c f _ _ => ?_) (fun _ _ _ => by simp)
    show HRes.done f (identityWords f) = _
    simp [identityWords, selectedBits, pack, Nat.mul_comm]
  · refine endsOk (fun _ _ => rfl) (fun c f _ _ => ?_) (fun c _ _ => by cases c.master <;> simp)
    show HRes.done f (statusWords _ f) = _
    cases c.master
    · rw [statusWords_pf]
    · rw [statusWords_vf]
    · rw [statusWords_pf]
  · exact endsOk (fun _ _ => rfl) (fun _ _ _ _ => rfl) (fun _ _ _ => by simp [copyWords])
  · exact endsOk (fun _ _ => rfl) (fun _ _ _ _ => rfl) (fun _ _ _ => by simp)

/-! ## Writes -/

@[simp] theorem refuseIf_false (st : Status) (ws : List Word) (k : HRes) : refuseIf false st ws k = k := rfl

@[simp] theorem refuseIf_true (st : Status) (ws : List Word) (k : HRes) : refuseIf true st ws k = .refuse st ws := rfl

/-- A ground that is not met does not refuse. -/
theorem refuseIf_of_false {b : Bool} (h : b = false) (st : Status) (ws : List Word) (k : HRes) : refuseIf b st ws k = k := by
  rw [h, refuseIf_false]

/-- The write of a host queue's record whose HEAD and errors are cleared where it is enabled (R82). -/
theorem runHostqConfig_ends (c : Ctx) (f : State) (hq : bit (c.w 0) 30 = true → fld (c.w 0) 7 0 ≤ 63) (hfn : fld (c.w 0) 23 16 ≤ 63)
    (hslots : fld (c.w 1) 3 0 ≤ 10) (hworld : worldCode (fld (c.w 1) 31 16) = true)
    (hvec : fld (c.w 1) 15 8 < msixEntries (fld (c.w 0) 23 16)) (halign : fld (c.w 2) 11 0 = 0)
    (hbound : fld (c.w 0) 23 16 ≠ 0 → vfInWorld f (fld (c.w 0) 23 16) (fld (c.w 1) 31 16) = true)
    (hoff : bit (c.w 0) 31 = true →
      (if bit (c.w 0) 30 then hiqAt f (fld (c.w 0) 7 0) else hrqAt f (fld (c.w 0) 7 0)).enable = false) :
    runHostqConfig c f =
      let set (h : HostQ) : HostQ :=
        let h := { h with enable := bit (c.w 0) 31, bound := fld (c.w 0) 23 16, world := fld (c.w 1) 31 16,
                          vector := fld (c.w 1) 15 8, slotSize := fld (c.w 1) 5 4, slots := fld (c.w 1) 3 0, ringLo := c.w 2,
                          ringHi := c.w 3, modUs := fld (c.w 4) 15 0 }
        if bit (c.w 0) 31 then { h with head := 0, tail := 0, phase := true, error := 0, drops := 0, lastVec := none,
                                        unsignalled := false } else h
      .done (if bit (c.w 0) 30 then updHiq (fld (c.w 0) 7 0) set f else updHrq (fld (c.w 0) 7 0) set f) [] := by
  unfold runHostqConfig
  rw [refuseIf_of_false, refuseIf_of_false, refuseIf_of_false, refuseIf_of_false, refuseIf_of_false]
  · cases bit (c.w 0) 30 <;> rfl
  · cases hen : bit (c.w 0) 31
    · simp
    · simp [hoff hen]
  · by_cases h0 : fld (c.w 0) 23 16 = 0
    · simp [h0]
    · simp [hbound h0]
  · simp [halign]
  · simp [hslots, hworld, hvec]
  · cases hinj : bit (c.w 0) 30
    · simp [hfn]
    · simp [hfn, hq hinj]

/-- A pair bound anew takes the grants of the function that it leaves with it where it was that function's last (R502). -/
theorem rebound_withdraws (was : Pair) (fn : Nat) (t : State) :
    (if was.served && was.bound ≠ fn then withdrawIfLast was.bound t else t) =
      if was.served = true ∧ was.bound ≠ fn ∧ 1 ≤ was.bound ∧ was.bound ≤ 63 ∧ (pairsOf t was.bound).isEmpty = true then
        withdrawGrants was.bound t else t := by
  simp [withdrawIfLast, ite_and]

theorem runQueueBind_ends (c : Ctx) (f : State) (hn : fld (c.w 0) 5 0 ≠ 0) (hen : (pairAt f (fld (c.w 0) 5 0)).enable = false)
    (hex : (pairAt f (fld (c.w 0) 5 0)).executing = none)
    (hcq : (pairAt f (fld (c.w 0) 5 0)).cqHead = (pairAt f (fld (c.w 0) 5 0)).cqTail)
    (hfn : (fld (c.w 0) 31 24 = 0 ∧ fld (c.w 1) 15 0 = 0x0100 ∧ fld (c.w 1) 31 16 < 64) ∨
       (1 ≤ fld (c.w 0) 31 24 ∧ fld (c.w 0) 31 24 ≤ 63 ∧ fld (c.w 1) 15 0 ≤ 0xFF ∧ fld (c.w 1) 31 16 < 8 ∧
        ∀ e ∈ pairsOf f (fld (c.w 0) 31 24), e.1 ≠ fld (c.w 0) 5 0 → e.2.world = fld (c.w 1) 15 0)) :
    runQueueBind c f =
      let was := pairAt f (fld (c.w 0) 5 0)
      let t := updPair (fld (c.w 0) 5 0) (fun x => { x with
        bound := fld (c.w 0) 31 24, world := fld (c.w 1) 15 0, served := true, vector := fld (c.w 1) 31 16, cqHead := 0, cqTail := 0,
        rqHead := 0, rqTail := 0, error := 0, phase := true, seqExp := none, written := [], held := [] }) f
      .done (if was.served && was.bound ≠ fld (c.w 0) 31 24 then withdrawIfLast was.bound t else t) [] := by
  have h255 : fld (c.w 0) 31 24 ≠ 255 := by omega
  unfold runQueueBind
  rw [refuseIf_of_false, refuseIf_of_false, refuseIf_of_false, refuseIf_of_false, refuseIf_of_false, refuseIf_of_false,
    refuseIf_of_false]
  · simp only [if_neg h255]
    rfl
  · rcases hfn with ⟨h0, -, hv⟩ | ⟨h1, -, -, hv, -⟩
    · simp [h0, hv]
    · simp [Nat.ne_of_gt h1, hv]
  · rcases hfn with ⟨h0, -⟩ | ⟨-, h63, -⟩
    · simp [h0]
    · simp [h63]
  · rcases hfn with ⟨h0, -⟩ | ⟨-, -, -, -, hw⟩
    · simp [h0]
    · simp only [Bool.and_eq_false_iff, List.any_eq_false]
      exact .inr fun e he => by simpa using hw e he
  · rcases hfn with ⟨h0, -⟩ | ⟨-, -, hw, -⟩
    · simp [h0]
    · simp [hw]
  · rcases hfn with ⟨-, hw, -⟩ | ⟨h1, -⟩
    · simp [hw]
    · simp [Nat.ne_of_gt h1]
  · simp [hen, hex, hcq]
  · simp [hn]

/-- An image that is judged, newer than what is there and of its length is written, and read back or not (R67). -/
theorem runImageWrite_answers (c : Ctx) (f : State) (hdata : c.hasData = true) (hkind : fld (c.w 0) 1 0 = 1 ∨ fld (c.w 0) 1 0 = 2)
    (hold : ∀ i < 2, (copyAt f (2 * (fld (c.w 0) 1 0 - 1) + i)).valid = true →
        (copyAt f (2 * (fld (c.w 0) 1 0 - 1) + i)).sequence < imageSeq c.data) :
    runImageWrite c f =
      let k := writeTarget f (fld (c.w 0) 1 0)
      let g := programCopy k c.data f
      if c.data.length = 256 + imageLen c.data ∧ imageValid f (2 * (fld (c.w 0) 1 0 - 1)) c.data = true then
        if c.pkt.env.flashOk then
          let t := updCopy k (fun x => { judgeCopy f k x c.data with failed := false }) g
          .done (recordEv 0x0008 6 0x0C 0 0 0x0100 [wd (fld (c.w 0) 1 0), wd (k % 2), wd (imageSeq c.data)]
            (if (copyAt f k).failed then storeSetting 4 [wd (failureMarks t)] c.pkt.env.norOk t else t))
            [wd (k % 2), wd (imageSeq c.data)]
        else .ended (updCopy k (fun x => { x with valid := false, body := [] }) g) .imageInvalid []
      else .refuse .imageInvalid [] := by
  unfold runImageWrite
  dsimp only
  rw [refuseIf_of_false, refuseIf_of_false]
  · by_cases hok : c.data.length = 256 + imageLen c.data ∧ imageValid f (2 * (fld (c.w 0) 1 0 - 1)) c.data = true
    · rw [if_pos hok, refuseIf_of_false, refuseIf_of_false]
      · cases hf : c.pkt.env.flashOk <;> rfl
      · simp only [List.any_eq_false, List.mem_range, Bool.and_eq_true, decide_eq_true_eq, not_and, Nat.not_le]
        exact hold
      · simp [hok]
    · rw [if_neg hok, show (decide (c.data.length ≠ 256 + imageLen c.data) || !imageValid f (2 * (fld (c.w 0) 1 0 - 1)) c.data) = true by
        simpa [Classical.or_iff_not_imp_left] using hok]
      rfl
  · rcases hkind with h | h <;> simp [h]
  · simp [hdata]

/-- Settles O2: each handler's grounds are not met under its conditions, and what it leaves is what its words name. -/
theorem moduleWritesTakeEffect : Obligations.ModuleWritesTakeEffect := by
  unfold Obligations.ModuleWritesTakeEffect
  refine ⟨?_, ?_, ?_, ?_, ?_⟩
  · refine endsOk (fun _ _ => rfl) (fun c f _ h => ?_) (fun _ _ _ => by simp)
    simp [opNotifyMask, runNotifyMask, h]
  · refine endsOk (fun _ _ => rfl) (fun c f _ h => ?_) (fun _ _ _ => by simp)
    obtain ⟨hgen, h6, h15, hval, hslot⟩ := h
    simp [opInbandConfig, runInbandConfig, isGeneral, hgen, h6, h15, hval, hslot]
  · refine endsOk (fun _ _ => rfl) (fun c f _ h => ?_) (fun _ _ _ => by simp)
    obtain ⟨hq, hfn, hslots, hworld, hvec, halign, hbound, hoff⟩ := h
    exact runHostqConfig_ends c f hq hfn hslots hworld hvec halign hbound hoff
  · refine endsOk (fun _ _ => rfl) (fun c f _ h => ?_) (fun _ _ _ => by simp)
    obtain ⟨hn, hen, hex, hcq, hfn⟩ := h
    dsimp only
    rw [← rebound_withdraws]
    exact runQueueBind_ends c f hn hen hex hcq hfn
  · refine answers (fun _ _ => rfl) (by decide) (fun c f _ h => ?_) (fun c f t d h => ?_)
    · obtain ⟨hdata, hkind, hold⟩ := h
      exact runImageWrite_answers c f hdata hkind hold
    · dsimp only
      split
      · split <;> simp
      · simp

end Sys2Proof.Machine
end

section
/-! PROOFS. The epoch commit (R70 to R76, R544): the four commands, the activation, the drain and a prepare that times out. -/

namespace Sys2Proof.Machine

/-! ## The commands -/

section Commands
variable {c : Ctx} {f : State}

theorem onCommit_of_commitEpoch (h : commitEpoch f = some (epochOf c)) (k : HRes) : onCommit c f k = k := by
  simp [onCommit, h]

theorem prepared_of_no_failure (h : stagedFailures f.epoch.cmds f = []) :
    prepared [] f = .done (closeHeldWindows { f with epoch := { f.epoch with phase := .prepared } }) [] := by
  simp [prepared, h, lowestFailure]

/-- The activation point lies within R76's limits. -/
theorem pointOutside_eq_false
    (htime : bit (c.w 0) 31 = true →
      f.time.tc + 500000 * nsUnit ≤ (join64 (c.w 1) (c.w 2) * 1000000000 + (c.w 3).toNat) * nsUnit ∧
      (join64 (c.w 1) (c.w 2) * 1000000000 + (c.w 3).toNat) * nsUnit ≤ f.time.tc + 60000000000 * nsUnit)
    (hcount : bit (c.w 0) 31 = false → f.time.sfc + 4 ≤ join64 (c.w 1) (c.w 2) ∧ join64 (c.w 1) (c.w 2) ≤ f.time.sfc + 480000) :
    pointOutside c f = false := by
  cases hk : bit (c.w 0) 31
  · simpa [pointOutside, actPoint, hk] using hcount hk
  · simpa [pointOutside, actPoint, hk] using htime hk

end Commands

/-- Settles O3: in the commit's state no ground of R544 and R76 is met. -/
theorem epochCommandsAdvanceCommit : Obligations.EpochCommandsAdvanceCommit := by
  unfold Obligations.EpochCommandsAdvanceCommit
  refine ⟨?_, ?_, ?_, ?_⟩
  · refine endsOk (fun _ _ => rfl) (fun c f _ h => ?_) (fun _ _ _ => by simp)
    obtain ⟨hhalter, hphase, hepoch⟩ := h
    simp [opEpochStage, runEpochStage, hhalter, hphase, hepoch]
  · refine endsOk (fun _ _ => rfl) (fun c f _ h => ?_) (fun _ _ _ => by simp)
    obtain ⟨hhalter, hphase, hepoch, hsilent, hfail⟩ := h
    simp [opEpochPrepare, runEpochPrepare, onCommit, commitEpoch, hhalter, hphase, hepoch, hsilent, prepared_of_no_failure hfail]
  · refine endsOk (fun _ _ => rfl) (fun c f _ h => ?_) (fun _ _ _ => by simp)
    obtain ⟨hhalter, hphase, hepoch, htime, hcount⟩ := h
    have hns : (bit (c.w 0) 31 && decide (999999999 < (c.w 3).toNat)) = false := by
      cases hk : bit (c.w 0) 31
      · rfl
      · simpa using (htime hk).1
    have hpoint := pointOutside_eq_false (fun hk => (htime hk).2) hcount
    simp [opEpochActivate, runEpochActivate, onCommit, commitEpoch, hhalter, hphase, hepoch, hns, hpoint]
  · refine endsOk (fun _ _ => rfl) (fun c f _ h => ?_) (fun _ _ _ => by simp)
    obtain ⟨hphase, hepoch⟩ := h
    show runEpochAbort c f = .done (discardEpoch f) []
    unfold runEpochAbort
    rcases hphase with hp | hp | ⟨hp, habort⟩
    · simp [onCommit, commitEpoch, hp, hepoch]
    · simp [onCommit, commitEpoch, hp, hepoch]
    · simp [onCommit, commitEpoch, hp, hepoch, habort]

/-! ## The events -/

/-- The prepare of one queue that timed out ends with its failures (R73). -/
theorem finish_prepared {q : Nat} {x : Exec} {s : State} {u : Nat × Nat × Nat} {st : Status}
    (hx : (pairAt s q).executing = some x) (hd : x.discard = false) :
    let f := updPair q (fun p => { p with executing := none }) s
    let fails := (stagedFailures f.epoch.cmds f).filter (fun e => !(silentOf x.pkt f).contains e.1) ++
      (silentOf x.pkt f).eraseDups.map fun u => (u, Status.unitTimeout)
    lowestFailure fails = some (u, st) →
    finish q (fun s => prepared (silentOf x.pkt s) s) s = replyTo x.pkt .prepareFailed
      [pack [(u.1, 8, 24), (u.2.1, 8, 16), (u.2.2, 16, 0)], wd (statusCode st), wd fails.length] 3 (discardEpoch f) := by
  intro f fails hlow
  have hp : prepared (silentOf x.pkt f) f = .ended (discardEpoch f) .prepareFailed
      [pack [(u.1, 8, 24), (u.2.1, 8, 16), (u.2.2, 16, 0)], wd (statusCode st), wd fails.length] := by
    have hl : lowestFailure ((stagedFailures f.epoch.cmds f).filter (fun e => !(silentOf x.pkt f).contains e.1) ++
      (silentOf x.pkt f).eraseDups.map fun u => (u, Status.unitTimeout)) = some (u, st) := hlow
    simp only [prepared, hl, fails]
  simp only [finish, hx]
  rw [hp]
  simp [hd, answer]

/-- Settling the SEQs kept aside alters the rules alone. -/
theorem settleSeqs_eq (s : State) : settleSeqs s = { s with rules := (settleSeqs s).rules } := by
  have h : ∀ (l : List (Nat × Nat)) (u : State), forEach l (fun e s => setRelease e.1 e.2 s) u =
      { u with rules := (forEach l (fun e s => setRelease e.1 e.2 s) u).rules } := by
    intro l
    unfold forEach
    induction l with
    | nil => intro u; rfl
    | cons e r ih =>
      intro u
      rw [List.foldl_cons, ih]
      rfl
  exact h _ _

/-- Releasing the previous epoch returns the commit to NONE and its banks are gone (R33). -/
theorem releaseEpoch_leaves (n : Nat) (s : State) :
    (releaseEpoch n s).epoch.phase = .none ∧ (releaseEpoch n s).epoch.previous = none ∧ (releaseEpoch n s).epoch.inFlightPrev = 0 ∧
      (releaseEpoch n s).rules.prev = {} ∧ (releaseEpoch n s).cipher.prev = {} := by
  simp [releaseEpoch]

/-- With nothing in flight the release keeps the in-flight count as it is. -/
theorem releaseEpoch_drained {s : State} {e : BitVec 16} (hin : s.epoch.inFlightPrev = 0) (hprev : s.epoch.previous = some e) :
    releaseEpoch 0 s = notify .epochDrained [pack [(e.toNat, 16, 16), (s.epoch.current.toNat, 16, 0)], 0] { s with
      epoch := { s.epoch with phase := .none, previous := none }, rules := { (settleSeqs s).rules with prev := {} },
      cipher := { s.cipher with prev := {} } } := by
  have hz : ({ s.epoch with phase := .none, previous := none } : EpochSt) =
      { s.epoch with phase := .none, previous := none, inFlightPrev := 0 } := by simp [hin]
  rw [releaseEpoch, settleSeqs_eq, hprev, hz]
  rfl

/-- Settles O4: the first tick at or after the point, the end of the drain, its late end and a prepare that times out. -/
theorem epochEventsRunCommit : Obligations.EpochEventsRunCommit := by
  unfold Obligations.EpochEventsRunCommit
  refine ⟨fun s h => ?_, fun s e hphase hin hprev => ?_, fun s hphase hin hmark => ?_, fun s q x u st hq hx hd => ?_⟩
  · simp only [exec, execEpochActivationTick, whenever, h, if_true]
    rfl
  · simp only [exec, execEpochDrained, whenever, hphase, hin, decide_true, Bool.and_self, if_true, releaseEpoch_drained hin hprev]
  · refine ⟨drainLate s, ?_, releaseEpoch_leaves _ _⟩
    simp [exec, execEpochDrainLate, whenever, passed, hphase, hin, hmark]
  · intro f fails hlow
    show Host.Outcome.next (prepareTimeout s) = _
    simp only [prepareTimeout, hq, forEach, List.foldl_cons, List.foldl_nil, hx]
    rw [finish_prepared hx hd hlow]

end Sys2Proof.Machine
end

section
/-! PROOFS. The registers of BAR0 (R7, R37 to R43, R85, R547, R548): doorbells, the word-wise window, a function-level reset, and the
vendor's opcodes. -/

namespace Sys2Proof.Machine

/-! ## Events -/

theorem onObject_of {ok : Bool} (h : ok = true) (s : State) : onObject ok s = .next s := by rw [h]; rfl

theorem whenever_of {c : Bool} (h : c = true) (f : State → State) (s : State) : whenever c f s = f s := by rw [h]; rfl

theorem whenever_of_false {c : Bool} (h : c = false) (f : State → State) (s : State) : whenever c f s = s := by rw [h]; rfl

/-! ## Doorbells -/

section Doorbells
variable {fn n : Nat} {s : State}

theorem cqTailWrite_of_sees (h : seesPair s fn n = true) (tail : Nat) (packets : List Written) :
    cqTailWrite fn n tail packets s = pumpAll (updPair n (fun x => { x with
      cqTail := BitVec.ofNat 12 tail
      written := x.written ++ packets.map fun w => { w with pkt := { w.pkt with src := .pair n } } }) s) := if_pos h

theorem rqHeadWrite_of_sees (h : seesPair s fn n = true) (v : Nat) :
    rqHeadWrite fn n v s = pumpAll (flushHeld n (pairAt s n).held.length
      (updPair n (fun x => { x with rqHead := BitVec.ofNat 12 v }) s)) := by
  rw [rqHeadWrite, if_pos h]
  simp only [pairAt_updPair_self]

/-- The error that a write of ENABLE leaves (R547). -/
theorem enableError_eq (v : Word) (x : Pair) : (if bit v 0 && baseBad x then 4 else if bit v 0 && !x.enable then 0 else x.error) =
    if bit v 0 then (if fld x.cqBaseLo 11 0 ≠ 0 ∨ fld x.rqBaseLo 11 0 ≠ 0 then 4 else if x.enable then x.error else 0)
    else x.error := by
  cases bit v 0
  · rfl
  · cases x.enable <;> simp [baseBad]

theorem enableWrite_of_sees (h : seesPair s fn n = true) (v : Word) :
    enableWrite fn n v s = pumpAll (updPair n (fun x => { x with
      enable := bit v 0
      error := if bit v 0 then
          (if fld x.cqBaseLo 11 0 ≠ 0 ∨ fld x.rqBaseLo 11 0 ≠ 0 then 4 else if x.enable then x.error else 0)
        else x.error }) s) := by
  rw [enableWrite, if_pos h]
  simp only [enableError_eq]

theorem hiqTailWrite_of_reaches (h : reachesQueue fn (hiqAt s n) = true) (v : Nat) :
    hiqTailWrite fn n v s = updHiq n (fun h =>
      if v % 65536 < ringSlots h then { h with tail := v % 65536 } else { h with error := 2, enable := false }) s := by
  rw [hiqTailWrite, whenever_of h]
  congr 1
  funext x
  by_cases hv : v % 65536 < ringSlots x
  · rw [if_neg (Nat.not_le.mpr hv), if_pos hv]
  · rw [if_pos (Nat.not_lt.mp hv), if_neg hv]

theorem hrqHeadWrite_of_reaches (h : reachesQueue fn (hrqAt s n) = true) (v : Nat) :
    hrqHeadWrite fn n v s = updHrq n (fun h => { h with head := v % 65536 % ringSlots h }) s := whenever_of h _ _

end Doorbells

/-- Settles O5: a function that sees the register writes it. -/
theorem doorbellsMoveQueues : Obligations.DoorbellsMoveQueues := by
  unfold Obligations.DoorbellsMoveQueues
  refine ⟨fun fn pair tail packets s hf hp h => ?_, fun fn pair value s hf hp h => ?_, fun fn pair v s hf hp h => ?_,
    fun fn bits s hf => ?_, fun fn queue value s hf hq h => ?_, fun fn queue value s hf hq h => ?_⟩
  · rw [← cqTailWrite_of_sees h]
    exact onObject_of (by simp [hf, hp]) _
  · rw [← rqHeadWrite_of_sees h]
    exact onObject_of (by simp [hf, hp]) _
  · rw [← enableWrite_of_sees h]
    exact onObject_of (by simp [hf, hp]) _
  · exact onObject_of (by simp [hf]) _
  · rw [← hiqTailWrite_of_reaches h]
    exact onObject_of (by simp [hf, hq]) _
  · rw [← hrqHeadWrite_of_reaches h]
    exact onObject_of (by simp [hf, hq]) _

/-! ## The window, word by word -/

section Window
variable {fn off : Nat} {v : Word} {s : State}

/-- A word within the BAR of a function is written. -/
theorem exec_registerWrite (hf : fn < 64) (h4 : off % 4 = 0) (hb : off < if fn = 0 then 65536 else 16384) :
    exec (.registerWrite fn off v) s = .next (registerWrite fn off v s) := onObject_of (by simp [hf, h4, hb]) _

/-- A word below the smaller BAR is within that of every function. -/
theorem lt_bar (h : off < 16384) : off < if fn = 0 then 65536 else 16384 := by split <;> omega

theorem registerWrite_pair {n k : Nat} (hn : n < 64) (hk : k < 64) : registerWrite fn (64 * n + k) v s = writePair fn n k v s := by
  rw [registerWrite, if_pos (by omega), show (64 * n + k) / 64 = n by omega, show (64 * n + k) % 64 = k by omega]

/-- The pair registers that a write changes nothing of: those of a pair that the function does not see, and the words that are read
only or reserved. -/
theorem writePair_ignored {n k : Nat} (h : seesPair s fn n = false ∨ k = 5 ∨ k = 7 ∨ 9 ≤ k) : writePair fn n (4 * k) v s = s := by
  unfold writePair
  rcases h with h | h
  · simp [h]
  · split
    · rfl
    · split
      · omega
      · omega
      · omega
      · rw [if_neg (by omega)]

end Window

theorem fld_lt (w : Word) (hi lo : Nat) : fld w hi lo < 2 ^ (hi + 1 - lo) := Nat.mod_lt _ (Nat.two_pow_pos _)

theorem fld_low_mod (w : Word) : fld w 15 0 % 65536 = fld w 15 0 := Nat.mod_eq_of_lt (fld_lt w 15 0)

section WindowRows
variable {fn : Nat} {v : Word} {s : State}

/-- The four words from offset 0 are the base registers. -/
theorem writePair_base {n k : Nat} (hk : k < 4) (h : seesPair s fn n = true) : writePair fn n (4 * k) v s = writeBase n (4 * k) v s := by
  interval_cases k <;> simp [writePair, h]

theorem registerWrite_hrqHead {q : Nat} (hq : q < 256) (h : reachesQueue fn (hrqAt s q) = true) :
    registerWrite fn (0x2000 + 16 * q) v s = updHrq q (fun h => { h with head := fld v 15 0 % ringSlots h }) s := by
  have hoff : (0x2000 ≤ 0x2000 + 16 * q && 0x2000 + 16 * q < 0x3000 && (0x2000 + 16 * q) % 16 = 0) = true := by
    simp only [Bool.and_eq_true, decide_eq_true_eq]
    omega
  rw [registerWrite, if_neg (by omega), if_neg (by omega), if_neg (by omega), if_neg (by omega), if_neg (by omega), if_pos hoff,
    show (0x2000 + 16 * q - 0x2000) / 16 = q by omega, hrqHeadWrite_of_reaches h, fld_low_mod]

theorem registerWrite_hiqTail {q : Nat} (hq : q < 64) (h : reachesQueue fn (hiqAt s q) = true) :
    registerWrite fn (0x3004 + 16 * q) v s = updHiq q (fun h =>
      if fld v 15 0 < ringSlots h then { h with tail := fld v 15 0 } else { h with error := 2, enable := false }) s := by
  have hrq : ¬ (0x2000 ≤ 0x3004 + 16 * q && 0x3004 + 16 * q < 0x3000 && (0x3004 + 16 * q) % 16 = 0) = true := by
    simp only [Bool.and_eq_true, decide_eq_true_eq]
    omega
  have hiq : (0x3000 ≤ 0x3004 + 16 * q && 0x3004 + 16 * q < 0x3400 && (0x3004 + 16 * q) % 16 = 4) = true := by
    simp only [Bool.and_eq_true, decide_eq_true_eq]
    omega
  rw [registerWrite, if_neg (by omega), if_neg (by omega), if_neg (by omega), if_neg (by omega), if_neg (by omega), if_neg hrq, if_pos hiq,
    show (0x3004 + 16 * q - 0x3000) / 16 = q by omega, hiqTailWrite_of_reaches h, fld_low_mod]

/-- The words of the window that a write changes nothing of. -/
theorem registerWrite_ignored {k : Nat}
    (hpair : 4 * k < 0x1000 → seesPair s fn (k / 16) = false ∨ k % 16 = 5 ∨ k % 16 = 7 ∨ 9 ≤ k % 16)
    (hint : 0x1000 ≤ 4 * k → 4 * k < 0x2000 → 0x1010 ≤ 4 * k)
    (hrq : 0x2000 ≤ 4 * k → 4 * k < 0x3000 → k % 4 ≠ 0 ∨ reachesQueue fn (hrqAt s ((k - 0x800) / 4)) = false)
    (hiq : 0x3000 ≤ 4 * k → 4 * k < 0x3400 → k % 4 ≠ 1 ∨ reachesQueue fn (hiqAt s ((k - 0xC00) / 4)) = false) :
    registerWrite fn (4 * k) v s = s := by
  unfold registerWrite
  by_cases h0 : 4 * k < 0x1000
  · rw [if_pos h0, show 4 * k / 64 = k / 16 by omega, show 4 * k % 64 = 4 * (k % 16) by omega]
    exact writePair_ignored (hpair h0)
  rw [if_neg h0, if_neg (by omega), if_neg (by omega), if_neg (by omega), if_neg (by omega)]
  split
  next hr =>
    simp only [Bool.and_eq_true, decide_eq_true_eq] at hr
    refine whenever_of_false ?_ _ _
    rw [show (4 * k - 0x2000) / 16 = (k - 0x800) / 4 by omega]
    exact (hrq hr.1.1 hr.1.2).resolve_left (by omega)
  next =>
    split
    next hr =>
      simp only [Bool.and_eq_true, decide_eq_true_eq] at hr
      refine whenever_of_false ?_ _ _
      rw [show (4 * k - 0x3000) / 16 = (k - 0xC00) / 4 by omega]
      exact (hiq hr.1.1 hr.1.2).resolve_left (by omega)
    next => rfl

/-! ## Reads -/

theorem registerRead_pair {n k : Nat} (hn : n < 64) (hk : k < 64) :
    registerRead fn (64 * n + k) s = if seesPair s fn n then pairRegister (pairAt s n) k else 0 := by
  have hbar : ¬ (if fn = 0 then 0x10000 else 0x4000) ≤ 64 * n + k := by split <;> omega
  rw [registerRead, if_neg hbar, if_pos (by omega), show (64 * n + k) / 64 = n by omega, show (64 * n + k) % 64 = k by omega]

/-- The words beyond the registers of a pair are reserved. -/
theorem pairRegister_reserved (x : Pair) {k : Nat} (h : 10 ≤ k) : pairRegister x (4 * k) = 0 := by
  unfold pairRegister
  split
  iterate 10 · omega
  · rfl

theorem registerRead_status {i : Nat} (hi : i < 64) : registerRead fn (0x1200 + 4 * i) s = nthW (statusBlock fn s) i := by
  have hbar : ¬ (if fn = 0 then 0x10000 else 0x4000) ≤ 0x1200 + 4 * i := by split <;> omega
  rw [registerRead, if_neg hbar, if_neg (by omega), if_neg (by omega), if_neg (by omega), if_pos (by omega),
    show (0x1200 + 4 * i - 0x1200) / 4 = i by omega]

theorem registerRead_hrq_unreached {q : Nat} (hq : q < 256) (h : reachesQueue fn (hrqAt s q) = false) :
    registerRead fn (0x2000 + 16 * q) s = 0 := by
  have hbar : ¬ (if fn = 0 then 0x10000 else 0x4000) ≤ 0x2000 + 16 * q := by split <;> omega
  rw [registerRead, if_neg hbar, if_neg (by omega), if_neg (by omega), if_neg (by omega), if_neg (by omega), if_neg (by omega),
    if_pos (by omega), show (0x2000 + 16 * q - 0x2000) / 16 = q by omega]
  simp [h]

end WindowRows

/-! ## Vendor opcodes (R56) -/

/-- No master may use a vendor opcode: LOCKED where the part is in use or scrapped. -/
theorem masterGround_vendor (n : Nat) (p : Packet) (s : State) : masterGround (opVendor n) p s =
    some (if s.vault.life = .deployed ∨ s.vault.life = .scrapped then .locked else .notPermitted, []) := by
  have hs : scrappedOps.contains (opVendor n).code = false := by
    simp only [scrappedOps, opVendor, List.contains_eq_mem, List.mem_cons, List.not_mem_nil, or_false, decide_eq_false_iff_not]
    omega
  have hc : 0xF000 ≤ (opVendor n).code := Nat.le_add_right _ _
  unfold masterGround
  rw [hs, if_pos hc]
  cases s.vault.life <;> rfl

/-- Settles O6: each word of the window acts as its access code states. -/
theorem windowWritesAndVendorOpcodes : Obligations.WindowWritesAndVendorOpcodes := by
  unfold Obligations.WindowWritesAndVendorOpcodes
  refine ⟨fun fn n k v s hf hn hk h => ?_, fun fn n v s hf hn h => ⟨?_, ?_, ?_⟩, fun fn v s hf => ⟨?_, ?_⟩, fun fn v s hf => ⟨?_, ?_⟩,
    fun fn q v s hf => ⟨fun hq h => ?_, fun hq h => ?_⟩, fun fn k v s hf hbar hpair hint hrq hiq => ?_,
    fun fn n s hn => ⟨fun h k hk => ?_, fun h => ?_⟩, fun fn s => ?_, fun fn s h1 h2 => ?_,
    fun n p s hn hr h1 h2 hseq hhead hdesc => ?_⟩
  · rw [exec_registerWrite hf (by omega) (lt_bar (by omega)), registerWrite_pair hn (by omega), writePair_base hk h]
    interval_cases k <;> rfl
  · rw [exec_registerWrite hf (by omega) (lt_bar (by omega)), registerWrite_pair hn (by omega)]
    simp [writePair, h, cqTailWrite_of_sees h]
  · rw [exec_registerWrite hf (by omega) (lt_bar (by omega)), registerWrite_pair hn (by omega), ← rqHeadWrite_of_sees h]
    simp [writePair, h]
  · rw [exec_registerWrite hf (by omega) (lt_bar (by omega)), registerWrite_pair hn (by omega), ← enableWrite_of_sees h]
    simp [writePair, h]
  · exact exec_registerWrite hf (by omega) (lt_bar (by omega))
  · exact exec_registerWrite hf (by omega) (lt_bar (by omega))
  · exact exec_registerWrite hf (by omega) (lt_bar (by omega))
  · exact exec_registerWrite hf (by omega) (lt_bar (by omega))
  · rw [exec_registerWrite hf (by omega) (lt_bar (by omega)), registerWrite_hrqHead hq h]
  · rw [exec_registerWrite hf (by omega) (lt_bar (by omega)), registerWrite_hiqTail hq h]
  · rw [exec_registerWrite hf (by omega) hbar, registerWrite_ignored hpair hint hrq hiq]
  · rw [registerRead_pair hn (by omega), h]
    rfl
  · simp only [registerRead_pair hn (show 0x10 < 64 by omega), registerRead_pair hn (show 0x14 < 64 by omega),
      registerRead_pair hn (show 0x18 < 64 by omega), registerRead_pair hn (show 0x1C < 64 by omega),
      registerRead_pair hn (show 0x24 < 64 by omega), if_pos h]
    refine ⟨rfl, rfl, rfl, rfl, rfl, fun k hk hk2 => ?_⟩
    rw [registerRead_pair hn (by omega), if_pos h, pairRegister_reserved _ hk]
  · refine ⟨?_, fun h => ?_, fun h => ⟨?_, ?_⟩, fun q hq h => registerRead_hrq_unreached hq h⟩
    · rw [registerRead_status (i := 0) (by omega)]
      unfold statusBlock statusWords
      split <;> rfl
    · rw [registerRead_status (i := 6) (by omega), h]
      rfl
    · rw [registerRead_status (i := 1) (by omega), statusBlock, decide_eq_true h, statusWords_vf]
      rfl
    · rw [registerRead_status (i := 2) (by omega), statusBlock, decide_eq_true h, statusWords_vf]
      rfl
  · rw [show exec (.functionLevelReset fn) s = _ from onObject_of (by simp [h1, h2]) _, functionReset, mmap]
    simp only [Bool.and_eq_true, decide_eq_true_eq, and_assoc]
    congr 5
    funext e
    split <;> rfl
  · have hexec : exec (.vendorDiagnostics n p) s = command (opVendor n) p s := if_pos hn
    rw [hexec]
    exact command_judged hr (judge_master h1 h2 hseq hhead hdesc rfl (masterGround_vendor n p s))

/-! ## Packets, unit timeouts and host queues (R16, R53, R58, R83, R84) -/

/-- The command in progress of a queue ends with a status and what it leaves. -/
theorem finish_ended {q : Nat} {x : Exec} {s t : State} {st : Status} {r : State → HRes} (hx : (pairAt s q).executing = some x)
    (hd : x.discard = false) {ws : List Word}
    (hr : r (updPair q (fun p => { p with executing := none }) s) = .ended t st ws) :
    finish q r s = replyTo x.pkt st ws (min 13 ws.length) t := by
  simp [finish, hx, hr, hd, answer]

theorem execUnitTimeout_of_silent {q a cplx unit inst : Nat} {x : Exec} {s : State} (hq : q ≤ 64) (hx : (pairAt s q).executing = some x)
    (hdata : x.data = [a, cplx, unit, inst]) : exec (.unitTimeout q) s = .next (unitTimeout q x cplx unit inst s) := by
  simp [exec, execUnitTimeout, onObject, hq, hx, hdata]

/-- Settles O7. -/
theorem packetsAndHostQueuesServed : Obligations.PacketsAndHostQueuesServed := by
  unfold Obligations.PacketsAndHostQueuesServed
  refine ⟨fun side op p spec s hside hop hspec => ?_, fun q a cplx unit inst x s hq hx hd hdata => ?_,
    fun q f ext rest s hq hwait hen hb hfw hfp hlen hroom => ⟨?_, ?_⟩, fun q ok f ext rest s hq hwait hfw hfp => ?_,
    fun q s hq hu => ?_, fun q ws bs s hq => ?_, fun q ws bs s hq hkind hlo hhi => ?_⟩
  · show onObject (side < 2 && op < 65536) (pumpAll (inbandArrive (inbandNow s) side op p s)) = _
    rw [onObject_of (by simp [hside, hop]), inbandArrive]
    simp only [hspec]
    rfl
  · rw [execUnitTimeout_of_silent hq hx hdata, unitTimeout, finish_ended hx hd rfl]
    rfl
  · rw [show exec (.hostqRecordWrite q true) s = _ from onObject_of (by simp [hq]) _, writeRecord]
    simp [hwait, hen, hb, hfw, hfp, Nat.not_lt.mpr hlen, Nat.not_le.mpr hroom]
  · rw [show exec (.hostqRecordWrite q false) s = _ from onObject_of (by simp [hq]) _, writeRecord]
    simp [hwait, hen, hb, hfw, hfp, Nat.not_lt.mpr hlen, Nat.not_le.mpr hroom]
  · rw [show exec (.hostqRecordWrite q ok) s = _ from onObject_of (by simp [hq]) _, writeRecord]
    simp [hwait, hfw, hfp]
  · rw [show exec (.hostqModerationExpiry q) s = _ from onObject_of (by simp [hq]) _, whenever_of hu]
  · simp [exec, execInjectionFetch, hq]
  · have hn : ¬ (fld (nthW ws 0) 13 0 < 60 ∨ 12284 < fld (nthW ws 0) 13 0) := by omega
    simp [exec, execInjectionFetch, hq, inject, hkind, hn]

end Sys2Proof.Machine
end

section
/-! PROOFS. What zeroisation leaves: nothing that ends frames or erases keys alters the power stage, the boot or the time. -/

namespace Sys2Proof.Machine

/-- A loop leaves the power stage, the boot and the time where each of its rounds does. -/
theorem forEach_supply {α : Type} (l : List α) (f : α → State → State)
    (h : ∀ a u, (f a u).power = u.power ∧ (f a u).boot = u.boot ∧ (f a u).mono = u.mono) (s : State) :
    (forEach l f s).power = s.power ∧ (forEach l f s).boot = s.boot ∧ (forEach l f s).mono = s.mono := by
  unfold forEach
  induction l generalizing s with
  | nil => exact ⟨rfl, rfl, rfl⟩
  | cons a r ih =>
    obtain ⟨hp, hb, hm⟩ := h a s
    rw [List.foldl_cons, ← hp, ← hb, ← hm]
    exact ih (f a s)

section Frames
variable (s : State)

@[simp] theorem leaveVersion_supply (id : Nat) :
    (leaveVersion id s).power = s.power ∧ (leaveVersion id s).boot = s.boot ∧ (leaveVersion id s).mono = s.mono := by
  unfold leaveVersion; (repeat' split) <;> simp

@[simp] theorem epochOut_supply (e : Nat) :
    (epochOut e s).power = s.power ∧ (epochOut e s).boot = s.boot ∧ (epochOut e s).mono = s.mono := by
  unfold epochOut; split <;> exact ⟨rfl, rfl, rfl⟩

@[simp] theorem keepCache_supply (p : Nat) :
    (keepCache p s).power = s.power ∧ (keepCache p s).boot = s.boot ∧ (keepCache p s).mono = s.mono := by
  unfold keepCache; split <;> exact ⟨rfl, rfl, rfl⟩

@[simp] theorem giveCells_supply (p : Nat) (hs : List Nat) :
    (giveCells p hs s).power = s.power ∧ (giveCells p hs s).boot = s.boot ∧ (giveCells p hs s).mono = s.mono := by simp [giveCells]

@[simp] theorem release_supply (w p : Nat) (cs : List Nat) :
    (release w p cs s).power = s.power ∧ (release w p cs s).boot = s.boot ∧ (release w p cs s).mono = s.mono := by
  unfold release
  dsimp only
  (repeat' split) <;> simp

@[simp] theorem freeFrame_supply (f : Frame) :
    (freeFrame f s).power = s.power ∧ (freeFrame f s).boot = s.boot ∧ (freeFrame f s).mono = s.mono := release_supply ..

@[simp] theorem dropFlight_supply (id : Nat) :
    (dropFlight id s).power = s.power ∧ (dropFlight id s).boot = s.boot ∧ (dropFlight id s).mono = s.mono := by
  unfold dropFlight
  dsimp only
  (repeat' split) <;> simp [endFlight]

@[simp] theorem settleAll_supply :
    (settleAll s).power = s.power ∧ (settleAll s).boot = s.boot ∧ (settleAll s).mono = s.mono := by
  refine forEach_supply _ _ (fun e u => ?_) s
  split
  · exact forEach_supply _ _ (fun n v => by split <;> exact ⟨rfl, rfl, rfl⟩) u
  · exact ⟨rfl, rfl, rfl⟩

@[simp] theorem endInQueues_supply (id : Nat) (pass : Bool) :
    (endInQueues id pass s).power = s.power ∧ (endInQueues id pass s).boot = s.boot ∧ (endInQueues id pass s).mono = s.mono := by
  unfold endInQueues
  dsimp only
  split
  · exact ⟨rfl, rfl, rfl⟩
  · simpa using forEach_supply _ _ (fun f u => release_supply u ..) s

@[simp] theorem endInHostQueues_supply (id : Nat) (pass : Bool) :
    (endInHostQueues id pass s).power = s.power ∧ (endInHostQueues id pass s).boot = s.boot ∧ (endInHostQueues id pass s).mono = s.mono := by
  unfold endInHostQueues
  dsimp only
  split
  · exact ⟨rfl, rfl, rfl⟩
  · exact forEach_supply _ _ (fun f u => freeFrame_supply u f) s

@[simp] theorem endOnSides_supply (id chan world : Nat) (pass : Bool) :
    (endOnSides id chan world pass s).power = s.power ∧ (endOnSides id chan world pass s).boot = s.boot ∧ (endOnSides id chan world pass s).mono = s.mono := by
  unfold endOnSides
  dsimp only
  split <;> simp

@[simp] theorem cutEnd_supply (id chan world : Nat) (pass : Bool) :
    (cutEnd id chan world pass s).power = s.power ∧ (cutEnd id chan world pass s).boot = s.boot ∧ (cutEnd id chan world pass s).mono = s.mono := by
  unfold cutEnd
  dsimp only
  (repeat' split) <;> simp

@[simp] theorem abortFrame_supply (a : Admitted) :
    (abortFrame a s).power = s.power ∧ (abortFrame a s).boot = s.boot ∧ (abortFrame a s).mono = s.mono := by
  unfold abortFrame fillIdle
  dsimp only
  (repeat' split) <;> simp

@[simp] theorem abortWhere_supply (p : Admitted → Bool) :
    (abortWhere p s).power = s.power ∧ (abortWhere p s).boot = s.boot ∧ (abortWhere p s).mono = s.mono :=
  forEach_supply _ _ (fun a u => abortFrame_supply u a) _

@[simp] theorem replyTo_supply (p : Packet) (st : Status) (ws : List Word) (n : Nat) :
    (replyTo p st ws n s).power = s.power ∧ (replyTo p st ws n s).boot = s.boot ∧ (replyTo p st ws n s).mono = s.mono := by
  unfold replyTo
  dsimp only
  (repeat' split) <;> simp

@[simp] theorem abortSlotOps_supply :
    (abortSlotOps s).power = s.power ∧ (abortSlotOps s).boot = s.boot ∧ (abortSlotOps s).mono = s.mono := by
  refine forEach_supply _ _ (fun w u => ?_) s
  (repeat' split) <;> simp

@[simp] theorem hideLost_supply :
    (hideLost s).power = s.power ∧ (hideLost s).boot = s.boot ∧ (hideLost s).mono = s.mono := by
  refine forEach_supply _ _ (fun e u => ?_) s
  (repeat' split) <;> simp

@[simp] theorem eraseAll_supply :
    (eraseAll s).power = s.power ∧ (eraseAll s).boot = s.boot ∧ (eraseAll s).mono = s.mono := by simp [eraseAll, alarmEmpty]

@[simp] theorem scrapRest_supply :
    (scrapRest s).power = s.power ∧ (scrapRest s).boot = s.boot ∧ (scrapRest s).mono = s.mono := by simp [scrapRest, burnRow]

@[simp] theorem completeScrap_supply :
    (completeScrap s).power = s.power ∧ (completeScrap s).boot = s.boot ∧ (completeScrap s).mono = s.mono := by
  unfold completeScrap
  split <;> simp

end Frames

end Sys2Proof.Machine
end

section
/-! PROOFS. The feeds and the power stage (R508 to R517, R523, R524), the references (R521), boot and reset (R59, R64 to R66, R81). -/

namespace Sys2Proof.Machine

/-! ## Feeds -/

theorem otherFeed_ne {f : Nat} : otherFeed f ≠ f := by
  unfold otherFeed; split <;> omega

theorem otherFeed_lt {f : Nat} : otherFeed f < 2 := by
  unfold otherFeed; split <;> omega

theorem feedAt_updFeed_self {f : Nat} (g : Feed → Feed) (s : State) : feedAt (updFeed f g s) f = g (feedAt s f) := by
  unfold feedAt updFeed; split <;> rfl

theorem feedAt_updFeed_other {f : Nat} (g : Feed → Feed) (s : State) : feedAt (updFeed f g s) (otherFeed f) = feedAt s (otherFeed f) := by
  unfold feedAt updFeed otherFeed; split <;> rfl

/-- What feeds report of themselves is set beside: since when one is good, and which FEED_INVALID stands. -/
def Feed.bare (x : Feed) : Feed := { x with goodSince := none, fault := none }

/-- The power stage without what its feeds report of themselves. -/
def PowerSt.bare (p : PowerSt) : PowerSt := { p with a := p.a.bare, b := p.b.bare }

/-- Nothing but what the feeds report of themselves may differ in the power stage, and the boot, the vault and the clock stand. -/
def SameStage (s t : State) : Prop := t.power.bare = s.power.bare ∧ t.boot = s.boot ∧ t.vault = s.vault ∧ t.mono = s.mono

theorem SameStage.refl (s : State) : SameStage s s := ⟨rfl, rfl, rfl, rfl⟩

theorem SameStage.trans {s t u : State} (h : SameStage s t) (k : SameStage t u) : SameStage s u :=
  ⟨k.1.trans h.1, k.2.1.trans h.2.1, k.2.2.1.trans h.2.2.1, k.2.2.2.trans h.2.2.2⟩

/-- A field of the power stage that the feeds' own reports are no part of. -/
theorem SameStage.power {s t : State} (h : SameStage s t) {α : Type} (g : PowerSt → α) (hg : ∀ p, g p.bare = g p := by exact fun _ => rfl) :
    g t.power = g s.power := by
  rw [← hg t.power, h.1, hg]

/-- A feed keeps all but its own reports. -/
theorem SameStage.feed {s t : State} (h : SameStage s t) (f : Nat) : (feedAt t f).bare = (feedAt s f).bare := by
  unfold feedAt
  split
  · exact congrArg PowerSt.a h.1
  · exact congrArg PowerSt.b h.1

theorem SameStage.valid {s t : State} (h : SameStage s t) (f : Nat) : (feedAt t f).valid = (feedAt s f).valid :=
  show (feedAt t f).bare.valid = (feedAt s f).bare.valid by rw [h.feed]

theorem sameStage_updFeed (f : Nat) (g : Feed → Feed) (s : State) (hg : ∀ x, (g x).bare = x.bare) : SameStage s (updFeed f g s) := by
  refine ⟨?_, by simp, by simp, by simp⟩
  unfold updFeed
  split <;> simp only [PowerSt.bare, hg]

theorem sameStage_trackReturn (s : State) : SameStage s (trackReturn s) := by
  refine ⟨?_, rfl, rfl, rfl⟩
  simp only [trackReturn, PowerSt.bare]
  congr 1
  · split <;> rfl
  · split <;> rfl

theorem sameStage_raise (cplx unit inst res code cls : Nat) (d : Word) (s : State) : SameStage s (raise cplx unit inst res code cls d s) := by
  simp [SameStage]

theorem sameStage_lower (cplx unit inst res code cls : Nat) (s : State) : SameStage s (lower cplx unit inst res code cls s) := by
  simp [SameStage]

theorem sameStage_feedFault (f : Nat) (s : State) : SameStage s (feedFault f s) := by
  unfold feedFault
  split
  · refine SameStage.trans ?_ (sameStage_raise ..)
    exact sameStage_updFeed f _ s fun _ => rfl
  · split
    · refine SameStage.trans ?_ (sameStage_lower ..)
      exact sameStage_updFeed f _ s fun _ => rfl
    · exact .refl s

theorem sameStage_feedFaults (s : State) : SameStage s (feedFaults s) :=
  (sameStage_feedFault 0 s).trans (sameStage_feedFault 1 _)

theorem feedAt_raise (cplx unit inst res code cls : Nat) (d : Word) (s : State) (f : Nat) :
    feedAt (raise cplx unit inst res code cls d s) f = feedAt s f := by
  simp [feedAt]

theorem feedAt_lower (cplx unit inst res code cls : Nat) (s : State) (f : Nat) :
    feedAt (lower cplx unit inst res code cls s) f = feedAt s f := by
  simp [feedAt]

/-- The other feed's report leaves a feed as it is. -/
theorem feedAt_feedFault_other {f : Nat} (s : State) : feedAt (feedFault f s) (otherFeed f) = feedAt s (otherFeed f) := by
  unfold feedFault
  split
  · rw [feedAt_raise, feedAt_updFeed_other]
  · split
    · rw [feedAt_lower, feedAt_updFeed_other]
    · rfl

/-- A feed that is missing has its FEED_INVALID raised (Table 18.11). -/
theorem feedFault_isSome {f : Nat} {s : State} (h : feedMissing s f = true) : (feedAt (feedFault f s) f).fault.isSome = true := by
  have hv : (feedAt s f).valid = false := by
    simp only [feedMissing, Bool.and_eq_true, Bool.not_eq_true'] at h
    exact h.2
  cases hf : (feedAt s f).fault with
  | none => simp [feedFault, h, hf, feedAt_raise, feedAt_updFeed_self]
  | some c => simp [feedFault, hv, hf]

theorem feedMissing_feedFault (f g : Nat) (s : State) : feedMissing (feedFault f s) g = feedMissing s g := by
  have h := sameStage_feedFault f s
  unfold feedMissing
  rw [h.valid, h.power PowerSt.stage, h.power PowerSt.active]

theorem feedFaults_isSome {f : Nat} {s : State} (hf : f < 2) (h : feedMissing s f = true) :
    (feedAt (feedFaults s) f).fault.isSome = true := by
  obtain rfl | rfl : f = 0 ∨ f = 1 := by omega
  · exact (congrArg (fun x => x.fault.isSome) (feedAt_feedFault_other (f := 1) (feedFault 0 s))).trans (feedFault_isSome h)
  · exact feedFault_isSome (by rw [feedMissing_feedFault, h])

/-- A switch-over moves to the feed, counts and takes its instant; the feeds stand (R509, R513). -/
theorem switchOver_power (f : Nat) (s : State) : ∃ fl rec, (switchOver f s).power = { s.power with
    active := f, switchovers := min 0xFFFF (s.power.switchovers + 1), lastSwitch := s.mono, flap := fl, recent := rec } := by
  unfold switchOver
  dsimp only
  split
  · exact ⟨_, _, by rw [raise_power]; simp only [raise_power]; rfl⟩
  · exact ⟨_, _, by rw [raise_power]; rfl⟩

theorem switchOver_boot (f : Nat) (s : State) : (switchOver f s).boot = s.boot ∧ (switchOver f s).vault = s.vault := by
  unfold switchOver
  dsimp only
  split <;> simp

theorem feedAt_switchOver (g f : Nat) (s : State) : feedAt (switchOver g s) f = feedAt s f := by
  obtain ⟨fl, rec, h⟩ := switchOver_power g s
  unfold feedAt
  rw [h]

/-! ### A feed becomes valid -/

/-- A feed that has become valid, before the stage moves. -/
def validated (f volts : Nat) (s : State) : State :=
  trackReturn (updFeed f (fun x => { x with volts := volts, valid := true, overVolt := false }) s)

theorem updFeed_fields (f : Nat) (g : Feed → Feed) (s : State) : (updFeed f g s).power.stage = s.power.stage ∧
    (updFeed f g s).power.active = s.power.active ∧ (updFeed f g s).power.entered = s.power.entered ∧
    (updFeed f g s).power.brownouts = s.power.brownouts ∧ (updFeed f g s).power.switchovers = s.power.switchovers := by
  unfold updFeed
  split <;> exact ⟨rfl, rfl, rfl, rfl, rfl⟩

/-- The FEED_VALIDATED of a feed that may validate takes effect. -/
theorem exec_feedValidated {f volts : Nat} {s : State} (hf : f < 2) (h1 : 880 < volts) (h2 : volts < 6150)
    (h3 : (feedAt s f).overVolt = true → volts < 6100) (hex : (feedAt s f).excluded = false) (hout : (feedAt s f).outSince = none) :
    exec (.feedValidated f volts) s = .next (feedValid f volts s) := by
  have hr : feedInRange (feedAt s f) volts = true := by
    cases ho : (feedAt s f).overVolt
    · simp [feedInRange, ho, h1, h2]
    · simp [feedInRange, ho, h1, h3 ho]
  show onObject _ (whenever _ _ s) = _
  rw [onObject_of (by simp [hf]), whenever_of (by simp [hr, hex, hout])]

theorem feedGained_off {f volts : Nat} {s : State} (hst : s.power.stage = .off) (ho : (feedAt s (otherFeed f)).valid = false) :
    feedGained f volts s = softStart f (validated f volts s) := by
  have hs : (validated f volts s).power.stage = .off :=
    ((sameStage_trackReturn _).power PowerSt.stage).trans ((updFeed_fields f _ s).1.trans hst)
  have hv : (feedAt (validated f volts s) (otherFeed f)).valid = false :=
    ((sameStage_trackReturn _).valid _).trans ((congrArg Feed.valid (feedAt_updFeed_other _ s)).trans ho)
  show (match (validated f volts s).power.stage with | .off => _ | .softStart => _ | .run => _ | .ride => _) = _
  rw [hs]
  show softStart (if (feedAt (validated f volts s) (otherFeed f)).valid then _ else f) (validated f volts s) = _
  rw [hv]
  rfl

/-- The state in which a recovery within 20 µs ends RIDE (R510). -/
def rideEnded (f : Nat) (s : State) : State :=
  { s with power := { s.power with stage := .run, active := f, brownouts := satAdd 0xFFFF s.power.brownouts 1 },
           vault := { s.vault with under := false } }

theorem feedGained_ride {f volts : Nat} {s : State} (hst : s.power.stage = .ride) (ht : s.mono ≤ s.power.entered + 20 * us) :
    feedGained f volts s = completeScrap (raise 0x0E 0 0 0 0x0E15 0
      (wd (((validated f volts s).mono - (validated f volts s).power.entered) / 1000)) (rideEnded f (validated f volts s))) := by
  have hs : (validated f volts s).power.stage = .ride :=
    ((sameStage_trackReturn _).power PowerSt.stage).trans ((updFeed_fields f _ s).1.trans hst)
  have he : (validated f volts s).power.entered = s.power.entered :=
    ((sameStage_trackReturn _).power PowerSt.entered).trans (updFeed_fields f _ s).2.2.1
  have hm : (validated f volts s).mono = s.mono := (sameStage_trackReturn _).2.2.2.trans (updFeed_mono ..)
  show (match (validated f volts s).power.stage with | .off => _ | .softStart => _ | .run => _ | .ride => _) = _
  rw [hs]
  show (if (validated f volts s).mono ≤ (validated f volts s).power.entered + 20 * us then _ else _) = _
  rw [if_pos (by rw [hm, he]; exact ht)]
  rfl

theorem validated_feed (f volts : Nat) (s : State) : (feedAt (validated f volts s) f).valid = true ∧
    (feedAt (validated f volts s) f).volts = volts := by
  have h := (sameStage_trackReturn (updFeed f (fun x => { x with volts := volts, valid := true, overVolt := false }) s)).feed f
  rw [feedAt_updFeed_self] at h
  exact ⟨congrArg Feed.valid h, congrArg Feed.volts h⟩

/-- Completing a scrap leaves the under-voltage mark. -/
theorem completeScrap_under (s : State) : (completeScrap s).vault.under = s.vault.under := by
  have h := storeKept_hideLost (abortSlotOps (abortWhere (fun _ => true) s))
  unfold completeScrap
  split
  · show (hideLost (abortSlotOps (abortWhere (fun _ => true) s))).vault.under = _
    rw [h.1, (abortSlotOps_store _).1, (abortWhere_store _ s).1]
  · rfl

/-! ### A feed becomes invalid -/

/-- A feed that has become invalid, before the stage moves. -/
def invalidated (f volts : Nat) (s : State) : State := trackReturn (updFeed f (fun x => { x with volts := volts, valid := false }) s)

theorem invalidated_feed (f volts : Nat) (s : State) :
    (feedAt (invalidated f volts s) f).bare = { (feedAt s f).bare with volts := volts, valid := false } := by
  rw [invalidated, (sameStage_trackReturn _).feed f, feedAt_updFeed_self]
  rfl

theorem invalidated_other (f volts : Nat) (s : State) :
    (feedAt (invalidated f volts s) (otherFeed f)).valid = (feedAt s (otherFeed f)).valid := by
  rw [invalidated, (sameStage_trackReturn _).valid, feedAt_updFeed_other]

theorem invalidated_fields (f volts : Nat) (s : State) : (invalidated f volts s).power.stage = s.power.stage ∧
    (invalidated f volts s).power.active = s.power.active ∧ (invalidated f volts s).power.switchovers = s.power.switchovers ∧
    (invalidated f volts s).mono = s.mono := by
  have h := sameStage_trackReturn (updFeed f (fun x => { x with volts := volts, valid := false }) s)
  have k := updFeed_fields f (fun x => { x with volts := volts, valid := false }) s
  exact ⟨(h.power PowerSt.stage).trans k.1, (h.power PowerSt.active).trans k.2.1, (h.power PowerSt.switchovers).trans k.2.2.2.2,
    h.2.2.2.trans (updFeed_mono ..)⟩

/-- What the loss of a feed in RUN brings: the other feed serves, or RIDE with the under-voltage mark (R510). -/
theorem feedLost_run {f volts : Nat} {s : State} (hst : s.power.stage = .run) : feedLost f volts s =
    if (feedAt s (otherFeed f)).valid then
      (if s.power.active = f then switchOver (otherFeed f) (invalidated f volts s) else invalidated f volts s)
    else { invalidated f volts s with
      power := { (invalidated f volts s).power with stage := .ride, entered := s.mono }
      vault := { (invalidated f volts s).vault with under := true } } := by
  obtain ⟨hs, ha, -, hm⟩ := invalidated_fields f volts s
  rw [← hm, ← ha, ← invalidated_other f volts s]
  show (match (invalidated f volts s).power.stage with | .off => _ | .softStart => _ | .run => _ | .ride => _) = _
  rw [hs, hst]
  rfl

theorem feedLost_ride {f volts : Nat} {s : State} (hst : s.power.stage = .ride) : feedLost f volts s = invalidated f volts s := by
  obtain ⟨hs, -⟩ := invalidated_fields f volts s
  show (match (invalidated f volts s).power.stage with | .off => _ | .softStart => _ | .run => _ | .ride => _) = _
  rw [hs, hst]
  rfl

/-- In RUN and in RIDE a feed that becomes invalid keeps all but its voltage and validity. -/
theorem feedInvalid_feed {f volts : Nat} {s : State} (hst : s.power.stage = .run ∨ s.power.stage = .ride) :
    (feedAt (feedInvalid f volts s) f).bare = { (feedAt s f).bare with volts := volts, valid := false } := by
  rw [feedInvalid, (sameStage_feedFaults _).feed, ← invalidated_feed]
  rcases hst with hst | hst
  · rw [feedLost_run hst]
    split
    · split
      · rw [feedAt_switchOver]
      · rfl
    · rfl
  · rw [feedLost_ride hst]

/-- A feed lost in RUN while the other is valid: the module stays in RUN on a valid feed, and FEED_INVALID is raised (R509, Table 18.11). -/
theorem feedInvalid_served {f volts : Nat} {s : State} (hf : f < 2) (hst : s.power.stage = .run)
    (ho : (feedAt s (otherFeed f)).valid = true) :
    (feedAt (feedInvalid f volts s) f).fault.isSome = true ∧ (feedInvalid f volts s).power.stage = .run ∧
      (feedInvalid f volts s).power.active = (if s.power.active = f then otherFeed f else s.power.active) ∧
      (feedInvalid f volts s).power.switchovers =
        (if s.power.active = f then min 0xFFFF (s.power.switchovers + 1) else s.power.switchovers) := by
  have hk := sameStage_feedFaults (feedLost f volts s)
  have hv : (feedAt (feedLost f volts s) f).valid = false := by
    have h := feedInvalid_feed (f := f) (volts := volts) (s := s) (.inl hst)
    rw [feedInvalid, hk.feed] at h
    exact congrArg Feed.valid h
  obtain ⟨hs, ha, hw, -⟩ := invalidated_fields f volts s
  have hlost : (feedLost f volts s).power.stage = .run ∧
      (feedLost f volts s).power.active = (if s.power.active = f then otherFeed f else s.power.active) ∧
      (feedLost f volts s).power.switchovers =
        (if s.power.active = f then min 0xFFFF (s.power.switchovers + 1) else s.power.switchovers) := by
    rw [feedLost_run hst, if_pos ho]
    split
    · obtain ⟨fl, rec, hp⟩ := switchOver_power (otherFeed f) (invalidated f volts s)
      rw [hp, ← hw]
      exact ⟨hs.trans hst, rfl, rfl⟩
    · exact ⟨hs.trans hst, ha, hw⟩
  have hactive : (feedLost f volts s).power.active ≠ f := by
    rw [hlost.2.1]
    split
    · exact otherFeed_ne
    · assumption
  refine ⟨feedFaults_isSome hf ?_, (hk.power PowerSt.stage).trans hlost.1, (hk.power PowerSt.active).trans hlost.2.1,
    (hk.power PowerSt.switchovers).trans hlost.2.2⟩
  simp [feedMissing, hlost.1, hactive, hv]

theorem feedInvalid_rides {f volts : Nat} {s : State} (hst : s.power.stage = .run) (ho : (feedAt s (otherFeed f)).valid = false) :
    (feedInvalid f volts s).power.stage = .ride ∧ (feedInvalid f volts s).power.entered = s.mono ∧
      (feedInvalid f volts s).vault.under = true := by
  have hk := sameStage_feedFaults (feedLost f volts s)
  rw [feedInvalid, hk.power PowerSt.stage, hk.power PowerSt.entered, hk.2.2.1, feedLost_run hst, ho]
  exact ⟨rfl, rfl, rfl⟩

/-- Settles O8: a feed's reports follow the stage, which moves as Table 18.4 states. -/
theorem feedsStartSwitchAndExclude : Obligations.FeedsStartSwitchAndExclude := by
  unfold Obligations.FeedsStartSwitchAndExclude
  refine ⟨fun f volts s hf h1 h2 h3 hex hout hst ho => ?_, fun f volts s hf hov hv => ?_,
    fun f volts s hf h1 h2 h3 hex hout hst ht => ?_, fun f volts cause s hf hval hc hst => ?_, fun a b s => rfl, fun s h => ?_,
    fun s hfl ht => ?_, fun f s hf hst => ?_, fun f at_ s hf hout ht => ?_, fun f s hf hst => ?_⟩
  · have hk := sameStage_feedFaults (softStart f (validated f volts s))
    have hfeed : (feedAt (feedFaults (softStart f (validated f volts s))) f).bare = (feedAt (validated f volts s) f).bare := hk.feed f
    have hm : (validated f volts s).mono = s.mono := (sameStage_trackReturn _).2.2.2.trans (updFeed_mono ..)
    have hb : (validated f volts s).boot = s.boot := (sameStage_trackReturn _).2.1.trans (updFeed_boot ..)
    obtain ⟨hvalid, hvolts⟩ := validated_feed f volts s
    refine ⟨feedFaults (softStart f (validated f volts s)), ?_, (congrArg Feed.valid hfeed).trans hvalid,
      (congrArg Feed.volts hfeed).trans hvolts, hk.power PowerSt.stage, hk.power PowerSt.active,
      (hk.power PowerSt.entered).trans hm, hk.power PowerSt.switchovers, ?_⟩
    · rw [exec_feedValidated hf h1 h2 h3 hex hout, feedValid, feedGained_off hst ho]
    · rw [hk.2.1, ← hm, ← hb]
      rfl
  · have hr : feedInRange (feedAt s f) volts = false := by simp [feedInRange, hov, hv]
    show onObject _ (whenever _ _ s) = _
    rw [onObject_of (by simp [hf]), whenever_of_false (by simp [hr])]
  · have hk := sameStage_feedFaults (feedGained f volts s)
    have hp : (feedGained f volts s).power = (rideEnded f (validated f volts s)).power := by
      rw [feedGained_ride hst ht, (completeScrap_supply _).1, raise_power]
    have hfeed : (feedAt (feedGained f volts s) f) = feedAt (validated f volts s) f := by
      unfold feedAt
      rw [hp]
      rfl
    have hbrown : (validated f volts s).power.brownouts = s.power.brownouts :=
      ((sameStage_trackReturn _).power PowerSt.brownouts).trans (updFeed_fields f _ s).2.2.2.1
    refine ⟨_, exec_feedValidated hf h1 h2 h3 hex hout, ?_, (hk.power PowerSt.stage).trans (by rw [hp]; rfl),
      (hk.power PowerSt.active).trans (by rw [hp]; rfl), (hk.power PowerSt.brownouts).trans (by rw [hp, ← hbrown]; rfl), ?_⟩
    · rw [feedValid, hk.valid, hfeed]
      exact (validated_feed f volts s).1
    · rw [feedValid, hk.2.2.1, feedGained_ride hst ht, completeScrap_under, raise_vault]
      rfl
  · have hfields := updFeed_fields f (fun x => { x with overVolt := decide (cause = 2) }) s
    have hst' := hfields.1.trans hst
    have hoth := feedAt_updFeed_other (f := f) (fun x => { x with overVolt := decide (cause = 2) }) s
    have hfeed := feedInvalid_feed (f := f) (volts := volts) (.inl hst')
    rw [feedAt_updFeed_self] at hfeed
    refine ⟨feedInvalid f volts (updFeed f (fun x => { x with overVolt := decide (cause = 2) }) s), ?_, congrArg Feed.valid hfeed,
      congrArg Feed.volts hfeed, congrArg Feed.overVolt hfeed, ?_⟩
    · show onObject _ (whenever _ _ s) = _
      rw [onObject_of (by simp [hf]), whenever_of (by simpa [hval] using hc)]
    · split
      next ho =>
        have h := feedInvalid_served (volts := volts) hf hst' (by rw [hoth, ho])
        rwa [hfields.2.1, hfields.2.2.2.2] at h
      next ho =>
        have h := feedInvalid_rides (f := f) (volts := volts) hst' (by rw [hoth]; simpa using ho)
        rwa [updFeed_mono] at h
  · obtain ⟨fl, rec, hp⟩ := switchOver_power (prefNow s) s
    refine ⟨switchOver (prefNow s) s, congrArg _ (whenever_of h _ _), ?_, ?_, ?_⟩
    all_goals rw [hp]
  · exact congrArg _ (whenever_of (by simp [hfl, passed, ht]) _ _)
  · have hst' : (updFeed f (fun x => { x with outSince := some s.mono }) (raise 0x0E 0 0 f 0x0E12 1 (wd f) s)).power.stage = .run ∨
        (updFeed f (fun x => { x with outSince := some s.mono }) (raise 0x0E 0 0 f 0x0E12 1 (wd f) s)).power.stage = .ride := by
      rw [(updFeed_fields f _ _).1, raise_power]
      exact hst
    have hfeed := feedInvalid_feed (f := f) (volts := (feedAt s f).volts) hst'
    rw [feedAt_updFeed_self] at hfeed
    refine ⟨_, (onObject_of (by simp [hf]) _).trans (congrArg _ (whenever_of (by simpa using hst) _ _)),
      congrArg Feed.valid hfeed, congrArg Feed.outSince hfeed⟩
  · show onObject _ (whenever _ _ s) = _
    rw [onObject_of (by simp [hf]), whenever_of (by simp [hout, passed, ht])]
  · have hst' : (updFeed f (fun x => { x with excluded := true }) (raise 0x0E 0 0 f 0x0E13 1 (wd f) s)).power.stage = .run := by
      rw [(updFeed_fields f _ _).1, raise_power, hst]
    have hfeed := feedInvalid_feed (f := f) (volts := (feedAt s f).volts) (.inl hst')
    rw [feedAt_updFeed_self] at hfeed
    exact ⟨_, onObject_of (by simp [hf]) _, congrArg Feed.valid hfeed, congrArg Feed.excluded hfeed⟩

end Sys2Proof.Machine
end

section
/-! PROOFS. The power stage and the pins (R488, R510, R514, R515, R517, R523, R524). -/

namespace Sys2Proof.Machine

/-! ## What resets of pins and standing faults leave unchanged -/

/-- A loop whose every step alters only the log of outputs alters only the log of outputs. -/
theorem forBelow_out (f : Nat → State → State) (h : ∀ i u, ∃ o, f i u = { u with out := o }) (n : Nat) (s : State) :
    ∃ o, forBelow n f s = { s with out := o } := by
  unfold forBelow
  induction List.range n generalizing s with
  | nil => exact ⟨s.out, rfl⟩
  | cons i l ih =>
    obtain ⟨o, ho⟩ := h i s
    obtain ⟨o', ho'⟩ := ih (f i s)
    exact ⟨o', by rw [List.foldl_cons, ho', ho]⟩

/-- The reset states of the pins are outputs only. -/
theorem pinsReset_out (s : State) : ∃ o, pinsReset s = { s with out := o } :=
  forBelow_out _ (fun _ _ => ⟨_, rfl⟩) 64 (emit (.pin "ALERT_L" 0 1) s)

/-- The unpowered states of the pins are outputs only. -/
theorem pinsUnpowered_out (s : State) : ∃ o, pinsUnpowered s = { s with out := o } :=
  pinsReset_out (emit (.pin "PWR_OK" 0 0) s)

@[simp] theorem reportIf_power (on : Bool) (i r c : Nat) (d : Word) (s : State) : (reportIf on i r c d s).power = s.power := by
  unfold reportIf; split <;> simp

@[simp] theorem reportIf_boot (on : Bool) (i r c : Nat) (d : Word) (s : State) : (reportIf on i r c d s).boot = s.boot := by
  unfold reportIf; split <;> simp

@[simp] theorem standingFaults_power (s : State) : (standingFaults s).power = s.power := by
  unfold standingFaults
  rw [forBelow_keeps State.power 4 _ (fun _ _ => reportIf_power ..)]
  simp

@[simp] theorem standingFaults_boot (s : State) : (standingFaults s).boot = s.boot := by
  unfold standingFaults
  rw [forBelow_keeps State.boot 4 _ (fun _ _ => reportIf_boot ..)]
  simp

/-- A module reset leaves PERST_L as it is. -/
theorem moduleReset_perstLow (cause : Nat) (s : State) : (moduleReset cause s).power.perstLow = s.power.perstLow := by
  unfold moduleReset
  obtain ⟨o, ho⟩ := pinsReset_out { keepStored false s with
    boot := { (keepStored false s).boot with cause := cause, phase := if s.power.testMode then .off else .rom },
    power := { (keepStored false s).power with alert := false } }
  rw [standingFaults_power, ho]
  rfl

/-- While PERST_L is low the PCIe link does not train. -/
theorem pcieUp_of_perstLow {s : State} (h : s.power.perstLow = true) : pcieUp s = false := by
  simp [pcieUp, h]

theorem perstAssert_perstLow (s : State) : (perstAssert s).power.perstLow = true := by
  unfold perstAssert
  split
  · exact moduleReset_perstLow 2 _
  · rfl

/-! ## Soft start, ride-through and shutdown -/

/-- Choosing a feed leaves the stage, PWR_OK, the boot and the vault as they are. -/
theorem chooseFeed_keeps (s : State) : (chooseFeed s).power.stage = s.power.stage ∧ (chooseFeed s).power.pwrOk = s.power.pwrOk ∧
    (chooseFeed s).boot = s.boot ∧ (chooseFeed s).vault = s.vault := by
  unfold chooseFeed
  split
  · obtain ⟨fl, rec, hp⟩ := switchOver_power (feedAtOnce s) s
    rw [hp]
    exact ⟨rfl, rfl, switchOver_boot _ s⟩
  · exact ⟨rfl, rfl, rfl, rfl⟩

/-- What the end of soft start chooses among the feeds from: RUN, with the operating seconds resumed. -/
def softStarted (s : State) : State :=
  { s with power := { s.power with stage := .run, entered := s.mono, pwrOk := true },
           vault := { s.vault with under := false },
           boot := { s.boot with phase := if s.power.testMode then .off else .rom },
           evr := { s.evr with opSec := resumedSeconds s, unaccounted := !s.evr.clean } }

/-- The end of soft start: RUN with PWR_OK released, the boot in the ROM's row. -/
theorem softStartDone_eq (s : State) : ∃ t, softStartDone s = emit (.pin "PWR_OK" 0 1) t ∧ t.power.stage = .run ∧ t.power.pwrOk = true ∧
    t.boot = { s.boot with phase := if s.power.testMode then .off else .rom } ∧ t.vault = { s.vault with under := false } := by
  have hf := sameStage_feedFaults (chooseFeed (softStarted s))
  obtain ⟨hs, hp, hb, hv⟩ := chooseFeed_keeps (softStarted s)
  exact ⟨feedFaults (chooseFeed (softStarted s)), rfl, (hf.power (·.stage)).trans hs, (hf.power (·.pwrOk)).trans hp,
    hf.2.1.trans hb, hf.2.2.1.trans hv⟩

/-- After a power-down what is stored stands, and the rest is as after reset. -/
theorem powerDown_keepsStored (s : State) : (powerDown s).power.stage = .off ∧ (powerDown s).power.pwrOk = false ∧
    (powerDown s).boot = (keepStored true s).boot ∧ (powerDown s).host = {} ∧ (powerDown s).mem = {} ∧
    (powerDown s).pon = {} ∧ (powerDown s).tm = {} ∧ (powerDown s).rules = {} ∧ (powerDown s).evr.store = s.evr.store ∧
    (powerDown s).evr.queue = [] ∧ (powerDown s).vault.life = s.vault.life := by
  unfold powerDown
  generalize hr : keepStored true s = r
  dsimp only
  obtain ⟨o, ho⟩ := pinsUnpowered_out { r with
    power := { stage := .off, a := { s.power.a with excluded := false, outSince := none, goodSince := none, fault := none },
               b := { s.power.b with excluded := false, outSince := none, goodSince := none, fault := none },
               seated := s.power.seated, perstLow := s.power.perstLow, testMode := s.power.testMode, refs := s.power.refs,
               tjMax := s.power.tjMax, tjSensor := s.power.tjSensor, tCase := s.power.tCase, entered := s.mono,
               shutdown := s.power.shutdown }
    evr := { r.evr with unaccounted := !r.evr.clean } }
  rw [ho]
  subst hr
  exact ⟨rfl, rfl, rfl, rfl, rfl, rfl, rfl, rfl, rfl, rfl, rfl⟩

/-- The records of a thermal shutdown: what is kept but for the record and its flush. -/
def shutdownRecorded (rail : Nat) (tj : Int) (s : State) : State :=
  flushRecords (recordEv 0x0002 0x0E17 0x0E 0 0 0x0100
    [pack [(3, 2, 30), (1, 1, 29), (1, 1, 26), (0x0E, 8, 16)], 0, pack [(0x0E17, 16, 16), (1, 16, 0)], wd s.evr.nextSeq,
     lo32 (tcSec s), wd (tcNs s), lo32 (tcSec s), pack [(rail, 16, 16), (unsigned 16 tj, 16, 0)]]
    { s with power := { s.power with tjMax := tj, tjSensor := rail, shutdown := true } })

@[simp] theorem flushRecords_power (s : State) : (flushRecords s).power = s.power := rfl
@[simp] theorem flushRecords_boot (s : State) : (flushRecords s).boot = s.boot := rfl
@[simp] theorem flushRecords_vault (s : State) : (flushRecords s).vault = s.vault := rfl
@[simp] theorem flushRecords_mono (s : State) : (flushRecords s).mono = s.mono := rfl

/-- A thermal shutdown keeps what is stored, with the sensor that caused it. -/
theorem thermalShutdown_keepsStored (rail : Nat) (tj : Int) (s : State) : (thermalShutdown rail tj s).power =
      { s.power with tjMax := tj, tjSensor := rail, shutdown := true, pwrOk := false, alert := false } ∧
    (thermalShutdown rail tj s).boot = (keepStored false s).boot ∧ (thermalShutdown rail tj s).host = {} ∧
    (thermalShutdown rail tj s).mem = {} ∧ (thermalShutdown rail tj s).pon = {} ∧ (thermalShutdown rail tj s).tm = {} := by
  have hu : thermalShutdown rail tj s = pinsUnpowered { keepStored false (shutdownRecorded rail tj s) with
    power := { (shutdownRecorded rail tj s).power with pwrOk := false, alert := false } } := rfl
  have hp : (shutdownRecorded rail tj s).power = { s.power with tjMax := tj, tjSensor := rail, shutdown := true } := by
    simp [shutdownRecorded]
  have hb : (shutdownRecorded rail tj s).boot = s.boot := by simp [shutdownRecorded]
  have hv : (shutdownRecorded rail tj s).vault = s.vault := by simp [shutdownRecorded]
  have hm : (shutdownRecorded rail tj s).mono = s.mono := by simp [shutdownRecorded]
  obtain ⟨o, ho⟩ := pinsUnpowered_out { keepStored false (shutdownRecorded rail tj s) with
    power := { (shutdownRecorded rail tj s).power with pwrOk := false, alert := false } }
  rw [hu, ho]
  refine ⟨?_, ?_, rfl, rfl, rfl, rfl⟩
  · show ({ (shutdownRecorded rail tj s).power with pwrOk := false, alert := false } : PowerSt) = _
    rw [hp]
  · show (keepStored false (shutdownRecorded rail tj s)).boot = _
    simp only [keepStored, hb, hv, hm]

/-- The PCIe link after PERST_L went high: what the boot timeline and PCIE_REFCLK allow. -/
theorem pcieUp_perstLDeassert (s t : State) (ht : exec .perstLDeassert s = .next t) : pcieUp t = true ↔
    (s.boot.phase = .rom ∨ s.boot.phase = .firmware ∨ s.boot.phase = .up) ∧ 100 * ms ≤ bootTime t ∧
      s.power.shutdown = false ∧ (refAt s 4).valid = true := by
  cases ht
  rw [pcieUp_iff]
  simp [refAt]

/-- The samples that come with a POWER_STATUS. -/
theorem takeSamples_of_length {l : List Nat} (h : l.length = 3) (s : State) : takeSamples l s = { s with power := { s.power with
      a := { s.power.a with amps := l.getD 0 0 }, b := { s.power.b with amps := l.getD 1 0 },
      inputPower := l.getD 2 0, peak := max s.power.peak (l.getD 2 0) } } := by
  match l, h with
  | [_, _, _], _ => rfl

/-- Settles O9: soft start, ride-through and the shutdowns by what they keep, the pins and the commands by their definitions. -/
theorem powerStageRunsAndReports : Obligations.PowerStageRunsAndReports := by
  unfold Obligations.PowerStageRunsAndReports
  refine ⟨fun s hst ht => ?_, fun s hst ht => ?_, fun rail tj tc s hr => ?_, fun rail tj s hr ht hs => ?_, fun ns s hns => ⟨?_, ?_⟩,
    fun s => ?_, fun s => ?_, fun s h => ?_, fun s h => ?_, ?_, ?_⟩
  · obtain ⟨t, heq, hpost⟩ := softStartDone_eq s
    refine ⟨t, ?_, hpost⟩
    rw [← heq]
    exact congrArg _ (whenever_of (by simp [hst, passed, ht]) softStartDone s)
  · obtain ⟨h1, h2, hb, h3, h4, h5, h6, h7, h8, h9, h10⟩ := powerDown_keepsStored s
    have hx : exec .rideExpiry s = .next (powerDown s) := by
      simp [exec, execRideExpiry, whenever, hst, passed, ht]
    refine ⟨powerDown s, hx, h1, h2, ?_, ?_, ?_, h3, h4, h5, h6, h7, h8, h9, h10⟩
    all_goals rw [hb]; rfl
  · show exec (.tempHigh rail tj tc) s = .next _
    rw [show exec (.tempHigh rail tj tc) s = .next (tempHigh rail tj tc s) from onObject_of (by simp [hr]) _]
    simp [tempHigh, tempDetail]
  · obtain ⟨hp, hb, h3, h4, h5, h6⟩ := thermalShutdown_keepsStored rail tj s
    refine ⟨thermalShutdown rail tj s, ?_, ?_, ?_, ?_, ?_, ?_, ?_, ?_, ?_, ?_, ?_, h3, h4, h5, h6⟩
    · exact (onObject_of (by simp [hr]) _).trans (congrArg _ (whenever_of (by simp [ht, hs]) _ s))
    · rw [hp]
    · rw [hp]
    · rw [hp]
    · rw [hp]
    all_goals rw [hb]; rfl
  · simp [exec, execPerstLAssert, whenever, hns, perstAssert]
  · exact ⟨perstAssert s, congrArg _ (whenever_of (by simp [hns]) perstAssert s), pcieUp_of_perstLow (perstAssert_perstLow s)⟩
  · simp [exec, execPerstLDeassert]
  · exact ⟨_, rfl, pcieUp_perstLDeassert s _ rfl⟩
  · simp [exec, execCardSeated, seat, h, b2n, wd]
  · simp [exec, execCardUnseated, seat, h, b2n, wd]
  · refine endsOk (fun _ _ => rfl) (fun c f _ h => ?_) (fun _ _ _ => by simp)
    obtain ⟨hp, hlo, hhi⟩ := h
    show runFeedConfig c f = _
    unfold runFeedConfig
    rw [refuseIf_of_false]
    · simp
    · simp [hp, hlo, hhi]
  · refine endsOk (fun _ _ => rfl) (fun c f _ h => ?_) (fun _ _ _ => by simp [powerWords])
    show HRes.done { takeSamples c.answers f with power := { (takeSamples c.answers f).power with peak := 0 } }
      (powerWords (takeSamples c.answers f)) = _
    rw [takeSamples_of_length h]

end Sys2Proof.Machine
end

section
/-! PROOFS. What the lanes, the sides and the selector leave unchanged: a move of a lane alters the link complex, what its defects and
the replies of its scans write, and nothing else. -/

namespace Sys2Proof.Machine

/-- A loop keeps what each of its rounds keeps. -/
theorem forEach_keeps {α β : Type} (g : State → β) (l : List α) (f : α → State → State) (h : ∀ a u, g (f a u) = g u) (s : State) :
    g (forEach l f s) = g s := by
  unfold forEach
  induction l generalizing s with
  | nil => rfl
  | cons a r ih => rw [List.foldl_cons, ih, h]

/-- A state without the link complex and without what reports and replies write. -/
def offLink (s : State) : State := { s with out := [], host := {}, epoch := {}, flt := {}, evr := {}, ctr := {}, link := {} }

/-- What two states have in common beside the link. -/
theorem fields_of_offLink {s t : State} (h : offLink s = offLink t) : s.boot = t.boot ∧ s.mono = t.mono ∧ s.power = t.power :=
  ⟨congrArg (fun u => u.boot) h, congrArg (fun u => u.mono) h, congrArg (fun u => u.power) h⟩

section Frames
variable (s : State)

@[simp] theorem offLink_link (l : LinkSt) : offLink { s with link := l } = offLink s := rfl
@[simp] theorem offLink_updSide (i : Nat) (f : Side → Side) : offLink (updSide i f s) = offLink s := by unfold updSide; split <;> rfl
@[simp] theorem offLink_updLane (i : Nat) (f : Lane → Lane) : offLink (updLane i f s) = offLink s := rfl
@[simp] theorem offLink_updSel (f : Selector → Selector) : offLink (updSel f s) = offLink s := rfl
@[simp] theorem offLink_updPair (i : Nat) (f : Pair → Pair) : offLink (updPair i f s) = offLink s := rfl
@[simp] theorem offLink_queueCells (i : Nat) (x : TxFrame) : offLink (queueCells i x s) = offLink s := by simp [offLink]
@[simp] theorem offLink_bumpBy (k : CKey) (n : Nat) : offLink (bumpBy k n s) = offLink s := by simp [offLink]

@[simp] theorem offLink_raise (cplx unit inst res code cls : Nat) (d : Word) :
    offLink (raise cplx unit inst res code cls d s) = offLink s := by simp [offLink]

@[simp] theorem offLink_lower (cplx unit inst res code cls : Nat) : offLink (lower cplx unit inst res code cls s) = offLink s := by
  simp [offLink]

@[simp] theorem offLink_recordEv (typ code cplx unit inst world : Nat) (d : List Word) :
    offLink (recordEv typ code cplx unit inst world d s) = offLink s := by simp [offLink]

@[simp] theorem offLink_postReply (q : Nat) (r : Reply) : offLink (postReply q r s) = offLink s := by simp [offLink]

@[simp] theorem offLink_emit (o : Out) : offLink (emit o s) = offLink s := rfl

@[simp] theorem offLink_replyTo (p : Packet) (st : Status) (ws : List Word) (n : Nat) : offLink (replyTo p st ws n s) = offLink s := by
  unfold replyTo
  dsimp only
  (repeat' split) <;> simp

@[simp] theorem offLink_plaitDefect (i k c : Nat) (v : Bool) : offLink (plaitDefect i k c v s) = offLink s := by
  unfold plaitDefect; split <;> simp

@[simp] theorem offLink_setLoa (i : Nat) (v : Bool) : offLink (setLoa i v s) = offLink s := by unfold setLoa; split <;> simp

@[simp] theorem offLink_setBoth (v : Bool) : offLink (setBoth v s) = offLink s := by
  unfold setBoth; (repeat' split) <;> simp

@[simp] theorem offLink_bumpSide (i p n : Nat) : offLink (bumpSide i p n s) = offLink s := offLink_bumpBy ..

@[simp] theorem offLink_dropContexts (i : Nat) (b : Bool) : offLink (dropContexts i b s) = offLink s := by simp [dropContexts]

@[simp] theorem offLink_moveTo (i : Nat) (b : Bool) : offLink (moveTo i b s) = offLink s := by
  unfold moveTo
  dsimp only
  (repeat' split) <;> simp

@[simp] theorem offLink_selectorMove : offLink (selectorMove s) = offLink s := by
  unfold selectorMove
  dsimp only
  (repeat' split) <;> simp

@[simp] theorem offLink_updateSf : offLink (updateSf s) = offLink s := by
  unfold updateSf
  extract_lets step s1 s2
  have hstep : ∀ i u, offLink (step i u) = offLink u := fun i u => by
    simp only [step]
    split <;> rfl
  simp [s2, s1, hstep]

@[simp] theorem offLink_hunting (i : Nat) : offLink (hunting i s) = offLink s := offLink_updSide ..

@[simp] theorem offLink_alignLost (i : Nat) : offLink (alignLost i s) = offLink s := by
  unfold alignLost; split <;> simp

@[simp] theorem offLink_laneLost (l : Nat) : offLink (laneLost l s) = offLink s := by unfold laneLost; split <;> simp

@[simp] theorem offLink_abortScan (l : Nat) : offLink (abortScan l s) = offLink s := by
  unfold abortScan
  split
  · rfl
  · refine forEach_keeps offLink _ _ (fun q u => ?_) _
    unfold finish
    split
    · rfl
    · dsimp only
      split
      · rfl
      · exact offLink_replyTo ..

@[simp] theorem offLink_laneTo (l : Nat) (st : LaneState) : offLink (laneTo l st s) = offLink s := by
  unfold laneTo
  dsimp only
  (repeat' split) <;> simp

@[simp] theorem offLink_retrainSide (i : Nat) : offLink (retrainSide i s) = offLink s :=
  forBelow_keeps offLink 32 _ (fun k u => by dsimp only; split <;> simp) s

end Frames

end Sys2Proof.Machine
end

section
/-! PROOFS. The reference inputs: their loss, the fallback to REF_3 and the return (R419, R521). -/

namespace Sys2Proof.Machine

/-- A side that returns to its reference leaves the fallback; the boot timeline, the time and the rest of the power stage stand. -/
theorem refReturn_keeps (i : Nat) (s : State) : (refReturn i s).boot = s.boot ∧ (refReturn i s).mono = s.mono ∧
    ∃ l, (refReturn i s).power = { s.power with fallback := l } := by
  unfold refReturn
  split
  · obtain ⟨hb, hm, hp⟩ := fields_of_offLink (offLink_retrainSide
      { s with power := { s.power with fallback := s.power.fallback.filter (· ≠ i) } } i)
    exact ⟨hb, hm, _, hp⟩
  · exact ⟨rfl, rfl, s.power.fallback, rfl⟩

/-- The same of both sides. -/
theorem followRefs_keeps (s : State) : (followRefs s).boot = s.boot ∧ (followRefs s).mono = s.mono ∧
    ∃ l, (followRefs s).power = { s.power with fallback := l } := by
  obtain ⟨hb, hm, l, hp⟩ := refReturn_keeps 0 s
  obtain ⟨hb', hm', l', hp'⟩ := refReturn_keeps 1 (refReturn 0 s)
  exact ⟨hb'.trans hb, hm'.trans hm, l', hp'.trans (by rw [hp])⟩

/-- A reference is read as it was set. -/
@[simp] theorem refAt_setRef_self (r : Nat) (v : Bool) (s : State) : refAt (setRef r v s) r = { valid := v } := by
  simp [refAt, setRef, mget_mset_self]

/-- Setting a reference leaves the others. -/
theorem refAt_setRef_other (r k : Nat) (v : Bool) (s : State) (h : r ≠ k) : refAt (setRef r v s) k = refAt s k := by
  simp [refAt, setRef, mget_mset_other _ _ _ _ h]

@[simp] theorem sendEsmc_mono (s : State) : (sendEsmc s).mono = s.mono :=
  forBelow_keeps State.mono _ _ (fun _ _ => by split <;> simp) s

@[simp] theorem reselect_mono (s : State) : (reselect s).mono = s.mono := by
  unfold reselect
  dsimp only
  (repeat' split) <;> simp [takeFree, setCorr]

@[simp] theorem trackSources_mono (s : State) : (trackSources s).mono = s.mono := by
  unfold trackSources
  apply forBelow_keeps State.mono
  intro i u
  dsimp only
  (repeat' split) <;> simp [updSource]

/-- The link follows a change of PCIE_REFCLK alone. -/
theorem pcieUp_followRefs_setRef (s : State) : pcieUp (trackSources (followRefs (setRef 4 true s))) = true ↔
    (s.boot.phase = .rom ∨ s.boot.phase = .firmware ∨ s.boot.phase = .up) ∧ 100 * ms ≤ bootTime s ∧
      s.power.shutdown = false ∧ s.power.perstLow = false := by
  obtain ⟨hb, hm, l, hp⟩ := followRefs_keeps (setRef 4 true s)
  have hup : ∀ t : State, t.boot = s.boot → t.mono = s.mono → t.power = { (setRef 4 true s).power with fallback := l } →
      (pcieUp t = true ↔ (s.boot.phase = .rom ∨ s.boot.phase = .firmware ∨ s.boot.phase = .up) ∧ 100 * ms ≤ bootTime s ∧
        s.power.shutdown = false ∧ s.power.perstLow = false) := by
    intro t hb hm hp
    have href : (refAt t 4).valid = true := by simp [refAt, hp, setRef, mget_mset_self]
    rw [pcieUp_iff, bootTime, hb, hm, hp, href]
    simp [setRef, bootTime]
  exact hup _ ((trackSources_boot _).trans hb) ((trackSources_mono _).trans hm) ((trackSources_power _).trans hp)

/-- Settles O10: the losses and returns by the cases of their reference, the link by what the return of sides keeps. -/
theorem referencesFallBackAndReturn : Obligations.ReferencesFallBackAndReturn := by
  unfold Obligations.ReferencesFallBackAndReturn
  have hlos : ∀ (r : Nat) (s : State), r < 5 → (refAt s r).valid = true → exec (.refLos r) s = .next (refLos r s) :=
    fun r s hr hv => (onObject_of (by simp [hr]) _).trans (congrArg _ (whenever_of hv _ s))
  have hback : ∀ (r : Nat) (s : State), r < 5 → exec (.refRestore r) s = .next (refRestore r s) :=
    fun r s hr => onObject_of (by simp [hr]) _
  refine ⟨fun s h => ?_, fun s h => ⟨?_, ?_⟩, fun i s hi hv h3 hf => ?_, fun r s hr hv => ?_, fun s hv => ?_, fun s hv => ?_,
    fun at_ s ht hd => ?_⟩
  · exact hlos 0 s (by decide) h
  · exact hlos 4 s (by decide) h
  · rw [Bool.eq_false_iff, Ne, pcieUp_iff]
    simp [refAt, setRef, mget_mset_self]
  · rw [hlos (i + 1) s (by omega) hv]
    have h3' : (refAt (raise 0x0B 0 0 (i + 1) 0x0B20 1 (wd (i + 1)) (setRef (i + 1) false s)) 3).valid = true := by
      rw [refAt, raise_power]
      exact (congrArg _ (refAt_setRef_other (i + 1) 3 false s (by omega))).trans h3
    have hf' : (raise 0x0B 0 0 (i + 1) 0x0B20 1 (wd (i + 1)) (setRef (i + 1) false s)).power.fallback = s.power.fallback := by
      rw [raise_power]; rfl
    obtain rfl | rfl : i = 0 ∨ i = 1 := by omega
    all_goals
      unfold refLos sideLoses
      simp only [Nat.reduceAdd, Nat.reduceLT, if_true] at h3' hf' ⊢
      rw [hf', hf, h3', if_neg Bool.false_ne_true, if_pos (show (true && !false) = true from rfl)]
  · rw [hback r s (by omega)]
    have h3 : r ≠ 3 := by omega
    have h4 : r < 4 := by omega
    simp [refRestore, hv, h3, h4, followRefs]
  · rw [hback 3 s (by decide)]
    simp [refRestore, hv, followRefs]
  · refine ⟨_, (hback 4 s (by decide)).trans (by simp [refRestore, hv]; rfl), rfl, pcieUp_followRefs_setRef s⟩
  · simp [exec, execSwitchTransitionEnd, whenever, ht, passed, hd, followRefs, updSel]

end Sys2Proof.Machine
end

section
/-! PROOFS. MODULE_RESET in Halter: the reload of the firmware leaves the signatures of the retention banks updated (R65, R81, R452). -/

namespace Sys2Proof.Machine

/-- A module in Halter whose pair 0 serves the physical function, with no signature kept. -/
def haltedModule : State :=
  { boot := { state := .halter, phase := .up }, halter := { stage := .halter },
    host := { pairs := [(0, { enable := true, served := true, world := 0x100 })] } }

/-- MODULE_RESET of the firmware alone, from pair 0. -/
def firmwareReset : Packet := { length := 9, params := [0] }

@[simp] theorem replyTo_halter (p : Packet) (st : Status) (ws : List Word) (n : Nat) (s : State) :
    (replyTo p st ws n s).halter = s.halter := by
  unfold replyTo
  dsimp only
  (repeat' split) <;> simp

/-- In Halter a command that writes leaves the retention banks signed throughout. -/
theorem kept_sigs {op : OpSpec} {f : State} (hw : op.writes = true) (hf : f.halter.stage = .halter) (t : State) :
    (kept op f t).halter.sigs.length = 1824 := by
  unfold kept
  rw [hw, hf]
  simp [signAll]

/-- An accepted MODULE_RESET of the firmware alone in Halter leaves the retention banks signed throughout. -/
theorem moduleReset_signs {p : Packet} {s t : State} (h : accepts opModuleReset p s = true) (hw : bit ((ownWords p).getD 0 0) 0 = false)
    (hs : s.halter.stage = .halter) (ht : exec (.moduleReset p) s = .next t) : t.halter.sigs.length = 1824 := by
  have hf : (fetched opModuleReset p s).halter.stage = .halter := by rw [fetched_halter_of_accepts h, hs]
  have hrun : opModuleReset.run (ctxOf opModuleReset p (fetched opModuleReset p s)) (fetched opModuleReset p s) =
      .last (fetched opModuleReset p s) [] .firmwareRestart true := by
    show runModuleReset _ _ = _
    unfold runModuleReset
    rw [if_neg]
    simpa [Ctx.w, ctxOf, nthW] using hw
  have hx : exec (.moduleReset p) s = _ := command_runs h (by decide)
  rw [hx, hrun] at ht
  cases ht
  simp [keptAnswer, HRes.success, HRes.mapState, answer, afterReply, kept_sigs (op := opModuleReset) rfl hf]

/-- Refutes O11: a MODULE_RESET of the firmware alone that is accepted in Halter also updates the signatures of the retention banks
(R452), which the statement's next state leaves as they were. -/
theorem not_bootAndResetReachTheirStates : ¬ Obligations.BootAndResetReachTheirStates := by
  unfold Obligations.BootAndResetReachTheirStates
  intro h
  have hacc : accepts opModuleReset firmwareReset haltedModule = true := by decide +kernel
  have hkind : bit ((ownWords firmwareReset).getD 0 0) 0 = false := by decide
  have hx := h.1 firmwareReset haltedModule hacc
  have hlen := moduleReset_signs hacc hkind rfl hx
  have hsigs : (fetched opModuleReset firmwareReset haltedModule).halter.sigs = [] := by
    rw [fetched_halter_of_accepts hacc]; rfl
  rw [hkind] at hlen
  simp [hsigs] at hlen

end Sys2Proof.Machine
end

section
/-! PROOFS. Counters and Patina (R478 to R484, R496 to R502). -/

namespace Sys2Proof.Machine

/-! ## Counters -/

/-- A range of bits alone in a word. -/
theorem pack_one (n w l : Nat) : pack [(n, w, l)] = wd (n % 2 ^ w * 2 ^ l) := by simp [pack]

theorem counterConfig_runs (c : Ctx) (f : State) (hi : isIsland (fld (c.w 0) 23 16) = true)
    (hk : fld (c.w 0) 2 0 < islandCounters (fld (c.w 0) 23 16)) (he : eventOk (fld (c.w 0) 23 16) (fld (c.w 1) 27 16) = true)
    (hl : 0xF00 ≤ fld (c.w 1) 27 16 → f.vault.life ≠ .deployed)
    (hg : match grantee f (fld (c.w 0) 2 0) with | some g => g = fnOf c.master | none => fnOf c.master = 0)
    (hw : fnOf c.master ≠ 0 → fld (c.w 1) 15 0 = c.world) (hc : worldCode (fld (c.w 1) 15 0) = true) :
    runCounterConfig c f =
      let old := progNow f (fld (c.w 0) 23 16) (fld (c.w 0) 2 0)
      let new : ProgCtr := { enable := bit (c.w 0) 31, event := fld (c.w 1) 27 16, world := fld (c.w 1) 15 0, at_ := f.mono,
                             value := if bit (c.w 0) 30 then 0 else old.value, wraps := if bit (c.w 0) 30 then 0 else old.wraps }
      .done { f with ctr := { f.ctr with prog := mset f.ctr.prog (progKey (fld (c.w 0) 23 16) (fld (c.w 0) 2 0)) new } } [] := by
  unfold runCounterConfig
  dsimp only
  rw [refuseIf_of_false, refuseIf_of_false, refuseIf_of_false, refuseIf_of_false, refuseIf_of_false, refuseIf_of_false]
  · split <;> rfl
  · simp [hc]
  · simpa using hw
  · revert hg
    cases grantee f (fld (c.w 0) 2 0) <;> simp
  · simp [he]
  · simpa using hl
  · simp [hi, hk]

/-! ## Plans -/

/-- The windows that a plan gives are all that its rails' arrival changes of Patina. -/
theorem giveWindows_pat (s : State) : ∃ l, (giveWindows s).pat = { s.pat with windows := l } := by
  unfold giveWindows
  split
  · exact ⟨s.pat.windows, rfl⟩
  · refine ⟨[], ?_⟩
    refine forEach_keeps State.pat _ _ (fun l u => ?_) _
    rfl

@[simp] theorem giveWindows_plan (s : State) : (giveWindows s).pat.plan = s.pat.plan := by
  obtain ⟨l, hl⟩ := giveWindows_pat s
  rw [hl]

@[simp] theorem giveWindows_written (s : State) : (giveWindows s).pat.written = s.pat.written := by
  obtain ⟨l, hl⟩ := giveWindows_pat s
  rw [hl]

@[simp] theorem marginFault_pat (res code cls : Nat) (was is : Bool) (d : Nat) (s : State) :
    (marginFault res code cls was is d s).pat = s.pat := by
  unfold marginFault
  (repeat' split) <;> simp

/-- The faults of a plan leave the plan. -/
@[simp] theorem marginFaults_pat (old new : Plan) (s : State) : (marginFaults old new s).pat = s.pat := by
  unfold marginFaults
  dsimp only
  rw [forBelow_keeps State.pat 80 _ (fun _ _ => marginFault_pat ..), forBelow_keeps State.pat 24 _ (fun _ _ => by simp)]

/-- A rail whose last step lies a millisecond back may step. -/
theorem mayStep_of {s : State} {r : Nat} (h : ∀ m, mget s.pat.movedAt r = some m → m + ms ≤ s.mono) : mayStep s r = true := by
  unfold mayStep
  cases hm : mget s.pat.movedAt r with
  | none => rfl
  | some m => simpa [passed] using h m hm

/-- A command in progress whose handler answers ends with that answer. -/
theorem finish_answers {q : Nat} {x : Exec} {s : State} {r : State → HRes} (hx : (pairAt s q).executing = some x)
    (hd : x.discard = false) (hr : ∀ t d, r (updPair q (fun p => { p with executing := none }) s) ≠ .wait t d) :
    finish q r s = answer x.pkt (flagResultBuf x.pkt) (bufLenOf x.pkt) (r (updPair q (fun p => { p with executing := none }) s))
      (updPair q (fun p => { p with executing := none }) s) := by
  unfold finish
  rw [hx]
  dsimp only
  split
  · next t d heq => exact absurd heq (hr t d)
  · rw [hd]; rfl

/-- The end of a scan is an answer. -/
theorem scanResult_ne_wait (flags : Nat) (buf : Bool) (rails : List RailScan) (lanes : List LaneScan) (s t : State) (d : List Nat) :
    scanResult flags buf rails lanes s ≠ .wait t d := by
  unfold scanResult planAnswer
  dsimp only
  (repeat' split) <;> simp

/-- A rail reads as it was moved. -/
theorem railAt_stepRail (r : Nat) (s : State) : (railAt (stepRail r s).pat.plan r).now =
    (if (railAt s.pat.plan r).now < (railAt s.pat.plan r).offset then (railAt s.pat.plan r).now + 5
      else if (railAt s.pat.plan r).offset < (railAt s.pat.plan r).now then (railAt s.pat.plan r).now - 5
      else (railAt s.pat.plan r).now) := by
  simp [stepRail, railAt, mgetD, mget_mset_self]

/-- Settles O13: the commands by their grounds, the plan by what its windows and faults leave, the scan by its answer. -/
theorem countersAndPatinaAnswer : Obligations.CountersAndPatinaAnswer := by
  unfold Obligations.CountersAndPatinaAnswer
  refine ⟨?_, ?_, ?_, ?_, ?_, ?_, ?_, ?_, fun rails lanes s hdue hw hs hh hm hf => ?_, fun pl s hw hm hf => ⟨?_, ?_⟩, fun r s hr ht => ?_,
    fun q d x rails lanes s hs hq hx hd hdata => ?_⟩
  · refine endsOk (fun _ _ => rfl) (fun c f _ h => ?_) (fun _ _ _ => by simp)
    obtain ⟨hi, hk, he, hl, hg, hw, hc⟩ := h
    exact counterConfig_runs c f hi hk he hl hg hw hc
  · refine endsOk (fun _ _ => rfl) (fun c f _ h => ?_) (fun _ _ _ => by simp)
    obtain ⟨hk, hi, hg⟩ := h
    simp [opCounterRead, runCounterRead, hk, hi, hg, pack_one]
  · refine endsOk (fun _ _ => rfl) (fun c f _ h => ?_) (fun _ _ _ => by simp)
    obtain ⟨hk, hi, hn, hg⟩ := h
    simp [opCounterRead, runCounterRead, hk, hi, Nat.not_le.mpr hn, hg, pack_one]
  · refine endsOk (fun _ _ => rfl) (fun c f _ h => ?_) (fun _ _ _ => by simp)
    obtain ⟨hk, hsc, hg, hn⟩ := h
    obtain ⟨v, hv⟩ := Option.isSome_iff_exists.mp hn
    simp [opCounterRead, runCounterRead, hk, Nat.not_le.mpr hsc, hg, hv]
  · refine endsOk (fun _ _ => rfl) (fun c f _ h => ?_) (fun _ _ _ => by simp)
    obtain ⟨hfn, hgr⟩ := h
    show runVfCounterGrant c f = _
    unfold runVfCounterGrant
    dsimp only
    rw [refuseIf_of_false, refuseIf_of_false]
    · rfl
    · simp only [List.any_eq_false, List.mem_range, Bool.and_eq_true, not_and]
      intro k hk hbit
      have hown := hgr k hk hbit
      cases hg : grantee f k with
      | none => simp
      | some g => simpa using hown g hg
    · simp [hfn]
  · refine starts (fun _ _ => rfl) (fun c f _ h => ?_)
    obtain ⟨hb, hs⟩ := h
    show runPatinaScan c f = _
    unfold runPatinaScan
    rw [refuseIf_of_false, refuseIf_of_false]
    · simp [hs]
    · simpa using hb
  · refine endsOk (fun _ _ => rfl) (fun c f _ h => ?_) (fun _ _ _ => by simp [planWords])
    simp [opPatinaStatus, runPatinaStatus, planAnswer, h]
  · refine endsData (fun _ _ => rfl) (by decide) (fun c f _ h => ?_)
    simp [opPatinaStatus, runPatinaStatus, planAnswer, h]
  · show Host.Outcome.next (whenever _ _ s) = _
    rw [whenever_of]
    · simp [periodicPlan, hh]
    · simpa [hm, hw, hs, hf] using hdue
  · refine ⟨writePlan true s, ?_, ?_⟩
    · show Host.Outcome.next (whenever _ _ s) = _
      rw [whenever_of (by simp [hm, hf])]
    · simp [writePlan, hw, usePlan]
  · show Host.Outcome.next (whenever _ _ s) = _
    rw [whenever_of (by simp [hm, hf])]
    simp [writePlan, hw]
  · by_cases hn : (railAt s.pat.plan r).now = (railAt s.pat.plan r).offset
    · refine ⟨s, ?_, by simp [hn]⟩
      simp [exec, execRailOffsetStep, onObject, hr, hn, whenever]
    · refine ⟨stepRail r s, ?_, railAt_stepRail r s⟩
      refine (onObject_of (by simp [hr]) _).trans (congrArg _ (whenever_of ?_ _ s))
      simpa [hn] using mayStep_of ht
  · show Host.Outcome.next (whenever _ _ s) = _
    rw [whenever_of hs]
    show Host.Outcome.next (pumpAll (forEach (executingQ s 0xB007 fun d => d.length = 1) _ s)) = _
    rw [hq]
    show Host.Outcome.next (pumpAll (match (pairAt s q).executing with
      | some x => finish q (scanResult (x.data.headD 0) (flagResultBuf x.pkt) rails lanes) s
      | none => s)) = _
    rw [hx]
    show Host.Outcome.next (pumpAll (finish q (scanResult (x.data.headD 0) (flagResultBuf x.pkt) rails lanes) s)) = _
    have hw : ∀ f t l, scanResult (x.data.headD 0) (flagResultBuf x.pkt) rails lanes f ≠ .wait t l :=
      fun f t l => scanResult_ne_wait _ _ _ _ f t l
    rw [finish_answers hx hd (hw _), hdata]
    rfl

end Sys2Proof.Machine
end

section
/-! PROOFS. The commands of a port (R88 to R95, R127, R128, R135, R136) and the end of its disable sequence. -/

namespace Sys2Proof.Machine

/-! ## PORT_CONFIG -/

section PortConfig
variable {c : Ctx} {f : State}

/-- PORT_CONFIG of a port that is no coexistence pair's, on none of the grounds: what its old and new mode decide. -/
theorem runPortConfig_of_grounds (hi : c.inst = pcPort c.words) (hs : (portAt f (pcPort c.words)).stopping = none)
    (hm : modeGround f c.words = none) (hp : paired f (pcPort c.words) = false)
    (hg : portParamGround (modeKind (pcPort c.words) (pcMode c.words)) c.words = none) :
    runPortConfig c f =
      let p := pcPort c.words
      let old := (portCfgAt f p).mode
      let new := portCfgOf (modeKind p (pcMode c.words)) c.words
      if old ≠ 0 && pcMode c.words = 0 then
        .wait (forEach (modePorts f p) (fun q s => updPort q (fun x => { x with stopping := some (s.time.sfc + 1) }) s)
          (updPort p (fun x => { x with cfg := { new with mode := old } }) f)) [p, 0]
      else
        let t := updPort p (fun x => { x with cfg := new }) f
        if old = 0 && pcMode c.words ≠ 0 then .done (forEach (modePorts t p) startPort t) []
        else if pcMode c.words ≠ 0 then .done (changeProfile p t) []
        else .done t [] := by
  unfold runPortConfig
  dsimp only
  rw [refuseIf_of_false (by simp [hi]), if_neg (by simp [hs]), hm]
  simp only [hp, Bool.false_and, Bool.false_eq_true, if_false, hg]

end PortConfig

/-! ## The end of the disable sequence -/

/-- A port whose sequence has ended is in mode 0, without framing and without windows. -/
theorem portAt_disablePort (n : Nat) (s : State) : (portAt (disablePort n s) n).cfg.mode = 0 ∧
    (portAt (disablePort n s) n).framing = false ∧ (portAt (disablePort n s) n).stopping = none ∧
    (portAt (disablePort n s) n).windows = [] := by
  unfold disablePort
  dsimp only
  generalize forEach (portTerms (abortScan (128 + n) (holdTx n (clearPortDefects n s))) n) _ _ = u
  have h : ∀ (g : Port → Port) (w : WeaverSt), portAt { updPort n g u with weaver := w } n = g (portAt u n) :=
    fun g w => portAt_updPort_self ..
  rw [h]
  exact ⟨rfl, rfl, rfl, rfl⟩

/-- A command in progress that completes without words. -/
theorem finish_done {q : Nat} {x : Exec} {s : State} (hx : (pairAt s q).executing = some x) (hd : x.discard = false) :
    finish q (fun s => .done s []) s = replyTo x.pkt .ok [] 0 (updPair q (fun p => { p with executing := none }) s) :=
  finish_answers (r := fun s => .done s []) hx hd (by simp)

theorem portDisabled_one {n q : Nat} {x : Exec} {s : State} (root : Nat) (hroot : root = if paired s n then n / 2 * 2 else n)
    (d t : State) (hdef : d = forEach (modePorts s root) disablePort s) (htd : t = updPair q (fun y => { y with executing := none }) d)
    (hq : executingQ d 0x1001 (· = [root, 0]) = [q]) (hx : (pairAt d q).executing = some x) (hd : x.discard = false)
    (hn : executingQ (replyTo x.pkt .ok [] 0 t) 0x1001 (fun l => (modePorts s root).any fun k => l = [k, 1]) = []) :
    portDisabled n s = pumpAll (replyTo x.pkt .ok [] 0 t) := by
  unfold portDisabled
  dsimp only
  rw [← hroot, ← hdef, hq]
  have hone : forEach [q] (fun q s => finish q (fun s => .done s []) s) d = replyTo x.pkt .ok [] 0 t := by
    rw [htd]; exact finish_done hx hd
  rw [hone, hn]
  rfl

/-! ## What the reads and the buses answer -/

theorem length_wordsOfBytes (n : Nat) (bs : List Byte) : (wordsOfBytes n bs).length = n := by
  induction n generalizing bs with
  | zero => rfl
  | succ n ih => simp [wordsOfBytes, ih]

/-- PORT_STATE answers eight words of the setting, six of the state and two for each of 15 counters. -/
theorem length_portStateWords (s : State) (p : Nat) : (portStateWords s p).length = 44 := by
  simp [portStateWords, portCfgWords, ponCounterWords, List.length_flatMap]

/-- A bus that answers ends OPTICS_ACCESS with what it read. -/
theorem runOpticsAccess_of_ack {c : Ctx} {f : State} (hi : c.inst ≤ 63) (hb : c.inst / 8 = fld (c.w 0) 26 24)
    (hlo : 1 ≤ fld (c.w 0) 7 0) (hhi : fld (c.w 0) 7 0 ≤ 128) (hs : mhas f.pon.stuck (fld (c.w 0) 26 24) = false)
    (ha : c.answers.head? = some 0) :
    runOpticsAccess c f = .done (opticsTransaction c.inst (fld (c.w 0) 22 16) (fld (c.w 0) 15 8)
        (if bit (c.w 0) 31 then (bytesOfWords (c.words.drop 1)).take (fld (c.w 0) 7 0) else [])
        (if bit (c.w 0) 31 then 0 else fld (c.w 0) 7 0) f)
      (if bit (c.w 0) 31 then []
        else wordsOfBytes (ceilDiv (fld (c.w 0) 7 0) 4) ((c.answers.tail.map (BitVec.ofNat 8)).take (fld (c.w 0) 7 0))) := by
  obtain ⟨got, hgot⟩ : ∃ got, c.answers = 0 :: got := by
    cases hc : c.answers with
    | nil => rw [hc] at ha; cases ha
    | cons a l => rw [hc] at ha; cases ha; exact ⟨l, rfl⟩
  unfold runOpticsAccess
  dsimp only
  rw [refuseIf_of_false, refuseIf_of_false, refuseIf_of_false hs, hgot]
  · rfl
  · simp; omega
  · simp [hb]; omega

/-- Settles O14: PORT_CONFIG by the old and the new mode, the disable sequence by its one command that ends. -/
theorem portsConfiguredReadAndDisabled : Obligations.PortsConfiguredReadAndDisabled := by
  unfold Obligations.PortsConfiguredReadAndDisabled
  refine ⟨?_, ?_, ?_, fun n from_ q x s hn hst hfr => ?_, fun n s => portAt_disablePort n s, ?_, ?_, ?_, ?_, ?_,
    fun _ _ _ _ _ _ => rfl⟩
  · refine endsOk (fun _ _ => rfl) (fun c f _ h => ?_) (fun _ _ _ => by simp)
    obtain ⟨hi, hs, hm, hp, hg, hold, hmode⟩ := h
    show runPortConfig c f = _
    rw [runPortConfig_of_grounds hi hs hm hp hg]
    simp [hold, hmode, modeKind]
  · refine endsOk (fun _ _ => rfl) (fun c f _ h => ?_) (fun _ _ _ => by simp)
    obtain ⟨hi, hs, hm, hp, hg, hold, hmode⟩ := h
    show runPortConfig c f = _
    rw [runPortConfig_of_grounds hi hs hm hp hg]
    simp [hold, hmode]
  · refine starts (fun _ _ => rfl) (fun c f _ h => ?_)
    obtain ⟨hi, hs, hm, hp, hg, hold, hmode⟩ := h
    show runPortConfig c f = _
    rw [runPortConfig_of_grounds hi hs hm hp hg]
    simp [hold, hmode, modeKind]
  · intro root d t hq hx hd hnone
    refine (onObject_of (by simp [hn]) _).trans (congrArg _ ?_)
    rw [← portDisabled_one root rfl d t rfl rfl hq hx hd hnone]
    exact whenever_of (by simp [hst, hfr]) _ s
  · refine endsLong (fun _ _ => rfl) (fun c f _ h => ?_) (fun c f _ => ?_)
    · exact refuseIf_of_false (by simp [h]) ..
    · cases c.master <;> simp [length_portStateWords]
  · refine endsOk (fun _ _ => rfl) (fun c f _ h => ?_) (fun _ _ _ => by simp)
    obtain ⟨hi, hp, hw⟩ := h
    show runOmciBind c f = _
    unfold runOmciBind
    rw [refuseIf_of_false, refuseIf_of_false]
    · simpa using hw
    · rcases hp with hp | hp <;> simp [hi, hp]
  · refine endsOk (fun _ _ => rfl) (fun c f _ h => ?_) (fun c f h => ?_)
    · obtain ⟨hi, hb, hlo, hhi, hw, hs, ha⟩ := h
      show runOpticsAccess c f = _
      rw [runOpticsAccess_of_ack hi hb hlo (by omega) hs ha]
      simp [hw]
    · obtain ⟨-, -, -, hhi, -⟩ := h
      simp only [length_wordsOfBytes, ceilDiv, OfNat.ofNat_ne_zero, if_false]
      omega
  · refine endsLong (fun _ _ => rfl) (fun c f _ h => ?_) (fun c f h => ?_)
    · obtain ⟨hi, hb, hlo, hhi, hw, hs, ha⟩ := h
      show runOpticsAccess c f = _
      rw [runOpticsAccess_of_ack hi hb (by omega) hhi hs ha]
      simp [hw]
    · obtain ⟨-, -, hlo, -⟩ := h
      simp only [length_wordsOfBytes, ceilDiv, OfNat.ofNat_ne_zero, if_false]
      omega
  · refine endsOk (fun _ _ => rfl) (fun c f _ h => ?_) (fun _ _ _ => by simp)
    obtain ⟨hi, hb, hlo, hhi, hw, hs, ha⟩ := h
    show runOpticsAccess c f = _
    rw [runOpticsAccess_of_ack hi hb hlo hhi hs ha]
    simp [hw]

end Sys2Proof.Machine
end

section
/-! PROOFS. The commands of a terminal (R93, R97, R120, R132 to R134, R138, R155, R161, R308 to R310). -/

namespace Sys2Proof.Machine

/-- A command on a terminal that is there and that its world reaches. -/
theorem onTerm_of {c : Ctx} {s : State} {t : Terminal} (ht : termAt s (termOf c) = some t) (hw : reaches c.world t.world = true)
    (k : Terminal → HRes) : onTerm c s k = k t := by
  simp [onTerm, ht, hw]

theorem terminalAdd_runs {c : Ctx} {f : State} (hp : termOf c / 512 = c.inst) (he : paired f c.inst = false ∨ c.inst % 2 = 0)
    (hw : worldCode (fld (c.w 0) 31 16) = true) (hr : reaches c.world (fld (c.w 0) 31 16) = true)
    (hn : termNodeOk f (termOf c) (fld (c.w 0) 31 16) = true) (ha : isPonSlot (fld (c.w 3) 17 0) = true)
    (hb : isPonSlot (fld (c.w 4) 17 0) = true) (hab : fld (c.w 3) 17 0 ≠ fld (c.w 4) 17 0) (hfec : fld (c.w 5) 1 0 ≠ 3)
    (ht : termAt f (termOf c) = none)
    (hsn : (treeTerms f (termOf c / 512)).any (fun e => e.2.sn0 = c.w 1 && e.2.sn1 = c.w 2) = false)
    (hba : slotBound f (fld (c.w 3) 17 0) = false) (hbb : slotBound f (fld (c.w 4) 17 0) = false)
    (hoa : ponSlotOk f (fld (c.w 3) 17 0) (fld (c.w 0) 31 16) = true)
    (hob : ponSlotOk f (fld (c.w 4) 17 0) (fld (c.w 0) 31 16) = true) :
    runTerminalAdd c f =
      let t : Terminal := { world := fld (c.w 0) 31 16, sn0 := c.w 1, sn1 := c.w 2, slot1 := fld (c.w 3) 17 0,
                            slot2 := fld (c.w 4) 17 0, upFec := fld (c.w 5) 1 0, port := c.inst }
      .done (clearCounters 2 (termOf c) { f with pon := { f.pon with terms := mset f.pon.terms (termOf c) t } }) [] := by
  unfold runTerminalAdd
  dsimp only
  rw [refuseIf_of_false, refuseIf_of_false, refuseIf_of_false, refuseIf_of_false, refuseIf_of_false, refuseIf_of_false,
    refuseIf_of_false, refuseIf_of_false, refuseIf_of_false]
  · simp [hoa, hob]
  · simp [hn]
  · simp [hba, hbb]
  · simp [hfec]
  · simp [hb, hab]
  · simp [ha]
  · simp [hw, hr]
  · simp only [ht, Option.isSome_none, Bool.false_or]
    exact hsn
  · rcases he with he | he <;> simp [hp, he]

theorem discoveryConfig_runs {c : Ctx} {f : State} (hacc : c.accepting = false) (hp : c.inst = fld (c.w 0) 5 0)
    (he : paired f c.inst = false ∨ c.inst % 2 = 0) (h1 : 1 ≤ fld (c.w 0) 31 24) (h2 : fld (c.w 0) 31 24 ≤ 40)
    (h3 : fld (c.w 0) 23 16 ≤ 40) (h4 : fld (c.w 0) 23 16 + fld (c.w 0) 31 24 ≤ 60)
    (h5 : fld (c.w 1) 31 16 = 0 ∨ 10 ≤ fld (c.w 1) 31 16 ∧ fld (c.w 1) 31 16 ≤ 60000)
    (h6 : fld (c.w 0) 31 24 = (portAt f c.inst).disc.diff ∧ fld (c.w 0) 23 16 = (portAt f c.inst).disc.near ∨
      ∀ e ∈ treeTerms f c.inst, e.2.st = .pending) :
    runDiscoveryConfig c f =
      let disc : Disc := { diff := fld (c.w 0) 31 24, near := fld (c.w 0) 23 16, awl := bit (c.w 0) 8, spacing := fld (c.w 1) 31 16 }
      .done (forEach (treeTerms f c.inst) (fun e s => if e.2.st = .held then endActivation e.1 .pending false s else s)
        (updPort c.inst (fun x => { x with disc := disc }) f)) [] := by
  unfold runDiscoveryConfig
  dsimp only
  rw [← hp, refuseIf_of_false, refuseIf_of_false, refuseIf_of_false, refuseIf_of_false]
  · rcases h6 with ⟨hd, hn⟩ | hpend
    · simp [hd, hn]
    · have hany : ((treeTerms f c.inst).any fun e => e.2.st ≠ .pending) = false := by simpa using hpend
      rw [hany, Bool.and_false]
  · simp; omega
  · simp; omega
  · rcases he with he | he <;> simp [he]

/-- Settles O15: each command passes its grounds in turn, and then does what its handler says. -/
theorem terminalCommandsTakeEffect : Obligations.TerminalCommandsTakeEffect := by
  unfold Obligations.TerminalCommandsTakeEffect
  refine ⟨?_, fun t => ?_, ?_, fun t => ?_, ?_, ?_, fun t => ?_, fun t => ?_⟩
  · refine endsOk (fun _ _ => rfl) (fun c f _ h => ?_) (fun _ _ _ => by simp)
    obtain ⟨hp, he, hw, hr, hn, ha, hb, hab, hfec, ht, hsn, hba, hbb, hoa, hob⟩ := h
    exact terminalAdd_runs hp he hw hr hn ha hb hab hfec ht hsn hba hbb hoa hob
  · refine endsOk (fun _ _ => rfl) (fun c f _ h => ?_) (fun _ _ _ => by simp)
    obtain ⟨ht, hw⟩ := h
    exact onTerm_of ht hw _
  · refine endsOk (fun _ _ => rfl) (fun c f _ h => ?_) (fun _ _ _ => by simp)
    obtain ⟨t, ht, hw, ho, hown, hl⟩ := h
    refine (onTerm_of ht hw _).trans ?_
    dsimp only
    rw [refuseIf_of_false, refuseIf_of_false]
    · simpa using hl
    · have hnot : ownedTypes.contains (fld (c.w 1) 7 0) = false := by simpa [ownedTypes] using hown
      rw [ho, hnot]
      rfl
  · refine endsOk (fun _ _ => rfl) (fun c f _ h => ?_) (fun _ _ _ => by simp)
    obtain ⟨ht, hw⟩ := h
    refine (onTerm_of ht hw _).trans ?_
    cases hs : t.seen <;> simp [dbmOr]
  · refine endsOk (fun _ _ => rfl) (fun c f _ h => ?_) (fun _ _ _ => by simp)
    obtain ⟨t, ht, hw, hi, hsw, hk, hlo, hhi, hslot⟩ := h
    refine (onTerm_of ht hw _).trans ?_
    dsimp only
    rw [refuseIf_of_false, refuseIf_of_false, refuseIf_of_false, refuseIf_of_false, refuseIf_of_false]
    · simp [hk]
    · simp [hsw]
    · simp [hslot]
    · simp [Nat.not_lt.mpr hlo, Nat.not_lt.mpr hhi]
    · rcases hi with hi | hi <;> simp [hi]
  · refine endsOk (fun _ _ => rfl) (fun c f hacc h => ?_) (fun _ _ _ => by simp)
    obtain ⟨hp, he, h1, h2, h3, h4, h5, h6⟩ := h
    exact discoveryConfig_runs hacc hp he h1 h2 h3 h4 h5 h6
  · refine endsOk (fun _ _ => rfl) (fun c f _ h => ?_) (fun _ _ _ => by simp)
    obtain ⟨ht, hw⟩ := h
    simp [opRangingRead, runRangingRead, ht, hw]
  · refine endsOk (fun _ _ => rfl) (fun c f _ h => ?_) (fun _ _ _ => by simp)
    obtain ⟨ht, hw⟩ := h
    cases hst : t.st <;> simp [opTerminalRerange, runTerminalRerange, ht, hw, hst]

end Sys2Proof.Machine
end

section
/-! PROOFS. Weaver's commands (R162 to R168, R185 to R187, R198). -/

namespace Sys2Proof.Machine

/-- The lane that runs a tree's commands, an allocation that is there and a world that reaches it. -/
theorem namedAlloc_of {c : Ctx} {f : State} {a : Alloc} (hi : c.inst = laneOf (fld (c.w 0) 5 0))
    (ha : allocAt f (allocKey (fld (c.w 0) 5 0) (fld (c.w 0) 29 16)) = some a) (hw : reaches c.world a.world = true)
    (k : Nat → Nat → Alloc → HRes) : namedAlloc c f k = k (fld (c.w 0) 5 0) (fld (c.w 0) 29 16) a := by
  simp [namedAlloc, hi, ha, hw]

theorem allocWrite_runs {c : Ctx} {f : State} {t : Terminal} (hi : c.inst = laneOf (fld (c.w 1) 13 8))
    (ht : termAt f (fld (c.w 0) 14 0) = some t) (htree : fld (c.w 0) 14 0 / 512 = fld (c.w 1) 13 8)
    (hw : fld (c.w 1) 31 16 = t.world) (hr : reaches c.world t.world = true) {k : Nat} {a : Alloc}
    (hk : k = allocKey (fld (c.w 1) 13 8) (fld (c.w 0) 29 16))
    (ha : a = allocWritten c.words ((allocAt f k).getD { fcEn := bit (c.w 8) 9, fcPriv := bit (c.w 8) 9 }))
    (hf : allocFaults (fld (c.w 0) 29 16) (if inService f t.port then some (frameWords (upKind f t.port)) else none) a = [])
    (hold : ∀ o, allocAt f k = some o → o.terminal = fld (c.w 0) 14 0)
    (hcap : overCapacity (setAlloc k a f) (fld (c.w 1) 13 8) t.port = false) :
    runAllocWrite c f = .done (setAlloc k a f) [] := by
  have hterm : (match allocAt f k with | some o => decide (o.terminal ≠ fld (c.w 0) 14 0) | none => false) = false := by
    cases ho : allocAt f k with
    | none => rfl
    | some o => simpa using hold o ho
  unfold runAllocWrite
  dsimp only
  rw [← hk, ← ha, refuseIf_of_false (by simp [hi]), ht]
  dsimp only
  rw [hf, refuseIf_of_false (by simp [htree]), refuseIf_of_false (by simp [hw, hr])]
  dsimp only [List.min?]
  rw [refuseIf_of_false (by simp [hcap])]
  exact refuseIf_of_false hterm _ _ _

/-- Settles O16: each command finds its lane, its allocation and its world, and then does what its handler says. -/
theorem weaverCommandsTakeEffect : Obligations.WeaverCommandsTakeEffect := by
  unfold Obligations.WeaverCommandsTakeEffect
  refine ⟨fun t => ?_, fun a => ?_, fun a => ?_, fun a => ?_, ?_, ?_⟩
  · refine endsOk (fun _ _ => rfl) (fun c f _ h => ?_) (fun _ _ _ => by simp)
    obtain ⟨hi, ht, htree, hw, hr, hf, hold, hcap⟩ := h
    exact allocWrite_runs hi ht htree hw hr rfl rfl hf hold hcap
  · refine endsLong (fun _ _ => rfl) (fun c f _ h => ?_) (fun _ _ _ => by simp)
    obtain ⟨hi, ha, hw⟩ := h
    exact namedAlloc_of hi ha hw fun tree id a => .done f (allocImage tree id a)
  · refine endsOk (fun _ _ => rfl) (fun c f _ h => ?_) (fun _ _ _ => by simp)
    obtain ⟨hi, ha, hw⟩ := h
    exact namedAlloc_of hi ha hw fun tree id _ =>
      .done { f with weaver := { f.weaver with allocs := mdel f.weaver.allocs (allocKey tree id) } } []
  · refine endsOk (fun _ _ => rfl) (fun c f _ h => ?_) (fun _ _ _ => by simp)
    obtain ⟨hu, ha, hw, hen, hg, hlo, hhi⟩ := h
    show runScheduleHint c f = _
    unfold runScheduleHint
    dsimp only
    rw [refuseIf_of_false hu, ha]
    dsimp only
    rw [refuseIf_of_false (by simp [hw]), refuseIf_of_false (by simp [hen, hg]), refuseIf_of_false (by simp; omega)]
    rfl
  · refine endsOk (fun _ _ => rfl) (fun c f _ h => ?_) (fun _ _ _ => by simp)
    obtain ⟨hb, hne⟩ := h
    have hfind : (cinchWeights c.words).find? (fun e => e.2 = 0) = none := by
      rw [List.find?_eq_none]
      intro e he
      simpa using hne e he
    show runCinchBudget c f = _
    unfold runCinchBudget
    dsimp only
    rw [refuseIf_of_false, hfind]
    rcases hb with hb | hb
    · simp [hb]
    · simp [Nat.not_lt.mpr hb]
  · refine endsLong (fun _ _ => rfl) (fun c f _ h => ?_) (fun _ _ _ => by simp [List.length_flatMap])
    show runWeaverStats c f = _
    unfold runWeaverStats
    dsimp only
    rw [refuseIf_of_false]
    rcases h with h | h <;> simp [h]

end Sys2Proof.Machine
end

section
/-! PROOFS. Weaver's events (R120, R172 to R174, R184, R187 to R190, R196). -/

namespace Sys2Proof.Machine

/-- The cutoff of a lane empties its aggregates and caps and takes Cinch's inputs. -/
theorem laneAt5_cutoff (k n : Nat) (s : State) : (laneAt5 (cutoff k n s) k).cutoff = n ∧ (laneAt5 (cutoff k n s) k).aggs = [] ∧
    (laneAt5 (cutoff k n s) k).caps = [] ∧ (laneAt5 (cutoff k n s) k).given = false ∧ (laneAt5 (cutoff k n s) k).capsIn = false := by
  have h : ∀ (f : Lane5 → Lane5) (u : State) (b : Nat) (w : Map Nat Nat) (al : Map Nat Alloc),
      laneAt5 { updLane5 k f u with weaver := { (updLane5 k f u).weaver with budgetIn := b, weightsIn := w, allocs := al } } k =
        f (laneAt5 u k) := fun f u b w al => laneAt5_updLane5_self ..
  unfold cutoff
  dsimp only
  rw [h]
  exact ⟨rfl, rfl, rfl, rfl, rfl⟩

/-- A tree of one port takes its whole cap. -/
theorem rerunTree_one {tree cap p : Nat} {w : Work} {s : State} (hp : treePorts s tree = [p]) (hw : (mapsAt s p).work = some w)
    (hc : w.capped = none) : rerunTree tree cap s =
      bump5 11 tree 0x0100 1 (updMaps p (fun m => { m with work := some (rerunPort s p cap w) }) s) := by
  have hps : ((treePorts s tree).filterMap fun p => (mapsAt s p).work.map fun w => (p, w)) = [(p, w)] := by simp [hp, hw]
  unfold rerunTree
  dsimp only
  rw [hps]
  simp [hc, forEach, portCap]

/-- A map that is there at its deadline is handed off and counted. -/
theorem deadline_built {p n : Nat} {m : BwMap} {s : State} (hm : (mapsAt s p).built = some m) (hn : m.num = n) :
    deadline p n s = bump5 0 p 0x0100 1 (updMaps p (fun x => { x with missed := 0 }) (handOff p m s)) := by
  simp [deadline, hm, hn]

/-- Settles O17: each event meets its condition and is one function of the lane, which the lemmas above evaluate where it is a loop. -/
theorem weaverEventsRunAMap : Obligations.WeaverEventsRunAMap := by
  unfold Obligations.WeaverEventsRunAMap
  refine ⟨fun k s hk hc => ?_, fun k r rest s hk hr => ?_, fun k s hk hex => ?_, fun s hall => ?_, fun k s hk hg hdue => ?_,
    fun k s hk hc => ?_, fun k tree cap p w s hk hin hcaps hports hw hcap he => ?_, fun k s hk hin => ?_, fun p m s hp hg hh hm hn => ?_,
    fun i id rx used period t s ht hreg hext => ?_, fun i id rx used period t s ht => ?_⟩
  · obtain ⟨h1, h2, h3, h4, h5⟩ := laneAt5_cutoff k (s.time.sfc + 1) s
    refine ⟨cutoff k (s.time.sfc + 1) s, ?_, h1, h2, h3, h4, h5, rfl, rfl⟩
    exact (onObject_of (by simp [hk]) _).trans (congrArg _ (whenever_of (by simp [hc]) _ s))
  · refine (onObject_of (by simp [hk]) _).trans (congrArg _ ?_)
    dsimp only
    rw [hr]
    rfl
  · obtain ⟨p, hp, hcl⟩ := hex
    refine (onObject_of (by simp [hk]) _).trans (congrArg _ (whenever_of ?_ _ s))
    exact List.any_eq_true.mpr ⟨p, hp, hcl⟩
  · show Host.Outcome.next (whenever _ _ s) = _
    rw [whenever_of (List.all_eq_true.mpr hall)]
  · refine (onObject_of (by simp [hk]) _).trans (congrArg _ (whenever_of (by simp [hg, hdue]) _ s))
  · refine (onObject_of (by simp [hk]) _).trans (congrArg _ (whenever_of (by simp [hc]) _ s))
  · refine (onObject_of (by simp [hk]) _).trans (congrArg _ ((whenever_of hin _ s).trans ?_))
    rw [hcaps]
    exact rerunTree_one hports hw hcap
  · exact (onObject_of (by simp [hk]) _).trans (congrArg _ (whenever_of hin _ s))
  · refine (onObject_of (by simp [hp]) _).trans (congrArg _ ((whenever_of (by simp [hg, hh]) _ s).trans ?_))
    exact deadline_built hm hn
  · have hmem : i ∈ s.vault.registered := by simpa using hreg
    simp [exec, execForecastAck, ht, onPloamu, micPasses, hmem, hext, whenever, micSeen, and_assoc]
  · simp [exec, execForecastAck, ht, onPloamu, micPasses, micSeen]

end Sys2Proof.Machine
end

section
/-! PROOFS. QUEUE_CONFIG and its six objects (R254, R255, R257, R258). -/

namespace Sys2Proof.Machine

/-- A ground that fails lets the rest of a handler decide. -/
theorem refuseIf_passes {b : Bool} (h : b = false) {st : Status} {ws : List Word} {k r : HRes} (hk : k = r) : refuseIf b st ws k = r :=
  (refuseIf_of_false h st ws k).trans hk

/-- A world that reaches an object is not foreign to it. -/
theorem notForeign_of_reaches {w o : Nat} (h : reaches w o = true) : (decide (w ≠ 0x0100) && decide (o ≠ w)) = false := by
  simp only [reaches, Bool.or_eq_true, decide_eq_true_eq] at h
  rcases h with h | h
  · simp [h]
  · simp [h]

/-- A group that stands is reached, or none stands. -/
theorem groupGround_of {s : State} {i w : Nat} (h : ∀ g, mget s.tm.groups i = some g → reaches w g.world = true) :
    (match mget s.tm.groups i with | some g => decide (w ≠ 0x0100) && decide (g.world ≠ w) | none => false) = false := by
  cases hm : mget s.tm.groups i with
  | none => rfl
  | some g => exact notForeign_of_reaches (h g hm)

/-- A session that stands is reached, or none stands. -/
theorem sessionGround_of {s : State} {i w : Nat} (h : ∀ x, mget s.tm.sessions i = some x → reaches w x.world = true) :
    (match mget s.tm.sessions i with | some x => decide (w ≠ 0x0100) && decide (x.world ≠ w) | none => false) = false := by
  cases hm : mget s.tm.sessions i with
  | none => rfl
  | some x => exact notForeign_of_reaches (h x hm)

/-- A mark of sampling within the limit. -/
theorem sampledGround_of {accepting b : Bool} {n : Nat} (h : b = true → n < 8192) : (!accepting && b && decide (8192 ≤ n)) = false := by
  cases b <;> simp
  exact fun _ => h rfl

section Objects
variable {c : Ctx} {f : State}

/-- The object and index that QUEUE_CONFIG names are there. -/
theorem queueConfig_object {obj n : Nat} (ho : qcObj c.words = obj) (hi : qcIndex c.words < n) (hn : obj < 6 ∧ qcLimit obj = n) :
    (decide (6 ≤ qcObj c.words) || decide (qcLimit (qcObj c.words) ≤ qcIndex c.words)) = false := by
  obtain ⟨h6, hl⟩ := hn
  rw [ho, hl]
  simp; omega

end Objects

/-- Two grounds that both fail. -/
theorem or_ground {a b : Bool} (ha : a = false) (hb : b = false) : (a || b) = false := by rw [ha, hb]; rfl

/-- Settles O18: each object passes its limit, then its worlds, then its own grounds. -/
theorem queueConfigWritesItsObject : Obligations.QueueConfigWritesItsObject := by
  unfold Obligations.QueueConfigWritesItsObject
  refine ⟨?_, ?_, ?_, ?_, ?_, ?_, ?_⟩
  · refine endsOk (fun _ _ => rfl) (fun c f _ h => ?_) (fun _ _ _ => by simp)
    obtain ⟨ho, hi, hw, hx, hs⟩ := h
    show runQueueConfig c f = _
    unfold runQueueConfig
    dsimp only
    rw [refuseIf_of_false (queueConfig_object ho hi (by decide)), ho]
    refine refuseIf_passes (notForeign_of_reaches hw) ?_
    refine refuseIf_passes hx ?_
    exact refuseIf_of_false (sampledGround_of hs) _ _ _
  · refine endsOk (fun _ _ => rfl) (fun c f _ h => ?_) (fun _ _ _ => by simp)
    obtain ⟨ho, hi, hw, hr, hq, hh, hs⟩ := h
    show runQueueConfig c f = _
    unfold runQueueConfig
    dsimp only
    rw [refuseIf_of_false (queueConfig_object ho hi (by decide)), ho]
    refine refuseIf_passes (by simp [hw]) ?_
    refine refuseIf_passes (or_ground (notForeign_of_reaches hr) (notForeign_of_reaches hq)) ?_
    refine refuseIf_passes (by simp [hh]) ?_
    exact refuseIf_of_false (sampledGround_of hs) _ _ _
  · refine endsOk (fun _ _ => rfl) (fun c f _ h => ?_) (fun _ _ _ => by simp)
    obtain ⟨ho, hi, hw⟩ := h
    show runQueueConfig c f = _
    unfold runQueueConfig
    dsimp only
    rw [refuseIf_of_false (queueConfig_object ho hi (by decide)), ho]
    exact refuseIf_of_false (by simp [hw]) _ _ _
  · refine endsOk (fun _ _ => rfl) (fun c f _ h => ?_) (fun _ _ _ => by simp)
    obtain ⟨ho, hi, hw⟩ := h
    show runQueueConfig c f = _
    unfold runQueueConfig
    dsimp only
    rw [refuseIf_of_false (queueConfig_object ho hi (by decide)), ho]
    exact refuseIf_of_false (notForeign_of_reaches hw) _ _ _
  · refine endsOk (fun _ _ => rfl) (fun c f _ h => ?_) (fun _ _ _ => by simp)
    obtain ⟨ho, hi, hw, hn, hr, hg⟩ := h
    show runQueueConfig c f = _
    unfold runQueueConfig
    dsimp only
    rw [refuseIf_of_false (queueConfig_object ho hi (by decide)), ho]
    refine refuseIf_passes (by simp [hw, hn]) ?_
    refine refuseIf_passes (or_ground (notForeign_of_reaches hr) (groupGround_of hg)) ?_
    exact if_pos hn
  · refine endsOk (fun _ _ => rfl) (fun c f _ h => ?_) (fun _ _ _ => by simp)
    obtain ⟨ho, hi, hw, hn1, hn2, hd, hl, hr, hg, hms, hm⟩ := h
    show runQueueConfig c f = _
    unfold runQueueConfig
    dsimp only
    rw [refuseIf_of_false (queueConfig_object ho hi (by decide)), ho]
    refine refuseIf_passes (by simp [hw, hd, hl, Nat.not_lt.mpr hn2]) ?_
    refine refuseIf_passes (or_ground (notForeign_of_reaches hr) (groupGround_of hg)) ?_
    refine (if_neg (by omega)).trans ?_
    refine refuseIf_passes (List.any_eq_false.mpr fun d hd => by simp [Nat.not_lt.mpr (hms d hd).1, (hms d hd).2.1]) ?_
    refine refuseIf_passes (List.any_eq_false.mpr fun d hd => by simp [(hms d hd).2.2]) ?_
    exact refuseIf_of_false (by simp [Nat.not_lt.mpr hm]) _ _ _
  · refine endsOk (fun _ _ => rfl) (fun c f _ h => ?_) (fun _ _ _ => by simp)
    obtain ⟨ho, hi, hk, hd, hw, hr, hg, hm⟩ := h
    show runQueueConfig c f = _
    unfold runQueueConfig
    dsimp only
    rw [refuseIf_of_false (queueConfig_object ho hi (by decide)), ho]
    refine refuseIf_passes (by simp [hk, hd]) ?_
    refine refuseIf_passes (by simp [hw]) ?_
    refine refuseIf_passes (or_ground (notForeign_of_reaches hr) (sessionGround_of hg)) ?_
    exact refuseIf_of_false hm _ _ _

end Sys2Proof.Machine
end

section
/-! PROOFS. Nodes, shapers, gate lists, statistics and sample rings (R250, R251, R259, R263 to R267, R271, R272, R274). -/

namespace Sys2Proof.Machine

/-- A node of the command's world, or the command is of the common world. -/
theorem worldGround_of {w o : Nat} (h : w = 0x0100 ∨ o = w) : (decide (w ≠ 0x0100) && decide (o ≠ w)) = false := by
  rcases h with h | h <;> simp [h]

theorem schedNodeConfig_runs {c : Ctx} {f : State} {n : NodeId} {t : State} (hn : n = nodeOf (c.w 0))
    (ht : t = updNode n (fun _ => nodeWritten c.words n (nodeAt8 f n)) f) (hok : nodeOk n = true) (h1 : 1 ≤ fld (c.w 2) 27 16)
    (h2 : 1 ≤ fld (c.w 2) 11 0) (hw : holdsWorld n = true → worldCode (fld (c.w 3) 31 16) = true) (h8 : fld (c.w 3) 15 0 % 8 = 0)
    (hp : parentBad n (fld (c.w 1) 15 0) = false)
    (hc : c.world ≠ 0x0100 → nodeWorld f n = c.world ∧ (holdsWorld n = true → fld (c.w 3) 31 16 = c.world))
    (hh : hangs (parentWorld t n) (nodeWorld t n) = true)
    (hf : holdsWorld n = true → childForeign t n (fld (c.w 3) 31 16) = false) :
    runSchedNodeConfig c f = .done (oneDefault n (nodeWritten c.words n (nodeAt8 f n)) (settle (pathOf f n) t)) [] := by
  unfold runSchedNodeConfig
  dsimp only
  rw [← hn, ← ht]
  refine refuseIf_passes (by simp [hok]) (refuseIf_passes hp (refuseIf_passes ?_ (refuseIf_passes ?_ (refuseIf_passes ?_
    (refuseIf_passes ?_ rfl)))))
  · simp; omega
  · simpa [h8] using hw
  · by_cases hw0 : c.world = 0x0100
    · simp [hw0]
    · obtain ⟨hnw, hown⟩ := hc hw0
      simpa [hw0, hnw] using hown
  · simpa [hh] using hf

theorem shaperConfig_runs {c : Ctx} {f : State} (hl : (nodeOf (c.w 0)).level = 2 ∨ (nodeOf (c.w 0)).level = 3)
    (hok : nodeOk (nodeOf (c.w 0)) = true) (ha : -64 ≤ signed 8 (fld (c.w 1) 7 0)) (hr : (c.w 2).toNat ≤ (c.w 3).toNat)
    (hcb : 16384 ≤ fld (c.w 4) 23 0) (hpb : 16384 ≤ fld (c.w 5) 23 0) (hw : c.world = 0x0100 ∨ nodeWorld f (nodeOf (c.w 0)) = c.world) :
    runShaperConfig c f =
      let h : Shaper :=
        { overhead := signed 8 (fld (c.w 1) 7 0), cir := (c.w 2).toNat, pir := (c.w 3).toNat, cbs := fld (c.w 4) 23 0,
          pbs := fld (c.w 5) 23 0, cTok := if bit (c.w 1) 30 then 0 else (fld (c.w 4) 23 0 : Int) * byteUnit,
          pTok := if bit (c.w 1) 30 then 0 else (fld (c.w 5) 23 0 : Int) * byteUnit }
      .done (updNode (nodeOf (c.w 0)) (fun x => { x with shaper := if bit (c.w 1) 31 then some h else none }) f) [] := by
  unfold runShaperConfig
  dsimp only
  refine refuseIf_passes ?_ (refuseIf_passes (by simp [hok]) (refuseIf_passes ?_ (refuseIf_passes ?_ (refuseIf_passes ?_
    (refuseIf_passes ?_ (refuseIf_passes (worldGround_of hw) ?_))))))
  · rcases hl with hl | hl <;> simp [hl]
  · simpa using ha
  · simpa using hr
  · simpa using hcb
  · simpa using hpb
  · cases bit (c.w 1) 30 <;> rfl

/-- A gate list's load of one of the opcode's kinds, whose image is read and whose target is a tree's own. -/
theorem gateLoad_runs {kinds : List Nat} {c : Ctx} {f : State} {g : GateList} (hd : c.hasData = true)
    (hk : kinds.contains (fld (c.w 0) 31 30) = true)
    (ht : fld (c.w 0) 31 30 = 0 ∨ treeOf f (fld (c.w 0) 5 0) = fld (c.w 0) 5 0) (hi : gateImage (c.w 0) c.data = .ok g) :
    runGateLoad kinds c f = installGate (c.w 0) g f := by
  unfold runGateLoad
  dsimp only
  refine refuseIf_passes (by simp [hd]) ?_
  rw [hi]
  refine refuseIf_passes ?_ rfl
  rw [hk]
  rcases ht with ht | ht <;> simp [ht]

/-- Settles O19: each command passes its grounds in turn; both loads of a gate list install it alike. -/
theorem trafficCommandsTakeEffect : Obligations.TrafficCommandsTakeEffect := by
  unfold Obligations.TrafficCommandsTakeEffect
  refine ⟨?_, ?_, fun g => ?_, fun g => ?_, fun k start g s hk hp hs => ?_, ?_, ?_, fun r => ?_⟩
  · refine endsOk (fun _ _ => rfl) (fun c f _ h => ?_) (fun _ _ _ => by simp)
    obtain ⟨hok, h1, h2, hw, h8, hp, hc, hh, hf⟩ := h
    exact schedNodeConfig_runs rfl rfl hok h1 h2 hw h8 hp hc hh hf
  · refine endsOk (fun _ _ => rfl) (fun c f _ h => ?_) (fun _ _ _ => by simp)
    obtain ⟨hl, hok, ha, hr, hcb, hpb, hw⟩ := h
    exact shaperConfig_runs hl hok ha hr hcb hpb hw
  · refine endsOk (fun _ _ => rfl) (fun c f _ h => ?_) (fun _ _ _ => by simp)
    obtain ⟨hd, hk, hi⟩ := h
    refine (gateLoad_runs hd ?_ ?_ hi).trans rfl
    · rcases hk with hk | ⟨hk, -⟩ <;> simp [hk]
    · exact hk.imp id And.right
  · refine endsOk (fun _ _ => rfl) (fun c f _ h => ?_) (fun _ _ _ => by simp)
    obtain ⟨hd, hk, ht, hi⟩ := h
    exact (gateLoad_runs hd (by simp [hk]) (.inr ht) hi).trans rfl
  · refine (onObject_of (by simp [hk]) _).trans (congrArg _ ?_)
    unfold gateTake
    rw [hp]
    exact if_pos hs
  · refine endsOk (fun _ _ => rfl) (fun c f _ h => ?_) (fun _ _ _ => by simp [queueWords, count48])
    obtain ⟨hok, hw⟩ := h
    exact refuseIf_passes (by simp [hok]) (refuseIf_passes (worldGround_of hw) rfl)
  · refine endsOk (fun _ _ => rfl) (fun c f _ h => ?_) (fun _ _ _ => by simp)
    obtain ⟨hw, hfn, hal, hs, hr, hb⟩ := h
    refine refuseIf_passes ?_ (refuseIf_passes ?_ (refuseIf_passes ?_ (refuseIf_passes (notForeign_of_reaches hr)
      (refuseIf_passes (by simp [hb]) rfl))))
    · simp [hw, hfn]
    · simp [hal]
    · rcases hs with hs | ⟨k, hk, hs⟩
      · simp [hs]
      · simp only [Bool.not_eq_false', Bool.or_eq_true, decide_eq_true_eq, List.any_eq_true, List.mem_range]
        exact .inr ⟨k, hk, hs⟩
  · refine endsOk (fun _ _ => rfl) (fun c f _ h => ?_) (fun _ _ _ => by simp)
    obtain ⟨hr, hm, hi⟩ := h
    refine refuseIf_passes (notForeign_of_reaches hr) ?_
    rw [hm]
    refine refuseIf_passes ?_ ?_
    · rcases hi with hi | hi
      · simp [hi]
      · simp [Nat.not_le.mpr hi]
    · split <;> rfl

end Sys2Proof.Machine
end

section
/-! PROOFS. Rules: loads, versions and exceptions (R202 to R206, R212, R216 to R223). -/

namespace Sys2Proof.Machine

/-- The version that a load or update alters, where one is open or may open. -/
theorem targetVersion_of {f : State} {v : Nat} {trees : Map Nat Tree} (h : openVersion f = some (v, trees)) :
    targetVersion f = (some v, trees) := by
  rw [targetVersion, h]

/-- Trees within the limits go into the version that is open. -/
theorem commitTrees_of {v : Nat} {trees : Map Nat Tree} {f : State} (h : storeFull f v trees = false) (k : State → State) :
    commitTrees (some v) trees f k = .done (k (putTrees v trees f)) [] := refuseIf_passes h rfl

/-- A graph that its image gives is not refused. -/
theorem parseGraphLoad_ne_refuse {c : Ctx} {f : State} {g : Graph} {st : Status} {ws : List Word} (hd : c.hasData = true)
    (hg : graphImage c.data = .ok g) : runParseGraphLoad c f ≠ .refuse st ws := by
  simp [runParseGraphLoad, hd, hg]

theorem ruleTreeLoad_runs {c : Ctx} {f : State} {t : Tree} {v : Nat} {trees : Map Nat Tree} (hd : c.hasData = true)
    (hi : treeImage f (fld (c.w 0) 5 0) c.data = .ok t) (hw : worldCode t.world = true) (hr : reaches c.world t.world = true)
    (hg : treeGround c f (fld (c.w 0) 5 0) (some t.world) = none) (hv : openVersion f = some (v, trees))
    (hs : storeFull f v (mset trees (fld (c.w 0) 5 0) t) = false) :
    runRuleTreeLoad c f =
      let u := updVersion v (fun x => { x with st := .opened, trees := mset trees (fld (c.w 0) 5 0) t }) f
      .done { u with rules := { u.rules with worlds := mset u.rules.worlds (fld (c.w 0) 5 0) t.world, images := f.rules.images + 1 } }
        [] := by
  unfold runRuleTreeLoad
  dsimp only
  refine refuseIf_passes (by simp [hd]) ?_
  rw [hi]
  refine refuseIf_passes (or_ground (by simp [hw]) (notForeign_of_reaches hr)) ?_
  rw [hg, targetVersion_of hv]
  exact commitTrees_of hs _

theorem ruleUpdate_runs {c : Ctx} {f : State} {t t' : Tree} {v k m : Nat} {trees : Map Nat Tree}
    (hg : treeGround c f (fld (c.w 0) 5 0) none = none) (hv : openVersion f = some (v, trees))
    (ht : mget trees (fld (c.w 0) 5 0) = some t)
    (ha : applyRecs f v (fld (c.w 0) 5 0) ((updateRecs c.words).getD []) t f.rules.copies f.rules.sides = .ok (t', k, m))
    (hs : storeFull f v (mset trees (fld (c.w 0) 5 0) t') = false) :
    runRuleUpdate c f =
      let u := updVersion v (fun x => { x with st := .opened, trees := mset trees (fld (c.w 0) 5 0) t' }) f
      .done { u with rules := { u.rules with copies := k, sides := m } } [] := by
  unfold runRuleUpdate
  dsimp only
  rw [hg, targetVersion_of hv]
  dsimp only
  rw [ht]
  dsimp only [Option.getD_some]
  rw [ha]
  exact commitTrees_of hs _

theorem exceptionConfig_runs {c : Ctx} {f : State} (hd : fld (c.w 0) 25 24 ∈ excPermitted (fld (c.w 0) 23 16))
    (hs : fld (c.w 0) 7 0 ≤ 84 ∨ fld (c.w 0) 7 0 = 0xFF) (hr : 1 ≤ fld (c.w 1) 31 16) (ha : actOp ⟨c.w 2, c.w 3⟩ ≤ 1)
    (hf : actForce ⟨c.w 2, c.w 3⟩ = false) (hc : actColour ⟨c.w 2, c.w 3⟩ ≠ 3) (hb : (hrqAt f (fld (c.w 1) 7 0)).bound ≠ 0xFF)
    (hw : (hrqAt f (fld (c.w 1) 7 0)).world = 0x0100) :
    runExceptionConfig c f =
      let e : ExcCfg := { disp := fld (c.w 0) 25 24, rate := fld (c.w 1) 31 16, hostq := fld (c.w 1) 7 0, act := ⟨c.w 2, c.w 3⟩ }
      let sources := if fld (c.w 0) 7 0 = 0xFF then List.range 85 else [fld (c.w 0) 7 0]
      .done { f with rules := { f.rules with bank := { f.rules.bank with
        exc := sources.foldl (fun m i => mset m (fld (c.w 0) 23 16 * 256 + i) e) f.rules.bank.exc } } } [] := by
  unfold runExceptionConfig
  dsimp only
  refine refuseIf_passes ?_ (refuseIf_passes (by simp; omega) (refuseIf_passes (by simp [hb, hw]) (refuseIf_passes ?_ rfl)))
  · rcases hs with hs | hs
    · simp [hd, Nat.not_lt.mpr hs]
    · simp [hd, hs]
  · simp [Nat.not_lt.mpr ha, hf, hc]

/-- Settles O20: the graph waits for its epoch, the loads and updates go into the version that is open, and the versions move as R220
orders. -/
theorem ruleCommandsTakeEffect : Obligations.RuleCommandsTakeEffect := by
  unfold Obligations.RuleCommandsTakeEffect
  refine ⟨fun p g s h hok hd hg hroom => ?_, fun t v trees => ?_, fun t t' v k m trees => ?_, fun v x => ?_, ?_, ?_, fun v s hv hst hn => ?_,
    fun v s hv hst hn hs => ?_⟩
  · exact command_staged opParseGraphLoad p s h (fun st ws => parseGraphLoad_ne_refuse hd hg) hroom
  · refine endsOk (fun _ _ => rfl) (fun c f _ h => ?_) (fun _ _ _ => by simp)
    obtain ⟨hd, hi, hw, hr, hg, hv, hs⟩ := h
    exact ruleTreeLoad_runs hd hi hw hr hg hv hs
  · refine endsOk (fun _ _ => rfl) (fun c f _ h => ?_) (fun _ _ _ => by simp)
    obtain ⟨hg, hv, ht, ha, hs⟩ := h
    exact ruleUpdate_runs hg hv ht ha hs
  · refine endsOk (fun _ _ => rfl) (fun c f _ h => ?_) (fun _ _ _ => by simp)
    obtain ⟨hh, hf⟩ := h
    refine refuseIf_passes (by simp [hh]) ?_
    rw [hf]
  · exact endsOk (fun _ _ => rfl) (fun c f _ _ => rfl) (fun _ _ _ => by simp)
  · refine endsOk (fun _ _ => rfl) (fun c f _ h => ?_) (fun _ _ _ => by simp)
    obtain ⟨hd, hs, hr, ha, hf, hc, hb, hw⟩ := h
    exact exceptionConfig_runs hd hs hr ha hf hc hb hw
  · exact (onObject_of (by simp [hv]) _).trans (congrArg _ (whenever_of (by simp [hst, hn]) _ s))
  · exact (onObject_of (by simp [hv]) _).trans (congrArg _ (whenever_of (by simp [hst, hn, passed, hs]) _ s))

end Sys2Proof.Machine
end

section
/-! PROOFS. The MAC, ageing, LPM and Stitch commands (R236 to R239, R243 to R245, R247, R459). -/

namespace Sys2Proof.Machine

theorem macStaticAdd_runs {c : Ctx} {f : State} (hk : keyGround c = none) (hd : destOk (c.w 0) = true)
    (hv : ∀ n, c.master = .vf n → serves (destWorld f (c.w 0)) c.world = true)
    (hs : lostSlices f (wordsKey c) = [] → ∀ i < 4, ∀ e, macFind (macAt f i) (wordsKey c) = some e → e.static = false)
    (hp : ∀ i ∈ (if (lostSlices f (wordsKey c)).isEmpty then [0, 1, 2, 3] else lostSlices f (wordsKey c)),
      (macPut (staticEntry c f) (macAt f i)).isSome = true) :
    runMacStaticAdd c f =
      .done (putIn (if (lostSlices f (wordsKey c)).isEmpty then [0, 1, 2, 3] else lostSlices f (wordsKey c)) (staticEntry c f) f) [] := by
  unfold runMacStaticAdd
  dsimp only
  refine refuseIf_passes (by simp [hd]) ?_
  rw [hk]
  refine refuseIf_passes ?_ (refuseIf_passes ?_ (refuseIf_passes ?_ rfl))
  · cases hm : c.master with
    | vf n => simp [hv n hm]
    | _ => rfl
  · rw [Bool.and_eq_false_iff]
    by_cases hl : lostSlices f (wordsKey c) = []
    · refine .inr (List.any_eq_false.mpr fun i hi => ?_)
      cases hm : macFind (macAt f i) (wordsKey c) with
      | none => simp
      | some e => simp [hs hl i (List.mem_range.mp hi) e hm]
    · exact .inl (by simpa using hl)
  · exact List.any_eq_false.mpr fun i hi => by simpa [Option.isSome_iff_ne_none] using hp i hi

theorem macDelete_runs {c : Ctx} {f : State} (hk : keyGround c = none) (hn : fld (c.w 0) 3 0 ≤ 3 ∨ fld (c.w 0) 3 0 = 0xF)
    (he : ∃ i ∈ sliceList (fld (c.w 0) 3 0), (macFind (macAt f i) (wordsKey c)).isSome = true) :
    runMacDelete c f = .done (forEach (sliceList (fld (c.w 0) 3 0))
      (fun i t => setMac i (macRemove (macAt t i) fun e => e.key = wordsKey c) t) f) [] := by
  unfold runMacDelete
  dsimp only
  refine refuseIf_passes ?_ ?_
  · rcases hn with hn | hn
    · simp [Nat.not_lt.mpr hn]
    · simp [hn]
  · rw [hk]
    refine refuseIf_passes ?_ rfl
    obtain ⟨i, hi, hf⟩ := he
    exact List.all_eq_false.mpr ⟨i, hi, by simpa [Option.isSome_iff_ne_none] using hf⟩

/-- LPM_ADD and LPM_DELETE of an entry that the words hold, in a table that is there and that its world reaches. -/
theorem lpm_runs {delete : Bool} {c : Ctx} {f : State} {t : Lpm} {x : Prefix} {l : List Prefix}
    (hw : worldCode (fld (c.w 0) 31 16) = true) (hr : reaches c.world (fld (c.w 0) 31 16) = true)
    (ht : mget f.rules.lpm (fld (c.w 0) 31 16) = some t) (hx : prefixOf c.words = .ok x)
    (hl : l = if delete then t.prefixes.filter fun y => !samePrefix x y else putPrefix t.prefixes x)
    (hd : delete = true → t.prefixes.any (samePrefix x) = true)
    (hu : lpmUnits (mset f.rules.lpm (fld (c.w 0) 31 16) { t with prefixes := l }) ≤ 1048576) :
    runLpm delete c f =
      .done { f with rules := { f.rules with lpm := mset f.rules.lpm (fld (c.w 0) 31 16) { t with prefixes := l } } } [] := by
  unfold runLpm
  dsimp only
  refine refuseIf_passes (by simp [hw]) (refuseIf_passes (notForeign_of_reaches hr) ?_)
  rw [hx, ht]
  dsimp only
  cases delete with
  | true =>
    rw [if_pos rfl] at hl
    rw [if_pos rfl, ← hl]
    exact refuseIf_passes (by simp [hd rfl]) (refuseIf_passes (by simp [Nat.not_lt.mpr hu]) rfl)
  | false =>
    rw [if_neg Bool.false_ne_true] at hl
    rw [if_neg Bool.false_ne_true, ← hl]
    exact refuseIf_passes (by simp [Nat.not_lt.mpr hu]) rfl

theorem lpmLoad_runs {c : Ctx} {f : State} {l : List Prefix} (hd : c.hasData = true) (hw : worldCode (fld (c.w 0) 15 0) = true)
    (hr : reaches c.world (fld (c.w 0) 15 0) = true) (hu : lpmUnits f.rules.lpm + lpmNeed c.data ≤ 1048576)
    (hn : (wordAt c.data 0x0C).toNat ≤ 1048576) (hmagic : wordAt c.data 0 = 0x4C504D54#32) (hver : wordAt c.data 4 = 1)
    (ht : (wordAt c.data 8).toNat = fld (c.w 0) 15 0) (hlen : c.data.length = 64 + 32 * (wordAt c.data 0x0C).toNat)
    (hcrc : crc32 (c.data.drop 0x1C) = wordAt c.data 0x18) (hz : ∀ b ∈ slice c.data 0x1C 36, b = 0)
    (hrsv : fld (wordAt c.data 0x14) 31 16 = 0)
    (hrec : lpmRecords (fld (c.w 0) 15 0) (wordAt c.data 0x0C).toNat 0 (c.data.drop 64) [] = .ok l) :
    runLpmLoad c f =
      let new : Lpm := { routerMac := (wordAt c.data 0x10).toNat + fld (wordAt c.data 0x14) 15 0 * 2 ^ 32, prefixes := l }
      .done { f with rules := { f.rules with lpm := mset f.rules.lpm (fld (c.w 0) 15 0) new } } [] := by
  have hany : ((slice c.data 0x1C 36).any (· ≠ 0)) = false := by simpa using hz
  unfold runLpmLoad
  dsimp only
  refine refuseIf_passes (by simp [hd, hw]) (refuseIf_passes (notForeign_of_reaches hr) (refuseIf_passes (by simp [Nat.not_lt.mpr hu])
    (refuseIf_passes ?_ (refuseIf_passes ?_ ?_))))
  · simp only [hmagic, hver, ht, hcrc, hlen, ne_eq, not_true_eq_false, decide_false, Bool.or_false, decide_eq_false_iff_not]
    omega
  · rw [hany, hrsv]
    simp [Nat.not_lt.mpr hn]
  · rw [hrec]

theorem stitchConfig_runs {c : Ctx} {f : State} (hs : fld (c.w 0) 7 0 ≤ 84) :
    runStitchConfig c f =
      let src := fld (c.w 0) 7 0
      let was := mgetD f.rules.bank.stitch src true
      let t := { f with rules := { f.rules with bank := { f.rules.bank with
        stitch := mset f.rules.bank.stitch src (bit (c.w 0) 31) } } }
      .done (if bit (c.w 0) 31 ∧ was = false then
          setRelease src (mgetD f.rules.nextSeq src 0) { t with rules := { t.rules with passedTo := mdel t.rules.passedTo src } }
        else if was ∧ bit (c.w 0) 31 = false then
          forEach (heldNow f src) (fun e t => releaseFrame e.2 (seenSeq src (releasePoint f src + e.1) t)) t
        else t) [] := by
  unfold runStitchConfig
  dsimp only
  refine refuseIf_passes (by simp [Nat.not_lt.mpr hs]) ?_
  cases bit (c.w 0) 31 <;> cases mgetD f.rules.bank.stitch (fld (c.w 0) 7 0) true <;> rfl

/-- Settles O21: each command passes its grounds in turn, and then does what its handler says. -/
theorem tableCommandsTakeEffect : Obligations.TableCommandsTakeEffect := by
  unfold Obligations.TableCommandsTakeEffect
  refine ⟨?_, ?_, fun e => ?_, ?_, ?_, fun t x => ?_, fun t x => ?_, fun l => ?_, ?_⟩
  · refine endsOk (fun _ _ => rfl) (fun c f _ h => ?_) (fun _ _ _ => by simp)
    obtain ⟨hk, hd, hv, hs, hp⟩ := h
    exact macStaticAdd_runs hk hd hv hs hp
  · refine endsOk (fun _ _ => rfl) (fun c f _ h => ?_) (fun _ _ _ => by simp)
    obtain ⟨hk, hn, he⟩ := h
    exact macDelete_runs hk hn he
  · refine endsOk (fun _ _ => rfl) (fun c f _ h => ?_) (fun _ _ _ => by simp)
    obtain ⟨hk, hn, he⟩ := h
    refine refuseIf_passes (by simp [Nat.not_lt.mpr hn]) ?_
    rw [hk, he]
    rfl
  · refine endsOk (fun _ _ => rfl) (fun c f _ h => ?_) (fun _ _ _ => by simp)
    obtain ⟨h0, h3, h1⟩ := h
    refine refuseIf_passes ?_ (refuseIf_passes ?_ (refuseIf_passes ?_ rfl))
    · simpa using h0
    · refine or_ground (by simpa using h3) ?_
      simpa using fun h => (h1 h).1
    · rw [Bool.and_assoc]
      by_cases hsc : fld (c.w 0) 31 30 = 1
      · rw [notForeign_of_reaches (h1 hsc).2, Bool.and_false]
      · simp [hsc]
  · refine endsOk (fun _ _ => rfl) (fun c f _ h => ?_) (fun _ _ _ => by simp)
    obtain ⟨hw, hl, hsum, ha⟩ := h
    refine refuseIf_passes ?_ (refuseIf_passes (by simp [Nat.not_lt.mpr hl]) (refuseIf_passes ?_ rfl))
    · rcases hw with hw | hw <;> simp [hw]
    · refine or_ground (by simpa using hsum) ?_
      rcases ha with ha | ha
      · simp [ha]
      · simp [Nat.not_lt.mpr ha]
  · refine endsOk (fun _ _ => rfl) (fun c f _ h => ?_) (fun _ _ _ => by simp)
    obtain ⟨hw, hr, ht, hx, hu⟩ := h
    exact lpm_runs (delete := false) hw hr ht hx rfl (by simp) hu
  · refine endsOk (fun _ _ => rfl) (fun c f _ h => ?_) (fun _ _ _ => by simp)
    obtain ⟨hw, hr, ht, hx, ha, hu⟩ := h
    exact lpm_runs (delete := true) hw hr ht hx rfl (fun _ => ha) hu
  · refine endsOk (fun _ _ => rfl) (fun c f _ h => ?_) (fun _ _ _ => by simp)
    obtain ⟨hd, hw, hr, hu, hn, hmagic, hver, ht, hlen, hcrc, hz, hrsv, hrec⟩ := h
    exact lpmLoad_runs hd hw hr hu hn hmagic hver ht hlen hcrc hz hrsv hrec
  · exact endsOk (fun _ _ => rfl) (fun c f _ h => stitchConfig_runs h) (fun _ _ _ => by simp)

end Sys2Proof.Machine
end

section
/-! PROOFS. A frame from its ingress unit to the forward unit (O22). -/

namespace Sys2Proof.Machine

variable {s : State}

/-! ## Flights -/

@[simp] theorem mgetD_mset_self {κ α : Type} [DecidableEq κ] (m : Map κ α) (k : κ) (a d : α) : mgetD (mset m k a) k d = a := by
  simp [mgetD, mget_mset_self]

theorem dropCounted_of_flight {id : Nat} {x : Flight} (h : flightAt s id = some x) (c scope idx : Nat) :
    dropCounted c scope idx id s = bumpW c scope idx x.frame.world (dropFlight id s) := by
  simp [dropCounted, h]

/-- A frame that leaves its rule version keeps all but the mark of being counted. -/
theorem flightAt_leaveVersion_setFlight (id : Nat) (x : Flight) :
    flightAt (leaveVersion id (setFlight id x s)) id = some { x with counted := false } := by
  rw [leaveVersion, flightAt_setFlight_self]
  obtain ⟨frame, place, key, walk, act, dest, void, at_, counted⟩ := x
  cases counted with
  | true => exact flightAt_setFlight_self ..
  | false => exact flightAt_setFlight_self ..

/-! ## The ingress unit and the distributor -/

theorem frameIngress_runs {source : Nat} (card : Nat) (bytes : List Byte) (fits : Bool) (h1 : 64 ≤ source) (h2 : source < 82) (h3 : card < 64) :
    exec (.frameIngress source card bytes fits) s = .next
      (if source < 80 && recognised s (source - 64) bytes then ptpReceive (source - 64) bytes s
       else ingress { frame := { source := source, card := if source < 80 then 0 else card, bytes := bytes } } fits s) :=
  onObject_of (by simp [h1, h2, h3]) _

theorem ingress_of_length {x : Flight} {fits : Bool}
    (h : judgedLen s x.frame.source x.frame.card x.frame.bytes < 64 ∨ 12288 < judgedLen s x.frame.source x.frame.card x.frame.bytes) :
    ingress x fits s = bumpW cDropLength 5 x.frame.source x.frame.world s := by
  unfold ingress
  exact if_pos (by simpa using h)

/-- A frame of a length that fits is dropped for want of room, or launched. -/
theorem ingress_of_fitting_length {x : Flight} {fits : Bool} (h1 : 64 ≤ judgedLen s x.frame.source x.frame.card x.frame.bytes)
    (h2 : judgedLen s x.frame.source x.frame.card x.frame.bytes ≤ 12288) :
    ingress x fits s = if fits = false then bumpW cDropIngress 5 x.frame.source x.frame.world s
      else launch { x with
        frame := { x.frame with len := x.frame.bytes.length }
        place := if (match rxPoint x.frame.source x.frame.card with | some p => secured s p 1 | none => false) then .array else .ingress } s := by
  unfold ingress
  refine (if_neg (by simp [Nat.not_lt.mpr h1, Nat.not_lt.mpr h2])).trans ?_
  cases fits <;> rfl

theorem flightAt_launch (x : Flight) : flightAt (launch x s) s.pkt.next = some { x with
    frame := { x.frame with epoch := s.epoch.current.toNat, rver := s.rules.current, num := s.pkt.next }
    counted := true, at_ := s.mono } :=
  mget_mset_self ..

theorem launch_counts (x : Flight) : (launch x s).pkt.next = s.pkt.next + 1 ∧ (launch x s).epoch.inFlight = s.epoch.inFlight + 1 ∧
    (versionAt (launch x s) s.rules.current).inFlight = (versionAt s s.rules.current).inFlight + 1 := by
  refine ⟨rfl, rfl, ?_⟩
  exact congrArg Version.inFlight (versionAt_updVersion_self (epochIn s) s.rules.current fun v => { v with inFlight := v.inFlight + 1 })

theorem gateLeaving_of_none (h : s.halter.leaving = []) : gateLeaving s = s := by
  simp [gateLeaving, h, forEach]

theorem distributorSpray_runs {id : Nat} {x : Flight} (hx : flightAt s id = some x) (hp : x.place = .ingress) (hv : x.void = false)
    (he : earlierWaits s id x.frame.source = false) (ho : s.halter.stage = .outside) (hl : s.halter.leaving = []) :
    exec (.distributorSpray id) s = .next (spray id x s) := by
  have hrun : exec (.distributorSpray id) s =
      .next (whenever (x.place = .ingress && !x.void && !earlierWaits s id x.frame.source && !keeperPath s)
        (fun s => spray id x (gateLeaving s)) s) := by
    simp only [exec, execDistributorSpray, hx]
  rw [hrun, whenever_of (by simp [hp, hv, he, keeperPath, ho]), gateLeaving_of_none hl]

/-! ## The classify unit and the forward unit -/

/-- The merged action 0 of a frame without a channel lets it go on: it keeps its class and colour and leaves its rule version. -/
theorem flightAt_applyMerged {op : Action} {x : Flight} (hc : x.chan = none) (h0 : actOp op = 0) (id : Nat) (b : Bank) (world : Nat) :
    flightAt (applyMerged id b x op none world s) id = some { x with
      frame := { x.frame with world := world, cls := if actSetClass op then actClass op else 0, colour := if actSetColour op then actColour op else 0 }
      act := mergeActions op none (Config.freeNat s.free % 2 = 1), place := .classified, counted := false } := by
  have hop : (mergeActions op none (Config.freeNat s.free % 2 = 1)).op = 0 := h0
  simp only [applyMerged, hc, hop, Bool.false_eq_true, if_false, flightAt_leaveVersion_setFlight]
  rfl

/-- In a world that does not learn the source lookup does nothing. -/
theorem sourceLookup_of_disabled {b : Bank} {k : MacKey} (h : (learnCfg b k.1).enable = false) (f : Frame) : sourceLookup b f k s = (s, false) := by
  unfold sourceLookup
  split
  · rfl
  · exact if_pos (by simp [h])

theorem keeperRecord_outside (h : s.halter.stage ≠ .s1) (x : Flight) (routed : Bool) (dest : Word) : keeperRecord x routed dest s = s :=
  if_pos (by simp [h])

/-- A frame whose destination is found, in a world that does not learn, goes on with it. -/
theorem forwardTo_of_found {id : Nat} {b : Bank} {x : Flight} {mac vid : Nat} {e : MacEntry}
    (hf : macFind (macAt s x.frame.slice) (x.frame.world, vid, mac) = some e) (hl : (learnCfg b x.frame.world).enable = false)
    (ho : ownEntry x.frame x.frame.card e.dest = false) (hd : destKind e.dest ≠ 5) (hs : s.halter.stage ≠ .s1) (routed : Bool) :
    forwardTo id b x routed mac vid s = setFlight id
      { x with dest := e.dest, place := .out, frame := { x.frame with dir := if destKind e.dest = 0 then 0 else x.frame.dir } }
      (countEvent (0x42 + x.frame.slice) 0x101 x.frame.world 1 s) := by
  have hu : lookedUp x.frame.slice x.frame.world true s = countEvent (0x42 + x.frame.slice) 0x101 x.frame.world 1 s := rfl
  have hk := keeperRecord_outside (s := countEvent (0x42 + x.frame.slice) 0x101 x.frame.world 1 s) hs x routed e.dest
  simp [forwardTo, destLookup, hf, hu, sourceLookup_of_disabled, hl, ho, hd, hk]

/-- Settles O22: each unit's event takes its branch; the flight that stands afterwards is the one written last. -/
theorem framesPassTheSlices : Obligations.FramesPassTheSlices := by
  unfold Obligations.FramesPassTheSlices
  refine ⟨fun source card bytes fits s h1 h2 h3 => ?_, fun id x s hx hp hv hd he ho hl hpo hn => ?_,
    fun id x b s hx hp hv hpo hb => ?_, fun id x b op world hit s hx hp hv hpo hb hst hex hch hw h0 => ?_,
    fun id x b e s hx hp hv hpo hb hlpm hf hlearn hown hdest hst => ?_, fun id x s hx hp hv hpo => ?_⟩
  · intro n
    refine ⟨fun hlt hr => ?_, fun hr => ?_⟩
    · rw [frameIngress_runs card bytes fits h1 h2 h3, if_pos (by simp [hlt, hr])]
    · have hno : ¬ ((decide (source < 80) && recognised s (source - 64) bytes) = true) := by
        intro h
        obtain ⟨hlt, hrec⟩ : source < 80 ∧ recognised s (source - 64) bytes = true := by simpa using h
        simp [hr hlt] at hrec
      rw [frameIngress_runs card bytes fits h1 h2 h3, if_neg hno]
      refine ⟨fun hlen => congrArg _ (ingress_of_length hlen), fun hlo hhi hfit => ?_, fun hlo hhi hfit => ?_⟩
      · rw [ingress_of_fitting_length hlo hhi, if_pos hfit]
      · rw [ingress_of_fitting_length hlo hhi, if_neg (by simp [hfit])]
        exact ⟨_, _, rfl, flightAt_launch _, rfl, rfl, rfl, rfl, rfl, rfl, launch_counts _⟩
  · intro en p q
    rw [distributorSpray_runs hx hp hv he ho hl]
    have hne : (enabledSlices s).isEmpty = false := by simpa using hn
    simp only [spray, hpo, hne, hd, Bool.false_eq_true, if_false]
    exact ⟨_, rfl, flightAt_setFlight_self _ id _, mgetD_mset_self .., mgetD_mset_self ..⟩
  · intro w hexc
    have hparsed : parsed id b x s = setFlight id { x with key := keyOf x.frame w, walk := w.trail, place := .parsed } s := if_pos hexc
    rw [← hparsed]
    simp [exec, execParseWalk, hx, hp, hv, hpo, hb]
  · have hrun : exec (.classify id) s = .next (classify id b x s) := by simp [exec, execClassify, hx, hp, hv, hpo, hb]
    rw [hrun]
    simp only [classify, hst, if_false, hex, Bool.false_eq_true, hw]
    exact ⟨_, _, rfl, flightAt_applyMerged hch h0 id b world, rfl, rfl, rfl, rfl, rfl⟩
  · have hrun : exec (.forwardLookup id) s = .next (forward id b x s) := by simp [exec, execForwardLookup, hx, hp, hv, hpo, hb]
    rw [hrun, forward, hlpm]
    exact congrArg _ (forwardTo_of_found hf hlearn hown hdest hst false)
  · have hrun : exec (.parseWalk id) s = .next (dropCounted cDropChannel 9 (0x42 + x.frame.slice) id s) := by
      simp [exec, execParseWalk, hx, hp, hv, hpo]
    rw [hrun, dropCounted_of_flight hx]
    rfl

end Sys2Proof.Machine
end

section
/-! PROOFS. Learning, ageing, Stitch, enqueue and Rein's choice (O23). -/

namespace Sys2Proof.Machine

variable {s : State}

/-! ## Learning and ageing -/

theorem learnRequest_runs {k : Nat} (hk : k < 4) (hp : powered s k = true) : exec (.learnRequest k) s = .next (learnOne k s) :=
  (onObject_of (by simp [hk]) _).trans (congrArg _ (whenever_of hp _ s))

/-- A learn request for a key that the table lacks meets the limit, or adds the entry where it finds room. -/
theorem learnOne_of_new {k : Nat} {r : LearnReq} {rest : List LearnReq} (hl : (macAt s k).learns = r :: rest)
    (hf : macFind (macAt s k) (r.world, r.vid, r.mac) = none) :
    learnOne k s = if (learnCfg s.rules.bank r.world).limit ≤ learnedOf (macAt s k) r.world then
        bumpSlice 7 k r.world (setMac k { macAt s k with learns := rest } s)
      else match macInsert { macAt s k with learns := rest }
          { world := r.world, vid := r.vid, mac := r.mac, static := false, age := ageNow s, dest := r.dest } with
        | some t => countEvent (0x42 + k) 0x104 r.world 1 (bumpSlice 4 k r.world (setMac k t (setMac k { macAt s k with learns := rest } s)))
        | none => bumpSlice 8 k r.world (setMac k { macAt s k with learns := rest } s) := by
  simp only [learnOne, hl, hf] <;> rfl

theorem ageingScan_runs {k : Nat} (hk : k < 4) (hp : powered s k = true) (ht : (macAt s k).scanAt + s.rules.bank.scanS * sec ≤ s.mono) :
    exec (.ageingScan k) s = .next (scanSlice k s) :=
  (onObject_of (by simp [hk]) _).trans (congrArg _ (whenever_of (by simpa [hp, passed] using ht) _ s))

theorem compareAndDelete_runs {k : Nat} (hk : k < 4) (hp : powered s k = true) (hl : (macAt s k).learns = []) :
    exec (.compareAndDelete k) s = .next (compareDelete k s) :=
  (onObject_of (by simp [hk]) _).trans (congrArg _ (whenever_of (by simp [hp, hl]) _ s))

theorem compareDelete_of_found {k : Nat} {d e : MacEntry} {rest : List MacEntry} (hd : (macAt s k).deletes = d :: rest)
    (hf : macFind { macAt s k with deletes := rest } d.key = some e) :
    compareDelete k s = if e.static = false ∧ e.age = d.age then
        bumpSlice 5 k d.world (setMac k (macRemove { macAt s k with deletes := rest } fun x => x.key = d.key) s)
      else setMac k { macAt s k with deletes := rest } s := by
  simp only [compareDelete, hd, hf]
  simp

/-! ## Stitch -/

theorem stitchArrival_runs {id : Nat} {x : Flight} (hx : flightAt s id = some x) (hp : x.place = .out) :
    exec (.stitchArrival id) s = .next (stitchArrive id x s) := by
  simp [exec, execStitchArrival, hx, hp, whenever]

/-- A sound frame of a bank, or a void, is taken under that bank. -/
theorem stitchArrive_of_bank {x : Flight} {b : Bank} (hb : bankOf s x.frame = some b) (hs : x.frame.poison = false ∨ x.void = true) (id : Nat) :
    stitchArrive id x s = stitchTake id b x s := by
  unfold stitchArrive
  rw [if_neg (by rcases hs with h | h <;> simp [h]), hb]

theorem stitchTake_in_order {id : Nat} {b : Bank} {x : Flight} (ho : stitchOn s b x.frame = true)
    (h0 : seqAhead (releasePoint s x.frame.source) x.frame.seq = 0) :
    stitchTake id b x s = releaseRun (stitchHeld s + 1) x.frame.source
      (releaseFrame id (setRelease x.frame.source (releasePoint s x.frame.source + 1) s)) := by
  simp [stitchTake, ho, h0]

theorem stitchTake_ahead {id : Nat} {b : Bank} {x : Flight} (ho : stitchOn s b x.frame = true)
    (h1 : 1 ≤ seqAhead (releasePoint s x.frame.source) x.frame.seq) (h2 : seqAhead (releasePoint s x.frame.source) x.frame.seq < 2 ^ 19)
    (hroom : stitchHeld s < 8192) :
    stitchTake id b x s = setFlight id { x with place := .stitch, at_ := s.mono } s := by
  unfold stitchTake
  dsimp only
  rw [if_neg (by simp [ho]), if_neg (Nat.ne_of_gt h1), if_pos h2, if_neg (Nat.not_le.mpr hroom)]

/-- A SOURCE that Stitch does not order lets the frame go. -/
theorem stitchTake_unordered {id : Nat} {b : Bank} {x : Flight} (ho : stitchOn s b x.frame = false) :
    stitchTake id b x s =
      if stitchLingers s x.frame.source && seqAhead (releasePoint s x.frame.source) x.frame.seq = 0 then
        releaseRun (stitchHeld s + 1) x.frame.source (setRelease x.frame.source (releasePoint s x.frame.source + 1)
          (releaseFrame id (seenSeq x.frame.source x.frame.seq s)))
      else releaseFrame id (seenSeq x.frame.source x.frame.seq s) :=
  if_pos (by simp [ho])

theorem stitchTimeout_runs {id : Nat} {x : Flight} (hx : flightAt s id = some x) (hp : x.place = .stitch) (ht : x.at_ + 8 * us ≤ s.mono) :
    exec (.stitchTimeout id) s = .next (stitchSkip id x s) := by
  simp [exec, execStitchTimeout, hx, hp, whenever, passed, ht]

/-! ## Enqueue and Rein -/

/-- A frame to one destination, without mirrors and from its ingress unit's cells, takes its cells and is one copy. -/
theorem enqueue_single {id : Nat} {room : Bool} {x : Flight} {cells : List Nat} {t : State} (hp : x.frame.poison = false)
    (hc : x.frame.cells = []) (hm : x.act.mirrors = []) (hd : destKind x.dest < 4)
    (ht : takeCells 0 (dataCells x.frame.len)
      (frameIn 0x46 x.frame.world x.frame.len (endFlight id (epochOut x.frame.epoch (leaveVersion id s)))) = some (cells, t)) :
    enqueue id room x s = sendCopy x.dest x.act.queue none room { x.frame with pool := 0, cells := cells, mirror := false, session := none }
      (bumpBy { cid := cid 7 9 2, scope := 10, idx := x.frame.slice, world := x.frame.world } 0
        { t with mem := { t.mem with ondie := mupd t.mem.ondie x.frame.world 0 (· + cells.length) } }) := by
  have hne : destKind x.dest ≠ 4 := Nat.ne_of_lt hd
  simp [enqueue, hp, hc, hm, ht, mirrorCopies, mainCopies, groupForeign, filteredMembers, hne, sendCopies, countMirrors, forEach]

theorem enqueue_runs {id : Nat} {room : Bool} {x : Flight} (hx : flightAt s id = some x) (hp : x.place = .released)
    (ha : mayRunAhead s x = true) (hf : firstReleased s id x = true) (hm : x.act.mirrors = []) (ho : moveOpen s x.frame 1 = true)
    (hd : destKind x.dest < 4) : exec (.enqueue id room) s = .next (enqueue id room x s) := by
  have hcopies : (mirrorCopies s x).1.length + (mainCopies s x).length = 1 := by
    simp [mirrorCopies, mainCopies, hm, Nat.ne_of_lt hd]
  simp [exec, execEnqueue, hx, hp, ha, hf, hcopies, ho, whenever]

theorem decide8_of_chosen {root : NodeId} {path : List (NodeId × NodeId × Nat × Nat)} {t : State} (hr : rootReady s root = true)
    (hd : descend 4 root (livePaths (dropAllHeads root s) root) (dropAllHeads root s) = some (path, t)) :
    decide8 root s = if readWaits (dropAllHeads root s) path then dropAllHeads root s else sendChosen root path t := by
  simp [decide8, hr, hd]

/-- Settles O23: each event takes its branch; Stitch's four answers follow from how far ahead the SEQ lies and whether the SOURCE is
ordered, now or still. -/
theorem framesLearnOrderAndQueue : Obligations.FramesLearnOrderAndQueue := by
  unfold Obligations.FramesLearnOrderAndQueue
  refine ⟨fun k r rest s hk hp hl hf => ?_, fun k s hk hp ht => ?_, fun k d e rest s hk hp hl hd hf => ?_,
    fun id x b s hx hp hb hs => ?_, fun id x s hx hp hv => ?_, fun id x s hx hp ht => ?_,
    fun id room x cells t s hx hp ha hf hpo hc hm ho hd ht => ?_, fun side i s hs hi => ?_⟩
  · intro t new
    rw [learnRequest_runs hk hp, learnOne_of_new hl hf]
    exact ⟨fun h => congrArg _ (if_pos h), fun h => congrArg _ (if_neg (Nat.not_le.mpr h))⟩
  · exact ageingScan_runs hk hp ht
  · rw [compareAndDelete_runs hk hp hl, compareDelete_of_found hd hf]
  · intro a
    rw [stitchArrival_runs hx hp, stitchArrive_of_bank hb hs]
    refine ⟨fun ho h0 => congrArg _ (stitchTake_in_order ho h0), fun ho h1 h2 hroom => congrArg _ (stitchTake_ahead ho h1 h2 hroom),
      fun ho hl => ?_, fun ho hl => ?_⟩
    · simp only [stitchTake_unordered ho, hl, Bool.false_and, Bool.false_eq_true, if_false, seenSeq]
      rfl
    · intro src seen next t
      simp only [stitchTake_unordered ho, hl, Bool.true_and, decide_eq_true_eq, seenSeq, if_true]
      rfl
  · rw [stitchArrival_runs hx hp]
    exact ⟨fun h => by simp [stitchArrive, h, hv], fun h hb => by simp [stitchArrive, h, hb, hv]⟩
  · intro src a held t
    rw [stitchTimeout_runs hx hp ht]
    exact ⟨fun h => congrArg _ (if_neg (Nat.not_le.mpr h)), fun h => congrArg _ (if_pos h)⟩
  · rw [enqueue_runs hx hp ha hf hm ho hd, enqueue_single hpo hc hm hd ht]
  · have hrun : exec (.reinDecision side i) s = .next (decide8 ⟨side, 0, i⟩ s) := onObject_of (by simp [hs, hi]) _
    rw [hrun]
    exact ⟨fun h => congrArg _ (if_pos (by simp [h])), fun path t hr hd => congrArg _ (decide8_of_chosen hr hd)⟩

end Sys2Proof.Machine
end

section
/-! PROOFS. The cipher array's commands (O24). -/

namespace Sys2Proof.Machine

variable {c : Ctx} {f : State}

/-- The grounds of SC_CONFIG that come before it looks at ENABLE. -/
def scSound (c : Ctx) (f : State) : Prop :=
  worldCode (fld (c.w 1) 31 16) = true ∧ fld (c.w 0) 15 8 ≤ 79 ∧ secured f (fld (c.w 0) 15 8) (b2n (bit (c.w 0) 7)) = true ∧
    fld (c.w 0) 3 0 ≤ 3 ∧ fld (c.w 0) 5 4 ≠ 3 ∧ fld (c.w 1) 14 13 ≠ 3 ∧ (2 ≤ fld (c.w 0) 3 0 → (c.w 7).toNat < 2 ^ 30)

/-- What SC_CONFIG does once its words are sound and its world reaches the channel. -/
def scWritten (c : Ctx) (f : State) : HRes :=
  if !bit (c.w 0) 6 then
    .done { f with cipher := { f.cipher with channels := mdel f.cipher.channels (fld (c.w 0) 29 16), assocs := mkeep f.cipher.assocs fun k _ => k / 4 ≠ fld (c.w 0) 29 16 } } []
  else
  match mget f.cipher.channels (fld (c.w 0) 29 16) with
  | some o =>
    refuseIf (!sameFixed o (channelOf c)) .exists [] <|
    .done { f with cipher := { f.cipher with channels := mset f.cipher.channels (fld (c.w 0) 29 16) { channelOf c with an := o.an, lowest := o.lowest } } } []
  | none =>
    refuseIf (channelClash f (fld (c.w 0) 29 16) (channelOf c)) .exists [] <|
    .done (clearCounters 4 (fld (c.w 0) 29 16) { f with cipher := { f.cipher with channels := mset f.cipher.channels (fld (c.w 0) 29 16) (channelOf c) } }) []

theorem runScConfig_of_sound (h : scSound c f) (hw : c.world = 0x0100 ∨ (fld (c.w 1) 31 16 = c.world ∧
    ∀ o, mget f.cipher.channels (fld (c.w 0) 29 16) = some o → o.world = c.world)) : runScConfig c f = scWritten c f := by
  obtain ⟨hcode, hpoint, hsec, hsuite, hoff, hval, hwin⟩ := h
  have hworld : (c.world ≠ 0x0100 && ((channelOf c).world ≠ c.world ||
      (match mget f.cipher.channels (fld (c.w 0) 29 16) with | some o => o.world ≠ c.world | none => false))) = false := by
    rcases hw with hw | ⟨hw, ho⟩
    · simp [hw]
    · cases hm : mget f.cipher.channels (fld (c.w 0) 29 16) with
      | none => simp [channelOf, hw]
      | some o => simp [channelOf, hw, ho o hm]
  have hwindow : (isXpn (channelOf c).suite && 2 ^ 30 ≤ (channelOf c).window) = false := by
    by_cases h2 : 2 ≤ fld (c.w 0) 3 0
    · exact (congrArg _ (decide_eq_false (Nat.not_le.mpr (hwin h2)))).trans (Bool.and_false _)
    · have hne : fld (c.w 0) 3 0 ≠ 2 ∧ fld (c.w 0) 3 0 ≠ 3 := by omega
      simp [isXpn, channelOf, hne]
  unfold runScConfig scWritten
  refine refuseIf_passes (by simp [channelOf, hcode]) (refuseIf_passes hworld (refuseIf_passes (by simp [channelOf, Nat.not_lt.mpr hpoint])
    (refuseIf_passes (by simp [channelOf, hsec]) (refuseIf_passes ?_ (refuseIf_passes (by simp [channelOf, hval])
      (refuseIf_passes hwindow rfl))))))
  simp [channelOf, hoff, Nat.not_lt.mpr hsuite]

/-- SA_CONFIG removes an association of a channel that its world reaches. -/
theorem runSaConfig_remove {x : Channel} (hx : mget f.cipher.channels (fld (c.w 0) 29 16) = some x) (hw : c.world = 0x0100 ∨ x.world = c.world)
    (ha : mhas f.cipher.assocs (fld (c.w 0) 29 16 * 4 + fld (c.w 0) 1 0) = true) (hr : bit (c.w 0) 4 = true)
    (he : x.rx = true ∨ channelAn x ≠ fld (c.w 0) 1 0) :
    runSaConfig c f = .done { f with cipher := { f.cipher with assocs := mdel f.cipher.assocs (fld (c.w 0) 29 16 * 4 + fld (c.w 0) 1 0) } } [] := by
  have hworld : (c.world ≠ 0x0100 && x.world ≠ c.world) = false := by rcases hw with h | h <;> simp [h]
  have hlatest : (!x.rx && channelAn x = fld (c.w 0) 1 0 && mhas f.cipher.assocs (fld (c.w 0) 29 16 * 4 + fld (c.w 0) 1 0)) = false := by
    rcases he with h | h <;> simp [h]
  simp only [runSaConfig, hx, hr, ha]
  refine refuseIf_passes rfl (refuseIf_passes hworld (refuseIf_passes rfl (refuseIf_passes rfl (refuseIf_passes rfl (refuseIf_passes rfl
    (refuseIf_passes rfl (refuseIf_passes rfl (refuseIf_passes ?_ rfl))))))))
  simpa [ha] using hlatest

/-- SA_CONFIG installs an association whose slot the engine of the channel may use. -/
theorem runSaConfig_install {x : Channel} (hx : mget f.cipher.channels (fld (c.w 0) 29 16) = some x) (hw : c.world = 0x0100 ∨ x.world = c.world)
    (hr : bit (c.w 0) 4 = false) (hp : isPonSlot (fld (c.w 1) 16 0) = false) (hv : (slotAt f (fld (c.w 1) 16 0)).valid = true)
    (hperm : permits f (slotAt f (fld (c.w 1) 16 0)).attr engineBit x.world (some (if x.rx then useDecrypt else useEncrypt)) = true)
    (hkey : (x.suite = 1 ∨ x.suite = 3) → (slotAt f (fld (c.w 1) 16 0)).attr.ktype ≠ 0) (hpn : join64 (c.w 3) (c.w 4) ≠ 0)
    (hxpn : isXpn x.suite = false → c.w 4 = 0)
    (he : x.rx = true ∨ channelAn x ≠ fld (c.w 0) 1 0 ∨ mhas f.cipher.assocs (fld (c.w 0) 29 16 * 4 + fld (c.w 0) 1 0) = false) :
    runSaConfig c f = .done { f with cipher := { f.cipher with
      installs := f.cipher.installs + 1,
      assocs := mset f.cipher.assocs (fld (c.w 0) 29 16 * 4 + fld (c.w 0) 1 0) (assocOf c (f.cipher.installs + 1)) } } [] := by
  have hworld : (c.world ≠ 0x0100 && x.world ≠ c.world) = false := by rcases hw with h | h <;> simp [h]
  have hwide : (wideSuite x.suite && (slotAt f (fld (c.w 1) 16 0)).attr.ktype = 0) = false := by
    by_cases hs : x.suite = 1 ∨ x.suite = 3
    · simp [hkey hs]
    · simp [wideSuite, not_or.mp hs]
  have hshort : (!isXpn x.suite && c.w 4 ≠ 0) = false := by
    cases hi : isXpn x.suite with
    | true => rfl
    | false => simp [hxpn hi]
  have hlatest : (!x.rx && channelAn x = fld (c.w 0) 1 0 && mhas f.cipher.assocs (fld (c.w 0) 29 16 * 4 + fld (c.w 0) 1 0)) = false := by
    rcases he with h | h | h <;> simp [h]
  simp only [runSaConfig, hx, hr]
  exact refuseIf_passes rfl (refuseIf_passes hworld (refuseIf_passes (by simp [hp]) (refuseIf_passes (by simp [hperm])
    (refuseIf_passes (by simp [hv]) (refuseIf_passes (by simpa using hwide) (refuseIf_passes (by simp [hpn])
      (refuseIf_passes (by simpa using hshort) (refuseIf_passes hlatest rfl))))))))

/-- Settles O24: each command passes its grounds in turn; SC_CONFIG's common grounds are one lemma for its three outcomes. -/
theorem cipherCommandsTakeEffect : Obligations.CipherCommandsTakeEffect := by
  unfold Obligations.CipherCommandsTakeEffect
  refine ⟨?_, ?_, ?_, fun o => ?_, fun x => ?_, fun x => ?_, fun x a ha => ?_⟩
  · refine endsOk (fun _ _ => rfl) (fun c f _ h => ?_) (fun _ _ _ => by simp)
    obtain ⟨hpoint, hcut, hup, hch, hcap⟩ := h
    have hground : (79 < fld (c.w 0) 7 0 || (bit (c.w 0) 30 && fld (c.w 0) 31 31 = 0)) = false := by
      cases hb : bit (c.w 0) 30 with
      | true => simp [hcut hb, Nat.not_lt.mpr hpoint]
      | false => simp [Nat.not_lt.mpr hpoint]
    refine refuseIf_passes hground (refuseIf_passes ?_ (refuseIf_passes ?_ (if_neg (Nat.not_lt.mpr hcap))))
    · simpa using hup
    · simpa using hch
  · refine endsOk (fun _ _ => rfl) (fun c f _ h => ?_) (fun _ _ _ => by simp)
    obtain ⟨hcode, hw, hen, hpoint, hsec, hsuite, hoff, hval, hwin⟩ := h
    refine (runScConfig_of_sound ⟨hcode, hpoint, hsec, hsuite, hoff, hval, hwin⟩ hw).trans ?_
    exact if_pos (by simp [hen])
  · refine endsOk (fun _ _ => rfl) (fun c f _ h => ?_) (fun _ _ _ => by simp)
    obtain ⟨hcode, hw, hen, hpoint, hsec, hsuite, hoff, hval, hwin, hnone, hclash⟩ := h
    refine (runScConfig_of_sound ⟨hcode, hpoint, hsec, hsuite, hoff, hval, hwin⟩ (hw.imp_right fun h => ⟨h, by simp [hnone]⟩)).trans ?_
    simp [scWritten, hen, hnone, hclash, refuseIf]
  · refine endsOk (fun _ _ => rfl) (fun c f _ h => ?_) (fun _ _ _ => by simp)
    obtain ⟨hcode, hw, hen, hpoint, hsec, hsuite, hoff, hval, hwin, hsome, hsame⟩ := h
    have howorld : o.world = fld (c.w 1) 31 16 := by
      simp only [sameFixed, Bool.and_eq_true, decide_eq_true_eq] at hsame
      exact hsame.1.1.1.2
    refine (runScConfig_of_sound ⟨hcode, hpoint, hsec, hsuite, hoff, hval, hwin⟩ (hw.imp_right fun h => ⟨h, ?_⟩)).trans ?_
    · simp [hsome, howorld, h]
    · simp [scWritten, hen, hsome, hsame, refuseIf]
  · refine endsOk (fun _ _ => rfl) (fun c f _ h => ?_) (fun _ _ _ => by simp)
    obtain ⟨hx, hw, ha, hr, he⟩ := h
    exact runSaConfig_remove hx hw ha hr he
  · refine endsOk (fun _ _ => rfl) (fun c f _ h => ?_) (fun _ _ _ => by simp)
    obtain ⟨hx, hw, hr, hp, hv, hperm, hkey, hpn, hxpn, he⟩ := h
    exact runSaConfig_install hx hw hr hp hv hperm hkey hpn hxpn he
  · refine endsOk (fun _ _ => rfl) (fun c f _ h => ?_) (fun _ _ _ => by simp)
    obtain ⟨hx, hw, hassoc⟩ := h
    have hworld : (c.world ≠ 0x0100 && x.world ≠ c.world) = false := by rcases hw with h | h <;> simp [h]
    show runSaActivate c f = _
    simp only [runSaActivate, hx, hassoc]
    exact refuseIf_passes ha (refuseIf_passes hworld rfl)

end Sys2Proof.Machine
end

section
/-! PROOFS. MACsec frames are admitted, judged and sent (O25). -/

namespace Sys2Proof.Machine

variable {s : State}

/-! ## Reception -/

/-- An admitted frame of a secured receive point is discarded where it is poisoned, dropped where no bank has its EPOCH, or judged. -/
theorem macsecReceive_runs {id p : Nat} {x : Flight} (hx : flightAt s id = some x) (hpl : x.place = .array) (ha : admits s 0 = true)
    (hp : rxPoint x.frame.source x.frame.card = some p) :
    exec (.macsecReceive id) s = .next (if x.frame.poison then dropCounted cDropChannel 9 0x47 id s
      else if (bankOf s x.frame).isNone then dropEpoch id s else macsecReceive id p x s) := by
  have hrun : exec (.macsecReceive id) s = .next (whenever (x.place = .array && admits s 0)
      (if x.frame.poison then dropCounted cDropChannel 9 0x47 id
       else if (bankOf s x.frame).isNone then dropEpoch id else macsecReceive id p x) s) := by
    simp only [exec, execMacsecReceive, hx, hp]
  rw [hrun, whenever_of (by simp [hpl, ha])]
  split
  · rfl
  · split <;> rfl

/-- A sound frame of a bank is judged in the order of Table 9.7. -/
theorem macsecReceive_judged {id p : Nat} {x : Flight} (hx : flightAt s id = some x) (hpl : x.place = .array) (ha : admits s 0 = true)
    (hp : rxPoint x.frame.source x.frame.card = some p) (hpo : x.frame.poison = false) (hb : (bankOf s x.frame).isSome = true) :
    exec (.macsecReceive id) s = .next (macsecReceive id p x s) := by
  rw [macsecReceive_runs hx hpl ha hp, if_neg (by simp [hpo]), if_neg (by simpa [Option.isNone_iff_eq_none, Option.isSome_iff_ne_none] using hb)]

/-- A tagged frame whose channel has an association with a usable slot is late, or admitted. -/
theorem macsecReceive_keyed {id p i : Nat} {x : Flight} {c : Channel} {a : Assoc} (he : etherType x.frame.bytes = 0x88E5)
    (ht : badTag x.frame.bytes = false) (hc : rxChannel (rxView s x.frame) p x.frame.bytes = some (i, c))
    (ha : mget (rxView s x.frame).cipher.assocs (i * 4 + (x.frame.bytes.getD 14 0).toNat % 4) = some a)
    (hu : engineUse s a.slot c.world useDecrypt (wideSuite c.suite) = true) :
    macsecReceive id p x s =
      if c.validate ≠ 0 && c.replay && framePn c a x.frame.bytes < lowestPn c a ((x.frame.bytes.getD 14 0).toNat % 4)
      then dropFlight id (bumpW (cEnc 12) 4 i c.world s)
      else admitRx id p i ((x.frame.bytes.getD 14 0).toNat % 4) (reserveAt (rxView s x.frame) p 1).cut { x with chan := chanWorld c } c a s := by
  simp only [macsecReceive, he, ne_eq, not_true_eq_false, if_false, ht, Bool.false_eq_true, hc, ha, hu, Bool.not_true]
  rfl

/-- A frame that is held until its verdict: what the pipes and the flight say of it. -/
theorem admitRx_held {id p i an : Nat} {x : Flight} {c : Channel} {a : Assoc} :
    ∃ y, (admitRx id p i an false x c a s).cipher.inPipes = s.cipher.inPipes ++ [y] ∧ y.traffic = .rxHeld ∧ y.frame = id ∧
      y.slot = a.slot ∧ y.gen = (slotAt s a.slot).gen ∧ y.pn = framePn c a x.frame.bytes ∧
      flightAt (admitRx id p i an false x c a s) id =
        some { x with place := .held, chan := chanWorld c, frame := { x.frame with secured := true } } :=
  ⟨_, rfl, rfl, rfl, rfl, rfl, rfl, flightAt_setFlight_self ..⟩

theorem macsecVerdict_runs {id : Nat} {y : Admitted} (hy : s.cipher.inPipes.find? (fun a => isRx a && a.frame = id) = some y) :
    exec (.macsecVerdict id) s = .next (verdict y (leavePipes (fun a => isRx a && a.frame = id) s)) := by
  simp only [exec, execMacsecVerdict, hy]

/-! ## Transmission -/

/-- The next frame of a secured transmit point is taken from its queue. -/
theorem macsecTransmit_runs {p : Nat} {f : Frame} {rest : List Frame} (hp : p < 80) (hq : mgetD s.tm.egress p [] = f :: rest)
    (ha : admits s 0 = true) :
    exec (.macsecTransmit p) s = .next ((if f.poison then bumpW cDropChannel 9 0x47 f.world else macsecTransmit p f)
      { s with tm := { s.tm with egress := mset s.tm.egress p rest } }) := by
  refine (onObject_of (by simp [hp]) _).trans (congrArg _ ?_)
  simp only [hq, ha, Bool.not_true, Bool.false_eq_true, if_false]

theorem raisePn_pipes (x : Channel) (k : Nat) (a : Assoc) : (raisePn x k a s).cipher.inPipes = s.cipher.inPipes := by
  unfold raisePn
  dsimp only
  split <;> split <;> simp

/-- Below the last PN an association's next PN rises by 1. -/
theorem raisePn_assoc {x : Channel} {a : Assoc} (h : a.nextPn < lastPn x.suite) (k : Nat) :
    ∃ b, mget (raisePn x k a s).cipher.assocs k = some b ∧ b.nextPn = a.nextPn + 1 ∧ b.exhausted = false := by
  have hstop : ¬ lastPn x.suite ≤ a.nextPn := Nat.not_le.mpr h
  unfold raisePn
  simp only [hstop, decide_false, Bool.false_eq_true, if_false]
  refine ⟨{ a with
    nextPn := a.nextPn + 1
    warned := a.warned || (!a.warned && decide (warnPn x a ≤ a.nextPn + 1))
    exhausted := false }, ?_, rfl, rfl⟩
  split <;> simp [mget_mset_self]

/-- A frame that has no channel is counted at its point. -/
theorem macsecTransmit_of_no_channel {p : Nat} {f : Frame} (h : txChannel s p f.world = none) :
    macsecTransmit p f s = bumpBy { cid := cEnc 3, scope := 1, idx := p, world := f.world } 1 s := by
  simp only [macsecTransmit, h]

/-- A frame whose channel has no association is counted at the channel. -/
theorem macsecTransmit_of_no_assoc {p i : Nat} {f : Frame} {x : Channel} (h : txChannel s p f.world = some (i, x))
    (ha : mget s.cipher.assocs (i * 4 + channelAn x) = none) :
    macsecTransmit p f s = bumpBy { cid := cEnc 4, scope := 4, idx := i, world := x.world } 1 s := by
  simp only [macsecTransmit, h, ha]

/-- A frame whose association serves enters the pipes sealed, and its association's next PN rises. -/
theorem macsecTransmit_sealed {p i : Nat} {f : Frame} {x : Channel} {a : Assoc} (h : txChannel s p f.world = some (i, x))
    (ha : mget s.cipher.assocs (i * 4 + channelAn x) = some a) (he : a.exhausted = false)
    (hu : engineUse s a.slot x.world useEncrypt (wideSuite x.suite) = true) (hn : a.nextPn < lastPn x.suite) :
    ∃ y b, (macsecTransmit p f s).cipher.inPipes = s.cipher.inPipes ++ [y] ∧
      y.bytes = sealFrame x a (channelAn x) (slotBytes s a.slot) f.bytes ∧ y.slot = a.slot ∧ y.gen = (slotAt s a.slot).gen ∧
      mget (macsecTransmit p f s).cipher.assocs (i * 4 + channelAn x) = some b ∧ b.nextPn = a.nextPn + 1 ∧ b.exhausted = false := by
  obtain ⟨b, hb, hpn, hbe⟩ := raisePn_assoc (s := s) (x := x) (a := { a with gen := (slotAt s a.slot).gen }) hn (i * 4 + channelAn x)
  simp only [macsecTransmit, h, ha, he, Bool.false_eq_true, if_false, hu, Bool.not_true]
  exact ⟨_, b, congrArg (· ++ _) (raisePn_pipes x _ _), rfl, rfl, rfl, hb, hpn, hbe⟩

/-- Settles O25: reception follows the rows of Table 9.7 in order; on transmission the PN raised is the association's own. -/
theorem macsecReceivesJudgesAndSends : Obligations.MacsecReceivesJudgesAndSends := by
  unfold Obligations.MacsecReceivesJudgesAndSends
  refine ⟨fun id p x s hx hpl ha hp => ?_, fun id p x s hx hpl ha hp hpo hb he => ?_, fun id p x s hx hpl ha hp hpo hb he ht => ?_,
    fun id p i x c a s hx hpl ha hp hpo hb he ht => ?_, fun id y s hy => ?_, fun p f rest s hp hq ha => ?_⟩
  · rw [macsecReceive_runs hx hpl ha hp]
    exact ⟨fun h => by simp [h], fun h hb => by simp [h, hb]⟩
  · intro v
    rw [macsecReceive_judged hx hpl ha hp hpo hb]
    unfold macsecReceive
    simp only [he, ne_eq, not_false_eq_true, if_true]
    show Host.Outcome.next (if pointValidate v p = 2 then dropFlight id (bumpRx 15 (implicitChannel v p) p s) else _) = _
    cases hi : implicitChannel v p <;> rfl
  · rw [macsecReceive_judged hx hpl ha hp hpo hb]
    simp only [macsecReceive, he, ne_eq, not_true_eq_false, if_false, ht, if_true]
    rfl
  · intro v hc an hassoc hu
    rw [macsecReceive_judged hx hpl ha hp hpo hb, macsecReceive_keyed he ht hc hassoc hu]
    refine ⟨fun hv hr hl => congrArg _ (if_pos (by simp only [hv, hr, decide_not, decide_false, Bool.not_false, Bool.and_self, Bool.true_and]; exact decide_eq_true hl)), fun h hcut => ?_⟩
    have hnot : (decide (c.validate ≠ 0) && c.replay && framePn c a x.frame.bytes < lowestPn c a an) = false := by
      rcases h with h | h | h
      · simp [h]
      · simp [h]
      · simp [Nat.not_lt.mpr h]
    obtain ⟨y, hy⟩ := admitRx_held (s := s) (id := id) (p := p) (i := i) (an := an) (x := { x with chan := chanWorld c }) (c := c) (a := a)
    rw [if_neg (by rw [hnot]; decide), show (reserveAt (rxView s x.frame) p 1).cut = false from hcut]
    exact ⟨_, y, rfl, hy⟩
  · intro s1 n
    rw [macsecVerdict_runs hy]
    refine ⟨fun hv hok => ?_, fun hv hok hst => ?_, fun hv hok hc => ?_⟩
    · simp [verdict, hv, hok]
      rfl
    · have hstrict : (decide (y.validate = 2) || y.cbit) = true := by simpa using hst
      simp only [verdict, hv, if_false, hok, Bool.false_eq_true, hstrict, if_true]
      rfl
    · simp [verdict, hv, hok, hc]
      rfl
  · intro s1
    rw [macsecTransmit_runs hp hq ha]
    have hsound : f.poison = false → Host.Outcome.next ((if f.poison then bumpW cDropChannel 9 0x47 f.world else macsecTransmit p f) s1) =
        (.next (macsecTransmit p f s1) : Res) := fun h => by rw [h]; rfl
    refine ⟨fun h => by rw [h]; rfl, fun h hn => ?_, fun h i x hc hn => ?_, fun h i x a hc hassoc hex hu hlast => ?_⟩
    · rw [hsound h, macsecTransmit_of_no_channel hn]
      rfl
    · rw [hsound h, macsecTransmit_of_no_assoc hc hn]
      rfl
    · obtain ⟨y, b, hsent⟩ := macsecTransmit_sealed (s := s1) hc hassoc hex hu hlast
      exact ⟨_, y, b, hsound h, hsent⟩

end Sys2Proof.Machine
end

section
/-! PROOFS. KEY_GENERATE, KEY_WRAP, SLOT_ERASE and SLOT_INFO (O26). -/

namespace Sys2Proof.Machine

variable {c : Ctx} {f s : State}

/-! ## Slots that are kept -/

/-- A slot whose record lands holds its new content but for the mark of a stored record. -/
theorem gen_keepSlot {n : Nat} {x : Slot} {ok : Bool} (h : lands s n x.attr ok = true) : (slotAt (keepSlot n x ok s) n).gen = x.gen := by
  simp [keepSlot, h, slotAt]

theorem gen_writeKey {n : Nat} {a : Attr} {ok : Bool} (h : lands s n a ok = true) (origin : Nat) (body : List Byte) :
    (slotAt (writeKey n a origin body ok s) n).gen = ((slotAt s n).gen + 1) % 65536 :=
  gen_keepSlot h

/-! ## KEY_GENERATE -/

/-- What the words of KEY_GENERATE must say in every mode. -/
def keyPlain (c : Ctx) : Prop :=
  fld (c.w 4) 15 8 ≤ 16 ∧ fld (c.w 4) 7 0 ≤ 64 ∧ worldCode (attrWords c).world = true ∧ (attrWords c).ktype ≠ 3

/-- A target slot that modes 0, 1 and 3 may write now, and whose record lands. -/
def keyTarget (c : Ctx) (f : State) : Prop :=
  inRange (fld (c.w 0) 17 0) = true ∧ isControl (fld (c.w 0) 17 0) = false ∧ isPonSlot (fld (c.w 0) 17 0) = false ∧
    (attrWords c).ktype ≠ 2 ∧ targetGround c f (fld (c.w 0) 17 0) (attrWords c) = none ∧
    persistFull f (fld (c.w 0) 17 0) (attrWords c).persist = false ∧ mustWait f (fld (c.w 0) 17 0) = false ∧
    lands f (fld (c.w 0) 17 0) (attrWords c) c.pkt.env.norOk = true

/-- A parent slot that the command may use. -/
def keyParent (c : Ctx) (f : State) (use : Nat) : Prop :=
  inRange (fld (c.w 3) 17 0) = true ∧ isPonSlot (fld (c.w 3) 17 0) = false ∧ isWorldS (fld (c.w 3) 17 0) = false ∧
    mayUse f (fld (c.w 3) 17 0) (masterBit c.master) c.world use = true ∧
    (slotAt f (fld (c.w 3) 17 0)).attr.world = (attrWords c).world

/-- Modes 0, 1 and 3 write the key that the mode gives, or are refused where it gives none. -/
theorem runKeyGenerate_into (hp : keyPlain c) (ht : keyTarget c f)
    (hm : fld (c.w 0) 31 29 = 0 ∨ fld (c.w 0) 31 29 = 1 ∨ fld (c.w 0) 31 29 = 3)
    (hpar : fld (c.w 0) 31 29 ≠ 0 → keyParent c f (if fld (c.w 0) 31 29 = 3 then useWrap else useDerive))
    (h3 : fld (c.w 0) 31 29 = 3 → fld (c.w 4) 7 0 = if (attrWords c).ktype = 0 then 24 else 40) :
    runKeyGenerate c f = match generated c f (fld (c.w 0) 31 29) (attrWords c).ktype (fld (c.w 3) 17 0) with
      | none => .refuse .badSignature []
      | some k =>
        let s1 := writeKey (fld (c.w 0) 17 0) (attrWords c) (if fld (c.w 0) 31 29 = 0 then 1 else if fld (c.w 0) 31 29 = 1 then 2 else 3)
          k c.pkt.env.norOk f
        .done (slotOp (fld (c.w 0) 17 0) (if fld (c.w 0) 31 29 = 0 then takeFree s1 else s1))
          [wd (((slotAt f (fld (c.w 0) 17 0)).gen + 1) % 65536)] := by
  obtain ⟨hlab, hctx, hworld, hk3⟩ := hp
  obtain ⟨hrange, hcon, hpon, hk2, hground, hfull, hwait, hland⟩ := ht
  have hder : ∀ b : Bool, (fld (c.w 0) 31 29 ≠ 0 → b = false) →
      ((fld (c.w 0) 31 29 = 1 || fld (c.w 0) 31 29 = 3 || fld (c.w 0) 31 29 = 4) && b) = false := fun b hb => by
    by_cases h0 : fld (c.w 0) 31 29 = 0
    · simp [h0]
    · simp [hb h0]
  have h4 : fld (c.w 0) 31 29 ≠ 4 := by omega
  have h2 : fld (c.w 0) 31 29 ≠ 2 := by omega
  have hops : opsWait f = false := (Bool.or_eq_false_iff.mp hwait).1
  unfold runKeyGenerate
  refine refuseIf_passes (by simp only [decide_eq_false_iff_not]; omega) (refuseIf_passes (by simp [hrange]) (refuseIf_passes (by simp [hcon])
    (refuseIf_passes (by simp [hpon]) (refuseIf_passes (hder _ fun h => by simp [(hpar h).1, (hpar h).2.1])
    (refuseIf_passes (hder _ fun h => (hpar h).2.2.1) (refuseIf_passes (by simp [Nat.not_lt.mpr hlab, Nat.not_lt.mpr hctx])
    (refuseIf_passes (by simp [hk3, hk2]) (refuseIf_passes ?_ (refuseIf_passes (by simp [hworld]) ?_)))))))))
  · by_cases hm3 : fld (c.w 0) 31 29 = 3
    · simp [h3 hm3]
    · simp [hm3]
  · rw [if_neg (by simp [hops])]
    refine refuseIf_passes (hder _ fun h => by simp [(hpar h).2.2.2.1]) (refuseIf_passes (hder _ fun h => by simp [(hpar h).2.2.2.2]) ?_)
    rw [if_neg h4, if_neg h2, hground]
    refine refuseIf_passes hfull ?_
    rw [if_neg (by simp [hwait])]
    cases generated c f (fld (c.w 0) 31 29) (attrWords c).ktype (fld (c.w 3) 17 0) with
    | none => rfl
    | some k =>
      dsimp only
      rw [if_neg (by simp [hland]), gen_writeKey hland]

/-- Mode 2 reserves a free slot's attributes for the PF. -/
theorem runKeyGenerate_reserve (hp : keyPlain c) (hmaster : c.master = .pf) (hm : fld (c.w 0) 31 29 = 2)
    (hw : c.world = 0x0100 ∨ (slotAt f (fld (c.w 0) 17 0)).attr.world = c.world ∧ (attrWords c).world = c.world)
    (hland : lands f (fld (c.w 0) 17 0) (attrWords c) c.pkt.env.norOk = true) (hrange : inRange (fld (c.w 0) 17 0) = true)
    (hcon : isControl (fld (c.w 0) 17 0) = false) (hfree : (slotAt f (fld (c.w 0) 17 0)).valid = false)
    (hfull : persistFull f (fld (c.w 0) 17 0) (attrWords c).persist = false) (hops : opsWait f = false) :
    runKeyGenerate c f = .done (slotOp (fld (c.w 0) 17 0) (keepSlot (fld (c.w 0) 17 0)
      { slotAt f (fld (c.w 0) 17 0) with attr := attrWords c } c.pkt.env.norOk f)) [wd (slotAt f (fld (c.w 0) 17 0)).gen] := by
  obtain ⟨hlab, hctx, hworld, hk3⟩ := hp
  unfold runKeyGenerate
  refine refuseIf_passes (by simp [hm]) (refuseIf_passes (by simp [hrange]) (refuseIf_passes (by simp [hcon])
    (refuseIf_passes (by simp [hm]) (refuseIf_passes (by simp [hm]) (refuseIf_passes (by simp [hm])
    (refuseIf_passes (by simp [Nat.not_lt.mpr hlab, Nat.not_lt.mpr hctx]) (refuseIf_passes (by simp [hk3, hm])
    (refuseIf_passes (by simp [hm]) (refuseIf_passes (by simp [hworld]) ?_)))))))))
  rw [if_neg (by simp [hops])]
  refine refuseIf_passes (by simp [hm]) (refuseIf_passes (by simp [hm]) ?_)
  rw [if_neg (by simp [hm]), if_pos hm]
  refine refuseIf_passes (by rw [hmaster]) (refuseIf_passes ?_ (refuseIf_passes hfree (refuseIf_passes hfull ?_)))
  · rcases hw with h | ⟨h, h'⟩
    · simp [h]
    · simp [h, h']
  · exact if_neg (by simp [hland])

/-- Mode 4 answers a derived key. -/
theorem runKeyGenerate_reply (hp : keyPlain c) (hk2 : (attrWords c).ktype ≠ 2) (hpar : keyParent c f useDerive)
    (hm : fld (c.w 0) 31 29 = 4) (hops : opsWait f = false) :
    runKeyGenerate c f = .done (slotOp (fld (c.w 3) 17 0) f) (wd (slotAt f (fld (c.w 3) 17 0)).gen :: wordsOfBytes 8
      ((Config.kdf (slotBytes f (fld (c.w 3) 17 0)) (keyLabel c) (keyContext c) (8 * keyLen (attrWords c).ktype)).take
        (keyLen (attrWords c).ktype))) := by
  obtain ⟨hlab, hctx, hworld, hk3⟩ := hp
  obtain ⟨hrange, hpon, hws, huse, hsame⟩ := hpar
  unfold runKeyGenerate
  refine refuseIf_passes (by simp [hm]) (refuseIf_passes (by simp [hm]) (refuseIf_passes (by simp [hm])
    (refuseIf_passes (by simp [hm]) (refuseIf_passes (by simp [hrange, hpon]) (refuseIf_passes (by simp [hws])
    (refuseIf_passes (by simp [Nat.not_lt.mpr hlab, Nat.not_lt.mpr hctx]) (refuseIf_passes (by simp [hk3, hk2])
    (refuseIf_passes (by simp [hm]) (refuseIf_passes (by simp [hworld]) ?_)))))))))
  rw [if_neg (by simp [hops])]
  exact refuseIf_passes (by simp [hm, huse]) (refuseIf_passes (by simp [hsame]) (if_pos hm))

/-! ## The other slot commands -/

theorem runSlotErase_runs (hrange : inRange (fld (c.w 0) 17 0) = true) (hcon : isControl (fld (c.w 0) 17 0) = false) (hops : opsWait f = false)
    (hm : (c.master = .pf ∧ (c.world = 0x0100 ∨ (slotAt f (fld (c.w 0) 17 0)).attr.world = c.world)) ∨
      (bit (c.w 0) 31 = false ∧ (slotAt f (fld (c.w 0) 17 0)).attr.world = c.world ∧
        (slotAt f (fld (c.w 0) 17 0)).attr.masters.testBit 1 = true)) :
    runSlotErase c f = .done (eraseSlot (fld (c.w 0) 17 0) (bit (c.w 0) 31) (slotOp (fld (c.w 0) 17 0) f)) [] := by
  unfold runSlotErase
  rcases hm with ⟨hpf, hw⟩ | ⟨hrel, hw, hmask⟩
  · rw [hpf]
    refine refuseIf_passes (by simp [hrange]) (refuseIf_passes hcon (refuseIf_passes (by simp) ?_))
    rw [if_neg (by simp [hops])]
    exact refuseIf_passes (by rcases hw with h | h <;> simp [h]) (refuseIf_passes (by simp) rfl)
  · refine refuseIf_passes (by simp [hrange]) (refuseIf_passes hcon (refuseIf_passes (by simp [hrel]) ?_))
    rw [if_neg (by simp [hops])]
    exact refuseIf_passes (by simp [hw]) (refuseIf_passes (by simp [hmask]) rfl)

/-- The three words of SLOT_INFO that every slot has. -/
def slotHead (x : Slot) : List Word :=
  [lo32 (attrBits x.attr), hi32 (attrBits x.attr), pack [(b2n x.valid, 1, 31), (b2n x.old.isSome, 1, 30),
    (b2n x.stored, 1, 29), (b2n x.exported, 1, 28), (x.gen, 16, 0)]]

theorem runSlotInfo_runs (hops : opsWait f = false) (hrange : inRange (fld (c.w 0) 17 0) = true)
    (hw : c.world = 0x0100 ∨ (slotAt f (fld (c.w 0) 17 0)).attr.world = c.world) :
    runSlotInfo c f = .done (slotOp (fld (c.w 0) 17 0) f)
      (if isControl (fld (c.w 0) 17 0) && (slotAt f (fld (c.w 0) 17 0)).attr.ktype = 2
        then slotHead (slotAt f (fld (c.w 0) 17 0)) ++ wordsOfBytes 12 (Config.sha384 ((slotAt f (fld (c.w 0) 17 0)).body.take 97))
        else slotHead (slotAt f (fld (c.w 0) 17 0))) := by
  unfold runSlotInfo
  refine refuseIf_passes (by simp [hrange]) ?_
  rw [if_neg (by simp [hops])]
  exact refuseIf_passes (by rcases hw with h | h <;> simp [h]) rfl

/-- Settles O26: the three modes of KEY_GENERATE that write a key are one lemma; each other command passes its grounds in turn. -/
theorem slotCommandsTakeEffect : Obligations.SlotCommandsTakeEffect := by
  unfold Obligations.SlotCommandsTakeEffect
  intro plain target parent
  refine ⟨?_, ?_, ?_, ?_, ?_, ?_, ?_, ?_, ?_⟩
  · refine endsOk (fun _ _ => rfl) (fun c f _ h => ?_) (fun _ _ _ => by simp)
    obtain ⟨hp, ht, hm⟩ := h
    refine (runKeyGenerate_into hp ht (.inl hm) (fun h => absurd hm h) (fun h => by simp [hm] at h)).trans ?_
    rw [hm]
    rfl
  · refine endsOk (fun _ _ => rfl) (fun c f _ h => ?_) (fun _ _ _ => by simp)
    obtain ⟨hp, ht, hpar, hm⟩ := h
    refine (runKeyGenerate_into hp ht (.inr (.inl hm)) (fun _ => by rw [hm]; exact hpar) (fun h => by simp [hm] at h)).trans ?_
    rw [hm]
    rfl
  · refine endsOk (fun _ _ => rfl) (fun c f _ h => ?_) (fun _ _ _ => by simp)
    obtain ⟨hp, hmaster, hm, hw, hland, hrange, hcon, hfree, hfull, hops⟩ := h
    exact runKeyGenerate_reserve hp hmaster hm hw hland hrange hcon hfree hfull hops
  · refine answers (fun _ _ => rfl) (by decide) (fun c f _ h => ?_) (fun c f t d _ => ?_)
    · obtain ⟨hp, ht, hpar, hm, hctx⟩ := h
      refine (runKeyGenerate_into hp ht (.inr (.inr hm)) (fun _ => by rw [hm]; exact hpar) (fun _ => hctx)).trans ?_
      rw [hm]
      show (match Config.unwrap (slotBytes f (fld (c.w 3) 17 0)) (keyContext c) with | none => _ | some k => _) = _
      cases Config.unwrap (slotBytes f (fld (c.w 3) 17 0)) (keyContext c) <;> rfl
    · split <;> simp
  · refine endsOk (fun _ _ => rfl) (fun c f _ h => ?_) (fun _ _ _ => by simp [length_wordsOfBytes])
    obtain ⟨hp, hk2, hpar, hm, hops⟩ := h
    exact runKeyGenerate_reply hp hk2 hpar hm hops
  · refine endsOk (fun _ _ => rfl) (fun c f _ h => ?_) (fun c f _ => ?_)
    · obtain ⟨hrn, hpn, hwn, hrk, hpk, hwk, hun, huk, hne, hk2, hsame, hops⟩ := h
      show runKeyWrap c f = _
      unfold runKeyWrap
      refine refuseIf_passes (by simp [hrn, hpn]) (refuseIf_passes (by simp [hrk, hpk]) (refuseIf_passes (by simp [hwn, hwk]) ?_))
      rw [if_neg (by simp [hops])]
      exact refuseIf_passes (by simp [hun, hne, hk2]) (refuseIf_passes (by simp [huk]) (refuseIf_passes (by simp [hsame]) rfl))
    · rw [length_wordsOfBytes]
      unfold keyLen
      split <;> simp
  · refine endsOk (fun _ _ => rfl) (fun c f _ h => ?_) (fun _ _ _ => by simp)
    obtain ⟨hrange, hcon, hops, hm⟩ := h
    exact runSlotErase_runs hrange hcon hops hm
  · refine endsOk (fun _ _ => rfl) (fun c f _ h => ?_) (fun _ _ _ => by simp)
    obtain ⟨hops, hrange, hw, hno⟩ := h
    refine (runSlotInfo_runs hops hrange hw).trans ?_
    rw [if_neg (by simpa using hno)]
    rfl
  · refine endsLong (fun _ _ => rfl) (fun c f _ h => ?_) (fun _ _ _ => by simp [length_wordsOfBytes])
    obtain ⟨hops, hrange, hw, hcon, hk2⟩ := h
    refine (runSlotInfo_runs hops hrange hw).trans ?_
    rw [if_pos (by simp [hcon, hk2])]
    rfl

end Sys2Proof.Machine
end

section
/-! PROOFS. Alarms, debug tokens and the service authority (O28). -/

namespace Sys2Proof.Machine

variable {s : State}

/-! ## Alarms -/

theorem alarm_runs {n : Nat} (hn : n < 7) (hu : s.vault.under = false ∨ 2 ≤ n) :
    exec (.alarm n true) s = .next (alarm n { s with vault := { s.vault with present := s.vault.present ||| 2 ^ n } }) := by
  refine (onObject_of (by simp [hn]) _).trans (congrArg _ ?_)
  have hno : (s.vault.under && n ≤ 1) = false := by
    rcases hu with h | h
    · simp [h]
    · simp [Nat.not_le.mpr (Nat.lt_of_succ_le h)]
  simp [hno]

/-- The sensors of ALARM have a class of 1 to 3. -/
theorem alarmClass_pos {n : Nat} (hn : n < 7) : 1 ≤ alarmClass n ∧ alarmClass n ≤ 3 := by
  have h : ∀ k < 7, 1 ≤ alarmClass k ∧ alarmClass k ≤ 3 := by decide
  exact h n hn

/-- An alarm of class 0 is counted and extends a hold. -/
theorem alarm_vault_of_class_zero {n : Nat} (h : alarmClass n = 0) : (alarm n s).vault = { s.vault with
    raised := s.vault.raised ||| 2 ^ n
    hold := s.vault.hold.map fun _ => s.mono
    counts := mset s.vault.counts 0 (satAdd 0xFFFFFFFF (mgetD s.vault.counts 0 0) 1) } := by
  have hv := (alarm_store n s).2
  rw [h] at hv
  exact hv

theorem alarm_cipher_of_class_zero {n : Nat} (h : alarmClass n = 0) : (alarm n s).cipher = s.cipher := by
  have hc := (alarm_store n s).1
  rw [h] at hc
  exact hc

/-! ## Debug tokens -/

/-- What a token that fails a check leaves: a failure counted, and the eighth in a row raises sensor 7. -/
def tokenFailed (u : State) : State :=
  let t := { u with vault := { u.vault with tokenFails := u.vault.tokenFails + 1 } }
  if 8 ≤ t.vault.tokenFails then alarm 7 { t with vault := { t.vault with tokensRefused := true } } else t

theorem debugToken_of_failed {m : List Byte} {st : Status} {u : State} (hr : s.vault.tokensRefused = false) (ho : opsWait s = false)
    (h : tokenChecks m s = (some st, u)) : debugToken m s = tokenFailed u := by
  simp [debugToken, hr, ho, h, tokenFailed]

theorem debugToken_of_accepted {m : List Byte} {u : State} (hr : s.vault.tokensRefused = false) (ho : opsWait s = false)
    (h : tokenChecks m s = (none, u)) : debugToken m s =
      { openDebugArea (alarmEmpty (alarmHold u)) with
        vault := { (openDebugArea (alarmEmpty (alarmHold u))).vault with token := true, tokenFails := 0 } } := by
  simp [debugToken, hr, ho, h]

/-- A failing token leaves the life-cycle and the token in force, and counts once more; at the eighth tokens are refused. -/
theorem tokenFailed_leaves (u : State) : (tokenFailed u).vault.token = u.vault.token ∧ (tokenFailed u).vault.life = u.vault.life ∧
    (tokenFailed u).vault.tokenFails = u.vault.tokenFails + 1 ∧ (7 ≤ u.vault.tokenFails → (tokenFailed u).vault.tokensRefused = true) := by
  unfold tokenFailed
  dsimp only
  split
  · rw [alarm_vault_of_class_zero rfl]
    exact ⟨rfl, rfl, rfl, fun _ => rfl⟩
  · exact ⟨rfl, rfl, rfl, fun h => absurd (Nat.succ_le_succ h) ‹_›⟩

/-- A token whose head fails, that carries EPOCH_ADVANCE, or whose counter is stale fails before its counter is consumed. -/
theorem tokenChecks_of_stale {m : List Byte} (h : (shedarHead m true s).isSome = true ∨ shOp m = 8 ∨ storedCounter s = 0xFFFFFFFFFFFF ∨
    shCounter m ≤ storedCounter s) : ∃ st u, tokenChecks m s = (some st, u) ∧ (u = s ∨ u = alarm 8 s) := by
  unfold tokenChecks
  cases hh : shedarHead m true s with
  | some e =>
    refine ⟨e.1, _, rfl, ?_⟩
    unfold shedarFailed
    split
    · exact .inr rfl
    · exact .inl rfl
  | none =>
    dsimp only
    unfold shedarSteps
    by_cases h8 : shOp m = 8
    · rw [if_pos h8]
      by_cases hc : shCounter m ≠ 0
      · rw [if_pos hc]
        exact ⟨_, _, rfl, .inl rfl⟩
      · rw [if_neg hc]
        unfold shedarPayload
        cases hp : shedarOpen (testRoot s) m with
        | none => exact ⟨_, _, rfl, .inr rfl⟩
        | some p => exact ⟨.badParam, s, if_neg (by simp [h8]), .inl rfl⟩
    · rw [if_neg h8]
      by_cases he : storedCounter s = 0xFFFFFFFFFFFF
      · rw [if_pos he]
        exact ⟨_, _, rfl, .inl rfl⟩
      · have hstale : shCounter m ≤ storedCounter s := by simpa [hh, h8, he] using h
        rw [if_neg he, if_pos hstale]
        exact ⟨_, _, rfl, .inl rfl⟩

/-- A payload is the four bytes 0 where it has that length and value. -/
theorem payload_zero_iff (p : List Byte) : (p.length = 4 ∧ beNat p = 0) ↔ p = [0, 0, 0, 0] := by
  constructor
  · rintro ⟨hl, hb⟩
    match p, hl with
    | [a, b, c, d], _ =>
      simp only [beNat, List.foldl_cons, List.foldl_nil] at hb
      simp only [List.cons.injEq, and_true, ← BitVec.toNat_inj]
      refine ⟨?_, ?_, ?_, ?_⟩ <;> simp <;> omega
  · rintro rfl
    exact ⟨rfl, by decide⟩

/-- A token with a fresh counter is checked to its end, its counter written from step 6 on. -/
theorem debugToken_fresh {m : List Byte} (hr : s.vault.tokensRefused = false) (ho : opsWait s = false) (h8 : shOp m ≠ 8)
    (hmax : storedCounter s < 0xFFFFFFFFFFFF) (hnew : storedCounter s < shCounter m) :
    debugToken m s =
      match shedarHead m true s, shedarOpen (testRoot (setCounter (updateEpoch s) (shCounter m) true s)) m with
      | some e, _ => tokenFailed (shedarFailed e.1 s)
      | none, none => tokenFailed (shedarFailed .badSignature (setCounter (updateEpoch s) (shCounter m) true s))
      | none, some p =>
        if shOp m = 7 ∧ p = [0, 0, 0, 0] ∧ shSlot m = 0 ∧ shAttr m = 0 then
          let t := openDebugArea (alarmEmpty (alarmHold (setCounter (updateEpoch s) (shCounter m) true s)))
          { t with vault := { t.vault with token := true, tokenFails := 0 } }
        else tokenFailed (setCounter (updateEpoch s) (shCounter m) true s) := by
  have hsteps : shedarSteps m true s = shedarPayload m (setCounter (updateEpoch s) (shCounter m) true s) := by
    unfold shedarSteps
    rw [if_neg h8, if_neg (Nat.ne_of_lt hmax), if_neg (Nat.not_le.mpr hnew)]
    rfl
  cases hh : shedarHead m true s with
  | some e => exact debugToken_of_failed hr ho (st := e.1) (by simp only [tokenChecks, hh])
  | none =>
    cases hp : shedarOpen (testRoot (setCounter (updateEpoch s) (shCounter m) true s)) m with
    | none => exact debugToken_of_failed hr ho (st := .badSignature) (by simp only [tokenChecks, hh, hsteps, shedarPayload, hp])
    | some p =>
      have hfields : (shOp m = 7 && p.length = 4 && beNat p = 0 && shedarFields 7 (shSlot m) (shAttr m)) =
          decide (shOp m = 7 ∧ p = [0, 0, 0, 0] ∧ shSlot m = 0 ∧ shAttr m = 0) := by
        rw [Bool.eq_iff_iff]
        simp only [shedarFields, ← payload_zero_iff, Nat.reduceLeDiff, Nat.reduceEqDiff, Bool.and_eq_true, Bool.or_eq_true, decide_eq_true_eq,
          decide_false, Bool.false_eq_true, or_false, if_false, false_or, and_assoc]
      dsimp only
      split
      case isTrue hacc =>
        exact debugToken_of_accepted hr ho (by simp only [tokenChecks, hh, hsteps, shedarPayload, hp, hfields, decide_eq_true hacc, if_true])
      case isFalse hrej =>
        exact debugToken_of_failed hr ho (st := .badParam)
          (by simp only [tokenChecks, hh, hsteps, shedarPayload, hp, hfields, hrej, decide_false, Bool.false_eq_true, if_false])

/-! ## The service authority -/

theorem serviceMessage_of_next {scraps : Bool} {owner sig : List Byte} (ho : opsWait s = false) :
    serviceMessage (nextLifeRow s) scraps owner sig s =
      if Config.verify Config.serviceAuthority (beBytes 4 (nextLifeRow s) ++ [BitVec.ofNat 8 (b2n scraps)] ++ owner) sig then
        (if scraps then if s.vault.life = .scrapped then s else alarmEffects 3 s
        else if 31 ≤ nextLifeRow s || 64 ≤ s.vault.epochRows.length then s
        else if s.vault.life = .returned then newOwner owner (burnLife .provisioned s)
        else if s.vault.life = .blank then newOwner owner (burnLife .provisioned { s with vault := { s.vault with provisioning := true } })
        else s)
      else s := by
  unfold serviceMessage
  dsimp only
  rw [if_neg (by simp [ho])]
  cases Config.verify Config.serviceAuthority (beBytes 4 (nextLifeRow s) ++ [BitVec.ofNat 8 (b2n scraps)] ++ owner) sig <;> simp

/-- UPDATE_AUTHORITY holds the key that it takes. -/
theorem takeAuthority_slot (p : List Byte) : ∃ b, slotAt (takeAuthority p true s) updateAuthority =
    { slotAt s updateAuthority with
      attr := { world := 0x0200, ktype := 2, persist := true, life := 63 }, body := bodyOf updateAuthority p, valid := true, stored := b
      exported := false, gen := ((slotAt s updateAuthority).gen + 1) % 65536 } := by
  simp [takeAuthority, keepSlot, lands, slotAt]

/-- The body of UPDATE_AUTHORITY begins with the public key. -/
theorem take_bodyOf_updateAuthority {p : List Byte} (h : p.length = 97) : (bodyOf updateAuthority p).take 97 = p := by
  have hc : isControl updateAuthority = true := by decide
  simp [bodyOf, hc, List.take_take, List.take_append_of_le_length (Nat.le_of_eq h.symm), List.take_of_length_le (Nat.le_of_eq h)]

/-- A counter record that is read back is the stored counter, and the rest of the store stands. -/
theorem setCounter_vault (e n : Nat) : storedCounter (setCounter e n true s) = n ∧ (setCounter e n true s).vault =
    if testRoot s then { s.vault with debugCounter := (e, n) } else { s.vault with counter := (e, n) } := by
  have hroot : testRoot (storeSetting 1 [wd e, lo32 n, hi32 n] true s) = testRoot s := by simp [testRoot]
  unfold setCounter
  simp only [Bool.not_true, Bool.false_eq_true, if_false, hroot, storeSetting_vault]
  cases ht : testRoot s with
  | true => exact ⟨if_pos ht, rfl⟩
  | false => exact ⟨if_neg (Bool.eq_false_iff.mp ht), rfl⟩

/-- Settles O28: the alarm clauses are read off what an alarm's class leaves of the store; a token's outcome is how its checks end. -/
theorem alarmsZeroiseAndRelease : Obligations.AlarmsZeroiseAndRelease := by
  unfold Obligations.AlarmsZeroiseAndRelease
  refine ⟨fun n s hn => ?_, fun n s hn hu => ?_, fun n s hn hu => ?_, fun n s hc => ?_, fun t s hh ht hp hl => ?_, fun s hl => ?_,
    fun s => rfl, fun m s hr => ?_, fun m s hr ho => ?_, fun m s hr ho h8 hmax hnew => ?_, fun m s hr ho h => ?_,
    fun row scraps owner sig s ho => ?_, fun owner sig s ho hl => ?_, fun owner sig s ho hrow hrows => ?_, fun owner s ho => ?_⟩
  · exact onObject_of (by simp [hn]) _
  · refine (onObject_of (by simp only [decide_eq_true_eq]; omega) _).trans (congrArg _ ?_)
    simp [hu, Nat.le_of_lt_succ hn]
  · obtain ⟨h1, h2⟩ := alarmClass_pos hn
    obtain ⟨hcipher, hvault⟩ := alarm_store n { s with vault := { s.vault with present := s.vault.present ||| 2 ^ n } }
    obtain ⟨hpipes, hhold, hcounts, hraised, hlife, hpend, hscrap, hvol⟩ := alarmEffects_store (alarmClass n)
      (extendHold { s with vault := { s.vault with present := s.vault.present ||| 2 ^ n, raised := s.vault.raised ||| 2 ^ n } }) h1 h2
    refine ⟨_, alarm_runs hn hu, rfl, ?_⟩
    simp only [VaultSt.life, slotAt, hvault, hcipher] at hlife hscrap hvol ⊢
    exact ⟨by rw [mgetD_mset_self, hcounts]; rfl, hraised, hpipes, hhold, fun hc => ⟨hpend hc, hscrap hc⟩, hlife, hvol⟩
  · exact ⟨congrArg _ (alarm_cipher_of_class_zero hc), by rw [alarm_vault_of_class_zero hc]⟩
  · refine congrArg _ (whenever_of ?_ _ s)
    simp [hh, passed, ht, hp, hl]
  · refine congrArg _ (whenever_of_false ?_ _ s)
    simp [hl]
  · exact congrArg _ (if_pos hr)
  · exact congrArg _ ((if_neg (by simp [hr])).trans (if_pos ho))
  · refine congrArg _ ((debugToken_fresh hr ho h8 hmax hnew).trans ?_)
    rfl
  · obtain ⟨st, u, hu, hcase⟩ := tokenChecks_of_stale h
    obtain ⟨htoken, hlife, hfails, hrefused⟩ := tokenFailed_leaves u
    refine ⟨_, congrArg Host.Outcome.next (debugToken_of_failed hr ho hu), ?_⟩
    have hv : u.vault.token = s.vault.token ∧ u.vault.life = s.vault.life ∧ u.vault.tokenFails = s.vault.tokenFails := by
      rcases hcase with rfl | rfl
      · exact ⟨rfl, rfl, rfl⟩
      · rw [alarm_vault_of_class_zero rfl]
        exact ⟨rfl, rfl, rfl⟩
    exact ⟨htoken.trans hv.1, hlife.trans hv.2.1, hfails.trans (congrArg (· + 1) hv.2.2), fun h7 => hrefused (hv.2.2 ▸ h7)⟩
  · exact congrArg _ (if_pos ho)
  · refine congrArg _ ((serviceMessage_of_next ho).trans ?_)
    rw [if_pos rfl, if_neg hl]
    rfl
  · intro b
    have hroom : (31 ≤ nextLifeRow s || 64 ≤ s.vault.epochRows.length) = false := by
      simp [Nat.not_le.mpr hrow, Nat.not_le.mpr hrows]
    refine ⟨fun hl => congrArg _ ((serviceMessage_of_next ho).trans ?_), fun hl => congrArg _ ((serviceMessage_of_next ho).trans ?_)⟩
    · simp only [Bool.false_eq_true, if_false, hroom, hl, if_true]
      rfl
    · simp only [Bool.false_eq_true, if_false, hroom, hl, if_true, reduceCtorEq]
      rfl
  · intro t
    obtain ⟨b, hslot⟩ := takeAuthority_slot (s := burnEpoch owner s) owner
    obtain ⟨hstored, hvault⟩ := setCounter_vault (s := takeAuthority owner true (burnEpoch owner s))
      (updateEpoch (takeAuthority owner true (burnEpoch owner s))) 0
    have hsame : t.vault.epochRows = (takeAuthority owner true (burnEpoch owner s)).vault.epochRows ∧
        slotAt t updateAuthority = slotAt (takeAuthority owner true (burnEpoch owner s)) updateAuthority ∧
        t.vault.life = (takeAuthority owner true (burnEpoch owner s)).vault.life := by
      simp only [t, newOwner, slotAt, VaultSt.life, hvault]
      split <;> exact ⟨rfl, rfl, rfl⟩
    obtain ⟨hrows, hauth, hlife⟩ := hsame
    refine ⟨hrows, ?_, ?_, hstored, hlife⟩
    · rw [hauth, hslot]
    · rw [hauth, hslot]
      exact take_bodyOf_updateAuthority ho

end Sys2Proof.Machine
end

section
/-! PROOFS. The memory commands (O29). -/

namespace Sys2Proof.Machine

/-- A module whose pool 1 holds ten handles in its ring, one of which is gone. -/
def shrunkPool : State :=
  { boot := { state := .ready, phase := .up }
    host := { pairs := [(0, { enable := true, served := true, world := 0x100 })] }
    mem := { pools := [(1, { ring := [(0, 10)], gone := [3] })] } }

/-- POOL_STATS of pool 1, from pair 0. -/
def readPool : Packet := { length := 9, params := [1] }

/-- The events that a next state has emitted. -/
def outOf (r : Res) : List Out :=
  match r with
  | .next t => t.out
  | _ => []

/-- Refutes O29: handles of the ring that are gone are not free, so that POOL_STATS answers 9 where the ring of pool 1 counts ten handles
of which one is gone; the statement's word 0 says 10. -/
theorem not_memoryCommandsTakeEffect : ¬ Obligations.MemoryCommandsTakeEffect := by
  unfold Obligations.MemoryCommandsTakeEffect
  rintro ⟨-, hstats, -⟩
  have hacc : accepts opPoolStats readPool shrunkPool = true := by decide +kernel
  have hworld : (ctxOf opPoolStats readPool (fetched opPoolStats readPool shrunkPool)).world = 0x0100 := by decide +kernel
  have hout := congrArg outOf (hstats readPool shrunkPool hacc (.inl hworld))
  revert hout
  decide +kernel

end Sys2Proof.Machine
end

section
/-! PROOFS. Osier's caches and frees, the counter cache, the patrol, and Hide's start and sweep (O30). -/

namespace Sys2Proof.Machine

/-! ## What ends frames leaves Hide's key and its dirty nodes -/

/-- A loop leaves Hide's key and its dirty nodes where each of its rounds does. -/
theorem forEach_hide {α : Type} (l : List α) (f : α → State → State)
    (h : ∀ a u, (f a u).mem.keyId = u.mem.keyId ∧ (f a u).mem.retiring = u.mem.retiring ∧ (f a u).mem.dirty = u.mem.dirty) (s : State) :
    (forEach l f s).mem.keyId = s.mem.keyId ∧ (forEach l f s).mem.retiring = s.mem.retiring ∧ (forEach l f s).mem.dirty = s.mem.dirty := by
  have hk := forEach_keeps (fun u => (u.mem.keyId, u.mem.retiring, u.mem.dirty)) l f (fun a u => by
    obtain ⟨h1, h2, h3⟩ := h a u
    simp [h1, h2, h3]) s
  simpa using hk

section Frames
variable (s : State)

@[simp] theorem leaveVersion_hide (id : Nat) :
    (leaveVersion id s).mem.keyId = s.mem.keyId ∧ (leaveVersion id s).mem.retiring = s.mem.retiring ∧ (leaveVersion id s).mem.dirty = s.mem.dirty := by
  unfold leaveVersion; (repeat' split) <;> simp

@[simp] theorem epochOut_hide (e : Nat) :
    (epochOut e s).mem.keyId = s.mem.keyId ∧ (epochOut e s).mem.retiring = s.mem.retiring ∧ (epochOut e s).mem.dirty = s.mem.dirty := by
  unfold epochOut; split <;> exact ⟨rfl, rfl, rfl⟩

@[simp] theorem keepCache_hide (p : Nat) :
    (keepCache p s).mem.keyId = s.mem.keyId ∧ (keepCache p s).mem.retiring = s.mem.retiring ∧ (keepCache p s).mem.dirty = s.mem.dirty := by
  unfold keepCache; split <;> exact ⟨rfl, rfl, rfl⟩

@[simp] theorem giveCells_hide (p : Nat) (hs : List Nat) :
    (giveCells p hs s).mem.keyId = s.mem.keyId ∧ (giveCells p hs s).mem.retiring = s.mem.retiring ∧ (giveCells p hs s).mem.dirty = s.mem.dirty := by
  simp [giveCells, updPool]

@[simp] theorem release_hide (w p : Nat) (cs : List Nat) :
    (release w p cs s).mem.keyId = s.mem.keyId ∧ (release w p cs s).mem.retiring = s.mem.retiring ∧ (release w p cs s).mem.dirty = s.mem.dirty := by
  unfold release
  dsimp only
  (repeat' split) <;> simp

@[simp] theorem freeFrame_hide (f : Frame) :
    (freeFrame f s).mem.keyId = s.mem.keyId ∧ (freeFrame f s).mem.retiring = s.mem.retiring ∧ (freeFrame f s).mem.dirty = s.mem.dirty := by
  exact release_hide ..

@[simp] theorem dropFlight_hide (id : Nat) :
    (dropFlight id s).mem.keyId = s.mem.keyId ∧ (dropFlight id s).mem.retiring = s.mem.retiring ∧ (dropFlight id s).mem.dirty = s.mem.dirty := by
  unfold dropFlight
  dsimp only
  (repeat' split) <;> simp [endFlight]

@[simp] theorem settleAll_hide :
    (settleAll s).mem.keyId = s.mem.keyId ∧ (settleAll s).mem.retiring = s.mem.retiring ∧ (settleAll s).mem.dirty = s.mem.dirty := by
  refine forEach_hide _ _ (fun e u => ?_) s
  split
  · exact forEach_hide _ _ (fun n v => by split <;> exact ⟨rfl, rfl, rfl⟩) u
  · exact ⟨rfl, rfl, rfl⟩

@[simp] theorem endInQueues_hide (id : Nat) (pass : Bool) :
    (endInQueues id pass s).mem.keyId = s.mem.keyId ∧ (endInQueues id pass s).mem.retiring = s.mem.retiring ∧ (endInQueues id pass s).mem.dirty = s.mem.dirty := by
  unfold endInQueues
  dsimp only
  split
  · exact ⟨rfl, rfl, rfl⟩
  · simpa using forEach_hide _ _ (fun f u => release_hide u ..) s

@[simp] theorem endInHostQueues_hide (id : Nat) (pass : Bool) :
    (endInHostQueues id pass s).mem.keyId = s.mem.keyId ∧ (endInHostQueues id pass s).mem.retiring = s.mem.retiring ∧ (endInHostQueues id pass s).mem.dirty = s.mem.dirty := by
  unfold endInHostQueues
  dsimp only
  split
  · exact ⟨rfl, rfl, rfl⟩
  · exact forEach_hide _ _ (fun f u => freeFrame_hide u f) s

@[simp] theorem endOnSides_hide (id chan world : Nat) (pass : Bool) :
    (endOnSides id chan world pass s).mem.keyId = s.mem.keyId ∧ (endOnSides id chan world pass s).mem.retiring = s.mem.retiring ∧ (endOnSides id chan world pass s).mem.dirty = s.mem.dirty := by
  unfold endOnSides
  dsimp only
  split <;> simp

@[simp] theorem cutEnd_hide (id chan world : Nat) (pass : Bool) :
    (cutEnd id chan world pass s).mem.keyId = s.mem.keyId ∧ (cutEnd id chan world pass s).mem.retiring = s.mem.retiring ∧ (cutEnd id chan world pass s).mem.dirty = s.mem.dirty := by
  unfold cutEnd
  dsimp only
  (repeat' split) <;> simp

@[simp] theorem abortFrame_hide (a : Admitted) :
    (abortFrame a s).mem.keyId = s.mem.keyId ∧ (abortFrame a s).mem.retiring = s.mem.retiring ∧ (abortFrame a s).mem.dirty = s.mem.dirty := by
  unfold abortFrame fillIdle
  dsimp only
  (repeat' split) <;> simp

@[simp] theorem abortWhere_hide (p : Admitted → Bool) :
    (abortWhere p s).mem.keyId = s.mem.keyId ∧ (abortWhere p s).mem.retiring = s.mem.retiring ∧ (abortWhere p s).mem.dirty = s.mem.dirty := by
  exact forEach_hide _ _ (fun a u => abortFrame_hide u a) _

@[simp] theorem eraseSlot_hide (n : Nat) (r : Bool) :
    (eraseSlot n r s).mem.keyId = s.mem.keyId ∧ (eraseSlot n r s).mem.retiring = s.mem.retiring ∧ (eraseSlot n r s).mem.dirty = s.mem.dirty := by
  exact abortWhere_hide ..

end Frames

variable {s : State}

/-! ## Osier -/

/-- A list of runs gives none of its handles where none is asked for. -/
theorem takeRuns_zero (rs : List (Nat × Nat)) : takeRuns 0 rs = ([], rs) := by
  cases rs with
  | nil => rfl
  | cons r rest => simp [takeRuns]

theorem osierCacheSpill_runs {p : Nat} (hp : p < 16) (ho : ringOpen s p = true) (he : (poolAt s p).enable = true)
    (hc : 3072 ≤ runLen (poolAt s p).cache) : exec (.osierCacheSpill p) s = .next (spill p 1024 s) :=
  (onObject_of (by simp [hp]) _).trans (congrArg _ (whenever_of (by simp [ho, he, hc]) _ s))

/-- A spill moves handles from the cache to the tail of the ring. -/
theorem poolAt_spill (p n : Nat) :
    (poolAt (spill p n s) p).cache = (takeRuns n (poolAt s p).cache).2 ∧
      (poolAt (spill p n s) p).ring = (poolAt s p).ring ++ (takeRuns n (poolAt s p).cache).1 ∧
      (poolAt (spill p n s) p).tail = (poolAt s p).tail + runLen (takeRuns n (poolAt s p).cache).1 := by
  rw [spill, poolAt_updPool_self]
  exact ⟨rfl, rfl, rfl⟩

theorem osierCacheRefill_runs {p : Nat} (hp : p < 16) (ho : ringOpen s p = true) (he : (poolAt s p).enable = true)
    (hc : runLen (poolAt s p).cache ≤ 1024) (bad : Nat) : exec (.osierCacheRefill p bad) s = .next (refillRow p bad s) :=
  (onObject_of (by simp [hp]) _).trans (congrArg _ (whenever_of (by simp [ho, he, hc]) _ s))

/-- A refill without a failing entry moves handles from the head of the ring to the cache. -/
theorem poolAt_refillRow {p : Nat} (h1 : s.mem.poison = []) (h2 : s.mem.regionPoison = []) (hg : (poolAt s p).gone = []) :
    (poolAt (refillRow p 0 s) p).cache = (poolAt s p).cache ++ (takeRuns 1024 (poolAt s p).ring).1 ∧
      (poolAt (refillRow p 0 s) p).ring = (takeRuns 1024 (poolAt s p).ring).2 ∧
      (poolAt (refillRow p 0 s) p).head = (poolAt s p).head + runLen (takeRuns 1024 (poolAt s p).ring).1 := by
  have hgone : (mgetD s.mem.pools p (poolReset p)).gone = [] := hg
  simp [refillRow, refill, readRing, takeRuns_zero, trimSpent, keptRuns, hgone, forEach, runList, runLen, updPool, poolAt, h1, h2]

/-! ## Counter nodes -/

/-- A counter cache that fits is left as it is. -/
theorem keepCounters_of_fits (h : s.mem.cached.length ≤ 32768) : keepCounters s = s := by
  unfold keepCounters
  cases 4 * s.mem.cached.length with
  | zero => rfl
  | succ n => exact if_pos h

theorem counterCacheEvict_runs {level i : Nat} (hi : i < levelNodes level) (ho : hbmOpen s = true)
    (hc : s.mem.cached.contains (nodeKey level i) = true) :
    exec (.counterCacheEvict level i) s = .next (keepCounters (evict level i s)) :=
  (onObject_of (by simp [hi]) _).trans (congrArg _ (whenever_of (by rw [ho, hc]; rfl) _ s))

/-- A clean node leaves the cache as it is. -/
theorem evict_clean {level i : Nat} (h : s.mem.dirty.contains (nodeKey level i) = false) :
    evict level i s = { s with mem := { s.mem with cached := s.mem.cached.filter (· ≠ nodeKey level i) } } := by
  unfold evict writeBack
  dsimp only
  rw [if_pos (by rw [h]; rfl)]

/-- A state whose node is written back: it is neither dirty nor kept as HBM held it. -/
def nodeCleaned (k : Nat) (s : State) : State :=
  { s with mem := { s.mem with dirty := s.mem.dirty.filter (· ≠ k), stored := mdel s.mem.stored k } }

theorem writeBack_top {i : Nat} (h : s.mem.dirty.contains (nodeKey 4 i) = true) :
    writeBack 4 i s = { nodeCleaned (nodeKey 4 i) s with mem := { (nodeCleaned (nodeKey 4 i) s).mem with roots := mupd s.mem.roots i 0 (· + 1) } } := by
  unfold writeBack
  dsimp only
  rw [if_neg (by rw [h]; decide), if_pos rfl]
  rfl

theorem writeBack_below {level i : Nat} (h : s.mem.dirty.contains (nodeKey level i) = true) (hl : level < 4) :
    writeBack level i s = raiseEntry (level + 1) (i / 64) (i % 64) (nodeCleaned (nodeKey level i) s) := by
  unfold writeBack
  dsimp only
  rw [if_neg (by rw [h]; decide), if_neg (Nat.ne_of_lt hl)]
  rfl

/-- An entry that rises in a node above level 1 leaves the counter memory as the write of that node does. -/
theorem raiseEntry_mem {level : Nat} (hl : level ≠ 1) (idx i : Nat) :
    (raiseEntry level idx i s).mem = (setNode level idx (raiseMinor (nodeAt s level idx) i).1 s).mem := by
  unfold raiseEntry
  dsimp only
  cases (raiseMinor (nodeAt s level idx) i).2 with
  | false => rfl
  | true =>
    have hpage : ∀ u, (rewritePage level idx u).mem = u.mem := fun u => by
      unfold rewritePage
      dsimp only
      rw [if_pos hl]
      rfl
    exact hpage _

theorem nodeAt_of_tree {t : State} {level idx : Nat} {c : Counters} (h : mget t.mem.tree (nodeKey level idx) = some c) :
    nodeAt t level idx = c := by
  simp [nodeAt, h]

/-- After the eviction of a dirty node its parent's entry has risen. -/
theorem nodeAt_evict_dirty {level i : Nat} (h : s.mem.dirty.contains (nodeKey level i) = true) (h1 : 1 ≤ level) (h4 : level < 4) :
    nodeAt (evict level i s) (level + 1) (i / 64) = (raiseMinor (nodeAt s (level + 1) (i / 64)) (i % 64)).1 := by
  refine nodeAt_of_tree ?_
  show mget (writeBack level i s).mem.tree _ = _
  rw [writeBack_below h h4, raiseEntry_mem (by omega)]
  exact mget_mset_self ..

/-- An eviction does not let the cache grow. -/
theorem length_cached_evict {level i : Nat} (hc : s.mem.cached.contains (nodeKey level i) = true)
    (h1 : 1 ≤ level) (h4 : level ≤ 4) : (evict level i s).mem.cached.length ≤ s.mem.cached.length := by
  have hout : (s.mem.cached.filter (· ≠ nodeKey level i)).length + 1 ≤ s.mem.cached.length := by
    have hmem : nodeKey level i ∈ s.mem.cached := by simpa using hc
    exact List.length_filter_lt_length_iff_exists.mpr ⟨_, hmem, by simp⟩
  show ((writeBack level i s).mem.cached.filter (· ≠ nodeKey level i)).length ≤ _
  by_cases hd : s.mem.dirty.contains (nodeKey level i) = true
  · rcases Nat.eq_or_lt_of_le h4 with rfl | hlt
    · rw [writeBack_top hd]
      exact Nat.le_of_succ_le hout
    · rw [writeBack_below hd hlt, raiseEntry_mem (by omega)]
      show (List.filter _ (if _ then s.mem.cached else s.mem.cached ++ [_])).length ≤ _
      split
      · exact Nat.le_of_succ_le hout
      · rw [List.filter_append, List.length_append]
        exact (Nat.add_le_add_left (List.length_filter_le _ [_]) _).trans hout
  · unfold writeBack
    dsimp only
    rw [if_pos (by simpa using hd)]
    exact Nat.le_of_succ_le hout

theorem level_of_node {level i : Nat} (h : i < levelNodes level) : 1 ≤ level ∧ level ≤ 4 := by
  unfold levelNodes at h
  split at h
  · exact ⟨by decide, by decide⟩
  · exact ⟨by decide, by decide⟩
  · exact ⟨by decide, by decide⟩
  · exact ⟨by decide, by decide⟩
  · exact absurd h (Nat.not_lt_zero i)

/-! ## The flush of a key change -/

/-- Every dirty node has one of the levels from `l` to 4. -/
def DirtyFrom (l : Nat) (s : State) : Prop := ∀ k ∈ s.mem.dirty, l ≤ k / 2 ^ 23 ∧ k / 2 ^ 23 ≤ 4

/-- A node that is written back is dirty no more, and at most its parent becomes so. -/
theorem mem_dirty_writeBack {level i k : Nat} (h1 : 1 ≤ level) (h4 : level ≤ 4) (hk : k ∈ (writeBack level i s).mem.dirty) :
    (k ∈ s.mem.dirty ∧ k ≠ nodeKey level i) ∨ (level < 4 ∧ k = nodeKey (level + 1) (i / 64)) := by
  by_cases hd : s.mem.dirty.contains (nodeKey level i) = true
  · rcases Nat.eq_or_lt_of_le h4 with rfl | hlt
    · rw [writeBack_top hd] at hk
      exact .inl (by simpa [nodeCleaned] using hk)
    · rw [writeBack_below hd hlt, raiseEntry_mem (by omega)] at hk
      have hset : k ∈ (if (nodeCleaned (nodeKey level i) s).mem.dirty.contains (nodeKey (level + 1) (i / 64)) then
          (nodeCleaned (nodeKey level i) s).mem.dirty else (nodeCleaned (nodeKey level i) s).mem.dirty ++ [nodeKey (level + 1) (i / 64)]) := hk
      split at hset
      · exact .inl (by simpa [nodeCleaned] using hset)
      · rw [List.mem_append] at hset
        rcases hset with hold | hnew
        · exact .inl (by simpa [nodeCleaned] using hold)
        · exact .inr ⟨hlt, by simpa using hnew⟩
  · have hsame : writeBack level i s = s := if_pos (by simpa using hd)
    rw [hsame] at hk
    exact .inl ⟨hk, fun he => hd (by simpa [he] using hk)⟩

/-- Writing back listed nodes of a level leaves dirty nodes of higher levels only, where those of the level were all listed. -/
theorem dirtyFrom_forEach_writeBack {level : Nat} (h1 : 1 ≤ level) (h4 : level ≤ 4) (ks : List Nat) (hks : ∀ k ∈ ks, k / 2 ^ 23 = level)
    (s : State) (h : ∀ k ∈ s.mem.dirty, (level + 1 ≤ k / 2 ^ 23 ∧ k / 2 ^ 23 ≤ 4) ∨ k ∈ ks) :
    DirtyFrom (level + 1) (forEach ks (fun k s => writeBack level (k % 2 ^ 23) s) s) := by
  induction ks generalizing s with
  | nil => exact fun k hk => (h k hk).resolve_right (by simp)
  | cons k rest ih =>
    have hkey : nodeKey level (k % 2 ^ 23) = k := by
      have hlev := hks k (by simp)
      unfold nodeKey
      omega
    refine ih (fun j hj => hks j (List.mem_cons_of_mem _ hj)) _ (fun j hj => ?_)
    rcases mem_dirty_writeBack h1 h4 hj with ⟨hold, hne⟩ | ⟨hlt, rfl⟩
    · rw [hkey] at hne
      exact (h j hold).imp_right fun hj => (List.mem_cons.mp hj).resolve_left hne
    · refine .inl ?_
      unfold nodeKey
      omega

theorem dirtyFrom_flushLevel {level : Nat} (h1 : 1 ≤ level) (h4 : level ≤ 4) (h : DirtyFrom level s) :
    DirtyFrom (level + 1) (flushLevel s level) := by
  refine dirtyFrom_forEach_writeBack h1 h4 _ (fun k hk => by simpa using (List.mem_filter.mp hk).2) s (fun k hk => ?_)
  by_cases hl : k / 2 ^ 23 = level
  · exact .inr (List.mem_filter.mpr ⟨hk, by simpa using hl⟩)
  · have := h k hk
    exact .inl (by omega)

/-- With no dirty node the counter cache is trimmed without a write. -/
theorem trimCache_clean (fuel : Nat) (s : State) (h : s.mem.dirty = []) :
    (trimCache fuel s).mem.dirty = [] ∧ (trimCache fuel s).mem.keyId = s.mem.keyId := by
  induction fuel generalizing s with
  | zero => exact ⟨h, rfl⟩
  | succ n ih =>
    unfold trimCache
    split
    · exact ⟨h, rfl⟩
    · dsimp only
      rw [evict_clean (by simp [takeFree, h])]
      exact ih _ h

theorem keyId_raiseEntry (level idx i : Nat) (hl : level ≠ 1) : (raiseEntry level idx i s).mem.keyId = s.mem.keyId := by
  rw [raiseEntry_mem hl]
  rfl

theorem keyId_writeBack {level : Nat} (h1 : 1 ≤ level) (i : Nat) : (writeBack level i s).mem.keyId = s.mem.keyId := by
  unfold writeBack
  dsimp only
  split
  · rfl
  · split
    · rfl
    · exact keyId_raiseEntry _ _ _ (by omega)

theorem keyId_flushLevel {level : Nat} (h1 : 1 ≤ level) : (flushLevel s level).mem.keyId = s.mem.keyId :=
  forEach_keeps (fun u => u.mem.keyId) _ _ (fun _ _ => keyId_writeBack h1 _) s

/-- The flush leaves no dirty node, under the key identifier in force. -/
theorem flushTree_clean (h : DirtyFrom 1 s) : (flushTree s).mem.dirty = [] ∧ (flushTree s).mem.keyId = s.mem.keyId := by
  have h5 : DirtyFrom 5 ([1, 2, 3, 4].foldl flushLevel s) :=
    dirtyFrom_flushLevel (by decide) (by decide) (dirtyFrom_flushLevel (by decide) (by decide)
      (dirtyFrom_flushLevel (by decide) (by decide) (dirtyFrom_flushLevel (by decide) (by decide) h)))
  have hnone : ([1, 2, 3, 4].foldl flushLevel s).mem.dirty = [] :=
    List.eq_nil_iff_forall_not_mem.mpr fun k hk => by
      have := h5 k hk
      omega
  obtain ⟨hd, hk⟩ := trimCache_clean (4 * ([1, 2, 3, 4].foldl flushLevel s).mem.cached.length) _ hnone
  refine ⟨hd, hk.trans ?_⟩
  show (flushLevel (flushLevel (flushLevel (flushLevel s 1) 2) 3) 4).mem.keyId = _
  simp [keyId_flushLevel]

/-- An erased slot holds no key. -/
theorem valid_eraseSlot (n : Nat) (r : Bool) : (slotAt (eraseSlot n r s) n).valid = false := by
  rw [eraseSlot, slotAt_updSlot_self]

/-! ## The events -/

/-- A queue without a chain that it held keeps its other frames, and every other queue and the host keep theirs. -/
theorem withoutChain_of_queue {p h : Nat} {n : NodeId} (hn : queueHolder s p h = some n) :
    (queueAt (withoutChain p h s) n).held = (queueAt s n).held.eraseP (fun y => isChain p h y.frame) ∧
      (withoutChain p h s).host = s.host ∧ ∀ k, k ≠ n → queueAt (withoutChain p h s) k = queueAt s k := by
  have hsettle : ∀ u : State, ((settleQueue n u).tm.queues, (settleQueue n u).host) = (u.tm.queues, u.host) := fun u =>
    forEach_keeps (fun v => (v.tm.queues, v.host)) _ _ (fun m v => by split <;> rfl) u
  obtain ⟨hq, hh⟩ := Prod.mk.inj (hsettle (updQueue n (fun x => { x with held := x.held.eraseP fun y => isChain p h y.frame }) s))
  have hw : withoutChain p h s = settleQueue n (updQueue n (fun x => { x with held := x.held.eraseP fun y => isChain p h y.frame }) s) := by
    simp only [withoutChain, hn]
  have hat : ∀ k, queueAt (withoutChain p h s) k =
      queueAt (updQueue n (fun x => { x with held := x.held.eraseP fun y => isChain p h y.frame }) s) k := fun k => by
    rw [hw]
    unfold queueAt
    rw [hq]
  refine ⟨?_, by rw [hw, hh]; rfl, fun k hk => ?_⟩
  · rw [hat, queueAt_updQueue_self]
  · rw [hat, queueAt_updQueue_other _ _ _ _ (Ne.symm hk)]

/-- Settles O30: spills and refills move runs between a pool's ring and its cache; an evicted node raises its parent's entry alone, so that
the flush of a key change, level by level, leaves no dirty node. -/
theorem memoryEventsKeepPoolsAndTree : Obligations.MemoryEventsKeepPoolsAndTree := by
  unfold Obligations.MemoryEventsKeepPoolsAndTree
  refine ⟨fun p s hp ho he hc => ?_, fun p s hp ho he hc h1 h2 hg => ?_, fun p n s hp ho h0 => ?_, fun p h r s hp hh => ?_,
    fun p h f s hp hf => ?_, fun p h n s hn => withoutChain_of_queue hn, fun level i s hi ho hlen hc => ?_, fun n failing s hf ho => ?_,
    fun s hi => ?_, fun old s hr ho hd => ?_⟩
  · exact ⟨_, osierCacheSpill_runs hp ho he hc, poolAt_spill p 1024⟩
  · exact ⟨_, osierCacheRefill_runs hp ho he hc 0, poolAt_refillRow h1 h2 hg⟩
  · have hclosed : ringOpen s p = false := by simp [ringOpen, ho, h0]
    exact ⟨(onObject_of (by simp [hp]) _).trans (congrArg _ (whenever_of_false (by simp [hclosed]) _ s)),
      (onObject_of (by simp [hp]) _).trans (congrArg _ (whenever_of_false (by simp [hclosed]) _ s))⟩
  · refine (onObject_of (by simp [hp]) _).trans (congrArg _ ?_)
    simp only [cellFree, hh]
    rfl
  · refine (onObject_of (by simp [hp]) _).trans (congrArg _ ?_)
    simp [cellFree, hf]
  · intro k out clean
    obtain ⟨h1, h4⟩ := level_of_node hi
    have hfits : (evict level i s).mem.cached.length ≤ 32768 := (length_cached_evict hc h1 h4).trans hlen
    rw [counterCacheEvict_runs hi ho hc, keepCounters_of_fits hfits]
    refine ⟨fun hd => congrArg _ (evict_clean hd), fun hd hl => ?_, fun hd hl => ?_⟩
    · subst hl
      unfold evict
      rw [writeBack_top hd]
      rfl
    · intro c m
      refine ⟨_, rfl, (nodeAt_evict_dirty hd h1 hl).trans ?_⟩
      show (raiseMinor c (i % 64)).1 = _
      unfold raiseMinor
      split <;> rfl
  · refine (onObject_of (by simpa using fun a b hab => hf (a, b) hab) _).trans (congrArg _ (whenever_of ho _ s))
  · refine ⟨_, congrArg Host.Outcome.next (whenever_of (by simp [hi]) _ s), rfl, rfl, rfl, rfl, rfl, rfl, rfl, rfl, ?_⟩
    simp [hideInit, newHideKey, hideSlot, takeFree, writeKey, keepSlot, lands, slotAt]
  · have hrun : exec .hideSweepComplete s = .next (sweepComplete s) := congrArg Host.Outcome.next (whenever_of (by simp [hr, ho]) _ s)
    obtain ⟨hdirty, hkey⟩ := flushTree_clean hd
    have hdone : sweepDone s = eraseSlot (hideSlot old) false
        { flushTree s with mem := { (flushTree s).mem with retiring := none, sweep := 0 } } := by
      simp only [sweepDone, hr]
    refine ⟨sweepDone s, hrun, ?_⟩
    rw [hdone]
    refine ⟨(eraseSlot_hide ..).1.trans hkey, (eraseSlot_hide ..).2.1, (eraseSlot_hide ..).2.2.trans hdirty, valid_eraseSlot ..⟩

end Sys2Proof.Machine
end

section
/-! PROOFS. What leaves the lines of HBM as they are: the frames that end, alarms, and the counter cache (O31). -/

namespace Sys2Proof.Machine

/-- A loop leaves the lines of HBM and their marks where each of its rounds does. -/
theorem forEach_lines {α : Type} (l : List α) (f : α → State → State)
    (h : ∀ a u, (f a u).mem.cells = u.mem.cells ∧ (f a u).mem.bad = u.mem.bad) (s : State) :
    (forEach l f s).mem.cells = s.mem.cells ∧ (forEach l f s).mem.bad = s.mem.bad := by
  have hk := forEach_keeps (fun u => (u.mem.cells, u.mem.bad)) l f (fun a u => by
    obtain ⟨h1, h2⟩ := h a u
    simp [h1, h2]) s
  simpa using hk

section Frames
variable (s : State)

@[simp] theorem leaveVersion_lines (id : Nat) : (leaveVersion id s).mem.cells = s.mem.cells ∧ (leaveVersion id s).mem.bad = s.mem.bad := by
  unfold leaveVersion; (repeat' split) <;> simp

@[simp] theorem epochOut_lines (e : Nat) : (epochOut e s).mem.cells = s.mem.cells ∧ (epochOut e s).mem.bad = s.mem.bad := by
  unfold epochOut; split <;> exact ⟨rfl, rfl⟩

@[simp] theorem keepCache_lines (p : Nat) : (keepCache p s).mem.cells = s.mem.cells ∧ (keepCache p s).mem.bad = s.mem.bad := by
  unfold keepCache; split <;> exact ⟨rfl, rfl⟩

@[simp] theorem giveCells_lines (p : Nat) (hs : List Nat) : (giveCells p hs s).mem.cells = s.mem.cells ∧ (giveCells p hs s).mem.bad = s.mem.bad := by
  simp [giveCells, updPool]

@[simp] theorem release_lines (w p : Nat) (cs : List Nat) : (release w p cs s).mem.cells = s.mem.cells ∧ (release w p cs s).mem.bad = s.mem.bad := by
  unfold release
  dsimp only
  (repeat' split) <;> simp

@[simp] theorem freeFrame_lines (f : Frame) : (freeFrame f s).mem.cells = s.mem.cells ∧ (freeFrame f s).mem.bad = s.mem.bad := by
  exact release_lines ..

@[simp] theorem dropFlight_lines (id : Nat) : (dropFlight id s).mem.cells = s.mem.cells ∧ (dropFlight id s).mem.bad = s.mem.bad := by
  unfold dropFlight
  dsimp only
  (repeat' split) <;> simp [endFlight]

@[simp] theorem settleAll_lines : (settleAll s).mem.cells = s.mem.cells ∧ (settleAll s).mem.bad = s.mem.bad := by
  refine forEach_lines _ _ (fun e u => ?_) s
  split
  · exact forEach_lines _ _ (fun n v => by split <;> exact ⟨rfl, rfl⟩) u
  · exact ⟨rfl, rfl⟩

@[simp] theorem endInQueues_lines (id : Nat) (pass : Bool) : (endInQueues id pass s).mem.cells = s.mem.cells ∧ (endInQueues id pass s).mem.bad = s.mem.bad := by
  unfold endInQueues
  dsimp only
  split
  · exact ⟨rfl, rfl⟩
  · simpa using forEach_lines _ _ (fun f u => release_lines u ..) s

@[simp] theorem endInHostQueues_lines (id : Nat) (pass : Bool) : (endInHostQueues id pass s).mem.cells = s.mem.cells ∧ (endInHostQueues id pass s).mem.bad = s.mem.bad := by
  unfold endInHostQueues
  dsimp only
  split
  · exact ⟨rfl, rfl⟩
  · exact forEach_lines _ _ (fun f u => freeFrame_lines u f) s

@[simp] theorem endOnSides_lines (id chan world : Nat) (pass : Bool) : (endOnSides id chan world pass s).mem.cells = s.mem.cells ∧ (endOnSides id chan world pass s).mem.bad = s.mem.bad := by
  unfold endOnSides
  dsimp only
  split <;> simp

@[simp] theorem cutEnd_lines (id chan world : Nat) (pass : Bool) : (cutEnd id chan world pass s).mem.cells = s.mem.cells ∧ (cutEnd id chan world pass s).mem.bad = s.mem.bad := by
  unfold cutEnd
  dsimp only
  (repeat' split) <;> simp

@[simp] theorem abortFrame_lines (a : Admitted) : (abortFrame a s).mem.cells = s.mem.cells ∧ (abortFrame a s).mem.bad = s.mem.bad := by
  unfold abortFrame fillIdle
  dsimp only
  (repeat' split) <;> simp

@[simp] theorem abortWhere_lines (p : Admitted → Bool) : (abortWhere p s).mem.cells = s.mem.cells ∧ (abortWhere p s).mem.bad = s.mem.bad := by
  exact forEach_lines _ _ (fun a u => abortFrame_lines u a) _

@[simp] theorem replyTo_lines (p : Packet) (st : Status) (ws : List Word) (n : Nat) : (replyTo p st ws n s).mem.cells = s.mem.cells ∧ (replyTo p st ws n s).mem.bad = s.mem.bad := by
  unfold replyTo
  dsimp only
  (repeat' split) <;> simp

@[simp] theorem abortSlotOps_lines : (abortSlotOps s).mem.cells = s.mem.cells ∧ (abortSlotOps s).mem.bad = s.mem.bad := by
  refine forEach_lines _ _ (fun w u => ?_) s
  (repeat' split) <;> simp

@[simp] theorem hideLost_lines : (hideLost s).mem.cells = s.mem.cells ∧ (hideLost s).mem.bad = s.mem.bad := by
  refine forEach_lines _ _ (fun e u => ?_) s
  (repeat' split) <;> simp

@[simp] theorem alarmHold_lines : (alarmHold s).mem.cells = s.mem.cells ∧ (alarmHold s).mem.bad = s.mem.bad := by
  exact abortWhere_lines ..

@[simp] theorem alarmEmpty_lines : (alarmEmpty s).mem.cells = s.mem.cells ∧ (alarmEmpty s).mem.bad = s.mem.bad := by
  simp [alarmEmpty]

@[simp] theorem eraseAll_lines : (eraseAll s).mem.cells = s.mem.cells ∧ (eraseAll s).mem.bad = s.mem.bad := by
  simp [eraseAll]

@[simp] theorem scrapRest_lines : (scrapRest s).mem.cells = s.mem.cells ∧ (scrapRest s).mem.bad = s.mem.bad := by
  simp [scrapRest, burnRow]

@[simp] theorem scrap_lines : (scrap s).mem.cells = s.mem.cells ∧ (scrap s).mem.bad = s.mem.bad := by
  unfold scrap
  dsimp only
  (repeat' split) <;> simp

@[simp] theorem alarmEffects_lines (cls : Nat) : (alarmEffects cls s).mem.cells = s.mem.cells ∧ (alarmEffects cls s).mem.bad = s.mem.bad := by
  unfold alarmEffects
  dsimp only
  (repeat' split) <;> simp

@[simp] theorem alarm_lines (n : Nat) : (alarm n s).mem.cells = s.mem.cells ∧ (alarm n s).mem.bad = s.mem.bad := by
  simp [alarm, extendHold]

@[simp] theorem hideCondition_lines : (hideCondition s).mem.cells = s.mem.cells ∧ (hideCondition s).mem.bad = s.mem.bad := by
  unfold hideCondition
  dsimp only
  (repeat' split) <;> simp

@[simp] theorem rewritePage_lines (level idx : Nat) : (rewritePage level idx s).mem.cells = s.mem.cells ∧ (rewritePage level idx s).mem.bad = s.mem.bad := by
  unfold rewritePage
  dsimp only
  split
  · exact ⟨rfl, rfl⟩
  · exact forEach_lines _ _ (fun _ u => by simp) _

@[simp] theorem raiseEntry_lines (level idx i : Nat) : (raiseEntry level idx i s).mem.cells = s.mem.cells ∧ (raiseEntry level idx i s).mem.bad = s.mem.bad := by
  unfold raiseEntry whenever
  dsimp only
  split
  · exact rewritePage_lines ..
  · exact ⟨rfl, rfl⟩

@[simp] theorem writeBack_lines (level idx : Nat) : (writeBack level idx s).mem.cells = s.mem.cells ∧ (writeBack level idx s).mem.bad = s.mem.bad := by
  unfold writeBack
  dsimp only
  (repeat' split) <;> simp

@[simp] theorem evict_lines (level idx : Nat) : (evict level idx s).mem.cells = s.mem.cells ∧ (evict level idx s).mem.bad = s.mem.bad := by
  exact writeBack_lines ..

end Frames

@[simp] theorem trimCache_lines (fuel : Nat) (s : State) : (trimCache fuel s).mem.cells = s.mem.cells ∧ (trimCache fuel s).mem.bad = s.mem.bad := by
  induction fuel generalizing s with
  | zero => exact ⟨rfl, rfl⟩
  | succ n ih =>
    unfold trimCache
    split
    · exact ⟨rfl, rfl⟩
    · simp [ih]

variable (s : State)

@[simp] theorem keepCounters_lines : (keepCounters s).mem.cells = s.mem.cells ∧ (keepCounters s).mem.bad = s.mem.bad := trimCache_lines ..

@[simp] theorem lineWritten_lines (a : Nat) : (lineWritten a s).mem.cells = s.mem.cells ∧ (lineWritten a s).mem.bad = s.mem.bad := by
  simp [lineWritten]

@[simp] theorem lineEvents_lines (page w r : Nat) :
    (lineEvents page w r s).mem.cells = s.mem.cells ∧ (lineEvents page w r s).mem.bad = s.mem.bad := by
  simp [lineEvents]


end Sys2Proof.Machine
end

section
/-! PROOFS. Line and debug accesses to HBM (O31). -/

namespace Sys2Proof.Machine

variable {s : State}

/-! ## What an access emits besides its line: nothing, while no cell is known to be bad -/

theorem rewritePage_out (h : s.mem.bad = []) (level idx : Nat) : (rewritePage level idx s).out = s.out := by
  unfold rewritePage
  dsimp only
  split
  · rfl
  · simp [h, forEach]

theorem raiseEntry_out (h : s.mem.bad = []) (level idx i : Nat) : (raiseEntry level idx i s).out = s.out := by
  unfold raiseEntry whenever
  dsimp only
  split
  · exact rewritePage_out (s := setNode _ _ _ s) h ..
  · rfl

theorem evict_out (h : s.mem.bad = []) (level idx : Nat) : (evict level idx s).out = s.out := by
  show (writeBack level idx s).out = s.out
  unfold writeBack
  dsimp only
  split
  · rfl
  · split
    · rfl
    · rw [raiseEntry_out]
      simp [h]

theorem trimCache_out (fuel : Nat) (s : State) (h : s.mem.bad = []) : (trimCache fuel s).out = s.out := by
  induction fuel generalizing s with
  | zero => rfl
  | succ n ih =>
    unfold trimCache
    split
    · rfl
    · dsimp only
      rw [ih _ (by simp [takeFree, h]), evict_out] <;> simp [takeFree, h]

theorem keepCounters_out (h : s.mem.bad = []) : (keepCounters s).out = s.out := trimCache_out _ _ h

theorem lineEvents_out (h : s.mem.bad = []) (page w r : Nat) : (lineEvents page w r s).out = s.out := by
  unfold lineEvents
  dsimp only
  rw [keepCounters_out] <;> simp [h]

theorem lineWritten_out (h : s.mem.bad = []) (a : Nat) : (lineWritten a s).out = s.out := by
  unfold lineWritten
  rw [keepCounters_out, raiseEntry_out h]
  simp [h]

/-! ## A HIDE condition with no frame in the array -/

theorem abortWhere_of_empty (h : s.cipher.inPipes = []) (p : Admitted → Bool) : (abortWhere p s).mem = s.mem := by
  simp [abortWhere, h, forEach]

/-- An alarm of class 0 or 1 leaves the memory where the array holds no frame. -/
theorem alarm_mem_of_low {n : Nat} (hn : alarmClass n ≤ 1) (h : s.cipher.inPipes = []) :
    (alarm n s).mem = s.mem ∧ (alarm n s).cipher.inPipes = [] := by
  have heff : ∀ u : State, u.cipher.inPipes = [] →
      (alarmEffects (alarmClass n) u).mem = u.mem ∧ (alarmEffects (alarmClass n) u).cipher.inPipes = [] := fun u hu => by
    obtain h0 | h1 : alarmClass n = 0 ∨ alarmClass n = 1 := by omega
    · rw [h0]
      exact ⟨rfl, hu⟩
    · rw [h1]
      exact ⟨abortWhere_of_empty hu _, by simp [alarmEffects, alarmHold, (abortWhere_store _ u).2.2]⟩
  obtain ⟨hm, hc⟩ := heff (extendHold { s with vault := { s.vault with raised := s.vault.raised ||| 2 ^ n } }) h
  exact ⟨by simpa [alarm, extendHold] using hm, by simpa [alarm, extendHold] using hc⟩

theorem hideCondition_mem_of_empty (h : s.cipher.inPipes = []) : (hideCondition s).mem = s.mem := by
  unfold hideCondition
  dsimp only
  obtain ⟨hm, hc⟩ := alarm_mem_of_low (n := 9)
    (s := { s with vault := { s.vault with hideTimes := (s.vault.hideTimes.filter fun t => s.mono < t + sec) ++ [s.mono] } }) (by decide) h
  split
  · refine (alarm_mem_of_low (n := 10) (by decide) ?_).1.trans hm
    exact hc
  · exact hm

/-! ## What an access finds -/

theorem areaOf_of_engineMay {a : Nat} (h : engineMay s 0 a = true) : areaOf a = .guarded := by
  unfold engineMay at h
  split at h <;> simp_all

theorem accessMay_of_engineMay {engine a : Nat} (h : engineMay s engine a = true) (w : Bool) : accessMay s engine a w = true := by
  simp [accessMay, h]

theorem cellFound_good {a : Nat} (h : poisonedCell s (a / 128) = false) : cellFound a .good s = (true, s) := by
  simp [cellFound, h]

theorem cellFound_poisoned {a : Nat} (h : poisonedCell s (a / 128) = true) (check : LineCheck) : cellFound a check s = (false, poisonHit s) := by
  simp [cellFound, h]

/-- A line that fails its check is marked, and its bytes stand. -/
theorem cellFound_mismatch {a : Nat} (h : poisonedCell s (a / 128) = false) :
    ∃ u, cellFound a .mismatch s = (false, u) ∧ u.mem.cells = s.mem.cells ∧ a / 128 ∈ u.mem.bad := by
  refine ⟨_, by simp only [cellFound, h, Bool.false_eq_true, if_false]; rfl, by simp, ?_⟩
  simp only [(hideCondition_lines _).2, bump_mem]
  split
  · rename_i hc
    simpa using hc
  · simp

theorem line_of_line (a : Nat) : a / 64 * 64 / 128 = a / 128 := by omega

/-! ## Engines -/

theorem hideLineAccess_runs {engine a : Nat} {w : Bool} {data : List Byte} (he : engine < 3) (hd : w = true → data.length = 64)
    (ho : hbmOpen s = true) (check : LineCheck) :
    exec (.hideLineAccess engine a w data check) s = .next (lineAccess engine a w data check s) := by
  refine (onObject_of ?_ _).trans (congrArg _ (whenever_of ho _ s))
  cases w with
  | false => simp [he]
  | true => simp [he, hd rfl]

/-- An engine's access to the protected region, by what Hide finds. -/
theorem lineAccess_guarded {engine a : Nat} {w : Bool} (hm : accessMay s engine (a / 64 * 64) w = true) (hg : areaOf (a / 64 * 64) = .guarded)
    (data : List Byte) (check : LineCheck) :
    lineAccess engine a w data check s = match cellFound (a / 64 * 64) check s with
      | (false, s1) => emit (.line (a / 64 * 64) none) s1
      | (true, s1) =>
        let s2 := lineEvents (a / 64 * 64 / 4096) (b2n w) (b2n (!w)) s1
        if w then lineWritten (a / 64 * 64) { s2 with mem := { s2.mem with cells := memWriteN s2.mem.cells (a / 64 * 64) data } }
        else emit (.line (a / 64 * 64) (some (memReadN s2.mem.cells (a / 64 * 64) 64))) s2 := by
  simp only [lineAccess, hm, hg, Bool.not_true, Bool.false_eq_true, if_false] <;> rfl

theorem lineAccess_ring {a p : Nat} {w : Bool} (hp : ringPool s (a / 64 * 64) = some p) (hg : areaOf (a / 64 * 64) = .rings)
    (data : List Byte) (check : LineCheck) : lineAccess 1 a w data check s = ringAccess p (a / 64 * 64) w check s := by
  have hm : accessMay s 1 (a / 64 * 64) w = true := accessMay_of_engineMay (by simp [engineMay, hg, hp]) w
  simp only [lineAccess, hm, hg, hp, Bool.not_true, Bool.false_eq_true, if_false]

/-- A ring line that is lost takes its free handles with it. -/
theorem poolAt_ringLineLost (p line : Nat) (u : State) :
    (poolAt (ringLineLost p line u) p).ring = (poolAt u p).ring ∧
      (poolAt (ringLineLost p line u) p).gone = (poolAt u p).gone ++ lineCounts p (poolAt u p) line ∧
      (poolAt (ringLineLost p line u) p).lost = (poolAt u p).lost + (lineCounts p (poolAt u p) line).length := by
  have hpool : poolAt (ringLineLost p line u) p = { poolAt u p with
      gone := (poolAt u p).gone ++ lineCounts p (poolAt u p) line
      lost := (poolAt u p).lost + (lineCounts p (poolAt u p) line).length } := by
    simp [ringLineLost, poolAt, updPool]
  rw [hpool]
  exact ⟨rfl, rfl, rfl⟩

/-! ## MGMT and DEBUG -/

theorem debugAccess_runs {master kind : Nat} (hm : master < 2) (h1 : 1 ≤ kind) (h3 : kind ≤ 3) (ho : hbmOpen s = true) (a : Nat)
    (check : LineCheck) (data : List Byte) :
    exec (.debugAccess master a ⟨kind, check⟩ data) s = .next (rightsAccess master a ⟨kind, check⟩ data s) :=
  (onObject_of (by simp [hm, h1, h3]) _).trans (congrArg _ (whenever_of ho _ s))

/-- A master holds the right that a kind of access needs. -/
def mayKind (right kind : Nat) : Bool :=
  match kind with
  | 1 => right = 1 || right = 2 || right = 3
  | 2 => 2 ≤ right
  | _ => right = 3

theorem rightsAccess_refused {master a : Nat} {kind : MasterAccess}
    (h : areaOf (a / 64 * 64) = .none ∨ mayKind (rightOf s master (a / 4096)) kind.code = false) (data : List Byte) :
    rightsAccess master a kind data s = emit (.line a none) (bump cRightsRefused 0 0 s) := by
  refine if_pos ?_
  rcases h with h | h
  · simp [h]
  · rw [Bool.or_eq_true]
    exact .inr (by rw [Bool.not_eq_true']; exact h)

theorem rightsAccess_raw {master a : Nat} {check : LineCheck} (ha : areaOf (a / 64 * 64) ≠ .none)
    (hr : mayKind (rightOf s master (a / 4096)) 1 = true) (data : List Byte) :
    rightsAccess master a ⟨1, check⟩ data s = emit (.line (a / 64 * 64) (some (rawLine (sweepOn s) (a / 64 * 64)))) (sweepOn s) := by
  refine (if_neg ?_).trans (if_pos rfl)
  rw [Bool.or_eq_true, not_or]
  exact ⟨by simpa using ha, by rw [Bool.not_eq_true', Bool.not_eq_false]; exact hr⟩

/-- A plaintext access goes by what Hide finds in the line. -/
theorem rightsAccess_plain {master a kind : Nat} {check : LineCheck} (ha : areaOf (a / 64 * 64) ≠ .none)
    (hr : mayKind (rightOf s master (a / 4096)) kind = true) (hk : kind ≠ 1) (data : List Byte) :
    rightsAccess master a ⟨kind, check⟩ data s = match cellFound (a / 64 * 64) check s with
      | (false, s1) => emit (.line a none) s1
      | (true, s1) =>
        if kind = 2 then
          emit (.line a (some (memReadN s1.mem.cells a (min data.length (a / 64 * 64 + 64 - a))))) (lineEvents (a / 4096) 0 1 s1)
        else
          let part := if (data.take (a / 64 * 64 + 64 - a)).length < 64 then countEvent 0x49 0x103 0x0100 1 (lineEvents (a / 4096) 1 1 s1)
            else lineEvents (a / 4096) 1 0 s1
          lineWritten (a / 64 * 64) { part with mem := { part.mem with cells := memWriteN part.mem.cells a (data.take (a / 64 * 64 + 64 - a)) } } := by
  refine (if_neg ?_).trans ((if_neg hk).trans ?_)
  · rw [Bool.or_eq_true, not_or]
    exact ⟨by simpa using ha, by rw [Bool.not_eq_true', Bool.not_eq_false]; exact hr⟩
  · rfl

/-- The right for a plaintext access of kind 2 or 3. -/
theorem mayKind_of_le {right kind : Nat} (h2 : 2 ≤ kind) (hr : kind ≤ right) (h3 : right ≤ 3) : mayKind right kind = true := by
  obtain rfl | rfl : kind = 2 ∨ kind = 3 := by omega
  · simpa [mayKind] using hr
  · simp [mayKind]
    omega

/-- The right for a raw read. -/
theorem mayKind_raw {right : Nat} (h1 : 1 ≤ right) (h3 : right ≤ 3) : mayKind right 1 = true := by
  simp [mayKind]
  omega

/-- Without a key change the sweep pointer stays out of an access. -/
theorem sweepOn_of_settled (h : s.mem.retiring = none) : sweepOn s = s := by
  simp [sweepOn, h]

/-- The bytes and metadata that Hide makes of a line under a key identifier and counters. -/
def sealedLine (s : State) (area id line major minor : Nat) (plain : List Byte) : List Byte :=
  let key := slotBytes s (0x20100 + id)
  let bs := xorBytes plain (hideStream key area line major minor)
  bs ++ hideMeta (hideTag key area line major minor bs) bs

theorem rawLine_guarded {a : Nat} (h : areaOf a = .guarded) : rawLine s a = sealedLine s 0 (lineKeyId s a) (a / 64)
    (nodeAt s 1 (a / 4096)).major (mgetD (nodeAt s 1 (a / 4096)).minors (a / 64 % 64) 0) (memReadN s.mem.cells a 64) := by
  simp [rawLine, lineCounter, linePlain, areaCode, h, storedBytes, sealedLine, hideSlot]

theorem rawLine_ring {a p : Nat} (h : areaOf a = .rings) (hp : ringPool s a = some p) : rawLine s a =
    sealedLine s 2 (lineKeyId s a) (a / 64) (linePass p (poolAt s p) (ringLineOf (poolAt s p) a)) 0
      (ringLine p (poolAt s p) (ringLineOf (poolAt s p) a)) := by
  simp [rawLine, lineCounter, linePlain, areaCode, h, hp, storedBytes, sealedLine, hideSlot]

theorem rawLine_counters {a level : Nat} (h : areaOf a = .counters level) (hl : level ≠ 4) : rawLine s a =
    counterBytes (storedNode s level ((a - levelBase level) / 64)) ++
      hideMeta (hideTag (slotBytes s (0x20100 + lineKeyId s a)) 1 (a / 64)
        (nodeAt s (level + 1) ((a - levelBase level) / 64 / 64)).major
        (mgetD (nodeAt s (level + 1) ((a - levelBase level) / 64 / 64)).minors ((a - levelBase level) / 64 % 64) 0)
        (counterBytes (storedNode s level ((a - levelBase level) / 64)))) (counterBytes (storedNode s level ((a - levelBase level) / 64))) := by
  simp [rawLine, lineCounter, linePlain, areaCode, h, hl, storedBytes, hideSlot]

/-- The pass of a ring line is that of the count that wrote it last. -/
theorem linePass_eq (p : Nat) (x : Pool) (line : Nat) : linePass p x line = ((lastCount p x (line * 16)).map (passOf p x)).getD 0 := by
  unfold linePass
  cases lastCount p x (line * 16) <;> rfl

/-- With Hide's key stages cleared, its quarters lost or HBM in self-refresh, Hide's pipes are closed. -/
theorem hbmOpen_of_held (h : s.vault.hold.isSome = true ∨ (quarterUp s 2 = false ∧ quarterUp s 3 = false) ∨ s.halter.refresh = true) :
    hbmOpen s = false := by
  rcases h with h | ⟨h2, h3⟩ | h
  · have hn : s.vault.hold.isNone = false := by simpa [← Option.not_isSome] using h
    simp [hbmOpen, admits, hn]
  · simp [hbmOpen, admits, h2, h3]
  · simp [hbmOpen, h]

/-- Settles O31: an access goes by what Hide finds in its line; what the counter cache does besides leaves every byte of HBM. -/
theorem memoryAccessesReadAndWriteLines : Obligations.MemoryAccessesReadAndWriteLines := by
  unfold Obligations.MemoryAccessesReadAndWriteLines
  intro serves sealed
  have hnone : ∀ a, areaOf (a / 64 * 64) = .guarded → areaOf (a / 64 * 64) ≠ .none := fun a h => by simp [h]
  refine ⟨fun a data s hm ho hd hp hw => ?_, fun engine a data s he hm hg ho hp => ?_, fun a w data s hm ho hd hp => ?_,
    fun a w data check s hm ho hd hp => ?_, fun a p data s hr hg ho => ?_, fun a p pass w data s hr hg ho hd hpipes hpass => ?_,
    fun master a data s hm ho hg hp hr => ?_, fun master a data s hm ho hg hp hr => ?_,
    fun master a kind data s hm ho hg hp h2 h3 hk hr => ?_, fun master a check data s hm ho hret hg h1 h3 => ?_,
    fun master a p data s hm ho hret hg hp h1 h3 => ?_, fun master a level data s hm ho hret hg hl h1 h3 => ?_,
    fun master a old data s hm ho hret hg h1 h3 => ?_, fun master a kind data s hm ho h1 h3 hno => ?_,
    fun engine a w data check s he ho hd hm => ?_, fun engine master a kind w data check s he hm h1 h3 hd hh => ?_⟩
  · have hp' : poisonedCell s (a / 64 * 64 / 128) = false := by rw [line_of_line, hp]
    refine ⟨_, hideLineAccess_runs (by decide) (fun _ => hd) ho .good, ?_⟩
    rw [lineAccess_guarded (accessMay_of_engineMay hm true) (areaOf_of_engineMay hm), cellFound_good hp']
    simp only [if_true, (lineWritten_lines _ _).1, (lineEvents_lines _ _ _ _).1]
    refine ⟨?_, fun b hb => ?_, fun hbad => ?_⟩
    · rw [← hd]
      exact memReadN_writeN _ hw _ _
    · exact memRead_writeN_other _ hw _ _ b (by rw [hd]; exact hb)
    · rw [lineWritten_out]
      · exact lineEvents_out hbad ..
      · simpa using hbad
  · have hp' : poisonedCell s (a / 64 * 64 / 128) = false := by rw [line_of_line, hp]
    refine ⟨_, hideLineAccess_runs he (by simp) ho .good, ?_⟩
    rw [lineAccess_guarded hm hg, cellFound_good hp']
    simp only [Bool.false_eq_true, if_false, emit_mem, (lineEvents_lines _ _ _ _).1]
    exact ⟨trivial, by simp [emit], fun hbad => by simp [emit, lineEvents_out hbad]⟩
  · have hp' : poisonedCell s (a / 64 * 64 / 128) = false := by rw [line_of_line, hp]
    obtain ⟨u, hu, hcells, hbad⟩ := cellFound_mismatch hp'
    refine ⟨_, hideLineAccess_runs (by decide) hd ho .mismatch, ?_⟩
    rw [lineAccess_guarded (accessMay_of_engineMay hm w) (areaOf_of_engineMay hm), hu]
    rw [line_of_line] at hbad
    exact ⟨hcells, hbad⟩
  · have hp' : poisonedCell s (a / 64 * 64 / 128) = true := by rw [line_of_line, hp]
    rw [hideLineAccess_runs (by decide) hd ho check, lineAccess_guarded (accessMay_of_engineMay hm w) (areaOf_of_engineMay hm),
      cellFound_poisoned hp']
    rfl
  · rw [hideLineAccess_runs (by decide) (by simp) ho .good, lineAccess_ring hr hg]
    rfl
  · refine ⟨_, hideLineAccess_runs (by decide) hd ho (.replayed pass), ?_⟩
    have hfail : ringFails (suppliedPass p (poolAt s p) w) (.replayed pass) = true := decide_eq_true hpass
    have hpools : poolAt (hideCondition (bump cCheckFail 0 0 s)) p = poolAt s p := by
      unfold poolAt
      rw [hideCondition_mem_of_empty (s := bump cCheckFail 0 0 s) hpipes]
      rfl
    rw [lineAccess_ring hr hg, ringAccess]
    dsimp only
    rw [if_pos hfail]
    simpa only [hpools] using poolAt_ringLineLost p (ringLineOf (poolAt s p) (a / 64 * 64)) (hideCondition (bump cCheckFail 0 0 s))
  · rw [debugAccess_runs hm (by decide) (by decide) ho, rightsAccess_plain (hnone a hg) (by simpa [mayKind] using hr) (by decide), cellFound_good hp]
    rfl
  · refine ⟨_, debugAccess_runs hm (by decide) (by decide) ho .., ?_⟩
    rw [rightsAccess_plain (hnone a hg) (by simp [mayKind, hr]) (by decide), cellFound_good hp]
    simp only [Nat.reduceEqDiff, if_false, (lineWritten_lines _ _).1]
    split <;> simp
  · obtain ⟨u, hu, hcells, hbad⟩ := cellFound_mismatch hp
    refine ⟨_, debugAccess_runs hm (by omega) h3 ho .., ?_⟩
    rw [rightsAccess_plain (hnone a hg) (mayKind_of_le h2 hk hr) (by omega), hu]
    exact ⟨hcells, by simp [emit], hbad⟩
  · rw [debugAccess_runs hm (by decide) (by decide) ho, rightsAccess_raw (hnone a hg) (mayKind_raw h1 h3), sweepOn_of_settled hret,
      rawLine_guarded hg]
    simp [lineKeyId, hret, sealed, sealedLine]
  · rw [debugAccess_runs hm (by decide) (by decide) ho, rightsAccess_raw (by simp [hg]) (mayKind_raw h1 h3), sweepOn_of_settled hret,
      rawLine_ring hg hp, linePass_eq]
    simp [lineKeyId, hret, sealed, sealedLine, ringLineOf]
  · rw [debugAccess_runs hm (by decide) (by decide) ho, rightsAccess_raw (by simp [hg]) (mayKind_raw h1 h3), sweepOn_of_settled hret,
      rawLine_counters hg (Nat.ne_of_lt hl)]
    simp [lineKeyId, hret]
  · refine ⟨_, debugAccess_runs hm (by decide) (by decide) ho .., ?_⟩
    rw [rightsAccess_raw (hnone a hg) (mayKind_raw h1 h3), rawLine_guarded hg]
    have hsweep : sweepOn s = takeFree { s with mem := { s.mem with
        sweep := max s.mem.sweep (Config.freeNat s.free % (0x880000000 / 64 + 1)) } } := by simp [sweepOn, hret]
    rw [hsweep]
    refine ⟨Nat.le_max_left .., rfl, ?_⟩
    simp only [lineKeyId, takeFree_mem, hret]
    rfl
  · rw [debugAccess_runs hm h1 h3 ho]
    refine congrArg _ (rightsAccess_refused (hno.imp_right fun h => ?_) data)
    obtain rfl | rfl | rfl : kind = 1 ∨ kind = 2 ∨ kind = 3 := by omega
    · simp [mayKind]
      omega
    · simp [mayKind]
      omega
    · simp [mayKind]
      omega
  · rw [hideLineAccess_runs he hd ho check]
    have hrun : lineAccess engine a w data check s = engineBusError engine (a / 64 * 64) s := if_pos (by simp [hm])
    rw [hrun, engineBusError, Nat.mul_div_cancel _ (by decide)]
    rfl
  · have hclosed := hbmOpen_of_held hh
    refine ⟨(onObject_of ?_ _).trans (congrArg _ (whenever_of_false hclosed _ s)),
      (onObject_of (by simp [hm, h1, h3]) _).trans (congrArg _ (whenever_of_false hclosed _ s))⟩
    cases w with
    | false => simp [he]
    | true => simp [he, hd rfl]

end Sys2Proof.Machine
end

section
/-! PROOFS. The settings, the training and the idle states of the serial lanes (chapter 12). -/

namespace Sys2Proof.Machine

/-- What no move of a lane touches: its setting, its transmitter's fault, its ramp and its peaking step. -/
def Lane.kept (x : Lane) : LaneCfg × Bool × Option Nat × Nat := (x.cfg, x.txFault, x.rampAt, x.peakNow)

@[simp] theorem kept_laneTo (l : Nat) (st : LaneState) (s : State) : (laneAt (laneTo l st s) l).kept = (laneAt s l).kept := by
  rw [laneAt_laneTo]; rfl

@[simp] theorem st_laneTo (l : Nat) (st : LaneState) (s : State) : (laneAt (laneTo l st s) l).st = st := by
  rw [laneAt_laneTo]

@[simp] theorem kept_abortScan (l : Nat) (s : State) : (laneAt (abortScan l s) l).kept = (laneAt s l).kept := by
  rw [laneAt_abortScan]; rfl

@[simp] theorem kept_laneFollow (l : Nat) (s : State) : (laneAt (laneFollow l s) l).kept = (laneAt s l).kept := by
  unfold laneFollow
  dsimp only
  (repeat' split) <;> simp

theorem laneAt_laneFollow_other {l k : Nat} (h : l ≠ k) (s : State) : laneAt (laneFollow l s) k = laneAt s k := by
  unfold laneFollow
  dsimp only
  (repeat' split) <;> simp [laneAt_laneTo_other _ _ _ _ h]

/-! ## LANE_CONFIG by its four parts -/

/-- The setting, the taps' ramp and the fault that LANE_CONFIG writes (R389 to R393, R396). -/
def laneWritten (l : Nat) (g : LaneCfg) (moved faulty : Bool) (s : State) : State :=
  let x := laneAt s l
  updLane l (fun x => { x with
    cfg := g, planMin := if moved then g.peakMin else x.planMin, planMax := if moved then g.peakMax else x.planMax,
    txFault := faulty,
    txPostNow := if g.txTrain then x.txPostNow else g.txPost, txPreNow := if g.txTrain then x.txPreNow else g.txPre,
    txSwingNow := if g.txTrain then x.txSwingNow else g.txSwing,
    peakNow := if isPonLane l then g.peak else x.peakNow })
      (updLane l (fun y => { y with taps := tapsNow s l, rampAt := rampOf s x g.dfe }) { s with free := s.free + 12 })

/-- A lane with its setting written, and with it its window of the ageing plan, which a moved range ends. -/
def laneSet (l : Nat) (g : LaneCfg) (faulty : Bool) (s : State) : State :=
  let x := laneAt s l
  let moved := x.cfg.peakMin ≠ g.peakMin || x.cfg.peakMax ≠ g.peakMax
  let t := laneWritten l g moved faulty s
  if moved then { t with pat := { t.pat with windows := t.pat.windows.filter (· ≠ l) } } else t

/-- A lane whose transmitter's fault has gone follows what enables it. -/
def laneFaultEnds (l : Nat) (gone : Bool) (s : State) : State := if gone then laneFollow l (laneFault l 4 2 false s) else s

/-- A change of a receiver setting ends the lane's scan. -/
def laneScanEnds (l : Nat) (changed : Bool) (s : State) : State := if changed then abortScan l s else s

/-- A change of PRECODE retrains a lane in use (R391). -/
def lanePrecodes (l : Nat) (changed : Bool) (s : State) : State :=
  if changed && retrains (laneAt s l).st then laneTo l .training s else s

/-- A lane that IDLE_POLICY 2 holds leaves ACTIVE (R394). -/
def laneHeldIdle (l : Nat) (g : LaneCfg) (s : State) : State :=
  if g.idle = 2 && (laneAt s l).st = .active then laneTo l .idle s else s

/-- The state that LANE_CONFIG leaves. -/
def laneConfigured (l : Nat) (g : LaneCfg) (faulty : Bool) (f : State) : State :=
  let x := laneAt f l
  laneHeldIdle l g (lanePrecodes l (x.cfg.precode ≠ g.precode) (laneScanEnds l (rxDiffers x.cfg g)
    (laneFaultEnds l (x.txFault && !faulty) (laneSet l g faulty f))))

theorem runLaneConfig_of {c : Ctx} {f : State} {l : Nat} (hl : fld (c.w 0) 7 0 = l) (h : isLane l = true) (hi : c.inst = l)
    (hg : laneCfgBad l (laneCfgOf (c.w 1) (c.w 2)) = none) : runLaneConfig c f =
    .done (laneConfigured l (laneCfgOf (c.w 1) (c.w 2)) ((laneAt f l).txFault && c.answers = [1]) f) [] := by
  subst hl
  refine refuseIf_passes (by simp [h, hi]) ?_
  dsimp only
  split
  · next heq => rw [hg] at heq; cases heq
  · rfl

section
variable (l k : Nat) (g : LaneCfg) (b : Bool) (s : State)

theorem laneAt_laneSet_eq : laneAt (laneSet l g b s) k =
    laneAt (laneWritten l g ((laneAt s l).cfg.peakMin ≠ g.peakMin || (laneAt s l).cfg.peakMax ≠ g.peakMax) b s) k := by
  unfold laneSet
  dsimp only
  split <;> rfl

theorem laneAt_laneSet : ∃ ts pmin pmax po pr sw, laneAt (laneSet l g b s) l = { laneAt s l with
    cfg := g, txFault := b, rampAt := rampOf s (laneAt s l) g.dfe, peakNow := if isPonLane l then g.peak else (laneAt s l).peakNow,
    taps := ts, planMin := pmin, planMax := pmax, txPostNow := po, txPreNow := pr, txSwingNow := sw } := by
  rw [laneAt_laneSet_eq, laneWritten, laneAt_updLane_self, laneAt_updLane_self]
  exact ⟨_, _, _, _, _, _, rfl⟩

theorem st_laneSet : (laneAt (laneSet l g b s) l).st = (laneAt s l).st := by
  obtain ⟨ts, pmin, pmax, po, pr, sw, h⟩ := laneAt_laneSet l g b s
  rw [h]

theorem kept_laneSet : (laneAt (laneSet l g b s) l).kept =
    (g, b, rampOf s (laneAt s l) g.dfe, if isPonLane l then g.peak else (laneAt s l).peakNow) := by
  obtain ⟨ts, pmin, pmax, po, pr, sw, h⟩ := laneAt_laneSet l g b s
  rw [h]; rfl

@[simp] theorem kept_laneFaultEnds : (laneAt (laneFaultEnds l b s) l).kept = (laneAt s l).kept := by
  unfold laneFaultEnds; split <;> simp [laneAt_laneFault]

@[simp] theorem kept_laneScanEnds : (laneAt (laneScanEnds l b s) l).kept = (laneAt s l).kept := by
  unfold laneScanEnds; split <;> simp

@[simp] theorem st_laneScanEnds : (laneAt (laneScanEnds l b s) l).st = (laneAt s l).st := by
  unfold laneScanEnds; split <;> simp [laneAt_abortScan]

@[simp] theorem kept_lanePrecodes : (laneAt (lanePrecodes l b s) l).kept = (laneAt s l).kept := by
  unfold lanePrecodes; split <;> simp

@[simp] theorem kept_laneHeldIdle : (laneAt (laneHeldIdle l g s) l).kept = (laneAt s l).kept := by
  unfold laneHeldIdle; split <;> simp

/-- LANE_CONFIG leaves its setting, the ramp that it starts and, on a PON lane, its step. -/
theorem kept_laneConfigured : (laneAt (laneConfigured l g b s) l).kept =
    (g, b, rampOf s (laneAt s l) g.dfe, if isPonLane l then g.peak else (laneAt s l).peakNow) := by
  simp [laneConfigured, kept_laneSet]

theorem laneAt_laneConfigured_other (h : l ≠ k) : laneAt (laneConfigured l g b s) k = laneAt s k := by
  have hset : laneAt (laneSet l g b s) k = laneAt s k := by
    rw [laneAt_laneSet_eq, laneWritten, laneAt_updLane_other _ _ _ _ h, laneAt_updLane_other _ _ _ _ h]
    rfl
  have hfault : ∀ b u, laneAt (laneFaultEnds l b u) k = laneAt u k := fun b u => by
    unfold laneFaultEnds; split <;> simp [laneAt_laneFollow_other h, laneAt_laneFault]
  have hscan : ∀ b u, laneAt (laneScanEnds l b u) k = laneAt u k := fun b u => by
    unfold laneScanEnds; split <;> simp [laneAt_abortScan_other _ _ _ h]
  have hpre : ∀ b u, laneAt (lanePrecodes l b u) k = laneAt u k := fun b u => by
    unfold lanePrecodes; split <;> simp [laneAt_laneTo_other _ _ _ _ h]
  have hidle : ∀ u, laneAt (laneHeldIdle l g u) k = laneAt u k := fun u => by
    unfold laneHeldIdle; split <;> simp [laneAt_laneTo_other _ _ _ _ h]
  rw [laneConfigured, hidle, hpre, hscan, hfault, hset]

/-- A lane whose transmitter has no fault keeps its state until PRECODE or IDLE_POLICY moves it. -/
theorem st_before_precode (hf : (laneAt s l).txFault = false) (changed : Bool) :
    (laneAt (laneScanEnds l changed (laneFaultEnds l ((laneAt s l).txFault && !b) (laneSet l g b s))) l).st = (laneAt s l).st := by
  rw [st_laneScanEnds, laneFaultEnds, hf, Bool.false_and, if_neg (by simp), st_laneSet]

theorem laneConfigured_idles (hf : (laneAt s l).txFault = false) (ha : (laneAt s l).st = .active) (hg : g.idle = 2)
    (hp : g.precode = (laneAt s l).cfg.precode) : (laneAt (laneConfigured l g b s) l).st = .idle := by
  simp only [laneConfigured, lanePrecodes, hp, laneHeldIdle, hg, ne_eq, not_true_eq_false, decide_false, Bool.false_and, Bool.false_eq_true,
    if_false, st_before_precode l g b s hf, ha, decide_true, Bool.true_and, if_true, st_laneTo]

theorem laneConfigured_retrains (hf : (laneAt s l).txFault = false)
    (ha : (laneAt s l).st = .active ∨ (laneAt s l).st = .idle ∨ (laneAt s l).st = .exit) (hp : g.precode ≠ (laneAt s l).cfg.precode) :
    (laneAt (laneConfigured l g b s) l).st = .training := by
  have hr : retrains (laneAt s l).st = true := by simpa [retrains, or_assoc] using ha
  have hp' : decide ((laneAt s l).cfg.precode ≠ g.precode) = true := decide_eq_true (Ne.symm hp)
  simp only [laneConfigured, lanePrecodes, hp', st_before_precode l g b s hf, hr, Bool.and_self, if_true, laneHeldIdle, st_laneTo,
    reduceCtorEq, decide_false, Bool.and_false, Bool.false_eq_true, if_false]

end

/-! ## Training -/

/-- A lane that comes up is ACTIVE, or IDLE where IDLE_POLICY 2 holds it; its other fields but the instant stand. -/
theorem laneAt_laneUp (l : Nat) (s : State) : laneAt (laneUp l s) l = { laneAt s l with
    st := if (laneAt s l).cfg.idle = 2 then .idle else .active, since := s.mono, stale := false,
    scanning := (laneAt s l).scanning && (laneAt s l).cfg.idle ≠ 2 } := by
  have hmono : (laneTo l .active s).mono = s.mono := (fields_of_offLink (offLink_laneTo (s := s) l .active)).2.1
  unfold laneUp
  split
  · next h => rw [laneAt_laneTo, laneAt_laneTo, hmono]; simp [h]
  · next h => rw [laneAt_laneTo]; simp [h]

/-- What training finds for a lane (R388, R391, R392). -/
def laneFound (l peak : Nat) (freq : Int) (taps : List Int) (po pr sw : Nat) (pre : Bool) (x : Lane) : Lane :=
  { x with
    peakNow := if x.cfg.peakAuto then peak else x.cfg.peak, freq := freq, rampAt := none,
    taps := if x.cfg.dfe = 2 then List.replicate 12 0 else twelve taps,
    txPostNow := if x.cfg.txTrain then po else x.txPostNow, txPreNow := if x.cfg.txTrain then pr else x.txPreNow,
    txSwingNow := if x.cfg.txTrain then sw else x.txSwingNow,
    precodeOn := if isUplinkLane l then x.cfg.precode else pre, fails := 0, trainFail := false, flap := false }

/-- What follows the end of training: the requests to the partner's transmitter, and the defects of the lane as it was cleared. -/
def trainingReports (l : Nat) (x : Lane) (s : State) : State :=
  let s1 := if isFabricLane l then emit (.training l (Config.freeNat s.free)) (takeFree s) else s
  let s2 := if x.trainFail then laneFault l 2 1 false s1 else s1
  if x.flap then laneFault l 3 1 false s2 else s2

theorem laneAt_trainingReports (l k : Nat) (x : Lane) (s : State) : laneAt (trainingReports l x s) k = laneAt s k := by
  have htold : ∀ o, laneAt (emit o (takeFree s)) k = laneAt s k := fun _ => rfl
  unfold trainingReports
  dsimp only
  (repeat' split) <;> simp [laneAt_laneFault, htold]

theorem laneAt_trained (l peak : Nat) (freq : Int) (taps : List Int) (po pr sw : Nat) (pre : Bool) (s : State) :
    laneAt (trained l peak freq taps po pr sw pre s) l =
      laneAt (laneUp l (updLane l (laneFound l peak freq taps po pr sw pre) s)) l :=
  laneAt_trainingReports l l (laneAt s l) _

theorem laneTrainingComplete_runs {l peak : Nat} {s : State} (h : l < 80) (ht : (laneAt s l).st = .training) (hc : laneClocked s l = true)
    (hs : (laneAt s l).since ≤ s.mono)
    (hp : (laneAt s l).cfg.peakAuto = true → (laneWindow (laneAt s l)).1 ≤ peak ∧ peak ≤ (laneWindow (laneAt s l)).2)
    (freq : Int) (taps : List Int) (po pr sw : Nat) (pre : Bool) :
    exec (.laneTrainingComplete l peak freq taps po pr sw pre) s = .next (trained l peak freq taps po pr sw pre s) := by
  refine (onObject_of (by simp [h]) _).trans (congrArg _ (whenever_of ?_ _ s))
  simp only [ht, hc, hs, decide_true, Bool.and_self, Bool.true_and]
  cases ha : (laneAt s l).cfg.peakAuto with
  | false => rfl
  | true => simp [hp ha]

theorem forEach_singleton {α : Type} (a : α) (f : α → State → State) (s : State) : forEach [a] f s = f a s := rfl

/-- Settles O32: LANE_CONFIG is taken by its four parts, each of which keeps the setting; the events are moves of one lane. -/
theorem lanesTrainIdleAndAnswer : Obligations.LanesTrainIdleAndAnswer := by
  unfold Obligations.LanesTrainIdleAndAnswer
  refine ⟨?_, ?_, ?_, ?_, ?_, ?_, ?_, ?_, ?_, ?_, ?_, ?_, ?_, ?_, ?_⟩
  · intro p s hacc f c l g hl hi hbad
    have hrun : c.accepting = false → opLaneConfig.run c f = .done (laneConfigured l g ((laneAt f l).txFault && c.answers = [1]) f) [] :=
      fun _ => runLaneConfig_of rfl hl hi hbad
    have hk := kept_laneConfigured l g ((laneAt f l).txFault && c.answers = [1]) f
    simp only [Lane.kept, Prod.mk.injEq] at hk
    obtain ⟨hcfg, hfault, hramp, hpeak⟩ := hk
    refine ⟨_, command_done hacc (hrun rfl) (by simp), hcfg, by simp [hfault], hramp, fun h => by simp [hpeak, h], ?_, ?_, ?_⟩
    · exact fun hf ha hg hp => laneConfigured_idles l g _ f hf ha hg hp
    · exact fun hf ha hp => laneConfigured_retrains l g _ f hf ha hp
    · exact fun k hk => laneAt_laneConfigured_other l k g _ f (Ne.symm hk)
  · refine endsOk (fun _ _ => rfl) (fun c f _ h => ?_) (fun c f _ => ?_)
    · exact refuseIf_passes (by simp [h.1, h.2]) rfl
    · dsimp only
      split <;> simp [laneWords]
  · refine fun l s => ⟨fun hr hn => ?_, fun t0 hr ht => ?_⟩
    · have ha : adapting (laneAt s l) = false := by
        unfold adapting
        rcases hn with h | h <;> simp [h]
      simp [tapsNow, hr, ha]
    · have hp : passed s t0 (100 * us) = true := decide_eq_true ht
      simp [tapsNow, hr, hp]
  · refine starts (fun _ _ => rfl) (fun c f _ h => ?_)
    obtain ⟨hl, hi, hn, hon⟩ := h
    refine refuseIf_passes (by simp [hl, hi]) (refuseIf_passes ?_ (refuseIf_passes (by simpa using hn) rfl))
    split
    · next hp => simpa [hp] using hon
    · next hp => simpa [hp] using hon
  · intro l q ws x s hl hscan f hq hx hd
    refine (onObject_of ?_ _).trans (congrArg _ ((whenever_of hscan _ s).trans ?_))
    · simpa [isLane] using hl
    unfold eyeScanDone
    dsimp only
    rw [show executingQ (updLane l (fun x => { x with scanning := false }) s) 0x8006 (· = [l]) = [q] from hq]
    rw [forEach_singleton, finish_answers hx hd (fun t d => by split <;> simp)]
    refine congrArg pumpAll (congrArg (answer _ _ _ · _) (if_congr ?_ rfl rfl))
    simp [List.isEmpty_iff]
  · intro l s hl
    refine (onObject_of (by simp [hl]) _).trans (congrArg _ ?_)
    unfold laneFollow
    refine if_congr Iff.rfl (if_congr (by simp) rfl rfl) ?_
    rw [ite_not]
  · exact fun l st s => ⟨laneAt_laneTo l st s, fun k hk => laneAt_laneTo_other l k st s (Ne.symm hk)⟩
  · intro l peak freq taps po pr sw pre s hl ht hc hs ha h1 h2
    refine ⟨_, laneTrainingComplete_runs hl ht hc hs (fun _ => ⟨h1, h2⟩) .., ?_⟩
    rw [laneAt_trained, laneAt_laneUp, laneAt_updLane_self]
    simp [laneFound, ha]
  · intro l peak freq taps po pr sw pre s hl ht hc hs ha
    refine ⟨_, laneTrainingComplete_runs hl ht hc hs (by simp [ha]) .., ?_⟩
    rw [laneAt_trained, laneAt_laneUp, laneAt_updLane_self]
    simp [laneFound, ha]
  · intro l peak freq taps po pr sw pre s hl h
    refine (onObject_of (by simp [hl]) _).trans (congrArg _ (whenever_of_false ?_ _ s))
    rcases h with h | h
    · simp [h]
    · simp [Nat.not_le.mpr h]
  · intro l s hl ht hs t
    have hp : passed s (laneAt s l).since (100 * ms) = true := decide_eq_true hs
    refine (onObject_of (by simp [hl]) _).trans (congrArg _ ((whenever_of (by simp [ht, hp]) _ s).trans ?_))
    unfold trainingFailed
    refine if_congr ?_ rfl rfl
    rw [laneAt_updLane_self]
    exact Nat.succ_inj
  · exact fun l s hl ha hi => (onObject_of (by simp [hl]) _).trans (congrArg _ (whenever_of (by simp [ha, hi]) _ s))
  · intro l s hl ha hi
    refine ⟨_, (onObject_of (by simp [hl]) _).trans (congrArg _ (whenever_of (by simp [ha, hi]) _ s)), ?_⟩
    unfold laneExit
    rw [laneAt_updLane_self, laneAt_laneTo]
    simp [ha]
  · intro l s hl ha hs
    have hp : passed s (laneAt s l).since (100 * ms) = true := decide_eq_true hs
    exact (onObject_of (by simp [hl]) _).trans (congrArg _ (whenever_of (by simp [ha, hp]) _ s))
  · refine fun l s hl ha hstale => ⟨fun hi => ?_, fun hs => ?_⟩
    · refine (onObject_of (by simp [hl]) _).trans (congrArg _ ((whenever_of (by simp [ha]) _ s).trans ?_))
      unfold exitEnd laneUp
      rw [if_pos (by simp [hstale]), if_neg (by simpa using hi)]
      rfl
    · have hp : passed s (laneAt s l).since us = true := decide_eq_true hs
      exact (onObject_of (by simp [hl]) _).trans (congrArg _ (whenever_of (by simp [ha, hp]) _ s))

end Sys2Proof.Machine
end

section
/-! PROOFS. The signal detectors and the peaking of the serial lanes (R391, R392, R394, R396, R397). -/

namespace Sys2Proof.Machine

theorem askExit_stays {l : Nat} {s : State} (h : (laneAt s l).st ≠ .idle ∨ (laneAt s l).cfg.idle = 2) : askExit l s = s := by
  unfold askExit
  exact if_neg (by rcases h with h | h <;> simp [h])

theorem askExit_exits {l : Nat} {s : State} (h : (laneAt s l).st = .idle) (hn : (laneAt s l).cfg.idle ≠ 2) :
    askExit l s = laneExit l s := if_pos (by simp [h, hn])

/-- A lane that exits keeps its scan and its stale mark. -/
theorem laneAt_laneExit {l : Nat} {s : State} (h : (laneAt s l).st = .idle) :
    laneAt (laneExit l s) l = { laneAt s l with st := .exit, since := s.mono, exitAt := some s.mono } := by
  unfold laneExit
  rw [laneAt_updLane_self, laneAt_laneTo]
  simp [h]

/-- Signal on a lane that it does not take out of IDLE. -/
theorem losChange_signal {l : Nat} {s : State} (h : (laneAt s l).signal = true ∨ (laneAt s l).st ≠ .idle ∨ (laneAt s l).cfg.idle = 2) :
    losChange l true s = if (laneAt s l).los
      then laneFault l 0 1 false (updLane l (fun x => { x with los := false, signal := true }) s)
      else updLane l (fun x => { x with los := false, signal := true }) s := by
  have hs : (if (laneAt s l).signal then s else askExit l s) = s := by
    split
    · rfl
    · next hn => exact askExit_stays (h.resolve_left hn)
  unfold losChange
  dsimp only
  rw [if_pos rfl, hs]

/-- The instants of LOS within the last second, the present one among them (R397). -/
def losInstants (l : Nat) (s : State) : List Nat := ((laneAt s l).losTimes.filter fun t => s.mono < t + sec) ++ [s.mono]

/-- A lane that a LOS has just met (R396). -/
def losLane (times : List Nat) (x : Lane) : Lane :=
  { x with los := true, signal := false, losEvents := satAdd 0xFFFF x.losEvents 1, losTimes := times }

/-- A LOS that does not make LANE_FLAP. -/
theorem laneAt_losRaised_few {l : Nat} {s : State} (h : ¬ (10 ≤ (losInstants l s).length ∧ (laneAt s l).flap = false)) :
    laneAt (losRaised l s) l = losLane (losInstants l s) (laneAt s l) := by
  unfold losRaised
  dsimp only
  rw [if_neg (by simpa [laneAt_laneFault, losInstants] using h), laneAt_laneFault, laneAt_updLane_self]
  rfl

/-- The LOS that makes LANE_FLAP holds the lane DISABLED. -/
theorem laneAt_losRaised_flaps {l : Nat} {s : State} (h : 10 ≤ (losInstants l s).length) (hf : (laneAt s l).flap = false) :
    ∃ since sc, laneAt (losRaised l s) l = { losLane [] (laneAt s l) with
      flap := true, flapAt := some s.mono, st := .disabled, since := since, stale := false, scanning := sc } := by
  unfold losRaised
  dsimp only
  rw [if_pos (by simpa [laneAt_laneFault, hf, losInstants] using h), laneAt_laneTo, laneAt_laneFault, laneAt_updLane_self, laneAt_laneFault,
    laneAt_updLane_self]
  exact ⟨_, _, rfl⟩

/-- A lock that is held, or lost while LOL stands or LOS does, leaves the lane's state. -/
theorem laneAt_lolChange_locked (l : Nat) (freq : Int) (s : State) :
    laneAt (lolChange l true freq s) l = { laneAt s l with lol := false, freq := freq } := by
  unfold lolChange
  dsimp only
  rw [if_pos rfl]
  split <;> simp [laneAt_laneFault]

/-- A lock that is lost takes the lane out of ACTIVE. -/
theorem laneAt_lolChange_lost {l : Nat} {s : State} (freq : Int) (h1 : (laneAt s l).lol = false) (h2 : (laneAt s l).los = false) :
    ∃ since stale sc, laneAt (lolChange l false freq s) l = { laneAt s l with
      lol := true, freq := freq, lolEvents := satAdd 0xFFFF (laneAt s l).lolEvents 1,
      st := if (laneAt s l).st = .active then .training else (laneAt s l).st, since := since, stale := stale, scanning := sc } := by
  unfold lolChange
  dsimp only
  rw [if_neg (by simp), if_pos (by simp [h1, h2])]
  split
  · rw [laneAt_laneTo, laneAt_laneFault, laneAt_updLane_self, laneAt_updLane_self]
    exact ⟨_, _, _, rfl⟩
  · rw [laneAt_laneFault, laneAt_updLane_self, laneAt_updLane_self]
    exact ⟨_, _, _, rfl⟩

/-- Settles O33: each clause is one change of one lane, read after the lane's move and the report that follow it. -/
theorem lanesFollowTheirSignals : Obligations.LanesFollowTheirSignals := by
  unfold Obligations.LanesFollowTheirSignals
  refine ⟨?_, ?_, ?_, ?_, ?_, ?_, ?_, ?_, ?_, ?_, ?_, ?_⟩
  · exact fun l s hl hlos h => (onObject_of (by simp [hl]) _).trans (congrArg _ ((losChange_signal h).trans (if_pos hlos)))
  · exact fun l s hl hlos h => (onObject_of (by simp [hl]) _).trans (congrArg _ ((losChange_signal h).trans (if_neg (by simp [hlos]))))
  · intro l s hl hi hs hn
    refine ⟨_, onObject_of (by simp [hl]) _, ?_⟩
    unfold losChange
    dsimp only
    rw [if_pos rfl, hs, if_neg Bool.false_ne_true, askExit_exits hi hn]
    split <;> simp [laneAt_laneFault, laneAt_laneExit hi]
  · intro l s hl hlos hi hd times
    have hrun : exec (.laneLos l false) s = .next (losRaised l s) := by
      refine (onObject_of (by simp [hl]) _).trans (congrArg _ ?_)
      unfold losChange
      dsimp only
      rw [if_neg Bool.false_ne_true, if_pos (by simp [hlos, hi, hd])]
    by_cases h : 10 ≤ (losInstants l s).length ∧ (laneAt s l).flap = false
    · obtain ⟨since, sc, ht⟩ := laneAt_losRaised_flaps h.1 h.2
      refine ⟨_, hrun, ?_⟩
      rw [ht]
      exact ⟨rfl, rfl, rfl, fun hlt => absurd h.1 (Nat.not_le.mpr hlt), fun _ _ => ⟨rfl, rfl, rfl⟩⟩
    · refine ⟨_, hrun, ?_⟩
      rw [laneAt_losRaised_few h]
      exact ⟨rfl, rfl, rfl, fun _ => ⟨rfl, rfl⟩, fun h1 h2 => absurd ⟨h1, h2⟩ h⟩
  · intro l s hl h
    refine (onObject_of (by simp [hl]) _).trans (congrArg _ ?_)
    unfold losChange
    dsimp only
    rw [if_neg Bool.false_ne_true, if_neg]
    rcases h with h | h | h <;> simp [h]
  · intro l freq s hl h1 h2
    obtain ⟨since, stale, sc, ht⟩ := laneAt_lolChange_lost freq h1 h2
    refine ⟨_, onObject_of (by simp [hl]) _, ?_⟩
    rw [ht]
    exact ⟨rfl, rfl, rfl, rfl⟩
  · intro l freq s hl
    refine ⟨_, onObject_of (by simp [hl]) _, ?_⟩
    rw [laneAt_lolChange_locked]
    exact ⟨rfl, rfl, rfl⟩
  · intro l t0 s hl hf ht
    have hp : passed s t0 sec = true := decide_eq_true ht
    exact (onObject_of (by simp [hl]) _).trans (congrArg _ (whenever_of (by rw [hf]; exact hp) _ s))
  · intro l s hl
    refine ⟨_, onObject_of (by simp [hl]) _, ?_, by simp, fun k hk => ?_⟩
    · rw [laneAt_laneTo, laneAt_laneFault, laneAt_updLane_self]
    · rw [laneAt_laneTo_other _ _ _ _ (Ne.symm hk), laneAt_laneFault, laneAt_updLane_other _ _ _ _ (Ne.symm hk)]
  · intro l los lol s hl t
    refine (onObject_of (by simp [hl]) _).trans (congrArg _ ?_)
    unfold rawChange
    refine if_congr Iff.rfl rfl ?_
    have hst : (laneAt t l).st = (laneAt s l).st ∧ (laneAt t l).cfg = (laneAt s l).cfg := by
      simp only [t, laneAt_updLane_self, and_self]
    change (if (laneAt s l).rawLos = true then askExit l t else t) = _
    unfold askExit
    rw [hst.1, hst.2]
    cases (laneAt s l).rawLos <;> simp
  · intro l move s hl ha hauto he
    have hp : passed s (laneAt s l).evalAt (100 * ms) = true := decide_eq_true he
    refine ⟨_, (onObject_of (by simp [hl]) _).trans (congrArg _ (whenever_of (by simp [ha, hauto, hp]) _ s)), ?_⟩
    unfold reevaluate
    simp [laneAt_updLane_self]
  · intro l s hl ha hm
    have hp : passed s (laneAt s l).lastMove (10 * us) = true := decide_eq_true hm
    refine ⟨_, (onObject_of hl _).trans (congrArg _ (whenever_of (by simp [ha, hp]) _ s)), ?_⟩
    rw [laneAt_updLane_self]

end Sys2Proof.Machine
end

section
/-! PROOFS. The Plait framers of a side: reception by the rows of Table 13.4, transmission by cell slots, and the side's timers (chapter 13). -/

namespace Sys2Proof.Machine

theorem sideAt_of_link {s t : State} (h : t.link = s.link) (i : Nat) : sideAt t i = sideAt s i := by unfold sideAt; rw [h]

/-! ## Cells -/

@[simp] theorem length_scrambleFrom (bs : List Byte) : ∀ r, (scrambleFrom r bs).length = bs.length := by
  induction bs with
  | nil => exact fun _ => rfl
  | cons b rest ih => exact fun r => congrArg (· + 1) (ih _)

@[simp] theorem length_scramblePlait (bs : List Byte) : (scramblePlait bs).length = bs.length := by
  simp [scramblePlait]
  omega

/-- ALIGN is not scrambled (R405). -/
theorem take_scramblePlait {a bs : List Byte} (h : a.length = 8) : (scramblePlait (a ++ bs)).take 8 = a := by
  rw [scramblePlait, List.take_left' h, List.take_left' h]

@[simp] theorem length_overheadBytes (s : State) (i : Nat) : (overheadBytes s i).length = 128 := by simp [overheadBytes]

theorem overheadBytes_eq (s : State) (i : Nat) : ∃ rest, overheadBytes s i = beBytes 8 alignWord ++ rest := by
  unfold overheadBytes
  exact ⟨_, by simp only [List.append_assoc]; rfl⟩

@[simp] theorem length_cellBytes (s : State) (f : TxFrame) : (cellBytes s f).length = 128 := by simp [cellBytes]

/-- What the sending of cells leaves: the outputs and the side's multiframe number. -/
def framing (i : Nat) (s : State) : List Out × Nat := (s.out, (sideAt s i).txMfi)

theorem framing_of_link {i : Nat} {s t : State} (ho : t.out = s.out) (hl : t.link = s.link) : framing i t = framing i s := by
  rw [framing, framing, ho, sideAt_of_link hl]

theorem framing_updSide {i : Nat} {f : Side → Side} (h : ∀ x, (f x).txMfi = x.txMfi) (s : State) : framing i (updSide i f s) = framing i s := by
  rw [framing, framing, sideAt_updSide_self, h, updSide_out]

@[simp] theorem framing_bumpSide (i j pos n : Nat) (s : State) : framing i (bumpSide j pos n s) = framing i s := framing_of_link rfl rfl

@[simp] theorem framing_discardStuck (i : Nat) (s : State) : framing i (discardStuck i s) = framing i s := by
  unfold discardStuck
  rw [framing_bumpSide]
  exact framing_updSide (by exact fun _ => rfl) s

@[simp] theorem framing_openContexts (i fuel : Nat) (s : State) : framing i (openContexts fuel i s) = framing i s := by
  induction fuel generalizing s with
  | zero => rfl
  | succ n ih =>
    rw [openContexts]
    split
    · exact (ih _).trans ((framing_of_link rfl rfl).trans (framing_updSide (by exact fun _ => rfl) s))
    · rfl

/-- A cell slot gives 128 bytes and leaves the outputs and the multiframe number. -/
theorem sendCell_framing (i : Nat) (s : State) : (sendCell i s).1.length = 128 ∧ framing i (sendCell i s).2 = framing i s := by
  unfold sendCell
  split
  · exact ⟨rfl, framing_of_link rfl rfl⟩
  · split
    · exact ⟨rfl, rfl⟩
    · dsimp only
      refine ⟨length_cellBytes .., ?_⟩
      split
      · exact (framing_bumpSide ..).trans (framing_updSide (by exact fun _ => rfl) s)
      · exact framing_updSide (by exact fun _ => rfl) s

theorem sendCells_framing (i n : Nat) (s : State) : (sendCells n i s).1.length = 128 * n ∧ framing i (sendCells n i s).2 = framing i s := by
  induction n generalizing s with
  | zero => exact ⟨rfl, rfl⟩
  | succ n ih =>
    obtain ⟨h1, h2⟩ := sendCell_framing i s
    obtain ⟨k1, k2⟩ := ih (sendCell i s).2
    refine ⟨?_, k2.trans h2⟩
    change ((sendCell i s).1 ++ (sendCells n i (sendCell i s).2).1).length = _
    rw [List.length_append, h1, k1]
    omega

/-! ## Lanes -/

/-- A state follows another by PAM4 symbols alone: the sides stand. -/
def SymbolsOnly (s t : State) : Prop :=
  (∃ o, t.out = s.out ++ o ∧ ∀ x ∈ o, ∃ l ws, x = Out.symbols l ws) ∧ ∀ i, sideAt t i = sideAt s i

theorem SymbolsOnly.refl (s : State) : SymbolsOnly s s := ⟨⟨[], by simp⟩, fun _ => rfl⟩

theorem SymbolsOnly.trans {s t u : State} (h : SymbolsOnly s t) (k : SymbolsOnly t u) : SymbolsOnly s u := by
  obtain ⟨⟨o, ho, hs⟩, hi⟩ := h
  obtain ⟨⟨o', ho', hs'⟩, hi'⟩ := k
  refine ⟨⟨o ++ o', by rw [ho', ho, List.append_assoc], fun x hx => ?_⟩, fun i => (hi' i).trans (hi i)⟩
  exact (List.mem_append.mp hx).elim (hs x) (hs' x)

theorem symbolsOnly_updLane (l : Nat) (f : Lane → Lane) (s : State) : SymbolsOnly s (updLane l f s) :=
  ⟨⟨[], by simp [updLane]⟩, fun _ => rfl⟩

theorem symbolsOnly_forEach {α : Type} (xs : List α) (f : α → State → State) (h : ∀ a u, SymbolsOnly u (f a u)) (s : State) :
    SymbolsOnly s (forEach xs f s) := by
  unfold forEach
  induction xs generalizing s with
  | nil => exact .refl s
  | cons a r ih => exact (h a s).trans (ih _)

/-- A lane's symbols leave where there are some. -/
theorem symbolsOnly_emit {s t : State} (h : SymbolsOnly s t) (none : Bool) (l : Nat) (ws : List Nat) :
    SymbolsOnly s (if none then t else emit (.symbols l ws) t) := by
  split
  · exact h
  · exact h.trans ⟨⟨_, rfl, fun x hx => ⟨_, _, List.mem_singleton.mp hx⟩⟩, fun _ => rfl⟩

theorem symbolsOnly_sendWords (l : Nat) (ws : List (List Byte)) (s : State) : SymbolsOnly s (sendWords l ws s) := by
  unfold sendWords
  exact symbolsOnly_emit (symbolsOnly_updLane ..) ..

theorem symbolsOnly_sendPlait (i : Nat) (bytes : List Byte) (s : State) : SymbolsOnly s (sendPlait i bytes s) := by
  unfold sendPlait
  dsimp only
  refine SymbolsOnly.trans ?_ (symbolsOnly_forEach _ _ (fun l u => symbolsOnly_sendWords l _ u) _)
  unfold alignCoders
  dsimp only
  split
  · exact .refl s
  · exact symbolsOnly_forEach _ _ (fun l u => symbolsOnly_updLane l _ u) s

/-! ## A Plait frame sent -/

/-- A due width change, then the stuck discard and the contexts: the state in which a frame's overhead is made. -/
def plaitBegun (i : Nat) (s : State) : State := openContexts 64 i (discardStuck i (whenever (widthDue s i) (changeWidth i) s))

/-- The cells of a frame, all idle where a lane of the group is quiet (R395). -/
def plaitCells (i : Nat) (s : State) : List Byte × State :=
  if (txGroup s i).any (quietLane s) then ((List.replicate 63 idleCell).flatten, countEvent 0x4A 0x101 0x0100 63 s) else sendCells 63 i s

@[simp] theorem length_idleCell : idleCell.length = 128 := List.length_replicate

theorem plaitCells_framing (i : Nat) (s : State) : (plaitCells i s).1.length = 8064 ∧ framing i (plaitCells i s).2 = framing i s := by
  unfold plaitCells
  split
  · exact ⟨by simp [List.length_flatten, List.map_replicate, List.sum_replicate], framing_of_link rfl rfl⟩
  · exact sendCells_framing i 63 s

/-- A side with a frame sent: its multiframe number, its parity and the width that it announces (R416). -/
def plaitSent (bytes : List Byte) (next : Nat) (x : Side) : Side :=
  { x with
    txMfi := (x.txMfi + 1) % 64, txBip := bip8 bytes, told := next,
    announced := if next = x.txWidth then 0 else if next = x.told then x.announced + 1 else 1 }

/-- A Plait frame by its parts. -/
theorem transmitPlait_eq (i : Nat) (s : State) :
    let u := plaitBegun i s
    let bytes := scramblePlait (overheadBytes u i ++ (plaitCells i u).1)
    transmitPlait i s = sendPlait i bytes (emit (.plait i bytes) (updSide i (plaitSent bytes (nextWidth u i)) (plaitCells i u).2)) := by
  unfold transmitPlait
  dsimp only
  rfl

theorem framing_plaitBegun {i : Nat} {s : State} (h : widthDue s i = false) : framing i (plaitBegun i s) = framing i s := by
  rw [plaitBegun, whenever_of_false h, framing_openContexts, framing_discardStuck]

/-- What a Plait frame shows: its bytes, its parity kept for the next, and, with no width change due, the multiframe's next number. -/
theorem transmitPlait_shows (i : Nat) (s : State) : ∃ bytes, .plait i bytes ∈ (transmitPlait i s).out ∧ bytes.length = 8192 ∧
    bytes.take 8 = beBytes 8 alignWord ∧ (sideAt (transmitPlait i s) i).txBip = bip8 bytes ∧
    (widthDue s i = false → (sideAt (transmitPlait i s) i).txMfi = ((sideAt s i).txMfi + 1) % 64 ∧
      ∃ o, (transmitPlait i s).out = s.out ++ .plait i bytes :: o ∧ ∀ x ∈ o, ∃ l ws, x = .symbols l ws) := by
  have ht := transmitPlait_eq i s
  obtain ⟨hlen, hcells⟩ := plaitCells_framing i (plaitBegun i s)
  obtain ⟨rest, hhead⟩ := overheadBytes_eq (plaitBegun i s) i
  dsimp only at ht
  generalize hb : scramblePlait (overheadBytes (plaitBegun i s) i ++ (plaitCells i (plaitBegun i s)).1) = bytes at ht
  obtain ⟨⟨o, ho, hsym⟩, hside⟩ := symbolsOnly_sendPlait i bytes (emit (.plait i bytes) (updSide i (plaitSent bytes (nextWidth (plaitBegun i s) i)) (plaitCells i (plaitBegun i s)).2))
  have hside' := (hside i).trans ((sideAt_of_link rfl i).trans (sideAt_updSide_self i _ (plaitCells i (plaitBegun i s)).2))
  have hout : (emit (.plait i bytes) (updSide i (plaitSent bytes (nextWidth (plaitBegun i s) i)) (plaitCells i (plaitBegun i s)).2)).out =
      (plaitCells i (plaitBegun i s)).2.out ++ [.plait i bytes] := congrArg (· ++ _) (updSide_out ..)
  rw [ht]
  refine ⟨bytes, ?_, ?_, ?_, ?_, fun hw => ?_⟩
  · rw [ho, hout]; simp
  · rw [← hb]; simp [hlen]
  · rw [← hb, hhead, List.append_assoc]; exact take_scramblePlait (length_beBytes ..)
  · rw [hside']
    rfl
  · have hfr := hcells.trans (framing_plaitBegun hw)
    simp only [framing, Prod.mk.injEq] at hfr
    refine ⟨by rw [hside', ← hfr.2]; rfl, o, ?_, hsym⟩
    rw [ho, hout, hfr.1, List.append_assoc]
    rfl

/-! ## A Plait frame received -/

theorem plaitFrameReceive_runs {i fill : Nat} {bytes : List Byte} {s : State} (hi : i < 2) (hb : bytes.length = 8192)
    (he : (sideAt s i).enable = true) (hp : powered s (0x40 + i) = true) (ok fits : Bool) (env : Outside) :
    exec (.plaitFrameReceive i bytes ok fill fits env) s = .next (pumpAll (receivePlait (inbandFrame env) i bytes ok fill fits s)) :=
  (onObject_of (by simp [hi, hb]) _).trans (congrArg _ (if_pos (by simp [he, hp])))

theorem receivePlait_skewed {i : Nat} {s : State} (he : (sideAt s i).enable = true) (ib : InbandSet → Nat → List Byte → State → State)
    (bytes : List Byte) (fill : Nat) (fits : Bool) : receivePlait ib i bytes false fill fits s = alignLost i (bumpSide i 12 1 s) := by
  simp [receivePlait, he]

theorem receivePlait_aligned {i : Nat} {s : State} (he : (sideAt s i).enable = true) (ib : InbandSet → Nat → List Byte → State → State)
    (bytes : List Byte) (fill : Nat) (fits : Bool) : receivePlait ib i bytes true fill fits s =
      if groupReady (followWidth i bytes (takeFill i fill s)) i then alignStep ib i bytes fits (followWidth i bytes (takeFill i fill s))
      else alignLost i (followWidth i bytes (takeFill i fill s)) := by
  simp [receivePlait, he]

section
variable {ib : InbandSet → Nat → List Byte → State → State} {i : Nat} {bytes : List Byte} {fits : Bool} {s : State}

/-! The rows of Table 13.4. -/

theorem alignStep_hunt (h : (sideAt s i).align = .hunt) : alignStep ib i bytes fits s =
    if beNat (bytes.take 8) ≠ alignWord then s
    else if (sideAt s i).n = 1 then enterSync ib i bytes fits s
    else updSide i (fun x => { x with align := .presync, k := 1, bipSeen := some (bip8 bytes) }) s := by
  simp [alignStep, h]

theorem alignStep_presync (h : (sideAt s i).align = .presync) : alignStep ib i bytes fits s =
    if beNat (bytes.take 8) ≠ alignWord then alignLost i (bumpSide i 11 1 s)
    else if (sideAt s i).k + 1 = (sideAt s i).n then enterSync ib i bytes fits s
    else updSide i (fun x => { x with k := x.k + 1, bipSeen := some (bip8 bytes) }) s := by
  simp [alignStep, h]

theorem alignStep_sync (h : (sideAt s i).align = .sync) : alignStep ib i bytes fits s =
    if alignErrors (beNat (bytes.take 8)) ≤ 2 then takeFrame ib i bytes fits (updSide i (fun x => { x with errored := 0 }) s)
    else if (sideAt s i).errored + 1 = (sideAt s i).m then alignLost i (bumpSide i 9 1 s)
    else takeFrame ib i bytes fits (updSide i (fun x => { x with errored := x.errored + 1 }) (bumpSide i 9 1 s)) := by
  simp [alignStep, h]

end

theorem setCtxs_mdel (i key : Nat) (s : State) :
    setCtxs i (mdel (sideAt s i).ctxs key) s = updSide i (fun x => { x with ctxs := mdel x.ctxs key }) s := by
  unfold setCtxs updSide sideAt
  split <;> rfl

/-- Settles O34: reception goes by the rows of Table 13.4, transmission by what 63 cell slots leave, the timers by their conditions. -/
theorem plaitFramesAlignAndCarryCells : Obligations.PlaitFramesAlignAndCarryCells := by
  unfold Obligations.PlaitFramesAlignAndCarryCells
  refine ⟨?_, ?_, ?_, ?_, ?_, ?_, ?_, ?_⟩
  · intro i fill bytes fits env s hi hb he hp
    rw [plaitFrameReceive_runs hi hb he hp, receivePlait_skewed he]
  · intro i fill bytes fits env s hi hb he hp s1 x
    have hrun : exec (.plaitFrameReceive i bytes true fill fits env) s = .next (pumpAll
        (if groupReady s1 i then alignStep (inbandFrame env) i bytes fits s1 else alignLost i s1)) := by
      rw [plaitFrameReceive_runs hi hb he hp, receivePlait_aligned he]
    refine ⟨fun hg => by rw [hrun, if_neg (by simp [hg])], fun hg => ?_⟩
    rw [hrun, if_pos hg]
    refine ⟨fun ha hw => ?_, fun ha hw hn => ?_, fun ha hw => ?_, fun ha hw hn => ?_, fun ha hw hn => ?_, fun ha hw => ?_, fun ha hw hm => ?_⟩
    · rw [alignStep_hunt ha, if_pos hw]
    · rw [alignStep_hunt ha, if_neg (not_not_intro hw), if_neg hn]
    · rw [alignStep_presync ha, if_pos hw]
    · rw [alignStep_presync ha, if_neg (not_not_intro hw), if_neg hn]
    · rw [alignStep_presync ha, if_neg (not_not_intro hw), if_pos hn]
      rfl
    · rw [alignStep_sync ha, if_pos hw]
    · rw [alignStep_sync ha, if_neg (Nat.not_le.mpr hw), if_pos hm]
  · intro i s hi he hp
    obtain ⟨bytes, h⟩ := transmitPlait_shows i s
    exact ⟨_, bytes, (onObject_of (by simp [hi]) _).trans (congrArg _ (whenever_of (by simp [he, hp]) _ s)), h⟩
  · intro i s hi h
    refine (onObject_of (by simp [hi]) _).trans (congrArg _ (whenever_of_false ?_ _ s))
    rcases h with h | h <;> simp [h]
  · intro i src ctx kind r s hi hs hc key hr hlast
    have hp : passed s r.last (10 * us) = true := decide_eq_true hlast
    refine (onObject_of (by simp [hi, hs, hc]) _).trans (congrArg _ ((whenever_of ?_ _ s).trans ?_))
    · rw [show mget (sideAt s i).ctxs (src * 256 + ctx * 4 + (if kind = 1 then 1 else 2)) = some r from hr]
      exact hp
    · rw [setCtxs_mdel]
  · intro i s hi hw good t
    have hp : passed s (sideAt s i).windowAt (100 * us) = true := decide_eq_true hw
    refine (onObject_of (by simp [hi]) _).trans (congrArg _ ((whenever_of hp _ s).trans ?_))
    have hgood : good ≤ 10 := by
      simp only [good]
      split
      · exact Nat.min_le_left ..
      · exact Nat.zero_le _
    exact if_congr ⟨fun h => Nat.le_antisymm hgood h, fun h => h.ge⟩ rfl rfl
  · intro i card t0 s hi hc hside hstuck hback ht
    have hp : passed s t0 (s.link.pauseMs * ms) = true := decide_eq_true ht
    refine (onObject_of (by simp [hi, hc]) _).trans (congrArg _ (whenever_of ?_ _ s))
    rw [hback, hstuck]
    simp [hside, hp]
  · intro i s hi hn ht ha hm
    exact (onObject_of (by simp [hi]) _).trans (congrArg _ (whenever_of (by simp [widthDue, hn, ha, hm, ← ht]) _ s))

end Sys2Proof.Machine
end

section
/-! PROOFS. The configuration of the fabric sides, the protection selector's requests and the uplink ports (chapter 13). -/

namespace Sys2Proof.Machine

/-! ## What PLAIT_CONFIG has set stands through whatever follows it -/

/-- The settings of a side that PLAIT_CONFIG alone writes. -/
@[simp] def Side.setting (x : Side) : Nat × Nat × Bool × Nat × Nat × Nat := (x.mode, x.width, x.enable, x.n, x.m, x.excTh)

/-- The card, PAUSE_MS and the settings of both sides. -/
def plaitSet (s : State) : Nat × Nat × (Nat → Nat × Nat × Bool × Nat × Nat × Nat) :=
  (s.link.card, s.link.pauseMs, fun i => (sideAt s i).setting)

theorem plaitSet_of_link {s t : State} (h : t.link = s.link) : plaitSet t = plaitSet s := by
  simp only [plaitSet, sideAt, h]

theorem plaitSet_updSide {f : Side → Side} (h : ∀ x, (f x).setting = x.setting) (i : Nat) (s : State) :
    plaitSet (updSide i f s) = plaitSet s := by
  unfold updSide
  split
  · simp only [plaitSet, sideAt, Prod.mk.injEq, true_and]
    funext j
    split
    · exact h _
    · rfl
  · simp only [plaitSet, sideAt, Prod.mk.injEq, true_and]
    funext j
    split
    · rfl
    · exact h _

section
variable (s : State)

@[simp] theorem plaitSet_updLane (i : Nat) (f : Lane → Lane) : plaitSet (updLane i f s) = plaitSet s := rfl
@[simp] theorem plaitSet_updSel (f : Selector → Selector) : plaitSet (updSel f s) = plaitSet s := rfl
@[simp] theorem plaitSet_bumpSide (i p n : Nat) : plaitSet (bumpSide i p n s) = plaitSet s := rfl

@[simp] theorem plaitSet_plaitDefect (i k c : Nat) (v : Bool) : plaitSet (plaitDefect i k c v s) = plaitSet s := by
  unfold plaitDefect; split <;> exact plaitSet_of_link (by simp)

@[simp] theorem plaitSet_laneFault (i k c : Nat) (v : Bool) : plaitSet (laneFault i k c v s) = plaitSet s := by
  unfold laneFault; split <;> exact plaitSet_of_link (by simp)

@[simp] theorem plaitSet_setLoa (i : Nat) (v : Bool) : plaitSet (setLoa i v s) = plaitSet s := by
  unfold setLoa
  split
  · rfl
  · rw [plaitSet_plaitDefect, plaitSet_updSide]
    exact fun _ => rfl

@[simp] theorem plaitSet_setTim (i : Nat) (v : Bool) : plaitSet (setTim i v s) = plaitSet s := by
  unfold setTim
  split
  · rfl
  · rw [plaitSet_plaitDefect, plaitSet_updSide]
    exact fun _ => rfl

@[simp] theorem plaitSet_setBoth (v : Bool) : plaitSet (setBoth v s) = plaitSet s := by
  have h : ∀ b, plaitSet { s with link := { s.link with sel := { s.link.sel with both := b } } } = plaitSet s := fun _ => rfl
  unfold setBoth
  (repeat' split)
  · rfl
  · exact (plaitSet_of_link (by simp)).trans (h v)
  · exact (plaitSet_of_link (by simp)).trans (h v)

@[simp] theorem plaitSet_dropContexts (i : Nat) (b : Bool) : plaitSet (dropContexts i b s) = plaitSet s := by
  rw [dropContexts, plaitSet_bumpSide, plaitSet_updSide]
  exact fun _ => rfl

@[simp] theorem plaitSet_moveTo (i : Nat) (b : Bool) : plaitSet (moveTo i b s) = plaitSet s := by
  have hsel : ∀ (u : State) (x : Selector), plaitSet { u with link := { u.link with sel := x } } = plaitSet u := fun _ _ => rfl
  unfold moveTo
  dsimp only
  split
  · rfl
  · refine (plaitSet_of_link (recordEv_link ..)).trans ?_
    rw [plaitSet_bumpSide, hsel]
    split
    · rw [plaitSet_dropContexts, plaitSet_updSide, plaitSet_updSide] <;> exact fun _ => rfl
    · rw [plaitSet_updSide, plaitSet_updSide] <;> exact fun _ => rfl

@[simp] theorem plaitSet_selectorMove : plaitSet (selectorMove s) = plaitSet s := by
  unfold selectorMove
  dsimp only
  (repeat' split) <;> simp

@[simp] theorem plaitSet_updateSf : plaitSet (updateSf s) = plaitSet s := by
  unfold updateSf
  extract_lets step s1 s2
  have hstep : ∀ i u, plaitSet (step i u) = plaitSet u := fun i u => by
    simp only [step]
    split <;> rfl
  simp [s2, s1, hstep]

@[simp] theorem plaitSet_alignLost (i : Nat) : plaitSet (alignLost i s) = plaitSet s := by
  have hhunt : plaitSet (hunting i s) = plaitSet s := plaitSet_updSide (by exact fun _ => rfl) i s
  unfold alignLost
  split <;> simp [hhunt]

@[simp] theorem plaitSet_laneLost (l : Nat) : plaitSet (laneLost l s) = plaitSet s := by unfold laneLost; split <;> simp

theorem plaitSet_queueCells (i : Nat) (x : TxFrame) : plaitSet (queueCells i x s) = plaitSet s :=
  plaitSet_updSide (f := fun y => { y with queue := y.queue ++ [x] }) (fun _ => rfl) i s

@[simp] theorem plaitSet_replyTo (p : Packet) (st : Status) (ws : List Word) (n : Nat) : plaitSet (replyTo p st ws n s) = plaitSet s := by
  unfold replyTo
  dsimp only
  split
  · rfl
  · split
    · exact plaitSet_of_link (by simp)
    · exact plaitSet_queueCells ..

@[simp] theorem plaitSet_abortScan (l : Nat) : plaitSet (abortScan l s) = plaitSet s := by
  unfold abortScan
  split
  · rfl
  · refine forEach_keeps plaitSet _ _ (fun q u => ?_) _
    unfold finish
    split
    · rfl
    · dsimp only
      split
      · rfl
      · exact plaitSet_replyTo ..

@[simp] theorem plaitSet_laneTo (l : Nat) (st : LaneState) : plaitSet (laneTo l st s) = plaitSet s := by
  unfold laneTo
  dsimp only
  (repeat' split) <;> simp

@[simp] theorem plaitSet_laneFollow (l : Nat) : plaitSet (laneFollow l s) = plaitSet s := by
  unfold laneFollow
  dsimp only
  (repeat' split) <;> simp

@[simp] theorem plaitSet_lanesFollow : plaitSet (lanesFollow s) = plaitSet s :=
  forBelow_keeps plaitSet 80 _ (fun l u => plaitSet_laneFollow u l) s

@[simp] theorem plaitSet_askExit (l : Nat) : plaitSet (askExit l s) = plaitSet s := by
  unfold askExit laneExit; split <;> simp

@[simp] theorem plaitSet_followTim (i : Nat) : plaitSet (followTim i s) = plaitSet s := by
  unfold followTim
  dsimp only
  (repeat' split) <;> simp

end

/-- A side with what PLAIT_CONFIG writes (Table 13.7). -/
def sideWritten (w : List Word) (x : Side) : Side :=
  { x with
    mode := fld (nthW w 0) 30 30, width := fld (nthW w 0) 29 28, timAct := bit (nthW w 0) 27, enable := bit (nthW w 0) 26,
    n := fld (nthW w 0) 23 21, m := fld (nthW w 0) 19 16, excTh := fld (nthW w 0) 11 0,
    txTrace := (w.drop 2).take 16, expTrace := (w.drop 18).take 16 }

/-- The side, the card and PAUSE_MS as PLAIT_CONFIG writes them. -/
def plaitWritten (w : List Word) (i : Nat) (f : State) : State :=
  let t := updSide i (sideWritten w) f
  { t with link := { t.link with card := fld (nthW w 1) 5 0, pauseMs := fld (nthW w 1) 31 16 } }

/-- What follows the writing: the lanes that join exit idle, and the lanes and the defects follow the setting. -/
def plaitFollowed (w : List Word) (i : Nat) (f : State) : State :=
  updateSf (followTim i (lanesFollow (forEach
    (((List.range (widthLanes (fld (nthW w 0) 29 28))).filter fun k => widthLanes (sideAt f i).txWidth ≤ k).map (sideLane i)) askExit
      (plaitWritten w i f))))

theorem runPlaitConfig_of {c : Ctx} {f : State} {i : Nat} (hi : fld (c.w 0) 31 31 = i) (hb : plaitBad c.words = none)
    (hs : f.link.sel.side = i → fld (c.w 0) 30 30 = (sideAt f i).mode ∧ bit (c.w 0) 26 = true) :
    runPlaitConfig c f = .done (plaitFollowed c.words i f) [] := by
  subst hi
  unfold runPlaitConfig
  dsimp only
  split
  · next heq => rw [hb] at heq; cases heq
  · refine refuseIf_passes ?_ rfl
    by_cases h : f.link.sel.side = fld (c.w 0) 31 31
    · simp [hs h]
    · simp [h]

theorem plaitSet_plaitFollowed (w : List Word) (i : Nat) (f : State) : plaitSet (plaitFollowed w i f) = plaitSet (plaitWritten w i f) := by
  unfold plaitFollowed
  rw [plaitSet_updateSf, plaitSet_followTim, plaitSet_lanesFollow, forEach_keeps plaitSet _ _ (fun l u => plaitSet_askExit u l)]

theorem plaitFollowed_shows (w : List Word) (i : Nat) (f : State) :
    (plaitFollowed w i f).link.card = fld (nthW w 1) 5 0 ∧ (plaitFollowed w i f).link.pauseMs = fld (nthW w 1) 31 16 ∧
    (sideAt (plaitFollowed w i f) i).setting = (sideWritten w (sideAt f i)).setting := by
  have h := plaitSet_plaitFollowed w i f
  simp only [plaitSet, Prod.mk.injEq] at h
  obtain ⟨hcard, hpause, hside⟩ := h
  refine ⟨hcard, hpause, (congrFun hside i).trans ?_⟩
  have hw : sideAt (plaitWritten w i f) i = sideAt (updSide i (sideWritten w) f) i := rfl
  rw [hw, sideAt_updSide_self]

/-! ## Requests and groups -/

/-- The request of PROTECTION_COMMAND, by the four values of REQ. -/
theorem request_eq {req : Nat} (h : req ≤ 3) (side : Nat) (s : State) : request req side s =
    if req = 3 then moveTo side false (updSel (fun x => { x with st := .fs }) s)
    else if req = 2 ∧ (s.link.sel.st = .nr ∨ s.link.sel.st = .wtr) then moveTo side false (updSel (fun x => { x with st := .ms }) s)
    else if req = 1 ∧ (s.link.sel.st = .fs ∨ s.link.sel.st = .ms) then updSel (fun x => { x with st := .nr }) s
    else s := by
  obtain rfl | rfl | rfl | rfl : req = 0 ∨ req = 1 ∨ req = 2 ∨ req = 3 := by omega
  · rfl
  · simp [request]
  · simp [request]
  · rfl

/-- The state with an uplink group's setting written. -/
def groupWritten (w : Word) (f : State) : State :=
  { f with link := { f.link with uplinks := mset f.link.uplinks (fld w 1 0) {
    portEn := fld w 31 28, fec := fld w 25 24, arrange := fld w 17 16 } } }

/-- An uplink port with its faults as they now are (R421). -/
def uplinkFaulted (near far : Bool) (now : Nat) (x : UplinkPort) : UplinkPort :=
  { localFault := near, remoteFault := far, up := x.up && !near && !far, clearSince := if x.localFault || x.remoteFault then now else x.clearSince }

/-- Settles O35: the settings that PLAIT_CONFIG writes are a view of the state that the lanes' and the selector's moves keep; the
other commands and the port events leave what their definitions name. -/
theorem protectionAndUplinkPortsMove : Obligations.ProtectionAndUplinkPortsMove := by
  unfold Obligations.ProtectionAndUplinkPortsMove
  refine ⟨?_, ?_, ?_, ?_, ?_, ?_, ?_, ?_⟩
  · intro p s hacc f w i hb hs
    obtain ⟨hcard, hpause, hset⟩ := plaitFollowed_shows w i f
    simp only [Side.setting, sideWritten, Prod.mk.injEq] at hset
    obtain ⟨hmode, hwidth, hen, hn, hm, hexc⟩ := hset
    exact ⟨_, command_done hacc (runPlaitConfig_of rfl hb hs) (by simp), hcard, hpause, hmode, hwidth, hen, hn, hm, hexc⟩
  · refine endsOk (fun _ _ => rfl) (fun c f _ h => ?_) (fun _ _ _ => by simp)
    obtain ⟨hreq, hhold, hlo, hhi, hms⟩ := h
    refine refuseIf_passes ?_ (refuseIf_passes ?_ ?_)
    · simp [Nat.not_le.mpr (Nat.lt_succ_of_le hreq), Nat.not_lt.mpr hhold, Nat.not_lt.mpr hlo, Nat.not_lt.mpr hhi]
    · by_cases h2 : fld (c.w 0) 31 29 = 2
      · simp [hms h2]
      · simp [h2]
    · dsimp only
      rw [request_eq hreq]
      rfl
  · intro i s hi hf hd
    exact (onObject_of (by simp [hi]) _).trans (congrArg _ (whenever_of (by simp [hf, passed, hd]) _ s))
  · intro s hst hw
    have hp : passed s s.link.sel.wtrAt (s.link.sel.wtrS * sec) = true := decide_eq_true hw
    exact congrArg Host.Outcome.next (whenever_of (by simp [hst, hp]) _ s)
  · refine endsOk (fun _ _ => rfl) (fun c f _ h => ?_) (fun _ _ _ => by simp)
    obtain ⟨hi, hfec, harr, hport, hmove, hcap⟩ := h
    have hfits : ∀ d < 2, (encCapacity < reservedAll (groupWritten (c.w 0) f) d && reservedAll f d < reservedAll (groupWritten (c.w 0) f) d)
        = false := by
      intro d hd
      rcases hcap d hd with h | h
      · exact Bool.and_eq_false_iff.mpr (.inl (decide_eq_false (not_lt_of_ge h)))
      · exact Bool.and_eq_false_iff.mpr (.inr (decide_eq_false (not_lt_of_ge h)))
    refine refuseIf_passes (by simp [hi]) (refuseIf_passes ?_ (refuseIf_passes ?_ ?_))
    · rcases hmove with h | h | h
      · simp [h]
      · simp [h]
      · simp [show fld (c.w 0) 17 16 = 0 from h]
    · have h3 : fld (c.w 0) 17 16 ≠ 3 := by
        dsimp only at harr
        omega
      by_cases h2 : fld (c.w 0) 17 16 = 2
      · simp [Nat.not_le.mpr (Nat.lt_succ_of_le hfec), h2, Nat.not_le.mpr (Nat.lt_succ_of_le (hport h2))]
      · simp [Nat.not_le.mpr (Nat.lt_succ_of_le hfec), h2, h3]
    · dsimp only
      exact (if_neg (ne_true_of_eq_false (hfits 0 (by decide)))).trans (if_neg (ne_true_of_eq_false (hfits 1 (by decide))))
  · intro n l r s hn
    refine ⟨_, onObject_of (by simp [hn]) _, ?_⟩
    have hport : upPort (uplinkFault n l r s) n = upPort (updUp n (uplinkFaulted l r s.mono) s) n := by
      unfold uplinkFault whenever
      split <;> rfl
    rw [hport, upPort_updUp_self]
    exact ⟨rfl, rfl, rfl⟩
  · intro n s hn he hl hr hc
    have hp : passed s (upPort s n).clearSince (10 * ms) = true := decide_eq_true hc
    exact (onObject_of (by simp [hn]) _).trans (congrArg _ (whenever_of (by simp [he, hl, hr, hp]) _ s))
  · intro n bs fits s hn he hp hl
    have hrun : exec (.uplinkFrameReceive n bs fits) s = .next (uplinkReceive n bs fits s) :=
      (onObject_of (by simp [hn]) _).trans (congrArg _ (whenever_of (by simp [he, hp, hl]) _ s))
    rw [hrun]
    unfold uplinkReceive
    refine ⟨fun hf => ?_, fun hf hq => ?_, fun hf hq hr => ?_⟩
    · rw [if_pos hf]
      rfl
    · rw [if_neg (not_not_intro hf), if_pos hq]
      rfl
    · rw [if_neg (not_not_intro hf), if_neg (by simp [hq]), if_neg (by simp [hr])]

end Sys2Proof.Machine
end

section
/-! PROOFS. The commands of group 0x9 (chapter 14). -/

namespace Sys2Proof.Machine

/-! ## The time-stamp queues -/

theorem takeStamps_cons_taken {pick : TsEntry → Bool} {n : Nat} {e : TsEntry} (hn : n ≠ 0) (he : pick e = true) (r : List TsEntry) :
    takeStamps pick n (e :: r) = (e :: (takeStamps pick (n - 1) r).1, (takeStamps pick (n - 1) r).2) := by
  rw [takeStamps, if_pos (by simp [hn, he])]

theorem takeStamps_cons_left {pick : TsEntry → Bool} {n : Nat} {e : TsEntry} (h : n = 0 ∨ pick e = false) (r : List TsEntry) :
    takeStamps pick n (e :: r) = ((takeStamps pick n r).1, e :: (takeStamps pick n r).2) := by
  rw [takeStamps, if_neg (by rcases h with h | h <;> simp [h])]

/-- A queue of which every entry is picked is cut at the number asked for. -/
theorem takeStamps_all {pick : TsEntry → Bool} (n : Nat) (q : List TsEntry) (h : ∀ e ∈ q, pick e = true) :
    takeStamps pick n q = (q.take n, q.drop n) := by
  induction q generalizing n with
  | nil => simp [takeStamps]
  | cons e r ih =>
    have hr : ∀ e ∈ r, pick e = true := fun x hx => h x (List.mem_cons_of_mem e hx)
    cases n with
    | zero => rw [takeStamps_cons_left (.inl rfl), ih 0 hr]; rfl
    | succ n => rw [takeStamps_cons_taken (Nat.succ_ne_zero n) (h e List.mem_cons_self), ih _ hr]; rfl

/-- What is taken is picked, and what is not picked stays. -/
theorem takeStamps_sound (pick : TsEntry → Bool) (n : Nat) (q : List TsEntry) :
    (∀ e ∈ (takeStamps pick n q).1, pick e = true) ∧ ∀ e ∈ q, pick e = false → e ∈ (takeStamps pick n q).2 := by
  induction q generalizing n with
  | nil => simp [takeStamps]
  | cons a r ih =>
    by_cases h : n = 0 ∨ pick a = false
    · obtain ⟨h1, h2⟩ := ih n
      rw [takeStamps_cons_left h]
      refine ⟨h1, fun e he hp => ?_⟩
      exact (List.mem_cons.mp he).elim (fun heq => heq ▸ List.mem_cons_self) (fun hr => List.mem_cons_of_mem a (h2 e hr hp))
    · obtain ⟨hn, hp⟩ : n ≠ 0 ∧ pick a = true := by simpa using h
      obtain ⟨h1, h2⟩ := ih (n - 1)
      rw [takeStamps_cons_taken hn hp]
      refine ⟨fun e he => ?_, fun e he hq => ?_⟩
      · exact (List.mem_cons.mp he).elim (fun heq => heq ▸ hp) (h1 e)
      · exact (List.mem_cons.mp he).elim (fun heq => absurd hp (by simp [← heq, hq])) (fun hr => h2 e hr hq)

theorem length_takeStamps (pick : TsEntry → Bool) (n : Nat) (q : List TsEntry) : (takeStamps pick n q).1.length ≤ n := by
  induction q generalizing n with
  | nil => exact Nat.zero_le n
  | cons a r ih =>
    by_cases h : n = 0 ∨ pick a = false
    · rw [takeStamps_cons_left h]; exact ih n
    · obtain ⟨hn, hp⟩ : n ≠ 0 ∧ pick a = true := by simpa using h
      rw [takeStamps_cons_taken hn hp]
      have := ih (n - 1)
      simp only [List.length_cons]
      omega

theorem length_flatMap_tsWords (q : List TsEntry) : (q.flatMap tsWords).length = 4 * q.length := by
  induction q with
  | nil => rfl
  | cons e r ih =>
    rw [List.flatMap_cons, List.length_append, ih, List.length_cons]
    simp [tsWords]
    omega

/-! ## TIME_SET, by its four kinds -/

section
variable {c : Ctx} {f : State}

theorem runTimeSet_value (hk : fld (c.w 0) 1 0 = 0) (hn : (c.w 3).toNat < 1000000000) : runTimeSet c f = .done (stepNext true
    (((join64 (c.w 1) (c.w 2) * 1000000000 + (c.w 3).toNat) * nsUnit + fld (c.w 4) 15 0 * fracUnit : Nat) : Int) 2 f) [] := by
  unfold runTimeSet
  rw [hk]
  exact refuseIf_passes (decide_eq_false (Nat.not_le.mpr hn)) rfl

theorem runTimeSet_difference {v : Int} (hk : fld (c.w 0) 1 0 = 1) (hv : timeValue c = .ok v) :
    runTimeSet c f = .done (stepNext false v 2 f) [] := by
  unfold runTimeSet
  rw [hk, hv]
  rfl

theorem runTimeSet_refused (hk : fld (c.w 0) 1 0 = 2) (hs : f.time.servo = .holdover) :
    runTimeSet c f = .done (stepNext false (-f.time.refused) 3 f) [] := by
  unfold runTimeSet
  rw [hk]
  exact refuseIf_passes (by simp [hs]) rfl

theorem runTimeSet_measurement {v : Int} (hk : fld (c.w 0) 1 0 = 3) (hv : timeValue c = .ok v) (hs : f.time.source = 3) :
    runTimeSet c f = .done (measure v none f) [] := by
  unfold runTimeSet
  rw [hk, hv]
  exact refuseIf_passes (by simp [hs]) rfl

end

/-! ## The commands -/

theorem mmap_eq_self {κ α : Type} [DecidableEq κ] (m : Map κ α) : mmap m (fun _ x => x) = m := by simp [mmap]

theorem outside_false {lo hi : Nat} {w : Word} (h1 : lo ≤ w.toNat) (h2 : w.toNat ≤ hi) : (w.toNat < lo || hi < w.toNat : Bool) = false := by
  simp [Nat.not_lt.mpr h1, Nat.not_lt.mpr h2]

/-- Settles O36: each command's grounds are passed in turn; the reading of a time-stamp queue is an induction over the queue. -/
theorem timeCommandsTakeEffect : Obligations.TimeCommandsTakeEffect := by
  unfold Obligations.TimeCommandsTakeEffect
  intro range pick
  refine ⟨?_, ?_, ?_, ?_, ?_, ?_, ?_, ?_, ?_, ?_, ⟨?_, ?_⟩, ?_, ?_⟩
  · exact endsOk (fun _ _ => rfl) (fun _ _ _ _ => rfl) (fun _ _ _ => by simp)
  · exact endsOk (fun _ _ => rfl) (fun _ _ _ h => runTimeSet_value h.1 h.2) (fun _ _ _ => by simp)
  · exact fun v => endsOk (fun _ _ => rfl) (fun _ _ _ h => runTimeSet_difference h.1 h.2) (fun _ _ _ => by simp)
  · exact endsOk (fun _ _ => rfl) (fun _ _ _ h => runTimeSet_refused h.1 h.2) (fun _ _ _ => by simp)
  · exact fun v => endsOk (fun _ _ => rfl) (fun _ _ _ h => runTimeSet_measurement h.1 h.2.1 h.2.2) (fun _ _ _ => by simp)
  · refine endsOk (fun _ _ => rfl) (fun c f _ h => ?_) (fun _ _ _ => by simp)
    obtain ⟨hk, hm, hp, hb, hw⟩ := h
    have hport : ptpPort c f = .done { f with time := { f.time with
        ptp := mset f.time.ptp (fld (c.w 0) 3 0) {
          mode := fld (c.w 0) 30 29, twoStep := bit (c.w 0) 28, notSlave := bit (c.w 0) 27, hostq := fld (c.w 0) 23 16,
          localPrio := fld (c.w 0) 15 8 },
        tsq := mmap f.time.tsq fun _ es => if fld (c.w 0) 30 29 = 1 then es.filter fun e => e.port ≠ fld (c.w 0) 3 0 else es } } [] := by
      refine refuseIf_passes (by simp [hm, hp]) (refuseIf_passes (by simp [hb, hw]) ?_)
      by_cases h1 : fld (c.w 0) 30 29 = 1
      · simp only [h1, if_true]
      · simp only [h1, if_false, mmap_eq_self]
    change runPtpConfig c f = _
    rw [runPtpConfig, if_pos hk, hport]
  · refine endsOk (fun _ _ => rfl) (fun c f _ h => ?_) (fun _ _ _ => by simp)
    obtain ⟨hk, hsrc, hd1, hd2, hw1, hw2, ⟨hs1, hs2⟩, ⟨hp1, hp2⟩, ht, hslave⟩ := h
    change runPtpConfig c f = _
    rw [runPtpConfig, if_neg (by simp [hk])]
    refine refuseIf_passes ?_ (refuseIf_passes (outside_false hs1 hs2) (refuseIf_passes (outside_false hp1 hp2) (refuseIf_passes ?_
      (refuseIf_passes ?_ ?_))))
    · simp [Nat.not_lt.mpr hsrc, Nat.not_lt.mpr hd1, Nat.not_lt.mpr hd2, Nat.not_lt.mpr hw2, Nat.one_le_iff_ne_zero.mp hw1]
    · simp [Nat.one_le_iff_ne_zero.mp ht]
    · by_cases h1 : fld (c.w 0) 30 28 = 1
      · rw [hslave h1]; simp
      · simp [h1]
    · refine congrArg (HRes.done · []) (if_congr Iff.rfl rfl (if_congr ?_ rfl rfl))
      simp
  · refine endsOk (fun _ _ => rfl) (fun c f _ h => ?_) (fun _ _ _ => by simp)
    change runAsymmetrySet c f = _
    unfold runAsymmetrySet
    dsimp only
    rw [if_pos h, Bool.or_false]
    rfl
  · refine endsOk (fun _ _ => rfl) (fun c f _ h => ?_) (fun _ _ _ => by simp)
    change runAsymmetrySet c f = _
    unfold runAsymmetrySet
    dsimp only
    rw [if_neg (by simp [h.1])]
    exact refuseIf_passes (decide_eq_false (Nat.not_lt.mpr h.2)) rfl
  · refine endsOk (fun _ _ => rfl) (fun c f _ h => ?_) (fun _ _ _ => by simp)
    obtain ⟨h0, h1, hlo, hhi, hm⟩ := h
    have off : ∀ n, n ≤ 15 ∨ n = 0xFF → (decide (15 < n) && decide (n ≠ 0xFF)) = false := fun n hn => by
      rcases hn with hn | hn
      · simp [Nat.not_lt.mpr hn]
      · simp [hn]
    refine refuseIf_passes ?_ rfl
    rw [off _ h0, off _ h1]
    simp [Nat.not_lt.mpr hlo, Nat.not_lt.mpr hhi, Nat.not_lt.mpr hm]
  · refine endsOk (fun _ _ => rfl) (fun c f _ h => ?_) (fun c f _ => ?_)
    · change runTsQueueRead c f = _
      simp [runTsQueueRead, h, pick]
    · have := length_takeStamps (pick f) 3 (mgetD f.time.tsq (fld (c.w 0) 1 0) [])
      rw [length_flatMap_tsWords]
      omega
  · refine endsData (fun _ _ => rfl) (by decide) (fun c f _ h => ?_)
    change runTsQueueRead c f = _
    simp [runTsQueueRead, h, pick]
  · exact fun pick n q h => takeStamps_all n q h
  · exact fun pick n q => takeStamps_sound pick n q

end Sys2Proof.Machine
end

section
/-! PROOFS. The tick, the servo, the SyncE sources and a terminal's delay (chapter 14). -/

namespace Sys2Proof.Machine

/-! ## What a tick's work leaves of the counter -/

/-- The time since power, the time counter and the steps that are due. -/
def clock (s : State) : Nat × Nat × List StepDue := (s.mono, s.time.tc, s.time.due)

section
variable (s : State)

@[simp] theorem clock_takeFree : clock (takeFree s) = clock s := rfl
@[simp] theorem clock_setCorr (c : Int) : clock (setCorr c s) = clock s := rfl
@[simp] theorem clock_emit (o : Out) : clock (emit o s) = clock s := rfl
@[simp] theorem clock_updSource (i : Nat) (f : SyncSrc → SyncSrc) : clock (updSource i f s) = clock s := rfl
@[simp] theorem clock_countEvent (i e w n : Nat) : clock (countEvent i e w n s) = clock s := rfl

@[simp] theorem clock_sendEsmc : clock (sendEsmc s) = clock s := forBelow_keeps clock _ _ (fun _ _ => by split <;> simp) s

@[simp] theorem clock_reselect : clock (reselect s) = clock s := by
  have h : clock { s with time := { s.time with selected := selectSource s } } = clock s := rfl
  unfold reselect
  dsimp only
  (repeat' split) <;> simp [h]

@[simp] theorem clock_trackSources : clock (trackSources s) = clock s := by
  unfold trackSources
  apply forBelow_keeps clock
  intro i u
  dsimp only
  (repeat' split) <;> simp

@[simp] theorem clock_ppsFall : clock (ppsFall s) = clock s := by unfold ppsFall; split <;> rfl

@[simp] theorem clock_todOut : clock (todOut s) = clock s := by
  unfold todOut
  exact forEach_keeps clock _ _ (by exact fun _ _ => rfl) _

@[simp] theorem clock_followRefs : clock (followRefs s) = clock s := by
  have h : ∀ i u, clock (refReturn i u) = clock u := fun i u => by
    unfold refReturn
    split
    · have ho := offLink_retrainSide { u with power := { u.power with fallback := u.power.fallback.filter (· ≠ i) } } i
      have hm := congrArg State.mono ho
      have ht := congrArg State.time ho
      simp only [offLink] at hm ht
      simp only [clock, hm, ht]
    · rfl
  rw [followRefs, h, h]

end

theorem leaveWhere_of_empty (p : Admitted → Bool) {s : State} (h : s.cipher.inPipes = []) : leaveWhere p s = s := by
  unfold leaveWhere
  rw [h]
  dsimp only [leaving, List.foldr_nil, forEach, List.foldl_nil]
  rw [← h]

/-- Ticks with an empty array advance the counter alone, of what `clock` shows. -/
theorem clock_passTicks (n : Nat) {s : State} (h : s.cipher.inPipes = []) : clock (passTicks n s) =
    (s.mono + n * 12800, ((s.time.tc : Int) + (n : Int) * ((tickUnits : Int) + s.time.corr)).toNat, s.time.due) := by
  unfold passTicks
  dsimp only
  rw [leaveWhere_of_empty]
  · simp
    rfl
  · exact h

theorem passTicks_fields (n : Nat) {s : State} (h : s.cipher.inPipes = []) : (passTicks n s).mono = s.mono + n * 12800 ∧
    (passTicks n s).time.tc = ((s.time.tc : Int) + (n : Int) * ((tickUnits : Int) + s.time.corr)).toNat ∧
    (passTicks n s).time.due = s.time.due := by
  have hc := clock_passTicks n h
  simpa only [clock, Prod.mk.injEq] using hc

/-- The settings of ASYMMETRY_SET that wait are none. -/
theorem takeAsym_of_none {s : State} (h : s.time.asymNext = []) : takeAsym s = s := by
  unfold takeAsym
  rw [h]
  dsimp only [forEach, List.foldl_nil]
  rw [← h]

/-- A setting of ASYMMETRY_SET in force. -/
def asymTaken (d : AsymDue) (s : State) : State :=
  { s with time := { s.time with
      asymNext := [],
      asymPon := if d.pon then mset s.time.asymPon d.port d.value else s.time.asymPon,
      asymUp := if d.pon then s.time.asymUp else mset s.time.asymUp d.port d.value } }

theorem takeAsym_of_one {s : State} {d : AsymDue} (h : s.time.asymNext = [d]) : takeAsym s = asymTaken d s := by
  unfold takeAsym asymTaken
  rw [h]
  dsimp only [forEach, List.foldl_cons, List.foldl_nil]
  split <;> rfl

theorem tick_succ (n : Nat) (s : State) : tick (n + 1) s =
    if (takeAsym s).time.due.isEmpty then passTicks (n + 1) (takeAsym s) else passTicks n (takeSteps (passTicks 1 (takeAsym s))) := by
  simp [tick]

theorem tick_of_nothing_due {n : Nat} {s : State} (hd : s.time.due = []) (h : n = 0 ∨ s.time.asymNext = []) : tick n s = passTicks n s := by
  cases n with
  | zero => simp [tick]
  | succ n => rw [tick_succ, takeAsym_of_none (h.resolve_left (Nat.succ_ne_zero n)), hd]; rfl

theorem tick_of_step {n : Nat} {s : State} {d : StepDue} (hd : s.time.due = [d]) (ha : s.time.asymNext = []) (hp : s.cipher.inPipes = []) :
    tick (n + 1) s = passTicks n (takeStep d { passTicks 1 s with time := { (passTicks 1 s).time with due := [] } }) := by
  have hdue : (passTicks 1 s).time.due = [d] := (passTicks_fields 1 hp).2.2.trans hd
  rw [tick_succ, takeAsym_of_none ha, hd, if_neg (by simp), takeSteps, hdue, forEach_singleton]

/-! ## The servo -/

theorem servo_setServo (v : Servo) (s : State) : (setServo v s).time.servo = v := by
  unfold setServo
  dsimp only
  split <;> simp

/-- Into HOLDOVER the accepted path and the path last notified stand. -/
theorem enterHoldover_time (s : State) : (enterHoldover s).time.servo = .holdover ∧ (enterHoldover s).time.meanPath = s.time.meanPath ∧
    (enterHoldover s).time.notified = s.time.notified := by
  unfold enterHoldover setServo
  dsimp only
  split <;> simp [setCorr]

theorem measure_tracked {s : State} (h : s.time.servo = .acquiring ∨ s.time.servo = .locked) (off : Int) (path : Option Int) :
    measure off path s = takeOffset off { s with time := { s.time with lastMeas := s.mono } } := by
  unfold measure
  rcases h with h | h <;> rw [h]

theorem syncMeasure_tracked {s : State} {p : Int} (h : s.time.servo = .acquiring ∨ s.time.servo = .locked) (hp : s.time.meanPath = some p)
    (port : Nat) (down : Int) : syncMeasure port down s = takeOffset (down - p - (mgetD s.time.asymUp port {}).asym)
      { s with time := { s.time with down := some down, lastMeas := s.mono } } := by
  have hh : s.time.servo ≠ .holdover := by rcases h with h | h <;> simp [h]
  unfold syncMeasure
  rw [if_neg hh, hp]
  exact measure_tracked (s := { s with time := { s.time with down := some down } }) h _ _

/-- A mean path that ACQUIRING or LOCKED takes: the second in a row beyond PATH_STEP_TH enters HOLDOVER. -/
theorem takePath_tracked {s : State} (h : s.time.servo = .acquiring ∨ s.time.servo = .locked) (port : Nat) (path : Int) :
    takePath port path s = if 2 ≤ (trackPath path s).time.pathRun then enterHoldover (notePath port path (trackPath path s))
      else trackPath path s := by
  unfold takePath
  rcases h with h | h <;> simp only [h]

theorem trackPath_time {s : State} (h : s.time.servo ≠ .holdover) {p : Int} (hp : s.time.meanPath = some p) (path : Int) :
    (trackPath path s).time.servo = s.time.servo ∧
    (trackPath path s).time.meanPath = some (if pathFar s path p then p else path) ∧
    (trackPath path s).time.pathRun = if pathFar s path p then s.time.pathRun + 1 else 0 := by
  simp [trackPath, hp, h]

theorem delayMeasure_of {s : State} {down : Int} (hd : s.time.down = some down) (port : Nat) (up : Int) :
    delayMeasure port up s = takePath port ((down + up).tdiv 2) s := by
  unfold delayMeasure
  rw [hd]

theorem notePath_time (port : Nat) (path : Int) (s : State) : (notePath port path s).time = { s.time with notified := some path } := by
  simp [notePath]

theorem correctFrequency_servo (s : State) : (correctFrequency s).time.servo = s.time.servo ∧ (correctFrequency s).time.good = s.time.good :=
  ⟨rfl, rfl⟩

/-- An offset within 100 ns corrects the frequency; the sixteenth in a row locks. -/
theorem takeOffset_near {off : Int} {s : State} (hn : (off.natAbs : Int) ≤ nsFrac s.time.stepTh) (hs : (off.natAbs : Int) ≤ nsFrac 100) :
    let u := correctFrequency { s with time := { s.time with beyond := 0, good := s.time.good + 1 } }
    takeOffset off s = if s.time.servo = .acquiring ∧ 15 ≤ s.time.good then setServo .locked u else u := by
  obtain ⟨hservo, hgood⟩ := correctFrequency_servo { s with time := { s.time with beyond := 0, good := s.time.good + 1 } }
  unfold takeOffset
  dsimp only
  rw [if_neg (Int.not_lt.mpr hn), if_pos hs, hservo, hgood]
  simp

theorem exec_synceSourceChange {i : Nat} (hi : i < 20) (esmc : Option Nat) (s : State) :
    exec (.synceSourceChange i esmc) s = .next (synceChange i esmc s) := onObject_of (by simp [hi]) _

theorem synceChange_some (i q : Nat) (s : State) : synceChange i (some q) s =
    synceChange i none (updSource i (fun x => { x with ql := q, lapsed := false, heard := s.mono }) s) := by
  unfold synceChange
  dsimp only

theorem synceChange_none (i : Nat) (s : State) :
    let t := trackSources s
    let x := mgetD t.time.sources i {}
    let wait := if x.good then t.time.wtrM * 60 * sec else t.time.holdoff * 100 * ms
    synceChange i none s = reselect (if x.good ≠ x.eligible ∧ x.since + wait ≤ t.mono
      then updSource i (fun x => { x with eligible := x.good }) t else t) := by
  unfold synceChange
  dsimp only
  generalize trackSources s = u
  refine congrArg reselect (if_congr ?_ rfl rfl)
  rw [Bool.and_eq_true, decide_eq_true_eq, passed, decide_eq_true_eq]

theorem sendEsmc_time (s : State) : (sendEsmc s).time = s.time := forBelow_keeps State.time _ _ (fun _ _ => by split <;> simp) s

theorem selected_reselect (s : State) : (reselect s).time.selected = selectSource s := by
  unfold reselect
  dsimp only
  split
  · rfl
  · split
    · rw [setCorr, takeFree_time, sendEsmc_time]
    · rw [takeFree_time, sendEsmc_time]

/-- Settles O37: a tick's work keeps the counter and the steps that are due; the servo's clauses are the rows of Table 14.5. -/
theorem ticksStepAndServoMeasures : Obligations.TicksStepAndServoMeasures := by
  unfold Obligations.TicksStepAndServoMeasures
  refine ⟨?_, ?_, ?_, ?_, ?_, ?_, ?_, ?_, ?_, ?_, ?_, ?_, ?_, ?_, ?_, ?_⟩
  · intro n s hd ha
    change Host.Outcome.next (keeperRun (tick n s)) = _
    rw [tick_of_nothing_due hd ha]
  · intro n d s ha
    change Host.Outcome.next (keeperRun (tick (n + 1) s)) = .next (keeperRun (tick (n + 1) (asymTaken d s)))
    rw [tick_succ, tick_succ, takeAsym_of_one ha, takeAsym_of_none (s := asymTaken d s) rfl]
  · intro n s hp
    obtain ⟨hm, ht, _⟩ := passTicks_fields n hp
    exact ⟨hm, ht⟩
  · intro d n s hd ha hp
    change Host.Outcome.next (keeperRun (tick (n + 1) s)) = _
    rw [tick_of_step hd ha hp]
    rfl
  · intro port d v s hp hs hm hn
    refine (onObject_of (by simp [hp]) _).trans (congrArg _ ((whenever_of (by simp [hs, hm, hn]) _ s).trans ?_))
    cases d <;> rfl
  · exact fun port down p s h hp => syncMeasure_tracked h hp port down
  · intro port down up p s h hd hp path
    have hh : s.time.servo ≠ .holdover := by rcases h with h | h <;> simp [h]
    obtain ⟨hservo, hmean, hrun⟩ := trackPath_time hh hp path
    rw [delayMeasure_of hd, takePath_tracked h]
    refine ⟨fun hf => ?_, fun hf h0 => ?_, fun hf h1 => ?_⟩
    · rw [hf] at hmean hrun
      rw [if_neg (by rw [hrun]; simp)]
      exact ⟨hservo, hmean, hrun⟩
    · rw [hf, h0] at hrun
      rw [hf] at hmean
      rw [if_neg (by rw [hrun]; decide)]
      exact ⟨hservo, hmean, hrun⟩
    · rw [hf] at hmean hrun
      obtain ⟨e1, e2, e3⟩ := enterHoldover_time (notePath port path (trackPath path s))
      rw [if_pos (by rw [hrun, if_pos rfl]; omega)]
      exact ⟨e1, e2.trans (by rw [notePath_time]; exact hmean), e3.trans (by rw [notePath_time])⟩
  · intro off s h
    unfold measure
    rw [h]
  · intro off s h t
    rw [measure_tracked h]
    refine ⟨fun hf h0 => ?_, fun hf h1 => ?_, fun hn hs => takeOffset_near hn hs, fun hn hb => ?_⟩
    · unfold takeOffset
      dsimp only
      rw [if_pos hf, h0, if_neg (by decide)]
    · unfold takeOffset
      dsimp only
      rw [if_pos hf, if_pos (by omega)]
      rfl
    · unfold takeOffset
      dsimp only
      rw [if_neg (Int.not_lt.mpr hn), if_neg (Int.not_le.mpr hb)]
  · intro s hs hl
    have hp : passed s s.time.lastMeas (4 * sec) = true := decide_eq_true hl
    exact ⟨congrArg Host.Outcome.next (whenever_of (by simp [hs, hp]) _ s), (enterHoldover_time s).1⟩
  · exact fun new cause s => ⟨by simp [stepTo], by simp [stepTo]⟩
  · exact fun i s hi => (exec_synceSourceChange hi none s).trans (congrArg _ (synceChange_none i s))
  · refine fun s => ⟨selected_reselect s, fun h => ?_⟩
    unfold reselect
    dsimp only
    rw [if_pos h, h]
  · exact fun i q s => congrArg (onObject (decide (i < 20))) (synceChange_some i q s)
  · intro port s hp hh
    have hpass : passed s (mgetD s.time.sources port {}).heard (5 * sec) = true := decide_eq_true hh
    exact (onObject_of (by simp [hp]) _).trans (congrArg _ (whenever_of hpass _ s))
  · intro i t s ht
    change execTerminalDelayChange i s = _
    unfold execTerminalDelayChange
    rw [ht]
    dsimp only
    by_cases hd : t.delayDue = false
    · rw [if_pos hd, if_pos (by simp [hd])]
    · rw [if_neg hd, if_neg (by simpa using hd)]

end Sys2Proof.Machine
end

section
/-! PROOFS. PTP frames, 1PPS edges and ToD messages (R428, R430, R435, R438, R439). -/

namespace Sys2Proof.Machine

/-! ## PTP frames -/

theorem exec_ptpFrameTransmit {n : Nat} {bs : List Byte} {s : State} (hn : n < 16) (hr : recognised s n bs = true) :
    exec (.ptpFrameTransmit n bs) s = .next (ptpSend n bs s) :=
  (onObject_of (by simp [hn]) _).trans (congrArg _ (whenever_of hr _ s))

/-- The state in which a PTP frame leaves: its time-stamp queued where the message asks for one (R435). -/
def ptpQueued (n : Nat) (bs : List Byte) (s : State) : State :=
  if (ptpType bs = 0 && (ptpAt s n).twoStep) || ptpType bs = 1 then
    queueStamp { msgType := ptpType bs, port := n, id := ptpSeq bs, stamp := stampAt s (asymAt s.time.asymUp n).txDelay } s
  else s

/-- The bytes of a PTP frame as it leaves: a one-step Sync carries its time-stamp (R430). -/
def ptpBytes (n : Nat) (bs : List Byte) (s : State) : List Byte :=
  let stamp := stampAt s (asymAt s.time.asymUp n).txDelay
  if ptpType bs = 0 && !(ptpAt s n).twoStep then
    withFcs (putBytes bs ((ptpOffset bs).getD 14 + 34) (beBytes 6 (stamp / tcSecond % 2 ^ 48) ++ beBytes 4 (stamp / nsUnit % 1000000000)))
  else bs

theorem ptpSend_up {n : Nat} {s : State} (h : (upPort s n).up = true) (bs : List Byte) : ptpSend n bs s =
    emit (.uplink n (ptpBytes n bs s)) (countEvent 0x4B 0x101 0x0100 1 (bump (cTime 8) 1 n (ptpQueued n bs s))) := by
  unfold ptpSend
  dsimp only
  rw [if_neg (by simp [h])]
  rfl

theorem ptpSend_down {n : Nat} {s : State} (h : (upPort s n).up = false) (bs : List Byte) :
    ptpSend n bs s = bumpBy { cid := cDropLinkDown, scope := 1, idx := n } 1 s := by
  unfold ptpSend
  dsimp only
  rw [if_pos (by simp [h])]

theorem queueStamp_out (e : TsEntry) (s : State) : (queueStamp e s).out = s.out := by
  unfold queueStamp
  dsimp only
  (repeat' split) <;> rfl

theorem ptpQueued_out (n : Nat) (bs : List Byte) (s : State) : (ptpQueued n bs s).out = s.out := by
  unfold ptpQueued
  split
  · exact queueStamp_out ..
  · rfl

/-- The time-stamp of a port in MODE 2 joins its group's queue, which has room. -/
theorem queueStamp_room {e : TsEntry} {s : State} (hm : (ptpAt s e.port).mode = 2) (hl : (mgetD s.time.tsq (e.port / 4) []).length < 64) :
    mgetD (queueStamp e s).time.tsq (e.port / 4) [] = mgetD s.time.tsq (e.port / 4) [] ++ [e] := by
  unfold queueStamp
  dsimp only
  rw [if_neg (by simp [hm]), if_neg (Nat.not_le.mpr hl), if_neg (by simp [hm])]
  exact mgetD_mset_self ..

/-! ## Pulses -/

/-- A ToD message that pairs with its edge measures. -/
theorem todIn_pairs {second stamp at_ : Nat} {s : State} (he : s.time.ppsEdge = some (stamp, at_)) (h1 : at_ + ms ≤ s.mono)
    (h2 : s.mono ≤ at_ + 500 * ms) (hf : ∀ p, s.time.todSecond = some p → second = p + 1) :
    todIn second true s = measure (((stamp : Int) - ((second * tcSecond : Nat) : Int)).tdiv (fracUnit : Int)) none
      { s with time := { s.time with todSecond := some second, ppsEdge := none } } := by
  have hp : passed s at_ ms = true := decide_eq_true h1
  have hlate : decide (s.mono > at_ + 500 * ms) = false := decide_eq_false (Nat.not_lt.mpr h2)
  cases hs : s.time.todSecond with
  | none => simp only [todIn, he, hs, hp, hlate]; rfl
  | some p =>
    have hsec : decide (second = p + 1) = true := decide_eq_true (hf p hs)
    simp only [todIn, he, hs, hp, hlate, hsec]
    rfl

theorem todIn_bad_alone {second : Nat} {s : State} (he : s.time.ppsEdge = none) : todIn second false s = bump (cid 14 9 6) 0 0 s := by
  unfold todIn
  dsimp only
  split
  · next hsome => rw [he] at hsome; cases hsome
  · exact if_pos rfl

theorem todOut_of_one {t0 n : Nat} {s : State} (h : s.time.todDue = [(t0, n)]) : todOut s =
    if t0 + ms ≤ s.mono then emit (.tod n (Config.todMessage n)) { s with time := { s.time with todDue := [] } } else s := by
  unfold todOut
  rw [h]
  by_cases hp : t0 + ms ≤ s.mono
  · have hpass : passed s t0 ms = true := decide_eq_true hp
    simp only [if_pos hp, List.filter_cons, List.filter_nil, hpass, Bool.not_true, Bool.false_eq_true, if_true, if_false, forEach_singleton]
  · have hpass : passed s t0 ms = false := decide_eq_false hp
    simp only [if_neg hp, List.filter_cons, List.filter_nil, hpass, Bool.not_false, Bool.false_eq_true, if_true, if_false]
    dsimp only [forEach, List.foldl_nil]
    rw [← h]

/-- Settles O38: a frame's bytes and its queued time-stamp are two functions of the state; the pulses follow their branches. -/
theorem ptpFramesAndPulsesCarryTime : Obligations.PtpFramesAndPulsesCarryTime := by
  unfold Obligations.PtpFramesAndPulsesCarryTime
  refine ⟨?_, ?_, ?_, ?_, ?_, ?_, ?_, ?_, ?_, ?_⟩
  · exact fun n bs s hn hr => (onObject_of (by simp [hn]) _).trans (congrArg _ (whenever_of hr _ s))
  · intro n bs s hn hr hu stamp oneStep queued
    have hrun := (exec_ptpFrameTransmit hn hr).trans (congrArg Host.Outcome.next (ptpSend_up hu bs))
    refine ⟨_, ptpBytes n bs s, hrun, ?_, ?_, ?_, ?_⟩
    · exact congrArg (· ++ _) (ptpQueued_out n bs s)
    · intro h
      exact if_neg (by simpa [oneStep] using h)
    · rintro ⟨h1, h2⟩
      exact if_pos (by simp [h1, h2])
    · intro hq hm hl
      change mgetD (ptpQueued n bs s).time.tsq (n / 4) [] = _
      rw [ptpQueued, if_pos (by simpa [queued] using hq)]
      exact queueStamp_room hm hl
  · exact fun n bs s hn hr hu => (exec_ptpFrameTransmit hn hr).trans (congrArg _ (ptpSend_down hu bs))
  · intro s hs hh hd
    have hdue : ppsDue s = true := by
      rw [ppsDue, hh, decide_eq_true hd]
      rfl
    exact congrArg Host.Outcome.next (whenever_of (by simp [hs, hdue]) _ s)
  · exact fun t0 n s h => todOut_of_one h
  · intro t0 s hs he hm
    have hp : passed s t0 (900 * ms) = false := decide_eq_false (Nat.not_le.mpr hm)
    refine congrArg Host.Outcome.next ((whenever_of (by simp [hs]) _ s).trans ?_)
    unfold ppsIn
    rw [he]
    exact if_pos (by rw [hp]; rfl)
  · intro s hs hm
    have hrun : ppsIn s = ppsIn.take s := by
      unfold ppsIn
      split
      · next t0 he =>
        have hp : passed s t0 (900 * ms) = true := decide_eq_true (hm t0 he)
        exact if_neg (by rw [hp]; exact Bool.false_ne_true)
      · rfl
    refine ⟨_, congrArg Host.Outcome.next ((whenever_of (by simp [hs]) _ s).trans hrun), ?_⟩
    unfold ppsIn.take
    split <;> exact ⟨rfl, rfl⟩
  · exact fun second stamp at_ s hs he h1 h2 hf =>
      congrArg Host.Outcome.next ((whenever_of (by simp [hs]) _ s).trans (todIn_pairs he h1 h2 hf))
  · exact fun second s hs he => congrArg Host.Outcome.next ((whenever_of (by simp [hs]) _ s).trans (todIn_bad_alone he))
  · intro s hs h1 h2
    have hp1 : passed s (s.time.ppsEdgeAt.getD 0) (2 * sec) = true := decide_eq_true h1
    have hp2 : passed s s.time.ppsMissAt (2 * sec) = true := decide_eq_true h2
    exact congrArg Host.Outcome.next (whenever_of (by simp [hs, hp1, hp2]) _ s)

end Sys2Proof.Machine
end

section
/-! PROOFS. Entry to Halter by its stages, the rewind at their ends, and the wake (R453 to R462). -/

namespace Sys2Proof.Machine

theorem exec_halterStageEnd {s : State} (h : stageDone s = true) (lost : List Upset) :
    exec (.halterStageEnd lost) s = .next (pumpAll (stageEnd lost s)) :=
  congrArg Host.Outcome.next (whenever_of h _ s)

/-- The normal path is empty where every flight is at its ingress, in the array or held. -/
theorem pathEmpty_of {s : State} (h : ∀ e ∈ s.pkt.flights, e.2.place = .ingress ∨ e.2.place = .array ∨ e.2.place = .held) :
    pathEmpty s = true := by
  simpa [pathEmpty, or_assoc] using h

/-- A stage's end without a wake goes on to the next (R453). -/
theorem stageEnd_of_no_wake {s : State} (hw : s.halter.wake = none) (lost : List Upset) :
    (s.halter.stage = .s1 → stageEnd lost s = toStage .s2 { s with halter := { s.halter with grantMode := true } }) ∧
    (s.halter.stage = .s2 → stageEnd lost s = toStage .s3 s) ∧ (s.halter.stage = .s3 → stageEnd lost s = toStage .s4 s) := by
  refine ⟨fun h => ?_, fun h => ?_, fun h => ?_⟩
  · simp only [stageEnd, h, hw, reduceCtorEq, if_false, Option.isSome_none, Bool.false_eq_true]
  · simp only [stageEnd, h, hw, reduceCtorEq, if_false, Option.isSome_none, Bool.false_eq_true]
  · simp only [stageEnd, h, hw, reduceCtorEq, if_false, Option.isSome_none, Bool.false_eq_true]

/-- The state with Osier's caches returned and Hide's tree flushed (R453). -/
def flushedTree (s : State) : State := flushTree (forBelow 16 (fun p s => spill p (runLen (poolAt s p).cache) s) s)

theorem stageEnd_flushes {s : State} (h : s.halter.stage = .s4) (hw : (flushedTree s).halter.wake = none) (lost : List Upset) :
    stageEnd lost s = toStage .s5 (signAll { flushedTree s with halter := { (flushedTree s).halter with lost := [] } }) := by
  have hflush : flushAll s = signAll { flushedTree s with halter := { (flushedTree s).halter with lost := [] } } := by
    unfold flushAll flushedTree
    dsimp only
  obtain ⟨u, hu⟩ : ∃ u, u = flushedTree s := ⟨_, rfl⟩
  rw [← hu] at hw hflush ⊢
  have hwake : (signAll { u with halter := { u.halter with lost := [] } }).halter.wake = none := hw
  simp only [stageEnd, h, if_true, hflush, hwake, Option.isSome_none, Bool.false_eq_true, if_false]

theorem stageEnd_gates {s : State} (h : s.halter.stage = .s5) (hw : (gateAll s).halter.wake = none) (lost : List Upset) :
    stageEnd lost s = inHalter (gateAll s) := by
  simp only [stageEnd, h, reduceCtorEq, if_false, if_true, hw, Option.isSome_none, Bool.false_eq_true]

/-- The end of S5 by its parts. -/
theorem inHalter_eq (t : State) :
    let g := toStage .halter { t with boot := { t.boot with state := .halter } }
    let h := { g with halter := { g.halter with enteredTc := g.time.tc, enteredAt := g.mono } }
    inHalter t = stateChange 0x0A01 [] (finishAll 0xA001 (fun s => .done s []) (bump (cid 15 8 5) 0 0 h)) := rfl

/-- A wake noted before the end of S1 rewinds the entry (R455). -/
theorem stageEnd_rewinds {s : State} {w : Nat} (h : s.halter.stage = .s1) (hw : s.halter.wake = some w) (lost : List Upset) :
    stageEnd lost s = rewind 1 lost s := by
  simp only [stageEnd, h, hw, reduceCtorEq, if_false, Option.isSome_some, if_true, abortPoint]

theorem rewind_of_cause {s : State} {w : Nat} (hw : s.halter.wake = some w) (ap : Nat) (lost : List Upset) :
    let p := powerDomains (s.halter.gated.filter fun d => !s.halter.before.contains d) lost s
    let out := { p with halter := { p.halter with
      stage := .outside, grantMode := false, cache := [], buffer := [], wake := none, refresh := false, wl1Stopped := false } }
    rewind ap lost s = safeAfter (finishAll 0xA002 (fun s => .done s [0])
      (finishAll 0xA001 (fun s => .ended s .aborted [wd ap, wd w]) (bump (cid 15 8 6) 0 ap (wakeLanes (lanesFollow out))))) := by
  unfold rewind
  rw [hw]
  rfl

theorem halterWake_of_cause {s : State} {w : Nat} (hw : s.halter.wake = some w) (lost : List Upset) :
    let p := stitchRestart (ageAll (powerDomains s.halter.gated lost s))
    let h := { p.halter with
      stage := .outside, grantMode := false, cache := [], buffer := [], wake := none, refresh := false, wl1Stopped := false }
    let t := bump (cid 15 8 7) 0 w (wakeLanes (lanesFollow { p with halter := h, boot := { p.boot with state := .ready } }))
    let d := s.time.tc - s.halter.enteredTc
    let e := finishAll 0xA002 (fun s => .done s [lostBits s, wd (d / tcSecond), wd (d / nsUnit % 1000000000)]) t
    halterWake lost s = safeAfter (stateChange 0x0A02 [wd w, lostBits e] e) := by
  unfold halterWake halterTime
  rw [hw]
  rfl

/-- Settles O39: one lemma for each end of a stage, and the rewind and the wake by the cause that was noted. -/
theorem halterEntersAndWakes : Obligations.HalterEntersAndWakes := by
  unfold Obligations.HalterEntersAndWakes
  refine ⟨?_, ?_, ?_, ?_, ?_, ?_⟩
  · refine starts (fun _ _ => rfl) (fun c f _ h => ?_)
    obtain ⟨hb, hs, he, hv, hr⟩ := h
    refine refuseIf_passes (by simp [hb, hs]) (refuseIf_passes (by simp [he]) (refuseIf_passes ?_ (refuseIf_passes (by simp [hr]) rfl)))
    simpa using fun a b hab => hv (a, b) hab
  · exact starts (fun _ _ => rfl) (fun c f _ h => refuseIf_passes (by simpa using h) rfl)
  · intro lost s hw stageOf emptyPath flushed
    obtain ⟨h1, h2, h3⟩ := stageEnd_of_no_wake hw lost
    refine ⟨fun h => ?_, fun h hp hs => ?_, fun h hp hq => ?_, fun h hf => ?_, fun h hg => ?_⟩
    · rw [exec_halterStageEnd (by simp [stageDone, h]), h1 h]
      rfl
    · have hwidth : (List.range 2).all (fun i => !(sideAt s i).enable || (sideAt s i).txWidth = 3) = true := by
        refine List.all_eq_true.mpr fun i hi => ?_
        have := hs i (List.mem_range.mp hi)
        cases he : (sideAt s i).enable with
        | false => rfl
        | true => simp [this he]
      have hd : stageDone s = true := by
        simp only [stageDone, h, pathEmpty_of hp, hwidth, Bool.and_self]
      rw [exec_halterStageEnd hd, h2 h]
      rfl
    · have hd : stageDone s = true := by
        have hqueues : queuesEmpty s = true := by simpa [queuesEmpty] using fun a b hab => hq (a, b) hab
        simp only [stageDone, h, pathEmpty_of hp, hqueues, Bool.and_self]
      rw [exec_halterStageEnd hd, h3 h]
      rfl
    · have hflushed : flushed = flushedTree s := by
        unfold flushedTree
        rfl
      rw [hflushed] at hf ⊢
      rw [exec_halterStageEnd (by simp [stageDone, h]), stageEnd_flushes h hf]
      rfl
    · exact (exec_halterStageEnd (by simp [stageDone, h]) lost).trans (congrArg _ (congrArg pumpAll ((stageEnd_gates h hg lost).trans (inHalter_eq _))))
  · intro lost w s hw p out told hs
    exact (exec_halterStageEnd (by simp [stageDone, hs]) lost).trans
      (congrArg _ (congrArg pumpAll ((stageEnd_rewinds hs hw lost).trans (rewind_of_cause hw 1 lost))))
  · intro s hs ht
    have hp : passed s s.halter.since (5 * ms) = true := decide_eq_true ht
    exact congrArg Host.Outcome.next (whenever_of (by simp [hs, hp]) _ s)
  · intro lost w s hs hw ht
    have hp : passed s s.halter.since (40 * us) = true := decide_eq_true ht
    exact congrArg Host.Outcome.next ((whenever_of (by simp [wakeDue, hs, hw, hp]) _ s).trans (congrArg pumpAll (halterWake_of_cause hw lost)))

end Sys2Proof.Machine
end

section
/-! PROOFS. Power domains, lost banks and the keeper's frames (R441 to R449, R458, R459). -/

namespace Sys2Proof.Machine

/-! ## Domains -/

/-- One gated domain is powered. -/
theorem powerDomains_singleton {d : Nat} {s : State} (h : s.halter.gated.contains d = true) (lost : List Upset) :
    let t := { s with halter := { s.halter with gated := s.halter.gated.filter (· ≠ d) } }
    powerDomains [d] lost s = forEach ((lostBanks lost).filter fun b => bankDomain b = d) bankLost
      (forEach (domainIslands d) startCycle (if d = 0xF0 then coreRestart t else t)) := by
  have hmine : [d].filter s.halter.gated.contains = [d] := by rw [List.filter_cons_of_pos h, List.filter_nil]
  have hc : ∀ x, [d].contains x = decide (x = d) := fun x => by simp
  have hflat : [d].flatMap domainIslands = domainIslands d := by simp
  unfold powerDomains
  dsimp only
  simp only [hmine, hc, hflat, decide_not, eq_comm (a := 0xF0), decide_eq_true_eq]

/-- A slice that still holds frames is marked only. -/
theorem gateLeaving_of_frames {d : Nat} {s : State} (h : sliceEmpty s d = false) :
    gateLeaving { s with halter := { s.halter with leaving := [d] } } = { s with halter := { s.halter with leaving := [d] } } := by
  have h' : sliceEmpty { s with halter := { s.halter with leaving := [d] } } d = false := h
  unfold gateLeaving
  dsimp only
  rw [List.filter_cons_of_neg (by simp [h']), List.filter_nil]
  rfl

section
variable {c : Ctx} {f : State} {d : Nat}

/-- DOMAIN_CONTROL with ON 0, past its grounds. -/
theorem runDomainControl_off (hd : fld (c.w 0) 7 0 = d) (hi : isDomain d = true) (ho : bit (c.w 0) 31 = false)
    (hp : offPermitted f d = true) (hh : f.halter.stage = .halter → powered f d = false) : runDomainControl c f =
    if !powered f d then .done f [wd (b2n (powered f d))]
    else if d < 4 then
      let t := gateLeaving { f with halter := { f.halter with leaving := f.halter.leaving ++ [d] } }
      .done t [wd (b2n (powered t d))]
    else .done (updateSf (lanesFollow (gateOff d f))) [wd (b2n (powered (updateSf (lanesFollow (gateOff d f))) d))] := by
  subst hd
  refine refuseIf_passes (by simp [hi]) ?_
  rw [if_neg (by simp [ho])]
  refine refuseIf_passes ?_ rfl
  rw [hp]
  by_cases h : f.halter.stage = .halter
  · simp [hh h]
  · simp [h]

end

/-! ## Lost banks -/

theorem mem_lostBanks (ups : List Upset) (b : Nat) :
    b ∈ lostBanks ups ↔ ∃ u ∈ ups, u.place < 1824 ∧ crc64 u.bytes ≠ 0 ∧ macroBank u.place = b := by
  simp [lostBanks, and_assoc]

/-! ## The keeper -/

/-- A frame that the keeper may take is judged by what it is. -/
theorem exec_keeperFrame {id : Nat} {x : Flight} {s : State} (hx : flightAt s id = some x) (hp : keeperPath s = true)
    (hi : x.place = .ingress) (hv : x.void = false) (hb : ∀ f ∈ s.halter.buffer, f.frame ≠ id)
    (he : keeperEarlier s id x.frame.source = false) : exec (.keeperFrame id) s = .next (
      (if x.frame.poison then dropCounted cDropChannel 9 0x4D id
       else if (bankOf s x.frame).isNone then dropEpoch id else keeperTake id x) s) := by
  have hbuf : s.halter.buffer.any (fun f => f.frame = id) = false := by simpa using hb
  change execKeeperFrame id s = _
  unfold execKeeperFrame
  rw [hx]
  exact congrArg Host.Outcome.next (whenever_of (by simp [hp, hi, hv, he, hbuf]) _ s)

theorem exec_keeperFrame_waits {id : Nat} {x : Flight} {s : State} (hx : flightAt s id = some x)
    (he : keeperEarlier s id x.frame.source = true) : exec (.keeperFrame id) s = .next s := by
  change execKeeperFrame id s = _
  unfold execKeeperFrame
  rw [hx]
  exact congrArg Host.Outcome.next (whenever_of_false (by simp [he]) _ s)

/-- The keeper takes a frame that no outcome is known for: it is over its limits, or held as a wake event (R447, R448). -/
theorem keeperTake_unknown {id : Nat} {x : Flight} {s : State} (hk : keeperLookup x s = none) (hc : x.chan = none) :
    let t := frameIn 0x4D x.frame.world x.frame.len s
    keeperTake id x s =
      if 16 * (quotaAt t x.frame.world).ondie < keeperBytes t (· = x.frame.world) + x.frame.len
        || 8388608 < keeperBytes t (fun _ => true) + x.frame.len then bumpW (cid 15 8 2) 0 0 x.frame.world (dropFlight id t)
      else
        let held : KeeperFrame := { frame := id, len := x.frame.len, world := x.frame.world, hit := none, fifo := 0 }
        let u := { t with halter := { t.halter with buffer := t.halter.buffer ++ [held] } }
        let v := noteWake 2 (countEvent 0x4D 0x101 x.frame.world 1 u)
        keeperRun (if 7864320 < keeperBytes v (fun _ => true) then noteWake 4 v else v) := by
  unfold keeperTake
  rw [hk, hc]
  rfl

/-- A frame that leaves the keeper: the buffer without it, and its direction busy for its bytes at 10 Gb/s. -/
theorem keeperSend_of {root : NodeId} {k : KeeperFrame} {o : Outcome15} {x : Flight} {s : State} (hx : flightAt s k.frame = some x) :
    ∃ t, keeperSend root k o s = countEvent 0x4D 0x100 o.world 1 (sendFrame root (keeperQueue o) (keeperFrame x.frame o)
      (endFlight k.frame (epochOut x.frame.epoch (leaveVersion k.frame t)))) ∧
      t.halter.buffer = s.halter.buffer.filter (fun f => f.frame ≠ k.frame) ∧
      mgetD t.halter.sendAt root.side 0 = s.mono + x.frame.len * 800 := by
  unfold keeperSend
  rw [hx]
  refine ⟨_, rfl, ?_, ?_⟩
  · simp [keeperBusy]
  · simp [keeperBusy, keeperFrame]

/-- Settles O40: DOMAIN_CONTROL past its grounds, the power-up of one domain, and the keeper's judgement of a frame. -/
theorem domainsGateAndKeeperForwards : Obligations.DomainsGateAndKeeperForwards := by
  unfold Obligations.DomainsGateAndKeeperForwards
  refine ⟨?_, ?_, ?_, ?_, ?_, ?_, ?_, ?_, ?_, ?_, ?_⟩
  · exact endsOk (fun _ _ => rfl) (fun c f _ h => refuseIf_passes (by simp [h.1]) (if_pos h.2)) (fun _ _ _ => by simp)
  · refine endsOk (fun _ _ => rfl) (fun c f _ h => ?_) (fun _ _ _ => by simp)
    obtain ⟨hi, ho, hp, hoff⟩ := h
    refine (runDomainControl_off rfl hi ho hp (fun _ => hoff)).trans ?_
    rw [hoff]
    rfl
  · refine endsOk (fun _ _ => rfl) (fun c f _ h => ?_) (fun _ _ _ => by simp)
    obtain ⟨h4, hi, ho, hon, hh, hp⟩ := h
    refine (runDomainControl_off rfl hi ho hp (fun h => absurd h hh)).trans ?_
    rw [if_neg (by simp [hon]), if_neg (Nat.not_lt.mpr h4)]
  · refine endsOk (fun _ _ => rfl) (fun c f _ h => ?_) (fun _ _ _ => by simp)
    obtain ⟨h4, ho, hon, hl, hh, hp, hframes⟩ := h
    have hi : isDomain (fld (c.w 0) 7 0) = true := by simp [isDomain, h4]
    refine (runDomainControl_off rfl hi ho hp (fun h => absurd h hh)).trans ?_
    rw [if_neg (by simp [hon]), if_pos h4, hl, List.nil_append]
    dsimp only
    rw [gateLeaving_of_frames hframes]
    change HRes.done _ [wd (b2n (powered f (fld (c.w 0) 7 0)))] = _
    rw [hon]
    rfl
  · exact fun d lost s hs hg => congrArg Host.Outcome.next ((whenever_of (by simp [hs]) _ s).trans (powerDomains_singleton hg lost))
  · exact mem_lostBanks
  · intro b s hb hl t
    unfold bankLost
    rw [hl, Bool.or_false, if_neg (by simpa using hb)]
    rfl
  · intro id x s hx hp hi hv hb he hc hpoison hbank t mine hk
    have hnone : (bankOf s x.frame).isNone = false := by simpa [← Option.not_isSome] using hbank
    have hrun : exec (.keeperFrame id) s = .next (keeperTake id x s) := by
      rw [exec_keeperFrame hx hp hi hv hb he, hpoison, hnone]
      rfl
    rw [hrun, keeperTake_unknown hk hc]
    refine ⟨fun hover => ?_, fun h1 h2 => ?_⟩
    · exact congrArg _ (if_pos (Bool.or_eq_true_iff.mpr (.inl (decide_eq_true hover))))
    · refine congrArg _ (if_neg ?_)
      rw [Bool.or_eq_true_iff, decide_eq_true_eq, decide_eq_true_eq]
      exact not_or.mpr ⟨Nat.not_lt.mpr h1, Nat.not_lt.mpr h2⟩
  · intro id x s hx hp hi hv hb
    refine ⟨exec_keeperFrame_waits hx, fun he hpoison => ?_, fun he hpoison hbank => ?_⟩
    · rw [exec_keeperFrame hx hp hi hv hb he, hpoison]
      rfl
    · rw [exec_keeperFrame hx hp hi hv hb he, hpoison, hbank]
      rfl
  · exact fun root k o x s hx => keeperSend_of hx
  · intro port s hp hs
    exact ⟨(onObject_of (by simp [hp]) _).trans (congrArg _ (whenever_of (by simp [hs]) _ s)),
      (onObject_of (by simp [hp]) _).trans (congrArg _ (whenever_of (by simp [hs]) _ s))⟩

end Sys2Proof.Machine
end

section
/-! PROOFS. The fault manager: reports, the pending queue, the fault table, and FAULT_READ and FAULT_CLEAR (R465 to R475). -/

namespace Sys2Proof.Machine

/-! ## Reports -/

theorem classed_of_low {e : Err} (h : e.cls < 2) : classed e = e := if_neg (by simp [Nat.ne_of_lt h])

theorem strikes_of_low {e : Err} (h : e.cls < 2) (s : State) : strikes e s = s := by
  unfold strikes
  rw [classed_of_low h, if_neg (by simp [Nat.ne_of_lt h])]

theorem correction_eq (cplx unit inst code : Nat) (s : State) :
    correction cplx unit inst code s = if code % 256 = 2 then correction cplx unit inst code s else s := by
  by_cases h : code % 256 = 2
  · rw [if_pos h]
  · rw [if_neg h, correction]
    split
    · exact if_neg h
    · rfl

theorem poisonFlight_of {id : Nat} {x : Flight} {s : State} (h : flightAt s id = some x) :
    poisonFlight id s = setFlight id { x with frame := { x.frame with poison := true } } s := by
  unfold poisonFlight
  rw [h]

/-- An error below unit-fatal that finds room and an empty channel goes to the pending queue (R466). -/
theorem report_low {e : Err} {s : State} (h : e.cls < 2) (hq : s.flt.queue.length < 64)
    (hc : mgetD s.flt.channels (collectorOf e) [] = []) : report e s = enqueueErr { e with tc := s.time.tc } s := by
  have hcol : collectorOf { e with tc := s.time.tc } = collectorOf e := rfl
  have hlatched : (decide (2 ≤ e.cls) && !e.clear) = false := by simp [Nat.not_le.mpr h]
  unfold report
  dsimp only
  rw [strikes_of_low (e := { e with tc := s.time.tc }) h, hlatched]
  simp only [Bool.false_eq_true, if_false]
  rw [hcol, hc]
  exact if_pos (by simp [hq])

theorem takeUp_of_one {e : Err} {s : State} (hh : s.flt.handling = none) (hq : s.flt.queue = [e]) :
    takeUp s = { s with flt := { s.flt with handling := some e, queue := [] } } := by
  unfold takeUp
  rw [hh, hq]
  simp [nextErr, dropFirst]

theorem takeUp_of_handling {h : Err} {s : State} (hh : s.flt.handling = some h) : takeUp s = s := by
  unfold takeUp
  rw [hh]
  rfl

theorem takeUp_of_empty {s : State} (hq : s.flt.queue = []) : takeUp s = s := by
  unfold takeUp
  rw [hq]
  split <;> rfl

/-- An error that finds nothing waiting is taken up at once (R467). -/
theorem enqueueErr_alone {e : Err} {s : State} (hh : s.flt.handling = none) (hq : s.flt.queue = []) :
    enqueueErr e s = { s with flt := { s.flt with handling := some e } } := by
  have hesc : escalates e s = false := by simp [escalates, hh, hq]
  unfold enqueueErr
  rw [hesc, if_neg Bool.false_ne_true, takeUp_of_one (e := e) (s := { s with flt := { s.flt with queue := s.flt.queue ++ [e] } }) hh (by rw [hq]; rfl), ← hq]

/-- A corrected error from the source of the one under handling is escalated to deferred (R468). -/
theorem enqueueErr_escalated {e h : Err} {s : State} (h0 : e.cls = 0) (hc : e.clear = false) (hhc : h.clear = false)
    (hs : sameSource h e = true) (hh : s.flt.handling = some h) :
    (enqueueErr e s).flt = { s.flt with queue := s.flt.queue ++ [{ e with cls := 1, esc := true }] } := by
  have hesc : escalates e s = true := by simp [escalates, hc, hhc, hh, hs]
  have hcls : min 3 (e.cls + 1) = 1 := by rw [h0]; rfl
  unfold enqueueErr
  dsimp only
  rw [hesc, if_pos rfl, hcls, if_neg (by simp [h0]), strikes_of_low (e := { e with cls := 1, esc := true }) Nat.one_lt_two, takeUp_of_handling (h := h)]
  · rfl
  · exact hh

/-! ## The manager's round -/

theorem stickyPoll_of_none {s : State} (h : s.flt.sticky = []) : stickyPoll s = s := by
  unfold stickyPoll
  dsimp only
  rw [h]
  rfl

theorem stickyPoll_of_one {e : Err} {s : State} (h : s.flt.sticky = [e]) (hq : s.flt.queue.contains e = false) (hh : s.flt.handling ≠ some e)
    (hl : s.flt.queue.length < 64) : stickyPoll s = enqueueErr e (dropFromChannel e { s with flt := { s.flt with sticky := [] } }) := by
  have hf : [e].filter (· ≠ e) = [] := by simp
  unfold stickyPoll
  dsimp only
  rw [h, forEach_singleton, if_neg (by rw [hq]; simp [hh]), if_neg (Nat.not_le.mpr hl), h, hf]

/-- Channels that hold nothing and have lost nothing give nothing to the queue. -/
theorem drainChannels_of_empty {s : State} (hc : ∀ e ∈ s.flt.channels, e.2 = []) (ho : ∀ e ∈ s.flt.overflow, e.2 = 0) (fuel : Nat) :
    drainChannels fuel s = s := by
  have hchan : s.flt.channels.find? (fun e => !e.2.isEmpty) = none := List.find?_eq_none.mpr fun e he => by simp [hc e he]
  have hover : s.flt.overflow.find? (fun e => e.2 ≠ 0) = none := List.find?_eq_none.mpr fun e he => by simp [ho e he]
  cases fuel with
  | zero => rfl
  | succ n =>
    rw [drainChannels]
    split
    · rfl
    · split
      · next heq => rw [hchan] at heq; cases heq
      · split
        · next heq => rw [hover] at heq; cases heq
        · rfl

theorem faultHandling_of_nothing {s : State} (hh : s.flt.handling = none) (hq : s.flt.queue = []) (hc : ∀ e ∈ s.flt.channels, e.2 = [])
    (ho : ∀ e ∈ s.flt.overflow, e.2 = 0) : faultHandling s = s := by
  unfold faultHandling
  rw [hh]
  dsimp only
  rw [drainChannels_of_empty hc ho, takeUp_of_empty hq]

theorem faultHandling_of_error {e : Err} {s : State} (h : s.flt.handling = some e) : faultHandling s =
    takeUp (drainChannels 1024 (handle e { s with flt := { s.flt with
      handling := none, sticky := s.flt.sticky.filter fun x => { x with esc := e.esc, cls := e.cls } ≠ e } })) := by
  unfold faultHandling
  rw [h]

theorem exec_faultHandling {s : State} (h : managerRuns s = true) : exec .faultHandling s = .next (followAlert (faultHandling s)) :=
  congrArg Host.Outcome.next (whenever_of h _ s)

/-- An error that is handled outside the safe state is logged, and its class acts (R465). -/
theorem handle_outside_safe {e : Err} {s : State} (hc : e.clear = false) (hs : s.boot.state ≠ .safe) (hf : s.flt.frozen = false) :
    handle e s = classAction (classed e) (logRaised (classed e) s) := by
  simp [handle, hc, hs, hf]

theorem classAction_of_low {e : Err} (h : e.cls < 2) (s : State) : classAction e s = s := by
  unfold classAction
  rw [if_neg (Nat.ne_of_lt h), if_neg (by simp [Nat.ne_of_lt (Nat.lt_succ_of_lt h)])]

theorem classed_of_not_critical {e : Err} (h : critical e.cplx e.unit = false) : classed e = e := if_neg (by simp [h])

/-- An error without an entry takes one of its own (R473). -/
theorem raisedEntry_none {e : Err} {s : State} (hs : s.boot.state ≠ .safe) (hf : s.flt.frozen = false) :
    raisedEntry s e none = {
      cls := e.cls, active := 1 ≤ e.cls, esc := e.esc, safe := false, cplx := e.cplx, unit := e.unit, inst := e.inst,
      res := e.res, code := e.code, count := 1, recSeq := s.evr.nextSeq, firstS := lo32 (e.tc / (1000000000 * nsUnit)),
      firstNs := wd (e.tc / nsUnit % 1000000000), lastS := lo32 (e.tc / (1000000000 * nsUnit)), detail := e.detail } := by
  have hsafe : (decide (s.boot.state = .safe) || s.flt.frozen) = false := by simp [hs, hf]
  unfold raisedEntry
  dsimp only
  rw [hsafe]
  rfl

theorem logRaised_of_index {e : Err} {i : Nat} {s : State} (h : entryIndex (bump (cid 16 3 0) 11 e.cls s) e = some i) :
    let t := bump (cid 16 3 0) 11 e.cls s
    let x := raisedEntry t e (mget t.flt.table i)
    logRaised e s = faultNote i x e.cls true (recordEv 0x0002 e.code e.cplx e.unit e.inst e.world (entryWords x)
      { t with flt := { t.flt with table := mset t.flt.table i x } }) := by
  have h' : entryIndex (bump (cFault 0) 11 e.cls s) e = some i := h
  unfold logRaised
  dsimp only
  rw [h']
  rfl

/-! ## FAULT_READ and FAULT_CLEAR -/

theorem length_entryAt (s : State) (i : Nat) : (entryAt s i).length = 8 := by
  unfold entryAt
  split
  · rfl
  · exact List.length_replicate

theorem runFaultClear_inactive {c : Ctx} {f : State} {x : FaultEntry} (h : mget f.flt.table (fld (c.w 0) 7 0) = some x)
    (ho : x.outOfService = false) (ha : x.active = false) :
    runFaultClear c f = .done { f with flt := { f.flt with table := mdel f.flt.table (fld (c.w 0) 7 0) } } [] := by
  unfold runFaultClear
  dsimp only
  rw [h]
  simp [ho, ha]

theorem runFaultClear_retries {c : Ctx} {f : State} {x : FaultEntry} (h : mget f.flt.table (fld (c.w 0) 7 0) = some x)
    (ho : x.outOfService = true) : runFaultClear c f = .done (markOut (x.cplx, x.unit, x.inst) false f) [] := by
  unfold runFaultClear
  dsimp only
  rw [h]
  simp [ho]

/-- Settles O41: a report, the pending queue, the manager's round and the table's entry are one lemma each. -/
theorem faultsAreLoggedReadAndCleared : Obligations.FaultsAreLoggedReadAndCleared := by
  unfold Obligations.FaultsAreLoggedReadAndCleared
  refine ⟨?_, ?_, ?_, ?_, ?_, ?_, ?_, ?_, ?_, ?_, ?_, ?_, ?_, ?_⟩
  · intro cplx unit inst res cls code detail s hu hr hcode hcol e
    have hok : (isUnit cplx unit inst && decide (res < 2 ^ 24) && decide (code / 256 = cplx) && collectorCode code cls) = true := by
      rw [hu, hcol, decide_eq_true hr, decide_eq_true hcode]
      rfl
    refine ⟨(onObject_of hok _).trans (congrArg Host.Outcome.next (congrArg (raiseNow e) (correction_eq cplx unit inst code s))), ?_⟩
    intro id x hx h1 hcls
    refine (onObject_of hok _).trans (congrArg Host.Outcome.next ?_)
    have hpoison : (decide (code % 256 = 1) && decide (cls = 1)) = true := by simp [h1, hcls]
    have hlow : (classed e).cls ≠ 2 := by
      rw [classed_of_low (show cls < 2 by omega)]
      exact show cls ≠ 2 by omega
    dsimp only
    rw [if_pos hpoison, poisonFlight_of hx, correction_eq, if_neg (by omega)]
    exact congrArg (report e) (if_neg hlow)
  · intro e s hcls hl hc hh hq
    rw [report_low hcls hl hc, enqueueErr_alone hh hq]
  · intro e h s h0 hc hhc hs hch hh hq
    rw [report_low (by omega) (by rw [hq]; decide) hch, enqueueErr_escalated (e := { e with tc := s.time.tc }) (h := h) h0 hc hhc hs hh, hq]
    rfl
  · intro s h
    refine congrArg Host.Outcome.next ?_
    unfold whenever
    split
    · exact stickyPoll_of_none h
    · rfl
  · exact fun e s hm h hq hh hl => congrArg Host.Outcome.next ((whenever_of hm _ s).trans (stickyPoll_of_one h hq hh hl))
  · exact fun s h => ⟨congrArg Host.Outcome.next (whenever_of_false h _ s), congrArg Host.Outcome.next (whenever_of_false h _ s)⟩
  · intro s hm hh hq hc ho
    rw [exec_faultHandling hm, faultHandling_of_nothing hh hq hc ho]
  · intro e s hm hh
    rw [exec_faultHandling hm, faultHandling_of_error hh]
  · intro e s hc hs hf
    rw [handle_outside_safe hc hs hf]
    refine ⟨fun h => ?_, fun h hn => ?_⟩
    · rw [classed_of_low h, classAction_of_low h]
    · rw [classed_of_not_critical hn]
      exact if_pos h
  · intro e i s hi hn hs hf
    have htable : mget (bump (cid 16 3 0) 11 e.cls s).flt.table i = none := hn
    refine ⟨_, logRaised_of_index hi, ?_⟩
    rw [htable, raisedEntry_none (s := bump (cid 16 3 0) 11 e.cls s) hs hf]
    exact ⟨rfl, rfl, rfl, rfl, rfl, rfl, rfl, rfl, rfl, rfl, rfl, rfl⟩
  · refine endsOk (fun _ _ => rfl) (fun c f _ h => ?_) (fun c f _ => by simp [length_entryAt])
    change runFaultRead c f = _
    unfold runFaultRead
    dsimp only
    rw [if_neg (by simp [h])]
  · refine endsData (fun _ _ => rfl) (by decide) (fun c f _ h => ?_)
    change runFaultRead c f = _
    unfold runFaultRead
    dsimp only
    rw [if_pos h]
  · exact fun x => endsOk (fun _ _ => rfl) (fun c f _ h => runFaultClear_inactive h.1 h.2.1 h.2.2) (fun _ _ _ => by simp)
  · refine fun x => endsOk (fun _ _ => rfl) (fun c f _ h => (runFaultClear_retries h.1 h.2).trans ?_) (fun _ _ _ => by simp)
    simp only [markOut, Bool.and_eq_true, decide_eq_true_eq, and_assoc]

end Sys2Proof.Machine
end

section
/-! PROOFS. Unit-fatal errors, recovery and the safe state (R54, R469 to R472, R497). -/

namespace Sys2Proof.Machine

/-! ## Units -/

theorem isolate_fresh {cplx unit inst : Nat} {s : State} (h : unitFailed s cplx unit inst = false) :
    let t := { s with flt := { s.flt with failed := s.flt.failed ++ [(cplx, unit, inst)] } }
    (cplx ≠ 1 → cplx ≠ 4 → cplx ≠ 5 → cplx ≠ 7 → isolate cplx unit inst s = t) ∧
    (cplx = 7 → isolate cplx unit inst s = abortWhere (fun a => quarterOf a.traffic = inst) t) := by
  have hf : s.flt.failed.contains (cplx, unit, inst) = false := h
  unfold isolate
  dsimp only
  rw [hf, if_neg Bool.false_ne_true]
  refine ⟨fun h1 h4 h5 h7 => ?_, fun h7 => ?_⟩
  · rw [if_neg h1, if_neg (by simp [h4]), if_neg h5, if_neg h7]
  · subst h7
    rfl

/-- A unit that waits for its recovery is tried (R469). -/
theorem exec_unitRecovery {cplx unit inst : Nat} {s : State} (hu : isUnit cplx unit inst = true) (hm : managerRuns s = true)
    (hf : unitFailed s cplx unit inst = true)
    (ho : ∀ e ∈ s.flt.table, (e.2.cplx, e.2.unit, e.2.inst) = (cplx, unit, inst) → e.2.outOfService = false)
    (hs : s.boot.state ≠ .safe) (hz : s.flt.frozen = false) (ok : Bool) :
    exec (.unitRecovery cplx unit inst ok) s = .next (unitRecovery cplx unit inst ok s) := by
  have hk : keptOut s (cplx, unit, inst) = false := by
    refine List.any_eq_false.mpr fun e he => ?_
    by_cases h : (e.2.cplx, e.2.unit, e.2.inst) = (cplx, unit, inst)
    · simp [ho e he h]
    · rw [decide_eq_false h]
      exact Bool.false_ne_true
  exact (onObject_of hu _).trans (congrArg _ (whenever_of (by simp [hm, hf, hk, hs, hz]) _ s))

/-! ## The safe state -/

theorem freeze_eq (s : State) : freeze s = dropWaits (forEach (s.host.pairs.map Prod.fst) abortIdle { s with flt := { s.flt with frozen := true } }) :=
  rfl

theorem replyTo_flt (p : Packet) (st : Status) (ws : List Word) (n : Nat) (s : State) : (replyTo p st ws n s).flt = s.flt := by
  unfold replyTo
  dsimp only
  (repeat' split) <;> simp

/-- The end of a command that waits leaves the fault manager. -/
theorem abortIdle_flt (q : Nat) (s : State) : (abortIdle q s).flt = s.flt := by
  unfold abortIdle
  split
  · rfl
  · split
    · rfl
    · unfold finish
      split
      · rfl
      · dsimp only
        split
        · rfl
        · exact replyTo_flt ..

theorem freeze_flt (s : State) : (freeze s).flt = { s.flt with frozen := true } :=
  (forEach_keeps State.flt _ _ abortIdle_flt _).trans rfl

theorem triggerSafe_outside {s : State} (h : s.halter.stage = .outside) (code : Nat) :
    triggerSafe code s = freeze { s with flt := { s.flt with cause := code } } := if_pos h

/-- In Halter and during entry a module-fatal error is first a wake event (R470). -/
theorem triggerSafe_wakes {s : State} (h : s.halter.stage ≠ .outside) (hw : s.halter.wake = none) (code : Nat) :
    (triggerSafe code s).halter.wake = some 5 ∧ (triggerSafe code s).flt = { s.flt with cause := code } := by
  have ht : triggerSafe code s = noteWake 5 { s with flt := { s.flt with cause := code } } := if_neg h
  rw [ht]
  refine ⟨?_, noteWake_flt _ _⟩
  unfold noteWake
  rw [if_neg (by simp [h, hw])]

/-- What the log of an error leaves: the state of the boot and of Halter, and whether the configuration is frozen. -/
theorem faultNote_keeps (i : Nat) (x : FaultEntry) (cls : Nat) (r : Bool) (s : State) : (faultNote i x cls r s).boot = s.boot ∧
    (faultNote i x cls r s).halter = s.halter ∧ (faultNote i x cls r s).flt.frozen = s.flt.frozen := by
  unfold faultNote
  dsimp only
  (repeat' split) <;> simp

theorem logRaised_keeps (e : Err) (s : State) : (logRaised e s).boot = s.boot ∧ (logRaised e s).halter = s.halter ∧
    (logRaised e s).flt.frozen = s.flt.frozen := by
  unfold logRaised
  dsimp only
  split
  · obtain ⟨h1, h2, h3⟩ := faultNote_keeps _ _ e.cls true _
    refine ⟨h1.trans ?_, h2.trans ?_, h3.trans ?_⟩ <;> simp
  · simp

/-- A failure of the handler freezes the module (R470). -/
theorem handle_moduleFatal {e : Err} {s : State} (h3 : e.cls = 3) (hc : e.clear = false) (hs : s.boot.state ≠ .safe)
    (hf : s.flt.frozen = false) (ho : s.halter.stage = .outside) :
    handle e s = freeze { logRaised e s with flt := { (logRaised e s).flt with cause := e.code } } := by
  obtain ⟨hboot, hhalter, hfrozen⟩ := logRaised_keeps e s
  have hclassed : classed e = e := if_neg (by simp [h3])
  rw [handle_outside_safe hc hs hf, hclassed, classAction, if_neg (by simp [h3]), if_pos (by simp [h3, hboot, hs, hfrozen, hf])]
  exact triggerSafe_outside (by rw [hhalter]; exact ho) _

/-- Settles O42: the log of an error leaves the state of the module, so a module-fatal error freezes it; the rest follows the
branches of isolation, recovery and entry to the safe state. -/
theorem unitsRecoverAndTheSafeStateIsEntered : Obligations.UnitsRecoverAndTheSafeStateIsEntered := by
  unfold Obligations.UnitsRecoverAndTheSafeStateIsEntered
  refine ⟨?_, ?_, ?_, ?_, ?_, ?_⟩
  · exact fun e s => rfl
  · exact fun cplx unit inst s h => isolate_fresh h
  · exact fun cplx unit inst s hu hm hf ho hs hz => ⟨exec_unitRecovery hu hm hf ho hs hz true, exec_unitRecovery hu hm hf ho hs hz false⟩
  · exact fun code s => ⟨fun h => triggerSafe_outside h code, fun h hw => triggerSafe_wakes h hw code⟩
  · intro s hs hf ho
    refine ⟨_, congrArg Host.Outcome.next ((whenever_of (by simp [hs, hf]) _ s).trans (handle_moduleFatal rfl rfl hs hf ho)), ?_⟩
    rw [freeze_flt]
    exact ⟨rfl, rfl⟩
  · exact fun s hf hs => congrArg Host.Outcome.next (whenever_of (by simp [hf, hs]) _ s)

end Sys2Proof.Machine
end

section
/-! PROOFS. Bursts: what a granted burst does by its verdict, what one that is not good costs its terminal, and the timeouts of a loss
and of a fragment. -/

namespace Sys2Proof.Machine

/-! ## The verdict (R105) -/

/-- A burst of a terminal that has its ONU-ID takes its reset pulse and passes. -/
theorem exec_burstReceived {p map start i : Nat} {m : BwMap} {b : Burst5} {t : Terminal} {rx : BurstRx} {s : State}
    (hm : (mapsAt s p).out.find? (fun m => m.num = map) = some m) (hp : powered s (0x80 + p) = true)
    (hb : m.bursts.find? (fun b => b.start = start && b.verdict = 0 && (rx.granted.isNone || b.term = rx.granted)) = some b)
    (hi : b.term = some i) (ht : termAt s i = some t) (ho : hasOnu t = true) :
    exec (.burstReceived p map start rx) s = .next (closeMap p map (burstPassed p map i b t rx (burstReset p map start s))) := by
  refine (?_ : execBurstReceived p map start rx s = _)
  unfold execBurstReceived
  rw [hm]
  dsimp only
  rw [hp, hb]
  dsimp only
  rw [hi, Option.getD_some, ht]
  dsimp only
  rw [ho]
  rfl

theorem burstVerdict_good {s : State} {p m i : Nat} {b : Burst5} {rx : BurstRx}
    (h : delimFound s p m b.window.isSome rx = true ∧ rx.hecOk = true ∧ rx.onu = onuId i) : burstVerdict s p m i b rx = 1 := by
  obtain ⟨hf, he, ho⟩ := h
  unfold burstVerdict
  dsimp only
  rw [if_pos (by simp [hf, he, ho])]

theorem burstVerdict_bad {s : State} {p m i : Nat} {b : Burst5} {rx : BurstRx}
    (h : ¬(delimFound s p m b.window.isSome rx = true ∧ rx.hecOk = true ∧ rx.onu = onuId i)) :
    burstVerdict s p m i b rx =
      if delimFound s p m b.window.isSome rx = false ∧ energySamples s p m b rx = 0 then 2
      else if 0 < energySamples s p m b rx then 3 else 4 := by
  unfold burstVerdict
  dsimp only
  rw [if_neg (by simpa only [Bool.and_eq_true, decide_eq_true_eq, and_assoc] using h)]
  simp [hasEnergy]

/-- A burst that is not good, by whether it was granted for ranging. -/
theorem burstPassed_bad {s : State} {p map i v : Nat} {b : Burst5} {t : Terminal} {rx : BurstRx} (hv : burstVerdict s p map i b rx = v)
    (h1 : v ≠ 1) :
    let loud := energySamples s p map b rx
    let u := forEach b.shares (fun x u => sharePassed (treeOf s p) v x 0 u)
      (bumpPon (if v = 2 then 1 else 2) p (some i) t.world (burstEvents p v t.world loud rx (markBurst p map b v (0 < loud) s)))
    (b.window = none → burstPassed p map i b t rx s = badContent p i v (2 ≤ loud) b t u) ∧
    (b.window ≠ none → burstPassed p map i b t rx s = rangingMissed i (badBurst i (v = 2) u)) := by
  unfold burstPassed
  dsimp only
  rw [hv]
  simp only [if_neg h1]
  cases b.window with
  | none => exact ⟨fun _ => rfl, fun h => absurd rfl h⟩
  | some w => exact ⟨nofun, fun _ => rfl⟩

theorem burstPassed_good {s : State} {p map i : Nat} {b : Burst5} {t : Terminal} {rx : BurstRx} (hv : burstVerdict s p map i b rx = 1) :
    let codes := windowCodes s p map b rx
    let loud := energySamples s p map b rx
    let words (x : Share) : Nat := match rx.parts.find? fun y => y.alloc = x.id with | some y => y.words | none => 0
    let u := forEach b.shares (fun x u => sharePassed (treeOf s p) 1 x (words x) u)
      (bumpPon 0 p (some i) t.world (burstEvents p 1 t.world loud rx (markBurst p map b 1 (0 < loud) s)))
    (b.window = none → burstPassed p map i b t rx s = useOffset i rx.offset (goodBurst i (goodContent p i map t rx codes u))) ∧
    (b.window ≠ none → burstPassed p map i b t rx s = burstPower i codes (goodCounts p i t rx u)) := by
  unfold burstPassed
  dsimp only
  rw [hv]
  simp only [reduceIte, OfNat.one_ne_ofNat]
  cases b.window with
  | none => exact ⟨fun _ => rfl, fun h => absurd rfl h⟩
  | some w => exact ⟨nofun, fun _ => rfl⟩

theorem delimFound_search {s : State} {p m : Nat} {window : Bool} {rx : BurstRx} (h : delimFound s p m window rx = true) :
    rx.locked = true ∧ (∃ e, rx.delimiter = some e ∧ e ≤ delimErrors (upKind s p)) ∧
      (window = true ∨ -2048 ≤ rx.offset ∧ rx.offset ≤ 2048) := by
  unfold delimFound at h
  dsimp only at h
  split at h
  next e he =>
    simp only [Bool.and_eq_true, Bool.or_eq_true, decide_eq_true_eq] at h
    obtain ⟨⟨hl, hd⟩, hw⟩ := h
    exact ⟨hl, ⟨e, he, hd⟩, hw.imp_right fun ⟨hlo, hhi⟩ => ⟨(le_max_right _ _).trans hlo, hhi⟩⟩
  next => exact absurd h Bool.false_ne_true

/-! ## Bursts that cost a terminal (R115, R116) -/

/-- What an update does to a terminal is what it does to its value. -/
theorem updTerm_congr {i : Nat} {f g : Terminal → Terminal} {t : Terminal} {s : State} (ht : termAt s i = some t) (h : f t = g t) :
    updTerm i f s = updTerm i g s := by
  unfold updTerm
  rw [ht]
  dsimp only
  rw [h]

theorem badBurst_eq {i : Nat} {missing : Bool} {t : Terminal} {s : State} (ht : termAt s i = some t) :
    let u := updTerm i (fun t => { t with good := 0, bad := t.bad + 1 }) s
    badBurst i missing s = if (cfgAt s t.port).lobN ≤ t.bad + 1 && !termLoss t then
      reportLoss i (updTerm i (fun t => { t with los := missing, lol := !missing, lossAt := s.mono, lossFrame := s.time.sfc }) u)
      else u := by
  have hu : ∀ n, updTerm i (fun t' => { t' with good := 0, bad := t.bad + n }) s =
      updTerm i (fun t => { t with good := 0, bad := t.bad + n }) s := fun n => updTerm_congr ht rfl
  unfold badBurst
  rw [ht]
  dsimp only
  rw [hu]

theorem exec_deactTimeout {i : Nat} {t : Terminal} {s : State} (ht : termAt s i = some t) (hl : termLoss t = true)
    (hd : t.lossAt + (cfgAt s t.port).deactMs * ms ≤ s.mono) :
    exec (.deactTimeout i) s = .next (updTerm i (fun t => { t with bad := 0, good := 0, eqd := 0, rtd := 0, drift := 0 })
      (endActivation i .pending true (recordEv 0x0007 3 0x02 0 t.port t.world [wd i, t.sn0, t.sn1] s))) := by
  have hp : passed s t.lossAt ((cfgAt s t.port).deactMs * ms) = true := decide_eq_true hd
  refine (?_ : execDeactTimeout i s = _)
  unfold execDeactTimeout
  rw [ht]
  dsimp only
  rw [whenever_of (by rw [hl, hp]; rfl)]
  unfold rangeRecord
  rw [ht]
  rfl

theorem exec_reassemblyTimeoutPon {i alloc : Nat} {t : Terminal} {f : UpFrag} {s : State} (ht : termAt s i = some t)
    (hf : mget t.frags alloc = some f) :
    exec (.reassemblyTimeoutPon i alloc) s = .next (whenever (f.started + 16 ≤ s.time.sfc)
      (fun s => bumpPon 10 t.port (some i) t.world (updTerm i (fun t => { t with frags := mdel t.frags alloc }) s)) s) := by
  have hh : mhas t.frags alloc = true := by simp [mhas, hf]
  refine (?_ : execReassemblyTimeoutPon i alloc s = _)
  unfold execReassemblyTimeoutPon
  rw [ht]
  dsimp only
  rw [hf]
  dsimp only [whenever]
  unfold dropFrag
  rw [ht]
  dsimp only
  rw [hh]
  rfl

/-- Settles O43: each verdict by what is found of the burst, and then the part of the burst's passing that is the verdict's. -/
theorem burstsAreJudgedAndTaken : Obligations.BurstsAreJudgedAndTaken := by
  refine ⟨fun p map start i m b t rx s hm hp hb hi ht ho => ?_, fun p m window rx s => ⟨fun h => ?_, fun h => ?_⟩, fun p map start s => rfl,
    fun i missing t s ht => ⟨fun h => ?_, fun hn hl => ?_⟩, fun i t s ht hl hd => exec_deactTimeout ht hl hd,
    fun i alloc t f s ht hf => ⟨fun h => ?_, fun h => ?_⟩⟩
  · intro codes loud found good words counted
    have hrun := exec_burstReceived hm hp hb hi ht ho
    have hv (h : ¬good) : burstVerdict (burstReset p map start s) p map i b rx =
        if delimFound s p map b.window.isSome rx = false ∧ loud = 0 then 2 else if 0 < loud then 3 else 4 := burstVerdict_bad h
    have hgood (h : good) := burstPassed_good (t := t) (burstVerdict_good (s := burstReset p map start s) h)
    have hbad {v : Nat} (hv : burstVerdict (burstReset p map start s) p map i b rx = v) := burstPassed_bad (s := burstReset p map start s) (t := t) hv
    have hmiss (hf : ¬found) (hl : loud = 0) := hbad ((hv fun h => hf h.1).trans (if_pos ⟨by simpa [found] using hf, hl⟩)) (by decide)
    have hloud (hg : ¬good) (hl : 0 < loud) := hbad ((hv hg).trans ((if_neg (by omega)).trans (if_pos hl))) (by decide)
    have hquiet (hg : ¬good) (hf : found) (hl : loud = 0) :=
      hbad ((hv hg).trans ((if_neg (by simp [show _ = true from hf])).trans (if_neg (by omega)))) (by decide)
    let closed (u : State) : Res := .next (closeMap p map u)
    have quiet (hl : loud = 0) (v pos : Nat) :
        badContent p i v (2 ≤ loud) b t (counted v pos fun _ => 0) = badContent p i v false b t (counted v pos fun _ => 0) := by
      rw [decide_eq_false (by omega)]
    refine ⟨fun h hw => ?_, fun h hw => ?_, fun hf hl hw => ?_, fun hf hl hw => ?_, fun hg hl hw => ?_, fun hg hl hw => ?_,
      fun hg hf hl hw => ?_, fun hg hf hl hw => ?_⟩
    · obtain ⟨hd, -⟩ := hgood h
      rw [hrun, hd hw]
      rfl
    · obtain ⟨-, hd⟩ := hgood h
      rw [hrun, hd hw]
      rfl
    · obtain ⟨hd, -⟩ := hmiss hf hl
      exact hrun.trans (congrArg closed ((hd hw).trans (quiet hl 2 1)))
    · obtain ⟨-, hd⟩ := hmiss hf hl
      exact hrun.trans (congrArg closed (hd hw))
    · obtain ⟨hd, -⟩ := hloud hg hl
      exact hrun.trans (congrArg closed (hd hw))
    · obtain ⟨-, hd⟩ := hloud hg hl
      exact hrun.trans (congrArg closed (hd hw))
    · obtain ⟨hd, -⟩ := hquiet hg hf hl
      exact hrun.trans (congrArg closed ((hd hw).trans (quiet hl 4 2)))
    · obtain ⟨-, hd⟩ := hquiet hg hf hl
      exact hrun.trans (congrArg closed (hd hw))
  · obtain ⟨hl, he, -⟩ := delimFound_search h
    exact ⟨hl, he⟩
  · obtain ⟨-, -, hw⟩ := delimFound_search h
    exact hw.resolve_left Bool.false_ne_true
  · rw [badBurst_eq ht, if_neg]
    rintro hb
    simp only [Bool.and_eq_true, decide_eq_true_eq, Bool.not_eq_true'] at hb
    obtain ⟨hn, hl⟩ := hb
    exact h.elim (fun h => by omega) (fun h => by simp [hl] at h)
  · rw [badBurst_eq ht, if_pos (by simp [hn, hl])]
  · rw [exec_reassemblyTimeoutPon ht hf, whenever_of (by simpa using h)]
  · rw [exec_reassemblyTimeoutPon ht hf, whenever_of_false (by simpa using h)]

end Sys2Proof.Machine
end

section
/-! PROOFS. What terminals send: messages under their MIC, OMCI frames under their key, and the returned keys. -/

namespace Sys2Proof.Machine

/-! ## Messages (R120, R124) -/

theorem micPasses_of {s : State} {i : Nat} {mic : Bool} (hm : mic = true) (hr : s.vault.registered.contains i = true) :
    micPasses s i mic = true := by
  rw [micPasses, hm, hr]
  rfl

theorem micPasses_of_failed {s : State} {i : Nat} {mic : Bool} (h : mic = false ∨ s.vault.registered.contains i = false) :
    micPasses s i mic = false := by
  unfold micPasses
  cases h with
  | inl h => rw [h, Bool.false_and]
  | inr h => rw [h, Bool.and_false]

/-- An upstream message that passes its MIC has its effect. -/
theorem onPloamu_passed {i : Nat} {t : Terminal} {s : State} (hr : s.vault.registered.contains i = true) (f : State → State) :
    onPloamu i t true f s = countEvent 0x48 0x101 t.world 1 (f s) := by
  unfold onPloamu
  rw [if_pos (micPasses_of rfl hr)]
  rfl

/-- An upstream message of which the MIC does not pass is counted. -/
theorem onPloamu_failed {i : Nat} {t : Terminal} {s : State} {mic : Bool} (h : mic = false ∨ s.vault.registered.contains i = false)
    (f : State → State) :
    onPloamu i t mic f s = countEvent 0x48 0x101 t.world 1 (bumpPon 11 t.port (some i) t.world s) := by
  unfold onPloamu
  rw [if_neg (by simp [micPasses_of_failed h])]
  rfl

theorem exec_ploamuMessage {i : Nat} {bs : List Byte} {mic : Bool} {t : Terminal} {s : State} (ht : termAt s i = some t) :
    exec (.ploamuMessage i bs mic) s = .next (onPloamu i t mic (toOmci i t bs) s) := by
  refine (?_ : execPloamuMessage i bs mic s = _)
  unfold execPloamuMessage
  rw [ht]

theorem exec_extAccept {i accept : Nat} {mic : Bool} {t : Terminal} {s : State} (ht : termAt s i = some t) :
    let bits := (2 * b2n (cfgAt s t.port).aes256 + 4 * b2n (cfgAt s t.port).fcast) &&& accept
    exec (.extAccept ⟨i, mic⟩ accept) s = .next (onPloamu i t mic (whenever (t.st = .operating || t.st = .reranging)
      (fun s => ownPloam i (.extConfirm bits) (updTerm i (fun t => { t with confirm := some bits }) s))) s) := by
  refine (?_ : execExtAccept ⟨i, mic⟩ accept s = _)
  unfold execExtAccept
  dsimp only
  rw [ht]

/-- A returned key is a message under its MIC, whose effect is that a part asked for is taken. -/
theorem exec_keyReport {i frag : Nat} {body : List Byte} {mic : Bool} {t : Terminal} {s : State} (ht : termAt s i = some t) :
    ∃ f : State → State, exec (.keyReport i frag body mic) s = .next (onPloamu i t mic f s) ∧
      ∀ r, t.keyReq = some r → frag < 2 → f s = takeKey i frag body t r s := by
  have hrun : exec (.keyReport i frag body mic) s = execKeyReport i frag body mic s := rfl
  unfold execKeyReport at hrun
  rw [ht] at hrun
  refine ⟨_, hrun, fun r hr hf => ?_⟩
  rw [hr]
  dsimp only
  rw [whenever_of (by simpa using hf)]

theorem exec_acknowledge_failed {i : Nat} {mic : Bool} {t : Terminal} {s : State} (ht : termAt s i = some t)
    (h : mic = false ∨ s.vault.registered.contains i = false) :
    exec (.acknowledge ⟨i, mic⟩) s = .next (countEvent 0x48 0x101 t.world 1 (bumpPon 11 t.port (some i) t.world s)) := by
  refine (?_ : execAcknowledge ⟨i, mic⟩ s = _)
  unfold execAcknowledge
  dsimp only
  rw [ht]
  dsimp only
  rw [onPloamu_failed h]

theorem toOmci_unbound {i : Nat} {t : Terminal} {s : State} (h : (portAt s (treeOf s t.port)).omci = none) (bs : List Byte) :
    toOmci i t bs s = bumpPon 13 t.port (some i) t.world s := by
  unfold toOmci
  rw [h]

theorem toOmci_bound {i q : Nat} {t : Terminal} {s : State} (h : (portAt s (treeOf s t.port)).omci = some q)
    (he : (hrqAt s q).enable = true) (hf : hrqFull (hrqAt s q) = false) (bs : List Byte) :
    toOmci i t bs s = toHost q { epoch := s.epoch.current.toNat, rver := s.rules.current, source := t.port, dir := 1, world := t.world,
                                 term := some i, len := bs.length, bytes := bs } [] s := by
  unfold toOmci
  rw [h]
  dsimp only
  rw [he, hf]
  rfl

/-! ## OMCI frames (R107, R313) -/

theorem xgemPortOf_omcc (s : State) (i : Nat) : xgemPortOf s i (onuId i) = true := by simp [xgemPortOf]

/-- The ground of an OMCC frame is its key's alone. -/
theorem xgemGround_omcc {s : State} {i key : Nat} {t : Terminal} :
    (key = 0 → xgemGround s i t { port := onuId i, key := key } = none) ∧
    (key = 3 → xgemGround s i t { port := onuId i, key := key } = some (some 8)) ∧
    (key = 1 ∨ key = 2 → admits s 1 = false → xgemGround s i t { port := onuId i, key := key } = some none) ∧
    (key = 1 ∨ key = 2 → admits s 1 = true → xgemGround s i t { port := onuId i, key := key } =
      if engineUse s (keySlot t key) t.world useDecrypt (t.ext.testBit 1) = true then none else some (some 8)) := by
  unfold xgemGround
  simp only [xgemPortOf_omcc]
  refine ⟨fun h => ?_, fun h => ?_, fun h ha => ?_, fun h ha => ?_⟩
  · subst h
    rfl
  · subst h
    rfl
  · rw [ha]
    obtain rfl | rfl := h <;> rfl
  · rw [ha]
    cases he : engineUse s (keySlot t key) t.world useDecrypt (t.ext.testBit 1) <;> obtain rfl | rfl := h <;> simp

theorem exec_upstreamOmciFrame {i key : Nat} {pos : XgemPlace} {bs : List Byte} {mic : Bool} {t : Terminal} {s : State}
    (ht : termAt s i = some t) :
    (∀ c, xgemGround s i t { port := onuId i, key := key } = some (some c) →
      exec (.upstreamOmciFrame i key pos bs mic) s = .next (bumpPon c t.port (some i) t.world s)) ∧
    (xgemGround s i t { port := onuId i, key := key } = some none →
      exec (.upstreamOmciFrame i key pos bs mic) s = .next (bumpW (cid 9 10 22) 2 i t.world s)) ∧
    (xgemGround s i t { port := onuId i, key := key } = none → exec (.upstreamOmciFrame i key pos bs mic) s =
      .next (countEvent 0x48 0x101 t.world 1 (if micPasses s i mic = true then
        toOmci i t (if key = 0 then bs else xgemCrypt true t (slotBytes s (keySlot t key)) pos.frame pos.word bs) s
        else bumpPon 12 t.port (some i) t.world s))) := by
  have hrun : exec (.upstreamOmciFrame i key pos bs mic) s = execUpstreamOmciFrame i key pos bs mic s := rfl
  unfold execUpstreamOmciFrame at hrun
  rw [ht] at hrun
  refine ⟨fun c h => hrun.trans ?_, fun h => hrun.trans ?_, fun h => hrun.trans ?_⟩ <;> dsimp only <;> rw [h]
  rfl

/-! ## Terminal keys (R122, R309) -/

theorem exec_keyRequest {i old n : Nat} {t : Terminal} {s : State} (ht : termAt s i = some t) (hs : t.switched = some (old, n))
    (hn : n + 7 ≤ s.time.sfc) :
    exec (.keyRequest i) s = .next (requestKey i old (updTerm i (fun t => { t with switched := none }) s)) := by
  refine (?_ : execKeyRequest i s = _)
  unfold execKeyRequest
  rw [ht]
  dsimp only
  rw [hs]
  dsimp only
  rw [whenever_of (by simpa using hn)]

theorem exec_keyRequestTimeout {i : Nat} {t : Terminal} {r : KeyReq} {s : State} (ht : termAt s i = some t) (hr : t.keyReq = some r)
    (hs : r.sent + 3 ≤ s.time.sfc) (ho : ∀ m ∈ t.own, ploamType m ≠ 3) :
    exec (.keyRequestTimeout i) s = .next (keyTimeout i t r s) := by
  have hno : (t.own.any fun m => ploamType m = 3) = false := List.any_eq_false.mpr fun m hm => by simpa using ho m hm
  refine (?_ : execKeyRequestTimeout i s = _)
  unfold execKeyRequestTimeout
  rw [ht]
  dsimp only
  rw [hr]
  dsimp only
  rw [whenever_of (by rw [hno, decide_eq_true hs]; rfl)]

/-- A terminal's whole key travels to the secure island. -/
def keySent (i index : Nat) (bs : List Byte) (s : State) : State :=
  let u := updTerm i (fun t => { t with keyReq := none }) s
  { u with pon := { u.pon with keysIn := u.pon.keysIn ++ [(i, index, bs)] } }

theorem takeKey_whole {i frag : Nat} {body : List Byte} {t : Terminal} {r : KeyReq} {s : State} (h : t.ext.testBit 1 = false) :
    takeKey i frag body t r s = keySent i r.index body s := by
  unfold takeKey
  dsimp only
  rw [h]
  rfl

/-- The second part of a key completes it, in the order of the parts. -/
theorem takeKey_second {i frag : Nat} {body other : List Byte} {t : Terminal} {r : KeyReq} {s : State} (hf : frag < 2)
    (h : t.ext.testBit 1 = true) (ho : mget r.frags (1 - frag) = some other) :
    takeKey i frag body t r s = keySent i r.index (if frag = 0 then body ++ other else other ++ body) s := by
  unfold takeKey
  dsimp only
  rw [h]
  obtain rfl | rfl : frag = 0 ∨ frag = 1 := by omega
  · rw [mget_mset_self, mget_mset_other _ _ _ _ Nat.zero_ne_one, ho]
    rfl
  · rw [mget_mset_self, mget_mset_other _ _ _ _ Nat.one_ne_zero, ho]
    rfl

theorem takeKey_first {i frag : Nat} {body : List Byte} {t : Terminal} {r : KeyReq} {s : State} (hf : frag < 2)
    (h : t.ext.testBit 1 = true) (ho : mget r.frags (1 - frag) = none) :
    takeKey i frag body t r s =
      updTerm i (fun t => { t with keyReq := some { r with frags := mset r.frags frag body }, asked := true }) s := by
  unfold takeKey
  dsimp only
  rw [h]
  obtain rfl | rfl : frag = 0 ∨ frag = 1 := by omega
  · rw [mget_mset_self, mget_mset_other _ _ _ _ Nat.zero_ne_one, ho]
    rfl
  · rw [mget_mset_self, mget_mset_other _ _ _ _ Nat.one_ne_zero, ho]
    rfl

theorem exec_keyReport_taken {i frag : Nat} {body : List Byte} {t : Terminal} {r : KeyReq} {s : State} (ht : termAt s i = some t)
    (hr : t.keyReq = some r) (hf : frag < 2) (hreg : s.vault.registered.contains i = true) :
    exec (.keyReport i frag body true) s = .next (countEvent 0x48 0x101 t.world 1 (takeKey i frag body t r s)) := by
  obtain ⟨f, hrun, htake⟩ := exec_keyReport (frag := frag) (body := body) (mic := true) ht
  rw [hrun, onPloamu_passed hreg, htake r hr hf]

/-- The oldest returned key, of a terminal of the key table, is written, or waits for the slot. -/
theorem exec_ponKeyWrite {i index : Nat} {bs : List Byte} {rest : List (Nat × Nat × List Byte)} {t : Terminal} {s : State}
    (hk : s.pon.keysIn = (i, index, bs) :: rest) (ht : termAt s i = some t) :
    let u := { s with pon := { s.pon with keysIn := rest } }
    let slot := keySlot t index
    let body := Config.ponUnwrap (termKeys s i t) bs
    exec .ponKeyWrite s = .next (
      if s.vault.registered.contains i = true then
        if mustWait s slot = true then { u with vault := { u.vault with waiting := u.vault.waiting ++ [.ponKey i index body] } }
        else ponKeyWritten slot body u
      else u) := by
  refine (?_ : execPonKeyWrite s = _)
  unfold execPonKeyWrite
  rw [hk]
  dsimp only
  rw [ht]
  dsimp only
  cases s.vault.registered.contains i <;> rfl

/-- Settles O44: each message by its MIC, its key or the request that it answers. -/
theorem messagesAndTerminalKeysTravel : Obligations.MessagesAndTerminalKeysTravel := by
  refine ⟨fun i bs mic t s ht => ⟨fun h => ?_, fun hm hr => ?_⟩, fun i t bs s => ⟨fun h => toOmci_unbound h bs, fun q h he hf => toOmci_bound h he hf bs⟩,
    fun i key pos bs mic t s ht => ?_, fun i accept t s ht hst hr => ?_, fun i accept frag body mic t s ht h => ?_,
    fun i old n t s ht hs hn => ?_, fun i t r s ht hr hs ho => ?_, fun i frag body t r s ht hr hf hreg => ?_, fun s h => ?_,
    fun i index bs rest t s hk ht => ?_⟩
  · rw [exec_ploamuMessage ht, onPloamu_failed h]
  · rw [exec_ploamuMessage ht, hm, onPloamu_passed hr]
  · obtain ⟨hplain, hkey3, hheld, hkeyed⟩ := xgemGround_omcc (s := s) (i := i) (key := key) (t := t)
    obtain ⟨hcount, hhold, htake⟩ := exec_upstreamOmciFrame (key := key) (pos := pos) (bs := bs) (mic := mic) ht
    refine ⟨fun h => hcount 8 (hkey3 h), fun h hm hr => ?_, fun h hm => ?_, fun h ha he => hcount 8 ((hkeyed h ha).trans (by simp [he])),
      fun h ha => hhold (hheld h ha), fun h he ha hm hr => ?_⟩
    · rw [htake (hplain h), if_pos (micPasses_of hm hr), if_pos h]
    · rw [htake (hplain h), if_neg (by simp [micPasses_of_failed hm])]
    · rw [htake ((hkeyed h ha).trans (if_pos he)), if_pos (micPasses_of hm hr), if_neg (by omega)]
  · intro bits
    rw [exec_extAccept ht, onPloamu_passed hr, whenever_of (by simpa using hst)]
  · refine ⟨by rw [exec_extAccept ht, onPloamu_failed h], exec_acknowledge_failed ht h, ?_⟩
    obtain ⟨f, hrun, -⟩ := exec_keyReport (frag := frag) (body := body) (mic := mic) ht
    rw [hrun, onPloamu_failed h]
  · intro r
    rw [exec_keyRequest ht hs hn, requestKey, updTerm_time]
  · refine ⟨fun h => ?_, fun h => ?_⟩
    · rw [exec_keyRequestTimeout ht hr hs ho, keyTimeout, if_pos h]
    · rw [exec_keyRequestTimeout ht hr hs ho, keyTimeout, if_neg (Nat.not_lt.mpr h)]
  · intro send
    refine ⟨fun h => ?_, fun other h ho => ?_, fun h ho => ?_⟩
    · rw [exec_keyReport_taken ht hr hf hreg, takeKey_whole h]
      rfl
    · rw [exec_keyReport_taken ht hr hf hreg, takeKey_second hf h ho]
      rfl
    · rw [exec_keyReport_taken ht hr hf hreg, takeKey_first hf h ho]
  · refine (?_ : execPonKeyWrite s = _)
    unfold execPonKeyWrite
    rw [h]
  · intro u slot body own a
    have hrun := exec_ponKeyWrite hk ht
    refine ⟨fun h => ?_, fun h hw => ?_, fun h hw => ?_⟩
    · rw [hrun, if_neg (by simpa [own] using h)]
    · rw [hrun, if_pos h, if_neg (by simpa [slot] using hw)]
      rfl
    · rw [hrun, if_pos h, if_pos hw]

end Sys2Proof.Machine
end

section
/-! PROOFS. Discovery: serial numbers heard, serial-number windows and Awl cycles. -/

namespace Sys2Proof.Machine

/-! ## Serial numbers (R143, R144, R152) -/

section Serials
variable {p : Nat} {sn0 sn1 : Word} {arrival : Int} {s : State} (hp : p < 64) (hs : inService s p = true)
  (hw : inSnWindow s p arrival = true) (hr : reachHeld s p = false)
include hp hs hw hr

/-- A serial number of a record, heard in a window. -/
theorem exec_serialNumber_known {i : Nat} {t : Terminal} (hk : bySerial s p sn0 sn1 = some (i, t)) (bs : List Byte) (mic : Bool) :
    exec (.serialNumberOnu p sn0 sn1 arrival ⟨bs, mic⟩) s = .next (countEvent 0x48 0x101 t.world 1
      (if mic = true then knownSerial p i t (classicWindow s p arrival) s else bumpPon 11 p (some i) t.world s)) := by
  refine (onObject_of (by simp [hp]) _).trans (congrArg Host.Outcome.next ((whenever_of (by simp [hs, hw, hr]) _ s).trans ?_))
  dsimp only
  rw [hk]
  cases mic <;> rfl

/-- A serial number without a record, heard in a window. -/
theorem exec_serialNumber_unknown (hk : bySerial s p sn0 sn1 = none) (bs : List Byte) :
    exec (.serialNumberOnu p sn0 sn1 arrival ⟨bs, true⟩) s =
      .next (countEvent 0x48 0x101 0x0100 1 (unknownSerial p sn0 sn1 bs s)) := by
  refine (onObject_of (by simp [hp]) _).trans (congrArg Host.Outcome.next ((whenever_of (by simp [hs, hw, hr]) _ s).trans ?_))
  dsimp only
  rw [hk]
  rfl

end Serials

theorem knownSerial_eq (p i : Nat) (t : Terminal) (w : WinKind × Int × Int) (s : State) :
    (t.st = .pending → knownSerial p i t w s = assign i p 0 w s) ∧ (t.st = .assigned → knownSerial p i t w s = s) ∧
    (∀ n, t.st = .operating → t.lastGood = some n → knownSerial p i t w s =
      if s.time.sfc ≤ n + 8 then rangeRecord 4 i (snDetail i t) (bump (cid 17 7 6) 1 p s)
      else assign i p 0 w (endActivation i .pending true s)) := by
  unfold knownSerial
  refine ⟨fun h => ?_, fun h => ?_, fun n h hn => ?_⟩
  · rw [h]
  · rw [h]
  · rw [h, hn]
    simp only [decide_eq_true_eq]

theorem assign_of {i : Nat} {t : Terminal} {s : State} (ht : termAt s i = some t) (p method : Nat) (w : WinKind × Int × Int) :
    assign i p method w s = ownPloam i (.assignOnuId (i % 512) t.sn0 t.sn1)
      (updTerm i (fun t => { t with st := .assigned, method := method, port := p, tries := 0, wait := none, window := some w }) s) := by
  unfold assign
  rw [ht]
  rfl

theorem unknownSerial_eq (p : Nat) (sn0 sn1 : Word) (bs : List Byte) (s : State) :
    let t := bump (cid 17 7 7) 1 p s
    let key := sn0.toNat + sn1.toNat * 2 ^ 32
    ((portAt s (treeOf s p)).omci = none → unknownSerial p sn0 sn1 bs s = t) ∧
    (∀ q, (portAt s (treeOf s p)).omci = some q → mget (portAt s p).snSeen key = none → unknownSerial p sn0 sn1 bs s =
      toHost q { epoch := s.epoch.current.toNat, rver := s.rules.current, source := p, dir := 1, len := bs.length, bytes := bs } []
        (updPort p (fun x => { x with snSeen := mset x.snSeen key s.mono }) t)) := by
  unfold unknownSerial
  dsimp only
  refine ⟨fun h => ?_, fun q h hn => ?_⟩
  · rw [h]
  · rw [h, hn]
    rfl

/-! ## Windows (R142, R552) -/

/-- The window found is the first that may be placed, from the first map on. -/
theorem findSn_some {s : State} {p : Nat} {lo hi : Int} {x : Window} (fuel : Nat) :
    ∀ m, findSn s p lo hi fuel m = some x → mayPlace s p x = true ∧ x.start = zeroArrival s p x.map 0 + lo ∧
      x.fin = zeroArrival s p x.map 0 + hi ∧ m ≤ x.map := by
  induction fuel with
  | zero => exact fun m h => absurd h (by simp [findSn])
  | succ k ih =>
    intro m h
    unfold findSn at h
    dsimp only at h
    split at h
    next hp =>
      obtain rfl := Option.some.inj h
      exact ⟨hp, rfl, rfl, le_refl m⟩
    next =>
      obtain ⟨hp, hlo, hhi, hm⟩ := ih (m + 1) h
      exact ⟨hp, hlo, hhi, by omega⟩

theorem openSn_eq (p : Nat) (s : State) :
    let lo := nearest s p
    let hi := nearest s p + uiCeil s p (10000000 * (discAt s p).diff + 500000 * (discAt s p).near + 50000000)
    let found := findSn s p lo hi 64 (max (snFloor s p) (s.time.sfc + 1))
    (found = none → openSn p s = s) ∧
    (∀ x, found = some x → openSn p s = if x.map ≤ s.time.sfc + 8 then
      updPort p (fun q => { q with lastSn := some x.start.toNat, prevSn := q.lastSn }) (putWindow p x s) else s) := by
  intro lo hi found
  have hb : snBounds s p = (lo, hi) := rfl
  unfold openSn
  rw [hb]
  dsimp only
  refine ⟨fun h => ?_, fun x h => ?_⟩
  · rw [show findSn s p lo hi 64 (max (snFloor s p) (s.time.sfc + 1)) = none from h]
  · rw [show findSn s p lo hi 64 (max (snFloor s p) (s.time.sfc + 1)) = some x from h]

theorem exec_snWindowOpen {p : Nat} {s : State} (hp : p < 64) (hs : inService s p = true) (hn : snSpacing s p ≠ 0)
    (hr : reachHeld s p = false) (ht : ((treeTerms s (treeOf s p)).filter fun e => e.2.st ≠ .pending).length < 512) :
    exec (.snWindowOpen p) s = .next (openSn p s) :=
  (onObject_of (by simp [hp]) _).trans (congrArg Host.Outcome.next
    (whenever_of (by rw [hs, hr, decide_eq_true hn, decide_eq_true ht]; rfl) _ s))

/-! ## Awl (R145 to R151) -/

theorem exec_awlDetection {p i : Nat} {rtd : Int} {t : Terminal} {s : State} (ht : termAt s i = some t) (hp : p < 64) (hs : t.st = .pending)
    (hc : ((portAt s p).codes.any fun e => e.1 = i) = true) (hrun : (portAt s p).running = true) (hr : reachHeld s p = false) :
    exec (.awlDetection p i rtd) s = .next (whenever (inAwlRange s p rtd) (fun s => assign i p 1 (directedSpan s p t rtd) s) s) := by
  refine (?_ : execAwlDetection p i rtd s = _)
  unfold execAwlDetection
  rw [ht]
  dsimp only
  rw [onObject_of (by simp [hp]), hs, hc, hrun, hr]
  rfl

theorem judgeCrowd_terms (p : Nat) (level : Option Nat) (s : State) (i : Nat) : termAt (judgeCrowd p level s) i = termAt s i := by
  have h : (judgeCrowd p level s).pon.terms = s.pon.terms := by
    unfold judgeCrowd
    dsimp only
    (repeat' split) <;> simp [updPort]
  exact congrArg (mget · i) h

/-- A cycle that runs takes its terminals with the codes of their serial numbers. -/
theorem awlCycle_running {p : Nat} {s : State} (h : (portAt s p).running = true) (level : Option Nat) :
    let u := judgeCrowd p level s
    let t := awlCycle p level s
    (portAt t p).codes.map Prod.fst = (if (portAt u p).pause.isNone then awlCodes u p else []) ∧
      ∀ e ∈ (portAt t p).codes, ∀ x, termAt u e.1 = some x → e.2 = awlCode x.sn0 x.sn1 := by
  unfold awlCycle
  dsimp only
  rw [h, if_pos rfl, Bool.true_and, portAt_updPort_self]
  refine ⟨(List.map_map ..).trans (List.map_id _), fun e he x hx => ?_⟩
  obtain ⟨i, -, rfl⟩ := List.mem_map.mp he
  dsimp only at hx ⊢
  rw [← judgeCrowd_terms p level, hx]

theorem awlCycle_stopped {p : Nat} {s : State} (h : (portAt s p).running = false) (level : Option Nat) :
    awlCycle p level s = updPort p (fun x => { x with codes := [] }) s := by
  unfold awlCycle
  dsimp only
  rw [h]
  rfl

theorem exec_awlCycleBoundary {p : Nat} {level : Option Nat} {s : State} (hp : p < 64) (hs : inService s p = true)
    (hc : s.time.sfc % 128 = 0) : exec (.awlCycleBoundary p level) s = .next (awlCycle p level s) :=
  (onObject_of (by simp [hp]) _).trans (congrArg Host.Outcome.next (whenever_of (by rw [hs, decide_eq_true hc]; rfl) _ s))

theorem judgeCrowd_quiet {p v : Nat} {s : State} (h : crowded s p v = false) :
    judgeCrowd p (some v) s = updPort p (fun x => { x with crowd := 0 }) s := by
  unfold judgeCrowd
  dsimp only
  rw [h]
  rfl

theorem judgeCrowd_crowded {p v : Nat} {s : State} (h : crowded s p v = true) :
    judgeCrowd p (some v) s = if 2 ≤ (portAt s p).crowd + 1 then
      let s1 := updPort p (fun x => { x with crowd := 0, pause := some s.mono, awlCrowd := true }) s
      if (portAt s p).awlCrowd then s1 else raise 0x02 1 p 0 0x0210 0 0 s1
      else updPort p (fun x => { x with crowd := x.crowd + 1 }) s := by
  unfold judgeCrowd
  dsimp only
  rw [h]
  rfl

/-- Settles O45: the serial numbers by their record, the window found by the search over maps, and the Awl cycle by its crowd. -/
theorem discoveryFindsTerminals : Obligations.DiscoveryFindsTerminals := by
  refine ⟨fun p i sn0 sn1 arrival bs t s hp hs hw hr hk ht => ?_, fun p sn0 sn1 arrival bs s hp hs hw hr hk => ?_,
    fun p sn0 sn1 arrival bs mic s hp h => ?_, fun p s hp hs hn hr ht => ?_, fun p i rtd t s ht hp hst hc hrun hr => ?_,
    fun p level s hp hs hc => ⟨fun h => ?_, fun h => ?_⟩, fun p s => rfl, fun p v s => ⟨judgeCrowd_quiet, fun h hc => ?_, fun h hc ha => ?_⟩,
    fun p t0 s hp h0 h => ?_⟩
  · intro hi w seen
    have hrun (mic : Bool) := exec_serialNumber_known hp hs hw hr hk bs mic
    obtain ⟨hpend, hass, hop⟩ := knownSerial_eq p i t (classicWindow s p arrival) s
    refine ⟨fun h => ?_, fun h => ?_, fun n h hn hle => ?_, fun n h hn hlt => ?_, hrun false⟩
    · rw [hrun, if_pos rfl, hpend h, assign_of ht]
      rfl
    · rw [hrun, if_pos rfl, hass h]
    · rw [hrun, if_pos rfl, hop n h hn, if_pos hle]
      rfl
    · rw [hrun, if_pos rfl, hop n h hn, if_neg (Nat.not_le.mpr hlt)]
      rfl
  · intro t key
    have hrun := exec_serialNumber_unknown hp hs hw hr hk bs
    obtain ⟨hnone, hsome⟩ := unknownSerial_eq p sn0 sn1 bs s
    refine ⟨fun h => ?_, fun q h hn => ?_⟩
    · rw [hrun, hnone h]
    · rw [hrun, hsome q h hn]
      rfl
  · refine (onObject_of (by simp [hp]) _).trans (congrArg Host.Outcome.next (whenever_of_false ?_ _ s))
    cases h with
    | inl h => rw [h, Bool.and_false, Bool.false_and]
    | inr h => rw [h, Bool.not_true, Bool.and_false]
  · intro lo hi found
    have hrun := exec_snWindowOpen hp hs hn hr ht
    obtain ⟨hnone, hsome⟩ := openSn_eq p s
    refine ⟨fun x hx hle => ?_, fun h => ?_, fun x hx hlt => ?_⟩
    · obtain ⟨hplace, hstart, hfin, hm⟩ := findSn_some 64 _ hx
      exact ⟨hplace, hstart, hfin, (le_max_left _ _).trans hm, by rw [hrun, hsome x hx, if_pos hle]⟩
    · rw [hrun, hnone h]
    · rw [hrun, hsome x hx, if_neg (Nat.not_le.mpr hlt)]
  · intro hi
    have hrun := exec_awlDetection (rtd := rtd) ht hp hst hc hrun hr
    refine ⟨fun hlo hhi => ?_, fun h => ?_⟩
    · have hin : inAwlRange s p rtd = true := by
        rw [inAwlRange, Bool.and_eq_true, decide_eq_true_eq, decide_eq_true_eq]
        exact ⟨hlo, hhi⟩
      rw [hrun, whenever_of hin]
    · have hout : inAwlRange s p rtd = false := by
        rw [inAwlRange, Bool.and_eq_false_iff, decide_eq_false_iff_not, decide_eq_false_iff_not]
        exact h.imp Int.not_le.mpr Int.not_le.mpr
      rw [hrun, whenever_of_false hout]
  · rw [exec_awlCycleBoundary hp hs hc, awlCycle_stopped h]
  · intro u codes
    have hcodes : codes.length ≤ 16 := by
      unfold codes
      split
      · exact List.length_take_le ..
      · exact Nat.zero_le _
    exact ⟨hcodes, _, exec_awlCycleBoundary hp hs hc, awlCycle_running h level⟩
  · rw [judgeCrowd_crowded h, if_neg (by omega)]
  · rw [judgeCrowd_crowded h, if_pos (by omega), ha]
    rfl
  · refine (onObject_of (by simp [hp]) _).trans (congrArg Host.Outcome.next (whenever_of ?_ _ s))
    rw [h0]
    exact decide_eq_true h

end Sys2Proof.Machine
end

section
/-! PROOFS. Ranging: the burst in a ranging window, the Acknowledge, its timeout, missed grants, and the drift and its corrections. -/

namespace Sys2Proof.Machine

section Terminal
variable {i : Nat} {t : Terminal} {s : State} (ht : termAt s i = some t)
include ht

/-! ## Ranging bursts and Acknowledges (R140, R154, R156) -/

theorem exec_rangingBurst (hs : t.st = .assigned ∨ t.st = .reranging) (hw : t.wait = none) (hn : t.window ≠ none) (rtd : Int) (mic : Bool) :
    exec (.rangingBurst ⟨i, mic⟩ rtd) s = .next (ranged i t rtd mic s) := by
  refine (?_ : execRangingBurst ⟨i, mic⟩ rtd s = _)
  unfold execRangingBurst
  dsimp only
  rw [ht]
  dsimp only
  rw [whenever_of (by simpa [hw, Option.isSome_iff_ne_none] using ⟨hs, hn⟩)]

theorem exec_acknowledge {w : RtWait} (hw : t.wait = some w) (hr : s.vault.registered.contains i = true) :
    (w.rtd = none → exec (.acknowledge ⟨i, true⟩) s = .next (countEvent 0x48 0x101 t.world 1 (updTerm i (fun t => { t with
      wait := none, eqd := w.eqd, drift := t.drift - 16 * w.corr, lastCorr := w.corr, corrs := satAdd 0xFFFF t.corrs 1 }) s))) ∧
    (∀ rtd, w.rtd = some rtd → exec (.acknowledge ⟨i, true⟩) s = .next (countEvent 0x48 0x101 t.world 1 (enterOperating i t w rtd s))) := by
  have hrun : exec (.acknowledge ⟨i, true⟩) s = execAcknowledge ⟨i, true⟩ s := rfl
  unfold execAcknowledge at hrun
  dsimp only at hrun
  rw [ht] at hrun
  dsimp only at hrun
  rw [onPloamu_passed hr, hw] at hrun
  dsimp only at hrun
  refine ⟨fun h => ?_, fun rtd h => ?_⟩
  · rw [hrun, h]
  · rw [hrun, h]

/-- The terminal that an Acknowledge of its first ranging leaves. -/
theorem enterOperating_assigned (hs : t.st = .assigned) (w : RtWait) (rtd : Int) :
    ∃ x, termAt (enterOperating i t w rtd s) i = some x ∧ x.st = .operating ∧ x.eqd = w.eqd ∧ x.rtd = rtd ∧
      x.drift = 16 * w.eqd - (16 * (teqd s t.port : Int) - rtd) ∧ x.wait = none ∧ x.window = none ∧ x.measured = 0 ∧
      x.ref = none ∧ x.keyReq = some { index := 1, sent := s.time.sfc, tries := 1 } := by
  unfold enterOperating requestKey ownPloam
  simp only [hs, reduceCtorEq, reduceIte]
  rw [termAt_updTerm_self _ _ _ _ (termAt_updTerm_self _ _ _ _ (termAt_updTerm_self _ _ _ _ ht))]
  simp

/-! ## Timeouts and missed grants (R154, R159) -/

theorem exec_rangingTimeTimeout {w : RtWait} (hw : t.wait = some w) (h3 : w.sent + 3 ≤ s.time.sfc) (ho : ∀ m ∈ t.own, ploamType m ≠ 1) :
    exec (.rangingTimeTimeout i) s = .next (rangingTimeout i t w s) := by
  have hno : (t.own.any fun m => ploamType m = 1) = false := List.any_eq_false.mpr fun m hm => by simpa using ho m hm
  refine (?_ : execRangingTimeTimeout i s = _)
  unfold execRangingTimeTimeout
  rw [ht]
  dsimp only
  rw [hw]
  dsimp only
  rw [whenever_of (by rw [hno, decide_eq_true h3]; rfl)]

theorem rangingMissed_eq (hs : t.st = .assigned ∨ t.st = .reranging) :
    rangingMissed i s = if t.tries < 2 then placeGrant i 0 (updTerm i (fun t => { t with tries := t.tries + 1 }) s)
      else if t.st = .assigned then endActivation i .pending true (bumpW (cid 17 7 8) 2 i t.world s)
      else endActivation i .pending true (rangeRecord 3 i (snDetail i t) s) := by
  have h3 : t.tries + 1 < 3 ↔ t.tries < 2 := by omega
  unfold rangingMissed
  rw [ht]
  dsimp only
  rw [if_neg (by obtain hs | hs := hs <;> simp [hs])]
  simp only [h3]

/-! ## Drift (R156 to R158) -/

theorem useOffset_eq (hs : t.st = .operating) (o : Int) :
    let u := updTerm i (fun t => { t with lastOffset := o }) s
    ((o - t.drift).natAbs ≤ 1024 → t.wait = none → useOffset i o s =
      correct i (updTerm i (fun t => { t with drift := t.drift + (o - t.drift).tdiv 8, cand := none }) u)) ∧
    (1024 < (o - t.drift).natAbs → t.cand = none → useOffset i o s = updTerm i (fun t => { t with cand := some o }) u) ∧
    (∀ c, 1024 < (o - t.drift).natAbs → t.cand = some c → useOffset i o s =
      if (o - c).natAbs ≤ 64 then rerange i 1 (o - t.drift) (directedSpan s t.port t (16 * (teqd s t.port : Int) + o)) u
      else bumpW (cid 17 7 9) 2 i t.world (updTerm i (fun t => { t with cand := some o }) u)) := by
  unfold useOffset
  rw [ht]
  dsimp only
  rw [if_neg (by simp [hs])]
  refine ⟨fun h hw => ?_, fun h hc => ?_, fun c h hc => ?_⟩
  · rw [if_pos h]
    refine congrArg (correct i) (updTerm_congr (termAt_updTerm_self _ _ _ _ ht) ?_)
    simp [hw]
  · rw [if_neg (Nat.not_le.mpr h), hc]
  · rw [if_neg (Nat.not_le.mpr h), hc]

theorem failedWithEnergy_eq (hs : t.st = .operating) :
    failedWithEnergy i s = if 1 ≤ t.energyFails then rerange i 2 0 (fullWindow s t.port) s
      else updTerm i (fun t => { t with energyFails := t.energyFails + 1 }) s := by
  have h2 : 2 ≤ t.energyFails + 1 ↔ 1 ≤ t.energyFails := by omega
  unfold failedWithEnergy
  rw [ht]
  dsimp only
  rw [if_neg (by simp [hs])]
  simp only [h2]

theorem correct_eq : correct i s = if 128 < t.drift.natAbs && t.wait.isNone then
    let c := roundDiv t.drift 16
    sendRanging i { eqd := t.eqd - c, sent := s.time.sfc, sends := 1, rtd := none, corr := c } s else s := by
  unfold correct
  rw [ht]

end Terminal

/-- Settles O46: each event of a terminal by the state that Table 4.4 gives it. -/
theorem rangingSetsAndKeepsTheDelay : Obligations.RangingSetsAndKeepsTheDelay := by
  refine ⟨fun i rtd t s ht hs hw hn => ?_, fun i t w s ht hw hr hreg => ?_, fun i t w rtd s ht hw hr hreg hs => ?_,
    fun i t w s ht hw h3 ho => ?_, fun i t s ht => ⟨fun hs h => ?_, fun hs h => ?_, fun hs h => ?_⟩, fun i o t s ht hs => ?_,
    fun i t s ht => ⟨fun h => ?_, fun h hw => ?_⟩⟩
  · intro u v q
    have hrun := exec_rangingBurst ht hs hw hn rtd true
    refine ⟨fun h => ?_, fun h => ?_⟩
    · refine hrun.trans (congrArg Host.Outcome.next ?_)
      unfold ranged
      dsimp only
      rw [if_neg (Int.not_lt.mpr h)]
      rfl
    · refine hrun.trans (congrArg Host.Outcome.next ?_)
      unfold ranged
      dsimp only
      rw [if_pos h]
      rfl
  · obtain ⟨hnone, -⟩ := exec_acknowledge ht hw hreg
    exact hnone hr
  · obtain ⟨-, hsome⟩ := exec_acknowledge ht hw hreg
    obtain ⟨x, hx, hf⟩ := enterOperating_assigned ht hs w rtd
    exact ⟨_, x, hsome rtd hr, hx, hf⟩
  · have hrun := exec_rangingTimeTimeout ht hw h3 ho
    refine ⟨fun h => ?_, fun h hr => ?_, fun h hr => ?_⟩
    · rw [hrun, rangingTimeout, if_pos h]
    · rw [hrun, rangingTimeout, if_neg (Nat.not_lt.mpr h), if_pos (by rw [hr]; rfl)]
    · rw [hrun, rangingTimeout, if_neg (Nat.not_lt.mpr h), if_neg (by simpa using hr)]
      rfl
  · rw [rangingMissed_eq ht (.inl hs), if_pos h]
  · rw [rangingMissed_eq ht (.inl hs), if_neg (Nat.not_lt.mpr h), if_pos hs]
  · rw [rangingMissed_eq ht (.inr hs), if_neg (Nat.not_lt.mpr h), if_neg (by simp [hs])]
    rfl
  · obtain ⟨hnear, hfirst, hnext⟩ := useOffset_eq ht hs o
    refine ⟨hnear, hfirst, fun c h hc hle => ?_, fun c h hc hlt => ?_, fun h => ?_, fun h => ?_⟩
    · rw [hnext c h hc, if_pos hle]
    · rw [hnext c h hc, if_neg (Nat.not_le.mpr hlt)]
    · rw [failedWithEnergy_eq ht hs, if_neg (by omega)]
    · rw [failedWithEnergy_eq ht hs, if_pos h]
  · rw [correct_eq ht, if_neg (by simp [Nat.not_lt.mpr h])]
  · rw [correct_eq ht, if_pos (by simp [h, hw])]

end Sys2Proof.Machine
end

section
/-! PROOFS. The module frame boundary: the energy outside bursts, the messages that a PON frame carries, and what every port begins. -/

namespace Sys2Proof.Machine

/-! ## Runs of samples (R109, R114) -/

theorem max_le_longestRun (th : Nat) (codes : List Nat) : ∀ run best, max run best ≤ longestRun th run best codes := by
  induction codes with
  | nil => exact fun run best => le_refl _
  | cons c r ih =>
    intro run best
    unfold longestRun
    split
    · exact (max_le_max (Nat.le_succ run) (le_refl best)).trans (ih ..)
    · exact (le_max_right 0 _).trans (ih ..)

/-- A run of samples above the level counts for its whole length. -/
theorem length_le_longestRun {th : Nat} {codes : List Nat} (h : ∀ c ∈ codes, th < c) (after : List Nat) :
    ∀ run best, run + codes.length ≤ longestRun th run best (codes ++ after) := by
  induction codes with
  | nil => exact fun run best => (le_max_left run best).trans (max_le_longestRun th after run best)
  | cons c r ih =>
    intro run best
    have hr := ih (fun x hx => h x (List.mem_cons_of_mem _ hx)) (run + 1) best
    rw [List.cons_append, longestRun, if_pos (h c List.mem_cons_self), List.length_cons]
    omega

theorem le_longestRun_append {th n : Nat} {codes : List Nat} (h : ∀ run best, n ≤ longestRun th run best codes) (before : List Nat) :
    ∀ run best, n ≤ longestRun th run best (before ++ codes) := by
  induction before with
  | nil => exact h
  | cons c r ih =>
    intro run best
    rw [List.cons_append, longestRun]
    split
    · exact ih _ _
    · exact ih _ _

theorem longestRun_quiet {th : Nat} {codes : List Nat} (h : ∀ c ∈ codes, c ≤ th) : ∀ best, longestRun th 0 best codes = best := by
  induction codes with
  | nil => exact fun best => Nat.zero_max best
  | cons c r ih =>
    intro best
    rw [longestRun, if_neg (Nat.not_lt.mpr (h c List.mem_cons_self)), Nat.zero_max]
    exact ih (fun x hx => h x (List.mem_cons_of_mem _ hx)) best

theorem longestRun_le (th : Nat) (codes : List Nat) : ∀ run best, longestRun th run best codes ≤ max best (run + codes.length) := by
  induction codes with
  | nil => exact fun run best => by rw [longestRun, List.length_nil]; omega
  | cons c r ih =>
    intro run best
    rw [longestRun, List.length_cons]
    split
    · have := ih (run + 1) best
      omega
    · have := ih 0 (max run best)
      omega

/-! ## Energy outside bursts (R114) -/

section Energy
variable {s : State} {p : Nat}

theorem rogueSeen_own (codes : List Nat) :
    rogueSeen s p [(p, codes)] = decide (40 ≤ longestRun (cfgAt s p).energyTh 0 0 (openCodes s p (s.time.sfc - 1) codes)) := by
  simp [rogueSeen, frameCodes]

theorem rogueSeen_other {e : Nat × List Nat} (h : e.1 ≠ p) : rogueSeen s p [e] = false := by
  simp [rogueSeen, frameCodes, h, openCodes, longestRun]

theorem length_openCodes (f : Nat) (codes : List Nat) : (openCodes s p f codes).length = codes.length := by simp [openCodes]

/-- A sample counts as 0 or as its own 14 bits. -/
theorem openCodes_le (f : Nat) {codes : List Nat} {th : Nat} (h : ∀ c ∈ codes, c ≤ th) : ∀ c ∈ openCodes s p f codes, c ≤ th := by
  intro c hc
  obtain ⟨⟨x, k⟩, hx, rfl⟩ := List.mem_map.mp hc
  dsimp only
  split
  · exact Nat.zero_le _
  · exact (Nat.mod_le ..).trans (h x (List.fst_mem_of_mem_zipIdx hx))

/-- Samples that all lie in something held count as 0. -/
theorem openCodes_held (f : Nat) {codes : List Nat} {x : Int × Int} (hx : x ∈ heldSpans s p)
    (h : ∀ k, k < codes.length → x.1 < uiFloor s p (f * 125000000 + (k + 1) * 25000) ∧ uiFloor s p (f * 125000000 + k * 25000) < x.2) :
    ∀ c ∈ openCodes s p f codes, c = 0 := by
  intro c hc
  obtain ⟨⟨y, k⟩, hy, rfl⟩ := List.mem_map.mp hc
  obtain ⟨-, hk, -⟩ := List.mem_zipIdx hy
  obtain ⟨hlo, hhi⟩ := h k (by omega)
  dsimp only
  rw [if_pos]
  exact List.any_eq_true.mpr ⟨x, hx, by simp [hlo, hhi]⟩

/-- Samples outside everything held count with their 14 bits, wherever they lie in the frame. -/
theorem openCodes_open (f : Nat) {codes before after : List Nat} {th : Nat} (hc : ∀ c ∈ codes, th < c ∧ c < 2 ^ 14)
    (h : ∀ k, before.length ≤ k → k < before.length + codes.length → ∀ x ∈ heldSpans s p,
      uiFloor s p (f * 125000000 + (k + 1) * 25000) ≤ x.1 ∨ x.2 ≤ uiFloor s p (f * 125000000 + k * 25000)) :
    ∃ b m a, openCodes s p f (before ++ codes ++ after) = b ++ (m ++ a) ∧ m.length = codes.length ∧ ∀ c ∈ m, th < c := by
  unfold openCodes
  rw [List.append_assoc, List.zipIdx_append, List.zipIdx_append, List.map_append, List.map_append]
  refine ⟨_, _, _, rfl, by simp, fun c hm => ?_⟩
  obtain ⟨⟨y, k⟩, hy, rfl⟩ := List.mem_map.mp hm
  obtain ⟨hlo, hhi, -⟩ := List.mem_zipIdx hy
  obtain ⟨hth, h14⟩ := hc y (List.fst_mem_of_mem_zipIdx hy)
  have hfree := h k (by omega) (by omega)
  dsimp only
  rw [if_neg]
  · rwa [Nat.mod_eq_of_lt h14]
  · intro hany
    obtain ⟨x, hx, hxy⟩ := List.any_eq_true.mp hany
    simp only [Bool.and_eq_true, decide_eq_true_eq] at hxy
    obtain ⟨h1, h2⟩ := hxy
    exact (hfree x hx).elim (fun h => absurd h1 (Int.not_lt.mpr h)) (fun h => absurd h2 (Int.not_lt.mpr h))

end Energy

/-! ## What a PON frame's sending leaves (R97, R121) -/

/-- Sending adds to the outputs and leaves the latched times of day. -/
def Sends (s t : State) : Prop := s.out <+: t.out ∧ ∀ j, (portAt t j).tod = (portAt s j).tod

theorem Sends.refl (s : State) : Sends s s := ⟨List.prefix_rfl, fun _ => rfl⟩

theorem Sends.trans {s t u : State} (h : Sends s t) (h' : Sends t u) : Sends s u :=
  ⟨h.1.trans h'.1, fun j => (h'.2 j).trans (h.2 j)⟩

theorem forEach_sends {α : Type} {f : α → State → State} (l : List α) (h : ∀ a s, Sends s (f a s)) : ∀ s, Sends s (forEach l f s) := by
  induction l with
  | nil => exact Sends.refl
  | cons a r ih => exact fun s => (h a s).trans (ih (f a s))

/-- An output beside a change that leaves the ports. -/
theorem sends_of_ports {s t : State} (ho : s.out <+: t.out) (hp : t.pon.ports = s.pon.ports) : Sends s t :=
  ⟨ho, fun j => congrArg (fun m => Port.tod (mgetD m j {})) hp⟩

theorem updPort_sends (p : Nat) {f : Port → Port} (h : ∀ x, (f x).tod = x.tod) (s : State) : Sends s (updPort p f s) := by
  refine ⟨by simp, fun j => ?_⟩
  by_cases hj : p = j
  · subst hj
    rw [portAt_updPort_self, h]
  · rw [portAt_updPort_other _ _ _ _ hj]

theorem putWindow_sends (p : Nat) (x : Window) (s : State) : Sends s (putWindow p x s) := by
  unfold putWindow
  exact updPort_sends p (by exact fun _ => rfl) s

theorem updTerm_sends (i : Nat) (f : Terminal → Terminal) (s : State) : Sends s (updTerm i f s) :=
  sends_of_ports (by simp) (by unfold updTerm; split <;> rfl)

theorem sendPloam_sends (p onu : Nat) (m : Ploam) (s : State) : Sends s (sendPloam p onu m s) :=
  sends_of_ports (List.prefix_append ..) rfl

theorem placeGrant_sends (i n : Nat) (s : State) : Sends s (placeGrant i n s) := by
  unfold placeGrant
  (repeat' split)
  · exact putWindow_sends ..
  · exact Sends.refl s
  · exact Sends.refl s
  · exact Sends.refl s

theorem ploamSent_sends (i n : Nat) (m : Ploam) (s : State) : Sends s (ploamSent i n m s) := by
  unfold ploamSent
  split
  · exact placeGrant_sends ..
  · exact updTerm_sends ..
  · exact updTerm_sends ..
  · exact updTerm_sends ..
  · exact Sends.refl s

theorem sendTerm_own {p n i : Nat} {m : Ploam} {rest : List Ploam} {t : Terminal} {s : State} (ht : termAt s i = some t)
    (ho : t.own = m :: rest) :
    sendTerm p n i s = ploamSent i n m (sendPloam p (i % 512) m (updTerm i (fun t => { t with own := rest }) s)) := by
  unfold sendTerm
  rw [ht]
  dsimp only
  rw [ho]
  rfl

theorem sendTerm_host {p n i : Nat} {m : Ploam} {rest : List Ploam} {t : Terminal} {s : State} (ht : termAt s i = some t)
    (ho : t.own = []) (hh : t.hostMsgs = m :: rest) :
    sendTerm p n i s = sendPloam p (i % 512) m (updTerm i (fun t => { t with hostMsgs := rest }) s) := by
  unfold sendTerm
  rw [ht]
  dsimp only
  rw [ho, hh]
  rfl

theorem sendTerm_sends (p n i : Nat) (s : State) : Sends s (sendTerm p n i s) := by
  unfold sendTerm
  (repeat' split)
  · exact Sends.refl s
  · exact ((updTerm_sends ..).trans (sendPloam_sends ..)).trans (ploamSent_sends ..)
  · exact (updTerm_sends ..).trans (sendPloam_sends ..)
  · exact Sends.refl s

theorem sendPloams_sends (p n : Nat) (s : State) : Sends s (sendPloams p n s).1 := by
  unfold sendPloams
  dsimp only
  have hb := forEach_sends ((broadcasts s p n).take 16) (fun m s => sendPloam_sends p broadcastOnu m s) s
  generalize forEach ((broadcasts s p n).take 16) (fun m s => sendPloam p broadcastOnu m s) s = s1 at hb ⊢
  generalize hbyes : (portAt s1 p).goodbyes.take (16 - ((broadcasts s p n).take 16).length) = byes
  have hg : Sends s1 (forEach byes (fun o s => sendPloam p o .deactivate s)
      (updPort p (fun x => { x with goodbyes := x.goodbyes.drop byes.length }) s1)) :=
    (updPort_sends p (by exact fun _ => rfl) s1).trans (forEach_sends byes (fun o s => sendPloam_sends p o .deactivate s) _)
  generalize forEach byes (fun o s => sendPloam p o .deactivate s)
    (updPort p (fun x => { x with goodbyes := x.goodbyes.drop byes.length }) s1) = s2 at hg ⊢
  split
  · exact (hb.trans hg).trans (forEach_sends _ (sendTerm_sends p n) s2)
  · have hf : Sends s2 (takeFree s2) := sends_of_ports List.prefix_rfl rfl
    exact ((hb.trans hg).trans hf).trans (forEach_sends _ (sendTerm_sends p n) _)

theorem emitXgem_sends (p pos header : Nat) (bs : List Byte) (s : State) : Sends s (emitXgem p pos header bs s) := by
  have hu : emitXgem p pos header bs s =
      emit (.xgem p header bs) (updPort p (fun x => { x with fs := x.fs ++ [(pos, beBytes 8 header ++ bs)] }) s) := rfl
  rw [hu]
  exact (updPort_sends p (by exact fun _ => rfl) s).trans (sends_of_ports (List.prefix_append ..) rfl)

theorem sendXgem_sends (p n pos : Nat) (x : XgemTx) (t : Terminal) (bs : List Byte) (last : Bool) (s : State) :
    Sends s (sendXgem p n pos x t bs last s) := by
  unfold sendXgem
  split
  · exact emitXgem_sends ..
  · exact sends_of_ports (by simp [arrayWork, frameIn]) rfl


theorem fillIdle_sends (p cap : Nat) (s : State) : Sends s (fillIdle p cap s) := by
  unfold fillIdle
  split
  · exact Sends.refl s
  · exact sends_of_ports (List.prefix_append ..) rfl

theorem fillFrame_sends (p n total : Nat) (l : List XgemTx) : ∀ cap s, Sends s (fillFrame p n total cap l s).1 := by
  induction l with
  | nil => exact fun cap s => fillIdle_sends p cap s
  | cons x r ih =>
    intro cap s
    have hcount (c : Bool) : Sends s (countEvent p 0x101 x.world 1 (if c then countEvent 0x48 0x101 x.world 1 s else s)) :=
      sends_of_ports (by cases c <;> exact List.prefix_rfl) (by cases c <;> rfl)
    unfold fillFrame
    dsimp only
    split
    · exact Sends.trans (t := bumpW cDropChannel 9 p x.world s) (sends_of_ports List.prefix_rfl rfl) (ih ..)
    split
    · exact ih ..
    split
    · exact ih ..
    have hc := hcount x.omci
    generalize countEvent p 0x101 x.world 1 (if x.omci then countEvent 0x48 0x101 x.world 1 s else s) = u at hc ⊢
    split
    · exact (hc.trans (sendXgem_sends ..)).trans (ih ..)
    split
    · exact hc.trans (fillIdle_sends ..)
    · exact hc.trans (sendXgem_sends ..)

theorem sendXgems_sends (p n ploams : Nat) (s : State) : Sends s (sendXgems p n ploams s) := by
  unfold sendXgems
  exact (fillFrame_sends ..).trans (updPort_sends p (by exact fun _ => rfl) _)

/-- What a PON frame sends comes after its own output. -/
theorem sendFrameN_sends (p n : Nat) (s : State) :
    Sends (emit (.ponFrame p n (cfgAt s p).ponId) (if n % 8192 = 0 then updPort p (fun x => { x with tod := (n, ponTxTime s p) }) s else s))
      (sendFrameN p n s) := by
  unfold sendFrameN
  dsimp only
  generalize emit (.ponFrame p n (cfgAt s p).ponId) (if n % 8192 = 0 then updPort p (fun x => { x with tod := (n, ponTxTime s p) }) s else s) = u
  have hp := sendPloams_sends p n u
  generalize sendPloams p n u = r at hp ⊢
  obtain ⟨v, k⟩ := r
  exact hp.trans (sendXgems_sends p n k v)

/-! ## The boundary (R19, R96) -/

theorem mem_broadcasts_deactivate {p n k : Nat} {s : State} (h : (portAt s p).stopping = some k) :
    .deactivate ∈ broadcasts s p n ↔ k ≤ n ∧ n < k + 3 := by
  have hx : .deactivate ∉ (if n % 8 = 0 && (offerBits s p ≠ 0 || (portAt s p).tail ≠ 0)
      then [Ploam.extOffer (offerBits s p) (portAt s p).running] else []) := by split <;> simp
  unfold broadcasts
  dsimp only
  rw [h]
  dsimp only
  rw [List.mem_append, List.mem_append, or_iff_left hx, or_iff_left (by simp)]
  by_cases hk : k ≤ n ∧ n < k + 3 <;> simp [hk]

theorem beginFrame_unused {p : Nat} {s : State} (h : inService s p = false) (n : Nat) (rogue : Bool) : beginFrame p n rogue s = s := by
  rw [beginFrame, h]
  rfl

theorem granting_unused {p : Nat} {s : State} (h : inService s p = false) : granting s p = false := by
  rw [granting, h, Bool.false_and]

theorem applySwitch_eq {i index at_ n : Nat} {t : Terminal} {s : State} (h : t.switch = some (index, at_)) :
    applySwitch n (i, t) s = if n < at_ then s else
      let u := updTerm i (fun t => { t with keyIndex := index, switch := none, switched := some (t.keyIndex, n) }) s
      if at_ < n then bumpPon 14 t.port (some i) t.world u else u := by
  unfold applySwitch
  dsimp only
  rw [h]

theorem forBelow_eq_self {β : Type} (n : Nat) (f : Nat → β → β) (b : β) (h : ∀ i < n, f i b = b) : forBelow n f b = b :=
  forEach_eq_self (List.range n) f b fun i hi => h i (List.mem_range.mp hi)

theorem frameBoundary_unused {s : State} (h : ∀ p < 64, inService s p = false) (energy : List (Nat × List Nat)) :
    frameBoundary energy s = { s with time := { s.time with sfc := s.time.sfc + 1, sfcAt := s.mono, frames := s.time.frames + 1 } } := by
  unfold frameBoundary
  dsimp only
  have hlate : forBelow 64 (fun p u => if (granting u p && decide ((mapsAt u p).handed < s.time.sfc + 1)) = true
      then deadline p (s.time.sfc + 1) u else u) s = s :=
    forBelow_eq_self 64 _ s fun p hp => if_neg (by rw [granting_unused (h p hp), Bool.false_and]; exact Bool.false_ne_true)
  rw [hlate]
  refine forBelow_eq_self 64 _ _ fun p hp => ?_
  exact beginFrame_unused (by exact h p hp) ..

/-- Settles O47: the boundary by its time, the energy by the run of samples, and each part of a PON frame by its own rule. -/
theorem framesBeginAtTheBoundary : Obligations.FramesBeginAtTheBoundary := by
  refine ⟨fun energy s h => ?_, fun energy s h => ?_, fun energy s h hp => ?_, fun s p codes before after hl hc => ?_,
    fun s p codes x hx => ?_, fun s p e h => ?_, fun p n rogue s hs => ?_, fun p n s hn => ?_, fun p n s hp hn => ?_,
    fun p s hst ho hl hr => ?_, fun i index at_ n t s h => ⟨fun hn => ?_, fun hn => ?_, fun hn => ?_⟩,
    fun p n i m rest t s ht => ⟨sendTerm_own ht, sendTerm_host ht⟩, fun p n k s h => mem_broadcasts_deactivate h, fun p s hr ho => ?_⟩
  · intro n late t
    refine congrArg Host.Outcome.next ((whenever_of (decide_eq_true h) _ s).trans ?_)
    unfold frameBoundary
    dsimp only
    have hlate : (fun p u => if (granting u p && decide ((mapsAt u p).handed < s.time.sfc + 1)) = true
        then deadline p (s.time.sfc + 1) u else u) = late := by
      funext p u
      exact if_congr (by rw [Bool.and_eq_true, decide_eq_true_eq]) rfl rfl
    rw [hlate]
  · exact congrArg Host.Outcome.next (whenever_of_false (decide_eq_false (Nat.not_le.mpr h)) _ s)
  · exact congrArg Host.Outcome.next ((whenever_of (decide_eq_true h) _ s).trans (frameBoundary_unused hp energy))
  · intro at_ hfree
    obtain ⟨b, m, a, heq, hm, habove⟩ := openCodes_open (s := s) (p := p) (before := before) (after := after) (s.time.sfc - 1) hc (by rw [hl]; exact hfree)
    rw [rogueSeen_own, heq, decide_eq_true_eq]
    refine le_longestRun_append (fun run best => ?_) b 0 0
    have := length_le_longestRun habove a run best
    omega
  · intro at_ hin
    have hz := openCodes_held (s.time.sfc - 1) hx hin
    rw [rogueSeen_own, longestRun_quiet (fun c hc => (hz c hc).le.trans (Nat.zero_le _))]
    rfl
  · by_cases hp : e.1 = p
    · obtain ⟨q, codes⟩ := e
      obtain rfl : q = p := hp
      rw [rogueSeen_own, decide_eq_false_iff_not, Nat.not_le]
      obtain h | h | h := h
      · exact absurd rfl h
      · rw [longestRun_quiet (openCodes_le _ h)]
        decide
      · have := longestRun_le (cfgAt s q).energyTh (openCodes s q (s.time.sfc - 1) codes) 0 0
        rw [length_openCodes] at this
        dsimp only at h
        omega
    · exact rogueSeen_other hp
  · intro t u v
    have hsend : ((portAt v p).framing && !(portAt v p).txdis) = true ↔ (portAt v p).framing = true ∧ (portAt v p).txdis = false := by
      rw [Bool.and_eq_true, Bool.not_eq_true']
    unfold beginFrame
    rw [hs, if_neg (by decide)]
    exact congrArg (updPort p _) (if_congr hsend rfl rfl)
  · have hsend := (sendFrameN_sends p n s).1
    rwa [if_neg hn] at hsend
  · rw [(sendFrameN_sends p n s).2 p, if_pos hn]
    exact congrArg Port.tod (portAt_updPort_self s p fun x => { x with tod := (n, ponTxTime s p) })
  · unfold startFraming
    dsimp only
    rw [hst, ho, hl, hr]
    rfl
  · rw [applySwitch_eq h, if_pos hn]
  · rw [applySwitch_eq h, if_neg (by omega)]
    dsimp only
    rw [if_neg (by omega)]
  · rw [applySwitch_eq h, if_neg (by omega)]
    dsimp only
    rw [if_pos hn]
  · unfold judgeRogue
    dsimp only
    rw [hr, ho]
    rfl

end Sys2Proof.Machine
end

section
/-! PROOFS. The PON transmitter, the presence of optics, and the optics buses. -/

namespace Sys2Proof.Machine

/-! ## The optics buses (R127, R129) -/

/-- A bus of which a line is held low is tried, and is stuck where it is not freed. -/
theorem recoverBus_eq (bus : Nat) (s : State) :
    let u := emit (.opticsRecovery bus) s
    let freed := { u with pon := { u.pon with stuck := mdel s.pon.stuck bus } }
    let stuck := { u with pon := { u.pon with stuck := mset s.pon.stuck bus s.mono } }
    (mhas s.pon.stuck bus = false → recoverBus bus true s = freed ∧ recoverBus bus false s = raise 0x01 0 (8 * bus) bus 0x011A 1 0 stuck) ∧
    (mhas s.pon.stuck bus = true → recoverBus bus true s = lower 0x01 0 (8 * bus) bus 0x011A 1 freed ∧ recoverBus bus false s = stuck) := by
  unfold recoverBus
  dsimp only
  refine ⟨fun h => ?_, fun h => ?_⟩
  · rw [h]
    exact ⟨rfl, rfl⟩
  · rw [h]
    exact ⟨rfl, rfl⟩

theorem exec_opticsBusRecovery {bus t0 : Nat} {s : State} (hb : bus < 8) (hs : mget s.pon.stuck bus = some t0) (h : t0 + sec ≤ s.mono)
    (released : Bool) : exec (.opticsBusRecovery bus released) s = .next (recoverBus bus released s) := by
  refine (onObject_of (by simp [hb]) _).trans (congrArg Host.Outcome.next (whenever_of ?_ _ s))
  rw [hs]
  exact decide_eq_true h

theorem exec_opticsPoll {p outcome dev reg n : Nat} {released : Bool} {s : State} (hp : p < 64) (hpres : (portAt s p).pres = true)
    (hs : mget s.pon.stuck (p / 8) = none) (hd : ∀ t0, mget s.pon.polled p = some t0 → t0 + sec ≤ s.mono)
    (hc : Config.opticsFlags = (dev, reg, n)) :
    let v := opticsTransaction p dev reg [] n { s with pon := { s.pon with polled := mset s.pon.polled p s.mono } }
    exec (.opticsPoll p outcome released) s = .next (if outcome = 3 then recoverBus (p / 8) released v else v) := by
  have hstuck : mhas s.pon.stuck (p / 8) = false := by rw [mhas, hs]; rfl
  refine (onObject_of (by simp [hp]) _).trans (congrArg Host.Outcome.next ((whenever_of ?_ _ s).trans ?_))
  · rw [hpres, hstuck]
    cases ht : mget s.pon.polled p with
    | none => rfl
    | some t0 => exact (congrArg (· && true && !false) (decide_eq_true (hd t0 ht))).trans rfl
  · rw [hc]

/-! ## Presence (R130, R553) -/

theorem exec_opticsTxdisRelease {p t0 : Nat} {s : State} (hp : p < 64) (hr : (portAt s p).release = some t0) :
    exec (.opticsTxdisRelease p) s = .next (whenever (passed s t0 (100 * ms)) (fun s =>
      let s1 := updPort p (fun x => { x with release := none, starting := true }) s
      if (portAt s p).lolTx then s1 else setTxdis p false s1) s) := by
  refine (?_ : execOpticsTxdisRelease p s = _)
  unfold execOpticsTxdisRelease
  rw [onObject_of (by simp [hp]), hr]

theorem exec_opticsRemoved {p : Nat} {s : State} (hp : p < 64) :
    let u := updPort p (fun x => { x with pres := false, release := none }) s
    exec (.opticsRemoved p) s = .next (if inService s p && !(portAt s p).noOptics then noOptics p u else u) :=
  onObject_of (by simp [hp]) _

theorem exec_opticsInserted {p : Nat} {s : State} (hp : p < 64) :
    let u := updPort p (fun x => { x with pres := true }) s
    exec (.opticsInserted p) s = .next (if (portAt s p).noOptics then
      portDefect p 0x0114 1 false (updPort p (fun x => { x with noOptics := false, release := some s.mono }) u) else u) :=
  onObject_of (by simp [hp]) _

/-- Settles O48: each event by the presence, the defect and the bus that it finds. -/
theorem opticsAreWatched : Obligations.OpticsAreWatched := by
  refine ⟨fun p s hp hs hl => ?_, fun p s hp => ⟨fun hs ho => ?_, fun h => ?_⟩, fun p s hp => ⟨fun ho => ?_, fun ho => ?_⟩,
    fun p t0 s hp hr h => ?_, fun p t0 s hp hr h => ?_, fun p outcome released s hp hpres hs hd => ?_, fun bus t0 s hb hs h => ?_,
    fun bus s hs => ?_⟩
  · exact (onObject_of (by simp [hp]) _).trans (congrArg Host.Outcome.next (whenever_of (by rw [hs, hl]; rfl) _ s))
  · rw [exec_opticsRemoved hp, if_pos (by rw [hs, ho]; rfl)]
    rfl
  · rw [exec_opticsRemoved hp, if_neg]
    obtain h | h := h <;> simp [h]
  · rw [exec_opticsInserted hp, if_pos ho]
    rfl
  · rw [exec_opticsInserted hp, if_neg (by simp [ho])]
  · have hd : passed s t0 (100 * ms) = true := decide_eq_true h
    exact (exec_opticsTxdisRelease hp hr).trans (congrArg Host.Outcome.next (whenever_of hd _ s))
  · have hd : passed s t0 (100 * ms) = false := decide_eq_false (Nat.not_le.mpr h)
    rw [exec_opticsTxdisRelease hp hr, whenever_of_false hd]
  · intro u
    rcases hc : Config.opticsFlags with ⟨dev, reg, n⟩
    exact exec_opticsPoll hp hpres hs hd hc
  · obtain ⟨-, hstuck⟩ := recoverBus_eq bus s
    obtain ⟨hfreed, hheld⟩ := hstuck (by rw [mhas, hs]; rfl)
    exact ⟨(exec_opticsBusRecovery hb hs h true).trans (congrArg _ hfreed), (exec_opticsBusRecovery hb hs h false).trans (congrArg _ hheld)⟩
  · obtain ⟨hfree, -⟩ := recoverBus_eq bus s
    exact hfree (by rw [mhas, hs]; rfl)

end Sys2Proof.Machine
end

section
/-! PROOFS. The sampling instant: the unit of a ring and the records that it writes. -/

namespace Sys2Proof.Machine

/-- A ring whose unit has nothing to say is left. -/
theorem ringUnit_empty {world : Nat} {r : Ring} {s : State} (hq : unitQueues s world = []) (hl : r.lost = 0) (inTime : Bool) :
    ringUnit world r inTime s = s := by
  unfold ringUnit
  dsimp only
  rw [hq, hl]
  rfl

/-- The unit of a ring that has queues to list or losses to tell: it is written whole, or lost. -/
theorem ringUnit_due {world : Nat} {r : Ring} {s : State} (h : unitQueues s world ≠ [] ∨ r.lost ≠ 0) (inTime : Bool) :
    let qs := unitQueues s world
    let put (r : Ring) (s : State) : State := { s with tm := { s.tm with rings := mset s.tm.rings world r } }
    let n := qs.length + 1
    let recs := (qs.zip (List.range qs.length)).map fun e => sampleWords s r (r.written + 1 + e.2) e.1
    ringUnit world r inTime s = if r.size < r.written - r.consumed.getD 0 + n || !inTime then
        bumpBy { cid := cid 8 9 10, world := world } qs.length
          (put { r with lost := satAdd 0xFFFF r.lost qs.length, lostAll := satAdd 0xFFFFFFFF r.lostAll qs.length } s)
      else put { r with written := r.written + n, lost := 0 } (writeRecords r r.written (periodWords s r qs.length :: recs) s) := by
  have hdue : ¬((unitQueues s world).isEmpty && decide (r.lost = 0)) = true := by
    rw [Bool.and_eq_true, List.isEmpty_iff, decide_eq_true_eq]
    exact fun ⟨hq, hl⟩ => h.elim (· hq) (· hl)
  unfold ringUnit
  dsimp only
  rw [if_neg hdue]
  rfl

/-- The records of a unit leave in order, each at its place in the ring. -/
theorem writeRecords_out (r : Ring) (recs : List (List Word)) : ∀ (k : Nat) (s : State),
    (writeRecords r k recs s).out = s.out ++ (recs.zip (List.range recs.length)).map fun e =>
      .dma r.fn (r.addr + (k + e.2) % r.size * 16) (bytesOfWords e.1) := by
  induction recs with
  | nil => exact fun k s => (List.append_nil _).symm
  | cons ws rest ih =>
    intro k s
    rw [writeRecords, ih, List.length_cons, List.range_succ_eq_map, List.zip_cons_cons, List.map_cons, List.zip_map_right, List.map_map]
    refine (List.append_assoc ..).trans (congrArg (s.out ++ ·) (congrArg (_ :: ·) (List.map_congr_left fun e _ => ?_)))
    simp only [Function.comp_apply, Prod.map_fst, Prod.map_snd, id_eq, Nat.succ_eq_add_one]
    rw [Nat.add_right_comm, Nat.add_assoc]

/-- Settles O49: a ring's unit by whether it has something to say and fits, and its records one by one. -/
theorem samplesFillTheRings : Obligations.SamplesFillTheRings := by
  refine ⟨fun inTime s h => ?_, fun inTime s h => ?_, fun world r inTime s => ⟨fun hq hl => ringUnit_empty hq hl inTime, fun hd h => ?_,
    fun hd hfit ht => ?_⟩, fun r k recs s => writeRecords_out r recs k s⟩
  · exact congrArg Host.Outcome.next (whenever_of_false (decide_eq_false (not_not.mpr h)) _ s)
  · exact congrArg Host.Outcome.next (whenever_of (decide_eq_true h) _ s)
  · rw [ringUnit_due hd, if_pos]
    rw [Bool.or_eq_true, decide_eq_true_eq, Bool.not_eq_true']
    exact h
  · rw [ringUnit_due hd, if_neg]
    rw [Bool.or_eq_true, decide_eq_true_eq, Bool.not_eq_true', ht, not_or]
    exact ⟨Nat.not_lt.mpr hfit, Bool.noConfusion⟩

end Sys2Proof.Machine
end

section
/-! PROOFS. The cells of HBM under the operations of the model:
what the operations of the state, queues, packets, rules and keys leave. A frame lemma
for each operation: `f_cells` says that `f` leaves the cells as they were. -/

namespace Sys2Proof.Machine

/-- The state that a command or an event leaves; one that names no object leaves the state as it is. -/
def stateAfter (s : State) (r : Res) : State := match r with | .next t => t | _ => s

@[simp] theorem stateAfter_next (s t : State) : stateAfter s (.next t) = t := rfl

@[simp] theorem stateAfter_fault (s : State) (f : Fault) : stateAfter s (.fault f) = s := rfl

@[simp] theorem stateAfter_onObject (s t : State) (ok : Bool) :
    stateAfter s (onObject ok t) = if ok = true then t else s := by
  unfold onObject
  split <;> rfl

@[simp] theorem ite_cells (c : Prop) [Decidable c] (s t : State) :
    (if c then s else t).mem.cells = if c then s.mem.cells else t.mem.cells := apply_ite (fun u : State => u.mem.cells) ..

@[simp] theorem whenever_cells (c : Bool) (f : State → State) (s : State) (h : (f s).mem.cells = s.mem.cells) :
    (whenever c f s).mem.cells = s.mem.cells := by
  unfold whenever
  split <;> simp [h]

@[simp] theorem forEach_cells {α : Type} (l : List α) (f : α → State → State) (s : State)
    (h : ∀ a u, (f a u).mem.cells = u.mem.cells) : (forEach l f s).mem.cells = s.mem.cells :=
  forEach_keeps (fun u => u.mem.cells) l f h s

@[simp] theorem forBelow_cells (n : Nat) (f : Nat → State → State) (s : State)
    (h : ∀ a u, (f a u).mem.cells = u.mem.cells) : (forBelow n f s).mem.cells = s.mem.cells :=
  forBelow_keeps (fun u => u.mem.cells) n f h s
/-! ## Rules for what a handler and a command leave -/

@[simp] theorem left_refuse (s : State) (st : Status) (ws : List Word) : (HRes.refuse st ws).left s = s := rfl

@[simp] theorem left_done (s t : State) (ws : List Word) : (HRes.done t ws).left s = t := rfl

@[simp] theorem left_doneBuf (s t : State) (ws : List Word) (d : List Byte) : (HRes.doneBuf t ws d).left s = t := rfl

@[simp] theorem left_ended (s t : State) (st : Status) (ws : List Word) : (HRes.ended t st ws).left s = t := rfl

@[simp] theorem left_last (s t : State) (ws : List Word) (a : AfterReply) (b : Bool) : (HRes.last t ws a b).left s = t := rfl

@[simp] theorem left_wait (s t : State) (d : List Nat) : (HRes.wait t d).left s = t := rfl

@[simp] theorem left_refuseIf (c : Bool) (st : Status) (ws : List Word) (k : HRes) (s : State) :
    (refuseIf c st ws k).left s = if c = true then s else k.left s := by
  unfold refuseIf
  split <;> rfl

@[simp] theorem left_ite (c : Prop) [Decidable c] (s : State) (k l : HRes) :
    (if c then k else l).left s = if c then k.left s else l.left s := apply_ite (HRes.left s) ..

@[simp] theorem stateAfter_ite (c : Prop) [Decidable c] (s : State) (k l : Res) :
    stateAfter s (if c then k else l) = if c then stateAfter s k else stateAfter s l := apply_ite (stateAfter s) ..

theorem refuseIf_cells {c : Bool} {st : Status} {ws : List Word} {k : HRes} {s : State} (h : (k.left s).mem.cells = s.mem.cells) :
    ((refuseIf c st ws k).left s).mem.cells = s.mem.cells := by
  rw [left_refuseIf]
  split
  · rfl
  · exact h

@[simp] theorem snd_ite_cells (c : Prop) [Decidable c] (x y : Status × List Word × State) :
    (if c then x else y).2.2.mem.cells = if c then x.2.2.mem.cells else y.2.2.mem.cells :=
  apply_ite (fun z : Status × List Word × State => z.2.2.mem.cells) ..

/-! ## Operations of the state -/

@[simp] theorem onObject_cells (ok : Bool) (s : State) : (stateAfter s (onObject ok s)).mem.cells = s.mem.cells := by
  simp [onObject]

@[simp] theorem flushHeld_cells (q fuel : Nat) (s : State) : (flushHeld q fuel s).mem.cells = s.mem.cells := by
  induction fuel generalizing s with
  | zero => rfl
  | succ k ih =>
    unfold flushHeld
    (repeat' split) <;> simp [ih]

@[simp] theorem tornSetting_cells (i : Nat) (s : State) : (tornSetting i s).mem.cells = s.mem.cells := by simp [tornSetting]

@[simp] theorem settingFault_cells (i : Nat) (s : State) : (settingFault i s).mem.cells = s.mem.cells := by simp [settingFault]

@[simp] theorem signAll_cells (s : State) : (signAll s).mem.cells = s.mem.cells := by simp [signAll]

@[simp] theorem keepSlot_cells (n : Nat) (x : Slot) (ok : Bool) (s : State) :
    (keepSlot n x ok s).mem.cells = s.mem.cells := by simp [keepSlot]

/-! ## Reset -/

@[simp] theorem pinsReset_cells (s : State) : (pinsReset s).mem.cells = s.mem.cells := by
  unfold pinsReset
  exact (forBelow_cells 64 _ _ fun _ _ => rfl).trans rfl

@[simp] theorem reportIf_cells (on : Bool) (inst res code : Nat) (detail : Word) (s : State) :
    (reportIf on inst res code detail s).mem.cells = s.mem.cells := by simp [reportIf]

@[simp] theorem standingFaults_cells (s : State) : (standingFaults s).mem.cells = s.mem.cells := by simp [standingFaults]

@[simp] theorem pinsUnpowered_cells (s : State) : (pinsUnpowered s).mem.cells = s.mem.cells := by simp [pinsUnpowered]

/-! ## Queue pairs and commands -/

@[simp] theorem toBuffer_cells (p : Packet) (bs : List Byte) (s : State) :
    (toBuffer p bs s).mem.cells = s.mem.cells := by simp [toBuffer]

theorem answer_cells (p : Packet) (hasBuf : Bool) (bufLen : Nat) (r : HRes) (s : State)
    (h : (r.left s).mem.cells = s.mem.cells) (hl : ∀ t ws a force, r ≠ .last t ws a force) :
    (answer p hasBuf bufLen r s).mem.cells = s.mem.cells := by
  cases r with
  | refuse st ws => simp [answer]
  | ended t st ws => simpa [answer] using h
  | wait t d => exact h
  | last t ws a force => exact absurd rfl (hl t ws a force)
  | done t ws =>
    have ht : t.mem.cells = s.mem.cells := h
    unfold answer
    dsimp only
    (repeat' split) <;> simp [ht]
  | doneBuf t ws d =>
    have ht : t.mem.cells = s.mem.cells := h
    unfold answer
    dsimp only
    (repeat' split) <;> simp [ht]

@[simp] theorem finish_cells (q : Nat) (r : State → HRes) (s : State) (h : ∀ u, ((r u).left u).mem.cells = u.mem.cells)
    (hl : ∀ u t ws a force, r u ≠ .last t ws a force) : (finish q r s).mem.cells = s.mem.cells := by
  unfold finish
  split
  · rfl
  next x hx =>
    dsimp only
    have hr := h (updPair q (fun p => { p with executing := none }) s)
    have hn := hl (updPair q (fun p => { p with executing := none }) s)
    split
    next u d hu =>
      rw [hu] at hr
      simpa using hr
    · split
      · simpa using hr
      · simpa using answer_cells _ _ _ _ _ hr hn

@[simp] theorem finishAll_cells (op : Nat) (r : State → HRes) (s : State) (h : ∀ u, ((r u).left u).mem.cells = u.mem.cells)
    (hl : ∀ u t ws a force, r u ≠ .last t ws a force) : (finishAll op r s).mem.cells = s.mem.cells := by
  exact forEach_cells _ _ _ fun q u => finish_cells q r u h hl

@[simp] theorem stageCommand_cells (op : OpSpec) (p : Packet) (shadow : State) (s : State) :
    ((stageCommand op p shadow s).left s).mem.cells = s.mem.cells := by
  unfold stageCommand
  dsimp only
  (repeat' split) <;> simp

@[simp] theorem dropCache_cells (s : State) : (dropCache s).mem.cells = s.mem.cells := by simp [dropCache]

@[simp] theorem kept_cells (op : OpSpec) (s t : State) : (kept op s t).mem.cells = t.mem.cells := by
  unfold kept
  dsimp only
  (repeat' split) <;> simp

@[simp] theorem takePacket_cells (p : Packet) (s : State) : (takePacket p s).mem.cells = s.mem.cells := by
  unfold takePacket
  (repeat' split) <;> simp

@[simp] theorem setExecuting_cells (p : Packet) (op : Nat) (data : List Nat) (s : State) :
    (setExecuting p op data s).mem.cells = s.mem.cells := by simp [setExecuting]

@[simp] theorem abortIdle_cells (q : Nat) (s : State) : (abortIdle q s).mem.cells = s.mem.cells := by
  unfold abortIdle
  split
  · rfl
  · split
    · rfl
    · exact finish_cells q _ s (fun _ => rfl) (by simp)

@[simp] theorem dropWaits_cells (s : State) : (dropWaits s).mem.cells = s.mem.cells := by simp [dropWaits]

@[simp] theorem freeze_cells (s : State) : (freeze s).mem.cells = s.mem.cells := by simp [freeze]

@[simp] theorem appendWritten_cells (op : Nat) (p : Packet) (s : State) :
    (appendWritten op p s).mem.cells = s.mem.cells := by simp [appendWritten]

@[simp] theorem fetchFault_cells (q : Nat) (s : State) : (fetchFault q s).mem.cells = s.mem.cells := by simp [fetchFault]

@[simp] theorem holdBack_cells (q : Nat) (s : State) : (holdBack q s).mem.cells = s.mem.cells := by simp [holdBack]

/-! ## Counters -/

@[simp] theorem setCycle_cells (i : Nat) (c : CycleCtr) (s : State) : (setCycle i c s).mem.cells = s.mem.cells := by
  simp [setCycle]

@[simp] theorem settleProg_cells (i : Nat) (s : State) : (settleProg i s).mem.cells = s.mem.cells := by simp [settleProg]

@[simp] theorem stopCycle_cells (i : Nat) (s : State) : (stopCycle i s).mem.cells = s.mem.cells := by simp [stopCycle]

@[simp] theorem startCycle_cells (i : Nat) (s : State) : (startCycle i s).mem.cells = s.mem.cells := by
  unfold startCycle
  dsimp only
  (repeat' split) <;> simp

@[simp] theorem relockPort_cells (p : Nat) (fast : Bool) (s : State) :
    (relockPort p fast s).mem.cells = s.mem.cells := by simp [relockPort]

@[simp] theorem runCounterConfig_cells (c : Ctx) (s : State) :
    ((runCounterConfig c s).left s).mem.cells = s.mem.cells := by simp [runCounterConfig]

@[simp] theorem runCounterRead_cells (c : Ctx) (s : State) :
    ((runCounterRead c s).left s).mem.cells = s.mem.cells := by
  unfold runCounterRead
  dsimp only
  (repeat' split) <;> simp

@[simp] theorem clearProg_cells (mask : Nat) (s : State) : (clearProg mask s).mem.cells = s.mem.cells := by simp [clearProg]

@[simp] theorem withdrawGrants_cells (fn : Nat) (s : State) : (withdrawGrants fn s).mem.cells = s.mem.cells := by
  simp [withdrawGrants]

@[simp] theorem runVfCounterGrant_cells (c : Ctx) (s : State) :
    ((runVfCounterGrant c s).left s).mem.cells = s.mem.cells := by simp [runVfCounterGrant]

/-! ## The scheduling tree -/

@[simp] theorem settle_cells (path : List NodeId) (s : State) : (settle path s).mem.cells = s.mem.cells := by simp [settle]

@[simp] theorem settleQueue_cells (q : NodeId) (s : State) : (settleQueue q s).mem.cells = s.mem.cells := by simp [settleQueue]

/-! ## Pools -/

@[simp] theorem updPool_cells (p : Nat) (f : Pool → Pool) (s : State) : (updPool p f s).mem.cells = s.mem.cells := by
  simp [updPool]

@[simp] theorem refill_cells (p n : Nat) (s : State) : (refill p n s).mem.cells = s.mem.cells := by simp [refill]

@[simp] theorem spill_cells (p n : Nat) (s : State) : (spill p n s).mem.cells = s.mem.cells := by simp [spill]

@[simp] theorem refillFor_cells (fuel p n : Nat) (s : State) : (refillFor fuel p n s).mem.cells = s.mem.cells := by
  induction fuel generalizing s with
  | zero => rfl
  | succ k ih =>
    unfold refillFor
    split <;> simp [ih]

/-- What is taken, if anything is, leaves the bytes of HBM. -/
def TakenLeaves {α : Type} (s : State) (r : Option (α × State)) : Prop := ∀ x, r = some x → x.2.mem.cells = s.mem.cells

theorem takeCells_cells (p n : Nat) (s : State) : TakenLeaves s (takeCells p n s) := by
  intro x h
  unfold takeCells at h
  dsimp only at h
  split at h
  · exact absurd h (by simp)
  · obtain rfl := Option.some.inj h
    dsimp only
    split <;> simp

@[simp] theorem refuseFree_cells (p h : Nat) (s : State) : (refuseFree p h s).mem.cells = s.mem.cells := by simp [refuseFree]

theorem share_cells (cells : List Nat) (s : State) : ∀ t, share cells s = some t → t.mem.cells = s.mem.cells := by
  intro t h
  unfold share at h
  dsimp only at h
  split at h
  · obtain rfl := Option.some.inj h
    rfl
  · split at h
    · exact absurd h (by simp)
    · obtain rfl := Option.some.inj h
      rfl

/-! ## Packets and replies -/

@[simp] theorem countWorldDrop_cells (f : Frame) (s : State) : (countWorldDrop f s).mem.cells = s.mem.cells := by
  simp [countWorldDrop]

@[simp] theorem epochIn_cells (s : State) : (epochIn s).mem.cells = s.mem.cells := by simp [epochIn]

@[simp] theorem endFlight_cells (id : Nat) (s : State) : (endFlight id s).mem.cells = s.mem.cells := by simp [endFlight]

@[simp] theorem launch_cells (x : Flight) (s : State) : (launch x s).mem.cells = s.mem.cells := by simp [launch]

@[simp] theorem dropCounted_cells (c scope idx id : Nat) (s : State) :
    (dropCounted c scope idx id s).mem.cells = s.mem.cells := by
  unfold dropCounted
  (repeat' split) <;> simp

@[simp] theorem dropEpoch_cells (id : Nat) (s : State) : (dropEpoch id s).mem.cells = s.mem.cells := by
  unfold dropEpoch
  (repeat' split) <;> simp

@[simp] theorem emitXgem_cells (p pos header : Nat) (bs : List Byte) (s : State) :
    (emitXgem p pos header bs s).mem.cells = s.mem.cells := by simp [emitXgem]

@[simp] theorem fillIdle_cells (p cap : Nat) (s : State) : (fillIdle p cap s).mem.cells = s.mem.cells := by simp [fillIdle]

@[simp] theorem toHost_cells (q : Nat) (f : Frame) (ext : List Word) (s : State) :
    (toHost q f ext s).mem.cells = s.mem.cells := by simp [toHost]

@[simp] theorem excHost_cells (b : Bank) (code q : Nat) (f : Frame) (s : State) :
    (excHost b code q f s).mem.cells = s.mem.cells := by simp [excHost]

theorem giveChain_cells (id : Nat) (x : Flight) (s : State) : TakenLeaves s (giveChain id x s) := by
  intro y h
  unfold giveChain at h
  split at h
  · obtain rfl := Option.some.inj h
    rfl
  · obtain ⟨z, hz, rfl⟩ := Option.map_eq_some_iff.mp h
    simpa using takeCells_cells 0 _ s z hz

@[simp] theorem excCopy_cells (b : Bank) (id q : Nat) (s : State) : (excCopy b id q s).mem.cells = s.mem.cells := by
  unfold excCopy
  split
  next x hx =>
    dsimp only
    split
    · simp
    · split
      next f u hu =>
        have hc := giveChain_cells _ _ _ _ hu
        split
        next v hv => simpa using (share_cells _ _ _ hv).trans hc
        · simpa using hc
      · simp
  · rfl

@[simp] theorem excEnd_cells (b : Bank) (code id : Nat) (s : State) :
    (excEnd b code id s).mem.cells = s.mem.cells := by
  unfold excEnd
  (repeat' split) <;> simp

/-! ## Parsing -/

@[simp] theorem parsed_cells (id : Nat) (b : Bank) (x : Flight) (s : State) :
    (parsed id b x s).mem.cells = s.mem.cells := by
  unfold parsed
  dsimp only
  (repeat' split) <;> simp

@[simp] theorem execParseWalk_cells (frame : Nat) (s : State) :
    (stateAfter s (execParseWalk frame s)).mem.cells = s.mem.cells := by
  unfold execParseWalk
  (repeat' split) <;> simp

/-! ## Rules -/

@[simp] theorem applyMerged_cells (id : Nat) (b : Bank) (x : Flight) (op : Action) (ten : Option Action) (world : Nat)
    (s : State) :
    (applyMerged id b x op ten world s).mem.cells = s.mem.cells := by
  unfold applyMerged
  dsimp only
  (repeat' split) <;> simp

@[simp] theorem applyExcAction_cells (id : Nat) (b : Bank) (x : Flight) (code : Nat) (s : State) :
    (applyExcAction id b x code s).mem.cells = s.mem.cells := by simp [applyExcAction]

@[simp] theorem classify_cells (id : Nat) (b : Bank) (x : Flight) (s : State) :
    (classify id b x s).mem.cells = s.mem.cells := by
  unfold classify
  dsimp only
  (repeat' split) <;> simp

@[simp] theorem execClassify_cells (frame : Nat) (s : State) :
    (stateAfter s (execClassify frame s)).mem.cells = s.mem.cells := by
  unfold execClassify
  (repeat' split) <;> simp

@[simp] theorem putTrees_cells (v : Nat) (trees : Map Nat Tree) (s : State) :
    (putTrees v trees s).mem.cells = s.mem.cells := by simp [putTrees]

@[simp] theorem commitTrees_cells (v : Option Nat) (trees : Map Nat Tree) (s : State) (k : State → State)
    (h : ∀ u, (k u).mem.cells = u.mem.cells) : ((commitTrees v trees s k).left s).mem.cells = s.mem.cells := by
  unfold commitTrees
  split <;> simp [h]

@[simp] theorem runRuleTreeLoad_cells (c : Ctx) (s : State) :
    ((runRuleTreeLoad c s).left s).mem.cells = s.mem.cells := by
  unfold runRuleTreeLoad
  dsimp only
  (repeat' split) <;> simp

@[simp] theorem runRuleUpdate_cells (c : Ctx) (s : State) : ((runRuleUpdate c s).left s).mem.cells = s.mem.cells := by
  unfold runRuleUpdate
  dsimp only
  (repeat' split) <;> simp

@[simp] theorem runRuleVersionCommit_cells (_c : Ctx) (s : State) :
    ((runRuleVersionCommit _c s).left s).mem.cells = s.mem.cells := by
  unfold runRuleVersionCommit
  (repeat' split) <;> simp

@[simp] theorem runRuleVersionStatus_cells (c : Ctx) (s : State) :
    ((runRuleVersionStatus c s).left s).mem.cells = s.mem.cells := by simp [runRuleVersionStatus]

@[simp] theorem freeVersion_cells (v : Nat) (s : State) : (freeVersion v s).mem.cells = s.mem.cells := by simp [freeVersion]

@[simp] theorem execRuleVersionRetired_cells (v : Nat) (s : State) :
    (stateAfter s (execRuleVersionRetired v s)).mem.cells = s.mem.cells := by simp [execRuleVersionRetired]

@[simp] theorem dropVersion_cells (v : Nat) (s : State) : (dropVersion v s).mem.cells = s.mem.cells := by simp [dropVersion]

@[simp] theorem execRverDrainLate_cells (v : Nat) (s : State) :
    (stateAfter s (execRverDrainLate v s)).mem.cells = s.mem.cells := by simp [execRverDrainLate]

@[simp] theorem runParseGraphLoad_cells (c : Ctx) (s : State) :
    ((runParseGraphLoad c s).left s).mem.cells = s.mem.cells := by
  unfold runParseGraphLoad
  (repeat' split) <;> simp

@[simp] theorem runExceptionConfig_cells (c : Ctx) (s : State) :
    ((runExceptionConfig c s).left s).mem.cells = s.mem.cells := by simp [runExceptionConfig]

/-! ## Keys and Shedar -/

@[simp] theorem waitSlot_cells (c : Ctx) (s : State) : ((waitSlot c s).left s).mem.cells = s.mem.cells := by simp [waitSlot]

@[simp] theorem writeKey_cells (n : Nat) (a : Attr) (origin : Nat) (body : List Byte) (ok : Bool) (s : State) :
    (writeKey n a origin body ok s).mem.cells = s.mem.cells := by simp [writeKey]

@[simp] theorem eraseSlot_cells (n : Nat) (resetAttr : Bool) (s : State) :
    (eraseSlot n resetAttr s).mem.cells = s.mem.cells := by simp [eraseSlot]

@[simp] theorem slotOp_cells (n : Nat) (s : State) : (slotOp n s).mem.cells = s.mem.cells := by simp [slotOp]

@[simp] theorem burnRow_cells (k : Nat) (l : Life) (ok : Bool) (s : State) :
    (burnRow k l ok s).mem.cells = s.mem.cells := by simp [burnRow]

@[simp] theorem burnLife_cells (l : Life) (s : State) : (burnLife l s).mem.cells = s.mem.cells := by simp [burnLife]

@[simp] theorem completeScrap_cells (s : State) : (completeScrap s).mem.cells = s.mem.cells := by simp [completeScrap]

@[simp] theorem extendHold_cells (s : State) : (extendHold s).mem.cells = s.mem.cells := by simp [extendHold]

@[simp] theorem execAlarm_cells (sensor : Nat) (present : Bool) (s : State) :
    (stateAfter s (execAlarm sensor present s)).mem.cells = s.mem.cells := by simp [execAlarm]

@[simp] theorem execZeroisationRelease_cells (s : State) :
    (stateAfter s (execZeroisationRelease s)).mem.cells = s.mem.cells := by simp [execZeroisationRelease]

@[simp] theorem runAlarmStatus_cells (_c : Ctx) (s : State) :
    ((runAlarmStatus _c s).left s).mem.cells = s.mem.cells := by simp [runAlarmStatus]

@[simp] theorem runKeyGenerate_cells (c : Ctx) (s : State) :
    ((runKeyGenerate c s).left s).mem.cells = s.mem.cells := by
  unfold runKeyGenerate
  dsimp only
  iterate 10 refine refuseIf_cells ?_
  split
  · simp
  iterate 2 refine refuseIf_cells ?_
  split
  · split <;> simp
  split
  · iterate 4 refine refuseIf_cells ?_
    split <;> simp
  split
  · simp
  refine refuseIf_cells ?_
  split
  · simp
  split
  · simp
  next k _ =>
    rw [left_ite, left_ended, left_done, ite_cells, slotOp_cells, ite_cells, takeFree_mem, writeKey_cells, ite_self, ite_self]

@[simp] theorem runKeyWrap_cells (c : Ctx) (s : State) : ((runKeyWrap c s).left s).mem.cells = s.mem.cells := by
  simp [runKeyWrap]

@[simp] theorem runSlotErase_cells (c : Ctx) (s : State) : ((runSlotErase c s).left s).mem.cells = s.mem.cells := by
  simp [runSlotErase]

@[simp] theorem runSlotInfo_cells (c : Ctx) (s : State) : ((runSlotInfo c s).left s).mem.cells = s.mem.cells := by
  simp [runSlotInfo]

@[simp] theorem setCounter_cells (e c : Nat) (ok : Bool) (s : State) :
    (setCounter e c ok s).mem.cells = s.mem.cells := by simp [setCounter]

@[simp] theorem shedarFailed_cells (st : Status) (s : State) : (shedarFailed st s).mem.cells = s.mem.cells := by
  simp [shedarFailed]

@[simp] theorem openDebugArea_cells (s : State) : (openDebugArea s).mem.cells = s.mem.cells := by simp [openDebugArea]

@[simp] theorem changeLife_cells (l : Life) (s : State) : (changeLife l s).mem.cells = s.mem.cells := by
  unfold changeLife
  (repeat' split) <;> simp

@[simp] theorem ownWrite_cells (slot : Nat) (a : Attr) (write : Bool → State → State) (s : State)
    (h : ∀ ok u, (write ok u).mem.cells = u.mem.cells) : (ownWrite slot a write s).mem.cells = s.mem.cells := by
  unfold ownWrite
  split <;> simp [h]

@[simp] theorem ponKeyWritten_cells (slot : Nat) (body : List Byte) (s : State) :
    (ponKeyWritten slot body s).mem.cells = s.mem.cells := by simp [ponKeyWritten]

@[simp] theorem slotWritten_cells (slot : Nat) (a : Attr) (write : Bool → State → State) (s : State)
    (h : ∀ ok u, (write ok u).mem.cells = u.mem.cells) : (slotWritten slot a write s).2.2.mem.cells = s.mem.cells := by
  simp [slotWritten, h]

@[simp] theorem shedarApply_cells (op slot : Nat) (attrBitsIn : Nat) (payload : List Byte) (s : State) :
    (shedarApply op slot attrBitsIn payload s).2.2.mem.cells = s.mem.cells := by
  unfold shedarApply
  dsimp only
  cases lifeTarget s.vault.life (beNat payload) <;> simp

/-- The state that a Shedar message's checks leave. -/
def openedTo (s : State) (r : Except HRes (List Byte × State)) : State :=
  match r with
  | .ok p => p.2
  | .error e => e.left s

@[simp] theorem openedTo_ok (s : State) (p : List Byte × State) : openedTo s (.ok p) = p.2 := rfl

@[simp] theorem openedTo_error (s : State) (e : HRes) : openedTo s (.error e) = e.left s := rfl

@[simp] theorem shedarPayload_cells (m : List Byte) (s u : State) :
    (openedTo u (shedarPayload m s)).mem.cells = s.mem.cells := by
  unfold shedarPayload
  split <;> simp

@[simp] theorem shedarSteps_cells (m : List Byte) (ok : Bool) (s : State) :
    (openedTo s (shedarSteps m ok s)).mem.cells = s.mem.cells := by
  unfold shedarSteps
  dsimp only
  (repeat' split) <;> simp

@[simp] theorem shedarChecked_cells (c : Ctx) (s : State) :
    (openedTo s (shedarChecked c s)).mem.cells = s.mem.cells := by
  unfold shedarChecked
  dsimp only
  (repeat' split) <;> simp

@[simp] theorem runShedarUpdate_cells (c : Ctx) (s : State) :
    ((runShedarUpdate c s).left s).mem.cells = s.mem.cells := by
  have h := shedarChecked_cells c s
  unfold runShedarUpdate
  dsimp only
  split
  next r hr => rwa [hr] at h
  next p u hu =>
    rw [hu] at h
    have ha := shedarApply_cells (shOp (bytesOfWords c.words)) (shSlot (bytesOfWords c.words)) (shAttr (bytesOfWords c.words)) p u
    split
    next ws v hv =>
      rw [hv] at ha
      split <;> exact ha.trans h
    next st ws v _ hv =>
      rw [hv] at ha
      exact ha.trans h

@[simp] theorem takeAuthority_cells (p : List Byte) (ok : Bool) (s : State) :
    (takeAuthority p ok s).mem.cells = s.mem.cells := by simp [takeAuthority]

@[simp] theorem burnEpoch_cells (p : List Byte) (s : State) : (burnEpoch p s).mem.cells = s.mem.cells := by simp [burnEpoch]

@[simp] theorem advanceEpoch_cells (p : List Byte) (steps : Nat) (s : State) :
    (advanceEpoch p steps s).mem.cells = s.mem.cells := by simp [advanceEpoch]

@[simp] theorem runUpdateEpochAdvance_cells (c : Ctx) (s : State) :
    ((runUpdateEpochAdvance c s).left s).mem.cells = s.mem.cells := by
  have h := shedarChecked_cells c s
  unfold runUpdateEpochAdvance
  dsimp only
  split
  next r hr => rwa [hr] at h
  next p u hu =>
    rw [hu] at h
    refine Eq.trans ?_ h
    (repeat' split) <;> simp

@[simp] theorem tokenChecks_cells (m : List Byte) (s : State) : (tokenChecks m s).2.mem.cells = s.mem.cells := by
  have h := shedarSteps_cells m true s
  unfold tokenChecks
  split
  · simp
  · split
    next hr => rfl
    next hr => rwa [hr] at h
    next => rfl
    next hu =>
      rw [hu] at h
      split <;> exact h

@[simp] theorem debugToken_cells (m : List Byte) (s : State) : (debugToken m s).mem.cells = s.mem.cells := by
  have h := tokenChecks_cells m s
  unfold debugToken
  split
  · rfl
  split
  · rfl
  split
  next hu =>
    rw [hu] at h
    simpa using h
  next hu =>
    rw [hu] at h
    dsimp only
    split <;> simpa using h

@[simp] theorem execDebugToken_cells (message : List Byte) (s : State) :
    (stateAfter s (execDebugToken message s)).mem.cells = s.mem.cells := by simp [execDebugToken]

@[simp] theorem newOwner_cells (owner : List Byte) (s : State) : (newOwner owner s).mem.cells = s.mem.cells := by simp [newOwner]

@[simp] theorem serviceMessage_cells (row : Nat) (toScrapped : Bool) (owner signature : List Byte) (s : State) :
    (serviceMessage row toScrapped owner signature s).mem.cells = s.mem.cells := by simp [serviceMessage]

@[simp] theorem execAbkouxServiceMessage_cells (row : Nat) (toScrapped : Bool) (owner signature : List Byte) (s : State) :
    (stateAfter s (execAbkouxServiceMessage row toScrapped owner signature s)).mem.cells = s.mem.cells := by
  simp [execAbkouxServiceMessage]

@[simp] theorem runAttestOperator_cells (c : Ctx) (s : State) :
    ((runAttestOperator c s).left s).mem.cells = s.mem.cells := by simp [runAttestOperator]

@[simp] theorem runAttestTenant_cells (c : Ctx) (s : State) :
    ((runAttestTenant c s).left s).mem.cells = s.mem.cells := by simp [runAttestTenant]

/-! ## The cipher array -/

@[simp] theorem runEncReserve_cells (c : Ctx) (s : State) : ((runEncReserve c s).left s).mem.cells = s.mem.cells := by
  simp [runEncReserve]

@[simp] theorem runScConfig_cells (c : Ctx) (s : State) : ((runScConfig c s).left s).mem.cells = s.mem.cells := by
  unfold runScConfig
  dsimp only
  (repeat' split) <;> simp

@[simp] theorem runSaConfig_cells (c : Ctx) (s : State) : ((runSaConfig c s).left s).mem.cells = s.mem.cells := by
  unfold runSaConfig
  dsimp only
  (repeat' split) <;> simp

@[simp] theorem runSaActivate_cells (c : Ctx) (s : State) : ((runSaActivate c s).left s).mem.cells = s.mem.cells := by
  unfold runSaActivate
  dsimp only
  (repeat' split) <;> simp

end Sys2Proof.Machine
end

section
/-! PROOFS. The cells of HBM under the operations of the model:
what lanes, memory commands, traffic, forwarding and ingress leave. A frame lemma
for each operation: `f_cells` says that `f` leaves the cells as they were. -/

namespace Sys2Proof.Machine

/-! ## Lanes -/

@[simp] theorem plaitDefect_cells (i k cls : Nat) (raised : Bool) (s : State) :
    (plaitDefect i k cls raised s).mem.cells = s.mem.cells := by simp [plaitDefect]

@[simp] theorem setLoa_cells (i : Nat) (v : Bool) (s : State) : (setLoa i v s).mem.cells = s.mem.cells := by simp [setLoa]

@[simp] theorem setLop_cells (i : Nat) (v : Bool) (s : State) : (setLop i v s).mem.cells = s.mem.cells := by simp [setLop]

@[simp] theorem setTim_cells (i : Nat) (v : Bool) (s : State) : (setTim i v s).mem.cells = s.mem.cells := by simp [setTim]

@[simp] theorem setExc_cells (i : Nat) (v : Bool) (s : State) : (setExc i v s).mem.cells = s.mem.cells := by simp [setExc]

@[simp] theorem setRdi_cells (i : Nat) (v : Bool) (s : State) : (setRdi i v s).mem.cells = s.mem.cells := by simp [setRdi]

@[simp] theorem setStuck_cells (i : Nat) (v : Bool) (s : State) : (setStuck i v s).mem.cells = s.mem.cells := by simp [setStuck]

@[simp] theorem setBoth_cells (v : Bool) (s : State) : (setBoth v s).mem.cells = s.mem.cells := by
  unfold setBoth
  (repeat' split) <;> simp

@[simp] theorem bumpSide_cells (i pos n : Nat) (s : State) : (bumpSide i pos n s).mem.cells = s.mem.cells := by simp [bumpSide]

@[simp] theorem dropContexts_cells (i : Nat) (typeOneOnly : Bool) (s : State) :
    (dropContexts i typeOneOnly s).mem.cells = s.mem.cells := by simp [dropContexts]

@[simp] theorem needDomains_cells (ds : List Nat) (s : State) : (needDomains ds s).mem.cells = s.mem.cells := by
  simp [needDomains]

@[simp] theorem moveTo_cells (side : Nat) (bySf : Bool) (s : State) :
    (moveTo side bySf s).mem.cells = s.mem.cells := by simp [moveTo]

@[simp] theorem selectorMove_cells (s : State) : (selectorMove s).mem.cells = s.mem.cells := by
  unfold selectorMove
  dsimp only
  (repeat' split) <;> simp

@[simp] theorem updateSf_cells (s : State) : (updateSf s).mem.cells = s.mem.cells := by simp [updateSf]

@[simp] theorem hunting_cells (i : Nat) (s : State) : (hunting i s).mem.cells = s.mem.cells := by simp [hunting]

@[simp] theorem alignLost_cells (i : Nat) (s : State) : (alignLost i s).mem.cells = s.mem.cells := by simp [alignLost]

@[simp] theorem laneLost_cells (l : Nat) (s : State) : (laneLost l s).mem.cells = s.mem.cells := by simp [laneLost]

@[simp] theorem abortScan_cells (l : Nat) (s : State) : (abortScan l s).mem.cells = s.mem.cells := by
  unfold abortScan
  split
  · rfl
  · exact (forEach_cells _ _ _ fun q u => finish_cells q _ u (fun _ => rfl) (by simp)).trans (by simp)

@[simp] theorem laneTo_cells (l : Nat) (st : LaneState) (s : State) : (laneTo l st s).mem.cells = s.mem.cells := by simp [laneTo]

@[simp] theorem setRef_cells (r : Nat) (v : Bool) (s : State) : (setRef r v s).mem.cells = s.mem.cells := by simp [setRef]

@[simp] theorem retrainSide_cells (i : Nat) (s : State) : (retrainSide i s).mem.cells = s.mem.cells := by simp [retrainSide]

@[simp] theorem refReturn_cells (i : Nat) (s : State) : (refReturn i s).mem.cells = s.mem.cells := by simp [refReturn]

@[simp] theorem followRefs_cells (s : State) : (followRefs s).mem.cells = s.mem.cells := by simp [followRefs]

@[simp] theorem laneFault_cells (l k cls : Nat) (raised : Bool) (s : State) :
    (laneFault l k cls raised s).mem.cells = s.mem.cells := by simp [laneFault]

@[simp] theorem laneFollow_cells (l : Nat) (s : State) : (laneFollow l s).mem.cells = s.mem.cells := by simp [laneFollow]

@[simp] theorem lanesFollow_cells (s : State) : (lanesFollow s).mem.cells = s.mem.cells := by simp [lanesFollow]

@[simp] theorem execLaneEnableChange_cells (l : Nat) (s : State) :
    (stateAfter s (execLaneEnableChange l s)).mem.cells = s.mem.cells := by simp [execLaneEnableChange]

@[simp] theorem laneUp_cells (l : Nat) (s : State) : (laneUp l s).mem.cells = s.mem.cells := by simp [laneUp]

@[simp] theorem trained_cells (l peak : Nat) (freq : Int) (taps : List Int) (post pre swing : Nat)
    (precode : Bool) (s : State) :
    (trained l peak freq taps post pre swing precode s).mem.cells = s.mem.cells := by simp [trained]

@[simp] theorem execLaneTrainingComplete_cells (l peak : Nat) (freq : Int) (taps : List Int) (post pre swing : Nat)
    (precode : Bool) (s : State) :
    (stateAfter s (execLaneTrainingComplete l peak freq taps post pre swing precode s)).mem.cells = s.mem.cells := by
  simp [execLaneTrainingComplete]

@[simp] theorem trainingFailed_cells (l : Nat) (s : State) : (trainingFailed l s).mem.cells = s.mem.cells := by
  simp [trainingFailed]

@[simp] theorem execLaneTrainingTimeout_cells (l : Nat) (s : State) :
    (stateAfter s (execLaneTrainingTimeout l s)).mem.cells = s.mem.cells := by simp [execLaneTrainingTimeout]

@[simp] theorem execLaneIdleRequest_cells (l : Nat) (s : State) :
    (stateAfter s (execLaneIdleRequest l s)).mem.cells = s.mem.cells := by simp [execLaneIdleRequest]

@[simp] theorem laneExit_cells (l : Nat) (s : State) : (laneExit l s).mem.cells = s.mem.cells := by simp [laneExit]

@[simp] theorem askExit_cells (l : Nat) (s : State) : (askExit l s).mem.cells = s.mem.cells := by simp [askExit]

@[simp] theorem execLaneExitRequest_cells (l : Nat) (s : State) :
    (stateAfter s (execLaneExitRequest l s)).mem.cells = s.mem.cells := by simp [execLaneExitRequest]

@[simp] theorem execLaneIdleStale_cells (l : Nat) (s : State) :
    (stateAfter s (execLaneIdleStale l s)).mem.cells = s.mem.cells := by simp [execLaneIdleStale, whenever]

@[simp] theorem exitEnd_cells (l : Nat) (aligned : Bool) (s : State) :
    (exitEnd l aligned s).mem.cells = s.mem.cells := by simp [exitEnd]

@[simp] theorem execFastExitTimeout_cells (l : Nat) (aligned : Bool) (s : State) :
    (stateAfter s (execFastExitTimeout l aligned s)).mem.cells = s.mem.cells := by simp [execFastExitTimeout]

@[simp] theorem losRaised_cells (l : Nat) (s : State) : (losRaised l s).mem.cells = s.mem.cells := by simp [losRaised]

@[simp] theorem losChange_cells (l : Nat) (above : Bool) (s : State) :
    (losChange l above s).mem.cells = s.mem.cells := by simp [losChange]

@[simp] theorem execLaneLos_cells (l : Nat) (above : Bool) (s : State) :
    (stateAfter s (execLaneLos l above s)).mem.cells = s.mem.cells := by simp [execLaneLos]

@[simp] theorem lolChange_cells (l : Nat) (locked : Bool) (freq : Int) (s : State) :
    (lolChange l locked freq s).mem.cells = s.mem.cells := by simp [lolChange]

@[simp] theorem execLaneLol_cells (l : Nat) (locked : Bool) (freq : Int) (s : State) :
    (stateAfter s (execLaneLol l locked freq s)).mem.cells = s.mem.cells := by simp [execLaneLol]

@[simp] theorem execLaneFlapHoldEnd_cells (l : Nat) (s : State) :
    (stateAfter s (execLaneFlapHoldEnd l s)).mem.cells = s.mem.cells := by simp [execLaneFlapHoldEnd]

@[simp] theorem execTxFault_cells (l : Nat) (s : State) :
    (stateAfter s (execTxFault l s)).mem.cells = s.mem.cells := by simp [execTxFault]

@[simp] theorem rawChange_cells (l : Nat) (los lol : Bool) (s : State) :
    (rawChange l los lol s).mem.cells = s.mem.cells := by simp [rawChange]

@[simp] theorem execRawDetectorStateChange_cells (l : Nat) (los lol : Bool) (s : State) :
    (stateAfter s (execRawDetectorStateChange l los lol s)).mem.cells = s.mem.cells := by simp [execRawDetectorStateChange]

@[simp] theorem reevaluate_cells (l move : Nat) (s : State) : (reevaluate l move s).mem.cells = s.mem.cells := by
  simp [reevaluate]

@[simp] theorem execPeakingReevaluate_cells (l move : Nat) (s : State) :
    (stateAfter s (execPeakingReevaluate l move s)).mem.cells = s.mem.cells := by simp [execPeakingReevaluate]

@[simp] theorem execPeakingStep_cells (l : Nat) (s : State) :
    (stateAfter s (execPeakingStep l s)).mem.cells = s.mem.cells := by simp [execPeakingStep, whenever]

@[simp] theorem seat_cells (v : Bool) (s : State) : (seat v s).mem.cells = s.mem.cells := by simp [seat]

@[simp] theorem execCardSeated_cells (s : State) : (stateAfter s (execCardSeated s)).mem.cells = s.mem.cells := by
  simp [execCardSeated]

@[simp] theorem execCardUnseated_cells (s : State) : (stateAfter s (execCardUnseated s)).mem.cells = s.mem.cells := by
  simp [execCardUnseated]

@[simp] theorem runLaneConfig_cells (c : Ctx) (s : State) : ((runLaneConfig c s).left s).mem.cells = s.mem.cells := by
  unfold runLaneConfig
  dsimp only
  (repeat' split) <;> simp

@[simp] theorem takeErrors_cells (l : Nat) (answers : List Nat) (s : State) :
    (takeErrors l answers s).mem.cells = s.mem.cells := by
  unfold takeErrors
  (repeat' split) <;> simp

@[simp] theorem runLaneStatus_cells (c : Ctx) (s : State) : ((runLaneStatus c s).left s).mem.cells = s.mem.cells := by
  simp [runLaneStatus]

@[simp] theorem runLaneEyeScan_cells (c : Ctx) (s : State) :
    ((runLaneEyeScan c s).left s).mem.cells = s.mem.cells := by simp [runLaneEyeScan]

/-! ## Lane coding -/

@[simp] theorem sendWords_cells (l : Nat) (ws : List (List Byte)) (s : State) :
    (sendWords l ws s).mem.cells = s.mem.cells := by simp [sendWords]

@[simp] theorem alignCoders_cells (ls : List Nat) (s : State) : (alignCoders ls s).mem.cells = s.mem.cells := by
  unfold alignCoders
  dsimp only
  split
  · rfl
  · exact forEach_cells _ _ _ fun _ _ => by simp

@[simp] theorem sendPlait_cells (i : Nat) (bytes : List Byte) (s : State) :
    (sendPlait i bytes s).mem.cells = s.mem.cells := by simp [sendPlait]

/-! ## Memory -/

@[simp] theorem execOsierCacheSpill_cells (pool : Nat) (s : State) :
    (stateAfter s (execOsierCacheSpill pool s)).mem.cells = s.mem.cells := by simp [execOsierCacheSpill]

@[simp] theorem refillRow_cells (p bad : Nat) (s : State) : (refillRow p bad s).mem.cells = s.mem.cells := by simp [refillRow]

@[simp] theorem execOsierCacheRefill_cells (pool bad : Nat) (s : State) :
    (stateAfter s (execOsierCacheRefill pool bad s)).mem.cells = s.mem.cells := by simp [execOsierCacheRefill]

@[simp] theorem withoutChain_cells (p h : Nat) (s : State) : (withoutChain p h s).mem.cells = s.mem.cells := by
  unfold withoutChain
  (repeat' split) <;> simp

@[simp] theorem cellFree_cells (p h : Nat) (isRelease : Bool) (s : State) :
    (cellFree p h isRelease s).mem.cells = s.mem.cells := by
  unfold cellFree
  (repeat' split) <;> simp

@[simp] theorem execCellFree_cells (pool handle : Nat) (isRelease : Bool) (s : State) :
    (stateAfter s (execCellFree pool handle isRelease s)).mem.cells = s.mem.cells := by simp [execCellFree]

@[simp] theorem setNode_cells (level idx : Nat) (c : Counters) (s : State) :
    (setNode level idx c s).mem.cells = s.mem.cells := by simp [setNode]

@[simp] theorem execCounterCacheEvict_cells (level index : Nat) (s : State) :
    (stateAfter s (execCounterCacheEvict level index s)).mem.cells = s.mem.cells := by simp [execCounterCacheEvict]

@[simp] theorem poisonHit_cells (s : State) : (poisonHit s).mem.cells = s.mem.cells := by simp [poisonHit]

@[simp] theorem poisonNode_cells (level idx : Nat) (s : State) :
    (poisonNode level idx s).mem.cells = s.mem.cells := by simp [poisonNode]

@[simp] theorem poisonRegion_cells (r : Nat) (s : State) : (poisonRegion r s).mem.cells = s.mem.cells := by simp [poisonRegion]

@[simp] theorem ringLineLost_cells (p line : Nat) (s : State) : (ringLineLost p line s).mem.cells = s.mem.cells := by
  simp [ringLineLost]

@[simp] theorem ringAccess_cells (p a : Nat) (write : Bool) (check : LineCheck) (s : State) :
    (ringAccess p a write check s).mem.cells = s.mem.cells := by simp [ringAccess]

@[simp] theorem engineBusError_cells (engine addr : Nat) (s : State) :
    (engineBusError engine addr s).mem.cells = s.mem.cells := by simp [engineBusError]

@[simp] theorem cellFound_cells (a : Nat) (check : LineCheck) (s : State) :
    (cellFound a check s).2.mem.cells = s.mem.cells := by
  unfold cellFound
  dsimp only
  (repeat' split) <;> simp

@[simp] theorem nodeFound_cells (level idx : Nat) (check : LineCheck) (s : State) :
    (nodeFound level idx check s).2.mem.cells = s.mem.cells := by
  unfold nodeFound
  (repeat' split) <;> simp

@[simp] theorem execCounterPatrol_cells (corrected : Nat) (failing : List (Nat × Nat)) (s : State) :
    (stateAfter s (execCounterPatrol corrected failing s)).mem.cells = s.mem.cells := by simp [execCounterPatrol]

@[simp] theorem hbmReads_cells (f : Frame) (s : State) : (hbmReads f s).mem.cells = s.mem.cells := by simp [hbmReads]

@[simp] theorem poisonMet_cells (f : Frame) (s : State) : (poisonMet f s).mem.cells = s.mem.cells := by simp [poisonMet]

@[simp] theorem dropHeld_cells (pick : Frame → Bool) (counter : Nat) (s : State) :
    (dropHeld pick counter s).mem.cells = s.mem.cells := by simp [dropHeld]

@[simp] theorem newHideKey_cells (i : Nat) (s : State) : (newHideKey i s).mem.cells = s.mem.cells := by simp [newHideKey]

@[simp] theorem runHideKeyChange_cells (c : Ctx) (s : State) :
    ((runHideKeyChange c s).left s).mem.cells = s.mem.cells := by simp [runHideKeyChange]

@[simp] theorem flushLevel_cells (s : State) (level : Nat) : (flushLevel s level).mem.cells = s.mem.cells := by simp [flushLevel]

@[simp] theorem flushTree_cells (s : State) : (flushTree s).mem.cells = s.mem.cells := by simp [flushTree]

@[simp] theorem sweepDone_cells (s : State) : (sweepDone s).mem.cells = s.mem.cells := by
  unfold sweepDone
  (repeat' split) <;> simp

@[simp] theorem claimWithdrawn_cells (p : Nat) (y : Pool) (s : State) :
    (claimWithdrawn p y s).mem.cells = s.mem.cells := by simp [claimWithdrawn]

@[simp] theorem setPool_cells (p : Nat) (en : Bool) (world first regs : Nat) (s : State) :
    (setPool p en world first regs s).mem.cells = s.mem.cells := by simp [setPool]

@[simp] theorem runPoolConfig_cells (c : Ctx) (s : State) : ((runPoolConfig c s).left s).mem.cells = s.mem.cells := by
  simp [runPoolConfig]

@[simp] theorem runPoolStats_cells (c : Ctx) (s : State) : ((runPoolStats c s).left s).mem.cells = s.mem.cells := by
  simp [runPoolStats]

@[simp] theorem sweepOn_cells (s : State) : (sweepOn s).mem.cells = s.mem.cells := by simp [sweepOn]

@[simp] theorem runHideStatus_cells (c : Ctx) (s : State) : ((runHideStatus c s).left s).mem.cells = s.mem.cells := by
  unfold runHideStatus
  dsimp only
  split <;> simp

@[simp] theorem clearRegion_cells (r : Nat) (s : State) : (clearRegion r s).mem.cells = s.mem.cells := by simp [clearRegion]

@[simp] theorem runRightsWrite_cells (c : Ctx) (s : State) :
    ((runRightsWrite c s).left s).mem.cells = s.mem.cells := by simp [runRightsWrite]

/-! ## Queues and frames -/

@[simp] theorem bumpQ_cells (pos : Nat) (q : NodeId) (world : Nat) (s : State) :
    (bumpQ pos q world s).mem.cells = s.mem.cells := by simp [bumpQ]

@[simp] theorem dropAt_cells (pos : Nat) (q : NodeId) (world : Nat) (s : State) :
    (dropAt pos q world s).mem.cells = s.mem.cells := by simp [dropAt]

@[simp] theorem putQueue_cells (q : NodeId) (f : Frame) (s : State) : (putQueue q f s).mem.cells = s.mem.cells := by
  simp [putQueue]

@[simp] theorem loseHold_cells (f : Frame) (s : State) : (loseHold f s).mem.cells = s.mem.cells := by simp [loseHold]

@[simp] theorem mirrorDrop_cells (f : Frame) (session : Option Nat) (s : State) :
    (mirrorDrop f session s).mem.cells = s.mem.cells := by
  unfold mirrorDrop
  (repeat' split) <;> simp

theorem takeHolds_cells (n : Nat) (cells : List Nat) (s : State) :
    ∀ t, takeHolds n cells s = some t → t.mem.cells = s.mem.cells := by
  induction n generalizing s with
  | zero =>
    intro t h
    obtain rfl := Option.some.inj h
    rfl
  | succ k ih =>
    intro t h
    unfold takeHolds at h
    split at h
    next u hu => exact (ih u t h).trans (share_cells cells s u hu)
    next => exact absurd h (by simp)

@[simp] theorem countMirrors_cells (f : Frame) (cs : List Copy8) (s : State) :
    (countMirrors f cs s).mem.cells = s.mem.cells := by
  unfold countMirrors
  exact forEach_cells _ _ _ fun _ _ => by (repeat' split) <;> simp

@[simp] theorem flushQueue_cells (pos : Nat) (q : NodeId) (s : State) :
    (flushQueue pos q s).mem.cells = s.mem.cells := by simp [flushQueue]

@[simp] theorem freeTerminalFrames_cells (i : Nat) (s : State) :
    (freeTerminalFrames i s).mem.cells = s.mem.cells := by simp [freeTerminalFrames]

@[simp] theorem addDeficit_cells (phase : Nat) (v : Int) (n : NodeId) (s : State) :
    (addDeficit phase v n s).mem.cells = s.mem.cells := by simp [addDeficit]

theorem dwrr_cells (fuel : Nat) (node : NodeId) (prio phase : Nat) (set : List NodeId) (s : State) :
    TakenLeaves s (dwrr fuel node prio phase set s) := by
  induction fuel generalizing s with
  | zero => exact fun x h => absurd h (by simp [dwrr])
  | succ k ih =>
    intro x h
    unfold dwrr at h
    split at h
    · exact absurd h (by simp)
    · split at h
      · obtain rfl := Option.some.inj h
        rfl
      · simpa using ih _ x h

theorem descend_cells (fuel : Nat) (node : NodeId) (ps : List (List NodeId)) (s : State) :
    TakenLeaves s (descend fuel node ps s) := by
  induction fuel generalizing node ps s with
  | zero => exact fun x h => absurd h (by simp [descend])
  | succ k ih =>
    intro x h
    unfold descend at h
    split at h
    · exact absurd h (by simp)
    split at h
    · exact absurd h (by simp)
    next c u hu =>
      have hd := dwrr_cells _ _ _ _ _ _ _ hu
      dsimp only at h
      split at h
      · obtain rfl := Option.some.inj h
        exact hd
      split at h
      next l v hv =>
        obtain rfl := Option.some.inj h
        exact (ih _ _ _ _ hv).trans hd
      next => exact absurd h (by simp)

@[simp] theorem charge_cells (len : Nat) (e : NodeId × NodeId × Nat × Nat) (s : State) :
    (charge len e s).mem.cells = s.mem.cells := by simp [charge]

@[simp] theorem popQueue_cells (q : NodeId) (sent : Bool) (s : State) :
    (popQueue q sent s).mem.cells = s.mem.cells := by simp [popQueue]

@[simp] theorem dropHeads_cells (fuel : Nat) (root q : NodeId) (s : State) :
    (dropHeads fuel root q s).mem.cells = s.mem.cells := by
  induction fuel generalizing s with
  | zero => rfl
  | succ k ih =>
    unfold dropHeads
    (repeat' split) <;> simp [ih]

@[simp] theorem dropAllHeads_cells (root : NodeId) (s : State) : (dropAllHeads root s).mem.cells = s.mem.cells := by
  simp [dropAllHeads]

@[simp] theorem toFramer_cells (f : Frame) (bytes : List Byte) (s : State) :
    (toFramer f bytes s).mem.cells = s.mem.cells := by simp [toFramer]

@[simp] theorem sendFrame_cells (root q : NodeId) (f : Frame) (s : State) :
    (sendFrame root q f s).mem.cells = s.mem.cells := by
  unfold sendFrame
  dsimp only
  (repeat' split) <;> simp

@[simp] theorem sendChosen_cells (root : NodeId) (path : List (NodeId × NodeId × Nat × Nat)) (s : State) :
    (sendChosen root path s).mem.cells = s.mem.cells := by
  unfold sendChosen
  (repeat' split) <;> simp

@[simp] theorem decide8_cells (root : NodeId) (s : State) : (decide8 root s).mem.cells = s.mem.cells := by
  unfold decide8
  split
  · rfl
  · dsimp only
    split
    · simp
    next path u hu =>
      have hd := descend_cells _ _ _ _ _ hu
      split
      · simp
      · simpa using hd

@[simp] theorem execReinDecision_cells (side index : Nat) (s : State) :
    (stateAfter s (execReinDecision side index s)).mem.cells = s.mem.cells := by simp [execReinDecision]

@[simp] theorem creditShapers_cells (n : Nat) (s : State) : (creditShapers n s).mem.cells = s.mem.cells := by
  simp [creditShapers]

/-! ## Forwarding -/

@[simp] theorem spray_cells (id : Nat) (x : Flight) (s : State) : (spray id x s).mem.cells = s.mem.cells := by simp [spray]

@[simp] theorem gateDomain_cells (d : Nat) (s : State) : (gateDomain d s).mem.cells = s.mem.cells := by simp [gateDomain]

@[simp] theorem gateOff_cells (d : Nat) (s : State) : (gateOff d s).mem.cells = s.mem.cells := by simp [gateOff]

@[simp] theorem gateLeaving_cells (s : State) : (gateLeaving s).mem.cells = s.mem.cells := by simp [gateLeaving]

@[simp] theorem execDistributorSpray_cells (frame : Nat) (s : State) :
    (stateAfter s (execDistributorSpray frame s)).mem.cells = s.mem.cells := by
  unfold execDistributorSpray
  (repeat' split) <;> simp

@[simp] theorem bumpSlice_cells (pos slice world : Nat) (s : State) :
    (bumpSlice pos slice world s).mem.cells = s.mem.cells := by simp [bumpSlice]

@[simp] theorem learnHit_cells (slice : Nat) (k : MacKey) (dest : Word) (e : MacEntry) (s : State) :
    (learnHit slice k dest e s).1.mem.cells = s.mem.cells := by
  unfold learnHit
  dsimp only
  (repeat' split) <;> simp

@[simp] theorem lookedUp_cells (slice world : Nat) (found : Bool) (s : State) :
    (lookedUp slice world found s).mem.cells = s.mem.cells := by simp [lookedUp]

@[simp] theorem sourceLookup_cells (b : Bank) (f : Frame) (k : MacKey) (s : State) :
    (sourceLookup b f k s).1.mem.cells = s.mem.cells := by
  unfold sourceLookup
  dsimp only
  (repeat' split) <;> simp

@[simp] theorem learnOne_cells (slice : Nat) (s : State) : (learnOne slice s).mem.cells = s.mem.cells := by
  unfold learnOne
  dsimp only
  (repeat' split) <;> simp

@[simp] theorem execLearnRequest_cells (slice : Nat) (s : State) :
    (stateAfter s (execLearnRequest slice s)).mem.cells = s.mem.cells := by simp [execLearnRequest]

@[simp] theorem scanSlice_cells (slice : Nat) (s : State) : (scanSlice slice s).mem.cells = s.mem.cells := by simp [scanSlice]

@[simp] theorem execAgeingScan_cells (slice : Nat) (s : State) :
    (stateAfter s (execAgeingScan slice s)).mem.cells = s.mem.cells := by simp [execAgeingScan]

@[simp] theorem compareDelete_cells (slice : Nat) (s : State) : (compareDelete slice s).mem.cells = s.mem.cells := by
  unfold compareDelete
  dsimp only
  (repeat' split) <;> simp

@[simp] theorem execCompareAndDelete_cells (slice : Nat) (s : State) :
    (stateAfter s (execCompareAndDelete slice s)).mem.cells = s.mem.cells := by simp [execCompareAndDelete]

@[simp] theorem keeperRecord_cells (x : Flight) (routed : Bool) (dest : Word) (s : State) :
    (keeperRecord x routed dest s).mem.cells = s.mem.cells := by
  unfold keeperRecord
  (repeat' split) <;> simp

@[simp] theorem learnEnded_cells (b : Bank) (x : Flight) (s : State) :
    (learnEnded b x s).mem.cells = s.mem.cells := by simp [learnEnded]

@[simp] theorem forwardTo_cells (id : Nat) (b : Bank) (x : Flight) (routed : Bool) (mac vid : Nat) (s : State) :
    (forwardTo id b x routed mac vid s).mem.cells = s.mem.cells := by
  unfold forwardTo
  dsimp only
  (repeat' split) <;> simp

@[simp] theorem forward_cells (id : Nat) (b : Bank) (x : Flight) (s : State) :
    (forward id b x s).mem.cells = s.mem.cells := by
  unfold forward
  dsimp only
  (repeat' split) <;> simp

@[simp] theorem execForwardLookup_cells (frame : Nat) (s : State) :
    (stateAfter s (execForwardLookup frame s)).mem.cells = s.mem.cells := by
  unfold execForwardLookup
  (repeat' split) <;> simp

@[simp] theorem releaseFrame_cells (id : Nat) (s : State) : (releaseFrame id s).mem.cells = s.mem.cells := by
  unfold releaseFrame
  (repeat' split) <;> simp

@[simp] theorem releaseRun_cells (fuel src : Nat) (s : State) : (releaseRun fuel src s).mem.cells = s.mem.cells := by
  induction fuel generalizing s with
  | zero => rfl
  | succ k ih =>
    unfold releaseRun
    split <;> simp [ih]

@[simp] theorem seenSeq_cells (src q : Nat) (s : State) : (seenSeq src q s).mem.cells = s.mem.cells := by simp [seenSeq]

@[simp] theorem settleSeqs_cells (s : State) : (settleSeqs s).mem.cells = s.mem.cells := by
  unfold settleSeqs
  exact forEach_cells _ _ _ fun _ _ => by simp

@[simp] theorem stitchTake_cells (id : Nat) (b : Bank) (x : Flight) (s : State) :
    (stitchTake id b x s).mem.cells = s.mem.cells := by simp [stitchTake]

@[simp] theorem stitchArrive_cells (id : Nat) (x : Flight) (s : State) :
    (stitchArrive id x s).mem.cells = s.mem.cells := by
  unfold stitchArrive
  (repeat' split) <;> simp

@[simp] theorem execStitchArrival_cells (frame : Nat) (s : State) :
    (stateAfter s (execStitchArrival frame s)).mem.cells = s.mem.cells := by
  unfold execStitchArrival
  (repeat' split) <;> simp

@[simp] theorem stitchSkip_cells (id : Nat) (x : Flight) (s : State) :
    (stitchSkip id x s).mem.cells = s.mem.cells := by simp [stitchSkip]

@[simp] theorem execStitchTimeout_cells (frame : Nat) (s : State) :
    (stateAfter s (execStitchTimeout frame s)).mem.cells = s.mem.cells := by
  unfold execStitchTimeout
  (repeat' split) <;> simp

@[simp] theorem putIn_cells (slices : List Nat) (e : MacEntry) (s : State) :
    (putIn slices e s).mem.cells = s.mem.cells := by
  unfold putIn
  exact forEach_cells _ _ _ fun _ _ => by (repeat' split) <;> simp

@[simp] theorem runMacStaticAdd_cells (c : Ctx) (s : State) :
    ((runMacStaticAdd c s).left s).mem.cells = s.mem.cells := by
  unfold runMacStaticAdd
  (repeat' split) <;> simp

@[simp] theorem runMacDelete_cells (c : Ctx) (s : State) : ((runMacDelete c s).left s).mem.cells = s.mem.cells := by
  unfold runMacDelete
  dsimp only
  rw [left_refuseIf]
  split
  · rfl
  split
  · rfl
  rw [left_refuseIf]
  split
  · rfl
  · exact forEach_cells _ _ _ fun _ _ => by simp

@[simp] theorem runMacLookup_cells (c : Ctx) (s : State) : ((runMacLookup c s).left s).mem.cells = s.mem.cells := by
  unfold runMacLookup
  dsimp only
  (repeat' split) <;> simp

@[simp] theorem runMacFlush_cells (c : Ctx) (s : State) : ((runMacFlush c s).left s).mem.cells = s.mem.cells := by
  unfold runMacFlush
  dsimp only
  simp only [left_refuseIf, left_done]
  (repeat' split)
  · rfl
  · rfl
  · rfl
  · exact forBelow_cells _ _ _ fun _ _ => by simp

@[simp] theorem runAgeingConfig_cells (c : Ctx) (s : State) :
    ((runAgeingConfig c s).left s).mem.cells = s.mem.cells := by simp [runAgeingConfig]

@[simp] theorem runLpm_cells (delete : Bool) (c : Ctx) (s : State) :
    ((runLpm delete c s).left s).mem.cells = s.mem.cells := by
  unfold runLpm
  dsimp only
  (repeat' split) <;> simp

@[simp] theorem runLpmLoad_cells (c : Ctx) (s : State) : ((runLpmLoad c s).left s).mem.cells = s.mem.cells := by
  unfold runLpmLoad
  dsimp only
  (repeat' split) <;> simp

@[simp] theorem runStitchConfig_cells (c : Ctx) (s : State) :
    ((runStitchConfig c s).left s).mem.cells = s.mem.cells := by simp [runStitchConfig]

/-! ## The epoch -/

@[simp] theorem onCommit_cells (c : Ctx) (s : State) (k : HRes) (h : (k.left s).mem.cells = s.mem.cells) :
    ((onCommit c s k).left s).mem.cells = s.mem.cells := by simp [onCommit, h]

@[simp] theorem runEpochStage_cells (c : Ctx) (s : State) : ((runEpochStage c s).left s).mem.cells = s.mem.cells := by
  simp [runEpochStage]

@[simp] theorem runEpochActivate_cells (c : Ctx) (s : State) :
    ((runEpochActivate c s).left s).mem.cells = s.mem.cells := by simp [runEpochActivate]

@[simp] theorem runEpochAbort_cells (c : Ctx) (s : State) : ((runEpochAbort c s).left s).mem.cells = s.mem.cells := by
  simp [runEpochAbort]

@[simp] theorem releaseEpoch_cells (dropped : Nat) (s : State) :
    (releaseEpoch dropped s).mem.cells = s.mem.cells := by simp [releaseEpoch]

@[simp] theorem execEpochDrained_cells (s : State) : (stateAfter s (execEpochDrained s)).mem.cells = s.mem.cells := by
  simp [execEpochDrained]

@[simp] theorem drainLate_cells (s : State) : (drainLate s).mem.cells = s.mem.cells := by simp [drainLate]

@[simp] theorem execEpochDrainLate_cells (s : State) :
    (stateAfter s (execEpochDrainLate s)).mem.cells = s.mem.cells := by simp [execEpochDrainLate]

/-! ## Ingress -/

@[simp] theorem arrayWork_cells (world len : Nat) (s : State) : (arrayWork world len s).mem.cells = s.mem.cells := by
  simp [arrayWork]

@[simp] theorem ingress_cells (x : Flight) (fits : Bool) (s : State) :
    (ingress x fits s).mem.cells = s.mem.cells := by simp [ingress]

@[simp] theorem bumpRx_cells (pos : Nat) (ch : Option (Nat × Channel)) (point : Nat) (s : State) :
    (bumpRx pos ch point s).mem.cells = s.mem.cells := by
  unfold bumpRx
  (repeat' split) <;> simp

@[simp] theorem arrayDeliver_cells (id : Nat) (x : Flight) (bytes : List Byte) (sec : Bool) (s : State) :
    (arrayDeliver id x bytes sec s).mem.cells = s.mem.cells := by simp [arrayDeliver]

@[simp] theorem noAssoc_cells (id point v : Nat) (x : Flight) (ch : Option (Nat × Channel)) (s : State) :
    (noAssoc id point v x ch s).mem.cells = s.mem.cells := by simp [noAssoc]

@[simp] theorem admitRx_cells (id point i an : Nat) (cut : Bool) (x : Flight) (c : Channel) (a : Assoc) (s : State) :
    (admitRx id point i an cut x c a s).mem.cells = s.mem.cells := by simp [admitRx]

@[simp] theorem rxView_cells (s : State) (f : Frame) : (rxView s f).mem.cells = s.mem.cells := by simp [rxView]

@[simp] theorem macsecReceive_cells (id point : Nat) (x : Flight) (s : State) :
    (macsecReceive id point x s).mem.cells = s.mem.cells := by
  unfold macsecReceive
  dsimp only
  (repeat' split) <;> simp

@[simp] theorem execMacsecReceive_cells (frame : Nat) (s : State) :
    (stateAfter s (execMacsecReceive frame s)).mem.cells = s.mem.cells := by
  unfold execMacsecReceive
  (repeat' split) <;> simp

@[simp] theorem acceptPn_cells (y : Admitted) (s : State) : (acceptPn y s).mem.cells = s.mem.cells := by simp [acceptPn]

@[simp] theorem verdictDeliver_cells (y : Admitted) (s : State) : (verdictDeliver y s).mem.cells = s.mem.cells := by
  unfold verdictDeliver
  (repeat' split) <;> simp

@[simp] theorem verdictDrop_cells (y : Admitted) (s : State) : (verdictDrop y s).mem.cells = s.mem.cells := by simp [verdictDrop]

@[simp] theorem verdict_cells (y : Admitted) (s : State) : (verdict y s).mem.cells = s.mem.cells := by simp [verdict]

@[simp] theorem leavePipes_cells (p : Admitted → Bool) (s : State) : (leavePipes p s).mem.cells = s.mem.cells := by
  simp [leavePipes]

@[simp] theorem execMacsecVerdict_cells (frame : Nat) (s : State) :
    (stateAfter s (execMacsecVerdict frame s)).mem.cells = s.mem.cells := by
  unfold execMacsecVerdict
  (repeat' split) <;> simp

@[simp] theorem raisePn_cells (x : Channel) (k : Nat) (a : Assoc) (s : State) :
    (raisePn x k a s).mem.cells = s.mem.cells := by simp [raisePn]

@[simp] theorem macsecTransmit_cells (point : Nat) (f : Frame) (s : State) :
    (macsecTransmit point f s).mem.cells = s.mem.cells := by
  unfold macsecTransmit
  dsimp only
  (repeat' split) <;> simp

@[simp] theorem execMacsecTransmit_cells (point : Nat) (s : State) :
    (stateAfter s (execMacsecTransmit point s)).mem.cells = s.mem.cells := by
  unfold execMacsecTransmit
  (repeat' split) <;> simp

@[simp] theorem countSent_cells (y : Admitted) (s : State) : (countSent y s).mem.cells = s.mem.cells := by simp [countSent]

@[simp] theorem leaveArray_cells (y : Admitted) (s : State) : (leaveArray y s).mem.cells = s.mem.cells := by
  unfold leaveArray
  (repeat' split) <;> simp

@[simp] theorem leaveWhere_cells (p : Admitted → Bool) (s : State) : (leaveWhere p s).mem.cells = s.mem.cells := by
  simp [leaveWhere]

end Sys2Proof.Machine
end

section
/-! PROOFS. The cells of HBM under the operations of the model:
what time, host queues, PON ports, ranging and Weaver leave. A frame lemma
for each operation: `f_cells` says that `f` leaves the cells as they were. -/

namespace Sys2Proof.Machine

/-! ## Time -/

@[simp] theorem stepTo_cells (new cause : Nat) (s : State) : (stepTo new cause s).mem.cells = s.mem.cells := by simp [stepTo]

@[simp] theorem stepBy_cells (d : Int) (cause : Nat) (s : State) : (stepBy d cause s).mem.cells = s.mem.cells := by simp [stepBy]

@[simp] theorem stepNext_cells (absolute : Bool) (value : Int) (cause : Nat) (s : State) :
    (stepNext absolute value cause s).mem.cells = s.mem.cells := by simp [stepNext]

@[simp] theorem setServo_cells (v : Servo) (s : State) : (setServo v s).mem.cells = s.mem.cells := by simp [setServo]

@[simp] theorem setCorr_cells (c : Int) (s : State) : (setCorr c s).mem.cells = s.mem.cells := by simp [setCorr]

@[simp] theorem correctFrequency_cells (s : State) : (correctFrequency s).mem.cells = s.mem.cells := by simp [correctFrequency]

@[simp] theorem enterHoldover_cells (s : State) : (enterHoldover s).mem.cells = s.mem.cells := by simp [enterHoldover]

@[simp] theorem notePath_cells (port : Nat) (path : Int) (s : State) :
    (notePath port path s).mem.cells = s.mem.cells := by simp [notePath]

@[simp] theorem trackPath_cells (path : Int) (s : State) : (trackPath path s).mem.cells = s.mem.cells := by simp [trackPath]

@[simp] theorem takePath_cells (port : Nat) (path : Int) (s : State) :
    (takePath port path s).mem.cells = s.mem.cells := by
  unfold takePath
  dsimp only
  split
  · rw [ite_cells]
    simp
  · rw [ite_cells]
    simp
  · rw [ite_cells]
    simp
  · simp

@[simp] theorem takeOffset_cells (off : Int) (s : State) : (takeOffset off s).mem.cells = s.mem.cells := by simp [takeOffset]

@[simp] theorem countFirst_cells (off : Int) (s : State) : (countFirst off s).mem.cells = s.mem.cells := by simp [countFirst]

@[simp] theorem holdoverMeasure_cells (off : Int) (path : Option Int) (s : State) :
    (holdoverMeasure off path s).mem.cells = s.mem.cells := by simp [holdoverMeasure]

@[simp] theorem measure_cells (off : Int) (path : Option Int) (s : State) :
    (measure off path s).mem.cells = s.mem.cells := by
  unfold measure
  (repeat' split) <;> simp

@[simp] theorem slaveChange_cells (port : Nat) (s : State) : (slaveChange port s).mem.cells = s.mem.cells := by
  unfold slaveChange
  (repeat' split) <;> simp

@[simp] theorem syncMeasure_cells (port : Nat) (down : Int) (s : State) :
    (syncMeasure port down s).mem.cells = s.mem.cells := by
  unfold syncMeasure
  (repeat' split) <;> simp

@[simp] theorem delayMeasure_cells (port : Nat) (up : Int) (s : State) :
    (delayMeasure port up s).mem.cells = s.mem.cells := by
  unfold delayMeasure
  (repeat' split) <;> simp

@[simp] theorem execServoMeasurement_cells (port : Nat) (isDelay : Bool) (value : Int) (s : State) :
    (stateAfter s (execServoMeasurement port isDelay value s)).mem.cells = s.mem.cells := by
  unfold execServoMeasurement
  (repeat' split) <;> simp

@[simp] theorem execServoMeasurementLapse_cells (s : State) :
    (stateAfter s (execServoMeasurementLapse s)).mem.cells = s.mem.cells := by simp [execServoMeasurementLapse]

@[simp] theorem ptpReceive_cells (port : Nat) (bs : List Byte) (s : State) :
    (ptpReceive port bs s).mem.cells = s.mem.cells := by simp [ptpReceive]

@[simp] theorem execPtpFrameReceive_cells (port : Nat) (bytes : List Byte) (s : State) :
    (stateAfter s (execPtpFrameReceive port bytes s)).mem.cells = s.mem.cells := by simp [execPtpFrameReceive]

@[simp] theorem queueStamp_cells (e : TsEntry) (s : State) : (queueStamp e s).mem.cells = s.mem.cells := by simp [queueStamp]

@[simp] theorem ptpSend_cells (port : Nat) (bs : List Byte) (s : State) :
    (ptpSend port bs s).mem.cells = s.mem.cells := by simp [ptpSend]

@[simp] theorem execPtpFrameTransmit_cells (port : Nat) (bytes : List Byte) (s : State) :
    (stateAfter s (execPtpFrameTransmit port bytes s)).mem.cells = s.mem.cells := by simp [execPtpFrameTransmit]

@[simp] theorem ppsOut_cells (s : State) : (ppsOut s).mem.cells = s.mem.cells := by simp [ppsOut]

@[simp] theorem todOut_cells (s : State) : (todOut s).mem.cells = s.mem.cells := by
  unfold todOut
  exact forEach_cells _ _ _ fun _ _ => by simp

@[simp] theorem execPpsOutEdge_cells (s : State) : (stateAfter s (execPpsOutEdge s)).mem.cells = s.mem.cells := by
  simp [execPpsOutEdge]

@[simp] theorem ppsFall_cells (s : State) : (ppsFall s).mem.cells = s.mem.cells := by simp [ppsFall]

@[simp] theorem ppsIn_cells (s : State) : (ppsIn s).mem.cells = s.mem.cells := by
  have h : (ppsIn.take s).mem.cells = s.mem.cells := by
    unfold ppsIn.take
    dsimp only
    split <;> rfl
  unfold ppsIn
  (repeat' split) <;> simp [h]

@[simp] theorem execPpsInEdge_cells (s : State) : (stateAfter s (execPpsInEdge s)).mem.cells = s.mem.cells := by
  simp [execPpsInEdge]

@[simp] theorem todIn_cells (second : Nat) (ok : Bool) (s : State) : (todIn second ok s).mem.cells = s.mem.cells := by
  unfold todIn
  (repeat' split) <;> simp

@[simp] theorem execTodInMessage_cells (second : Nat) (checksum : Bool) (s : State) :
    (stateAfter s (execTodInMessage second checksum s)).mem.cells = s.mem.cells := by simp [execTodInMessage]

@[simp] theorem execPpsInMissing_cells (s : State) : (stateAfter s (execPpsInMissing s)).mem.cells = s.mem.cells := by
  simp [execPpsInMissing, whenever]

@[simp] theorem sendEsmc_cells (s : State) : (sendEsmc s).mem.cells = s.mem.cells := by simp [sendEsmc]

@[simp] theorem reselect_cells (s : State) : (reselect s).mem.cells = s.mem.cells := by simp [reselect]

@[simp] theorem trackSources_cells (s : State) : (trackSources s).mem.cells = s.mem.cells := by
  unfold trackSources
  refine forBelow_cells _ _ _ fun i u => ?_
  dsimp only
  split
  · rw [ite_cells, reselect_cells]
    simp
  · split <;> simp

@[simp] theorem synceChange_cells (i : Nat) (esmc : Option Nat) (s : State) :
    (synceChange i esmc s).mem.cells = s.mem.cells := by
  have h : ∀ u, (trackSources u).mem.cells = u.mem.cells := trackSources_cells
  unfold synceChange
  dsimp only
  generalize trackSources = f at h ⊢
  rw [reselect_cells, ite_cells, updSource_mem, h]
  split <;> split <;> simp

@[simp] theorem execSynceSourceChange_cells (source : Nat) (esmc : Option Nat) (s : State) :
    (stateAfter s (execSynceSourceChange source esmc s)).mem.cells = s.mem.cells := by simp [execSynceSourceChange]

@[simp] theorem execEsmcLapse_cells (port : Nat) (s : State) :
    (stateAfter s (execEsmcLapse port s)).mem.cells = s.mem.cells := by simp [execEsmcLapse]

@[simp] theorem takeStep_cells (d : StepDue) (s : State) : (takeStep d s).mem.cells = s.mem.cells := by simp [takeStep]

@[simp] theorem takeSteps_cells (s : State) : (takeSteps s).mem.cells = s.mem.cells := by simp [takeSteps]

@[simp] theorem passTicks_cells (n : Nat) (s : State) : (passTicks n s).mem.cells = s.mem.cells := by
  unfold passTicks
  dsimp only
  rw [countEvent_mem, followRefs_cells, trackSources_cells, todOut_cells, ppsFall_cells, leaveWhere_cells, creditShapers_cells]

@[simp] theorem takeAsym_cells (s : State) : (takeAsym s).mem.cells = s.mem.cells := by simp [takeAsym]

@[simp] theorem tick_cells (n : Nat) (s : State) : (tick n s).mem.cells = s.mem.cells := by
  unfold tick
  dsimp only
  (repeat' split) <;> simp

@[simp] theorem execTerminalDelayChange_cells (terminal : Nat) (s : State) :
    (stateAfter s (execTerminalDelayChange terminal s)).mem.cells = s.mem.cells := by
  unfold execTerminalDelayChange
  (repeat' split) <;> simp

@[simp] theorem runTimeRead_cells (c : Ctx) (s : State) : ((runTimeRead c s).left s).mem.cells = s.mem.cells := by
  rfl

@[simp] theorem runTimeSet_cells (c : Ctx) (s : State) : ((runTimeSet c s).left s).mem.cells = s.mem.cells := by
  unfold runTimeSet
  dsimp only
  (repeat' split) <;> simp

@[simp] theorem ptpClock_cells (c : Ctx) (s : State) : ((ptpClock c s).left s).mem.cells = s.mem.cells := by simp [ptpClock]

@[simp] theorem ptpPort_cells (c : Ctx) (s : State) : ((ptpPort c s).left s).mem.cells = s.mem.cells := by simp [ptpPort]

@[simp] theorem runAsymmetrySet_cells (c : Ctx) (s : State) :
    ((runAsymmetrySet c s).left s).mem.cells = s.mem.cells := by simp [runAsymmetrySet]

@[simp] theorem clocksOut_cells (r0 r1 : Nat) (s : State) : (clocksOut r0 r1 s).mem.cells = s.mem.cells := by simp [clocksOut]

@[simp] theorem runSynceConfig_cells (c : Ctx) (s : State) :
    ((runSynceConfig c s).left s).mem.cells = s.mem.cells := by simp [runSynceConfig]

@[simp] theorem runTsQueueRead_cells (c : Ctx) (s : State) :
    ((runTsQueueRead c s).left s).mem.cells = s.mem.cells := by simp [runTsQueueRead]

/-! ## Host queues -/

@[simp] theorem hrqHeadWrite_cells (fn queue value : Nat) (s : State) :
    (hrqHeadWrite fn queue value s).mem.cells = s.mem.cells := by simp [hrqHeadWrite, whenever]

@[simp] theorem execHrqHead_cells (fn queue value : Nat) (s : State) :
    (stateAfter s (execHrqHead fn queue value s)).mem.cells = s.mem.cells := by simp [execHrqHead]

@[simp] theorem hiqTailWrite_cells (fn queue value : Nat) (s : State) :
    (hiqTailWrite fn queue value s).mem.cells = s.mem.cells := by simp [hiqTailWrite, whenever]

@[simp] theorem execHiqTail_cells (fn queue value : Nat) (s : State) :
    (stateAfter s (execHiqTail fn queue value s)).mem.cells = s.mem.cells := by simp [execHiqTail]

@[simp] theorem signal_cells (q : Nat) (s : State) : (signal q s).mem.cells = s.mem.cells := by simp [signal]

@[simp] theorem dropRecord_cells (q : Nat) (f : Frame) (s : State) : (dropRecord q f s).mem.cells = s.mem.cells := by
  simp [dropRecord]

@[simp] theorem letGo_cells (f : Frame) (s : State) : (letGo f s).mem.cells = s.mem.cells := by simp [letGo]

@[simp] theorem writeRecord_cells (q : Nat) (ok : Bool) (s : State) :
    (writeRecord q ok s).mem.cells = s.mem.cells := by
  unfold writeRecord
  (repeat' split) <;> simp

@[simp] theorem execHostqRecordWrite_cells (queue : Nat) (ok : Bool) (s : State) :
    (stateAfter s (execHostqRecordWrite queue ok s)).mem.cells = s.mem.cells := by simp [execHostqRecordWrite]

@[simp] theorem execHostqModerationExpiry_cells (queue : Nat) (s : State) :
    (stateAfter s (execHostqModerationExpiry queue s)).mem.cells = s.mem.cells := by simp [execHostqModerationExpiry]

@[simp] theorem dropInject_cells (q world : Nat) (s : State) : (dropInject q world s).mem.cells = s.mem.cells := by
  simp [dropInject]

@[simp] theorem sendPtp_cells (port : Nat) (bs : List Byte) (s : State) :
    (sendPtp port bs s).mem.cells = s.mem.cells := by simp [sendPtp]

@[simp] theorem inject_cells (q : Nat) (words : List Word) (bytes : List Byte) (s : State) :
    (inject q words bytes s).mem.cells = s.mem.cells := by
  unfold inject
  dsimp only
  (repeat' split) <;> simp

@[simp] theorem execInjectionFetch_cells (words : List Word) (bytes : List Byte) (fits ok : Bool) (s : State) :
    (stateAfter s (execInjectionFetch words bytes fits ok s)).mem.cells = s.mem.cells := by
  unfold execInjectionFetch
  (repeat' split) <;> simp

@[simp] theorem runHostqConfig_cells (c : Ctx) (s : State) :
    ((runHostqConfig c s).left s).mem.cells = s.mem.cells := by simp [runHostqConfig]

/-! ## PON ports -/

@[simp] theorem putWindow_cells (p : Nat) (x : Window) (s : State) : (putWindow p x s).mem.cells = s.mem.cells := by
  simp [putWindow]

@[simp] theorem placeGrant_cells (i floor_ : Nat) (s : State) : (placeGrant i floor_ s).mem.cells = s.mem.cells := by
  unfold placeGrant
  (repeat' split) <;> simp

@[simp] theorem ownPloam_cells (i : Nat) (m : Ploam) (s : State) : (ownPloam i m s).mem.cells = s.mem.cells := by simp [ownPloam]

@[simp] theorem portDefect_cells (p code cls : Nat) (on : Bool) (s : State) :
    (portDefect p code cls on s).mem.cells = s.mem.cells := by simp [portDefect]

@[simp] theorem termDefect_cells (i code : Nat) (detail : Word) (on : Bool) (s : State) :
    (termDefect i code detail on s).mem.cells = s.mem.cells := by
  unfold termDefect
  (repeat' split) <;> simp

@[simp] theorem reportLoss_cells (i : Nat) (s : State) : (reportLoss i s).mem.cells = s.mem.cells := by
  unfold reportLoss
  (repeat' split) <;> simp

@[simp] theorem clearLoss_cells (i : Nat) (s : State) : (clearLoss i s).mem.cells = s.mem.cells := by
  unfold clearLoss
  (repeat' split) <;> simp

@[simp] theorem rangeRecord_cells (code i : Nat) (detail : List Word) (s : State) :
    (rangeRecord code i detail s).mem.cells = s.mem.cells := by
  unfold rangeRecord
  (repeat' split) <;> simp

@[simp] theorem endActivation_cells (i : Nat) (goal : RState) (tell : Bool) (s : State) :
    (endActivation i goal tell s).mem.cells = s.mem.cells := by simp [endActivation]

@[simp] theorem bumpPon_cells (pos p : Nat) (t : Option Nat) (world : Nat) (s : State) :
    (bumpPon pos p t world s).mem.cells = s.mem.cells := by
  unfold bumpPon
  (repeat' split) <;> simp

@[simp] theorem micSeen_cells (world : Nat) (s : State) : (micSeen world s).mem.cells = s.mem.cells := by simp [micSeen]

@[simp] theorem onPloamu_cells (i : Nat) (t : Terminal) (ok : Bool) (f : State → State) (s : State)
    (h : (f s).mem.cells = s.mem.cells) : (onPloamu i t ok f s).mem.cells = s.mem.cells := by
  unfold onPloamu
  split <;> simp [h]

@[simp] theorem bump5_cells (pos p world n : Nat) (s : State) : (bump5 pos p world n s).mem.cells = s.mem.cells := by
  simp [bump5]

/-! ## Ranging -/

@[simp] theorem portGood_cells (p : Nat) (s : State) : (portGood p s).mem.cells = s.mem.cells := by simp [portGood]

@[simp] theorem goodBurst_cells (i : Nat) (s : State) : (goodBurst i s).mem.cells = s.mem.cells := by
  unfold goodBurst
  (repeat' split) <;> simp

@[simp] theorem badBurst_cells (i : Nat) (missing : Bool) (s : State) :
    (badBurst i missing s).mem.cells = s.mem.cells := by
  unfold badBurst
  (repeat' split) <;> simp

@[simp] theorem assign_cells (i p method : Nat) (w : WinKind × Int × Int) (s : State) :
    (assign i p method w s).mem.cells = s.mem.cells := by
  unfold assign
  (repeat' split) <;> simp

@[simp] theorem unknownSerial_cells (p : Nat) (sn0 sn1 : Word) (message : List Byte) (s : State) :
    (unknownSerial p sn0 sn1 message s).mem.cells = s.mem.cells := by
  unfold unknownSerial
  (repeat' split) <;> simp

@[simp] theorem knownSerial_cells (p i : Nat) (t : Terminal) (w : WinKind × Int × Int) (s : State) :
    (knownSerial p i t w s).mem.cells = s.mem.cells := by
  unfold knownSerial
  (repeat' split) <;> simp

@[simp] theorem execSerialNumberOnu_cells (port : Nat) (sn0 sn1 : Word) (arrival : Int) (message : SnMessage) (s : State) :
    (stateAfter s (execSerialNumberOnu port sn0 sn1 arrival message s)).mem.cells = s.mem.cells := by
  unfold execSerialNumberOnu whenever
  dsimp only
  (repeat' split) <;> simp

@[simp] theorem closeHeldWindows_cells (s : State) : (closeHeldWindows s).mem.cells = s.mem.cells := by simp [closeHeldWindows]

@[simp] theorem openSn_cells (p : Nat) (s : State) : (openSn p s).mem.cells = s.mem.cells := by
  unfold openSn
  (repeat' split) <;> simp

@[simp] theorem execSnWindowOpen_cells (port : Nat) (s : State) :
    (stateAfter s (execSnWindowOpen port s)).mem.cells = s.mem.cells := by simp [execSnWindowOpen]

@[simp] theorem judgeCrowd_cells (p : Nat) (level : Option Nat) (s : State) :
    (judgeCrowd p level s).mem.cells = s.mem.cells := by
  unfold judgeCrowd
  (repeat' split) <;> simp

@[simp] theorem awlOffer_cells (p : Nat) (s : State) : (awlOffer p s).mem.cells = s.mem.cells := by simp [awlOffer]

@[simp] theorem awlCycle_cells (p : Nat) (level : Option Nat) (s : State) :
    (awlCycle p level s).mem.cells = s.mem.cells := by simp [awlCycle]

@[simp] theorem execAwlCycleBoundary_cells (port : Nat) (level : Option Nat) (s : State) :
    (stateAfter s (execAwlCycleBoundary port level s)).mem.cells = s.mem.cells := by simp [execAwlCycleBoundary]

@[simp] theorem execAwlPauseEnd_cells (port : Nat) (s : State) :
    (stateAfter s (execAwlPauseEnd port s)).mem.cells = s.mem.cells := by simp [execAwlPauseEnd]

@[simp] theorem execAwlDetection_cells (port terminal : Nat) (rtd : Int) (s : State) :
    (stateAfter s (execAwlDetection port terminal rtd s)).mem.cells = s.mem.cells := by
  unfold execAwlDetection
  (repeat' split) <;> simp

@[simp] theorem sendRanging_cells (i : Nat) (w : RtWait) (s : State) :
    (sendRanging i w s).mem.cells = s.mem.cells := by simp [sendRanging]

@[simp] theorem registration_cells (i : Nat) (t : Terminal) (mic : Bool) (s : State) :
    (registration i t mic s).mem.cells = s.mem.cells := by simp [registration]

@[simp] theorem ranged_cells (i : Nat) (t : Terminal) (rtd : Int) (mic : Bool) (s : State) :
    (ranged i t rtd mic s).mem.cells = s.mem.cells := by simp [ranged]

@[simp] theorem execRangingBurst_cells (sender : PloamFrom) (rtd : Int) (s : State) :
    (stateAfter s (execRangingBurst sender rtd s)).mem.cells = s.mem.cells := by
  unfold execRangingBurst
  (repeat' split) <;> simp

@[simp] theorem rangingMissed_cells (i : Nat) (s : State) : (rangingMissed i s).mem.cells = s.mem.cells := by
  unfold rangingMissed
  (repeat' split) <;> simp

@[simp] theorem requestKey_cells (i index : Nat) (s : State) : (requestKey i index s).mem.cells = s.mem.cells := by
  simp [requestKey]

@[simp] theorem rangeNotice_cells (i cause : Nat) (old new diff size : Int) (s : State) :
    (rangeNotice i cause old new diff size s).mem.cells = s.mem.cells := by
  unfold rangeNotice
  (repeat' split) <;> simp

@[simp] theorem rerange_cells (i cause : Nat) (size : Int) (w : WinKind × Int × Int) (s : State) :
    (rerange i cause size w s).mem.cells = s.mem.cells := by
  unfold rerange
  (repeat' split) <;> simp

@[simp] theorem enterOperating_cells (i : Nat) (t : Terminal) (w : RtWait) (rtd : Int) (s : State) :
    (enterOperating i t w rtd s).mem.cells = s.mem.cells := by simp [enterOperating]

@[simp] theorem execAcknowledge_cells (sender : PloamFrom) (s : State) :
    (stateAfter s (execAcknowledge sender s)).mem.cells = s.mem.cells := by
  unfold execAcknowledge
  (repeat' split) <;> simp

@[simp] theorem rangingTimeout_cells (i : Nat) (t : Terminal) (w : RtWait) (s : State) :
    (rangingTimeout i t w s).mem.cells = s.mem.cells := by simp [rangingTimeout]

@[simp] theorem execRangingTimeTimeout_cells (terminal : Nat) (s : State) :
    (stateAfter s (execRangingTimeTimeout terminal s)).mem.cells = s.mem.cells := by
  unfold execRangingTimeTimeout
  (repeat' split) <;> simp

@[simp] theorem correct_cells (i : Nat) (s : State) : (correct i s).mem.cells = s.mem.cells := by
  unfold correct
  (repeat' split) <;> simp

@[simp] theorem useOffset_cells (i : Nat) (o : Int) (s : State) : (useOffset i o s).mem.cells = s.mem.cells := by
  unfold useOffset
  (repeat' split) <;> simp

@[simp] theorem failedWithEnergy_cells (i : Nat) (s : State) : (failedWithEnergy i s).mem.cells = s.mem.cells := by
  unfold failedWithEnergy
  (repeat' split) <;> simp

@[simp] theorem runDiscoveryConfig_cells (c : Ctx) (s : State) :
    ((runDiscoveryConfig c s).left s).mem.cells = s.mem.cells := by simp [runDiscoveryConfig]

@[simp] theorem runRangingRead_cells (c : Ctx) (s : State) :
    ((runRangingRead c s).left s).mem.cells = s.mem.cells := by
  unfold runRangingRead
  dsimp only
  (repeat' split) <;> simp

@[simp] theorem runTerminalRerange_cells (c : Ctx) (s : State) :
    ((runTerminalRerange c s).left s).mem.cells = s.mem.cells := by
  unfold runTerminalRerange
  dsimp only
  (repeat' split) <;> simp

/-! ## Weaver -/

@[simp] theorem setAlloc_cells (k : Nat) (a : Alloc) (s : State) : (setAlloc k a s).mem.cells = s.mem.cells := by simp [setAlloc]

@[simp] theorem runAllocWrite_cells (c : Ctx) (s : State) : ((runAllocWrite c s).left s).mem.cells = s.mem.cells := by
  unfold runAllocWrite
  dsimp only
  (repeat' split) <;> simp

@[simp] theorem namedAlloc_cells (c : Ctx) (s : State) (f : Nat → Nat → Alloc → HRes)
    (h : ∀ t i a, ((f t i a).left s).mem.cells = s.mem.cells) : ((namedAlloc c s f).left s).mem.cells = s.mem.cells := by
  unfold namedAlloc
  dsimp only
  split <;> simp [h]

@[simp] theorem runAllocRead_cells (c : Ctx) (s : State) : ((runAllocRead c s).left s).mem.cells = s.mem.cells :=
  namedAlloc_cells c s _ fun _ _ _ => rfl

@[simp] theorem runAllocDelete_cells (c : Ctx) (s : State) : ((runAllocDelete c s).left s).mem.cells = s.mem.cells :=
  namedAlloc_cells c s _ fun _ _ _ => rfl

@[simp] theorem putHint_cells (tree : Nat) (k ahead words : Nat) (a : Alloc) (s : State) :
    (putHint tree k ahead words a s).mem.cells = s.mem.cells := by simp [putHint]

@[simp] theorem runScheduleHint_cells (c : Ctx) (s : State) :
    ((runScheduleHint c s).left s).mem.cells = s.mem.cells := by
  unfold runScheduleHint
  dsimp only
  (repeat' split) <;> simp

@[simp] theorem runCinchBudget_cells (c : Ctx) (s : State) :
    ((runCinchBudget c s).left s).mem.cells = s.mem.cells := by
  unfold runCinchBudget
  dsimp only
  (repeat' split) <;> simp

@[simp] theorem runWeaverStats_cells (c : Ctx) (s : State) :
    ((runWeaverStats c s).left s).mem.cells = s.mem.cells := by simp [runWeaverStats]

@[simp] theorem bumpLoss_cells (pos p world n : Nat) (s : State) :
    (bumpLoss pos p world n s).mem.cells = s.mem.cells := by simp [bumpLoss]

@[simp] theorem leaveOut_cells (p : Nat) (c : Cand) (s : State) : (leaveOut p c s).mem.cells = s.mem.cells := by simp [leaveOut]

@[simp] theorem closePort_cells (n p : Nat) (s : State) : (closePort n p s).mem.cells = s.mem.cells := by simp [closePort]

@[simp] theorem cutoff_cells (k n : Nat) (s : State) : (cutoff k n s).mem.cells = s.mem.cells := by simp [cutoff]

@[simp] theorem execMapCutoff_cells (lane : Nat) (s : State) :
    (stateAfter s (execMapCutoff lane s)).mem.cells = s.mem.cells := by simp [execMapCutoff]

@[simp] theorem absorb_cells (tree : Nat) (r : Report) (s : State) : (absorb tree r s).mem.cells = s.mem.cells := by
  unfold absorb
  (repeat' split) <;> simp

@[simp] theorem execReportAbsorb_cells (lane : Nat) (s : State) :
    (stateAfter s (execReportAbsorb lane s)).mem.cells = s.mem.cells := by
  unfold execReportAbsorb
  dsimp only
  (repeat' split) <;> simp

@[simp] theorem execForecastAck_cells (sender : PloamFrom) (alloc received used period : Nat) (s : State) :
    (stateAfter s (execForecastAck sender alloc received used period s)).mem.cells = s.mem.cells := by
  unfold execForecastAck
  (repeat' split) <;> simp

/-! ## Passes -/

@[simp] theorem resolveOne_cells (k p : Nat) (s : State) : (resolveOne k p s).mem.cells = s.mem.cells := by
  unfold resolveOne
  (repeat' split) <;> simp

@[simp] theorem execResolvePasses_cells (lane : Nat) (s : State) :
    (stateAfter s (execResolvePasses lane s)).mem.cells = s.mem.cells := by simp [execResolvePasses]

@[simp] theorem execCinchFill_cells (s : State) : (stateAfter s (execCinchFill s)).mem.cells = s.mem.cells := by
  simp [execCinchFill]

@[simp] theorem execCinchStale_cells (lane : Nat) (s : State) :
    (stateAfter s (execCinchStale lane s)).mem.cells = s.mem.cells := by simp [execCinchStale, whenever]

@[simp] theorem execCapsLate_cells (lane : Nat) (s : State) :
    (stateAfter s (execCapsLate lane s)).mem.cells = s.mem.cells := by simp [execCapsLate, whenever]

@[simp] theorem rerunTree_cells (t cap : Nat) (s : State) : (rerunTree t cap s).mem.cells = s.mem.cells := by
  unfold rerunTree
  dsimp only
  split
  · rfl
  · rw [bump5_cells]
    exact forEach_cells _ _ _ fun _ _ => by simp

@[simp] theorem execCappedRerun_cells (lane : Nat) (s : State) :
    (stateAfter s (execCappedRerun lane s)).mem.cells = s.mem.cells := by simp [execCappedRerun]

@[simp] theorem buildPort_cells (p : Nat) (s : State) : (buildPort p s).mem.cells = s.mem.cells := by
  unfold buildPort
  (repeat' split) <;> simp

@[simp] theorem execPlacement_cells (lane : Nat) (s : State) :
    (stateAfter s (execPlacement lane s)).mem.cells = s.mem.cells := by simp [execPlacement]

@[simp] theorem noteSent_cells (p : Nat) (m : BwMap) (s : State) : (noteSent p m s).mem.cells = s.mem.cells := by
  unfold noteSent
  exact forEach_cells _ _ _ fun _ _ => by (repeat' split) <;> simp

@[simp] theorem handOff_cells (p : Nat) (m : BwMap) (s : State) : (handOff p m s).mem.cells = s.mem.cells := by simp [handOff]

@[simp] theorem shiftWindows_cells (p n : Nat) (s : State) : (shiftWindows p n s).mem.cells = s.mem.cells := by
  unfold shiftWindows
  exact forEach_cells _ _ _ fun _ _ => by (repeat' split) <;> simp

@[simp] theorem missMap_cells (p n : Nat) (s : State) : (missMap p n s).mem.cells = s.mem.cells := by
  unfold missMap
  (repeat' split) <;> simp

@[simp] theorem deadline_cells (p n : Nat) (s : State) : (deadline p n s).mem.cells = s.mem.cells := by
  unfold deadline
  (repeat' split) <;> simp

@[simp] theorem execMapHandoff_cells (port : Nat) (s : State) :
    (stateAfter s (execMapHandoff port s)).mem.cells = s.mem.cells := by simp [execMapHandoff]

/-! ## Upstream -/

@[simp] theorem level_cells (i : Nat) (s : State) : (level i s).mem.cells = s.mem.cells := by
  unfold level
  (repeat' split) <;> simp

@[simp] theorem drop113_cells (i p : Nat) (s : State) : (drop113 i p s).mem.cells = s.mem.cells := by simp [drop113]

@[simp] theorem undrop_cells (i p : Nat) (t : Terminal) (s : State) : (undrop i p t s).mem.cells = s.mem.cells := by
  simp [undrop]

@[simp] theorem judgeDrop_cells (i : Nat) (s : State) : (judgeDrop i s).mem.cells = s.mem.cells := by
  unfold judgeDrop
  (repeat' split) <;> simp

@[simp] theorem burstPower_cells (i : Nat) (codes : List Nat) (s : State) :
    (burstPower i codes s).mem.cells = s.mem.cells := by simp [burstPower]

@[simp] theorem unused_cells (k : Nat) (tree : Nat) (a : Alloc) (s : State) :
    (unused k tree a s).mem.cells = s.mem.cells := by simp [unused]

@[simp] theorem sharePassed_cells (tree verdict : Nat) (x : Share) (rx : Nat) (s : State) :
    (sharePassed tree verdict x rx s).mem.cells = s.mem.cells := by
  unfold sharePassed
  dsimp only
  (repeat' split) <;> simp

@[simp] theorem aged_cells (k rx : Nat) (s : State) : (aged k rx s).mem.cells = s.mem.cells := by simp [aged]

@[simp] theorem sendReport_cells (lane : Nat) (r : Report) (s : State) :
    (sendReport lane r s).mem.cells = s.mem.cells := by simp [sendReport]

@[simp] theorem burstReport_cells (p i frame : Nat) (x : AllocRx) (t : Terminal) (s : State) :
    (burstReport p i frame x t s).mem.cells = s.mem.cells := by
  unfold burstReport
  (repeat' split) <;> simp

@[simp] theorem upstreamFrame_cells (p i world : Nat) (fits : Bool) (bs : List Byte) (s : State) :
    (upstreamFrame p i world fits bs s).mem.cells = s.mem.cells := by simp [upstreamFrame]

@[simp] theorem setFrag_cells (i alloc : Nat) (f : Option UpFrag) (s : State) :
    (setFrag i alloc f s).mem.cells = s.mem.cells := by simp [setFrag]

@[simp] theorem dropFrag_cells (p i alloc : Nat) (t : Terminal) (s : State) :
    (dropFrag p i alloc t s).mem.cells = s.mem.cells := by
  unfold dropFrag
  (repeat' split) <;> simp

@[simp] theorem takePayload_cells (p i frame world alloc : Nat) (fits : Bool) (x : XgemRx) (bs : List Byte) (s : State) :
    (takePayload p i frame world alloc fits x bs s).mem.cells = s.mem.cells := by simp [takePayload]

@[simp] theorem xgemFrame_cells (p i frame world alloc : Nat) (fits first : Bool) (t : Terminal) (x : XgemRx) (s : State) :
    (xgemFrame p i frame world alloc fits first t x s).mem.cells = s.mem.cells := by
  unfold xgemFrame
  dsimp only
  (repeat' split) <;> simp

@[simp] theorem xgemFrames_cells (p i frame world alloc : Nat) (fits first : Bool) (t : Terminal) (l : List XgemRx) (s : State) :
    (xgemFrames p i frame world alloc fits first t l s).mem.cells = s.mem.cells := by
  induction l generalizing first s with
  | nil => rfl
  | cons x r ih =>
    unfold xgemFrames
    split <;> simp [ih]

@[simp] theorem allocContent_cells (p i frame : Nat) (fits : Bool) (t : Terminal) (x : AllocRx) (s : State) :
    (allocContent p i frame fits t x s).mem.cells = s.mem.cells := by simp [allocContent]

@[simp] theorem scanBurst_cells (p : Nat) (s : State) : (scanBurst p s).mem.cells = s.mem.cells := by simp [scanBurst]

@[simp] theorem markBurst_cells (p map : Nat) (b : Burst5) (verdict : Nat) (energy : Bool) (s : State) :
    (markBurst p map b verdict energy s).mem.cells = s.mem.cells := by simp [markBurst]

@[simp] theorem judgePort_cells (p : Nat) (m : BwMap) (s : State) : (judgePort p m s).mem.cells = s.mem.cells := by
  simp [judgePort]

@[simp] theorem closeMap_cells (p map : Nat) (s : State) : (closeMap p map s).mem.cells = s.mem.cells := by
  unfold closeMap
  (repeat' split) <;> simp

@[simp] theorem goodCounts_cells (p i : Nat) (t : Terminal) (rx : BurstRx) (s : State) :
    (goodCounts p i t rx s).mem.cells = s.mem.cells := by
  unfold goodCounts
  dsimp only
  split
  · rw [updTerm_mem, onPloamu_cells _ _ _ _ _ rfl]
    simp
  · simp

@[simp] theorem goodContent_cells (p i map : Nat) (t : Terminal) (rx : BurstRx) (codes : List Nat) (s : State) :
    (goodContent p i map t rx codes s).mem.cells = s.mem.cells := by simp [goodContent]

@[simp] theorem badContent_cells (p i verdict : Nat) (energy : Bool) (b : Burst5) (t : Terminal) (s : State) :
    (badContent p i verdict energy b t s).mem.cells = s.mem.cells := by simp [badContent]

@[simp] theorem burstEvents_cells (p verdict world samples : Nat) (rx : BurstRx) (s : State) :
    (burstEvents p verdict world samples rx s).mem.cells = s.mem.cells := by simp [burstEvents]

@[simp] theorem burstPassed_cells (p map i : Nat) (b : Burst5) (t : Terminal) (rx : BurstRx) (s : State) :
    (burstPassed p map i b t rx s).mem.cells = s.mem.cells := by
  unfold burstPassed
  (repeat' split) <;> simp

@[simp] theorem burstGone_cells (p map i : Nat) (b : Burst5) (rx : BurstRx) (s : State) :
    (burstGone p map i b rx s).mem.cells = s.mem.cells := by simp [burstGone]

@[simp] theorem burstReset_cells (p map start : Nat) (s : State) :
    (burstReset p map start s).mem.cells = s.mem.cells := by simp [burstReset]

@[simp] theorem execBurstReceived_cells (port map start : Nat) (rx : BurstRx) (s : State) :
    (stateAfter s (execBurstReceived port map start rx s)).mem.cells = s.mem.cells := by
  unfold execBurstReceived
  dsimp only
  (repeat' split) <;> simp

@[simp] theorem execDeactTimeout_cells (terminal : Nat) (s : State) :
    (stateAfter s (execDeactTimeout terminal s)).mem.cells = s.mem.cells := by
  unfold execDeactTimeout
  (repeat' split) <;> simp

@[simp] theorem execReassemblyTimeoutPon_cells (terminal alloc : Nat) (s : State) :
    (stateAfter s (execReassemblyTimeoutPon terminal alloc s)).mem.cells = s.mem.cells := by
  unfold execReassemblyTimeoutPon
  (repeat' split) <;> simp

@[simp] theorem toOmci_cells (i : Nat) (t : Terminal) (bs : List Byte) (s : State) :
    (toOmci i t bs s).mem.cells = s.mem.cells := by
  unfold toOmci
  (repeat' split) <;> simp

@[simp] theorem execPloamuMessage_cells (terminal : Nat) (message : List Byte) (mic : Bool) (s : State) :
    (stateAfter s (execPloamuMessage terminal message mic s)).mem.cells = s.mem.cells := by
  unfold execPloamuMessage
  (repeat' split) <;> simp

@[simp] theorem execUpstreamOmciFrame_cells (terminal key : Nat) (pos : XgemPlace) (bytes : List Byte) (mic : Bool) (s : State) :
    (stateAfter s (execUpstreamOmciFrame terminal key pos bytes mic s)).mem.cells = s.mem.cells := by
  unfold execUpstreamOmciFrame
  (repeat' split) <;> simp

@[simp] theorem execExtAccept_cells (sender : PloamFrom) (accept : Nat) (s : State) :
    (stateAfter s (execExtAccept sender accept s)).mem.cells = s.mem.cells := by
  unfold execExtAccept
  (repeat' split) <;> simp

@[simp] theorem execKeyRequest_cells (terminal : Nat) (s : State) :
    (stateAfter s (execKeyRequest terminal s)).mem.cells = s.mem.cells := by
  unfold execKeyRequest
  (repeat' split) <;> simp

@[simp] theorem keyTimeout_cells (i : Nat) (t : Terminal) (r : KeyReq) (s : State) :
    (keyTimeout i t r s).mem.cells = s.mem.cells := by simp [keyTimeout]

@[simp] theorem execKeyRequestTimeout_cells (terminal : Nat) (s : State) :
    (stateAfter s (execKeyRequestTimeout terminal s)).mem.cells = s.mem.cells := by
  unfold execKeyRequestTimeout
  (repeat' split) <;> simp

@[simp] theorem takeKey_cells (i frag : Nat) (body : List Byte) (t : Terminal) (r : KeyReq) (s : State) :
    (takeKey i frag body t r s).mem.cells = s.mem.cells := by
  unfold takeKey
  dsimp only
  (repeat' split) <;> simp

@[simp] theorem execKeyReport_cells (terminal frag : Nat) (body : List Byte) (mic : Bool) (s : State) :
    (stateAfter s (execKeyReport terminal frag body mic s)).mem.cells = s.mem.cells := by
  unfold execKeyReport
  (repeat' split) <;> simp

@[simp] theorem execPonKeyWrite_cells (s : State) : (stateAfter s (execPonKeyWrite s)).mem.cells = s.mem.cells := by
  unfold execPonKeyWrite
  (repeat' split) <;> simp

/-! ## Downstream -/

@[simp] theorem sendPloam_cells (p onu : Nat) (m : Ploam) (s : State) :
    (sendPloam p onu m s).mem.cells = s.mem.cells := by simp [sendPloam]

@[simp] theorem ploamSent_cells (i n : Nat) (m : Ploam) (s : State) :
    (ploamSent i n m s).mem.cells = s.mem.cells := by
  unfold ploamSent
  (repeat' split) <;> simp

@[simp] theorem sendTerm_cells (p n i : Nat) (s : State) : (sendTerm p n i s).mem.cells = s.mem.cells := by
  unfold sendTerm
  (repeat' split) <;> simp

@[simp] theorem sendPloams_cells (p n : Nat) (s : State) : (sendPloams p n s).1.mem.cells = s.mem.cells := by
  unfold sendPloams
  dsimp only
  split <;> simp

@[simp] theorem applySwitch_cells (n : Nat) (e : Nat × Terminal) (s : State) :
    (applySwitch n e s).mem.cells = s.mem.cells := by
  unfold applySwitch
  (repeat' split) <;> simp

@[simp] theorem sendXgem_cells (p n pos : Nat) (x : XgemTx) (t : Terminal) (bs : List Byte) (last : Bool) (s : State) :
    (sendXgem p n pos x t bs last s).mem.cells = s.mem.cells := by simp [sendXgem]

@[simp] theorem fillFrame_cells (p n total cap : Nat) (l : List XgemTx) (s : State) :
    (fillFrame p n total cap l s).1.mem.cells = s.mem.cells := by
  induction l generalizing cap s with
  | nil => exact fillIdle_cells p cap s
  | cons x r ih =>
    unfold fillFrame
    dsimp only
    (repeat' split) <;> simp [ih]

@[simp] theorem sendXgems_cells (p n ploams : Nat) (s : State) :
    (sendXgems p n ploams s).mem.cells = s.mem.cells := by simp [sendXgems]

@[simp] theorem setTxdis_cells (p : Nat) (on : Bool) (s : State) : (setTxdis p on s).mem.cells = s.mem.cells := by
  simp [setTxdis]

@[simp] theorem holdTx_cells (p : Nat) (s : State) : (holdTx p s).mem.cells = s.mem.cells := by simp [holdTx]

@[simp] theorem execPonTxPllUnlock_cells (port : Nat) (s : State) :
    (stateAfter s (execPonTxPllUnlock port s)).mem.cells = s.mem.cells := by simp [execPonTxPllUnlock]

@[simp] theorem noOptics_cells (p : Nat) (s : State) : (noOptics p s).mem.cells = s.mem.cells := by simp [noOptics]

@[simp] theorem execOpticsRemoved_cells (port : Nat) (s : State) :
    (stateAfter s (execOpticsRemoved port s)).mem.cells = s.mem.cells := by simp [execOpticsRemoved]

@[simp] theorem execOpticsInserted_cells (port : Nat) (s : State) :
    (stateAfter s (execOpticsInserted port s)).mem.cells = s.mem.cells := by simp [execOpticsInserted]

@[simp] theorem execOpticsTxdisRelease_cells (port : Nat) (s : State) :
    (stateAfter s (execOpticsTxdisRelease port s)).mem.cells = s.mem.cells := by simp [execOpticsTxdisRelease]

@[simp] theorem startFraming_cells (p : Nat) (s : State) : (startFraming p s).mem.cells = s.mem.cells := by simp [startFraming]

@[simp] theorem judgeRogue_cells (p : Nat) (seen : Bool) (s : State) :
    (judgeRogue p seen s).mem.cells = s.mem.cells := by simp [judgeRogue]

@[simp] theorem sendFrameN_cells (p n : Nat) (s : State) : (sendFrameN p n s).mem.cells = s.mem.cells := by simp [sendFrameN]

@[simp] theorem endFrame_cells (p n : Nat) (s : State) : (endFrame p n s).mem.cells = s.mem.cells := by simp [endFrame]

@[simp] theorem beginFrame_cells (p n : Nat) (rogue : Bool) (s : State) :
    (beginFrame p n rogue s).mem.cells = s.mem.cells := by simp [beginFrame]

@[simp] theorem frameBoundary_cells (energy : List (Nat × List Nat)) (s : State) :
    (frameBoundary energy s).mem.cells = s.mem.cells := by simp [frameBoundary]

@[simp] theorem execModuleFrameBoundary_cells (energy : List (Nat × List Nat)) (s : State) :
    (stateAfter s (execModuleFrameBoundary energy s)).mem.cells = s.mem.cells := by
  unfold execModuleFrameBoundary
  rw [stateAfter_next]
  exact whenever_cells _ _ _ (frameBoundary_cells energy s)

/-! ## Sampling -/

@[simp] theorem writeRecords_cells (r : Ring) (k : Nat) (recs : List (List Word)) (s : State) :
    (writeRecords r k recs s).mem.cells = s.mem.cells := by
  induction recs generalizing k s with
  | nil => rfl
  | cons w l ih => simp [writeRecords, ih]

@[simp] theorem ringUnit_cells (world : Nat) (r : Ring) (inTime : Bool) (s : State) :
    (ringUnit world r inTime s).mem.cells = s.mem.cells := by simp [ringUnit]

@[simp] theorem sample_cells (inTime : Bool) (s : State) : (sample inTime s).mem.cells = s.mem.cells := by simp [sample]

@[simp] theorem execSamplingInstant_cells (inTime : Bool) (s : State) :
    (stateAfter s (execSamplingInstant inTime s)).mem.cells = s.mem.cells := by simp [execSamplingInstant]

end Sys2Proof.Machine
end

section
/-! PROOFS. The cells of HBM under the operations of the model:
what faults, power, the recorder, boot, Plait, Halter and the commands leave. A frame lemma
for each operation: `f_cells` says that `f` leaves the cells as they were. -/

namespace Sys2Proof.Machine

/-! ## Commands of traffic -/

@[simp] theorem writeQueue_cells (n : NodeId) (f : Queue → Queue) (flush : Bool) (s : State) :
    (writeQueue n f flush s).mem.cells = s.mem.cells := by simp [writeQueue]

@[simp] theorem runQueueConfig_cells (c : Ctx) (s : State) :
    ((runQueueConfig c s).left s).mem.cells = s.mem.cells := by
  unfold runQueueConfig
  dsimp only
  rw [left_refuseIf]
  (repeat' split) <;> simp

@[simp] theorem oneDefault_cells (n : NodeId) (new : Node) (s : State) :
    (oneDefault n new s).mem.cells = s.mem.cells := by simp [oneDefault]

@[simp] theorem runSchedNodeConfig_cells (c : Ctx) (s : State) :
    ((runSchedNodeConfig c s).left s).mem.cells = s.mem.cells := by simp [runSchedNodeConfig]

@[simp] theorem runShaperConfig_cells (c : Ctx) (s : State) :
    ((runShaperConfig c s).left s).mem.cells = s.mem.cells := by simp [runShaperConfig]

@[simp] theorem installGate_cells (target : Word) (g : GateList) (s : State) :
    ((installGate target g s).left s).mem.cells = s.mem.cells := by
  unfold installGate
  dsimp only
  rw [left_done, ite_cells, recordEv_mem, bump_mem]
  split <;> rfl

@[simp] theorem runGateLoad_cells (kinds : List Nat) (c : Ctx) (s : State) :
    ((runGateLoad kinds c s).left s).mem.cells = s.mem.cells := by
  unfold runGateLoad
  dsimp only
  (repeat' split) <;> simp

@[simp] theorem gateTake_cells (k : Nat) (s : State) : (gateTake k s).mem.cells = s.mem.cells := by
  unfold gateTake
  (repeat' split) <;> simp

@[simp] theorem execGateListStart_cells (target : Nat) (s : State) :
    (stateAfter s (execGateListStart target s)).mem.cells = s.mem.cells := by simp [execGateListStart]

@[simp] theorem runQueueStats_cells (c : Ctx) (s : State) : ((runQueueStats c s).left s).mem.cells = s.mem.cells := by
  simp [runQueueStats]

@[simp] theorem runSampleRingConfig_cells (c : Ctx) (s : State) :
    ((runSampleRingConfig c s).left s).mem.cells = s.mem.cells := by simp [runSampleRingConfig]

@[simp] theorem runSampleRingRead_cells (c : Ctx) (s : State) :
    ((runSampleRingRead c s).left s).mem.cells = s.mem.cells := by
  unfold runSampleRingRead
  dsimp only
  (repeat' split) <;> simp

/-! ## Commands of the PON ports -/

@[simp] theorem startPort_cells (p : Nat) (s : State) : (startPort p s).mem.cells = s.mem.cells := by simp [startPort]

@[simp] theorem changeProfile_cells (p : Nat) (s : State) : (changeProfile p s).mem.cells = s.mem.cells := by
  simp [changeProfile]

@[simp] theorem runPortConfig_cells (c : Ctx) (s : State) : ((runPortConfig c s).left s).mem.cells = s.mem.cells := by
  have hstop (l : List Nat) (u : State) :
      (forEach l (fun q s => updPort q (fun x => { x with stopping := some (s.time.sfc + 1) }) s) u).mem.cells = u.mem.cells :=
    forEach_cells _ _ _ fun _ _ => by simp
  unfold runPortConfig
  dsimp only
  rw [left_refuseIf]
  (repeat' split) <;> simp [hstop]

@[simp] theorem clearPortDefects_cells (p : Nat) (s : State) : (clearPortDefects p s).mem.cells = s.mem.cells := by
  simp [clearPortDefects]

@[simp] theorem disablePort_cells (p : Nat) (s : State) : (disablePort p s).mem.cells = s.mem.cells := by simp [disablePort]

@[simp] theorem runPortState_cells (c : Ctx) (s : State) : ((runPortState c s).left s).mem.cells = s.mem.cells := by
  simp [runPortState]

@[simp] theorem onTerm_cells (c : Ctx) (s : State) (k : Terminal → HRes) (h : ∀ t, ((k t).left s).mem.cells = s.mem.cells) :
    ((onTerm c s k).left s).mem.cells = s.mem.cells := by
  unfold onTerm
  split <;> simp [h]

@[simp] theorem runTerminalAdd_cells (c : Ctx) (s : State) :
    ((runTerminalAdd c s).left s).mem.cells = s.mem.cells := by simp [runTerminalAdd]

@[simp] theorem clearPowerDefects_cells (i : Nat) (t : Terminal) (s : State) :
    (clearPowerDefects i t s).mem.cells = s.mem.cells := by simp [clearPowerDefects]

@[simp] theorem runTerminalRemove_cells (c : Ctx) (s : State) :
    ((runTerminalRemove c s).left s).mem.cells = s.mem.cells := by simp [runTerminalRemove]

@[simp] theorem runPloamSend_cells (c : Ctx) (s : State) : ((runPloamSend c s).left s).mem.cells = s.mem.cells := by
  simp [runPloamSend]

@[simp] theorem runBpmRead_cells (c : Ctx) (s : State) : ((runBpmRead c s).left s).mem.cells = s.mem.cells := by
  simp [runBpmRead]

@[simp] theorem opticsStuck_cells (bus : Nat) (on : Bool) (s : State) :
    (opticsStuck bus on s).mem.cells = s.mem.cells := by simp [opticsStuck]

@[simp] theorem recoverBus_cells (bus : Nat) (released : Bool) (s : State) :
    (recoverBus bus released s).mem.cells = s.mem.cells := by simp [recoverBus]

@[simp] theorem opticsTransaction_cells (port dev reg : Nat) (data : List Byte) (reads : Nat) (s : State) :
    (opticsTransaction port dev reg data reads s).mem.cells = s.mem.cells := by simp [opticsTransaction]

@[simp] theorem runOpticsAccess_cells (c : Ctx) (s : State) :
    ((runOpticsAccess c s).left s).mem.cells = s.mem.cells := by
  unfold runOpticsAccess
  (repeat' split) <;> simp

@[simp] theorem execOpticsPoll_cells (port outcome : Nat) (released : Bool) (s : State) :
    (stateAfter s (execOpticsPoll port outcome released s)).mem.cells = s.mem.cells := by simp [execOpticsPoll]

@[simp] theorem execOpticsBusRecovery_cells (bus : Nat) (released : Bool) (s : State) :
    (stateAfter s (execOpticsBusRecovery bus released s)).mem.cells = s.mem.cells := by simp [execOpticsBusRecovery]

@[simp] theorem runOmciBind_cells (c : Ctx) (s : State) : ((runOmciBind c s).left s).mem.cells = s.mem.cells := by
  simp [runOmciBind]

@[simp] theorem runPonKeySwitch_cells (c : Ctx) (s : State) :
    ((runPonKeySwitch c s).left s).mem.cells = s.mem.cells := by simp [runPonKeySwitch]

/-! ## Faults -/

@[simp] theorem poisonFlight_cells (id : Nat) (s : State) : (poisonFlight id s).mem.cells = s.mem.cells := by
  unfold poisonFlight
  (repeat' split) <;> simp

@[simp] theorem poisonCopies_cells (id : Nat) (s : State) : (poisonCopies id s).mem.cells = s.mem.cells := by simp [poisonCopies]

@[simp] theorem dropFromChannel_cells (e : Err) (s : State) : (dropFromChannel e s).mem.cells = s.mem.cells := by
  simp [dropFromChannel]

@[simp] theorem drainChannels_cells (fuel : Nat) (s : State) : (drainChannels fuel s).mem.cells = s.mem.cells := by
  induction fuel generalizing s with
  | zero => rfl
  | succ k ih =>
    unfold drainChannels
    (repeat' split) <;> simp [ih]

@[simp] theorem stickyPoll_cells (s : State) : (stickyPoll s).mem.cells = s.mem.cells := by simp [stickyPoll]

@[simp] theorem execStickyPoll_cells (s : State) : (stateAfter s (execStickyPoll s)).mem.cells = s.mem.cells := by
  simp [execStickyPoll]

@[simp] theorem faultNote_cells (i : Nat) (x : FaultEntry) (cls : Nat) (raised : Bool) (s : State) :
    (faultNote i x cls raised s).mem.cells = s.mem.cells := by simp [faultNote]

@[simp] theorem logRaised_cells (e : Err) (s : State) : (logRaised e s).mem.cells = s.mem.cells := by
  unfold logRaised
  dsimp only
  (repeat' split) <;> simp

@[simp] theorem logCleared_cells (e : Err) (s : State) : (logCleared e s).mem.cells = s.mem.cells := by
  unfold logCleared
  (repeat' split) <;> simp

@[simp] theorem loseSlice_cells (k : Nat) (s : State) : (loseSlice k s).mem.cells = s.mem.cells := by
  unfold loseSlice
  exact forEach_cells _ _ _ fun _ _ => by (repeat' split) <;> simp

@[simp] theorem isolate_cells (cplx unit inst : Nat) (s : State) :
    (isolate cplx unit inst s).mem.cells = s.mem.cells := by simp [isolate]

@[simp] theorem raiseNow_cells (e : Err) (s : State) : (raiseNow e s).mem.cells = s.mem.cells := by simp [raiseNow]

@[simp] theorem correction_cells (cplx unit inst code : Nat) (s : State) :
    (correction cplx unit inst code s).mem.cells = s.mem.cells := by
  unfold correction
  (repeat' split) <;> simp

@[simp] theorem execFaultReport_cells (cplx unit inst res code cls : Nat) (detail : Word) (frame : Option Nat) (s : State) :
    (stateAfter s (execFaultReport cplx unit inst res code cls detail frame s)).mem.cells = s.mem.cells := by
  unfold execFaultReport
  (repeat' split) <;> simp

@[simp] theorem markOut_cells (u : Nat × Nat × Nat) (out : Bool) (s : State) :
    (markOut u out s).mem.cells = s.mem.cells := by simp [markOut]

@[simp] theorem unitFatal_cells (e : Err) (s : State) : (unitFatal e s).mem.cells = s.mem.cells := by simp [unitFatal]

@[simp] theorem triggerSafe_cells (code : Nat) (s : State) : (triggerSafe code s).mem.cells = s.mem.cells := by
  simp [triggerSafe]

@[simp] theorem classAction_cells (e : Err) (s : State) : (classAction e s).mem.cells = s.mem.cells := by simp [classAction]

@[simp] theorem handle_cells (e : Err) (s : State) : (handle e s).mem.cells = s.mem.cells := by simp [handle]

@[simp] theorem faultHandling_cells (s : State) : (faultHandling s).mem.cells = s.mem.cells := by
  unfold faultHandling
  (repeat' split) <;> simp

@[simp] theorem followAlert_cells (s : State) : (followAlert s).mem.cells = s.mem.cells := by simp [followAlert]

@[simp] theorem execFaultHandling_cells (s : State) :
    (stateAfter s (execFaultHandling s)).mem.cells = s.mem.cells := by simp [execFaultHandling]

@[simp] theorem execHandlerFail_cells (s : State) : (stateAfter s (execHandlerFail s)).mem.cells = s.mem.cells := by
  simp [execHandlerFail]

@[simp] theorem restartClock_cells (cplx unit inst : Nat) (s : State) :
    (restartClock cplx unit inst s).mem.cells = s.mem.cells := by
  unfold restartClock
  (repeat' split) <;> simp

@[simp] theorem resetUnit_cells (cplx unit inst : Nat) (s : State) :
    (resetUnit cplx unit inst s).mem.cells = s.mem.cells := by
  unfold resetUnit
  split
  · dsimp only
    split <;> simp
  · split
    · exact forEach_cells _ _ _ fun _ _ => by simp
    · rfl

@[simp] theorem clearUnit_cells (u : Nat × Nat × Nat) (s : State) : (clearUnit u s).mem.cells = s.mem.cells := by
  simp [clearUnit]

@[simp] theorem unitRecovery_cells (cplx unit inst : Nat) (selfTest : Bool) (s : State) :
    (unitRecovery cplx unit inst selfTest s).mem.cells = s.mem.cells := by simp [unitRecovery]

@[simp] theorem execUnitRecovery_cells (cplx unit inst : Nat) (selfTest : Bool) (s : State) :
    (stateAfter s (execUnitRecovery cplx unit inst selfTest s)).mem.cells = s.mem.cells := by simp [execUnitRecovery]

@[simp] theorem runFaultRead_cells (c : Ctx) (s : State) : ((runFaultRead c s).left s).mem.cells = s.mem.cells := by
  simp [runFaultRead]

@[simp] theorem runFaultClear_cells (c : Ctx) (s : State) : ((runFaultClear c s).left s).mem.cells = s.mem.cells := by
  unfold runFaultClear
  dsimp only
  (repeat' split) <;> simp

/-! ## Power -/

@[simp] theorem switchOver_cells (f : Nat) (s : State) : (switchOver f s).mem.cells = s.mem.cells := by simp [switchOver]

@[simp] theorem trackReturn_cells (s : State) : (trackReturn s).mem.cells = s.mem.cells := by simp [trackReturn]

@[simp] theorem chooseFeed_cells (s : State) : (chooseFeed s).mem.cells = s.mem.cells := by simp [chooseFeed]

@[simp] theorem feedFault_cells (f : Nat) (s : State) : (feedFault f s).mem.cells = s.mem.cells := by simp [feedFault]

@[simp] theorem feedFaults_cells (s : State) : (feedFaults s).mem.cells = s.mem.cells := by simp [feedFaults]

@[simp] theorem softStart_cells (f : Nat) (s : State) : (softStart f s).mem.cells = s.mem.cells := by simp [softStart]

@[simp] theorem execFeedVoltageCrossing_cells (voltsA voltsB : Nat) (s : State) :
    (stateAfter s (execFeedVoltageCrossing voltsA voltsB s)).mem.cells = s.mem.cells := by simp [execFeedVoltageCrossing]

@[simp] theorem execReturnMsExpiry_cells (s : State) :
    (stateAfter s (execReturnMsExpiry s)).mem.cells = s.mem.cells := by simp [execReturnMsExpiry]

@[simp] theorem execFeedFlapClear_cells (s : State) :
    (stateAfter s (execFeedFlapClear s)).mem.cells = s.mem.cells := by simp [execFeedFlapClear]

@[simp] theorem softStartDone_cells (s : State) : (softStartDone s).mem.cells = s.mem.cells := by simp [softStartDone]

@[simp] theorem execSoftStartComplete_cells (s : State) :
    (stateAfter s (execSoftStartComplete s)).mem.cells = s.mem.cells := by simp [execSoftStartComplete]

@[simp] theorem execFeedOvercurrentRelease_cells (f : Nat) (s : State) :
    (stateAfter s (execFeedOvercurrentRelease f s)).mem.cells = s.mem.cells := by simp [execFeedOvercurrentRelease]

@[simp] theorem tempHigh_cells (rail : Nat) (tj tc : Int) (s : State) :
    (tempHigh rail tj tc s).mem.cells = s.mem.cells := by simp [tempHigh]

@[simp] theorem execTempHigh_cells (rail : Nat) (tj tc : Int) (s : State) :
    (stateAfter s (execTempHigh rail tj tc s)).mem.cells = s.mem.cells := by simp [execTempHigh]

@[simp] theorem flushRecords_cells (s : State) : (flushRecords s).mem.cells = s.mem.cells := by simp [flushRecords]

@[simp] theorem persistSeconds_cells (clean : Bool) (s : State) :
    (persistSeconds clean s).mem.cells = s.mem.cells := by simp [persistSeconds]

@[simp] theorem execPerstLDeassert_cells (s : State) :
    (stateAfter s (execPerstLDeassert s)).mem.cells = s.mem.cells := by simp [execPerstLDeassert]

@[simp] theorem runFeedConfig_cells (c : Ctx) (s : State) : ((runFeedConfig c s).left s).mem.cells = s.mem.cells := by
  simp [runFeedConfig]

@[simp] theorem takeSamples_cells (answers : List Nat) (s : State) :
    (takeSamples answers s).mem.cells = s.mem.cells := by
  unfold takeSamples
  (repeat' split) <;> simp

@[simp] theorem runPowerStatus_cells (c : Ctx) (s : State) :
    ((runPowerStatus c s).left s).mem.cells = s.mem.cells := by simp [runPowerStatus]

/-! ## The recorder -/

@[simp] theorem execSettingsRecordWrite_cells (record : Nat) (verified : Bool) (s : State) :
    (stateAfter s (execSettingsRecordWrite record verified s)).mem.cells = s.mem.cells := by simp [execSettingsRecordWrite]

@[simp] theorem execOperatingSecond_cells (s : State) :
    (stateAfter s (execOperatingSecond s)).mem.cells = s.mem.cells := by simp [execOperatingSecond]

@[simp] theorem execOperatingSecondsPersist_cells (s : State) :
    (stateAfter s (execOperatingSecondsPersist s)).mem.cells = s.mem.cells := by simp [execOperatingSecondsPersist]

@[simp] theorem afterSlot_cells (s : State) : (afterSlot s).mem.cells = s.mem.cells := by simp [afterSlot]

@[simp] theorem programRecord_cells (torn : Bool) (s : State) : (programRecord torn s).mem.cells = s.mem.cells := by
  unfold programRecord
  (repeat' split) <;> simp

@[simp] theorem execRecordWrite_cells (torn : Bool) (s : State) :
    (stateAfter s (execRecordWrite torn s)).mem.cells = s.mem.cells := by simp [execRecordWrite]

@[simp] theorem runRecorderRead_cells (c : Ctx) (s : State) :
    ((runRecorderRead c s).left s).mem.cells = s.mem.cells := by simp [runRecorderRead]

@[simp] theorem eraseCut_cells (steps : Nat) (kept : List Record) (s : State) :
    (eraseCut steps kept s).mem.cells = s.mem.cells := by simp [eraseCut]

@[simp] theorem runRecorderErase_cells (c : Ctx) (s : State) :
    ((runRecorderErase c s).left s).mem.cells = s.mem.cells := by
  unfold runRecorderErase
  (repeat' split) <;> simp

/-! ## Commands of the module -/

@[simp] theorem runNop_cells (_c : Ctx) (s : State) : ((runNop _c s).left s).mem.cells = s.mem.cells := by simp [runNop]

@[simp] theorem runIdentify_cells (_c : Ctx) (s : State) : ((runIdentify _c s).left s).mem.cells = s.mem.cells := by
  simp [runIdentify]

@[simp] theorem runStatusRead_cells (c : Ctx) (s : State) : ((runStatusRead c s).left s).mem.cells = s.mem.cells := by
  simp [runStatusRead]

@[simp] theorem withdrawIfLast_cells (fn : Nat) (s : State) : (withdrawIfLast fn s).mem.cells = s.mem.cells := by
  simp [withdrawIfLast]

@[simp] theorem runQueueBind_cells (c : Ctx) (s : State) : ((runQueueBind c s).left s).mem.cells = s.mem.cells := by
  simp [runQueueBind]

@[simp] theorem programCopy_cells (k : Nat) (bs : List Byte) (s : State) :
    (programCopy k bs s).mem.cells = s.mem.cells := by simp [programCopy]

@[simp] theorem runImageWrite_cells (c : Ctx) (s : State) : ((runImageWrite c s).left s).mem.cells = s.mem.cells := by
  simp [runImageWrite]

@[simp] theorem runImageStatus_cells (_c : Ctx) (s : State) :
    ((runImageStatus _c s).left s).mem.cells = s.mem.cells := by simp [runImageStatus]

@[simp] theorem runSettingsStatus_cells (_c : Ctx) (s : State) :
    ((runSettingsStatus _c s).left s).mem.cells = s.mem.cells := by simp [runSettingsStatus]

@[simp] theorem runModuleReset_cells (c : Ctx) (s : State) :
    ((runModuleReset c s).left s).mem.cells = s.mem.cells := by simp [runModuleReset]

@[simp] theorem runInbandConfig_cells (c : Ctx) (s : State) :
    ((runInbandConfig c s).left s).mem.cells = s.mem.cells := by simp [runInbandConfig]

@[simp] theorem runNotifyMask_cells (c : Ctx) (s : State) : ((runNotifyMask c s).left s).mem.cells = s.mem.cells := by
  simp [runNotifyMask]

@[simp] theorem clearPending_cells (fn : Nat) (bits : BitVec 64) (s : State) :
    (clearPending fn bits s).mem.cells = s.mem.cells := by simp [clearPending]

@[simp] theorem execPending_cells (fn : Nat) (bits : BitVec 64) (s : State) :
    (stateAfter s (execPending fn bits s)).mem.cells = s.mem.cells := by simp [execPending]

@[simp] theorem writeMask_cells (fn half : Nat) (v : Word) (s : State) :
    (writeMask fn half v s).mem.cells = s.mem.cells := by simp [writeMask]

@[simp] theorem writeBase_cells (n off : Nat) (v : Word) (s : State) :
    (writeBase n off v s).mem.cells = s.mem.cells := by simp [writeBase]

@[simp] theorem functionReset_cells (fn : Nat) (s : State) : (functionReset fn s).mem.cells = s.mem.cells := by
  simp [functionReset]

@[simp] theorem execFunctionLevelReset_cells (fn : Nat) (s : State) :
    (stateAfter s (execFunctionLevelReset fn s)).mem.cells = s.mem.cells := by simp [execFunctionLevelReset]

/-! ## Patina -/

@[simp] theorem marginFault_cells (res code cls : Nat) (was is : Bool) (detail : Nat) (s : State) :
    (marginFault res code cls was is detail s).mem.cells = s.mem.cells := by simp [marginFault]

@[simp] theorem marginFaults_cells (old new : Plan) (s : State) :
    (marginFaults old new s).mem.cells = s.mem.cells := by simp [marginFaults]

@[simp] theorem giveWindows_cells (s : State) : (giveWindows s).mem.cells = s.mem.cells := by
  unfold giveWindows
  split
  · rfl
  · exact (forEach_cells _ _ _ fun _ _ => by simp).trans rfl

@[simp] theorem usePlan_cells (p : Plan) (s : State) : (usePlan p s).mem.cells = s.mem.cells := by simp [usePlan]

@[simp] theorem bootPlan_cells (s : State) : (bootPlan s).mem.cells = s.mem.cells := by
  unfold bootPlan
  (repeat' split) <;> simp

@[simp] theorem periodicPlan_cells (rails : List RailScan) (lanes : List LaneScan) (s : State) :
    (periodicPlan rails lanes s).mem.cells = s.mem.cells := by simp [periodicPlan]

@[simp] theorem execPatinaPeriodicPlan_cells (rails : List RailScan) (lanes : List LaneScan) (s : State) :
    (stateAfter s (execPatinaPeriodicPlan rails lanes s)).mem.cells = s.mem.cells := by simp [execPatinaPeriodicPlan]

@[simp] theorem writePlan_cells (verified : Bool) (s : State) : (writePlan verified s).mem.cells = s.mem.cells := by
  unfold writePlan
  (repeat' split) <;> simp

@[simp] theorem execPatinaPlanWrite_cells (verified : Bool) (s : State) :
    (stateAfter s (execPatinaPlanWrite verified s)).mem.cells = s.mem.cells := by simp [execPatinaPlanWrite]

@[simp] theorem stepRail_cells (rail : Nat) (s : State) : (stepRail rail s).mem.cells = s.mem.cells := by simp [stepRail]

@[simp] theorem execRailOffsetStep_cells (rail : Nat) (s : State) :
    (stateAfter s (execRailOffsetStep rail s)).mem.cells = s.mem.cells := by simp [execRailOffsetStep]

@[simp] theorem planAnswer_cells (hasBuf : Bool) (p held : Plan) (s : State) :
    ((planAnswer hasBuf p held s).left s).mem.cells = s.mem.cells := by simp [planAnswer]

@[simp] theorem runPatinaStatus_cells (c : Ctx) (s : State) :
    ((runPatinaStatus c s).left s).mem.cells = s.mem.cells := by simp [runPatinaStatus]

@[simp] theorem scanResult_cells (flags : Nat) (hasBuf : Bool) (rails : List RailScan) (lanes : List LaneScan) (s : State) :
    ((scanResult flags hasBuf rails lanes s).left s).mem.cells = s.mem.cells := by
  have h (p q : Plan) (u : State) : ((planAnswer hasBuf p q u).left s).mem.cells = u.mem.cells := by
    unfold planAnswer
    dsimp only
    split <;> rfl
  unfold scanResult
  dsimp only
  split <;> rw [h]

/-! ## Boot -/

@[simp] theorem readFlash_cells (flash : List (List Byte)) (s : State) :
    (readFlash flash s).mem.cells = s.mem.cells := by
  unfold readFlash
  exact forEach_cells _ _ _ fun _ _ => by (repeat' split) <;> simp

@[simp] theorem markSelected_cells (kind : Nat) (s : State) : (markSelected kind s).mem.cells = s.mem.cells := by
  unfold markSelected
  (repeat' split) <;> simp

@[simp] theorem countPowerCycle_cells (s : State) : (countPowerCycle s).mem.cells = s.mem.cells := by simp [countPowerCycle]

@[simp] theorem renewCounter_cells (s : State) : (renewCounter s).mem.cells = s.mem.cells := by simp [renewCounter]

@[simp] theorem bootRecord_cells (s : State) : (bootRecord s).mem.cells = s.mem.cells := by simp [bootRecord]

@[simp] theorem completeAdvance_cells (s : State) : (completeAdvance s).mem.cells = s.mem.cells := by
  unfold completeAdvance
  (repeat' split) <;> simp

@[simp] theorem reconcile_cells (s : State) : (reconcile s).mem.cells = s.mem.cells := by simp [reconcile]

@[simp] theorem framersHunt_cells (s : State) : (framersHunt s).mem.cells = s.mem.cells := by simp [framersHunt]

@[simp] theorem romBoot_cells (flash : List (List Byte)) (s : State) : (romBoot flash s).mem.cells = s.mem.cells := by
  unfold romBoot
  dsimp only
  split
  · rw [framersHunt_cells]
    simp
  · simp

@[simp] theorem endShutdown_cells (s : State) : (endShutdown s).mem.cells = s.mem.cells := by simp [endShutdown]

@[simp] theorem execRomBoot_cells (flash : List (List Byte)) (s : State) :
    (stateAfter s (execRomBoot flash s)).mem.cells = s.mem.cells := by simp [execRomBoot]

@[simp] theorem renewSettings_cells (s : State) : (renewSettings s).mem.cells = s.mem.cells := by simp [renewSettings]

@[simp] theorem foldTrees_cells (s : State) : (foldTrees s).mem.cells = s.mem.cells := by
  unfold foldTrees
  (repeat' split) <;> simp

@[simp] theorem restoreMark_cells (s : State) : (restoreMark s).mem.cells = s.mem.cells := by
  unfold restoreMark
  split <;> rfl

@[simp] theorem readyNow_cells (s : State) : (readyNow s).mem.cells = s.mem.cells := by simp [readyNow]

@[simp] theorem restartDone_cells (s : State) : (restartDone s).mem.cells = s.mem.cells := by simp [restartDone]

/-! ## Plait -/

@[simp] theorem setCtxs_cells (i : Nat) (m : Map Nat Reasm) (s : State) :
    (setCtxs i m s).mem.cells = s.mem.cells := by simp [setCtxs]

@[simp] theorem execReassemblyTimeout_cells (side src ctx kind : Nat) (s : State) :
    (stateAfter s (execReassemblyTimeout side src ctx kind s)).mem.cells = s.mem.cells := by simp [execReassemblyTimeout]

@[simp] theorem framePayload_cells (i : Nat) (d : List Byte) (s : State) :
    (framePayload i d s).2.mem.cells = s.mem.cells := by
  unfold framePayload
  dsimp only
  (repeat' split) <;> simp

@[simp] theorem followTim_cells (i : Nat) (s : State) : (followTim i s).mem.cells = s.mem.cells := by simp [followTim]

@[simp] theorem takeTrace_cells (i mfi : Nat) (b : Byte) (s : State) :
    (takeTrace i mfi b s).mem.cells = s.mem.cells := by simp [takeTrace]

@[simp] theorem takeBip_cells (i given : Nat) (s : State) : (takeBip i given s).mem.cells = s.mem.cells := by
  unfold takeBip
  (repeat' split) <;> simp

@[simp] theorem takeRdi_cells (i : Nat) (rdi : Bool) (s : State) : (takeRdi i rdi s).mem.cells = s.mem.cells := by simp [takeRdi]

@[simp] theorem takeBack_cells (i v : Nat) (s : State) : (takeBack i v s).mem.cells = s.mem.cells := by simp [takeBack]

@[simp] theorem takeFill_cells (i fill : Nat) (s : State) : (takeFill i fill s).mem.cells = s.mem.cells := by simp [takeFill]

@[simp] theorem joinLanes_cells (i : Nat) (s : State) : (joinLanes i s).mem.cells = s.mem.cells := by simp [joinLanes]

@[simp] theorem takeOverhead_cells (i : Nat) (d : List Byte) (s : State) :
    (takeOverhead i d s).mem.cells = s.mem.cells := by simp [takeOverhead]

@[simp] theorem followWidth_cells (i : Nat) (bytes : List Byte) (s : State) :
    (followWidth i bytes s).mem.cells = s.mem.cells := by simp [followWidth]

@[simp] theorem excWindow_cells (i : Nat) (s : State) : (excWindow i s).mem.cells = s.mem.cells := by simp [excWindow]

@[simp] theorem execExcWindow_cells (side : Nat) (s : State) :
    (stateAfter s (execExcWindow side s)).mem.cells = s.mem.cells := by simp [execExcWindow]

@[simp] theorem discardStuck_cells (i : Nat) (s : State) : (discardStuck i s).mem.cells = s.mem.cells := by simp [discardStuck]

@[simp] theorem pauseStuck_cells (i card : Nat) (s : State) : (pauseStuck i card s).mem.cells = s.mem.cells := by
  simp [pauseStuck]

@[simp] theorem execPauseStuck_cells (side card : Nat) (s : State) :
    (stateAfter s (execPauseStuck side card s)).mem.cells = s.mem.cells := by simp [execPauseStuck]

@[simp] theorem openContexts_cells (fuel i : Nat) (s : State) : (openContexts fuel i s).mem.cells = s.mem.cells := by
  induction fuel generalizing s with
  | zero => rfl
  | succ k ih =>
    unfold openContexts
    dsimp only
    split <;> simp [ih]

@[simp] theorem sendCell_cells (i : Nat) (s : State) : (sendCell i s).2.mem.cells = s.mem.cells := by
  unfold sendCell
  dsimp only
  (repeat' split) <;> simp

@[simp] theorem sendCells_cells (n i : Nat) (s : State) : (sendCells n i s).2.mem.cells = s.mem.cells := by
  induction n generalizing s with
  | zero => rfl
  | succ k ih =>
    unfold sendCells
    simp [ih]

@[simp] theorem changeWidth_cells (i : Nat) (s : State) : (changeWidth i s).mem.cells = s.mem.cells := by simp [changeWidth]

@[simp] theorem execWidthChange_cells (side : Nat) (s : State) :
    (stateAfter s (execWidthChange side s)).mem.cells = s.mem.cells := by simp [execWidthChange]

@[simp] theorem transmitPlait_cells (i : Nat) (s : State) : (transmitPlait i s).mem.cells = s.mem.cells := by
  unfold transmitPlait
  dsimp only
  (repeat' split) <;> simp

@[simp] theorem execPlaitFrameTransmit_cells (side : Nat) (s : State) :
    (stateAfter s (execPlaitFrameTransmit side s)).mem.cells = s.mem.cells := by simp [execPlaitFrameTransmit]

@[simp] theorem runPlaitConfig_cells (c : Ctx) (s : State) :
    ((runPlaitConfig c s).left s).mem.cells = s.mem.cells := by
  unfold runPlaitConfig
  (repeat' split) <;> simp

@[simp] theorem execProtectionHoldOff_cells (side : Nat) (s : State) :
    (stateAfter s (execProtectionHoldOff side s)).mem.cells = s.mem.cells := by simp [execProtectionHoldOff]

@[simp] theorem restore_cells (s : State) : (restore s).mem.cells = s.mem.cells := by simp [restore]

@[simp] theorem execWtrExpiry_cells (s : State) : (stateAfter s (execWtrExpiry s)).mem.cells = s.mem.cells := by
  simp [execWtrExpiry]

@[simp] theorem request_cells (req side : Nat) (s : State) : (request req side s).mem.cells = s.mem.cells := by
  unfold request
  (repeat' split) <;> simp

@[simp] theorem runProtectionCommand_cells (c : Ctx) (s : State) :
    ((runProtectionCommand c s).left s).mem.cells = s.mem.cells := by simp [runProtectionCommand]

@[simp] theorem portsFollow_cells (g : Nat) (was : State) (s : State) :
    (portsFollow g was s).mem.cells = s.mem.cells := by simp [portsFollow]

@[simp] theorem runUplinkConfig_cells (c : Ctx) (s : State) :
    ((runUplinkConfig c s).left s).mem.cells = s.mem.cells := by simp [runUplinkConfig]

@[simp] theorem uplinkFault_cells (p : Nat) (local_ remote : Bool) (s : State) :
    (uplinkFault p local_ remote s).mem.cells = s.mem.cells := by simp [uplinkFault, whenever]

@[simp] theorem execUplinkFaultChange_cells (port : Nat) (local_ remote : Bool) (s : State) :
    (stateAfter s (execUplinkFaultChange port local_ remote s)).mem.cells = s.mem.cells := by simp [execUplinkFaultChange]

@[simp] theorem execUplinkPortUp_cells (port : Nat) (s : State) :
    (stateAfter s (execUplinkPortUp port s)).mem.cells = s.mem.cells := by simp [execUplinkPortUp, whenever]

@[simp] theorem execFrameIngress_cells (source card : Nat) (bytes : List Byte) (fits : Bool) (s : State) :
    (stateAfter s (execFrameIngress source card bytes fits s)).mem.cells = s.mem.cells := by simp [execFrameIngress]

@[simp] theorem uplinkReceive_cells (p : Nat) (bs : List Byte) (fits : Bool) (s : State) :
    (uplinkReceive p bs fits s).mem.cells = s.mem.cells := by simp [uplinkReceive]

@[simp] theorem execUplinkFrameReceive_cells (port : Nat) (bytes : List Byte) (fits : Bool) (s : State) :
    (stateAfter s (execUplinkFrameReceive port bytes fits s)).mem.cells = s.mem.cells := by simp [execUplinkFrameReceive]

/-! ## Halter -/

@[simp] theorem invalidate_cells (b : Nat) (s : State) : (invalidate b s).mem.cells = s.mem.cells := by
  unfold invalidate
  (repeat' split) <;> simp

@[simp] theorem bankLost_cells (b : Nat) (s : State) : (bankLost b s).mem.cells = s.mem.cells := by simp [bankLost]

@[simp] theorem coreRestart_cells (s : State) : (coreRestart s).mem.cells = s.mem.cells := by simp [coreRestart]

@[simp] theorem powerDomains_cells (ds : List Nat) (ups : List Upset) (s : State) :
    (powerDomains ds ups s).mem.cells = s.mem.cells := by simp [powerDomains]

@[simp] theorem execDomainRestore_cells (domain : Nat) (failing : List Upset) (s : State) :
    (stateAfter s (execDomainRestore domain failing s)).mem.cells = s.mem.cells := by simp [execDomainRestore]

@[simp] theorem runDomainControl_cells (c : Ctx) (s : State) :
    ((runDomainControl c s).left s).mem.cells = s.mem.cells := by simp [runDomainControl]

@[simp] theorem runPatinaScan_cells (c : Ctx) (s : State) : ((runPatinaScan c s).left s).mem.cells = s.mem.cells := by
  simp [runPatinaScan]

@[simp] theorem runHalterEnter_cells (_c : Ctx) (s : State) :
    ((runHalterEnter _c s).left s).mem.cells = s.mem.cells := by simp [runHalterEnter]

@[simp] theorem runHalterExit_cells (_c : Ctx) (s : State) :
    ((runHalterExit _c s).left s).mem.cells = s.mem.cells := by simp [runHalterExit]

@[simp] theorem dropQueued_cells (s : State) : (dropQueued s).mem.cells = s.mem.cells := by simp [dropQueued]

@[simp] theorem execHalterS3Timeout_cells (s : State) :
    (stateAfter s (execHalterS3Timeout s)).mem.cells = s.mem.cells := by simp [execHalterS3Timeout]

@[simp] theorem flushAll_cells (s : State) : (flushAll s).mem.cells = s.mem.cells := by simp [flushAll]

@[simp] theorem gateGroup_cells (g : Nat) (s : State) : (gateGroup g s).mem.cells = s.mem.cells := by
  unfold gateGroup
  split
  · rfl
  · rw [lanesFollow_cells, forBelow_cells _ _ _ fun _ _ => by simp]
    simp

@[simp] theorem runPtpConfig_cells (c : Ctx) (s : State) : ((runPtpConfig c s).left s).mem.cells = s.mem.cells := by
  have h := ptpPort_cells c s
  unfold runPtpConfig
  split
  · split
    next t ws ht =>
      rw [ht] at h
      simpa using h
    next => exact h
  · simp

@[simp] theorem gateAll_cells (s : State) : (gateAll s).mem.cells = s.mem.cells := by simp [gateAll]

@[simp] theorem wakeLanes_cells (s : State) : (wakeLanes s).mem.cells = s.mem.cells := by simp [wakeLanes]

@[simp] theorem safeAfter_cells (s : State) : (safeAfter s).mem.cells = s.mem.cells := by simp [safeAfter]

@[simp] theorem rewind_cells (ap : Nat) (failing : List Upset) (s : State) :
    (rewind ap failing s).mem.cells = s.mem.cells := by
  unfold rewind
  dsimp only
  rw [safeAfter_cells, finishAll_cells _ _ _ (fun _ => rfl) (by simp), finishAll_cells _ _ _ (fun _ => rfl) (by simp)]
  simp

@[simp] theorem toStage_cells (st : HalterStage) (s : State) : (toStage st s).mem.cells = s.mem.cells := by simp [toStage]

@[simp] theorem inHalter_cells (s : State) : (inHalter s).mem.cells = s.mem.cells := by
  unfold inHalter
  dsimp only
  rw [stateChange_mem]
  rw [finishAll_cells _ _ _ (fun _ => rfl) (by simp)]
  simp

@[simp] theorem stageEnd_cells (failing : List Upset) (s : State) : (stageEnd failing s).mem.cells = s.mem.cells := by
  unfold stageEnd
  dsimp only
  (repeat' split) <;> simp

@[simp] theorem ageAll_cells (s : State) : (ageAll s).mem.cells = s.mem.cells := by simp [ageAll]

@[simp] theorem stitchRestart_cells (s : State) : (stitchRestart s).mem.cells = s.mem.cells := by simp [stitchRestart]

theorem wakeDone_cells (secs ns : Nat) (s : State) :
    (finishAll 0xA002 (fun s => .done s [lostBits s, wd secs, wd ns]) s).mem.cells = s.mem.cells :=
  finishAll_cells _ _ _ (fun _ => rfl) (by simp)

/-- The state in which a wake leaves Halter, from the state `p` with the domains powered again. -/
def awake (cause secs ns : Nat) (p : State) : State :=
  let h := { p.halter with
    stage := .outside, grantMode := false, cache := [], buffer := [], wake := none, refresh := false, wl1Stopped := false }
  let t := finishAll 0xA002 (fun s => .done s [lostBits s, wd secs, wd ns])
    (bump (cHalter 7) 0 cause (wakeLanes (lanesFollow { p with halter := h, boot := { p.boot with state := .ready } })))
  safeAfter (stateChange 0x0A02 [wd cause, lostBits t] t)

theorem awake_cells (cause secs ns : Nat) (p : State) : (awake cause secs ns p).mem.cells = p.mem.cells := by
  unfold awake
  dsimp only
  rw [safeAfter_cells, stateChange_mem, wakeDone_cells, bump_mem, wakeLanes_cells, lanesFollow_cells]

theorem halterWake_eq (failing : List Upset) (s : State) : halterWake failing s =
    awake (s.halter.wake.getD 0) (halterTime s / (1000000000 * nsUnit)) (halterTime s / nsUnit % 1000000000)
      (stitchRestart (ageAll (powerDomains s.halter.gated failing s))) := rfl

@[simp] theorem halterWake_cells (failing : List Upset) (s : State) :
    (halterWake failing s).mem.cells = s.mem.cells := by
  rw [halterWake_eq, awake_cells, stitchRestart_cells, ageAll_cells, powerDomains_cells]

@[simp] theorem keeperBusy_cells (dir len : Nat) (s : State) : (keeperBusy dir len s).mem.cells = s.mem.cells := by
  simp [keeperBusy]

@[simp] theorem keeperSend_cells (root : NodeId) (k : KeeperFrame) (o : Outcome15) (s : State) :
    (keeperSend root k o s).mem.cells = s.mem.cells := by
  unfold keeperSend
  (repeat' split) <;> simp

@[simp] theorem keeperServe_cells (fuel : Nat) (s : State) : (keeperServe fuel s).mem.cells = s.mem.cells := by
  induction fuel generalizing s with
  | zero => rfl
  | succ k ih =>
    unfold keeperServe
    (repeat' split) <;> simp [ih]

@[simp] theorem keeperRun_cells (s : State) : (keeperRun s).mem.cells = s.mem.cells := by simp [keeperRun]

@[simp] theorem keeperTake_cells (id : Nat) (x : Flight) (s : State) :
    (keeperTake id x s).mem.cells = s.mem.cells := by simp [keeperTake]

@[simp] theorem execKeeperFrame_cells (frame : Nat) (s : State) :
    (stateAfter s (execKeeperFrame frame s)).mem.cells = s.mem.cells := by
  unfold execKeeperFrame
  (repeat' split) <;> simp

@[simp] theorem execPrxPowerCycle_cells (port : Nat) (on : Bool) (s : State) :
    (stateAfter s (execPrxPowerCycle port on s)).mem.cells = s.mem.cells := by
  unfold execPrxPowerCycle
  (repeat' split) <;> simp

@[simp] theorem execTimeTick_cells (ticks : Nat) (s : State) :
    (stateAfter s (execTimeTick ticks s)).mem.cells = s.mem.cells := by simp [execTimeTick]

/-! ## References -/

@[simp] theorem sideLoses_cells (i : Nat) (s : State) : (sideLoses i s).mem.cells = s.mem.cells := by simp [sideLoses]

@[simp] theorem refLos_cells (r : Nat) (s : State) : (refLos r s).mem.cells = s.mem.cells := by
  unfold refLos
  dsimp only
  rw [trackSources_cells]
  (repeat' split) <;> simp

@[simp] theorem execRefLos_cells (ref : Nat) (s : State) :
    (stateAfter s (execRefLos ref s)).mem.cells = s.mem.cells := by simp [execRefLos]

@[simp] theorem sideFalls_cells (i : Nat) (s : State) : (sideFalls i s).mem.cells = s.mem.cells := by simp [sideFalls]

@[simp] theorem refRestore_cells (r : Nat) (s : State) : (refRestore r s).mem.cells = s.mem.cells := by simp [refRestore]

@[simp] theorem execRefRestore_cells (ref : Nat) (s : State) :
    (stateAfter s (execRefRestore ref s)).mem.cells = s.mem.cells := by simp [execRefRestore]

@[simp] theorem execSwitchTransitionEnd_cells (s : State) :
    (stateAfter s (execSwitchTransitionEnd s)).mem.cells = s.mem.cells := by simp [execSwitchTransitionEnd]

/-! ## Events -/

@[simp] theorem prepared_cells (silent : List (Nat × Nat × Nat)) (s : State) :
    ((prepared silent s).left s).mem.cells = s.mem.cells := by
  unfold prepared
  dsimp only
  (repeat' split) <;> simp

@[simp] theorem runEpochPrepare_cells (c : Ctx) (s : State) :
    ((runEpochPrepare c s).left s).mem.cells = s.mem.cells := by simp [runEpochPrepare]

@[simp] theorem executeUnknown_cells (p : Packet) (s : State) : (executeUnknown p s).mem.cells = s.mem.cells := by
  simp [executeUnknown]

@[simp] theorem dropWritten_cells (q : Nat) (s : State) : (dropWritten q s).mem.cells = s.mem.cells := by simp [dropWritten]

/-! ## Completions -/

@[simp] theorem measureConfig_cells (s : State) : (measureConfig s).mem.cells = s.mem.cells := by simp [measureConfig]

@[simp] theorem bootSelect_cells (s : State) : (bootSelect s).mem.cells = s.mem.cells := by simp [bootSelect]

end Sys2Proof.Machine
end

section
/-! PROOFS. The canonical form of the Hide memory (log entry 119): resets, answers and the handlers of commands keep it. -/

namespace Sys2Proof.Machine

/-- The canonical form of the Hide memory, the invariant that every step keeps. -/
def Canonical (s : State) : Prop := Memory.wf s.mem.cells = true

section Canonical
variable {s t : State}

theorem Canonical.of_cells (hs : Canonical s) (h : t.mem.cells = s.mem.cells) : Canonical t := by
  unfold Canonical
  rw [h]
  exact hs

theorem canonical_of_nil (h : t.mem.cells = []) : Canonical t := by
  unfold Canonical
  rw [h]
  rfl

theorem canonical_ite {c : Prop} [Decidable c] (hs : Canonical s) (ht : Canonical t) : Canonical (if c then s else t) := by
  split
  · exact hs
  · exact ht

theorem canonical_onObject {b : Bool} (hs : Canonical s) (ht : Canonical t) : Canonical (stateAfter s (onObject b t)) := by
  rw [stateAfter_onObject]
  exact canonical_ite ht hs

theorem canonical_whenever {c : Bool} {f : State → State} (hs : Canonical s) (hf : Canonical s → Canonical (f s)) :
    Canonical (whenever c f s) := by
  unfold whenever
  split
  · exact hf hs
  · exact hs

theorem canonical_forEach {α : Type} {f : α → State → State} (hf : ∀ a u, Canonical u → Canonical (f a u)) (l : List α)
    (hs : Canonical s) : Canonical (forEach l f s) := by
  induction l generalizing s with
  | nil => exact hs
  | cons a l ih => exact ih (hf a s hs)

/-! ## Resets -/

theorem keepStored_canonical (powerUp : Bool) (s : State) : Canonical (keepStored powerUp s) := canonical_of_nil rfl

theorem moduleReset_canonical (cause : Nat) (s : State) : Canonical (moduleReset cause s) := by
  unfold moduleReset
  exact (keepStored_canonical false s).of_cells (by rw [standingFaults_cells, pinsReset_cells])

theorem afterReply_canonical (a : AfterReply) (hs : Canonical s) : Canonical (afterReply a s) := by
  cases a with
  | firmwareRestart => exact hs
  | moduleReset cause => exact moduleReset_canonical cause s

/-! ## Answers and commands in progress -/

theorem answer_canonical (p : Packet) (hasBuf : Bool) (bufLen : Nat) (r : HRes) (hs : Canonical s) (hr : Canonical (r.left s)) :
    Canonical (answer p hasBuf bufLen r s) := by
  unfold answer
  cases r with
  | refuse => exact hs.of_cells (replyTo_lines ..).1
  | ended => exact hr.of_cells (replyTo_lines ..).1
  | done u ws =>
    refine canonical_ite (hr.of_cells (replyTo_lines ..).1) (canonical_ite (hs.of_cells (replyTo_lines ..).1) ?_)
    exact canonical_ite (hr.of_cells (replyTo_lines ..).1) (hr.of_cells ((replyTo_lines ..).1.trans (toBuffer_cells ..)))
  | doneBuf u ws bs =>
    refine canonical_ite (hs.of_cells (replyTo_lines ..).1) ?_
    exact canonical_ite (hr.of_cells (replyTo_lines ..).1) (hr.of_cells ((replyTo_lines ..).1.trans (toBuffer_cells ..)))
  | last u ws a force => exact afterReply_canonical a (hr.of_cells (replyTo_lines ..).1)
  | wait u d => exact hr

theorem finish_canonical (q : Nat) {r : State → HRes} (hr : ∀ u, Canonical u → Canonical ((r u).left u)) (hs : Canonical s) :
    Canonical (finish q r s) := by
  unfold finish
  split
  · exact hs
  next x _ =>
    have h1 : Canonical (updPair q (fun p => { p with executing := none }) s) := hs
    dsimp only
    have h2 := hr _ h1
    split
    next u d hu =>
      rw [hu] at h2
      exact h2
    next =>
      split
      · exact h2
      · exact answer_canonical _ _ _ _ h1 h2

theorem finishAll_canonical (op : Nat) {r : State → HRes} (hr : ∀ u, Canonical u → Canonical ((r u).left u)) (hs : Canonical s) :
    Canonical (finishAll op r s) :=
  canonical_forEach (fun _ _ hu => finish_canonical _ hr hu) _ hs

/-! ## Handlers -/

/-- What a command of this opcode leaves keeps the canonical form. -/
def OpSpec.KeepsForm (op : OpSpec) : Prop := ∀ c s, Canonical s → Canonical ((op.run c s).left s)

theorem keepsForm_of_cells {op : OpSpec} (h : ∀ c s, ((op.run c s).left s).mem.cells = s.mem.cells) : op.KeepsForm :=
  fun c s hs => hs.of_cells (h c s)

theorem performNow_canonical {op : OpSpec} (ho : op.KeepsForm) (p : Packet) (shadow : State → State × Bool) (hs : Canonical s) :
    Canonical ((performNow op p shadow s).left s) := by
  have h := ho (ctxOf op p s) s hs
  unfold performNow
  dsimp only
  generalize op.run (ctxOf op p s) s = r at h ⊢
  split
  · split
    · exact hs
    · cases r with
      | refuse => exact hs
      | _ => exact Canonical.of_cells h (kept_cells ..)
  · exact h

theorem perform_canonical {op : OpSpec} (ho : op.KeepsForm) (p : Packet) (shadow : State → State × Bool) (hs : Canonical s) :
    Canonical ((perform op p shadow s).left s) := by
  unfold perform
  split
  · exact hs
  · split
    · exact hs.of_cells (stageCommand_cells ..)
    · exact performNow_canonical ho p shadow hs

theorem execute_canonical {op : OpSpec} (ho : op.KeepsForm) (shadow : State → State × Bool) (p : Packet) (hs : Canonical s) :
    Canonical (execute op shadow p s) := by
  have h0 (u : State) (hu : u.mem.cells = s.mem.cells) : Canonical (takePacket p u) := hs.of_cells ((takePacket_cells ..).trans hu)
  unfold execute
  extract_lets s0 s1 c
  have hs0 : s0.mem.cells = s.mem.cells := by
    change (countEvent _ _ _ _ (if _ then _ else _)).mem.cells = _
    rw [countEvent_mem, ite_cells, countEvent_mem, ite_self]
  have hs1 : Canonical s1 := h0 s0 hs0
  split
  · exact hs1.of_cells (replyTo_lines ..).1
  · split
    · exact hs1.of_cells (replyTo_lines ..).1
    split
    · exact hs1.of_cells (setExecuting_cells ..)
    have hp := perform_canonical ho p shadow hs1
    split
    next u d hu =>
      rw [hu] at hp
      exact Canonical.of_cells hp (setExecuting_cells ..)
    next => exact answer_canonical _ _ _ _ hs1 hp

theorem serve_canonical {op : OpSpec} (ho : op.KeepsForm) (shadow : State → State × Bool) (p : Packet) (hs : Canonical s) :
    Canonical (serve op shadow p s) := by
  unfold serve
  extract_lets q s1
  have hs1 : Canonical s1 := by
    dsimp only [s1]
    split <;> exact hs
  split
  · split
    · exact hs1.of_cells ((fetchFault_cells ..).trans (appendWritten_cells ..))
    split
    · exact hs1.of_cells ((holdBack_cells ..).trans (appendWritten_cells ..))
    · exact execute_canonical ho shadow p hs1
  · exact hs1.of_cells (appendWritten_cells ..)

end Canonical
end Sys2Proof.Machine
end

section
/-! PROOFS. The canonical form of the Hide memory under what writes it: cells, lines, regions and the frames that enter HBM. -/

namespace Sys2Proof.Machine

section Canonical
variable {s t : State}

/-! ## Writes of cells and lines -/

theorem canonical_writeN (a : Nat) (bs : List Byte) (hs : Canonical s) (h : t.mem.cells = memWriteN s.mem.cells a bs) : Canonical t := by
  unfold Canonical
  rw [h]
  exact memWf_writeN _ hs a bs

theorem canonical_filter (p : Host.Cell → Bool) (hs : Canonical s) (h : t.mem.cells = s.mem.cells.filter p) : Canonical t := by
  unfold Canonical
  rw [h]
  exact memWf_filter _ hs p

theorem writeCell_canonical (h : Nat) (bs : List Byte) (hs : Canonical s) : Canonical (writeCell h bs s) := by
  unfold writeCell
  exact canonical_writeN (h * 128) ((bs ++ List.replicate 128 0).take 128) hs (by simp)

theorem cleanCell_canonical (h : Nat) (hs : Canonical s) : Canonical (cleanCell h s) := by
  unfold cleanCell
  extract_lets s1
  have h1 : Canonical s1 := writeCell_canonical h [] hs
  clear_value s1
  exact h1

theorem writeData_canonical (cells : List Nat) (bs : List Byte) (hs : Canonical s) : Canonical (writeData cells bs s) := by
  induction cells generalizing bs s with
  | nil => exact hs
  | cons h r ih => exact ih _ (writeCell_canonical h _ hs)

theorem writeLists_canonical (lists data : List Nat) (hs : Canonical s) : Canonical (writeLists lists data s) := by
  induction lists generalizing data s with
  | nil => exact hs
  | cons h r ih => exact ih _ (writeCell_canonical h _ hs)

theorem renew_canonical (x : Nat × Nat) (hs : Canonical s) : Canonical (renew x s) := by
  unfold renew
  extract_lets inside m s1
  have h1 : Canonical s1 := canonical_filter _ hs rfl
  clear_value s1
  split
  · exact h1
  · exact h1.of_cells ((keepCounters_lines ..).1.trans (raiseEntry_lines ..).1)

theorem reinit_canonical (r : Nat) (hs : Canonical s) : Canonical (reinit r s) := by
  unfold reinit
  extract_lets ts hit s1 gone
  have h1 : Canonical s1 := hs.of_cells (dropHeld_cells ..)
  have h2 : Canonical (forEach ts renew s1) := canonical_forEach (fun _ _ hu => renew_canonical _ hu) _ h1
  exact (canonical_forEach (fun _ _ hu => cleanCell_canonical _ hu) gone h2).of_cells (clearRegion_cells ..)

theorem runRegionReinit_keepsForm : opRegionReinit.KeepsForm := by
  intro c s hs
  change Canonical ((runRegionReinit c s).left s)
  unfold runRegionReinit
  rw [left_refuseIf, left_ite, left_done, left_done]
  exact canonical_ite hs (canonical_ite (reinit_canonical _ hs) hs)

theorem rightsAccess_canonical (master addr : Nat) (kind : MasterAccess) (data : List Byte) (hs : Canonical s) :
    Canonical (rightsAccess master addr kind data s) := by
  unfold rightsAccess
  extract_lets a right okay
  have hc := cellFound_cells a kind.check s
  split
  · exact hs
  split
  · exact hs.of_cells (sweepOn_cells s)
  split
  next s1 h =>
    rw [h] at hc
    exact hs.of_cells hc
  next s1 h =>
    rw [h] at hc
    have h1 : Canonical s1 := hs.of_cells hc
    split
    · exact h1.of_cells (lineEvents_lines ..).1
    dsimp only
    have hp : Canonical (if (data.take (a + 64 - addr)).length < 64 then countEvent 0x49 0x103 0x0100 1 (lineEvents (addr / 4096) 1 1 s1)
        else lineEvents (addr / 4096) 1 0 s1) :=
      canonical_ite (h1.of_cells (lineEvents_lines ..).1) (h1.of_cells (lineEvents_lines ..).1)
    exact canonical_writeN _ _ hp (lineWritten_lines ..).1

theorem lineAccess_canonical (engine addr : Nat) (write : Bool) (data : List Byte) (check : LineCheck) (hs : Canonical s) :
    Canonical (lineAccess engine addr write data check s) := by
  unfold lineAccess
  extract_lets a
  split
  · exact hs.of_cells (engineBusError_cells ..)
  split
  · exact hs
  · split
    · exact hs.of_cells (ringAccess_cells ..)
    · exact hs
  next level _ =>
    exact hs.of_cells (nodeFound_cells level _ check s)
  next =>
    have hc := cellFound_cells a check s
    split
    next s1 h =>
      rw [h] at hc
      exact hs.of_cells hc
    next s1 h =>
      rw [h] at hc
      extract_lets s2
      have h2 : Canonical s2 := hs.of_cells ((lineEvents_lines ..).1.trans hc)
      clear_value s2
      split
      · exact canonical_writeN _ _ h2 (lineWritten_lines ..).1
      · exact h2

/-! ## Frames in HBM -/

theorem placing_leaves {f : Frame} {prof : Profile} {room : Bool} {p : Nat} {data lists : List Nat}
    (h : placing f prof room s = .hbm p data lists t) : t.mem.cells = s.mem.cells := by
  unfold placing at h
  dsimp only at h
  split at h
  · cases h
  split at h
  · cases h
  split at h
  · cases h
  split at h
  · cases h
  split at h
  · cases h
  split at h
  · cases h
  next hs s1 ht =>
    cases h
    exact takeCells_cells _ _ _ _ ht

theorem admitFrame_canonical (q : NodeId) (f : Frame) (session : Option Nat) (room : Bool) (hs : Canonical s) :
    Canonical (admitFrame q f session room s) := by
  unfold admitFrame
  extract_lets x prof drop
  have hdrop (g : State → State) (hg : ∀ u, (g u).mem.cells = u.mem.cells) : Canonical (drop g) :=
    hs.of_cells ((mirrorDrop_cells ..).trans ((hg _).trans (loseHold_cells ..)))
  clear_value drop
  split
  · exact hdrop _ fun u => by simp
  split
  · exact hdrop _ fun u => by simp
  split
  · exact hdrop _ fun u => by simp
  split
  · exact hdrop _ fun u => by simp
  split
  · exact hs.of_cells (putQueue_cells ..)
  · exact hdrop _ fun u => by simp
  · exact hdrop _ fun u => by simp
  next p data lists s1 hp =>
    have h1 : Canonical s1 := hs.of_cells (placing_leaves hp)
    split
    · exact h1.of_cells (by simp)
    extract_lets s2 s4 s3
    have h2 : Canonical s2 := writeLists_canonical _ _ (writeData_canonical _ _ h1)
    clear_value s2
    exact h2.of_cells (by simp [s3, s4])

theorem sendCopy_canonical (dest : Word) (q : Option (Nat × Bool)) (session : Option Nat) (room : Bool) (f : Frame) (hs : Canonical s) :
    Canonical (sendCopy dest q session room f s) := by
  unfold sendCopy
  extract_lets i lost
  have hlost (g : State → State) (hg : ∀ u, (g u).mem.cells = u.mem.cells) : Canonical (lost g) :=
    hs.of_cells ((mirrorDrop_cells ..).trans ((hg _).trans (loseHold_cells ..)))
  clear_value lost
  split
  case h_1 =>
    split
    · exact hlost _ fun u => by simp
    · exact admitFrame_canonical _ _ _ _ hs
  case h_2 =>
    split
    · exact hlost _ fun u => by simp
    split
    · exact hlost _ fun u => by simp
    · exact hs.of_cells (toHost_cells ..)
  case h_5 => exact hs.of_cells (loseHold_cells ..)
  all_goals
    split
    · exact hlost _ fun u => by simp
    · split
      · exact hlost _ fun u => by simp
      · exact admitFrame_canonical _ _ _ _ hs

theorem sendCopies_canonical (f : Frame) (cs : List Copy8) (room : Bool) (hs : Canonical s) : Canonical (sendCopies f cs room s) := by
  unfold sendCopies
  extract_lets send
  have hsend (c : Copy8) (u : State) (hu : Canonical u) : Canonical (send c u) := sendCopy_canonical _ _ _ _ _ hu
  clear_value send
  split
  · exact hs.of_cells (loseHold_cells ..)
  next c rest =>
    split
    · exact hsend c s hs
    split
    next s1 h1 => exact canonical_forEach hsend _ (hs.of_cells (takeHolds_cells _ _ _ _ h1))
    next =>
      extract_lets first
      exact canonical_forEach (fun _ _ hu => hu.of_cells (by simp)) _ (hsend _ _ hs)

theorem enqueue_canonical (id : Nat) (room : Bool) (x : Flight) (hs : Canonical s) : Canonical (enqueue id room x s) := by
  unfold enqueue
  extract_lets f s1
  split
  · exact hs.of_cells (by simp)
  have h1 : Canonical s1 := hs.of_cells (by simp [s1])
  clear_value s1
  split
  · exact h1
  next cells s2 h =>
    have h2 : Canonical s2 := by
      refine h1.of_cells ?_
      split at h
      · exact takeCells_cells _ _ _ _ h
      · cases h
        rfl
    refine sendCopies_canonical _ _ _ ?_
    have hf (l : List Nat) (u : State) : (forEach l (fun k s => bumpW (cTm 12) 0 k f.world s) u).mem.cells = u.mem.cells :=
      forEach_cells _ _ _ fun _ _ => rfl
    exact h2.of_cells (by simp [hf])

end Canonical
end Sys2Proof.Machine
end

section
/-! PROOFS. The canonical form of the Hide memory under the opcodes of Table 2.7. -/

namespace Sys2Proof.Machine

/-! ## The opcodes keep the form -/

theorem group0_keepsForm : ∀ op ∈ group0Ops, op.KeepsForm := by
  unfold group0Ops
  simp only [List.forall_mem_cons, List.not_mem_nil, IsEmpty.forall_iff, implies_true, and_true]
  exact ⟨keepsForm_of_cells runNop_cells, keepsForm_of_cells runIdentify_cells,
    keepsForm_of_cells runStatusRead_cells, keepsForm_of_cells runEpochStage_cells,
    keepsForm_of_cells runEpochActivate_cells, keepsForm_of_cells runEpochAbort_cells,
    keepsForm_of_cells runQueueBind_cells, keepsForm_of_cells runImageWrite_cells,
    keepsForm_of_cells runImageStatus_cells, keepsForm_of_cells runSettingsStatus_cells,
    keepsForm_of_cells runModuleReset_cells, keepsForm_of_cells runInbandConfig_cells,
    keepsForm_of_cells runNotifyMask_cells, keepsForm_of_cells runHostqConfig_cells⟩

theorem group1_keepsForm : ∀ op ∈ group1Ops, op.KeepsForm := by
  unfold group1Ops
  simp only [List.forall_mem_cons, List.not_mem_nil, IsEmpty.forall_iff, implies_true, and_true]
  exact ⟨keepsForm_of_cells runPortConfig_cells, keepsForm_of_cells runPortState_cells,
    keepsForm_of_cells runTerminalAdd_cells, keepsForm_of_cells runTerminalRemove_cells,
    keepsForm_of_cells runPloamSend_cells, keepsForm_of_cells runBpmRead_cells,
    keepsForm_of_cells runOpticsAccess_cells, keepsForm_of_cells runOmciBind_cells,
    keepsForm_of_cells runDiscoveryConfig_cells, keepsForm_of_cells runRangingRead_cells,
    keepsForm_of_cells runTerminalRerange_cells⟩

theorem group2_keepsForm : ∀ op ∈ group2Ops, op.KeepsForm := by
  unfold group2Ops
  simp only [List.forall_mem_cons, List.not_mem_nil, IsEmpty.forall_iff, implies_true, and_true]
  exact ⟨keepsForm_of_cells runAllocWrite_cells, keepsForm_of_cells runAllocRead_cells,
    keepsForm_of_cells runAllocDelete_cells, keepsForm_of_cells runScheduleHint_cells,
    keepsForm_of_cells runCinchBudget_cells, keepsForm_of_cells runWeaverStats_cells,
    keepsForm_of_cells (runGateLoad_cells [2])⟩

theorem group3_keepsForm : ∀ op ∈ group3Ops, op.KeepsForm := by
  unfold group3Ops
  simp only [List.forall_mem_cons, List.not_mem_nil, IsEmpty.forall_iff, implies_true, and_true]
  exact ⟨keepsForm_of_cells runParseGraphLoad_cells, keepsForm_of_cells runRuleTreeLoad_cells,
    keepsForm_of_cells runRuleUpdate_cells, keepsForm_of_cells runRuleVersionCommit_cells,
    keepsForm_of_cells runRuleVersionStatus_cells, keepsForm_of_cells runExceptionConfig_cells⟩

theorem group4_keepsForm : ∀ op ∈ group4Ops, op.KeepsForm := by
  unfold group4Ops
  simp only [List.forall_mem_cons, List.not_mem_nil, IsEmpty.forall_iff, implies_true, and_true]
  exact ⟨keepsForm_of_cells runMacStaticAdd_cells, keepsForm_of_cells runMacDelete_cells,
    keepsForm_of_cells runMacLookup_cells, keepsForm_of_cells runMacFlush_cells,
    keepsForm_of_cells runAgeingConfig_cells, keepsForm_of_cells (runLpm_cells false),
    keepsForm_of_cells (runLpm_cells true), keepsForm_of_cells runLpmLoad_cells,
    keepsForm_of_cells runStitchConfig_cells⟩

theorem group5_keepsForm : ∀ op ∈ group5Ops, op.KeepsForm := by
  unfold group5Ops
  simp only [List.forall_mem_cons, List.not_mem_nil, IsEmpty.forall_iff, implies_true, and_true]
  exact ⟨keepsForm_of_cells runQueueConfig_cells, keepsForm_of_cells runSchedNodeConfig_cells,
    keepsForm_of_cells runShaperConfig_cells, keepsForm_of_cells (runGateLoad_cells [0, 1]),
    keepsForm_of_cells runQueueStats_cells, keepsForm_of_cells runSampleRingConfig_cells,
    keepsForm_of_cells runSampleRingRead_cells⟩

theorem group6_keepsForm : ∀ op ∈ group6Ops, op.KeepsForm := by
  unfold group6Ops
  simp only [List.forall_mem_cons, List.not_mem_nil, IsEmpty.forall_iff, implies_true, and_true]
  exact ⟨keepsForm_of_cells runScConfig_cells, keepsForm_of_cells runSaConfig_cells,
    keepsForm_of_cells runSaActivate_cells, keepsForm_of_cells runPonKeySwitch_cells,
    keepsForm_of_cells runKeyGenerate_cells, keepsForm_of_cells runKeyWrap_cells,
    keepsForm_of_cells runShedarUpdate_cells, keepsForm_of_cells runSlotErase_cells,
    keepsForm_of_cells runSlotInfo_cells, keepsForm_of_cells runAttestOperator_cells,
    keepsForm_of_cells runAttestTenant_cells, keepsForm_of_cells runEncReserve_cells,
    keepsForm_of_cells runUpdateEpochAdvance_cells, keepsForm_of_cells runAlarmStatus_cells⟩

theorem group7_keepsForm : ∀ op ∈ group7Ops, op.KeepsForm := by
  unfold group7Ops
  simp only [List.forall_mem_cons, List.not_mem_nil, IsEmpty.forall_iff, implies_true, and_true]
  exact ⟨keepsForm_of_cells runPoolConfig_cells, keepsForm_of_cells runPoolStats_cells,
    keepsForm_of_cells runHideKeyChange_cells, keepsForm_of_cells runHideStatus_cells,
    runRegionReinit_keepsForm, keepsForm_of_cells runRightsWrite_cells⟩

theorem group8_keepsForm : ∀ op ∈ group8Ops, op.KeepsForm := by
  unfold group8Ops
  simp only [List.forall_mem_cons, List.not_mem_nil, IsEmpty.forall_iff, implies_true, and_true]
  exact ⟨keepsForm_of_cells runUplinkConfig_cells, keepsForm_of_cells runLaneConfig_cells,
    keepsForm_of_cells runLaneStatus_cells, keepsForm_of_cells runPlaitConfig_cells,
    keepsForm_of_cells runProtectionCommand_cells, keepsForm_of_cells runLaneEyeScan_cells⟩

theorem group9_keepsForm : ∀ op ∈ group9Ops, op.KeepsForm := by
  unfold group9Ops
  simp only [List.forall_mem_cons, List.not_mem_nil, IsEmpty.forall_iff, implies_true, and_true]
  exact ⟨keepsForm_of_cells runTimeRead_cells, keepsForm_of_cells runTimeSet_cells,
    keepsForm_of_cells runPtpConfig_cells, keepsForm_of_cells runAsymmetrySet_cells,
    keepsForm_of_cells runSynceConfig_cells, keepsForm_of_cells runTsQueueRead_cells⟩

theorem groupA_keepsForm : ∀ op ∈ groupAOps, op.KeepsForm := by
  unfold groupAOps
  simp only [List.forall_mem_cons, List.not_mem_nil, IsEmpty.forall_iff, implies_true, and_true]
  exact ⟨keepsForm_of_cells runHalterEnter_cells, keepsForm_of_cells runHalterExit_cells,
    keepsForm_of_cells runDomainControl_cells, keepsForm_of_cells runFeedConfig_cells,
    keepsForm_of_cells runPowerStatus_cells⟩

theorem groupB_keepsForm : ∀ op ∈ groupBOps, op.KeepsForm := by
  unfold groupBOps
  simp only [List.forall_mem_cons, List.not_mem_nil, IsEmpty.forall_iff, implies_true, and_true]
  exact ⟨keepsForm_of_cells runFaultRead_cells, keepsForm_of_cells runFaultClear_cells,
    keepsForm_of_cells runRecorderRead_cells, keepsForm_of_cells runRecorderErase_cells,
    keepsForm_of_cells runCounterConfig_cells, keepsForm_of_cells runCounterRead_cells,
    keepsForm_of_cells runPatinaScan_cells, keepsForm_of_cells runPatinaStatus_cells,
    keepsForm_of_cells runVfCounterGrant_cells⟩

theorem baseOps_keepsForm : ∀ op ∈ baseOps, op.KeepsForm := by
  unfold baseOps
  simp only [List.forall_mem_append]
  exact ⟨⟨⟨⟨⟨⟨⟨⟨⟨⟨⟨group0_keepsForm, group1_keepsForm⟩, group2_keepsForm⟩, group3_keepsForm⟩, group4_keepsForm⟩, group5_keepsForm⟩,
    group6_keepsForm⟩, group7_keepsForm⟩, group8_keepsForm⟩, group9_keepsForm⟩, groupA_keepsForm⟩, groupB_keepsForm⟩

theorem opEpochPrepare_keepsForm : opEpochPrepare.KeepsForm := keepsForm_of_cells runEpochPrepare_cells

theorem baseSpec_keepsForm {code : Nat} {op : OpSpec} (h : baseSpec code = some op) : op.KeepsForm :=
  baseOps_keepsForm op (List.mem_of_find?_eq_some h)

theorem opVendor_keepsForm (n : Nat) : (opVendor n).KeepsForm := keepsForm_of_cells fun _ _ => rfl

theorem specOf_keepsForm {code : Nat} {op : OpSpec} (h : specOf code = some op) : op.KeepsForm := by
  unfold specOf at h
  split at h
  · obtain rfl := Option.some.inj h
    exact opVendor_keepsForm _
  · exact List.forall_mem_cons.2 ⟨opEpochPrepare_keepsForm, baseOps_keepsForm⟩ op (List.mem_of_find?_eq_some h)
end Sys2Proof.Machine
end

section
/-! PROOFS. The canonical form of the Hide memory under fetching, the epoch, commands in progress, power and Plait frames. -/

namespace Sys2Proof.Machine

section Canonical
variable {s t : State}

/-! ## Fetching -/

theorem pump_canonical (fuel q : Nat) (hs : Canonical s) : Canonical (pump fuel q s) := by
  induction fuel generalizing s with
  | zero => exact hs
  | succ n ih =>
    unfold pump
    extract_lets x
    split
    · exact hs
    split
    · exact hs
    next w _ _ =>
      have hd : Canonical (dropWritten q s) := hs.of_cells (dropWritten_cells ..)
      split
      · exact hs
      split
      · exact hs.of_cells (fetchFault_cells ..)
      split
      · exact ih (hd.of_cells (executeUnknown_cells ..))
      next op hop =>
        split
        · exact hs.of_cells (holdBack_cells ..)
        · exact ih (execute_canonical (specOf_keepsForm hop) _ _ hd)

theorem pumpHeld_canonical (hs : Canonical s) : Canonical (pumpHeld s) :=
  canonical_forEach (fun _ _ hu => pump_canonical _ _ hu) _ hs

theorem pumpAll_canonical (hs : Canonical s) : Canonical (pumpAll s) :=
  canonical_forEach (fun _ _ hu => pump_canonical _ _ hu) _ (pumpHeld_canonical hs)

theorem inbandArrive_canonical (set : InbandSet) (side op : Nat) (p : Packet) (hs : Canonical s) :
    Canonical (inbandArrive set side op p s) := by
  unfold inbandArrive
  extract_lets p1
  split
  · split
    next spec h => exact serve_canonical (specOf_keepsForm h) _ _ hs
    · exact canonical_ite (hs.of_cells (executeUnknown_cells ..)) (hs.of_cells (appendWritten_cells ..))
  · exact hs

theorem inbandFrame_canonical (env : Outside) (set : InbandSet) (side : Nat) (bs : List Byte) (hs : Canonical s) :
    Canonical (inbandFrame env set side bs s) := by
  unfold inbandFrame
  split
  · exact inbandArrive_canonical _ _ _ _ hs
  · exact hs

theorem command_canonical {op : OpSpec} (ho : op.KeepsForm) (p : Packet) (hs : Canonical s) :
    Canonical (stateAfter s (command op p s)) := by
  unfold command
  split
  · exact canonical_onObject hs (serve_canonical ho _ _ hs)
  · exact canonical_onObject hs (inbandArrive_canonical _ _ _ _ hs)

/-! ## The writes of BAR0 -/

theorem cqTailWrite_canonical (fn pair tail : Nat) (packets : List Written) (hs : Canonical s) :
    Canonical (cqTailWrite fn pair tail packets s) := by
  unfold cqTailWrite
  split
  · exact pumpAll_canonical hs
  · exact hs

theorem enableWrite_canonical (fn pair : Nat) (value : Word) (hs : Canonical s) : Canonical (enableWrite fn pair value s) := by
  unfold enableWrite
  split
  · exact pumpAll_canonical hs
  · exact hs

theorem rqHeadWrite_canonical (fn pair value : Nat) (hs : Canonical s) : Canonical (rqHeadWrite fn pair value s) := by
  unfold rqHeadWrite
  split
  · exact pumpAll_canonical (hs.of_cells (flushHeld_cells ..))
  · exact hs

theorem writePair_canonical (fn n off : Nat) (v : Word) (hs : Canonical s) : Canonical (writePair fn n off v s) := by
  unfold writePair
  split
  · exact hs
  split
  · exact cqTailWrite_canonical _ _ _ _ hs
  · exact rqHeadWrite_canonical _ _ _ hs
  · exact enableWrite_canonical _ _ _ hs
  · exact canonical_ite (hs.of_cells (writeBase_cells ..)) hs

theorem registerWrite_canonical (fn off : Nat) (v : Word) (hs : Canonical s) : Canonical (registerWrite fn off v s) := by
  unfold registerWrite
  refine canonical_ite (writePair_canonical _ _ _ _ hs) ?_
  refine canonical_ite (hs.of_cells (clearPending_cells ..)) (canonical_ite (hs.of_cells (clearPending_cells ..)) ?_)
  refine canonical_ite (hs.of_cells (writeMask_cells ..)) (canonical_ite (hs.of_cells (writeMask_cells ..)) ?_)
  exact canonical_ite (hs.of_cells (hrqHeadWrite_cells ..)) (canonical_ite (hs.of_cells (hiqTailWrite_cells ..)) hs)

/-! ## The epoch and the applied configuration -/

theorem stagedRun_canonical (accepting : Bool) (x : StagedCmd) (hs : Canonical s) : Canonical ((stagedRun accepting x s).left s) := by
  unfold stagedRun
  split
  next op h => exact baseSpec_keepsForm h _ s hs
  next => exact hs

theorem replay_canonical (accepting : Bool) (cs : List StagedCmd) (hs : Canonical s) : Canonical (replay accepting cs s).1 := by
  unfold replay
  generalize true = b
  induction cs generalizing s b with
  | nil => exact hs
  | cons x cs ih => exact ih (stagedRun_canonical accepting x hs) _

theorem activate_canonical (hs : Canonical s) : Canonical (activate s) := by
  unfold activate
  extract_lets e c r s1
  have h1 : Canonical s1 := hs
  clear_value s1
  exact (replay_canonical false e.cmds h1).of_cells (by rw [recordEv_mem])

theorem applyConfig_canonical (cs : List Written) (hs : Canonical s) : Canonical (applyConfig cs s) := by
  refine canonical_forEach (fun w u hu => ?_) cs hs
  split
  next op h => exact baseSpec_keepsForm h _ u hu
  next => exact hu

theorem configurationApplied_canonical (config : List Written) (hs : Canonical s) : Canonical (configurationApplied config s) := by
  unfold configurationApplied
  extract_lets s1 s2
  have h1 : Canonical s1 := hs.of_cells (by simp [s1])
  have h2 : Canonical s2 := canonical_ite ((applyConfig_canonical config h1).of_cells (foldTrees_cells _)) h1
  clear_value s2
  exact pumpAll_canonical (h2.of_cells (by simp))

/-! ## Commands in progress -/

theorem prepareTimeout_canonical (hs : Canonical s) : Canonical (prepareTimeout s) := by
  refine pumpAll_canonical (canonical_forEach (fun q u hu => ?_) _ hs)
  split
  · exact finish_canonical _ (fun v hv => hv.of_cells (prepared_cells ..)) hu
  · exact hu

theorem patinaScanDone_canonical (rails : List RailScan) (lanes : List LaneScan) (hs : Canonical s) :
    Canonical (patinaScanDone rails lanes s) := by
  refine pumpAll_canonical (canonical_forEach (fun q u hu => ?_) _ hs)
  split
  · exact finish_canonical _ (fun v hv => hv.of_cells (scanResult_cells ..)) hu
  · exact hu

theorem eyeScanDone_canonical (l : Nat) (results : List Word) (hs : Canonical s) : Canonical (eyeScanDone l results s) := by
  unfold eyeScanDone
  extract_lets s1 few r
  have hr (u : State) (hu : Canonical u) : Canonical ((r u).left u) := by
    dsimp only [r]
    split <;> exact hu
  exact pumpAll_canonical (canonical_forEach (fun _ _ hu => finish_canonical _ hr hu) _ hs)

theorem rerun_canonical (q : Nat) (hs : Canonical s) : Canonical (rerun q s) := by
  unfold rerun
  split
  · exact hs
  split
  · exact hs
  next h => exact finish_canonical _ (fun u hu => specOf_keepsForm h _ u hu) hs

theorem portDisabled_canonical (p : Nat) (hs : Canonical s) : Canonical (portDisabled p s) := by
  unfold portDisabled
  extract_lets root ports s1 s2
  have h1 : Canonical s1 := hs.of_cells (forEach_cells _ _ _ fun _ _ => by simp)
  have h2 : Canonical s2 := canonical_forEach (fun q u hu => finish_canonical q (r := fun s => .done s []) (fun _ hv => hv) hu) _ h1
  exact pumpAll_canonical (canonical_forEach (fun _ _ hu => rerun_canonical _ hu) _ h2)

theorem sweepComplete_canonical (hs : Canonical s) : Canonical (sweepComplete s) := by
  unfold sweepComplete
  exact pumpAll_canonical (finishAll_canonical _ (fun _ hu => hu) (hs.of_cells (sweepDone_cells s)))

theorem resumeSlot_canonical (w : SlotWait) (hs : Canonical s) : Canonical (resumeSlot w s) := by
  unfold resumeSlot
  split
  · exact rerun_canonical _ hs
  · split
    · exact hs
    · exact canonical_ite hs (hs.of_cells (ponKeyWritten_cells ..))
  · exact hs.of_cells (debugToken_cells ..)
  · exact hs.of_cells (serviceMessage_cells ..)

theorem releaseCopies_canonical (hs : Canonical s) : Canonical (releaseCopies s) := by
  unfold releaseCopies
  extract_lets s1 ws v s2
  have h1 : Canonical s1 := hs.of_cells (by simp [s1])
  clear_value s1
  have h2 : Canonical s2 := h1
  exact pumpAll_canonical (canonical_forEach (fun _ _ hu => resumeSlot_canonical _ hu) _ h2)

theorem halfDone_canonical (x : Exec) (hs : Canonical s) : Canonical (halfDone x s) := by
  have h1 : Canonical (takeFree s) := hs
  unfold halfDone
  dsimp only
  split
  next op h => exact canonical_ite (perform_canonical (specOf_keepsForm h) _ _ h1) h1
  next => exact h1

theorem unitTimeout_canonical (q : Nat) (x : Exec) (cplx unit inst : Nat) (hs : Canonical s) :
    Canonical (unitTimeout q x cplx unit inst s) := by
  unfold unitTimeout
  exact pumpAll_canonical ((finish_canonical q (r := fun s => .ended (halfDone x s) .unitTimeout [])
    (fun _ hu => halfDone_canonical x hu) hs).of_cells (raiseNow_cells ..))

theorem enterSafe_canonical (hs : Canonical s) : Canonical (enterSafe s) := by
  unfold enterSafe
  extract_lets old s1 b s2 s3
  have h1 : Canonical s1 := hs.of_cells (by rw [dropWaits_cells, forEach_cells _ _ _ fun _ _ => by simp])
  clear_value s1
  have h2 : Canonical s2 := h1
  clear_value s2
  exact pumpAll_canonical (h2.of_cells (by rw [recordEv_mem]; simp [s3]))

/-! ## Power -/

theorem powerDown_canonical (s : State) : Canonical (powerDown s) := by
  unfold powerDown
  extract_lets r
  have hr : Canonical r := keepStored_canonical true s
  clear_value r
  exact Canonical.of_cells hr (pinsUnpowered_cells _)

theorem feedLost_canonical (f volts : Nat) (hs : Canonical s) : Canonical (feedLost f volts s) := by
  unfold feedLost
  extract_lets s1 o
  have h1 : Canonical s1 := hs.of_cells (by simp [s1])
  clear_value s1
  have ho : Canonical (switchOver o s1) := h1.of_cells (switchOver_cells ..)
  split
  · exact h1
  · exact canonical_ite h1 (canonical_ite ho (powerDown_canonical s1))
  · exact canonical_ite (canonical_ite ho h1) h1
  · exact h1

theorem feedInvalid_canonical (f volts : Nat) (hs : Canonical s) : Canonical (feedInvalid f volts s) :=
  (feedLost_canonical f volts hs).of_cells (feedFaults_cells _)

theorem feedGained_canonical (f volts : Nat) (hs : Canonical s) : Canonical (feedGained f volts s) := by
  unfold feedGained
  extract_lets s3
  have h3 : Canonical s3 := hs.of_cells (by simp [s3])
  clear_value s3
  split
  · exact h3.of_cells (softStart_cells ..)
  · exact h3
  · exact h3.of_cells (chooseFeed_cells _)
  · refine canonical_ite (h3.of_cells ?_) ((powerDown_canonical s3).of_cells (softStart_cells ..))
    rw [completeScrap_cells, raise_mem]

theorem feedValid_canonical (f volts : Nat) (hs : Canonical s) : Canonical (feedValid f volts s) :=
  (feedGained_canonical f volts hs).of_cells (feedFaults_cells _)

theorem thermalShutdown_canonical (rail : Nat) (tj : Int) (s : State) : Canonical (thermalShutdown rail tj s) := by
  unfold thermalShutdown
  extract_lets p s1 s2 s3 s4
  have h4 : Canonical s4 := keepStored_canonical false s3
  clear_value s4
  exact Canonical.of_cells h4 (pinsUnpowered_cells _)

theorem startTimeout_canonical (s : State) : Canonical (startTimeout s) := moduleReset_canonical ..

theorem perstAssert_canonical (hs : Canonical s) : Canonical (perstAssert s) := by
  unfold perstAssert
  exact canonical_ite (moduleReset_canonical ..) hs

theorem hideInit_canonical (s : State) : Canonical (hideInit s) := canonical_of_nil rfl

/-! ## Plait frames -/

section
variable {inband : InbandSet → Nat → List Byte → State → State} (hin : ∀ set i bs u, Canonical u → Canonical (inband set i bs u))
include hin

theorem frameDone_canonical (set : InbandSet) (i kind src : Nat) (fits : Bool) (bs : List Byte) (hs : Canonical s) :
    Canonical (frameDone inband set i kind src fits bs s) := by
  unfold frameDone
  exact canonical_ite (hs.of_cells (ingress_cells ..)) (hin _ _ _ _ hs)

theorem cellInContext_canonical (set : InbandSet) (i h : Nat) (fits : Bool) (key : Nat) (bs : List Byte) (next : Option Nat)
    (payload : List Byte) (hs : Canonical s) : Canonical (cellInContext inband set i h fits key bs next payload s) := by
  unfold cellInContext
  extract_lets kind last poison len seq whole closed follows
  have hc : Canonical closed := hs.of_cells (by simp [closed])
  clear_value closed
  refine canonical_ite (hc.of_cells (by simp)) (canonical_ite (hc.of_cells (by simp)) (canonical_ite ?_ (hs.of_cells (by simp))))
  exact frameDone_canonical hin _ _ _ _ _ _ hc

theorem takeCell_canonical (i : Nat) (fits : Bool) (cell : List Byte) (hs : Canonical s) :
    Canonical (takeCell inband i fits cell s) := by
  have hb (c : Nat) : Canonical (bumpSide i c 1 s) := hs.of_cells (by simp)
  unfold takeCell
  extract_lets h kind src key payload
  refine canonical_ite (hb 0) (canonical_ite (hb 1) (canonical_ite hs (canonical_ite (hb 2) (canonical_ite (hb 3) (canonical_ite (hb 4) ?_)))))
  split
  · exact cellInContext_canonical hin _ _ _ _ _ _ _ _ (hs.of_cells (by simp))
  · exact cellInContext_canonical hin _ _ _ _ _ _ _ _ hs
  · exact hb 5
  · exact cellInContext_canonical hin _ _ _ _ _ _ _ _ hs

theorem takeFrame_canonical (i : Nat) (bytes : List Byte) (fits : Bool) (hs : Canonical s) :
    Canonical (takeFrame inband i bytes fits s) := by
  unfold takeFrame
  extract_lets d r
  have hr : Canonical r.2 := hs.of_cells (by simp [r])
  clear_value r
  refine Canonical.of_cells ?_ (updateSf_cells _)
  exact canonical_forEach (fun _ _ hu => takeCell_canonical hin _ _ _ hu) _ (hr.of_cells (by simp))

theorem enterSync_canonical (i : Nat) (bytes : List Byte) (fits : Bool) (hs : Canonical s) :
    Canonical (enterSync inband i bytes fits s) := takeFrame_canonical hin _ _ _ (hs.of_cells (by simp))

theorem alignStep_canonical (i : Nat) (bytes : List Byte) (fits : Bool) (hs : Canonical s) :
    Canonical (alignStep inband i bytes fits s) := by
  have hu (g : Side → Side) : Canonical (updSide i g s) := hs.of_cells (by simp)
  unfold alignStep
  extract_lets x v exact s1
  have h1 : Canonical s1 := hs.of_cells (by simp [s1])
  split
  · exact canonical_ite hs (canonical_ite (enterSync_canonical hin _ _ _ hs) (hu _))
  · exact canonical_ite (hs.of_cells (by simp)) (canonical_ite (enterSync_canonical hin _ _ _ hs) (hu _))
  · refine canonical_ite (takeFrame_canonical hin _ _ _ (hu _)) (canonical_ite (h1.of_cells (by simp)) ?_)
    exact takeFrame_canonical hin _ _ _ (h1.of_cells (by simp))

theorem receivePlait_canonical (i : Nat) (bytes : List Byte) (skewOk : Bool) (fill : Nat) (fits : Bool) (hs : Canonical s) :
    Canonical (receivePlait inband i bytes skewOk fill fits s) := by
  unfold receivePlait
  extract_lets s1
  have h1 : Canonical s1 := hs.of_cells (by simp [s1])
  clear_value s1
  refine canonical_ite hs (canonical_ite (hs.of_cells (by simp)) (canonical_ite ?_ (h1.of_cells (by simp))))
  exact alignStep_canonical hin _ _ _ h1
end

end Canonical
end Sys2Proof.Machine
end

section
/-! PROOFS. O55: every step keeps the canonical form of the Hide memory. -/

namespace Sys2Proof.Machine

section Canonical
variable {s t : State}

theorem canonical_pumped {c : Bool} {f : State → State} (hs : Canonical s) (hf : (f s).mem.cells = s.mem.cells) :
    Canonical (whenever c (fun u => pumpAll (f u)) s) := by
  unfold whenever
  exact canonical_ite (pumpAll_canonical (hs.of_cells hf)) hs

theorem exec_canonical (c : Instr) (hs : Canonical s) : Canonical (stateAfter s (exec c s)) := by
  cases c with
  | nop | identify | statusRead | epochStage | epochActivate | epochAbort | queueBind | imageWrite | imageStatus
  | settingsStatus | moduleReset | inbandConfig | notifyMask | hostqConfig =>
    exact command_canonical (group0_keepsForm _ (by simp [group0Ops])) _ hs
  | portConfig | portState | terminalAdd | terminalRemove | ploamSend | bpmRead | opticsAccess | omciBind | discoveryConfig
  | rangingRead | terminalRerange =>
    exact command_canonical (group1_keepsForm _ (by simp [group1Ops])) _ hs
  | allocWrite | allocRead | allocDelete | scheduleHint | cinchBudget | weaverStats | upstreamGateLoad =>
    exact command_canonical (group2_keepsForm _ (by simp [group2Ops])) _ hs
  | parseGraphLoad | ruleTreeLoad | ruleUpdate | ruleVersionCommit | ruleVersionStatus | exceptionConfig =>
    exact command_canonical (group3_keepsForm _ (by simp [group3Ops])) _ hs
  | macStaticAdd | macDelete | macLookup | macFlush | ageingConfig | lpmAdd | lpmDelete | lpmLoad | stitchConfig =>
    exact command_canonical (group4_keepsForm _ (by simp [group4Ops])) _ hs
  | queueConfig | schedNodeConfig | shaperConfig | gateListLoad | queueStats | sampleRingConfig | sampleRingRead =>
    exact command_canonical (group5_keepsForm _ (by simp [group5Ops])) _ hs
  | scConfig | saConfig | saActivate | ponKeySwitch | keyGenerate | keyWrap | shedarUpdate | slotErase | slotInfo
  | attestOperator | attestTenant | encReserve | updateEpochAdvance | alarmStatus =>
    exact command_canonical (group6_keepsForm _ (by simp [group6Ops])) _ hs
  | poolConfig | poolStats | hideKeyChange | hideStatus | regionReinit | rightsWrite =>
    exact command_canonical (group7_keepsForm _ (by simp [group7Ops])) _ hs
  | uplinkConfig | laneConfig | laneStatus | plaitConfig | protectionCommand | laneEyeScan =>
    exact command_canonical (group8_keepsForm _ (by simp [group8Ops])) _ hs
  | timeRead | timeSet | ptpConfig | asymmetrySet | synceConfig | tsQueueRead =>
    exact command_canonical (group9_keepsForm _ (by simp [group9Ops])) _ hs
  | halterEnter | halterExit | domainControl | feedConfig | powerStatus =>
    exact command_canonical (groupA_keepsForm _ (by simp [groupAOps])) _ hs
  | faultRead | faultClear | recorderRead | recorderErase | counterConfig | counterRead | patinaScan | patinaStatus
  | vfCounterGrant =>
    exact command_canonical (groupB_keepsForm _ (by simp [groupBOps])) _ hs
  | epochPrepare => exact command_canonical opEpochPrepare_keepsForm _ hs
  | cqTail => exact canonical_onObject hs (cqTailWrite_canonical _ _ _ _ hs)
  | rqHead => exact canonical_onObject hs (rqHeadWrite_canonical _ _ _ hs)
  | qpEnable => exact canonical_onObject hs (enableWrite_canonical _ _ _ hs)
  | registerWrite => exact canonical_onObject hs (registerWrite_canonical _ _ _ hs)
  | epochPrepareTimeout => exact prepareTimeout_canonical hs
  | epochActivationTick => exact canonical_whenever hs activate_canonical
  | firmwareRestartComplete => exact canonical_pumped hs (restartDone_cells s)
  | portDisableComplete => exact canonical_onObject hs (canonical_whenever hs (portDisabled_canonical _))
  | vendorDiagnostics n p =>
    simp only [exec, execVendorDiagnostics]
    split
    · exact command_canonical (opVendor_keepsForm n) p hs
    · exact hs
  | inbandPacket => exact canonical_onObject hs (pumpAll_canonical (inbandArrive_canonical _ _ _ _ hs))
  | feedValidated => exact canonical_onObject hs (canonical_whenever hs (feedValid_canonical _ _))
  | feedInvalid => exact canonical_onObject hs (canonical_whenever hs fun h => feedInvalid_canonical _ _ (h.of_cells (by simp)))
  | rideExpiry => exact canonical_whenever hs fun _ => powerDown_canonical s
  | feedOvercurrent => exact canonical_onObject hs (canonical_whenever hs fun h => feedInvalid_canonical _ _ (h.of_cells (by simp)))
  | oringFail => exact canonical_onObject hs (feedInvalid_canonical _ _ (hs.of_cells (by simp)))
  | perstLAssert => exact canonical_whenever hs perstAssert_canonical
  | firmwareStartTimeout => exact canonical_whenever hs fun _ => startTimeout_canonical s
  | configurationApplied => exact canonical_whenever hs (configurationApplied_canonical _)
  | thermalShutdown => exact canonical_onObject hs (canonical_whenever hs fun _ => thermalShutdown_canonical _ _ s)
  | enqueue =>
    simp only [exec, execEnqueue]
    split
    · exact canonical_whenever hs (enqueue_canonical _ _ _)
    · exact hs
  | retiringCopyRelease => exact releaseCopies_canonical hs
  | debugAccess => exact canonical_onObject hs (canonical_whenever hs (rightsAccess_canonical _ _ _ _))
  | hideLineAccess => exact canonical_onObject hs (canonical_whenever hs (lineAccess_canonical _ _ _ _ _))
  | hideInit => exact canonical_whenever hs fun _ => hideInit_canonical s
  | plaitFrameReceive side bytes skewOk fill fits env =>
    refine canonical_onObject hs (canonical_ite (pumpAll_canonical ?_) hs)
    exact receivePlait_canonical (fun _ _ _ _ hu => inbandFrame_canonical env _ _ _ hu) _ _ _ _ _ hs
  | eyeScanComplete => exact canonical_onObject hs (canonical_whenever hs (eyeScanDone_canonical _ _))
  | halterStageEnd => exact canonical_pumped hs (stageEnd_cells _ s)
  | halterWake => exact canonical_pumped hs (halterWake_cells _ s)
  | safeStateEntry => exact canonical_whenever hs enterSafe_canonical
  | unitTimeout =>
    refine canonical_onObject hs ?_
    split
    · split
      · exact unitTimeout_canonical _ _ _ _ _ hs
      · exact hs
    · exact hs
  | hideSweepComplete => exact canonical_whenever hs sweepComplete_canonical
  | patinaScanComplete => exact canonical_whenever hs (patinaScanDone_canonical _ _)
  | pending | hiqTail | hrqHead | epochDrained | epochDrainLate | ruleVersionRetired | rverDrainLate | gateListStart
  | feedVoltageCrossing | returnMsExpiry | feedFlapClear | softStartComplete | feedOvercurrentRelease | cardSeated
  | cardUnseated | romBoot | tempHigh | refLos | refRestore | timeTick | moduleFrameBoundary | samplingInstant
  | burstReceived | deactTimeout | terminalDelayChange | reassemblyTimeoutPon | serialNumberOnu | rangingBurst | acknowledge
  | rangingTimeTimeout | extAccept | forecastAck | keyReport | ponKeyWrite | keyRequest | keyRequestTimeout | ploamuMessage
  | upstreamOmciFrame | snWindowOpen | awlCycleBoundary | awlPauseEnd | awlDetection | ponTxPllUnlock | opticsRemoved
  | opticsInserted | opticsTxdisRelease | opticsPoll | opticsBusRecovery | mapCutoff | reportAbsorb | resolvePasses
  | cinchFill | cinchStale | capsLate | cappedRerun | placement | mapHandoff | frameIngress | macsecReceive | macsecVerdict
  | distributorSpray | parseWalk | classify | forwardLookup | learnRequest | ageingScan | compareAndDelete | stitchArrival
  | stitchTimeout | reinDecision | hostqRecordWrite | hostqModerationExpiry | injectionFetch | macsecTransmit | alarm
  | zeroisationRelease | debugToken | osierCacheRefill | osierCacheSpill | cellFree | counterCacheEvict | counterPatrol
  | reassemblyTimeout | plaitFrameTransmit | excWindow | pauseStuck | protectionHoldOff | wtrExpiry | switchTransitionEnd
  | widthChange | uplinkFaultChange | uplinkPortUp | uplinkFrameReceive | laneTrainingComplete | laneTrainingTimeout
  | laneIdleRequest | laneExitRequest | laneIdleStale | fastExitTimeout | laneEnableChange | laneLos | laneLol
  | laneFlapHoldEnd | txFault | peakingReevaluate | peakingStep | ptpFrameReceive | ptpFrameTransmit | servoMeasurement
  | servoMeasurementLapse | ppsInEdge | todInMessage | ppsInMissing | ppsOutEdge | synceSourceChange | esmcLapse
  | halterS3Timeout | domainRestore | keeperFrame | prxPowerCycle | faultReport | stickyPoll | faultHandling | unitRecovery
  | handlerFail | recordWrite | operatingSecond | operatingSecondsPersist | patinaPeriodicPlan | patinaPlanWrite
  | railOffsetStep | settingsRecordWrite | functionLevelReset | perstLDeassert | rawDetectorStateChange
  | abkouxServiceMessage =>
    exact hs.of_cells (by simp [exec])

/-- Settles O55: the canonical form is kept by every command of the block and by the model's idle step. -/
theorem memoryStaysCanonical : Obligations.MemoryStaysCanonical := by
  unfold Obligations.MemoryStaysCanonical
  intro s t hs h
  unfold step at h
  split at h
  · obtain rfl := Host.Outcome.next.inj h
    exact pumpAll_canonical hs
  next c rest _ =>
    have hc := exec_canonical (s := { s with pending := rest }) c hs
    rw [h] at hc
    exact hc

end Canonical
end Sys2Proof.Machine
end

section
/-! PROOFS. The recorder and the runtime settings (R68, R487 to R495). What RecorderAndSettingsWrite says rests on whether any
authorisation verifies, which the model leaves open: it holds where none does, and fails where every one does. -/

namespace Sys2Proof.Machine

/-- Words hold bytes as they are. -/
theorem bytesOfWords_wordsOfBytes (n : Nat) (bs : List Byte) (h : bs.length = 4 * n) : bytesOfWords (wordsOfBytes n bs) = bs := by
  induction n generalizing bs with
  | zero => exact (List.eq_nil_of_length_eq_zero h).symm
  | succ n ih =>
    match bs, h with
    | a :: b :: c :: d :: r, h =>
      have hw : leBytes 4 (wd (leNat [a, b, c, d])).toNat = [a, b, c, d] := by
        have h4 := a.isLt
        have h5 := b.isLt
        have h6 := c.isLt
        have h7 := d.isLt
        rw [toNat_wd]
        simp only [leBytes, leNat, List.cons.injEq, and_true, ← BitVec.toNat_inj, BitVec.toNat_ofNat]
        omega
      rw [wordsOfBytes, bytesOfWords_cons]
      change leBytes 4 (wd (leNat [a, b, c, d])).toNat ++ bytesOfWords (wordsOfBytes n r) = _
      rw [hw, ih r (by simp at h; omega)]
      rfl

theorem slice_middle {a b r : List Byte} {i n : Nat} (hi : a.length = i) (hn : b.length = n) : slice (a ++ b ++ r) i n = b := by
  subst hi hn
  simp [slice]

theorem kept_host (op : OpSpec) (s t : State) : (kept op s t).host = t.host := by
  unfold kept
  dsimp only
  (repeat' split) <;> simp [signAll, dropCache]

/-- A command that waits is in progress, which an answer as `r` says leaves out: no such answer is its end. -/
theorem not_answers_of_waits {row : Packet → Instr} {op : OpSpec} {ok : Ctx → State → Prop} {r : Ctx → State → HRes}
    (hrow : ∀ p s, exec (row p) s = command op p s) {p : Packet} {s t : State} {d : List Nat} (h : accepts op p s = true)
    (hok : ok (ctxOf op p (fetched op p s)) (fetched op p s))
    (hrun : op.run (ctxOf op p (fetched op p s)) (fetched op p s) = .wait t d)
    (hr : r (ctxOf op p (fetched op p s)) (fetched op p s) = .wait t d)
    (hidle : (pairAt (kept op (fetched op p s) t) (queueOf p)).executing = none) : ¬ Answers row op ok r := by
  intro ha
  have he := ha p s h hok
  rw [hrow, command_waits h hrun, hr] at he
  have hs := congrArg (fun u => (pairAt u (queueOf p)).executing) (Host.Outcome.next.inj he)
  simp [setExecuting, keptAnswer, HRes.success, HRes.mapState, answer, hidle] at hs

section Recorder
variable {s : State}

/-! ## Records, seconds and settings -/

theorem recordWrite_of_queue {r : Record} {rest : List Record} (hf : s.evr.full = false) (hp : s.power.stage ≠ .ride)
    (hq : s.evr.queue = r :: rest) (torn : Bool) : exec (.recordWrite torn) s = .next (afterSlot
      (if torn then bump cTornSlots 0 0 { s with evr := { s.evr with store := s.evr.store ++ [{ r with words := [], torn := true }] } }
       else { s with evr := { s.evr with store := s.evr.store ++ [r], queue := rest } })) := by
  refine congrArg Host.Outcome.next ((whenever_of (by simp [hf, hp]) _ s).trans ?_)
  unfold programRecord
  rw [hq]
  cases torn <;> rfl

theorem settingsWrite_of_verified {i : Nat} (hi : i < 9) (ht : testRoot s = false) (hp : s.power.stage ≠ .ride) :
    exec (.settingsRecordWrite i true) s = .next { s with boot := { s.boot with
      settings := mset s.boot.settings i (writeRec (mgetD s.boot.settings i {}) (settingContent s i)
        (s.vault.meas0 ++ s.vault.meas1)) } } := by
  refine (onObject_of (by simp [hi]) _).trans (congrArg Host.Outcome.next ?_)
  unfold storeSetting writeSetting
  rw [if_pos (by simp), if_neg hp, if_neg (by simp [ht])]
  rfl

theorem settingsWrite_of_unverified {i : Nat} (hi : i < 9) (hp : s.power.stage ≠ .ride) :
    exec (.settingsRecordWrite i false) s = .next (raise 0x0C 0 0 i 0x0C11 1 (wd i) (tornSetting i s)) := by
  refine (onObject_of (by simp [hi]) _).trans (congrArg Host.Outcome.next ?_)
  exact if_neg (by simp [hp])

theorem settingsWrite_of_ride {i : Nat} (hi : i < 9) (ok : Bool) (hp : s.power.stage = .ride) :
    exec (.settingsRecordWrite i ok) s = .next s := by
  refine (onObject_of (by simp [hi]) _).trans (congrArg Host.Outcome.next ?_)
  unfold storeSetting writeSetting
  rw [if_pos (by simp [hp]), if_pos hp]

/-! ## RECORDER_READ and RECORDER_ERASE -/

/-- The answer to an authorisation whose form, count and length are in order. -/
def eraseAnswer (c : Ctx) (f : State) : HRes :=
  let m := bytesOfWords c.words
  let kept := keptRecords f (beNat (slice m 0x18 4))
  let t := storeSetting 8 [wd (f.evr.eraseCount + 1), wd f.evr.nextSeq] c.pkt.env.norOk f
  if slice m 4 16 ≠ beBytes 16 Config.deviceId.toNat then .refuse .badDevice []
  else if Config.verify ((slotBytes f updateAuthority).take 97) (m.take 32) (slice m 32 96) = false then .refuse .badSignature []
  else if c.pkt.env.norOk = false then .ended t .aborted []
  else if c.pkt.env.cut.isSome then .wait (eraseCut (c.pkt.env.cut.getD 0) kept t) []
  else .done (recordEv 0x0009 0 0x0C 2 0 0x0100 [wd (f.evr.eraseCount + 1), wd (beNat (slice m 0x18 4)), wd kept.length]
    { t with evr := { t.evr with eraseCount := f.evr.eraseCount + 1, store := kept, full := false } }) []

/-- The authorisation is one that only its device, its signature, the record and the supply decide on. -/
def EraseInOrder (c : Ctx) (f : State) : Prop :=
  beNat (slice (bytesOfWords c.words) 0 4) = 0x545A4552 ∧ beNat (slice (bytesOfWords c.words) 0x1C 4) = 0 ∧
    c.words.length = 32 ∧ beNat (slice (bytesOfWords c.words) 0x14 4) = f.evr.eraseCount + 1 ∧
    (keptRecords f (beNat (slice (bytesOfWords c.words) 0x18 4))).length ≤ 1024

theorem storeSetting_of_ok (i : Nat) (ws : List Word) :
    (storeSetting i ws true s).evr = s.evr ∧ (storeSetting i ws true s).host = s.host := by
  unfold storeSetting writeSetting
  dsimp only
  rw [if_pos (by simp)]
  (repeat' split) <;> exact ⟨rfl, rfl⟩

theorem runRecorderErase_of_order {c : Ctx} (h : EraseInOrder c s) : runRecorderErase c s = eraseAnswer c s := by
  obtain ⟨hmagic, hzero, hlen, hcount, hkept⟩ := h
  have hform : eraseForm c.words = none := by simp [eraseForm, hmagic, hzero, hlen]
  unfold runRecorderErase eraseAnswer
  rw [hform]
  dsimp only
  unfold refuseIf
  by_cases hdev : slice (bytesOfWords c.words) 4 16 ≠ beBytes 16 Config.deviceId.toNat
  · rw [if_pos (by simpa using hdev), if_pos hdev]
  rw [if_neg (by simpa using hdev), if_neg hdev]
  cases hv : Config.verify ((slotBytes s updateAuthority).take 97) ((bytesOfWords c.words).take 32) (slice (bytesOfWords c.words) 32 96) with
  | false => rfl
  | true =>
    rw [if_neg (by simp), if_neg (by simp [hcount]), if_neg (by simpa using hkept), if_neg (show ¬(true = false) by simp)]
    cases hn : c.pkt.env.norOk with
    | false => rfl
    | true =>
      cases hc : c.pkt.env.cut with
      | some k => rfl
      | none =>
        rw [if_neg (by simp), if_neg (by simp)]
        simp [eraseCut, (storeSetting_of_ok (s := s) 8 _).1]

/-- Where no authorisation verifies, what RecorderAndSettingsWrite says holds. -/
theorem recorderAndSettingsWrite_of_none_verifies (h : ∀ key m sig, Config.verify key m sig = false) :
    Obligations.RecorderAndSettingsWrite := by
  unfold Obligations.RecorderAndSettingsWrite
  refine ⟨fun r rest s hf hp hq => ⟨fun h1 h2 => ?_, fun h1 => ?_, fun h1 => ?_, ?_⟩, fun s hv => ?_, fun s hp => ?_,
    fun i s hi ht hp => settingsWrite_of_verified hi ht hp, fun i s hi hp => settingsWrite_of_unverified hi hp,
    fun i ok s hi hp => settingsWrite_of_ride hi ok hp, ?_, ?_⟩
  · exact (recordWrite_of_queue hf hp hq false).trans (congrArg _ (afterSlot_plain _ h1 h2))
  · exact (recordWrite_of_queue hf hp hq false).trans (congrArg _ (afterSlot_notice _ h1))
  · exact (recordWrite_of_queue hf hp hq false).trans (congrArg _ (afterSlot_full _ h1))
  · exact recordWrite_of_queue hf hp hq true
  · exact congrArg _ (whenever_of hv _ s)
  · exact congrArg _ (whenever_of (by simpa using hp) _ s)
  · refine endsData (fun _ _ => rfl) (by decide) fun c f _ hok => ?_
    obtain ⟨hb, h1, h2, hl⟩ := hok
    show runRecorderRead c f = _
    unfold runRecorderRead
    dsimp only
    rw [refuseIf_of_false (by simp [hb]), refuseIf_of_false (by simp; omega), refuseIf_of_false (by simp; omega)]
  · refine answers (r := eraseAnswer) (fun _ _ => rfl) (by decide) (fun c f _ hok => runRecorderErase_of_order hok) fun c f t d _ => ?_
    unfold eraseAnswer
    dsimp only
    rw [h, if_pos rfl]
    split <;> simp

/-- The bytes of an authorisation for this device that erases the store up to record 0. -/
def eraseMessage : List Byte :=
  [0x54, 0x5A, 0x45, 0x52] ++ beBytes 16 Config.deviceId.toNat ++ ([0, 0, 0, 1] ++ List.replicate 104 0)

/-- RECORDER_ERASE with that authorisation, during which power is lost after the first step. -/
def erasePacket : Packet := { Sys2Proof.Tests.pk (wordsOfBytes 32 eraseMessage) with env := { cut := some 1 } }

theorem erasePacket_accepted : accepts opRecorderErase erasePacket Sys2Proof.Tests.up = true := by decide +kernel

theorem bytes_erasePacket (f : State) : bytesOfWords (ctxOf opRecorderErase erasePacket f).words = eraseMessage :=
  bytesOfWords_wordsOfBytes 32 eraseMessage (by simp [eraseMessage])

/-- Where every authorisation verifies, RecorderAndSettingsWrite fails: its RECORDER_ERASE that loses power leaves out that the
command is in progress. -/
theorem not_recorderAndSettingsWrite_of_all_verify (h : ∀ key m sig, Config.verify key m sig = true) :
    ¬ Obligations.RecorderAndSettingsWrite := by
  intro ho
  obtain ⟨-, -, -, -, -, -, -, he⟩ := ho
  let f := fetched opRecorderErase erasePacket Sys2Proof.Tests.up
  let c := ctxOf opRecorderErase erasePacket f
  have hm : bytesOfWords c.words = eraseMessage := bytes_erasePacket f
  have hdev : slice eraseMessage 4 16 = beBytes 16 Config.deviceId.toNat := by
    unfold eraseMessage
    exact slice_middle rfl (length_beBytes 16 _)
  have hok : EraseInOrder c f := by
    unfold EraseInOrder
    rw [hm]
    refine ⟨?_, ?_, ?_, ?_, ?_⟩
    all_goals decide +kernel
  have hr : eraseAnswer c f = .wait (eraseCut 1 (keptRecords f (beNat (slice eraseMessage 0x18 4)))
      (storeSetting 8 [wd (f.evr.eraseCount + 1), wd f.evr.nextSeq] true f)) [] := by
    unfold eraseAnswer
    dsimp only
    rw [hm, hdev, h, if_neg (fun hne => hne rfl), if_neg (by simp)]
    rfl
  refine not_answers_of_waits (r := eraseAnswer) (fun _ _ => rfl) erasePacket_accepted hok ((runRecorderErase_of_order hok).trans hr) hr ?_ he
  decide +kernel

end Recorder
end Sys2Proof.Machine
end

section
/-! PROOFS. Shedar messages, epoch advances, statements and ALARM_STATUS (R321 to R331, R343, R344, R349). What
MessagesAndStatementsAnswer says rests on whether any signature verifies, which the model leaves open: it holds where none does, and
fails where all do. -/

namespace Sys2Proof.Machine

variable {c : Ctx} {f s : State}

/-! ## Epoch rows -/

theorem updateEpoch_append (rows : List EpochRow) (r : EpochRow) (hr : s.vault.epochRows = rows ++ [r]) :
    updateEpoch s = if r.ok then rows.length
      else ((List.range rows.length).filter fun i => ((rows[i]?).map EpochRow.ok).getD false).getLastD 0 := by
  have hold : ((List.range rows.length).filter fun i => (((rows ++ [r])[i]?).map EpochRow.ok).getD false) =
      (List.range rows.length).filter fun i => ((rows[i]?).map EpochRow.ok).getD false :=
    List.filter_congr fun i hi => by rw [List.getElem?_append_left (List.mem_range.mp hi)]
  unfold updateEpoch
  rw [hr, List.length_append, List.length_singleton, List.range_succ, List.filter_append, hold]
  cases h : r.ok <;> simp [h]

/-- What an advance leaves, by the step after which it ends. -/
theorem advanceEpoch_begun (p : List Byte) {k : Nat} (hk : k ≤ 1) :
    (advanceEpoch p k s).vault = { s.vault with pendingKey := some p } := by
  unfold advanceEpoch
  dsimp only
  rw [if_pos hk]

theorem advanceEpoch_unburned (p : List Byte) {k : Nat} (hk : 2 ≤ k) (hb : Config.rowBurns s.vault.epochRows.length = false) :
    (advanceEpoch p k s).vault = { s.vault with
      pendingKey := some p, epochRows := s.vault.epochRows ++ [⟨false, Config.sha384 p⟩] } := by
  unfold advanceEpoch
  dsimp only
  rw [if_neg (Nat.not_le.mpr hk), if_pos (by simp [hb])]
  simp [burnEpoch, hb]

/-- The state in which an advance burns its row, and the one in which it has taken the key. -/
def rowBurned (p : List Byte) (s : State) : State :=
  burnEpoch p { storeSetting 2 (wordsOfBytes 25 p) true s with vault := { s.vault with pendingKey := some p } }

theorem advanceEpoch_rowBurned (p : List Byte) : advanceEpoch p 2 s = rowBurned p s := by
  unfold advanceEpoch rowBurned
  dsimp only
  rw [if_neg (by simp), if_pos (by simp)]

theorem advanceEpoch_taken (p : List Byte) (hb : Config.rowBurns s.vault.epochRows.length = true) :
    advanceEpoch p 3 s = takeAuthority p true (rowBurned p s) := by
  unfold advanceEpoch rowBurned
  dsimp only
  rw [if_neg (by simp), if_neg (by simp [hb])]
  exact if_pos rfl

theorem advanceEpoch_ended (p : List Byte) {k : Nat} (hk : 4 ≤ k) (hb : Config.rowBurns s.vault.epochRows.length = true) :
    advanceEpoch p k s =
      let t := takeAuthority p true (rowBurned p s)
      setCounter (updateEpoch t) 0 true { t with vault := { t.vault with pendingKey := none } } := by
  unfold advanceEpoch rowBurned
  dsimp only
  rw [if_neg (by omega), if_neg (by simp [hb]; omega)]
  exact if_neg (by omega)

theorem setCounter_keeps (e n : Nat) (u : State) : (setCounter e n true u).vault.epochRows = u.vault.epochRows ∧
    slotAt (setCounter e n true u) updateAuthority = slotAt u updateAuthority ∧
    (setCounter e n true u).vault.pendingKey = u.vault.pendingKey := by
  have hv := (setCounter_vault (s := u) e n).2
  unfold slotAt
  rw [hv]
  split <;> exact ⟨rfl, rfl, rfl⟩

theorem advanceEpoch_rows (p : List Byte) {k : Nat} (hk : 2 ≤ k) : (advanceEpoch p k s).vault.epochRows =
    s.vault.epochRows ++ [⟨Config.rowBurns s.vault.epochRows.length, Config.sha384 p⟩] := by
  have hrow : (rowBurned p s).vault.epochRows =
      s.vault.epochRows ++ [⟨Config.rowBurns s.vault.epochRows.length, Config.sha384 p⟩] := rfl
  cases hb : Config.rowBurns s.vault.epochRows.length with
  | false => rw [advanceEpoch_unburned p hk hb]
  | true =>
    rw [hb] at hrow
    obtain rfl | rfl | h4 : k = 2 ∨ k = 3 ∨ 4 ≤ k := by omega
    · rw [advanceEpoch_rowBurned, hrow]
    · rw [advanceEpoch_taken p hb]
      exact hrow
    · rw [advanceEpoch_ended p h4 hb]
      exact (setCounter_keeps ..).1.trans hrow

theorem advanceEpoch_authority (p : List Byte) {k : Nat} (hk : 3 ≤ k) (hb : Config.rowBurns s.vault.epochRows.length = true) :
    slotAt (advanceEpoch p k s) updateAuthority = slotAt (takeAuthority p true (rowBurned p s)) updateAuthority := by
  obtain rfl | h4 : k = 3 ∨ 4 ≤ k := by omega
  · rw [advanceEpoch_taken p hb]
  · rw [advanceEpoch_ended p h4 hb]
    exact (setCounter_keeps ..).2.1

theorem updateEpoch_advanceEpoch (p : List Byte) {k : Nat} (hk : 2 ≤ k) : updateEpoch (advanceEpoch p k s) =
    if Config.rowBurns s.vault.epochRows.length then s.vault.epochRows.length else updateEpoch s :=
  updateEpoch_append _ _ (advanceEpoch_rows p hk)

/-! ## Life-cycle rows (R322) -/

theorem foldl_last_lt (P : Nat → Bool) (n : Nat) :
    ((List.range n).filter P).foldl (fun _ k => k + 1) 0 ≤ n ∧
      ∀ j < n, P j = true → j < ((List.range n).filter P).foldl (fun _ k => k + 1) 0 := by
  induction n with
  | zero => exact ⟨Nat.le_refl 0, fun j hj => absurd hj (Nat.not_lt_zero j)⟩
  | succ n ih =>
    rw [List.range_succ, List.filter_append, List.foldl_append]
    cases hn : P n with
    | true =>
      simp only [List.filter_cons, hn, if_true, List.filter_nil, List.foldl_cons, List.foldl_nil]
      exact ⟨Nat.le_refl _, fun j hj _ => hj⟩
    | false =>
      simp only [List.filter_cons, hn, Bool.false_eq_true, if_false, List.filter_nil, List.foldl_nil]
      refine ⟨Nat.le_succ_of_le ih.1, fun j hj hp => ih.2 j ?_ hp⟩
      refine Nat.lt_of_le_of_ne (Nat.le_of_lt_succ hj) fun e => ?_
      rw [e, hn] at hp
      exact Bool.false_ne_true hp

/-- The rows from the next one on are empty. -/
theorem lifeRow_of_nextLifeRow_le {j : Nat} (hj : nextLifeRow s ≤ j) (h31 : j < 31) : mget s.vault.lifeRows j = none := by
  by_contra h
  refine absurd ((foldl_last_lt (fun k => mhas s.vault.lifeRows k) 31).2 j h31 ?_) (Nat.not_lt.mpr hj)
  exact Option.isSome_iff_ne_none.mpr h

/-- The life-cycle state of the rows below `n`. -/
def lifeBelow (rows : Map Nat LifeRow) (n : Nat) : Life :=
  (List.range n).foldl (fun l k => (mget rows k).elim l fun r => if r.ok then r.code else l) .blank

theorem lifeOf_eq_lifeBelow (rows : Map Nat LifeRow) : lifeOf rows = lifeBelow rows 32 := by
  unfold lifeOf lifeBelow
  congr 1
  funext l k
  cases mget rows k <;> rfl

theorem lifeBelow_succ (rows : Map Nat LifeRow) (n : Nat) : lifeBelow rows (n + 1) =
    (mget rows n).elim (lifeBelow rows n) fun r => if r.ok then r.code else lifeBelow rows n := by
  unfold lifeBelow
  rw [List.range_succ, List.foldl_append]
  rfl

theorem lifeBelow_mset {rows : Map Nat LifeRow} {k : Nat} (r : LifeRow) {n : Nat} (hn : n ≤ 32)
    (hempty : ∀ j, k ≤ j → j < 32 → mget rows j = none) :
    lifeBelow (mset rows k r) n = if k < n ∧ r.ok then r.code else lifeBelow rows n := by
  induction n with
  | zero => rfl
  | succ n ih =>
    rw [lifeBelow_succ, lifeBelow_succ, ih (by omega)]
    obtain hlt | rfl | hgt := Nat.lt_trichotomy k n
    · rw [mget_mset_other _ _ _ _ (Nat.ne_of_lt hlt), hempty n (by omega) (by omega)]
      simp [hlt, Nat.lt_succ_of_lt hlt]
    · rw [mget_mset_self, hempty k (Nat.le_refl k) (by omega)]
      simp
    · rw [mget_mset_other _ _ _ _ (Nat.ne_of_gt hgt)]
      simp [Nat.not_lt.mpr (Nat.le_of_lt hgt), Nat.not_lt.mpr (Nat.succ_le_of_lt hgt)]

theorem life_burnLife {l : Life} (h31 : mget s.vault.lifeRows 31 = none) (hk : nextLifeRow s < 31) :
    (burnLife l s).vault.life = if Config.lifeRowBurns (nextLifeRow s) then l else s.vault.life := by
  unfold VaultSt.life
  rw [lifeOf_eq_lifeBelow, lifeOf_eq_lifeBelow]
  refine (lifeBelow_mset ⟨l, Config.lifeRowBurns (nextLifeRow s)⟩ (Nat.le_refl 32) fun j h1 h2 => ?_).trans ?_
  · obtain h | rfl : j < 31 ∨ j = 31 := by omega
    · exact lifeRow_of_nextLifeRow_le h1 h
    · exact h31
  · simp only [show nextLifeRow s < 32 by omega, true_and]

/-! ## The operations of a message (Table 10.6a) -/

section Apply
variable {n a : Nat} {body : List Byte}

/-- A slot that Shedar operations may name: outside PON, the worlds' slots and those of world 0x0200. -/
def ShedarSlot (n : Nat) (s : State) : Prop :=
  inRange n = true ∧ isPonSlot n = false ∧ isWorldS n = false ∧ (slotAt s n).attr.world ≠ 0x0200

theorem shedarApply_install (h : ShedarSlot n s) (hc : isControl n = false) (hh : isHideSlot n = false) (hb : body.length = 32)
    (hv : (slotAt s n).valid = false) (ht : (attrOf a).ktype < 2) (hw : worldCode (attrOf a).world = true) (ha : a % 2 ^ 24 = 0)
    (hfit : bodyFits n (attrOf a).ktype body = true) (hp : persistFull s n (attrOf a).persist = false) :
    shedarApply 1 n a body s = slotWritten n (attrOf a) (writeKey n (attrOf a) 4 body) s := by
  obtain ⟨hr, hpon, hworld, h200⟩ := h
  have h3 : (attrOf a).ktype ≠ 3 := by omega
  have h2 : (attrOf a).ktype ≠ 2 := by omega
  have ha : a % 16777216 = 0 := ha
  simp [shedarApply, payloadLen, shedarFields, hr, hpon, hworld, h200, hc, hh, hb, hv, hw, ha, hfit, hp, h2, h3]

theorem shedarApply_replace (h : ShedarSlot n s) (hh : isHideSlot n = false) (hb : body.length = (if isControl n then 128 else 32))
    (hv : (slotAt s n).valid = true) (hfit : bodyFits n (slotAt s n).attr.ktype body = true) :
    shedarApply 2 n a body s = slotWritten n (slotAt s n).attr (writeKey n (slotAt s n).attr 4 body) s := by
  obtain ⟨hr, hpon, hworld, h200⟩ := h
  simp [shedarApply, payloadLen, shedarFields, hr, hpon, hworld, h200, hh, hb, hv, hfit]

theorem shedarApply_erase (h : ShedarSlot n s) (hv : (slotAt s n).valid = true) :
    shedarApply 3 n 0 [] s = (.ok, [], eraseSlot n true (slotOp n s)) := by
  obtain ⟨hr, hpon, hworld, h200⟩ := h
  simp [shedarApply, payloadLen, shedarFields, hr, hpon, hworld, h200, hv]

theorem shedarApply_narrow (h : ShedarSlot n s) (hv : (slotAt s n).valid = true) (hn : narrows (attrOf a) (slotAt s n).attr = true)
    (ha : a % 2 ^ 24 = 0) : shedarApply 4 n a [] s = slotWritten n (attrOf a)
      (keepSlot n { slotAt s n with attr := { attrOf a with origin := (slotAt s n).attr.origin } }) s := by
  obtain ⟨hr, hpon, hworld, h200⟩ := h
  have ha : a % 16777216 = 0 := ha
  simp [shedarApply, payloadLen, shedarFields, hr, hpon, hworld, h200, hv, hn, ha]

theorem shedarApply_key (hn : n < 32768) (hb : body.length = 16) : shedarApply 5 n 0 body s = (.ok, [],
    { s with vault := { s.vault with msk := mset s.vault.msk n body } }) := by
  simp [shedarApply, payloadLen, shedarFields, hn, hb]

theorem shedarApply_deploy (hl : s.vault.life = .provisioned) (h31 : mget s.vault.lifeRows 31 = none) (hk : nextLifeRow s < 31) :
    shedarApply 6 0 0 [0, 0, 0, 2] s =
      (if Config.lifeRowBurns (nextLifeRow s) then .ok else .unitFailed, [], burnLife .deployed s) := by
  have ht : lifeTarget s.vault.life (beNat [0, 0, 0, 2]) = some .deployed := by
    rw [hl]
    decide
  have hlife := life_burnLife (l := .deployed) h31 hk
  have hc : changeLife .deployed s = burnLife .deployed s := by
    unfold changeLife
    dsimp only
    split <;> rfl
  unfold shedarApply
  dsimp only
  rw [if_neg (by simp [payloadLen, shedarFields]), if_neg (by simp), if_pos rfl, ht]
  dsimp only
  rw [if_neg (Nat.not_le.mpr hk), hc, hlife, hl]
  cases Config.lifeRowBurns (nextLifeRow s) <;> simp

end Apply

/-! ## SHEDAR_UPDATE -/

/-- The answer to a message whose head is refused. -/
def headAnswer (f : State) (st : Status) (ws : List Word) : HRes :=
  if st = .badSignature then .ended (alarm 8 f) .badSignature ws else .refuse st ws

/-- The answer to a message with a fresh counter. -/
def messageAnswer (c : Ctx) (f : State) : HRes :=
  let m := bytesOfWords c.words
  match shedarHead m false f with
  | some (st, ws) => headAnswer f st ws
  | none =>
    let g := setCounter (updateEpoch f) (shCounter m) c.pkt.env.norOk f
    if c.pkt.env.norOk then
      match shedarOpen (testRoot g) m with
      | none => .ended (alarm 8 g) .badSignature []
      | some payload =>
        let r := shedarApply (shOp m) (shSlot m) (shAttr m) payload g
        if r.1 = .ok then
          if lifeResets f.vault.life r.2.2.vault.life then
            .last r.2.2 [lo32 (shCounter m), hi32 (shCounter m)] (.moduleReset 3) false
          else .done r.2.2 [lo32 (shCounter m), hi32 (shCounter m)]
        else .ended r.2.2 r.1 r.2.1
    else .ended g .aborted []

/-- The answer to EPOCH_ADVANCE as a message, which is not permitted. -/
def epochMessageAnswer (c : Ctx) (f : State) : HRes :=
  let m := bytesOfWords c.words
  match shedarHead m false f with
  | some (st, ws) => headAnswer f st ws
  | none =>
    if shCounter m ≠ 0 then .refuse .badCounter [lo32 (storedCounter f), hi32 (storedCounter f)]
    else match shedarOpen (testRoot f) m with
      | none => .ended (alarm 8 f) .badSignature []
      | some p => if p.length ≠ 97 ∨ shSlot m ≠ 0 ∨ shAttr m ≠ 0 then .ended f .badParam [0] else .ended f .notPermitted []

/-- The answer to UPDATE_EPOCH_ADVANCE in order. -/
def advanceAnswer (c : Ctx) (f : State) : HRes :=
  let m := bytesOfWords c.words
  let row := f.vault.epochRows.length
  match shedarHead m false f with
  | some (st, ws) => headAnswer f st ws
  | none => match shedarOpen (testRoot f) m with
    | none => .ended (alarm 8 f) .badSignature []
    | some p =>
      if p.length ≠ 97 ∨ shSlot m ≠ 0 ∨ shAttr m ≠ 0 then .ended f .badParam [0]
      else match c.pkt.env.cut with
        | some k => .wait (advanceEpoch p k f) []
        | none =>
          if Config.rowBurns row then
            .done (recordEv 0x0008 7 0x08 0 0 0x0100 [wd row] (advanceEpoch p 4 f)) [wd row]
          else .ended (advanceEpoch p 4 f) .unitFailed []

theorem shedarChecked_of_head {st : Status} {ws : List Word} (hw : shedarWaits (bytesOfWords c.words) s = false)
    (hh : shedarHead (bytesOfWords c.words) false s = some (st, ws)) : shedarChecked c s = .error (headAnswer s st ws) := by
  unfold shedarChecked headAnswer
  dsimp only
  rw [if_neg (by simp [hw]), hh]
  dsimp only
  split <;> rename_i hst
  · simp [shedarFailed, hst]
  · rfl

theorem shedarChecked_of_fresh (hw : shedarWaits (bytesOfWords c.words) s = false)
    (hh : shedarHead (bytesOfWords c.words) false s = none) (h8 : shOp (bytesOfWords c.words) ≠ 8)
    (hmax : storedCounter s < 0xFFFFFFFFFFFF) (hnew : storedCounter s < shCounter (bytesOfWords c.words)) :
    shedarChecked c s =
      let g := setCounter (updateEpoch s) (shCounter (bytesOfWords c.words)) c.pkt.env.norOk s
      if c.pkt.env.norOk then shedarPayload (bytesOfWords c.words) g else .error (.ended g .aborted []) := by
  unfold shedarChecked shedarSteps
  dsimp only
  rw [if_neg (by simp [hw]), hh]
  dsimp only
  rw [if_neg h8, if_neg (Nat.ne_of_lt hmax), if_neg (Nat.not_le.mpr hnew)]

theorem shedarChecked_of_epoch (hw : shedarWaits (bytesOfWords c.words) s = false)
    (hh : shedarHead (bytesOfWords c.words) false s = none) (h8 : shOp (bytesOfWords c.words) = 8) :
    shedarChecked c s = if shCounter (bytesOfWords c.words) ≠ 0 then .error (.refuse .badCounter (counterWords s))
      else shedarPayload (bytesOfWords c.words) s := by
  unfold shedarChecked shedarSteps
  dsimp only
  rw [if_neg (by simp [hw]), hh]
  dsimp only
  rw [if_pos h8]

theorem runShedarUpdate_of_error {r : HRes} (h : shedarChecked c s = .error r) : runShedarUpdate c s = r := by
  unfold runShedarUpdate
  dsimp only
  rw [h]

theorem runUpdateEpochAdvance_of_error {r : HRes} (h : shedarChecked c s = .error r) : runUpdateEpochAdvance c s = r := by
  unfold runUpdateEpochAdvance
  dsimp only
  rw [h]

theorem shedarPayload_of_none {m : List Byte} (h : shedarOpen (testRoot s) m = none) :
    shedarPayload m s = .error (.ended (alarm 8 s) .badSignature []) := by
  unfold shedarPayload shedarFailed
  rw [h]
  rfl

theorem shedarPayload_of_some {m p : List Byte} (h : shedarOpen (testRoot s) m = some p) : shedarPayload m s = .ok (p, s) := by
  unfold shedarPayload
  rw [h]

theorem runShedarUpdate_of_fresh (h8 : shOp (bytesOfWords c.words) ≠ 8) (hmax : storedCounter s < 0xFFFFFFFFFFFF)
    (hnew : storedCounter s < shCounter (bytesOfWords c.words)) (hw : shedarWaits (bytesOfWords c.words) s = false) :
    runShedarUpdate c s = messageAnswer c s := by
  unfold messageAnswer
  dsimp only
  cases hh : shedarHead (bytesOfWords c.words) false s with
  | some e => exact runShedarUpdate_of_error (shedarChecked_of_head hw hh)
  | none =>
    have hc := shedarChecked_of_fresh hw hh h8 hmax hnew
    dsimp only at hc ⊢
    cases hn : c.pkt.env.norOk with
    | false =>
      rw [hn] at hc
      exact runShedarUpdate_of_error hc
    | true =>
      rw [hn, if_pos rfl] at hc
      rw [if_pos rfl]
      cases ho : shedarOpen (testRoot (setCounter (updateEpoch s) (shCounter (bytesOfWords c.words)) true s)) (bytesOfWords c.words) with
      | none => exact runShedarUpdate_of_error (hc.trans (shedarPayload_of_none ho))
      | some p =>
        rw [shedarPayload_of_some ho] at hc
        unfold runShedarUpdate
        dsimp only
        rw [hc]
        dsimp only
        obtain ⟨st, ws, t⟩ := shedarApply (shOp (bytesOfWords c.words)) (shSlot (bytesOfWords c.words)) (shAttr (bytesOfWords c.words)) p
          (setCounter (updateEpoch s) (shCounter (bytesOfWords c.words)) true s)
        cases st with
        | ok => rfl
        | _ => exact (if_neg (by simp)).symm

theorem shedarFields_epoch (slot attr : Nat) : shedarFields 8 slot attr = decide (slot = 0 ∧ attr = 0) := by
  simp [shedarFields]

theorem runShedarUpdate_of_epoch (h8 : shOp (bytesOfWords c.words) = 8) (hw : shedarWaits (bytesOfWords c.words) s = false) :
    runShedarUpdate c s = epochMessageAnswer c s := by
  unfold epochMessageAnswer
  dsimp only
  cases hh : shedarHead (bytesOfWords c.words) false s with
  | some e => exact runShedarUpdate_of_error (shedarChecked_of_head hw hh)
  | none =>
    have hc := shedarChecked_of_epoch hw hh h8
    dsimp only
    by_cases h0 : shCounter (bytesOfWords c.words) ≠ 0
    · rw [if_pos h0] at hc ⊢
      exact runShedarUpdate_of_error hc
    rw [if_neg h0] at hc ⊢
    cases ho : shedarOpen (testRoot s) (bytesOfWords c.words) with
    | none => exact runShedarUpdate_of_error (hc.trans (shedarPayload_of_none ho))
    | some p =>
      rw [shedarPayload_of_some ho] at hc
      have happly : shedarApply 8 (shSlot (bytesOfWords c.words)) (shAttr (bytesOfWords c.words)) p s =
          if p.length ≠ 97 ∨ shSlot (bytesOfWords c.words) ≠ 0 ∨ shAttr (bytesOfWords c.words) ≠ 0 then (.badParam, [0], s)
          else (.notPermitted, [], s) := by
        unfold shedarApply
        dsimp only
        rw [shedarFields_epoch]
        by_cases hl : p.length ≠ 97 ∨ shSlot (bytesOfWords c.words) ≠ 0 ∨ shAttr (bytesOfWords c.words) ≠ 0
        · rw [if_pos hl, if_pos (by simp [payloadLen]; omega)]
        · rw [if_neg hl, if_neg (by simp [payloadLen]; omega)]
          rfl
      unfold runShedarUpdate
      dsimp only
      rw [hc]
      dsimp only
      rw [h8, happly]
      by_cases hl : p.length ≠ 97 ∨ shSlot (bytesOfWords c.words) ≠ 0 ∨ shAttr (bytesOfWords c.words) ≠ 0
      · rw [if_pos hl, if_pos hl]
      · rw [if_neg hl, if_neg hl]

theorem runUpdateEpochAdvance_of_order (h8 : shOp (bytesOfWords c.words) = 8) (h0 : shCounter (bytesOfWords c.words) = 0)
    (h63 : updateEpoch s ≠ 63) (hrows : s.vault.epochRows.length < 64) (hw : shedarWaits (bytesOfWords c.words) s = false)
    (hn : c.pkt.env.norOk = true) : runUpdateEpochAdvance c s = advanceAnswer c s := by
  unfold advanceAnswer
  dsimp only
  cases hh : shedarHead (bytesOfWords c.words) false s with
  | some e => exact runUpdateEpochAdvance_of_error (shedarChecked_of_head hw hh)
  | none =>
    have hc := shedarChecked_of_epoch hw hh h8
    rw [if_neg (by simp [h0])] at hc
    dsimp only
    cases ho : shedarOpen (testRoot s) (bytesOfWords c.words) with
    | none => exact runUpdateEpochAdvance_of_error (hc.trans (shedarPayload_of_none ho))
    | some p =>
      rw [shedarPayload_of_some ho] at hc
      unfold runUpdateEpochAdvance
      dsimp only
      rw [hc]
      dsimp only
      rw [h8, shedarFields_epoch]
      by_cases hl : p.length ≠ 97 ∨ shSlot (bytesOfWords c.words) ≠ 0 ∨ shAttr (bytesOfWords c.words) ≠ 0
      · rw [if_pos hl, if_pos (by simp; omega)]
      · refine (if_neg (by simp; omega)).trans ((if_neg (by simp [h63, hrows])).trans ((if_neg (by simp [hn])).trans ?_))
        refine Eq.trans ?_ (if_neg hl).symm
        cases c.pkt.env.cut <;> rfl

theorem headAnswer_ne_wait (st : Status) (ws : List Word) (t : State) (d : List Nat) : headAnswer s st ws ≠ .wait t d := by
  unfold headAnswer
  split <;> simp

theorem messageAnswer_ne_wait (t : State) (d : List Nat) : messageAnswer c s ≠ .wait t d := by
  unfold messageAnswer
  dsimp only
  split
  · exact headAnswer_ne_wait _ _ _ _
  split
  · split
    · simp
    · (repeat' split) <;> simp
  · simp

theorem epochMessageAnswer_ne_wait (t : State) (d : List Nat) : epochMessageAnswer c s ≠ .wait t d := by
  unfold epochMessageAnswer
  dsimp only
  split
  · exact headAnswer_ne_wait _ _ _ _
  split
  · simp
  split
  · simp
  · split <;> simp

/-! ## Statements -/

theorem runAttestOperator_of_buffer (hb : c.hasBuf = true) : runAttestOperator c s =
    .doneBuf s [] (operatorBody (bytesOfWords (c.words.take 8)) s ++
      Config.ecdsaSign (attestKey (testRoot s)) (operatorBody (bytesOfWords (c.words.take 8)) s) ++ certChain s) :=
  refuseIf_of_false (by simp [hb]) ..

theorem runAttestTenant_of_slot (hb : c.hasBuf = true) (hw : opsWait s = false) (hr : inRange (fld (c.w 0) 17 0) = true)
    (hp : isPonSlot (fld (c.w 0) 17 0) = false) (hs : isWorldS (fld (c.w 0) 17 0) = false)
    (hworld : (slotAt s (fld (c.w 0) 17 0)).attr.world ≤ 255)
    (hown : c.world = 0x0100 ∨ (slotAt s (fld (c.w 0) 17 0)).attr.world = c.world)
    (hv : (slotAt s (fld (c.w 0) 17 0)).valid = true) : runAttestTenant c s =
      let w := (slotAt s (fld (c.w 0) 17 0)).attr.world
      let body := tenantBody (fld (c.w 0) 17 0) (bytesOfWords ((c.words.drop 1).take 8)) s
      .doneBuf (slotOp (fld (c.w 0) 17 0) s) [] (body ++ Config.ecdsaSign (tenantKey (testRoot s) w (measures s)) body ++
        endorsementBody w s ++ Config.ecdsaSign (attestKey (testRoot s)) (endorsementBody w s) ++ certChain s) := by
  have hforeign : (255 < (slotAt s (fld (c.w 0) 17 0)).attr.world ||
      (c.world ≠ 0x0100 && (slotAt s (fld (c.w 0) 17 0)).attr.world ≠ c.world)) = false := by
    rcases hown with h | h
    · simp [h, hworld]
    · simp [h, h ▸ hworld]
  unfold runAttestTenant
  dsimp only
  rw [refuseIf_of_false (by simp [hb]), refuseIf_of_false (by simp [hr, hp]), refuseIf_of_false hs, if_neg (by simp [hw]),
    refuseIf_of_false hforeign, refuseIf_of_false (by simp [hv])]

/-! ## The two readings of what verifies -/

/-- No head is accepted where no signature verifies. -/
theorem shedarHead_of_none_verifies (h : ∀ key m sig, Config.verify key m sig = false) (m : List Byte) (whole : Bool) :
    (shedarHead m whole s).isSome = true := by
  unfold shedarHead
  dsimp only
  rw [h]
  (repeat' split) <;> simp_all

/-- Where no signature verifies, what MessagesAndStatementsAnswer says holds. -/
theorem messagesAndStatementsAnswer_of_none_verifies (h : ∀ key m sig, Config.verify key m sig = false) :
    Obligations.MessagesAndStatementsAnswer := by
  unfold Obligations.MessagesAndStatementsAnswer
  refine ⟨?_, ?_, fun n body a s hr hp hw h200 => ⟨?_, ?_, ?_, ?_⟩, fun n key s hn hk => shedarApply_key hn hk,
    fun s hl h31 hk => shedarApply_deploy hl h31 hk, ?_,
    fun p k s hp => ⟨fun hk => ?_, fun hk => ?_, fun hk => ?_, fun hk => ?_, fun hk => ?_⟩, ?_, ?_, ?_⟩
  · exact answers (r := messageAnswer) (fun _ _ => rfl) (by decide)
      (fun c f _ ⟨h8, hmax, hnew, hw⟩ => runShedarUpdate_of_fresh h8 hmax hnew hw) fun c f t d _ => messageAnswer_ne_wait t d
  · refine answers (r := epochMessageAnswer) (fun _ _ => rfl) (by decide) (fun c f _ ⟨h8, hw⟩ => ?_)
      fun c f t d _ => epochMessageAnswer_ne_wait t d
    exact runShedarUpdate_of_epoch h8 (by simp [shedarWaits, h8, hw])
  · exact fun hc hh hb hv ht hw' ha hfit hp' => shedarApply_install ⟨hr, hp, hw, h200⟩ hc hh hb hv ht hw' ha hfit hp'
  · exact fun hh hb hv hfit => shedarApply_replace ⟨hr, hp, hw, h200⟩ hh hb hv hfit
  · exact fun hv => shedarApply_erase ⟨hr, hp, hw, h200⟩ hv
  · exact fun hv hn ha => shedarApply_narrow ⟨hr, hp, hw, h200⟩ hv hn ha
  · refine answers (r := advanceAnswer) (fun _ _ => rfl) (by decide) (fun c f _ ⟨h8, h0, h63, hrows, hw, hn⟩ => ?_) fun c f t d _ => ?_
    · exact runUpdateEpochAdvance_of_order h8 h0 h63 hrows (by simp [shedarWaits, h8, hw]) hn
    · obtain ⟨e, he⟩ := Option.isSome_iff_exists.mp (shedarHead_of_none_verifies h (bytesOfWords c.words) false (s := f))
      unfold advanceAnswer
      dsimp only
      rw [he]
      exact headAnswer_ne_wait _ _ _ _
  · unfold slotAt
    rw [advanceEpoch_begun p hk]
    exact ⟨rfl, rfl, rfl⟩
  · exact advanceEpoch_rows p hk
  · rw [updateEpoch_advanceEpoch p hk]
    cases hb : Config.rowBurns s.vault.epochRows.length with
    | true => exact rfl
    | false =>
      unfold slotAt
      rw [advanceEpoch_unburned p hk hb]
      exact ⟨rfl, rfl, rfl⟩
  · cases hb : Config.rowBurns s.vault.epochRows.length with
    | false => exact .inl rfl
    | true =>
      obtain ⟨b, hslot⟩ := takeAuthority_slot (s := rowBurned p s) p
      rw [advanceEpoch_authority p hk hb, hslot]
      exact .inr ⟨rfl, take_bodyOf_updateAuthority hp, rfl⟩
  · cases hb : Config.rowBurns s.vault.epochRows.length with
    | false => exact .inl rfl
    | true =>
      rw [advanceEpoch_ended p hk hb]
      exact .inr ⟨(setCounter_vault ..).1, (setCounter_keeps ..).2.2⟩
  · exact answers (fun _ _ => rfl) (by decide) (fun c f _ hb => runAttestOperator_of_buffer hb) fun c f t d _ => by simp
  · exact answers (fun _ _ => rfl) (by decide)
      (fun c f _ ⟨hb, hw, hr, hp, hs, hworld, hown, hv⟩ => runAttestTenant_of_slot hb hw hr hp hs hworld hown hv)
      fun c f t d _ => by simp
  · exact endsOk (fun _ _ => rfl) (fun c f _ _ => rfl) fun _ _ _ => by simp

/-- The bytes of an EPOCH_ADVANCE for this device at epoch 0. -/
def epochMessage : List Byte :=
  [0x53, 0x48, 0x44, 0x52, 0, 1, 0, 8] ++ beBytes 16 Config.deviceId.toNat ++ List.replicate 264 0

/-- UPDATE_EPOCH_ADVANCE with that message, during which power is lost after the first step. -/
def epochPacket : Packet := { Sys2Proof.Tests.pk (wordsOfBytes 72 epochMessage) with env := { cut := some 1 } }

/-- The booted module at epoch 0 of the update authority that it holds. -/
def epochState : State := { Sys2Proof.Tests.up with vault := { Sys2Proof.Tests.up.vault with
  epochRows := [⟨true, Config.sha384 ((slotBytes Sys2Proof.Tests.up updateAuthority).take 97)⟩] } }

theorem epochPacket_accepted : accepts opUpdateEpochAdvance epochPacket epochState = true := by decide +kernel

theorem bytes_epochPacket (f : State) : bytesOfWords (ctxOf opUpdateEpochAdvance epochPacket f).words = epochMessage :=
  bytesOfWords_wordsOfBytes 72 epochMessage <| by
    rw [epochMessage, List.length_append, List.length_append, length_beBytes, List.length_replicate]
    rfl

theorem shedarHead_epochMessage (h : ∀ key m sig, Config.verify key m sig = true) :
    shedarHead epochMessage false (fetched opUpdateEpochAdvance epochPacket epochState) = none := by
  have hdev : beNat (slice epochMessage 8 16) = Config.deviceId.toNat := by
    unfold epochMessage
    rw [slice_middle (i := 8) rfl (length_beBytes 16 _), beNat_beBytes]
    exact Nat.mod_eq_of_lt (Nat.lt_of_lt_of_eq Config.deviceId.isLt (by decide))
  have hepoch : shEpoch epochMessage = updateEpoch (fetched opUpdateEpochAdvance epochPacket epochState) := by decide +kernel
  have hlife : (fetched opUpdateEpochAdvance epochPacket epochState).vault.life = .provisioned := by decide +kernel
  have hrow : ((fetched opUpdateEpochAdvance epochPacket epochState).vault.epochRows[shEpoch epochMessage]?).map EpochRow.hash =
      some (Config.sha384 ((slotBytes (fetched opUpdateEpochAdvance epochPacket epochState) updateAuthority).take 97)) := rfl
  unfold shedarHead
  dsimp only
  rw [if_neg (by decide +kernel), if_neg (by decide +kernel), if_neg (by decide +kernel), if_neg (fun hne => hne hdev), if_neg ?_]
  rw [hrow, h]
  simp [hepoch]

/-- Where every signature and tag verifies and every payload is a public key, MessagesAndStatementsAnswer fails: its
UPDATE_EPOCH_ADVANCE that loses power leaves out that the command is in progress. -/
theorem not_messagesAndStatementsAnswer_of_all_verify (h : ∀ key m sig, Config.verify key m sig = true)
    (hg : ∀ key iv aad text tag, Config.gcmValid key iv aad text tag = true)
    (hp : ∀ key iv aad text, (Config.gcmPlain key iv aad text).length = 97) : ¬ Obligations.MessagesAndStatementsAnswer := by
  intro ho
  obtain ⟨-, -, -, -, -, he, -⟩ := ho
  let f := fetched opUpdateEpochAdvance epochPacket epochState
  let c := ctxOf opUpdateEpochAdvance epochPacket f
  have hm : bytesOfWords c.words = epochMessage := bytes_epochPacket f
  obtain ⟨p, hopen, hlen⟩ : ∃ p, shedarOpen (testRoot f) epochMessage = some p ∧ p.length = 97 :=
    ⟨_, if_pos (hg _ _ _ _ _), hp _ _ _ _⟩
  have hok : shOp (bytesOfWords c.words) = 8 ∧ shCounter (bytesOfWords c.words) = 0 ∧ updateEpoch f ≠ 63 ∧
      f.vault.epochRows.length < 64 ∧ opsWait f = false ∧ c.pkt.env.norOk = true := by
    rw [hm]
    refine ⟨?_, ?_, ?_, ?_, ?_, ?_⟩
    all_goals decide +kernel
  have hr : advanceAnswer c f = .wait (advanceEpoch p 1 f) [] := by
    unfold advanceAnswer
    dsimp only
    rw [hm, shedarHead_epochMessage h]
    dsimp only
    rw [hopen]
    dsimp only
    rw [if_neg (by rw [hlen]; decide +kernel)]
    rfl
  obtain ⟨h8, h0, h63, hrows, hw, hn⟩ := id hok
  have hrun : opUpdateEpochAdvance.run c f = .wait (advanceEpoch p 1 f) [] := by
    rw [show opUpdateEpochAdvance.run = runUpdateEpochAdvance from rfl, ← hr]
    exact runUpdateEpochAdvance_of_order h8 h0 h63 hrows (by simp [shedarWaits, h8, hw]) hn
  have hidle : (pairAt (kept opUpdateEpochAdvance f (advanceEpoch p 1 f)) 0).executing = none := by
    have hhost : (advanceEpoch p 1 f).host = f.host := (storeSetting_of_ok ..).2
    unfold pairAt
    rw [kept_host, hhost]
    decide +kernel
  have hq : queueOf epochPacket = 0 := by decide
  refine not_answers_of_waits (r := advanceAnswer) (t := advanceEpoch p 1 f) (d := []) (fun _ _ => rfl) epochPacket_accepted
    hok hrun hr ?_ he
  rw [hq]
  exact hidle

end Sys2Proof.Machine
end
